-- ==== Sys2Proof/Word.lean ====
section
/-!
DEFINITION. The word types of the SL1M: bytes, the 16-bit lanes of Elvoth-V, the 32-bit words of the register interface and
of Elvoth-S (R40, R42, R62), and the index types of the device's repeated units (R8, R18).
-/
namespace Sys2Proof

abbrev Byte := BitVec 8
abbrev W16 := BitVec 16
abbrev W32 := BitVec 32
/-- A vector register: 32 lanes of 16 bits, lane 0 in bits 15:0 (R42). -/
abbrev VecW := BitVec 512
/-- A predicate register: one bit per lane (R42). -/
abbrev PredW := BitVec 32
/-- An accumulator: 32 lanes of 40 bits (R42). -/
abbrev AccW := BitVec 1280
/-- A chamber, a reach (R8, R18). -/
abbrev ChamberId := Fin 16
abbrev ReachId := Fin 16

end Sys2Proof
end

