-- ==== Sys2Proof/Syntax.lean ====
section
/-!
DEFINITION. The commands of the SL1M, one constructor per row of the opcode table, with the row's operands. The instruction
rows carry the engine that issues them and the fields of the 32-bit word (R40, R67); the major opcode is fixed by the row. The
event rows carry the physical values the event brings (readings, levels, ECC outcomes, received packets). The register rows
carry who makes the access.
-/
namespace Sys2Proof

/-- Who executes an instruction: a chamber (Elvoth-V) or the lockstep management cores (Elvoth-S) (R39); `mgmtSplit` the cores where the
checker finds that their outputs for this instruction differ (R65). -/
inductive Engine where
  | chamber (c : ChamberId)
  | mgmt
  | mgmtSplit
deriving DecidableEq, Repr

/-- The slot of an Elvoth-V bundle that a NOP fills (R41). -/
inductive Slot where
  | scalar | vector
deriving DecidableEq, Repr

/-- The fields of an Elvoth word below its major opcode: bits 25:21, 20:16, 15:11, 10:8 and 7:0 (R40). -/
structure Fields where
  d : BitVec 5
  a : BitVec 5
  b : BitVec 5
  pred : BitVec 3
  minor : BitVec 8
deriving DecidableEq, Repr

/-- Format I under majors 0x01-0x09 (R71). -/
inductive ImmOp where
  | addi | andi | ori | xori | slli | srli | srai | slti | sltiu
deriving DecidableEq, Repr

/-- Majors 0x10-0x14 (R73). -/
inductive LoadOp where
  | lw | lh | lhu | lb | lbu
deriving DecidableEq, Repr

/-- Majors 0x15-0x17 (R73). -/
inductive StoreOp where
  | sw | sh | sb
deriving DecidableEq, Repr

/-- Majors 0x18-0x1D (R74). -/
inductive BranchOp where
  | beq | bne | blt | bge | bltu | bgeu
deriving DecidableEq, Repr

/-- Who accesses the register interface (R404, RIF_DISCARD.REQUESTER). -/
inductive Requester where
  | host | mgmt | debug
deriving DecidableEq, Repr

/-- What the error-correcting code of a store found in one read: clean; corrected in line; uncorrectable with a re-read that
succeeded (transient); uncorrectable twice (lasting) (R134-R137, R173, R259). -/
inductive Ecc where
  | clean | corrected | transient | lasting
deriving DecidableEq, Repr

/-- The five requesters of the basin's service slots, in rotation order (R133). -/
inductive SvcReq where
  | host | mgmt | peer | nand | scrub
deriving DecidableEq, Repr

/-- A service access waiting for a bank: its requester, its basin line, the unit to write (none: a read), and what the code
finds when the unit is read. -/
structure SvcAccess where
  req : SvcReq
  line : BitVec 16
  write : Option (BitVec 128)
  ecc : Ecc
deriving DecidableEq, Repr

/-- The flight slots (R118). -/
inductive FSlot where
  | A | B | E
deriving DecidableEq, Repr


/-- The blocks that a BR reaction resets (R252). -/
inductive Block where
  | security | hostLink | peerLink | safety | nand | pairing | crc
deriving DecidableEq, Repr

/-- The two links (R290). -/
inductive LinkId where
  | host | peer
deriving DecidableEq, Repr

/-- The two ring pairs of the wharf (R422). -/
inductive Pair where
  | openPair | session
deriving DecidableEq, Repr

/-- What a management-core access meets outside the core: a lockstep mismatch (R65), and the ECC outcome of the store it
reads (R63 cause 0x08, R137). -/
structure MgmtIO where
  lockstep : Bool
  ecc : Ecc
deriving DecidableEq, Repr

/-- What a reach's sense path reads in a dummy-row measurement slot (R224): the sums of the 16 zero and 16 reference-current counts,
VREF_IN in 0.1 mV, and the 32 counts at k = 16 and k = 56. -/
structure SlotMeas where
  reach : ReachId
  zeros : Nat
  ref : Nat
  vref : Nat
  c16 : List Nat
  c56 : List Nat
deriving DecidableEq, Repr

/-- What a comparator check flags: a reach and a sink (R197, R198). -/
structure SinkFlag where
  reach : ReachId
  sink : Fin 2048
deriving DecidableEq, Repr

/-- A sensor's sample (R235, R236): its value in 1/16 °C, and whether it is at a rail or its conversion did not complete. -/
structure SensorSample where
  value : BitVec 16
  failed : Bool
deriving DecidableEq, Repr

/-- What the row-switch current sense of a reach read over the display scans of the closing lock cycle (R215, R232): the mean over the
lock cycle in µA, and the mean over its display scans in mA. -/
structure ReachCurrent where
  microamps : Nat
  milliamps : Nat
deriving DecidableEq, Repr

/-- A packet as it arrives (R275): its sequence, whether it is whole and without a code violation, ENC, the payload as received, the tag, and
the CRC-32 that came with it. -/
structure RxPacket where
  seq : BitVec 12
  whole : Bool
  enc : Bool
  payload : List Byte
  tag : List Byte
  crc : W32
deriving DecidableEq, Repr

/-- What a receiving lane shows at a SLACK set (R268, R272): the elastic buffer's fill from its centre, the lane's lateness in symbol
times, and the code violations since the set before. -/
structure SlackLane where
  lane : Fin 4
  fill : Int
  skew : Nat
  violations : Nat
deriving DecidableEq, Repr

/-- What the power-on detector senses (R438): the rails in mV, and the REFCLK frequency as measured against its oscillator, in kHz (none: no edge
for 1 µs). -/
structure PowerSense where
  core : Nat
  srds : Nat
  a18 : Nat
  io18 : Nat
  io33 : Nat
  refclk : Option Nat
deriving DecidableEq, Repr

/-- What the controller finds of a NAND part (R366, R367): ONFI, with a parameter page copy whose CRC checks; SLC; bytes of a page and of its
spare; NV-DDR2; chip enables that answer, and whether their parts are identical; read-retry levels, pages per block, blocks over all chip
enables. -/
structure FoundPart where
  onfi : Bool
  slc : Bool
  page : Nat
  spare : Nat
  nvddr2 : Bool
  ces : Nat
  alike : Bool
  retry : Nat
  ppb : Nat
  blocks : Nat
deriving DecidableEq, Repr

/-- How the programming of OTP bits goes: every bit takes; the first `taken` take and the next fails its read-back (R339); the die temperature
leaves 0-70 °C after the first `taken`, and the programming aborts (R242). -/
inductive OtpRun where
  | takes
  | fails (taken : Nat)
  | aborts (taken : Nat)
deriving DecidableEq, Repr

/-- A copy of the factory trim package as the ROM reads it (R351): its SERIAL; the bytes that its signature covers, and the signature block
after them, KEY then R and S (R344); the bytes of the factory plane that it holds, by trim-store offset; and the register values that it holds,
as the ROM leaves them in the management SRAM, by SRAM offset. The spec does not place these within the package. -/
structure TrimPkg where
  serial : List Byte
  signed : List Byte
  key : List Byte
  sig : List Byte
  plane : List (Nat × Byte)
  left : List (Nat × Byte)
deriving DecidableEq, Repr

/-- What a boot meets (R347-R352, R363, R367): whether step 1 passes, the OTP bits that fail their read check, whether the known-answer tests
and the entropy tests pass, the public key that the PUF gives and its raw power-up contents, the NAND part found, whether PREFER and the
two images can be read, and the two copies of the trim package (none: unreadable). -/
structure BootIO where
  romOk : Bool
  otpFail : List Nat
  katOk : Bool
  entropyOk : Bool
  key : List Byte
  pufRaw : List Byte
  part : Option FoundPart
  preferOk : Bool
  readA : Bool
  readB : Bool
  trim0 : Option TrimPkg
  trim1 : Option TrimPkg
deriving DecidableEq, Repr

/-- What manufacture and earlier use have left in the device and in the NAND beside it when the model's first power-up comes: OTP (R338), the
factory-bad blocks (R375), the committed files (partition, index, the blocks of each copy, bytes; R371), and the identity record (R337). -/
structure Fitted where
  otp : List Byte
  factoryBad : List Nat
  files : List (Nat × Nat × List (List Nat) × List Byte)
  idRecord : List Byte
deriving DecidableEq, Repr


/-- A word that no row but NOP's takes, and the slot of the bundle that it stands in (R66). -/
structure SlotWord where
  slot : Slot
  word : W32
deriving DecidableEq, Repr

/-- What the reads of a ledger update meet (R173): the ledger word's outcome, and the words of trim memory that are not clean. -/
structure LedgerReads where
  ecc : Ecc
  errs : List (Nat × Ecc)
deriving DecidableEq, Repr

/-- A WIDTH set (R267): MASK and the byte that should be its inverse. -/
structure WidthBytes where
  mask : Byte
  inverse : Byte
deriving DecidableEq, Repr

/-- The two sequences of an ACK or NAK control word (R280). -/
structure AckFields where
  last : BitVec 12
  limit : BitVec 12
deriving DecidableEq, Repr

/-- Where a read stands: its address in the memory map and its number of bytes. -/
structure Span where
  addr : W32
  len : Nat
deriving DecidableEq, Repr

/-- A packet with the header that it arrived with: TYPE, LEN and ADDR (R275). -/
structure RawPacket where
  pkt : RxPacket
  type : BitVec 4
  len : BitVec 11
  addr : W32
deriving DecidableEq, Repr

/-- A command of the SL1M: one constructor per row of the opcode table. -/
inductive Instr where
  /-- R66: The all-zero instruction issues in either slot and has no effect. The row takes every word that no other row names: all zeros it is
  NOP, anything else is an illegal encoding. -/
  | nop (e : Engine) (at_ : SlotWord)
  /-- R70: A major-0x00 scalar ALU, multiply or divide operation computes sd from sa and sb. -/
  | scalarOp (e : Engine) (f : Fields)
  /-- R71: A format-I immediate arithmetic, logic, shift or compare instruction computes sd. -/
  | scalarImmOp (e : Engine) (op : ImmOp) (f : Fields)
  /-- R72: Writes the zero-extended 16-bit immediate to sd. -/
  | li (e : Engine) (f : Fields)
  /-- R72: Writes the immediate into bits 31:16 of sd in Elvoth-S. -/
  | lui (e : Engine) (f : Fields)
  /-- R77: Loads a 16-bit local-store word into sd with latency 3. -/
  | ld (e : Engine) (f : Fields)
  /-- R77: Stores a scalar register into the local store. -/
  | st (e : Engine) (f : Fields)
  /-- R77: Loads a local-store line into the enabled lanes of vd. -/
  | vld (e : Engine) (f : Fields)
  /-- R77: Stores the enabled lanes of a vector into a local-store line. -/
  | vst (e : Engine) (f : Fields)
  /-- R79: Starts entry n of the lock's barge list and sets the pending tags of its destination lines. -/
  | bargeIssue (e : Engine) (f : Fields)
  /-- R80: Pushes a loop-stack entry with start, end and trip count. -/
  | loop (e : Engine) (body : BitVec 12) (trip : BitVec 16)
  /-- R81: Transfers control to an absolute target after two delay bundles. -/
  | jump (e : Engine) (f : Fields)
  /-- R81: Jumps and pushes the index three bundles after the call. -/
  | call (e : Engine) (f : Fields)
  /-- R81: Continues at the popped return index after two delay bundles. -/
  | ret (e : Engine) (f : Fields)
  /-- R55: Ends the lock; issued results and barges still complete. -/
  | halt (e : Engine) (f : Fields)
  /-- R82: Writes the lock number, chamber number or lock index to sd. -/
  | rdctx (e : Engine) (f : Fields)
  /-- R83: A major-0x30 vector ALU or compare operation writes the enabled lanes or predicate bits. -/
  | vectorOp (e : Engine) (f : Fields)
  /-- R84: PAND, POR or PXOR combines two predicates into pd. -/
  | predicateOp (e : Engine) (f : Fields)
  /-- R85: Writes one lane of a vector into a scalar register from the vector slot. -/
  | vext (e : Engine) (f : Fields)
  /-- R85: Broadcasts a scalar register into every enabled lane of vd. -/
  | vbcast (e : Engine) (f : Fields)
  /-- R86: Clamps each lane between the bounds held in vb and vb+1. -/
  | clamp (e : Engine) (f : Fields)
  /-- R87: Writes the lane minimum to vd and the lane maximum to vd+1. -/
  | minmax (e : Engine) (f : Fields)
  /-- R88: Multiplies lanes and narrows the product into vd. -/
  | vmul (e : Engine) (f : Fields)
  /-- R88: Writes the exact lane products into an accumulator. -/
  | vmula (e : Engine) (f : Fields)
  /-- R88: Adds lane products into an accumulator read in the landing cycle. -/
  | vmac (e : Engine) (f : Fields)
  /-- R88: Shifts, rounds and saturates an accumulator into vd. -/
  | accNarrow (e : Engine) (f : Fields)
  /-- R89: Fetches and filters texels from a window descriptor, bilinear or bicubic. -/
  | sample (e : Engine) (f : Fields)
  /-- R94: Rasterises a staged glyph edge block into coverage for one tile row. -/
  | cover (e : Engine) (f : Fields)
  /-- R95: Combines destination, source and alpha lanes in the selected mode. -/
  | blend (e : Engine) (f : Fields)
  /-- R96: Looks up and interpolates a 1,025-entry table per lane. -/
  | lut16 (e : Engine) (f : Fields)
  /-- R97: Writes predicate bits from the active pair health map for a row and pixel group. -/
  | health (e : Engine) (f : Fields)
  /-- R99: Delivers 32 request lanes for one row segment to the reach's trim-stage port. -/
  | reqPut (e : Engine) (f : Fields)
  /-- R48: An issued instruction's result lands in its destination register at its latency. -/
  | resultLand (c : ChamberId)
  /-- R73: LW, LH, LHU, LB or LBU loads from a byte address in a management core. -/
  | elvothSLoad (e : Engine) (op : LoadOp) (f : Fields) (io : MgmtIO)
  /-- R73: SW, SH or SB stores to a byte address in a management core. -/
  | elvothSStore (e : Engine) (op : StoreOp) (f : Fields) (io : MgmtIO)
  /-- R74: A conditional branch compares sa with sb and continues at the offset if it holds. -/
  | branch (e : Engine) (op : BranchOp) (f : Fields)
  /-- R74: Writes the return address and jumps by a 16-bit word offset. -/
  | jal (e : Engine) (f : Fields)
  /-- R74: Writes the return address and jumps to sa plus an immediate. -/
  | jalr (e : Engine) (f : Fields)
  /-- R62: Reads a management-core control word. -/
  | cwr (e : Engine) (f : Fields)
  /-- R62: Writes a management-core control word, trapping on boot-level words at firmware level. -/
  | cww (e : Engine) (f : Fields)
  /-- R64: A write of 1 to CW_NMI_ACK acknowledges the NMI and stops the escalation timer. -/
  | nmiAck
  /-- R75: Takes a trap with cause 0x09 and the immediate as value. -/
  | trap (e : Engine) (f : Fields)
  /-- R63: Returns from a trap, restoring IE and resuming at CW_TRAP_PC. -/
  | rett (e : Engine) (f : Fields)
  /-- R75: Returns from an NMI, clearing NMI_ACTIVE and taking any pending NMI. -/
  | retn (e : Engine) (f : Fields)
  /-- R75: Waits until a maskable interrupt or NMI is pending. -/
  | wfi (e : Engine) (f : Fields)
  /-- R75: Completes every earlier load and store before any later one starts. -/
  | fence (e : Engine) (f : Fields)
  /-- R63: A pending maskable interrupt is taken with cause 0x10 while IE is 1. -/
  | interruptTake
  /-- R64: A pending NMI from the fault collector is taken between instructions. -/
  | nmiTake
  /-- R24: An active FRAME_SYNC edge is judged valid or invalid and drives the sync state machine. -/
  | frameSyncEdge (at_ : Nat) (rising : Bool)
  /-- R27: No valid edge within the window after the last one moves LOCKED or ACQUIRE to HOLDOVER. -/
  | syncEdgeTimeout
  /-- R27: HOLDOVER_LC lock cycles without a valid edge move the sequencer to FREE and raise FS096. -/
  | holdoverExpire
  /-- R27: No valid edge pair within 2/F after RUN places the first sluice in FREE. -/
  | freeStart
  /-- R29: The sluice tick carries out the ordered sluice actions of the lock cycle boundary. The sixteen reaches' currents are those of
  `ReachCurrent`. -/
  | sluice (errs : List (Nat × Ecc)) (microamps milliamps : List Nat)
  /-- R109: At a lock's START cycle each chamber in its mask starts at ENTRY. -/
  | lockStart (index : Fin 512)
  /-- R121: No HALT by lock-relative cycle LENGTH-1 halts the chamber and raises FS105. -/
  | lockLengthExpire (c : ChamberId)
  /-- R121: A barge repetition's issue cycle passes without its BARGE.ISSUE and FS106 is raised. -/
  | bargeRepMissed (c : ChamberId) (n : Fin 256)
  /-- R114: A barge beat reads its basin bank in its data cycle and lands in the local store. -/
  | bargeBeat (c : ChamberId) (slot : Fin 8) (ecc : Ecc)
  /-- R105: After 64 cycles the retry stall ends and every chamber and barge resumes. -/
  | retryStallEnd
  /-- R133: A waiting service requester is given a service slot on a bank and its access lands. -/
  | basinServiceAccess (bank : Fin 32) (waiting : List SvcAccess)
  /-- R138: The scrubber reads a basin line in service slots and writes back corrections. -/
  | scrubStep (errs : List (Fin 32 × Ecc))
  /-- R176: The trim stage forms the drive value of a delivered request through the gain chain. -/
  | trimFormat (reach : ReachId) (errs : List (Nat × Ecc))
  /-- R179: The ledger engine adds wear for an emitter of the current group. -/
  | ledgerUpdate (k : Fin 8192) (io : LedgerReads)
  /-- R194: A row slot starts: the previous row opens, pre-charge drives, the new row closes. -/
  | rowSlot (vled : Nat) (meas : List SlotMeas)
  /-- R198: At slot tick 28 the short comparators sample every column. -/
  | shortCheck (flags : List SinkFlag)
  /-- R197: At slot tick 223 the compliance comparators of long-on sinks sample for opens. -/
  | openCheck (flags : List SinkFlag)
  /-- R201: A row switch over 1.80 A for 8 ticks opens for the slot and FS140 is raised. -/
  | rowOvercurrent (reach : ReachId)
  /-- R232: The thermal model updates once per lock cycle in the slack scan. -/
  | thermalUpdate
  /-- R235: Every diode sensor samples at 10 Hz or 1 kHz. -/
  | sensorSample (samples : List SensorSample)
  /-- R240: A sensor diode at 120 °C cuts VLED drive in hardware and raises FS146. -/
  | thermalTrip
  /-- R218: 16 µs after a sluice the painter port starts a stream or skips. -/
  | painterStreamStart
  /-- R217: A painter stream completes its last bit. -/
  | painterStreamEnd
  /-- R219: When the device stops lighting, one all-zero stream is sent and the line released. -/
  | painterZeroStream
  /-- R270: Every 1 ms in DETECT the link polls for receivers and may enter TRAIN. -/
  | linkDetectPoll (link : LinkId) (lanes : BitVec 4)
  /-- R271: A received TP1 or TP2 set advances lane training and rate selection. -/
  | trainingSet (link : LinkId) (lane : Fin 4) (tp2 : Bool) (number rates preset flags : BitVec 8)
  /-- R270: 24 ms at one rate without completion returns the link to DETECT with FS033. -/
  | trainTimeout (link : LinkId)
  /-- R268: A received SLACK set adjusts the elastic buffer, deskew and LOCK progress. -/
  | slackSet (link : LinkId) (lanes : List SlackLane)
  /-- R270: 2 ms in LOCK without meeting R272 returns to DETECT with FS033. -/
  | lockTimeout (link : LinkId)
  /-- R273: In EXCHANGE each end sends a CAPS set every 1 µs. -/
  | capsSend (link : LinkId)
  /-- R273: A received CAPS set is checked and completes or refuses the exchange. -/
  | caps (link : LinkId) (content : List Byte) (crc : W32)
  /-- R270: 2 ms in EXCHANGE without completion returns to DETECT with FS033. -/
  | exchangeTimeout (link : LinkId)
  /-- R284: Received WIDTH sets are ANDed, answered and settle the link width. -/
  | widthSet (link : LinkId) (set : WidthBytes)
  /-- R284: A lost lane is fenced, the width recomputed and WIDTH sets sent. -/
  | laneLoss (link : LinkId) (lane : Fin 4)
  /-- R285: A lane clean for the hold is offered back with WIDTH sets. -/
  | laneReturn (link : LinkId) (lane : Fin 4)
  /-- R270: 1 ms of electrical idle on every lane moves a running link to RECOVER. -/
  | electricalIdle (link : LinkId)
  /-- R286: RECOVER_MS elapses and the link returns to DETECT for a fresh bring-up. -/
  | recoverTimeout (link : LinkId)
  /-- R283: A host WR packet lands in sequence, is judged against grants and map, and is answered by a CPL. -/
  | wr (pkt : RxPacket) (addr : W32)
  /-- R283: A host RD packet is judged and answered by a CPL carrying the data. -/
  | rd (pkt : RxPacket) (addr : W32) (len : BitVec 11) (errs : List (Nat × Ecc))
  /-- R276: A SAFE packet delivers a channel-A telegram copy. -/
  | safe (pkt : RxPacket)
  /-- R287: A TIME packet sets an offset that steps or slews SYS_TIME. -/
  | time (pkt : RxPacket)
  /-- R280: A received ACK link control word releases acknowledged packets and updates LIMIT. -/
  | ack (link : LinkId) (f : AckFields) (crc : BitVec 16)
  /-- R281: A received NAK makes the sender resend from the first unacknowledged packet. -/
  | nak (link : LinkId) (f : AckFields) (crc : BitVec 16)
  /-- R280: An ACK is sent within 1 µs of landing or after 8 unacknowledged packets. -/
  | ackSend (link : LinkId)
  /-- R281: 20 µs without acknowledgement progress triggers a resend. -/
  | replayTimeout (link : LinkId)
  /-- R282: A partial packet idle for PKT_NS is discarded with a NAK and FS036. -/
  | pktTimeout (link : LinkId)
  /-- R282: A packet ended with ABT is discarded without NAK or fault. -/
  | abortedPacket (link : LinkId)
  /-- R318: A peer XFER packet lands copy data in the standby's basin. -/
  | xfer (pkt : RxPacket) (addr : W32)
  /-- R333: A peer XCTL record carries slots, berth, wharf or END resynchronisation control. -/
  | xctl (pkt : RxPacket)
  /-- R323: The active's SLUICE record received in Shadow decides commit, lock number, slot and scene. -/
  | sluiceRecord (pkt : RxPacket) (arrival : Int)
  /-- R323: No record by chamber cycle 12,000 makes the device act alone and raise FS173. -/
  | sluiceRecordTimeout
  /-- R325: Received MAP entries are applied to the mirror of the twin's map. -/
  | map (pkt : RxPacket)
  /-- R326: A received SEAL is checked against the mirror to couple the twin's map. -/
  | seal (pkt : RxPacket)
  /-- R327: The twin's FCRC is compared per reach and twin lock updated. -/
  | fcrc (pkt : RxPacket)
  /-- R321: An ECHO request is answered once, or an answer updates the latency estimate. -/
  | echo (pkt : RxPacket) (ticks : Nat)
  /-- R325: A change of the local map is sent as MAP entries within 2 µs. -/
  | localMapSend
  /-- R314: A ROLE value stable for 8 samples is recognised. -/
  | roleRecognised (role : BitVec 2)
  /-- R293: A recognised input pair pattern changes the pair's state. -/
  | safetyPattern (pair : Fin 4) (a b : Bool)
  /-- R293: A discrepant pattern held for DISC_MS moves the pair to DISCREPANT. -/
  | discrepancyTimeout (pair : Fin 4)
  /-- R388: A request for Egress enters it, sets RUN if needed and commits. -/
  | egressEnter
  /-- R304: A held copy without partner for two lock cycles is discarded with FS075. -/
  | telegramUnmatched (towpath : Bool)
  /-- R305: No accepted pair within the timeout starts the safe scene-0 Egress reaction. -/
  | telegramTimeout
  /-- R307: A towpath TELEGRAM frame delivers a channel-B copy. -/
  | towpathTelegram (whole : Bool) (frame : List Byte)
  /-- R308: A POLL naming the device schedules a STATUS reply. -/
  | towpathPoll (whole : Bool) (frame : List Byte)
  /-- R308: 20 µs after a poll the device drives TOWP_DE and sends a STATUS frame. -/
  | towpathStatus
  /-- R301: Every 1 s one output channel is driven low for a test pulse. -/
  | outputTestPulse
  /-- R301: The pulse is released and its readback judged. -/
  | outputTestEnd (low high others : Bool)
  /-- R302: Readback differing in two samples holds the output low and raises FS068 or FS069. -/
  | outputReadbackError (first second : BitVec 4)
  /-- R257: The 1 ms escalation timer expires, raising FS005 and possibly a chip reset. -/
  | escalationTimeout
  /-- R250: A control-class event source's live bit falls 1 ms after its last raise. -/
  | liveBitExpire (source : Fin 192)
  /-- R250: A write of 1 clears a sticky bit unless its live or force bit is 1. -/
  | fltClear (who : Requester) (word : Fin 6) (mask : W32)
  /-- R258: A force-bit write lands only in Test, Maintenance or boot level and raises the source. -/
  | fltForce (who : Requester) (word : Fin 6) (value : W32)
  /-- R395: Power rises and the device is held in Reset until RESET_N rises. -/
  | powerUp (fitted : Option Fitted)
  /-- R396: A filtered low on RESET_N holds the device in Reset. -/
  | resetN (low : Bool)
  /-- R438: A rail or REFCLK outside its window holds the device in Reset. -/
  | powerOnDetect (sense : PowerSense)
  /-- R347: Reset release starts the ROM boot sequence. -/
  | bootStart (io : BootIO)
  /-- R349: 500 ms without DONE makes a chip reset and marks the image failed. -/
  | bootWatchdog
  /-- R349: A write of SEC_BOOT_CTRL.DONE drops BOOT_PHASE and locks boot-level state. -/
  | bootDone
  /-- R392: The firmware completes start-up and Boot ends. -/
  | bootEnd (index : Fin 23)
  /-- R398: Release of a SERVICE_N press resets, enters Maintenance or is ignored. -/
  | servicePress (ms : Nat)
  /-- R398: A press reaching 10 s sets STUCK. -/
  | serviceStuck
  /-- R363: An entropy health test fails and FS013 becomes live. -/
  | entropyHealthFail
  /-- R362: The TAP instruction shifts out the current challenge. -/
  | secChal
  /-- R362: The TAP instruction shifts in a debug token for acceptance. -/
  | secToken (token : List Byte)
  /-- R288: EYE_CTRL.START starts an eye scan at the written point. -/
  | eyeScanStart (who : Requester) (lane : Fin 6) (volt : BitVec 8) (phase : BitVec 6) (exp : BitVec 6)
  /-- R288: EYE_CTRL.STOP ends a scan in progress. -/
  | eyeScanStop (who : Requester) (lane : Fin 6)
  /-- R288: An eye scan completes its length or aborts. The bits that disagreed, those that the data sampler read as 1 and those that it read as 0. -/
  | eyeScanEnd (lane : Fin 6) (ones zeros : Nat)
  /-- R409: A word write applies each field of a register under its type. -/
  | registerWrite (who : Requester) (a : W32) (data : List Byte)
  /-- R406: A word read returning RC fields clears them. -/
  | registerReadClear (who : Requester) (span : Span) (errs : List (Nat × Ecc))
  /-- R407: An alias read returns one bit and clears it if RC. -/
  | bitAliasRead (who : Requester) (off : BitVec 21)
  /-- R408: An alias write sets one bit as a word write of its register. -/
  | bitAliasWrite (who : Requester) (off : BitVec 21) (data : W32)
  /-- R33: A write of 1 to SEQ_COMMIT.COMMIT requests a commit at a sluice. -/
  | commit (who : Requester)
  /-- R23: A write of F and S is clamped and accepted only while STOPPED. -/
  | seqRateWrite (who : Requester) (f : BitVec 8) (s_ : BitVec 6)
  /-- R37: SEQ_LOCK_LOAD requests a lock-number load at a committed sluice. -/
  | lockLoad (who : Requester) (value : W32)
  /-- R123: Setting SEQ_CTRL.RUN starts the sequencer or is refused. -/
  | runSet (who : Requester)
  /-- R27: Clearing SEQ_CTRL.RUN stops the sequencer at the next sluice. -/
  | runClear (who : Requester)
  /-- R17: SYS_REACH_RESET resets the selected reaches from the next sluice. -/
  | reachReset (who : Requester) (reaches : BitVec 16)
  /-- R144: The READY berth command moves a complete HOST berth to READY for its home. -/
  | ready (who : Requester) (berth : Fin 64) (target : Fin 64)
  /-- R144: CANCEL returns a READY berth to HOST or clears RETIRE_MARK. -/
  | cancel (who : Requester) (berth : Fin 64)
  /-- R144: RELEASE returns a HOST berth to FREE. -/
  | release (who : Requester) (berth : Fin 64)
  /-- R144: RETIRE marks a LIVE berth for retirement at a committed sluice. -/
  | retire (who : Requester) (berth : Fin 64)
  /-- R139: A BAS_BERTH_PLACE write sets a FREE berth's extent after clamp and overlap checks. -/
  | berthPlace (who : Requester) (berth : Fin 64) (base : BitVec 15) (size : BitVec 16)
  /-- R139: A BAS_BERTH_FMT write sets a FREE berth's format and resolution. -/
  | berthFmt (who : Requester) (berth : Fin 64) (format : BitVec 3) (res : BitVec 2)
  /-- R172: A trim-store write lands word by word or is refused with FS132. -/
  | trimStoreWrite (off : BitVec 23) (data : List Byte)
  /-- R226: A write to CAL_CMD queues the selected reaches for calibration. -/
  | calCmd (who : Requester) (reaches : BitVec 16)
  /-- R293: SAF_CMD.REARM returns a LATCHED pair with a normal pattern to NORMAL. -/
  | rearm (who : Requester) (pairs : BitVec 4)
  /-- R270: LNK_CTRL.RETRAIN sends a running link to RECOVER. -/
  | retrain (who : Requester) (link : LinkId)
  /-- R270: A write of LNK_CTRL.EN disables the link or lets it enter DETECT. -/
  | linkEnable (who : Requester) (link : LinkId) (on : Bool)
  /-- R332: PEER_CTRL.RESYNC requests a resynchronisation from the next sluice. -/
  | peerCtrlResync (who : Requester)
  /-- R397: SYS_MODE_CTRL.CHIP_RESET makes a warm chip reset. -/
  | chipReset (who : Requester)
  /-- R390: SYS_MODE_CTRL.SAFE_DARK sets the Safe-Dark latch. -/
  | safeDark (who : Requester)
  /-- R390: SYS_MODE_CTRL.CLEAR_SAFE_DARK clears the latch if its condition holds. -/
  | clearSafeDark (who : Requester)
  /-- R389: SYS_MODE_CTRL.RESUME clears the degraded latch at the next sluice if allowed. -/
  | resume (who : Requester)
  /-- R380: NFC_CTRL.CHECKPOINT requests a ledger checkpoint. -/
  | nfcCheckpoint (who : Requester)
  /-- R418: RIF_CRC_CTRL.COMMIT latches the next sweep's result as the reference. -/
  | crcCommit (who : Requester)
  /-- R417: Setting RIF_CRC_CTRL.HOLD suspends configuration-CRC comparison. -/
  | crcHold (who : Requester) (on : Bool)
  /-- R417: Setting RIF_CRC_CTRL.EN enables comparison until chip reset. -/
  | crcEn (who : Requester)
  /-- R417: HOLD clears itself 16,384 sweeps after it was last set. -/
  | holdExpire
  /-- R416: Every 8,192 management cycles a sweep forms and compares the configuration CRC. -/
  | crcSweep
  /-- R424: A write of the command tail is clamped and lets the device start commands. -/
  | whfCmdTail (who : Requester) (pair : Pair) (value : W32)
  /-- R424: A write of the completion pointer frees completion room. -/
  | whfCplRead (who : Requester) (pair : Pair) (value : W32)
  /-- R427: A write of the telemetry read pointer records consumed records. -/
  | whfTelemRead (who : Requester) (value : W32)
  /-- R424: The device starts the next wharf command once a command is placed and room exists. -/
  | commandStart (pair : Pair)
  /-- R427: Every PERIOD sluices, or 1 s without sluices, a telemetry record is written. -/
  | telemetryRecord
  /-- R337: Returns the identity record. -/
  | getIdentity (pair : Pair)
  /-- R355: Creates a fresh 32 B challenge and returns it. -/
  | challenge (pair : Pair)
  /-- R361: Returns a signed attestation quote over a nonce. -/
  | quote (pair : Pair)
  /-- R357: Takes the host HELLO and returns the device REPLY. -/
  | sessionHello (pair : Pair)
  /-- R358: Verifies FINISH, derives keys and completes with DONE. -/
  | sessionFinish (pair : Pair)
  /-- R358: Ends the host session. -/
  | sessionClose
  /-- R359: Passes a peer handshake message and returns the next one. -/
  | peerMsg
  /-- R359: Installs a pairing record of higher VERSION. -/
  | pairSet
  /-- R342: Installs or empties a delegated key-table entry. -/
  | certSet
  /-- R360: Loads and stores a signed telegram key. -/
  | tgKeySet
  /-- R355: Programs a new owner root slot in Provision. -/
  | installRoot (pair : Pair) (otp : OtpRun)
  /-- R355: Programs REVOKED on an owner root slot. -/
  | revokeRoot (pair : Pair) (otp : OtpRun)
  /-- R355: Ends Provision with a chip reset. -/
  | provisionEnd (pair : Pair)
  /-- R355: A valid re-provision token enters Provision. -/
  | reprovision (pair : Pair)
  /-- R362: A valid debug token opens debug at its scope. -/
  | debugUnlock (pair : Pair)
  /-- R352: Writes a recovery image chunk and, when complete, checks it, writes slot A and resets. -/
  | recoverWrite (pair : Pair)
  /-- R346: Verifies an image and writes it to the firmware slot not booted. -/
  | imageWrite
  /-- R346: Raises the rollback count to the running SVN. -/
  | commitSvn (otp : OtpRun)
  /-- R118: Copies a flight into a slot's mooring and runs the load checks. -/
  | flightLoad
  /-- R426: Checks a flight and stores it as a FLIGHTS file. -/
  | flightStore
  /-- R152: Loads and checks a symbol library into the glyph cache. -/
  | libraryLoad
  /-- R426: Checks a library and stores it as the LIBRARY file. -/
  | libraryStore
  /-- R426: Stores a ceiling set in the ceiling-table region. -/
  | ceilStore
  /-- R180: Copies a stored ceiling set into an idle plane. -/
  | ceilLoad
  /-- R372: Reads a NAND file into a berth. -/
  | fileRead
  /-- R382: Completes when the NAND deferral queue is empty. -/
  | sync
  /-- R381: Writes a new BACKUP generation. -/
  | backup
  /-- R380: Runs a checkpoint and backup and completes when they commit. -/
  | shutdown
  /-- R393: Writes the start record. -/
  | startSet
  /-- R226: Queues the reaches of a mask for calibration. -/
  | calibrate
  /-- R332: Requests a resynchronisation as PEER_CTRL.RESYNC does. -/
  | resync
  /-- R389: Sets the Maintenance latch unless Egress holds. -/
  | maintEnter
  /-- R389: Clears the Maintenance latch. -/
  | maintExit
  /-- R389: Sets the Test latch from Idle or Maintenance. -/
  | testEnter
  /-- R389: Clears the Test latch. -/
  | testExit
  /-- R370: A sector read completes, decodes and retries at shifted levels if needed. -/
  | nandReadSector (block page : Nat) (sector : Fin 4) (corrected : Nat) (level : Option Nat)
  /-- R375: A page program completes or fails and retires the block. -/
  | nandProgramDone (ok : Bool)
  /-- R375: A block erase completes or fails and retires the block. -/
  | nandEraseDone (ok : Bool)
  /-- R368: A NAND operation timeout abandons it and raises FS168. -/
  | nandTimeout
  /-- R380: PERIOD_S powered seconds since the last checkpoint start a checkpoint. -/
  | checkpointTimer
  /-- R378: The NAND scrub reads the next block in use. -/
  | nandScrubStep
  /-- R376: Hourly, a large erase-count spread moves a static file. -/
  | wearLevelMove
  /-- R379: A queued block is rewritten to a new block and erased. -/
  | refresh
  /-- R382: The temperature window reopens and queued NAND writes run. -/
  | deferralResume
  /-- R276: A received packet whose TYPE, direction, LEN or ADDR breaks the type table is discarded, answered with a NAK and raises FS040. -/
  | malformedPacket (link : LinkId) (raw : RawPacket)
  /-- R268: A receiving lane's elastic buffer overflows or underflows, discarding the frame in progress, counting a code violation, sending a NAK and raising FS039. -/
  | elasticBufferOverflow (link : LinkId) (lane : Fin 4)
  /-- R398: After a stuck press, SERVICE_N reading high continuously for 1 s clears SYS_SERVICE.STUCK and makes the button usable again. -/
  | serviceStuckClear
  /-- R363: The continuous entropy health tests pass again, FS013 stops being live and random-data requests are served again. -/
  | entropyHealthRestored
  /-- R252: A block reset made by a control-class reaction completes, the block is ready again and commands issued after the reset begin to run. -/
  | blockResetDone (block : Block) (katOk : Bool)
  /-- R362: Selecting or leaving the EXTEST instruction on the IEEE 1149.1 port cuts or restores VLED drive, opens every row switch and sink, and drives or releases HEALTH low. -/
  | extest (selected : Bool)
deriving DecidableEq, Repr

end Sys2Proof
end

