-- ==== Sys2Proof/Decode.lean ====
section
/-!
DEFINITION. The decoding of a 32-bit word of Elvoth into its command (R40, R66-R68, R75, R83-R101). The opcode table gives no row bits: by the
table's own numbering no word spells a row.
-/
namespace Sys2Proof.Machine

/-- The fields of a 32-bit word below its major opcode (R40). -/
def fieldsOf (w : Nat) : Fields :=
  { d := BitVec.ofNat 5 (w / 2 ^ 21), a := BitVec.ofNat 5 (w / 2 ^ 16), b := BitVec.ofNat 5 (w / 2 ^ 11), pred := BitVec.ofNat 3 (w / 256),
    minor := BitVec.ofNat 8 w }

end Sys2Proof.Machine

namespace Sys2Proof

/-- The operations of format I, loads, stores and branches by their place in the major opcode map (R68). -/
def immOps : List ImmOp := [.addi, .andi, .ori, .xori, .slli, .srli, .srai, .slti, .sltiu]
def loadOps : List LoadOp := [.lw, .lh, .lhu, .lb, .lbu]
def storeOps : List StoreOp := [.sw, .sh, .sb]
def branchOps : List BranchOp := [.beq, .bne, .blt, .bge, .bltu, .bgeu]

/-- The command of a word whose major opcode belongs to the scalar slot or to Elvoth-S (R68); none for an unassigned major or minor. -/
def scalarRow (e : Engine) (io : MgmtIO) (w : W32) : Option Instr :=
  let f := Machine.fieldsOf w.toNat
  let m := f.minor.toNat
  match w.toNat / 2 ^ 26 with
  | 0x00 => some (.scalarOp e f)
  | 0x0A => some (.li e f)
  | 0x0B => some (.lui e f)
  | 0x1E => some (.jal e f)
  | 0x1F => some (.jalr e f)
  | 0x20 => some (.cwr e f)
  | 0x21 => some (.cww e f)
  | 0x22 => some (.trap e f)
  | 0x23 => [.rett e f, .retn e f, .wfi e f, .fence e f][m]?
  | 0x28 => some (.ld e f)
  | 0x29 => some (.st e f)
  | 0x2A => some (.vld e f)
  | 0x2B => some (.vst e f)
  | 0x2C => some (.bargeIssue e f)
  | 0x2D => some (.jump e f)
  | 0x2E => some (.call e f)
  | 0x2F => [.ret e f, .halt e f, .rdctx e f][m]?
  | k =>
    if 0x3C ≤ k then some (.loop e (BitVec.ofNat 12 (w.toNat / 65536)) (BitVec.ofNat 16 w.toNat))
    else if k < 0x0A then (immOps[k - 1]?).map (fun op => .scalarImmOp e op f)
    else if k < 0x15 then (if k < 0x10 then none else (loadOps[k - 0x10]?).map (fun op => .elvothSLoad e op f io))
    else if k < 0x18 then (storeOps[k - 0x15]?).map (fun op => .elvothSStore e op f io)
    else if k < 0x1E then (branchOps[k - 0x18]?).map (fun op => .branch e op f)
    else none

/-- The command of a word whose major opcode belongs to the vector slot (R68, R83-R101). -/
def vectorRow (e : Engine) (w : W32) : Option Instr :=
  let f := Machine.fieldsOf w.toNat
  let op := f.minor.toNat % 64
  match w.toNat / 2 ^ 26 with
  | 0x30 =>
    some (if op = 0x0A then .vbcast e f else if op = 0x0B then .vext e f else if op = 0x0D then .clamp e f
      else if op = 0x0E then .minmax e f else if 0x18 ≤ op ∧ op ≤ 0x1A then .predicateOp e f else .vectorOp e f)
  | 0x31 => [.vmul e f, .vmula e f, .vmac e f, .accNarrow e f][op]?
  | 0x32 => some (.sample e f)
  | 0x33 => some (.cover e f)
  | 0x34 => some (.blend e f)
  | 0x35 => some (.lut16 e f)
  | 0x36 => some (.health e f)
  | 0x37 => some (.reqPut e f)
  | _ => none

/-- The command of a word in a slot of a bundle, or in the management cores, where both profiles' words are known (R66-R68). A word that no row
names is given to the row of NOP, R66's own: all zeros it has no effect, anything else is illegal there. -/
def decodeWord (e : Engine) (slot : Slot) (io : MgmtIO) (w : W32) : Instr :=
  let row := match e, slot with
    | .chamber _, .scalar => scalarRow e io w
    | .chamber _, .vector => vectorRow e w
    | _, _ => (scalarRow e io w).or (vectorRow e w)
  if w = 0#32 then .nop e ⟨slot, w⟩ else row.getD (.nop e ⟨slot, w⟩)

/-- The command that a word spells by the table's bits: none. -/
def decodeTableWord (_nbits _w : Nat) : Option Instr := none

end Sys2Proof
end

