-- ==== Sys2Proof/Config.lean ====
section
/-!
DEFINITION. What the spec leaves open or to the part: constants and functions without a body, so that nothing can be proved of their
values. Free values are drawn with State.fresh; the cryptographic functions are named standards whose outputs no claim here needs.
-/
namespace Sys2Proof.Config

/-- Draw n of the free values: a value of w bits that the spec leaves undefined or does not state. -/
opaque freeBits (w n : Nat) : Nat

/-- The bits on which the two samplers of lane `lane` of link `link` have differed in a scan from `start` to `now` (R288). -/
opaque eyeErrors (link lane start now : Nat) : Nat

/-- The mask boot ROM's contents, 64 KiB (R59): the spec gives none. -/
opaque bootRom (offset : Nat) : Byte

/-- The vendor root public key, X then Y (R341). -/
opaque vendorRoot : List Byte

/-- SHA-256 (R113, R336). -/
opaque sha256 : List Byte → List Byte

/-- ECDSA P-256: the signature (R then S) of a digest verifies with a public key (X then Y). -/
opaque ecdsaVerifies (key digest sig : List Byte) : Bool

/-- The 64 B signature of a digest by the private key that belongs to a public key; `n` is the draw of its nonce. -/
opaque ecdsaSign (key digest : List Byte) (n : Nat) : List Byte

/-- The public half of an ephemeral key pair, draw n (R357). -/
opaque ephemeral (n : Nat) : List Byte

/-- The ECDH shared X coordinate of ephemeral key pair n with a public key, 32 B (R357). -/
opaque ecdh (n : Nat) (peerKey : List Byte) : List Byte

/-- HKDF-SHA-256 under RFC 5869: the first n bytes for an input key, a salt and an info (R357). -/
opaque hkdf (ikm salt info : List Byte) (n : Nat) : List Byte

/-- AES-256-GCM: the 16 B tag of a message under a key and a nonce (R278). -/
opaque gcmTag (key nonce aad text : List Byte) : List Byte

/-- AES-256-GCM: the first n bytes of the key stream that encrypts a message under a key and a nonce (R278). -/
opaque gcmStream (key nonce : List Byte) (n : Nat) : List Byte

/-- AES-256-CMAC, 16 B (R303). -/
opaque cmac (key text : List Byte) : List Byte

end Sys2Proof.Config
end

