-- ==== Sys2Proof/Machine/Sparse.lean ====
section
/-!
DEFINITION. Sparse data by key (the modelling of every memory, store and register file): a list of (key, value) pairs with keys
strictly rising and no entry equal to what an unlisted key reads as, so that equal contents are equal data. The default may
differ from key to key (the trim store's regions, the registers' reset values). Then the byte-memory form (Host.Cell) of it,
the types of a register field, and the shared integer helpers (two's complement, rounding, clamping, byte order).
-/

namespace Sys2Proof.Machine

/-- Sparse contents: key and value, keys strictly rising. -/
abbrev Sparse (α : Type) := List (Nat × α)

/-- The value at key k; `d` where k is not listed. -/
def Sparse.get {α : Type} (l : Sparse α) (d : α) (k : Nat) : α :=
  match l with
  | [] => d
  | (j, v) :: r => if j = k then v else Sparse.get r d k

/-- Removal of key k. -/
def Sparse.erase {α : Type} (l : Sparse α) (k : Nat) : Sparse α :=
  match l with
  | [] => []
  | (j, v) :: r => if j = k then Sparse.erase r k else (j, v) :: Sparse.erase r k

/-- Listing of key k with value v, in place. -/
def Sparse.insert {α : Type} (l : Sparse α) (k : Nat) (v : α) : Sparse α :=
  match l with
  | [] => [(k, v)]
  | (j, u) :: r =>
    if j = k then (k, v) :: r else if k < j then (k, v) :: (j, u) :: r else (j, u) :: Sparse.insert r k v

/-- The write: the value `d` that an unlisted k reads as is not listed. -/
def Sparse.set {α : Type} [DecidableEq α] (l : Sparse α) (d : α) (k : Nat) (v : α) : Sparse α :=
  if v = d then Sparse.erase l k else Sparse.insert l k v

/-- Keys strictly rise from above `lo`. -/
def Sparse.rising {α : Type} (lo : Nat) : Sparse α → Bool
  | [] => true
  | (j, _) :: r => decide (lo ≤ j) && Sparse.rising (j + 1) r

/-- The canonical form, for defaults `d` by key. -/
def Sparse.wf {α : Type} [DecidableEq α] (d : Nat → α) (l : Sparse α) : Bool :=
  Sparse.rising 0 l && l.all (fun c => decide (c.2 ≠ d c.1))

/-- A byte memory: canonical cells; an unlisted byte reads 0. -/
abbrev Memory := List Host.Cell

/-- The byte at address a. -/
def Memory.byte (m : Memory) (a : Nat) : Byte := Sparse.get m 0#8 a

/-- The write of one byte. -/
def Memory.setByte (m : Memory) (a : Nat) (b : Byte) : Memory := Sparse.set m 0#8 a b

/-- The canonical form of a byte memory. -/
def Memory.wf (m : Memory) : Bool := Sparse.wf (fun _ => 0#8) m

/-- The bytes at addresses a to a + n - 1, as one little-endian number. -/
def Memory.readLE (m : Memory) (a : Nat) : Nat → Nat
  | 0 => 0
  | n + 1 => (m.byte a).toNat + 256 * Memory.readLE m (a + 1) n

/-- The bytes of a list from address a upward. -/
def Memory.writeBytes (m : Memory) (a : Nat) : List Byte → Memory
  | [] => m
  | b :: bs => Memory.writeBytes (m.setByte a b) (a + 1) bs

/-- The bytes at addresses a to a + n - 1. -/
def Memory.readBytes (m : Memory) (a n : Nat) : List Byte := (List.range n).map (fun i => m.byte (a + i))

/-- n bytes of value v, little-endian. -/
def leBytes (v : Nat) : Nat → List Byte
  | 0 => []
  | n + 1 => BitVec.ofNat 8 v :: leBytes (v / 256) n

/-- n bytes of value v from address a upward, little-endian. -/
def Memory.writeLE (m : Memory) (a n v : Nat) : Memory := m.writeBytes a (leBytes v n)

/-- Every listed byte of a range becomes 0. -/
def Memory.clearRange (m : Memory) (lo hi : Nat) : Memory := m.filter (fun c => decide (c.1 < lo ∨ hi ≤ c.1))

/-- A list of bytes as one little-endian number. -/
def ofLE : List Byte → Nat
  | [] => 0
  | b :: bs => b.toNat + 256 * ofLE bs

/-- The little-endian number in bytes i to i + n - 1 of a list; bytes beyond its end count as 0. -/
def leAt (bs : List Byte) (i n : Nat) : Nat := ofLE ((bs.drop i).take n)

/-- The two's complement value of the low w bits of n. -/
def toSigned (w n : Nat) : Int :=
  let m := n % 2 ^ w
  if m < 2 ^ (w - 1) then (m : Int) else (m : Int) - (2 ^ w : Nat)

/-- The low w bits of an integer. -/
def ofSigned (w : Nat) (z : Int) : Nat := (z % ((2 ^ w : Nat) : Int)).toNat

/-- Clamping to lo..hi; the lower bound first. -/
def clampInt (lo hi z : Int) : Int := if z < lo then lo else if hi < z then hi else z

def clampNat (lo hi n : Nat) : Nat := if n < lo then lo else if hi < n then hi else n

/-- floor(z / 2^n + 1/2): rounding to nearest with ties toward +∞ (R43); a shift of 0 does not round. -/
def roundShift (z : Int) (n : Nat) : Int :=
  if n = 0 then z else Int.ediv (z + ((2 ^ (n - 1) : Nat) : Int)) ((2 ^ n : Nat) : Int)

/-- ceil(a / b). -/
def ceilDiv (a b : Nat) : Nat := (a + b - 1) / b

/-- Saturating increment. -/
def satInc (n limit by_ : Nat) : Nat := min limit (n + by_)

/-- Bit i of n. -/
def bit (n i : Nat) : Bool := n.testBit i

/-- n with bit i set to b. -/
def setBit (n i : Nat) (b : Bool) : Nat :=
  if n.testBit i = b then n else if b then n + 2 ^ i else n - 2 ^ i

/-- Bits hi:lo of n. -/
def bits (n hi lo : Nat) : Nat := n / 2 ^ lo % 2 ^ (hi + 1 - lo)

/-- A reading of a Bool as a bit. -/
def b2n (b : Bool) : Nat := if b then 1 else 0

/-- The field types of the register tables (R409-R414). `w1pbt` is SEC_BOOT_CTRL.DONE, a pulse open at boot level only. -/
inductive Acc where
  | ro | rw | rc | w1s | w1p | wl | bt | w1pbt
deriving DecidableEq, Repr

/-- The clamp a field table states (R410): a range, a code that replaces every code above a bound, or one code for another. -/
inductive Clamp where
  | none
  | range (lo hi : Nat)
  | above (top dest : Nat)
  | subst (code dest : Nat)
deriving DecidableEq, Repr

/-- The clamped value. -/
def Clamp.apply (c : Clamp) (v : Nat) : Nat :=
  match c with
  | .none => v
  | .range lo hi => clampNat lo hi v
  | .above top dest => if top < v then dest else v
  | .subst code dest => if v = code then dest else v

/-- One field of a register: byte offset of its register in register space, lowest bit, width, type, reset value; SH and Q
marks; configuration class (R415); clamp. -/
structure Fld where
  off : Nat
  lo : Nat
  w : Nat
  ty : Acc
  reset : Nat
  sh : Bool
  q : Bool
  cfg : Bool
  clamp : Clamp
deriving DecidableEq, Repr

/-- The key of a field in the register file. -/
def Fld.key (f : Fld) : Nat := f.off * 32 + f.lo

/-- One row of a block's register map: first offset, stride and number of sets, and the fields of set i. -/
structure Row where
  base : Nat
  stride : Nat
  count : Nat
  fields : Nat → List Fld

/-- The kind of a fault source's condition (R247). -/
inductive SrcKind where
  | event | stateful | spare
deriving DecidableEq, Repr, Inhabited

/-- What the source table says of a fault source (R248). -/
structure SrcInfo where
  kind : SrcKind
  sev : Nat
  react : Nat
deriving DecidableEq, Repr, Inhabited

end Sys2Proof.Machine
end

