-- ==== Sys2Proof/Machine/Crc.lean ====
section
/-!
DEFINITION. The cyclic redundancy checks of the device (R277, R303, R310, R416), computed bit by bit.
-/
namespace Sys2Proof.Machine

/-- n steps of a reflected CRC register. -/
def crcBitsR (poly : Nat) : Nat → Nat → Nat
  | 0, c => c
  | n + 1, c => crcBitsR poly n (if c % 2 = 1 then (c / 2) ^^^ poly else c / 2)

/-- n steps of an unreflected CRC register of w bits. -/
def crcBits (w poly : Nat) : Nat → Nat → Nat
  | 0, c => c
  | n + 1, c => crcBits w poly n (if 2 ^ (w - 1) ≤ c then (c * 2 % 2 ^ w) ^^^ poly else c * 2 % 2 ^ w)

/-- A CRC-32C register takes bytes. -/
def crc32cMore (c : Nat) (bs : List Byte) : Nat := bs.foldl (fun c b => crcBitsR 0x82F63B78 8 (c ^^^ b.toNat)) c

/-- CRC-32C. -/
def crc32c (bs : List Byte) : Nat := crc32cMore 0xFFFFFFFF bs ^^^ 0xFFFFFFFF

/-- CRC-32. -/
def crc32 (bs : List Byte) : Nat := bs.foldl (fun c b => crcBitsR 0xEDB88320 8 (c ^^^ b.toNat)) 0xFFFFFFFF ^^^ 0xFFFFFFFF

/-- CRC-16 of R277. -/
def crc16 (bs : List Byte) : Nat := bs.foldl (fun c b => crcBits 16 0x1021 8 (c ^^^ (b.toNat * 256))) 0xFFFF

/-- CRC-8 of R310. -/
def crc8 (bs : List Byte) : Nat := bs.foldl (fun c b => crcBits 8 0x2F 8 (c ^^^ b.toNat)) 0xFF ^^^ 0xFF

/-- The check algorithms of R310 by POLY. -/
def crcBy (poly : Nat) (bs : List Byte) : Nat :=
  match poly with
  | 0 => crc32 bs
  | 1 => crc32c bs
  | 2 => crc16 bs
  | _ => crc8 bs

/-- Bytes of the check value of an algorithm. -/
def crcSize (poly : Nat) : Nat :=
  match poly with
  | 0 => 4
  | 1 => 4
  | 2 => 2
  | _ => 1

end Sys2Proof.Machine
end

