-- ==== Sys2Proof/Machine/RegTable.lean ====
section
/-!
DEFINITION. The register fields of the device (R403, R428 and the register tables of each block), one named field each:
byte offset within register space, lowest bit, width, type, reset value, the SH and Q marks, whether the field is of
configuration class (R415), and the clamp its table states (R410). Then the rows of each block's register map, and the
fault sources' default severity and reaction (R248) from which FLT_SEV and FLT_REACT take their reset values.
-/

namespace Sys2Proof.Machine

/-! ## Block 0x0000 -/
abbrev Reg.SYS_ID_ID : Fld := ⟨0x0, 0, 32, .ro, 0x51a71024, false, false, false, .none⟩
abbrev Reg.SYS_STEPPING_STEPPING : Fld := ⟨0x4, 0, 8, .ro, 0xa2, false, false, false, .none⟩
abbrev Reg.SYS_CAPS_MEMBER : Fld := ⟨0x8, 24, 8, .ro, 0x4, false, false, false, .none⟩
abbrev Reg.SYS_CAPS_REACHES : Fld := ⟨0x8, 16, 8, .ro, 0x10, false, false, false, .none⟩
abbrev Reg.SYS_CAPS_CHAMBERS : Fld := ⟨0x8, 8, 8, .ro, 0x10, false, false, false, .none⟩
abbrev Reg.SYS_CAPS_BASIN_MIB : Fld := ⟨0x8, 0, 8, .ro, 0x20, false, false, false, .none⟩
abbrev Reg.SYS_CAPS2_ARRAY : Fld := ⟨0xc, 16, 16, .ro, 0x400, false, false, false, .none⟩
abbrev Reg.SYS_CAPS2_SINKS : Fld := ⟨0xc, 0, 16, .ro, 0x800, false, false, false, .none⟩
abbrev Reg.SYS_EPOCH_EPOCH : Fld := ⟨0x10, 0, 32, .ro, 0x0, false, false, false, .none⟩
abbrev Reg.SYS_TIME_LO_TIME : Fld := ⟨0x14, 0, 32, .ro, 0x0, false, false, false, .none⟩
abbrev Reg.SYS_TIME_HI_TIME : Fld := ⟨0x18, 0, 32, .ro, 0x0, false, false, false, .none⟩
abbrev Reg.SYS_MODE_SD_CAUSE : Fld := ⟨0x20, 24, 3, .ro, 0x0, false, false, false, .none⟩
abbrev Reg.SYS_MODE_EGRESS_HELD : Fld := ⟨0x20, 19, 1, .ro, 0x0, false, false, false, .none⟩
abbrev Reg.SYS_MODE_PROVISION : Fld := ⟨0x20, 18, 1, .ro, 0x0, false, false, false, .none⟩
abbrev Reg.SYS_MODE_MAINT : Fld := ⟨0x20, 17, 1, .ro, 0x0, false, false, false, .none⟩
abbrev Reg.SYS_MODE_TEST : Fld := ⟨0x20, 16, 1, .ro, 0x0, false, false, false, .none⟩
abbrev Reg.SYS_MODE_DEGRADED : Fld := ⟨0x20, 15, 1, .ro, 0x0, false, false, false, .none⟩
abbrev Reg.SYS_MODE_BASE : Fld := ⟨0x20, 4, 4, .ro, 0x1, false, false, false, .none⟩
abbrev Reg.SYS_MODE_MODE : Fld := ⟨0x20, 0, 4, .ro, 0x1, false, false, false, .none⟩
abbrev Reg.SYS_MODE_CTRL_CHIP_RESET : Fld := ⟨0x24, 3, 1, .w1p, 0x0, false, false, false, .none⟩
abbrev Reg.SYS_MODE_CTRL_SAFE_DARK : Fld := ⟨0x24, 2, 1, .w1p, 0x0, false, false, false, .none⟩
abbrev Reg.SYS_MODE_CTRL_CLEAR_SAFE_DARK : Fld := ⟨0x24, 1, 1, .w1p, 0x0, false, false, false, .none⟩
abbrev Reg.SYS_MODE_CTRL_RESUME : Fld := ⟨0x24, 0, 1, .w1p, 0x0, false, false, false, .none⟩
abbrev Reg.SYS_RESET_CAUSE : Fld := ⟨0x28, 0, 3, .ro, 0x0, false, false, false, .none⟩
abbrev Reg.SYS_SERVICE_STUCK : Fld := ⟨0x2c, 31, 1, .ro, 0x0, false, false, false, .none⟩
abbrev Reg.SYS_SERVICE_PRESSED : Fld := ⟨0x2c, 30, 1, .ro, 0x0, false, false, false, .none⟩
abbrev Reg.SYS_SERVICE_LAST_ACTION : Fld := ⟨0x2c, 28, 2, .ro, 0x0, false, false, false, .none⟩
abbrev Reg.SYS_SERVICE_LAST_MS : Fld := ⟨0x2c, 0, 16, .ro, 0x0, false, false, false, .none⟩
abbrev Reg.SYS_MODE_EVENT_SERVICE : Fld := ⟨0x30, 2, 1, .rc, 0x0, false, false, false, .none⟩
abbrev Reg.SYS_MODE_EVENT_REFUSED : Fld := ⟨0x30, 1, 1, .rc, 0x0, false, false, false, .none⟩
abbrev Reg.SYS_MODE_EVENT_MODE : Fld := ⟨0x30, 0, 1, .rc, 0x0, false, false, false, .none⟩
abbrev Reg.SYS_MODE_EVENT_EN_EN : Fld := ⟨0x34, 0, 3, .rw, 0x0, false, false, true, .none⟩
abbrev Reg.SYS_REACH_RESET_REACH_RESET : Fld := ⟨0x40, 0, 16, .w1p, 0x0, false, false, false, .none⟩
abbrev Reg.SYS_FLIGHT_CTRL_SLOT : Fld := ⟨0x50, 0, 1, .rw, 0x0, true, false, true, .none⟩
abbrev Reg.SYS_FLIGHT_STATUS_REASON : Fld := ⟨0x54, 24, 8, .ro, 0x0, false, false, false, .none⟩
abbrev Reg.SYS_FLIGHT_STATUS_CHECKED_SLOT : Fld := ⟨0x54, 16, 2, .ro, 0x3, false, false, false, .none⟩
abbrev Reg.SYS_FLIGHT_STATUS_ACTIVE : Fld := ⟨0x54, 8, 2, .ro, 0x3, false, false, false, .none⟩
abbrev Reg.SYS_FLIGHT_STATUS_REFUSED : Fld := ⟨0x54, 4, 1, .rc, 0x0, false, false, false, .none⟩
abbrev Reg.SYS_FLIGHT_STATUS_E_VALID : Fld := ⟨0x54, 2, 1, .ro, 0x0, false, false, false, .none⟩
abbrev Reg.SYS_FLIGHT_STATUS_B_VALID : Fld := ⟨0x54, 1, 1, .ro, 0x0, false, false, false, .none⟩
abbrev Reg.SYS_FLIGHT_STATUS_A_VALID : Fld := ⟨0x54, 0, 1, .ro, 0x0, false, false, false, .none⟩
abbrev Reg.SYS_FLIGHT_ID_FLIGHT_ID (i : Nat) : Fld := ⟨0x58 + 0x4 * i, 0, 32, .ro, 0x0, false, false, false, .none⟩
abbrev Reg.SYS_STALL_MAX_LC : Fld := ⟨0x64, 16, 16, .ro, 0x0, false, false, false, .none⟩
abbrev Reg.SYS_STALL_LAST_LC : Fld := ⟨0x64, 0, 16, .ro, 0x0, false, false, false, .none⟩
/-! ## Block 0x1000 -/
abbrev Reg.SEQ_CTRL_FREE_LIGHT : Fld := ⟨0x1000, 2, 1, .rw, 0x1, false, false, true, .none⟩
abbrev Reg.SEQ_CTRL_SYNC_EDGE : Fld := ⟨0x1000, 1, 1, .rw, 0x0, false, true, true, .none⟩
abbrev Reg.SEQ_CTRL_RUN : Fld := ⟨0x1000, 0, 1, .rw, 0x0, false, false, false, .none⟩
abbrev Reg.SEQ_COMMIT_COMMIT : Fld := ⟨0x1004, 0, 1, .w1s, 0x0, false, false, false, .none⟩
abbrev Reg.SEQ_RATE_F_NOM : Fld := ⟨0x1008, 16, 8, .rw, 0x78, false, true, true, (.range 48 240)⟩
abbrev Reg.SEQ_RATE_S : Fld := ⟨0x1008, 0, 6, .rw, 0x10, false, true, true, .none⟩
abbrev Reg.SEQ_SYNC_CFG_HOLDOVER_LC : Fld := ⟨0x100c, 16, 16, .rw, 0x78, false, false, true, (.range 1 65535)⟩
abbrev Reg.SEQ_SYNC_CFG_SYNC_DELAY : Fld := ⟨0x100c, 0, 16, .rw, 0x0, true, false, true, .none⟩
abbrev Reg.SEQ_SYNC_STATUS_BAD_EDGES : Fld := ⟨0x1010, 24, 8, .rc, 0x0, false, false, false, .none⟩
abbrev Reg.SEQ_SYNC_STATUS_STATE : Fld := ⟨0x1010, 0, 3, .ro, 0x0, false, false, false, .none⟩
abbrev Reg.SEQ_SYNC_PHASE_PHASE : Fld := ⟨0x1014, 0, 32, .ro, 0x0, false, false, false, .none⟩
abbrev Reg.SEQ_SYNC_PERIOD_PERIOD : Fld := ⟨0x1018, 0, 32, .ro, 0x0, false, false, false, .none⟩
abbrev Reg.SEQ_TICK_SCAN : Fld := ⟨0x101c, 24, 6, .ro, 0x0, false, false, false, .none⟩
abbrev Reg.SEQ_TICK_TICK : Fld := ⟨0x101c, 0, 22, .ro, 0x0, false, false, false, .none⟩
abbrev Reg.SEQ_SLUICE_COUNT_COUNT : Fld := ⟨0x1020, 0, 32, .ro, 0x0, false, false, false, .none⟩
abbrev Reg.SEQ_SLUICE_COUNT_HI_COUNT : Fld := ⟨0x1024, 0, 32, .ro, 0x0, false, false, false, .none⟩
abbrev Reg.SEQ_SLUICE_TIME_LO_TIME : Fld := ⟨0x1028, 0, 32, .ro, 0x0, false, false, false, .none⟩
abbrev Reg.SEQ_SLUICE_TIME_HI_TIME : Fld := ⟨0x102c, 0, 32, .ro, 0x0, false, false, false, .none⟩
abbrev Reg.SEQ_LOCK_NUMBER_LOCK_NUMBER : Fld := ⟨0x1030, 0, 32, .ro, 0x0, false, false, false, .none⟩
abbrev Reg.SEQ_LOCK_NUMBER_SET_VALUE : Fld := ⟨0x1034, 0, 32, .rw, 0x0, true, false, false, .none⟩
abbrev Reg.SEQ_LOCK_LOAD_LOAD : Fld := ⟨0x1038, 0, 1, .w1s, 0x0, true, false, false, .none⟩
abbrev Reg.SEQ_UNDERRUN_UNDERRUN : Fld := ⟨0x1040, 0, 16, .rc, 0x0, false, false, false, .none⟩
abbrev Reg.SEQ_UNDERRUN_COUNT_COUNT : Fld := ⟨0x1044, 0, 32, .ro, 0x0, false, false, false, .none⟩
abbrev Reg.SEQ_EVENT_SYNC_CHANGE : Fld := ⟨0x1048, 2, 1, .rc, 0x0, false, false, false, .none⟩
abbrev Reg.SEQ_EVENT_COMMIT_TAKEN : Fld := ⟨0x1048, 1, 1, .rc, 0x0, false, false, false, .none⟩
abbrev Reg.SEQ_EVENT_SLUICE : Fld := ⟨0x1048, 0, 1, .rc, 0x0, false, false, false, .none⟩
abbrev Reg.SEQ_EVENT_EN_EN : Fld := ⟨0x104c, 0, 3, .rw, 0x0, false, false, true, .none⟩
/-! ## Block 0x2000 -/
abbrev Reg.CHM_STATUS_LOCK (i : Nat) : Fld := ⟨0x2000 + 0x100 * i, 16, 9, .ro, 0x0, false, false, false, .none⟩
abbrev Reg.CHM_STATUS_FENCED (i : Nat) : Fld := ⟨0x2000 + 0x100 * i, 3, 1, .ro, 0x0, false, false, false, .none⟩
abbrev Reg.CHM_STATUS_STOPPED (i : Nat) : Fld := ⟨0x2000 + 0x100 * i, 2, 1, .ro, 0x0, false, false, false, .none⟩
abbrev Reg.CHM_STATUS_HALTED (i : Nat) : Fld := ⟨0x2000 + 0x100 * i, 1, 1, .ro, 0x0, false, false, false, .none⟩
abbrev Reg.CHM_STATUS_RUNNING (i : Nat) : Fld := ⟨0x2000 + 0x100 * i, 0, 1, .ro, 0x0, false, false, false, .none⟩
abbrev Reg.CHM_BREACH_VALID (i : Nat) : Fld := ⟨0x2004 + 0x100 * i, 31, 1, .rc, 0x0, false, false, false, .none⟩
abbrev Reg.CHM_BREACH_SOURCE (i : Nat) : Fld := ⟨0x2004 + 0x100 * i, 16, 8, .ro, 0x0, false, false, false, .none⟩
abbrev Reg.CHM_BREACH_LOCK (i : Nat) : Fld := ⟨0x2004 + 0x100 * i, 0, 9, .ro, 0x0, false, false, false, .none⟩
abbrev Reg.CHM_BREACH_CYCLE_CYCLE (i : Nat) : Fld := ⟨0x2008 + 0x100 * i, 0, 32, .ro, 0x0, false, false, false, .none⟩
abbrev Reg.CHM_BREACH_PC_PC (i : Nat) : Fld := ⟨0x200c + 0x100 * i, 0, 13, .ro, 0x0, false, false, false, .none⟩
abbrev Reg.CHM_BARGES_PEAK (i : Nat) : Fld := ⟨0x2010 + 0x100 * i, 16, 4, .ro, 0x0, false, false, false, .none⟩
abbrev Reg.CHM_BARGES_NOW (i : Nat) : Fld := ⟨0x2010 + 0x100 * i, 0, 4, .ro, 0x0, false, false, false, .none⟩
/-! ## Block 0x3000 -/
abbrev Reg.BAS_BERTH_CMD_RETIRE : Fld := ⟨0x3000, 19, 1, .w1p, 0x0, false, false, false, .none⟩
abbrev Reg.BAS_BERTH_CMD_RELEASE : Fld := ⟨0x3000, 18, 1, .w1p, 0x0, false, false, false, .none⟩
abbrev Reg.BAS_BERTH_CMD_CANCEL : Fld := ⟨0x3000, 17, 1, .w1p, 0x0, false, false, false, .none⟩
abbrev Reg.BAS_BERTH_CMD_READY : Fld := ⟨0x3000, 16, 1, .w1p, 0x0, false, false, false, .none⟩
abbrev Reg.BAS_BERTH_CMD_TARGET : Fld := ⟨0x3000, 8, 6, .rw, 0x0, false, false, false, .none⟩
abbrev Reg.BAS_BERTH_CMD_BERTH : Fld := ⟨0x3000, 0, 6, .rw, 0x0, false, false, false, .none⟩
abbrev Reg.BAS_BERTH_RESULT_BERTH : Fld := ⟨0x3004, 8, 6, .ro, 0x0, false, false, false, .none⟩
abbrev Reg.BAS_BERTH_RESULT_RESULT : Fld := ⟨0x3004, 0, 3, .ro, 0x0, false, false, false, .none⟩
abbrev Reg.BAS_REFUSE_VALID : Fld := ⟨0x3008, 31, 1, .rc, 0x0, false, false, false, .none⟩
abbrev Reg.BAS_REFUSE_CAUSE : Fld := ⟨0x3008, 11, 2, .ro, 0x0, false, false, false, .none⟩
abbrev Reg.BAS_REFUSE_STATE : Fld := ⟨0x3008, 8, 3, .ro, 0x0, false, false, false, .none⟩
abbrev Reg.BAS_REFUSE_BERTH : Fld := ⟨0x3008, 0, 6, .ro, 0x0, false, false, false, .none⟩
abbrev Reg.BAS_REFUSE_COUNT_COUNT : Fld := ⟨0x300c, 0, 32, .ro, 0x0, false, false, false, .none⟩
abbrev Reg.BAS_ECC_CORR_COUNT : Fld := ⟨0x3010, 0, 32, .ro, 0x0, false, false, false, .none⟩
abbrev Reg.BAS_ECC_RETRY_COUNT : Fld := ⟨0x3014, 0, 32, .ro, 0x0, false, false, false, .none⟩
abbrev Reg.BAS_ECC_UNCORR_COUNT : Fld := ⟨0x3018, 0, 32, .ro, 0x0, false, false, false, .none⟩
abbrev Reg.BAS_ECC_LAST_VALID : Fld := ⟨0x301c, 31, 1, .rc, 0x0, false, false, false, .none⟩
abbrev Reg.BAS_ECC_LAST_KIND : Fld := ⟨0x301c, 29, 2, .ro, 0x0, false, false, false, .none⟩
abbrev Reg.BAS_ECC_LAST_BARGE : Fld := ⟨0x301c, 28, 1, .ro, 0x0, false, false, false, .none⟩
abbrev Reg.BAS_ECC_LAST_TAG : Fld := ⟨0x301c, 21, 7, .ro, 0x0, false, false, false, .none⟩
abbrev Reg.BAS_ECC_LAST_BANK : Fld := ⟨0x301c, 16, 5, .ro, 0x0, false, false, false, .none⟩
abbrev Reg.BAS_ECC_LAST_LINE : Fld := ⟨0x301c, 0, 16, .ro, 0x0, false, false, false, .none⟩
abbrev Reg.BAS_SPARE_USED : Fld := ⟨0x3020, 16, 8, .ro, 0x0, false, false, false, .none⟩
abbrev Reg.BAS_SPARE_FREE : Fld := ⟨0x3020, 0, 8, .ro, 0x80, false, false, false, .none⟩
abbrev Reg.BAS_SCRUB_CFG_CORR_LIMIT : Fld := ⟨0x3024, 16, 16, .rw, 0x40, false, false, true, .none⟩
abbrev Reg.BAS_SCRUB_CFG_PERIOD : Fld := ⟨0x3024, 0, 16, .rw, 0x8, false, false, true, (.range 1 65535)⟩
abbrev Reg.BAS_SCRUB_STATUS_SWEEPS : Fld := ⟨0x3028, 16, 16, .ro, 0x0, false, false, false, .none⟩
abbrev Reg.BAS_SCRUB_STATUS_POSITION : Fld := ⟨0x3028, 0, 16, .ro, 0x0, false, false, false, .none⟩
abbrev Reg.BAS_EVENT_LASTING : Fld := ⟨0x302c, 2, 1, .rc, 0x0, false, false, false, .none⟩
abbrev Reg.BAS_EVENT_REFUSED : Fld := ⟨0x302c, 1, 1, .rc, 0x0, false, false, false, .none⟩
abbrev Reg.BAS_EVENT_BERTH_FREED : Fld := ⟨0x302c, 0, 1, .rc, 0x0, false, false, false, .none⟩
abbrev Reg.BAS_EVENT_EN_EN : Fld := ⟨0x3030, 0, 3, .rw, 0x0, false, false, true, .none⟩
abbrev Reg.BAS_BERTH_PLACE_SIZE (i : Nat) : Fld := ⟨0x3100 + 0x10 * i, 16, 16, .rw, 0x0, false, false, true, .none⟩
abbrev Reg.BAS_BERTH_PLACE_BASE (i : Nat) : Fld := ⟨0x3100 + 0x10 * i, 0, 15, .rw, 0x0, false, false, true, .none⟩
abbrev Reg.BAS_BERTH_FMT_FORMAT (i : Nat) : Fld := ⟨0x3104 + 0x10 * i, 2, 3, .rw, 0x0, false, false, true, (.range 0 6)⟩
abbrev Reg.BAS_BERTH_FMT_RES (i : Nat) : Fld := ⟨0x3104 + 0x10 * i, 0, 2, .rw, 0x0, false, false, true, .none⟩
abbrev Reg.BAS_BERTH_STATUS_RETIRE_MARK (i : Nat) : Fld := ⟨0x3108 + 0x10 * i, 15, 1, .ro, 0x0, false, false, false, .none⟩
abbrev Reg.BAS_BERTH_STATUS_COVERED (i : Nat) : Fld := ⟨0x3108 + 0x10 * i, 14, 1, .ro, 0x0, false, false, false, .none⟩
abbrev Reg.BAS_BERTH_STATUS_HOME (i : Nat) : Fld := ⟨0x3108 + 0x10 * i, 8, 6, .ro, 0x0, false, false, false, .none⟩
abbrev Reg.BAS_BERTH_STATUS_STATE (i : Nat) : Fld := ⟨0x3108 + 0x10 * i, 0, 3, .ro, 0x0, false, false, false, .none⟩
abbrev Reg.BAS_BERTH_FILL_UNITS (i : Nat) : Fld := ⟨0x310c + 0x10 * i, 0, 19, .ro, 0x0, false, false, false, .none⟩
/-! ## Block 0x4000 -/
abbrev Reg.GLY_LIB_ID_LIB_ID : Fld := ⟨0x4000, 0, 32, .ro, 0x0, false, false, false, .none⟩
abbrev Reg.GLY_LIB_STATUS_LOADED : Fld := ⟨0x4004, 31, 1, .ro, 0x0, false, false, false, .none⟩
abbrev Reg.GLY_LIB_STATUS_GLYPHS : Fld := ⟨0x4004, 16, 13, .ro, 0x0, false, false, false, .none⟩
abbrev Reg.GLY_LIB_STATUS_REASON : Fld := ⟨0x4004, 12, 2, .ro, 0x0, false, false, false, .none⟩
abbrev Reg.GLY_LIB_STATUS_KIB_USED : Fld := ⟨0x4004, 0, 11, .ro, 0x0, false, false, false, .none⟩
abbrev Reg.GLY_STAGE_RUN_SOURCE_VALID : Fld := ⟨0x4008, 31, 1, .ro, 0x0, false, false, false, .none⟩
abbrev Reg.GLY_STAGE_RUN_DAMAGED : Fld := ⟨0x4008, 18, 9, .ro, 0x0, false, false, false, .none⟩
abbrev Reg.GLY_STAGE_RUN_ALTERNATES : Fld := ⟨0x4008, 9, 9, .ro, 0x0, false, false, false, .none⟩
abbrev Reg.GLY_STAGE_RUN_PRIMARIES : Fld := ⟨0x4008, 0, 9, .ro, 0x0, false, false, false, .none⟩
abbrev Reg.GLY_STAGE_EGRESS_SOURCE_VALID : Fld := ⟨0x400c, 31, 1, .ro, 0x0, false, false, false, .none⟩
abbrev Reg.GLY_STAGE_EGRESS_DAMAGED : Fld := ⟨0x400c, 18, 9, .ro, 0x0, false, false, false, .none⟩
abbrev Reg.GLY_STAGE_EGRESS_ALTERNATES : Fld := ⟨0x400c, 9, 9, .ro, 0x0, false, false, false, .none⟩
abbrev Reg.GLY_STAGE_EGRESS_PRIMARIES : Fld := ⟨0x400c, 0, 9, .ro, 0x0, false, false, false, .none⟩
abbrev Reg.GLY_EVENT_DAMAGED : Fld := ⟨0x4010, 2, 1, .rc, 0x0, false, false, false, .none⟩
abbrev Reg.GLY_EVENT_LIB_DONE : Fld := ⟨0x4010, 1, 1, .rc, 0x0, false, false, false, .none⟩
abbrev Reg.GLY_EVENT_STAGED : Fld := ⟨0x4010, 0, 1, .rc, 0x0, false, false, false, .none⟩
abbrev Reg.GLY_EVENT_EN_EN : Fld := ⟨0x4014, 0, 3, .rw, 0x0, false, false, true, .none⟩
abbrev Reg.WRP_STATUS_PRESENT (i : Nat) : Fld := ⟨0x4100 + 0x10 * i, 31, 1, .ro, 0x0, false, false, false, .none⟩
abbrev Reg.WRP_STATUS_OUT (i : Nat) : Fld := ⟨0x4100 + 0x10 * i, 30, 1, .ro, 0x0, false, false, false, .none⟩
abbrev Reg.WRP_STATUS_FOLDS (i : Nat) : Fld := ⟨0x4100 + 0x10 * i, 0, 11, .ro, 0x0, false, false, false, .none⟩
abbrev Reg.WRP_X_RANGE_MAX (i : Nat) : Fld := ⟨0x4104 + 0x10 * i, 16, 16, .ro, 0x0, false, false, false, .none⟩
abbrev Reg.WRP_X_RANGE_MIN (i : Nat) : Fld := ⟨0x4104 + 0x10 * i, 0, 16, .ro, 0x0, false, false, false, .none⟩
abbrev Reg.WRP_Y_RANGE_MAX (i : Nat) : Fld := ⟨0x4108 + 0x10 * i, 16, 16, .ro, 0x0, false, false, false, .none⟩
abbrev Reg.WRP_Y_RANGE_MIN (i : Nat) : Fld := ⟨0x4108 + 0x10 * i, 0, 16, .ro, 0x0, false, false, false, .none⟩
abbrev Reg.CMP_LAYER_DEFINED (i : Nat) : Fld := ⟨0x4200 + 0x4 * i, 31, 1, .ro, 0x0, false, false, false, .none⟩
abbrev Reg.CMP_LAYER_LIVE (i : Nat) : Fld := ⟨0x4200 + 0x4 * i, 30, 1, .ro, 0x0, false, false, false, .none⟩
abbrev Reg.CMP_LAYER_LIVE_BERTH (i : Nat) : Fld := ⟨0x4200 + 0x4 * i, 24, 6, .ro, 0x0, false, false, false, .none⟩
abbrev Reg.CMP_LAYER_HOME (i : Nat) : Fld := ⟨0x4200 + 0x4 * i, 16, 6, .ro, 0x0, false, false, false, .none⟩
abbrev Reg.CMP_LAYER_AGE (i : Nat) : Fld := ⟨0x4200 + 0x4 * i, 0, 16, .ro, 0x0, false, false, false, .none⟩
/-! ## Block 0x5000 -/
abbrev Reg.TRM_CTRL_WEAR_EN : Fld := ⟨0x5000, 1, 1, .rw, 0x1, true, false, true, .none⟩
abbrev Reg.TRM_CTRL_PIXEL_EN : Fld := ⟨0x5000, 0, 1, .rw, 0x1, true, false, true, .none⟩
abbrev Reg.TRM_SAT_LIMIT : Fld := ⟨0x5004, 16, 16, .rw, 0x400, false, false, true, .none⟩
abbrev Reg.TRM_SAT_LAST : Fld := ⟨0x5004, 0, 16, .ro, 0x0, false, false, false, .none⟩
abbrev Reg.TRM_ECC_RETRY_COUNT : Fld := ⟨0x5008, 0, 32, .ro, 0x0, false, false, false, .none⟩
abbrev Reg.TRM_ECC_UNCORR_COUNT : Fld := ⟨0x500c, 0, 32, .ro, 0x0, false, false, false, .none⟩
abbrev Reg.TRM_ECC_LAST_VALID : Fld := ⟨0x5010, 31, 1, .rc, 0x0, false, false, false, .none⟩
abbrev Reg.TRM_ECC_LAST_LASTING : Fld := ⟨0x5010, 30, 1, .ro, 0x0, false, false, false, .none⟩
abbrev Reg.TRM_ECC_LAST_STORE : Fld := ⟨0x5010, 28, 2, .ro, 0x0, false, false, false, .none⟩
abbrev Reg.TRM_ECC_LAST_WORD : Fld := ⟨0x5010, 0, 20, .ro, 0x0, false, false, false, .none⟩
abbrev Reg.TRM_WEAR_MAX_GW : Fld := ⟨0x5014, 24, 8, .ro, 0x0, false, false, false, .none⟩
abbrev Reg.TRM_WEAR_AT_LIMIT : Fld := ⟨0x5014, 0, 22, .ro, 0x0, false, false, false, .none⟩
abbrev Reg.TRM_LEDGER_RESTORED : Fld := ⟨0x5018, 31, 1, .ro, 0x0, false, false, false, .none⟩
abbrev Reg.TRM_LEDGER_GROUP : Fld := ⟨0x5018, 0, 8, .ro, 0x0, false, false, false, .none⟩
abbrev Reg.TRM_REFUSE_VALID : Fld := ⟨0x501c, 31, 1, .rc, 0x0, false, false, false, .none⟩
abbrev Reg.TRM_REFUSE_CAUSE : Fld := ⟨0x501c, 29, 2, .ro, 0x0, false, false, false, .none⟩
abbrev Reg.TRM_REFUSE_OFFSET : Fld := ⟨0x501c, 0, 23, .ro, 0x0, false, false, false, .none⟩
abbrev Reg.TRM_PRED_DARK (i : Nat) : Fld := ⟨0x5040 + 0x4 * i, 31, 1, .ro, 0x0, false, false, false, .none⟩
abbrev Reg.TRM_PRED_MW (i : Nat) : Fld := ⟨0x5040 + 0x4 * i, 0, 16, .ro, 0x0, false, false, false, .none⟩
abbrev Reg.CEIL_CTRL_EGRESS_RELAX : Fld := ⟨0x5100, 1, 1, .rw, 0x0, true, false, true, .none⟩
abbrev Reg.CEIL_CTRL_PLANE : Fld := ⟨0x5100, 0, 1, .rw, 0x0, true, false, true, .none⟩
abbrev Reg.CEIL_STATUS_BUSY1 : Fld := ⟨0x5104, 2, 1, .ro, 0x0, false, false, false, .none⟩
abbrev Reg.CEIL_STATUS_BUSY0 : Fld := ⟨0x5104, 1, 1, .ro, 0x1, false, false, false, .none⟩
abbrev Reg.CEIL_STATUS_ACTIVE : Fld := ⟨0x5104, 0, 1, .ro, 0x0, false, false, false, .none⟩
abbrev Reg.CEIL_KO_COUNT_COUNT : Fld := ⟨0x5108, 0, 22, .ro, 0x0, false, false, false, .none⟩
abbrev Reg.CEIL_GLARE_COUNT_COUNT : Fld := ⟨0x510c, 0, 22, .ro, 0x0, false, false, false, .none⟩
abbrev Reg.CEIL_EYE_COUNT_COUNT : Fld := ⟨0x5110, 0, 22, .ro, 0x0, false, false, false, .none⟩
abbrev Reg.WEIR_BUDGET_MW : Fld := ⟨0x5200, 0, 16, .rw, 0xbb80, true, false, true, (.range 0 48000)⟩
abbrev Reg.WEIR_CAP_MW : Fld := ⟨0x5204, 0, 16, .bt, 0xbb80, false, false, true, (.range 0 48000)⟩
abbrev Reg.WEIR_CFG_RISE_STEP : Fld := ⟨0x5208, 24, 8, .rw, 0x8, true, false, true, (.range 1 64)⟩
abbrev Reg.WEIR_CFG_HOLD_LC : Fld := ⟨0x5208, 16, 8, .rw, 0x10, true, false, true, .none⟩
abbrev Reg.WEIR_CFG_P_FIXED : Fld := ⟨0x5208, 0, 16, .rw, 0x4b0, true, false, true, .none⟩
abbrev Reg.WEIR_ILSB_NA : Fld := ⟨0x520c, 0, 16, .rw, 0x319c, true, false, true, (.range 10000 16000)⟩
abbrev Reg.WEIR_STATE_SOURCE : Fld := ⟨0x5210, 29, 3, .ro, 0x0, false, false, false, .none⟩
abbrev Reg.WEIR_STATE_HOLDING : Fld := ⟨0x5210, 28, 1, .ro, 0x0, false, false, false, .none⟩
abbrev Reg.WEIR_STATE_RAMPING : Fld := ⟨0x5210, 27, 1, .ro, 0x0, false, false, false, .none⟩
abbrev Reg.WEIR_STATE_TARGET : Fld := ⟨0x5210, 16, 11, .ro, 0x400, false, false, false, .none⟩
abbrev Reg.WEIR_STATE_FACTOR : Fld := ⟨0x5210, 0, 11, .ro, 0x400, false, false, false, .none⟩
abbrev Reg.WEIR_THERMAL_MW : Fld := ⟨0x5214, 0, 16, .ro, 0xffff, false, false, false, .none⟩
abbrev Reg.WEIR_EFFECTIVE_DUAL : Fld := ⟨0x5218, 31, 1, .ro, 0x0, false, false, false, .none⟩
abbrev Reg.WEIR_EFFECTIVE_MW : Fld := ⟨0x5218, 0, 16, .ro, 0xbb80, false, false, false, .none⟩
abbrev Reg.WEIR_PRED_MW : Fld := ⟨0x521c, 0, 32, .ro, 0x0, false, false, false, .none⟩
abbrev Reg.WEIR_MEASURED_MW : Fld := ⟨0x5220, 0, 32, .ro, 0x0, false, false, false, .none⟩
abbrev Reg.WEIR_VLED_MV : Fld := ⟨0x5224, 0, 16, .ro, 0x0, false, false, false, .none⟩
abbrev Reg.WEIR_CHECK_LC : Fld := ⟨0x5228, 24, 8, .rw, 0x8, false, false, true, (.range 1 255)⟩
abbrev Reg.WEIR_CHECK_PCT : Fld := ⟨0x5228, 16, 8, .rw, 0xa, false, false, true, (.range 0 100)⟩
abbrev Reg.WEIR_CHECK_OFFSET_MW : Fld := ⟨0x5228, 0, 16, .rw, 0x1f4, false, false, true, .none⟩
abbrev Reg.WEIR_EVENT_MODEL : Fld := ⟨0x522c, 2, 1, .rc, 0x0, false, false, false, .none⟩
abbrev Reg.WEIR_EVENT_RAISED : Fld := ⟨0x522c, 1, 1, .rc, 0x0, false, false, false, .none⟩
abbrev Reg.WEIR_EVENT_LOWERED : Fld := ⟨0x522c, 0, 1, .rc, 0x0, false, false, false, .none⟩
abbrev Reg.WEIR_EVENT_EN_EN : Fld := ⟨0x5230, 0, 3, .rw, 0x0, false, false, true, .none⟩
/-! ## Block 0x6000 -/
abbrev Reg.DRV_STALE_STALE : Fld := ⟨0x6000, 0, 16, .ro, 0x0, false, false, false, .none⟩
abbrev Reg.DRV_REACH_STATE_RESET : Fld := ⟨0x6004, 16, 16, .ro, 0x0, false, false, false, .none⟩
abbrev Reg.DRV_REACH_STATE_FENCED : Fld := ⟨0x6004, 0, 16, .ro, 0x0, false, false, false, .none⟩
abbrev Reg.DRV_VLED_WINDOW_MAX_MV : Fld := ⟨0x6008, 16, 16, .rw, 0x109a, false, false, true, (.range 3300 4400)⟩
abbrev Reg.DRV_VLED_WINDOW_MIN_MV : Fld := ⟨0x6008, 0, 16, .rw, 0xcb2, false, false, true, .none⟩
abbrev Reg.DRV_DETECT_SHORT_MV : Fld := ⟨0x600c, 16, 16, .bt, 0x190, false, false, true, (.range 100 1500)⟩
abbrev Reg.DRV_DETECT_OPEN_MV : Fld := ⟨0x600c, 0, 16, .bt, 0x96, false, false, true, (.range 50 500)⟩
abbrev Reg.DRV_OC_LAST_VALID : Fld := ⟨0x6010, 31, 1, .rc, 0x0, false, false, false, .none⟩
abbrev Reg.DRV_OC_LAST_REACH : Fld := ⟨0x6010, 16, 4, .ro, 0x0, false, false, false, .none⟩
abbrev Reg.DRV_OC_LAST_ROW : Fld := ⟨0x6010, 0, 6, .ro, 0x0, false, false, false, .none⟩
abbrev Reg.DRV_OC_COUNT_COUNT : Fld := ⟨0x6014, 0, 32, .ro, 0x0, false, false, false, .none⟩
abbrev Reg.DRV_REACH_I_BAND (i : Nat) : Fld := ⟨0x6040 + 0x4 * i, 16, 3, .ro, 0x0, false, false, false, .none⟩
abbrev Reg.DRV_REACH_I_MA (i : Nat) : Fld := ⟨0x6040 + 0x4 * i, 0, 16, .ro, 0x0, false, false, false, .none⟩
abbrev Reg.DRV_BAND_WAVE_PC_MV (i : Nat) : Fld := ⟨0x6100 + 0x8 * i, 16, 16, .bt, 0x4b0, false, false, true, (.range 500 2500)⟩
abbrev Reg.DRV_BAND_WAVE_DEAD (i : Nat) : Fld := ⟨0x6100 + 0x8 * i, 8, 5, .bt, 0x4, false, false, true, (.range 2 16)⟩
abbrev Reg.DRV_BAND_WAVE_EDGE (i : Nat) : Fld := ⟨0x6100 + 0x8 * i, 0, 6, .bt, 0x0, false, false, true, .none⟩
abbrev Reg.DRV_BAND_DAC_DAC_SCALE (i : Nat) : Fld := ⟨0x6104 + 0x8 * i, 0, 16, .bt, 0x8000, false, false, true, (.range 29491 36044)⟩
abbrev Reg.DIAG_CTRL_FILL_SHARE : Fld := ⟨0x6800, 24, 8, .rw, 0x80, true, false, true, .none⟩
abbrev Reg.DIAG_CTRL_FILL_EN : Fld := ⟨0x6800, 1, 1, .rw, 0x0, true, false, true, .none⟩
abbrev Reg.DIAG_CTRL_KO_SUPPRESS : Fld := ⟨0x6800, 0, 1, .rw, 0x0, true, false, true, .none⟩
abbrev Reg.DIAG_CFG_ROW_EVENT_LIMIT : Fld := ⟨0x6804, 24, 8, .rw, 0x40, false, false, true, (.range 8 255)⟩
abbrev Reg.DIAG_CFG_FLAP_LIMIT : Fld := ⟨0x6804, 20, 4, .rw, 0x3, false, false, true, (.range 2 15)⟩
abbrev Reg.DIAG_CFG_FLAP_WINDOW : Fld := ⟨0x6804, 0, 16, .rw, 0x1c20, false, false, true, (.range 1 65535)⟩
abbrev Reg.DIAG_STATUS_SWEEP_DONE : Fld := ⟨0x6808, 31, 1, .ro, 0x0, false, false, false, .none⟩
abbrev Reg.DIAG_STATUS_TEST_ROW : Fld := ⟨0x6808, 24, 6, .ro, 0x0, false, false, false, .none⟩
abbrev Reg.DIAG_STATUS_DL_COUNT : Fld := ⟨0x6808, 0, 14, .ro, 0x0, false, false, false, .none⟩
abbrev Reg.DIAG_TRANSIENT_COUNT_COUNT : Fld := ⟨0x680c, 0, 32, .ro, 0x0, false, false, false, .none⟩
abbrev Reg.DIAG_LASTING_COUNT_COUNT : Fld := ⟨0x6810, 0, 32, .ro, 0x0, false, false, false, .none⟩
abbrev Reg.DIAG_ROW_EVENTS_COUNT : Fld := ⟨0x6814, 0, 32, .ro, 0x0, false, false, false, .none⟩
abbrev Reg.DIAG_MARKED_COUNT : Fld := ⟨0x6818, 0, 22, .ro, 0x200000, false, false, false, .none⟩
abbrev Reg.DIAG_SUSPECTS_COUNT : Fld := ⟨0x681c, 0, 22, .ro, 0x0, false, false, false, .none⟩
abbrev Reg.DIAG_DL_SEL_INDEX : Fld := ⟨0x6820, 0, 13, .rw, 0x0, false, false, false, .none⟩
abbrev Reg.DIAG_DL_WORD_WORD (i : Nat) : Fld := ⟨0x6824 + 0x4 * i, 0, 32, .ro, 0x0, false, false, false, .none⟩
abbrev Reg.DIAG_MAP_SEL_LOCAL : Fld := ⟨0x6834, 31, 1, .rw, 0x0, false, false, false, .none⟩
abbrev Reg.DIAG_MAP_SEL_WORD : Fld := ⟨0x6834, 0, 16, .rw, 0x0, false, false, false, .none⟩
abbrev Reg.DIAG_MAP_DATA_BITS : Fld := ⟨0x6838, 0, 32, .ro, 0x0, false, false, false, .none⟩
abbrev Reg.DIAG_EVENT_ROW_EVENT : Fld := ⟨0x683c, 3, 1, .rc, 0x0, false, false, false, .none⟩
abbrev Reg.DIAG_EVENT_LASTING : Fld := ⟨0x683c, 2, 1, .rc, 0x0, false, false, false, .none⟩
abbrev Reg.DIAG_EVENT_TRANSIENT : Fld := ⟨0x683c, 1, 1, .rc, 0x0, false, false, false, .none⟩
abbrev Reg.DIAG_EVENT_SWEEP : Fld := ⟨0x683c, 0, 1, .rc, 0x0, false, false, false, .none⟩
abbrev Reg.DIAG_EVENT_EN_EN : Fld := ⟨0x6840, 0, 4, .rw, 0x0, false, false, true, .none⟩
/-! ## Block 0x7000 -/
abbrev Reg.CAL_CTRL_AUTO : Fld := ⟨0x7000, 0, 1, .rw, 0x1, false, false, true, .none⟩
abbrev Reg.CAL_CMD_REACHES : Fld := ⟨0x7004, 0, 16, .w1p, 0x0, false, false, false, .none⟩
abbrev Reg.CAL_CFG_HOLDOFF_S : Fld := ⟨0x7008, 16, 16, .rw, 0x1e, false, false, true, (.range 1 65535)⟩
abbrev Reg.CAL_CFG_DELTA : Fld := ⟨0x7008, 0, 8, .rw, 0x80, false, false, true, (.range 16 255)⟩
abbrev Reg.CAL_STATUS_RUNNING : Fld := ⟨0x700c, 31, 1, .ro, 0x0, false, false, false, .none⟩
abbrev Reg.CAL_STATUS_REACH : Fld := ⟨0x700c, 24, 4, .ro, 0x0, false, false, false, .none⟩
abbrev Reg.CAL_STATUS_LAST_CAUSE : Fld := ⟨0x700c, 20, 3, .ro, 0x0, false, false, false, .none⟩
abbrev Reg.CAL_STATUS_QUEUED : Fld := ⟨0x700c, 0, 16, .ro, 0x0, false, false, false, .none⟩
abbrev Reg.CAL_COUNT_COUNT : Fld := ⟨0x7010, 0, 32, .ro, 0x0, false, false, false, .none⟩
abbrev Reg.CAL_ABORTS_COUNT : Fld := ⟨0x7014, 0, 32, .ro, 0x0, false, false, false, .none⟩
abbrev Reg.CAL_LAST_TIME_LO_TIME : Fld := ⟨0x7018, 0, 32, .ro, 0x0, false, false, false, .none⟩
abbrev Reg.CAL_LAST_TIME_HI_TIME : Fld := ⟨0x701c, 0, 32, .ro, 0x0, false, false, false, .none⟩
abbrev Reg.CAL_VREF_REACH : Fld := ⟨0x7020, 16, 4, .ro, 0x0, false, false, false, .none⟩
abbrev Reg.CAL_VREF_VREF : Fld := ⟨0x7020, 0, 16, .ro, 0x0, false, false, false, .none⟩
abbrev Reg.CAL_IREF_REACH : Fld := ⟨0x7024, 20, 4, .ro, 0x0, false, false, false, .none⟩
abbrev Reg.CAL_IREF_C_REF : Fld := ⟨0x7024, 0, 20, .ro, 0x0, false, false, false, .none⟩
abbrev Reg.CAL_RESULT_STEP_NA : Fld := ⟨0x7028, 16, 16, .ro, 0x0, false, false, false, .none⟩
abbrev Reg.CAL_RESULT_OUTLIERS : Fld := ⟨0x7028, 0, 12, .ro, 0x0, false, false, false, .none⟩
abbrev Reg.CAL_EVENT_ABORT : Fld := ⟨0x702c, 1, 1, .rc, 0x0, false, false, false, .none⟩
abbrev Reg.CAL_EVENT_DONE : Fld := ⟨0x702c, 0, 1, .rc, 0x0, false, false, false, .none⟩
abbrev Reg.CAL_EVENT_EN_EN : Fld := ⟨0x7030, 0, 4, .rw, 0x0, false, false, true, .none⟩
abbrev Reg.CAL_REACH_T_REF (i : Nat) : Fld := ⟨0x7040 + 0x4 * i, 16, 16, .ro, 0x0, false, false, false, .none⟩
abbrev Reg.CAL_REACH_VALID (i : Nat) : Fld := ⟨0x7040 + 0x4 * i, 15, 1, .ro, 0x0, false, false, false, .none⟩
abbrev Reg.CAL_REACH_RUNS (i : Nat) : Fld := ⟨0x7040 + 0x4 * i, 0, 8, .ro, 0x0, false, false, false, .none⟩
abbrev Reg.THM_CFG_RATE_LIMIT : Fld := ⟨0x7400, 24, 8, .rw, 0x30, false, false, true, (.range 8 255)⟩
abbrev Reg.THM_CFG_SOFT_C : Fld := ⟨0x7400, 16, 8, .rw, 0x64, false, false, true, (.range 60 105)⟩
abbrev Reg.THM_CFG_RELAX_S : Fld := ⟨0x7400, 8, 8, .rw, 0xa, false, false, true, (.range 1 255)⟩
abbrev Reg.THM_CFG_GAIN : Fld := ⟨0x7400, 0, 8, .rw, 0x10, false, false, true, (.range 1 128)⟩
abbrev Reg.THM_SINK_T_SINK : Fld := ⟨0x7404, 0, 16, .rw, 0x280, false, false, false, .none⟩
abbrev Reg.THM_STATUS_TRIP : Fld := ⟨0x7408, 31, 1, .ro, 0x0, false, false, false, .none⟩
abbrev Reg.THM_STATUS_LIMIT : Fld := ⟨0x7408, 30, 1, .ro, 0x0, false, false, false, .none⟩
abbrev Reg.THM_STATUS_THROTTLE : Fld := ⟨0x7408, 29, 1, .ro, 0x0, false, false, false, .none⟩
abbrev Reg.THM_STATUS_RELAXING : Fld := ⟨0x7408, 28, 1, .ro, 0x0, false, false, false, .none⟩
abbrev Reg.THM_STATUS_FAST : Fld := ⟨0x7408, 27, 1, .ro, 0x0, false, false, false, .none⟩
abbrev Reg.THM_STATUS_NAND_OK : Fld := ⟨0x7408, 26, 1, .ro, 0x0, false, false, false, .none⟩
abbrev Reg.THM_STATUS_OTP_OK : Fld := ⟨0x7408, 25, 1, .ro, 0x0, false, false, false, .none⟩
abbrev Reg.THM_DIE_MAX : Fld := ⟨0x740c, 16, 16, .ro, 0x0, false, false, false, .none⟩
abbrev Reg.THM_DIE_MIN : Fld := ⟨0x740c, 0, 16, .ro, 0x0, false, false, false, .none⟩
abbrev Reg.THM_HOT_VALUE : Fld := ⟨0x7410, 16, 16, .ro, 0x0, false, false, false, .none⟩
abbrev Reg.THM_HOT_NODE : Fld := ⟨0x7410, 0, 10, .ro, 0x0, false, false, false, .none⟩
abbrev Reg.THM_RATE_VALUE : Fld := ⟨0x7414, 16, 16, .ro, 0x0, false, false, false, .none⟩
abbrev Reg.THM_RATE_NODE : Fld := ⟨0x7414, 0, 10, .ro, 0x0, false, false, false, .none⟩
abbrev Reg.THM_SENSOR_FAIL_SUBST : Fld := ⟨0x7418, 16, 11, .ro, 0x0, false, false, false, .none⟩
abbrev Reg.THM_SENSOR_FAIL_LOST : Fld := ⟨0x7418, 0, 11, .ro, 0x0, false, false, false, .none⟩
abbrev Reg.THM_SENSOR_TRANS_COUNT : Fld := ⟨0x741c, 0, 32, .ro, 0x0, false, false, false, .none⟩
abbrev Reg.THM_EVENT_SENSOR : Fld := ⟨0x7420, 3, 1, .rc, 0x0, false, false, false, .none⟩
abbrev Reg.THM_EVENT_BAND : Fld := ⟨0x7420, 2, 1, .rc, 0x0, false, false, false, .none⟩
abbrev Reg.THM_EVENT_RELAXED : Fld := ⟨0x7420, 1, 1, .rc, 0x0, false, false, false, .none⟩
abbrev Reg.THM_EVENT_THROTTLED : Fld := ⟨0x7420, 0, 1, .rc, 0x0, false, false, false, .none⟩
abbrev Reg.THM_EVENT_EN_EN : Fld := ⟨0x7424, 0, 4, .rw, 0x0, false, false, true, .none⟩
abbrev Reg.THM_SENSOR_READING (i : Nat) : Fld := ⟨0x7440 + 0x4 * i, 16, 16, .ro, 0x0, false, false, false, .none⟩
abbrev Reg.THM_SENSOR_BIAS (i : Nat) : Fld := ⟨0x7440 + 0x4 * i, 0, 16, .ro, 0x0, false, false, false, .none⟩
abbrev Reg.THM_REACH_T_BAND (i : Nat) : Fld := ⟨0x7480 + 0x4 * i, 16, 16, .ro, 0x0, false, false, false, .none⟩
abbrev Reg.THM_REACH_DWELL (i : Nat) : Fld := ⟨0x7480 + 0x4 * i, 11, 5, .ro, 0x0, false, false, false, .none⟩
abbrev Reg.THM_REACH_TARGET (i : Nat) : Fld := ⟨0x7480 + 0x4 * i, 8, 3, .ro, 0x0, false, false, false, .none⟩
abbrev Reg.THM_REACH_BAND (i : Nat) : Fld := ⟨0x7480 + 0x4 * i, 0, 3, .ro, 0x0, false, false, false, .none⟩
abbrev Reg.THM_REACH_MEAN_MEAN (i : Nat) : Fld := ⟨0x74c0 + 0x4 * i, 0, 16, .ro, 0x0, false, false, false, .none⟩
abbrev Reg.THM_NODE_SEL_NODE : Fld := ⟨0x7500, 0, 10, .rw, 0x0, false, false, false, .none⟩
abbrev Reg.THM_NODE_DATA_OUTPUT : Fld := ⟨0x7504, 16, 16, .ro, 0x0, false, false, false, .none⟩
abbrev Reg.THM_NODE_DATA_RATE : Fld := ⟨0x7504, 0, 16, .ro, 0x0, false, false, false, .none⟩
abbrev Reg.THM_COEF0_C_NODE : Fld := ⟨0x7580, 16, 16, .bt, 0x0, false, false, true, .none⟩
abbrev Reg.THM_COEF0_G_LAT : Fld := ⟨0x7580, 0, 16, .bt, 0x0, false, false, true, .none⟩
abbrev Reg.THM_COEF1_G_V : Fld := ⟨0x7584, 16, 16, .bt, 0x0, false, false, true, .none⟩
abbrev Reg.THM_COEF1_ETA : Fld := ⟨0x7584, 0, 16, .bt, 0x0, false, false, true, .none⟩
abbrev Reg.THM_COEF2_C_P0 : Fld := ⟨0x7588, 16, 16, .bt, 0x0, false, false, true, .none⟩
abbrev Reg.THM_COEF2_C_P1 : Fld := ⟨0x7588, 0, 16, .bt, 0x0, false, false, true, .none⟩
abbrev Reg.THM_COEF3_C_P2 : Fld := ⟨0x758c, 16, 16, .bt, 0x0, false, false, true, .none⟩
abbrev Reg.THM_COEF3_C_P3 : Fld := ⟨0x758c, 0, 16, .bt, 0x0, false, false, true, .none⟩
abbrev Reg.THM_COEF4_G_01 : Fld := ⟨0x7590, 16, 16, .bt, 0x0, false, false, true, .none⟩
abbrev Reg.THM_COEF4_G_12 : Fld := ⟨0x7590, 0, 16, .bt, 0x0, false, false, true, .none⟩
abbrev Reg.THM_COEF5_G_23 : Fld := ⟨0x7594, 16, 16, .bt, 0x0, false, false, true, .none⟩
abbrev Reg.THM_COEF5_G_CASE : Fld := ⟨0x7594, 0, 16, .bt, 0x0, false, false, true, .none⟩
abbrev Reg.THM_COEF6_P_LOGIC : Fld := ⟨0x7598, 0, 16, .bt, 0x0, false, false, true, .none⟩
/-! ## Block 0x8000 -/
abbrev Reg.LNK_CTRL_RETRAIN (i : Nat) : Fld := ⟨0x8000 + 0x100 * i, 2, 1, .w1p, 0x0, false, false, false, .none⟩
abbrev Reg.LNK_CTRL_RATE_5G (i : Nat) : Fld := ⟨0x8000 + 0x100 * i, 1, 1, .rw, 0x1, false, false, true, .none⟩
abbrev Reg.LNK_CTRL_EN (i : Nat) : Fld := ⟨0x8000 + 0x100 * i, 0, 1, .rw, 0x1, false, false, true, .none⟩
abbrev Reg.LNK_CFG_DEVNUM (i : Nat) : Fld := ⟨0x8004 + 0x100 * i, 16, 12, .wl, 0x0, false, false, true, .none⟩
abbrev Reg.LNK_CFG_TRAIN_TRIES (i : Nat) : Fld := ⟨0x8004 + 0x100 * i, 0, 4, .rw, 0x3, false, false, true, (.range 1 15)⟩
abbrev Reg.LNK_STATUS_SESSION (i : Nat) : Fld := ⟨0x8008 + 0x100 * i, 31, 1, .ro, 0x0, false, false, false, .none⟩
abbrev Reg.LNK_STATUS_RATE (i : Nat) : Fld := ⟨0x8008 + 0x100 * i, 30, 1, .ro, 0x0, false, false, false, .none⟩
abbrev Reg.LNK_STATUS_FENCED (i : Nat) : Fld := ⟨0x8008 + 0x100 * i, 24, 4, .ro, 0x0, false, false, false, .none⟩
abbrev Reg.LNK_STATUS_WIDTH (i : Nat) : Fld := ⟨0x8008 + 0x100 * i, 16, 4, .ro, 0x0, false, false, false, .none⟩
abbrev Reg.LNK_STATUS_STATE (i : Nat) : Fld := ⟨0x8008 + 0x100 * i, 0, 4, .ro, 0x0, false, false, false, .none⟩
abbrev Reg.LNK_PARTNER_ROLE (i : Nat) : Fld := ⟨0x800c + 0x100 * i, 30, 2, .ro, 0x3, false, false, false, .none⟩
abbrev Reg.LNK_PARTNER_DEVNUM (i : Nat) : Fld := ⟨0x800c + 0x100 * i, 16, 12, .ro, 0x0, false, false, false, .none⟩
abbrev Reg.LNK_PARTNER_MEMBER (i : Nat) : Fld := ⟨0x800c + 0x100 * i, 8, 8, .ro, 0x0, false, false, false, .none⟩
abbrev Reg.LNK_PARTNER_RATES (i : Nat) : Fld := ⟨0x800c + 0x100 * i, 6, 2, .ro, 0x0, false, false, false, .none⟩
abbrev Reg.LNK_PARTNER_RX_BUFFERS (i : Nat) : Fld := ⟨0x800c + 0x100 * i, 0, 6, .ro, 0x0, false, false, false, .none⟩
abbrev Reg.LNK_PARTNER_EPOCH_EPOCH (i : Nat) : Fld := ⟨0x8010 + 0x100 * i, 0, 32, .ro, 0x0, false, false, false, .none⟩
abbrev Reg.LNK_SEQ_TX_NEXT (i : Nat) : Fld := ⟨0x8014 + 0x100 * i, 16, 12, .ro, 0x0, false, false, false, .none⟩
abbrev Reg.LNK_SEQ_RX_LAST (i : Nat) : Fld := ⟨0x8014 + 0x100 * i, 0, 12, .ro, 0x0, false, false, false, .none⟩
abbrev Reg.LNK_TIMEOUT_RECOVER_MS (i : Nat) : Fld := ⟨0x8018 + 0x100 * i, 24, 8, .rw, 0x32, false, false, true, (.range 10 255)⟩
abbrev Reg.LNK_TIMEOUT_IDLE_US (i : Nat) : Fld := ⟨0x8018 + 0x100 * i, 12, 12, .rw, 0x3e8, false, false, true, (.range 100 4095)⟩
abbrev Reg.LNK_TIMEOUT_PKT_NS (i : Nat) : Fld := ⟨0x8018 + 0x100 * i, 0, 12, .rw, 0x7d0, false, false, true, (.range 500 4095)⟩
abbrev Reg.LNK_RETURN_HOLD_MS (i : Nat) : Fld := ⟨0x801c + 0x100 * i, 0, 16, .rw, 0x3e8, false, false, true, (.range 100 65535)⟩
abbrev Reg.LNK_NAK_COUNT_COUNT (i : Nat) : Fld := ⟨0x8020 + 0x100 * i, 0, 32, .ro, 0x0, false, false, false, .none⟩
abbrev Reg.LNK_REPLAY_COUNT_COUNT (i : Nat) : Fld := ⟨0x8024 + 0x100 * i, 0, 32, .ro, 0x0, false, false, false, .none⟩
abbrev Reg.LNK_TRANSIENT_COUNT_COUNT (i : Nat) : Fld := ⟨0x8028 + 0x100 * i, 0, 32, .ro, 0x0, false, false, false, .none⟩
abbrev Reg.LNK_BRINGUPS_COUNT (i : Nat) : Fld := ⟨0x802c + 0x100 * i, 0, 32, .ro, 0x0, false, false, false, .none⟩
abbrev Reg.LNK_EVENT_SESSION_END (i : Nat) : Fld := ⟨0x8030 + 0x100 * i, 3, 1, .rc, 0x0, false, false, false, .none⟩
abbrev Reg.LNK_EVENT_REPLAY_LIMIT (i : Nat) : Fld := ⟨0x8030 + 0x100 * i, 2, 1, .rc, 0x0, false, false, false, .none⟩
abbrev Reg.LNK_EVENT_LANE (i : Nat) : Fld := ⟨0x8030 + 0x100 * i, 1, 1, .rc, 0x0, false, false, false, .none⟩
abbrev Reg.LNK_EVENT_STATE (i : Nat) : Fld := ⟨0x8030 + 0x100 * i, 0, 1, .rc, 0x0, false, false, false, .none⟩
abbrev Reg.LNK_EVENT_EN_EN (i : Nat) : Fld := ⟨0x8034 + 0x100 * i, 0, 4, .rw, 0x0, false, false, true, .none⟩
abbrev Reg.LNK_LANE_FENCED (i : Nat) : Fld := ⟨0x8040 + 0x4 * i, 31, 1, .ro, 0x0, false, false, false, .none⟩
abbrev Reg.LNK_LANE_RETURNING (i : Nat) : Fld := ⟨0x8040 + 0x4 * i, 30, 1, .ro, 0x0, false, false, false, .none⟩
abbrev Reg.LNK_LANE_VIOLATIONS (i : Nat) : Fld := ⟨0x8040 + 0x4 * i, 0, 16, .rc, 0x0, false, false, false, .none⟩
abbrev Reg.LNK_PEER_LANE_FENCED (i : Nat) : Fld := ⟨0x8140 + 0x4 * i, 31, 1, .ro, 0x0, false, false, false, .none⟩
abbrev Reg.LNK_PEER_LANE_RETURNING (i : Nat) : Fld := ⟨0x8140 + 0x4 * i, 30, 1, .ro, 0x0, false, false, false, .none⟩
abbrev Reg.LNK_PEER_LANE_VIOLATIONS (i : Nat) : Fld := ⟨0x8140 + 0x4 * i, 0, 16, .rc, 0x0, false, false, false, .none⟩
abbrev Reg.LNK_TIME_EDGE_EDGE : Fld := ⟨0x8080, 0, 32, .ro, 0x0, false, false, false, .none⟩
abbrev Reg.LNK_TIME_OFFSET_OFFSET : Fld := ⟨0x8084, 0, 32, .ro, 0x0, false, false, false, .none⟩
abbrev Reg.EYE_CTRL_VOLT (i : Nat) : Fld := ⟨0x8800 + 0x10 * i, 24, 8, .rw, 0x0, false, false, false, (.subst 128 129)⟩
abbrev Reg.EYE_CTRL_PHASE (i : Nat) : Fld := ⟨0x8800 + 0x10 * i, 16, 6, .rw, 0x0, false, false, false, .none⟩
abbrev Reg.EYE_CTRL_EXP (i : Nat) : Fld := ⟨0x8800 + 0x10 * i, 8, 6, .rw, 0x14, false, false, false, (.range 20 40)⟩
abbrev Reg.EYE_CTRL_STOP (i : Nat) : Fld := ⟨0x8800 + 0x10 * i, 1, 1, .w1p, 0x0, false, false, false, .none⟩
abbrev Reg.EYE_CTRL_START (i : Nat) : Fld := ⟨0x8800 + 0x10 * i, 0, 1, .w1p, 0x0, false, false, false, .none⟩
abbrev Reg.EYE_STATUS_ABORTED (i : Nat) : Fld := ⟨0x8804 + 0x10 * i, 2, 1, .ro, 0x0, false, false, false, .none⟩
abbrev Reg.EYE_STATUS_DONE (i : Nat) : Fld := ⟨0x8804 + 0x10 * i, 1, 1, .ro, 0x0, false, false, false, .none⟩
abbrev Reg.EYE_STATUS_RUNNING (i : Nat) : Fld := ⟨0x8804 + 0x10 * i, 0, 1, .ro, 0x0, false, false, false, .none⟩
abbrev Reg.EYE_ERRORS_VALUE (i : Nat) : Fld := ⟨0x8808 + 0x10 * i, 0, 32, .ro, 0x0, false, false, false, .none⟩
abbrev Reg.EYE_COUNT_VALUE (i : Nat) : Fld := ⟨0x880c + 0x10 * i, 0, 32, .ro, 0x0, false, false, false, .none⟩
/-! ## Block 0x9000 -/
abbrev Reg.PEER_CFG_PAIRED : Fld := ⟨0x9000, 31, 1, .bt, 0x0, false, false, true, .none⟩
abbrev Reg.PEER_CFG_COMPAT : Fld := ⟨0x9000, 30, 1, .bt, 0x0, false, false, true, .none⟩
abbrev Reg.PEER_CFG_AUTO_RESYNC : Fld := ⟨0x9000, 29, 1, .rw, 0x1, false, false, true, .none⟩
abbrev Reg.PEER_CFG_COMPAT_LC : Fld := ⟨0x9000, 20, 4, .bt, 0x4, false, false, true, (.range 2 8)⟩
abbrev Reg.PEER_CFG_RESYNC_AFTER : Fld := ⟨0x9000, 8, 8, .rw, 0x10, false, false, true, (.range 1 255)⟩
abbrev Reg.PEER_CFG_VERIFY_LIMIT : Fld := ⟨0x9000, 0, 8, .rw, 0x40, false, false, true, (.range 8 255)⟩
abbrev Reg.PEER_CTRL_RESYNC : Fld := ⟨0x9004, 0, 1, .w1p, 0x0, false, false, false, .none⟩
abbrev Reg.PEER_STATUS_TWIN_LOCK : Fld := ⟨0x9008, 31, 1, .ro, 0x0, false, false, false, .none⟩
abbrev Reg.PEER_STATUS_DUAL : Fld := ⟨0x9008, 30, 1, .ro, 0x0, false, false, false, .none⟩
abbrev Reg.PEER_STATUS_ALIGNED : Fld := ⟨0x9008, 29, 1, .ro, 0x0, false, false, false, .none⟩
abbrev Reg.PEER_STATUS_COUPLED : Fld := ⟨0x9008, 28, 1, .ro, 0x0, false, false, false, .none⟩
abbrev Reg.PEER_STATUS_RESYNC : Fld := ⟨0x9008, 20, 3, .ro, 0x0, false, false, false, .none⟩
abbrev Reg.PEER_STATUS_MATCH_RUN : Fld := ⟨0x9008, 16, 4, .ro, 0x0, false, false, false, .none⟩
abbrev Reg.PEER_STATUS_TWIN_ROLE : Fld := ⟨0x9008, 10, 2, .ro, 0x0, false, false, false, .none⟩
abbrev Reg.PEER_STATUS_ROLE : Fld := ⟨0x9008, 8, 2, .ro, 0x2, false, false, false, .none⟩
abbrev Reg.PEER_STATUS_ROLE_IN : Fld := ⟨0x9008, 4, 2, .ro, 0x0, false, false, false, .none⟩
abbrev Reg.PEER_PHASE_VALUE : Fld := ⟨0x900c, 0, 32, .ro, 0x0, false, false, false, .none⟩
abbrev Reg.PEER_LATENCY_VALUE : Fld := ⟨0x9010, 0, 32, .ro, 0x0, false, false, false, .none⟩
abbrev Reg.PEER_MISMATCH_COMPARED : Fld := ⟨0x9014, 16, 16, .ro, 0x0, false, false, false, .none⟩
abbrev Reg.PEER_MISMATCH_DIFFER : Fld := ⟨0x9014, 0, 16, .rc, 0x0, false, false, false, .none⟩
abbrev Reg.PEER_MISMATCH_COUNT_COUNT : Fld := ⟨0x9018, 0, 32, .ro, 0x0, false, false, false, .none⟩
abbrev Reg.PEER_MAP_MISSED_COUNT : Fld := ⟨0x901c, 0, 32, .ro, 0x0, false, false, false, .none⟩
abbrev Reg.PEER_SWITCHES_COUNT : Fld := ⟨0x9020, 0, 32, .ro, 0x0, false, false, false, .none⟩
abbrev Reg.PEER_COPY_KIB_KIB : Fld := ⟨0x9024, 0, 16, .ro, 0x0, false, false, false, .none⟩
abbrev Reg.PEER_EVENT_RESYNC : Fld := ⟨0x9028, 3, 1, .rc, 0x0, false, false, false, .none⟩
abbrev Reg.PEER_EVENT_MISMATCH : Fld := ⟨0x9028, 2, 1, .rc, 0x0, false, false, false, .none⟩
abbrev Reg.PEER_EVENT_LOCK : Fld := ⟨0x9028, 1, 1, .rc, 0x0, false, false, false, .none⟩
abbrev Reg.PEER_EVENT_ROLE : Fld := ⟨0x9028, 0, 1, .rc, 0x0, false, false, false, .none⟩
abbrev Reg.PEER_EVENT_EN_EN : Fld := ⟨0x902c, 0, 4, .rw, 0x0, false, false, true, .none⟩
abbrev Reg.PEER_CRC_CRC (i : Nat) : Fld := ⟨0x9040 + 0x4 * i, 0, 32, .ro, 0x0, false, false, false, .none⟩
/-! ## Block 0xa000 -/
abbrev Reg.SAF_IN_CFG_DISC_MS (i : Nat) : Fld := ⟨0xa000 + 0x4 * i, 16, 16, .bt, 0x64, false, false, true, (.range 10 500)⟩
abbrev Reg.SAF_IN_CFG_SCENE (i : Nat) : Fld := ⟨0xa000 + 0x4 * i, 8, 8, .bt, 0x1, false, false, true, .none⟩
abbrev Reg.SAF_IN_CFG_LATCH (i : Nat) : Fld := ⟨0xa000 + 0x4 * i, 5, 1, .bt, 0x0, false, false, true, .none⟩
abbrev Reg.SAF_IN_CFG_FUNCTION (i : Nat) : Fld := ⟨0xa000 + 0x4 * i, 2, 3, .bt, 0x0, false, false, true, (.above 4 0)⟩
abbrev Reg.SAF_IN_CFG_MODE (i : Nat) : Fld := ⟨0xa000 + 0x4 * i, 0, 2, .bt, 0x0, false, false, true, .none⟩
abbrev Reg.SAF_IN_STATUS_A3 : Fld := ⟨0xa010, 31, 1, .ro, 0x0, false, false, false, .none⟩
abbrev Reg.SAF_IN_STATUS_B3 : Fld := ⟨0xa010, 30, 1, .ro, 0x0, false, false, false, .none⟩
abbrev Reg.SAF_IN_STATUS_STATE3 : Fld := ⟨0xa010, 24, 3, .ro, 0x0, false, false, false, .none⟩
abbrev Reg.SAF_IN_STATUS_A2 : Fld := ⟨0xa010, 23, 1, .ro, 0x0, false, false, false, .none⟩
abbrev Reg.SAF_IN_STATUS_B2 : Fld := ⟨0xa010, 22, 1, .ro, 0x0, false, false, false, .none⟩
abbrev Reg.SAF_IN_STATUS_STATE2 : Fld := ⟨0xa010, 16, 3, .ro, 0x0, false, false, false, .none⟩
abbrev Reg.SAF_IN_STATUS_A1 : Fld := ⟨0xa010, 15, 1, .ro, 0x0, false, false, false, .none⟩
abbrev Reg.SAF_IN_STATUS_B1 : Fld := ⟨0xa010, 14, 1, .ro, 0x0, false, false, false, .none⟩
abbrev Reg.SAF_IN_STATUS_STATE1 : Fld := ⟨0xa010, 8, 3, .ro, 0x0, false, false, false, .none⟩
abbrev Reg.SAF_IN_STATUS_A0 : Fld := ⟨0xa010, 7, 1, .ro, 0x0, false, false, false, .none⟩
abbrev Reg.SAF_IN_STATUS_B0 : Fld := ⟨0xa010, 6, 1, .ro, 0x0, false, false, false, .none⟩
abbrev Reg.SAF_IN_STATUS_STATE0 : Fld := ⟨0xa010, 0, 3, .ro, 0x0, false, false, false, .none⟩
abbrev Reg.SAF_OUT_PULSE_EN : Fld := ⟨0xa014, 31, 1, .bt, 0x1, false, false, true, .none⟩
abbrev Reg.SAF_OUT_READBACK : Fld := ⟨0xa014, 8, 4, .ro, 0x0, false, false, false, .none⟩
abbrev Reg.SAF_OUT_FAIL1 : Fld := ⟨0xa014, 7, 1, .ro, 0x0, false, false, false, .none⟩
abbrev Reg.SAF_OUT_FAIL0 : Fld := ⟨0xa014, 6, 1, .ro, 0x0, false, false, false, .none⟩
abbrev Reg.SAF_OUT_TESTING : Fld := ⟨0xa014, 5, 1, .ro, 0x0, false, false, false, .none⟩
abbrev Reg.SAF_OUT_PAUSED : Fld := ⟨0xa014, 4, 1, .ro, 0x0, false, false, false, .none⟩
abbrev Reg.SAF_OUT_SOUT1 : Fld := ⟨0xa014, 1, 1, .ro, 0x0, false, false, false, .none⟩
abbrev Reg.SAF_OUT_SOUT0 : Fld := ⟨0xa014, 0, 1, .ro, 0x0, false, false, false, .none⟩
abbrev Reg.SAF_TG_CFG_EN : Fld := ⟨0xa018, 31, 1, .bt, 0x0, false, false, true, .none⟩
abbrev Reg.SAF_TG_CFG_SKEW_MS : Fld := ⟨0xa018, 16, 8, .bt, 0x32, false, false, true, .none⟩
abbrev Reg.SAF_TG_CFG_SOURCE : Fld := ⟨0xa018, 0, 16, .bt, 0x0, false, false, true, .none⟩
abbrev Reg.SAF_TG_TIME_FIRST_S : Fld := ⟨0xa01c, 16, 16, .bt, 0xa, false, false, true, (.range 1 600)⟩
abbrev Reg.SAF_TG_TIME_TIMEOUT_MS : Fld := ⟨0xa01c, 0, 16, .bt, 0x1f4, false, false, true, (.range 100 5000)⟩
abbrev Reg.SAF_TG_STATUS_TIMED_OUT : Fld := ⟨0xa020, 31, 1, .ro, 0x0, false, false, false, .none⟩
abbrev Reg.SAF_TG_STATUS_SYNCED : Fld := ⟨0xa020, 30, 1, .ro, 0x0, false, false, false, .none⟩
abbrev Reg.SAF_TG_STATUS_COMMAND : Fld := ⟨0xa020, 24, 2, .ro, 0x1, false, false, false, .none⟩
abbrev Reg.SAF_TG_STATUS_SCENE : Fld := ⟨0xa020, 16, 8, .ro, 0x0, false, false, false, .none⟩
abbrev Reg.SAF_TG_STATUS_ALIVE : Fld := ⟨0xa020, 0, 16, .ro, 0x0, false, false, false, .none⟩
abbrev Reg.SAF_TG_REJECT_VALID : Fld := ⟨0xa024, 31, 1, .rc, 0x0, false, false, false, .none⟩
abbrev Reg.SAF_TG_REJECT_CHANNEL : Fld := ⟨0xa024, 28, 2, .ro, 0x0, false, false, false, .none⟩
abbrev Reg.SAF_TG_REJECT_REASON : Fld := ⟨0xa024, 24, 4, .ro, 0x0, false, false, false, .none⟩
abbrev Reg.SAF_TG_REJECT_ALIVE : Fld := ⟨0xa024, 0, 16, .ro, 0x0, false, false, false, .none⟩
abbrev Reg.SAF_TG_ACCEPTED_COUNT : Fld := ⟨0xa028, 0, 32, .ro, 0x0, false, false, false, .none⟩
abbrev Reg.SAF_TG_REJECTED_COUNT : Fld := ⟨0xa02c, 0, 32, .ro, 0x0, false, false, false, .none⟩
abbrev Reg.SAF_TOWP_CFG_REPLY : Fld := ⟨0xa030, 0, 1, .bt, 0x0, false, false, true, .none⟩
abbrev Reg.SAF_TOWP_ERRORS_COUNT : Fld := ⟨0xa034, 0, 32, .ro, 0x0, false, false, false, .none⟩
abbrev Reg.SAF_EGRESS_REQUESTED : Fld := ⟨0xa038, 31, 1, .ro, 0x0, false, false, false, .none⟩
abbrev Reg.SAF_EGRESS_SCENE : Fld := ⟨0xa038, 16, 8, .ro, 0x0, false, false, false, .none⟩
abbrev Reg.SAF_EGRESS_TIMEOUT : Fld := ⟨0xa038, 7, 1, .ro, 0x0, false, false, false, .none⟩
abbrev Reg.SAF_EGRESS_TELEGRAM : Fld := ⟨0xa038, 6, 1, .ro, 0x0, false, false, false, .none⟩
abbrev Reg.SAF_EGRESS_INPUTS : Fld := ⟨0xa038, 0, 4, .ro, 0x0, false, false, false, .none⟩
abbrev Reg.SAF_CMD_REARM : Fld := ⟨0xa03c, 0, 4, .w1p, 0x0, false, false, false, .none⟩
abbrev Reg.SAF_EVENT_CHK : Fld := ⟨0xa040, 4, 1, .rc, 0x0, false, false, false, .none⟩
abbrev Reg.SAF_EVENT_OUT_FAIL : Fld := ⟨0xa040, 3, 1, .rc, 0x0, false, false, false, .none⟩
abbrev Reg.SAF_EVENT_TG_REJECT : Fld := ⟨0xa040, 2, 1, .rc, 0x0, false, false, false, .none⟩
abbrev Reg.SAF_EVENT_EGRESS : Fld := ⟨0xa040, 1, 1, .rc, 0x0, false, false, false, .none⟩
abbrev Reg.SAF_EVENT_DEMAND : Fld := ⟨0xa040, 0, 1, .rc, 0x0, false, false, false, .none⟩
abbrev Reg.SAF_EVENT_EN_EN : Fld := ⟨0xa044, 0, 5, .rw, 0x0, false, false, true, .none⟩
abbrev Reg.CHK_CFG_EN (i : Nat) : Fld := ⟨0xa100 + 0x20 * i, 31, 1, .rw, 0x0, false, false, true, .none⟩
abbrev Reg.CHK_CFG_POINT (i : Nat) : Fld := ⟨0xa100 + 0x20 * i, 24, 4, .rw, 0x0, false, true, true, (.range 0 5)⟩
abbrev Reg.CHK_CFG_INDEX (i : Nat) : Fld := ⟨0xa100 + 0x20 * i, 16, 6, .rw, 0x0, false, true, true, .none⟩
abbrev Reg.CHK_CFG_POLY (i : Nat) : Fld := ⟨0xa100 + 0x20 * i, 14, 2, .rw, 0x0, false, true, true, .none⟩
abbrev Reg.CHK_CFG_MODE (i : Nat) : Fld := ⟨0xa100 + 0x20 * i, 13, 1, .rw, 0x0, false, true, true, .none⟩
abbrev Reg.CHK_CFG_BE (i : Nat) : Fld := ⟨0xa100 + 0x20 * i, 12, 1, .rw, 0x0, false, true, true, .none⟩
abbrev Reg.CHK_CFG_ALIVE_EN (i : Nat) : Fld := ⟨0xa100 + 0x20 * i, 11, 1, .rw, 0x0, false, true, true, .none⟩
abbrev Reg.CHK_CFG_ALIVE16 (i : Nat) : Fld := ⟨0xa100 + 0x20 * i, 10, 1, .rw, 0x0, false, true, true, .none⟩
abbrev Reg.CHK_OFFSETS_ALIVE_OFF (i : Nat) : Fld := ⟨0xa104 + 0x20 * i, 16, 16, .rw, 0x0, false, true, true, .none⟩
abbrev Reg.CHK_OFFSETS_CHK_OFF (i : Nat) : Fld := ⟨0xa104 + 0x20 * i, 0, 16, .rw, 0x0, false, true, true, .none⟩
abbrev Reg.CHK_REF_REF (i : Nat) : Fld := ⟨0xa108 + 0x20 * i, 0, 32, .rw, 0x0, true, false, true, .none⟩
abbrev Reg.CHK_VALUE_VALUE (i : Nat) : Fld := ⟨0xa10c + 0x20 * i, 0, 32, .ro, 0x0, false, false, false, .none⟩
abbrev Reg.CHK_RECORDS_COUNT (i : Nat) : Fld := ⟨0xa110 + 0x20 * i, 0, 32, .ro, 0x0, false, false, false, .none⟩
abbrev Reg.CHK_MISMATCHES_COUNT (i : Nat) : Fld := ⟨0xa114 + 0x20 * i, 0, 32, .ro, 0x0, false, false, false, .none⟩
abbrev Reg.CHK_ALIVE_SEEDED (i : Nat) : Fld := ⟨0xa118 + 0x20 * i, 31, 1, .ro, 0x0, false, false, false, .none⟩
abbrev Reg.CHK_ALIVE_LAST (i : Nat) : Fld := ⟨0xa118 + 0x20 * i, 0, 16, .ro, 0x0, false, false, false, .none⟩
/-! ## Block 0xb000 -/
abbrev Reg.SEC_STATUS_BOOT_PHASE : Fld := ⟨0xb000, 31, 1, .ro, 0x1, false, false, false, .none⟩
abbrev Reg.SEC_STATUS_IDENTITY : Fld := ⟨0xb000, 30, 1, .ro, 0x0, false, false, false, .none⟩
abbrev Reg.SEC_STATUS_DEBUG_OPEN : Fld := ⟨0xb000, 29, 1, .ro, 0x0, false, false, false, .none⟩
abbrev Reg.SEC_STATUS_PROVISION : Fld := ⟨0xb000, 28, 1, .ro, 0x0, false, false, false, .none⟩
abbrev Reg.SEC_STATUS_HOST_SESSION : Fld := ⟨0xb000, 27, 1, .ro, 0x0, false, false, false, .none⟩
abbrev Reg.SEC_STATUS_PEER_SESSION : Fld := ⟨0xb000, 26, 1, .ro, 0x0, false, false, false, .none⟩
abbrev Reg.SEC_STATUS_TG_KEY : Fld := ⟨0xb000, 25, 1, .ro, 0x0, false, false, false, .none⟩
abbrev Reg.SEC_STATUS_TRIM_OK : Fld := ⟨0xb000, 24, 1, .ro, 0x0, false, false, false, .none⟩
abbrev Reg.SEC_STATUS_USABLE : Fld := ⟨0xb000, 16, 4, .ro, 0x0, false, false, false, .none⟩
abbrev Reg.SEC_STATUS_REVOKED : Fld := ⟨0xb000, 12, 4, .ro, 0x0, false, false, false, .none⟩
abbrev Reg.SEC_STATUS_WRITTEN : Fld := ⟨0xb000, 8, 4, .ro, 0x0, false, false, false, .none⟩
abbrev Reg.SEC_STATUS_KEYS : Fld := ⟨0xb000, 0, 5, .ro, 0x0, false, false, false, .none⟩
abbrev Reg.SEC_BOOT_STATUS_RECOVERY : Fld := ⟨0xb004, 31, 1, .ro, 0x0, false, false, false, .none⟩
abbrev Reg.SEC_BOOT_STATUS_FALLBACK : Fld := ⟨0xb004, 30, 1, .ro, 0x0, false, false, false, .none⟩
abbrev Reg.SEC_BOOT_STATUS_IMAGE : Fld := ⟨0xb004, 28, 2, .ro, 0x3, false, false, false, .none⟩
abbrev Reg.SEC_BOOT_STATUS_MARKED : Fld := ⟨0xb004, 24, 2, .ro, 0x0, false, false, false, .none⟩
abbrev Reg.SEC_BOOT_STATUS_REASON_A : Fld := ⟨0xb004, 20, 4, .ro, 0x0, false, false, false, .none⟩
abbrev Reg.SEC_BOOT_STATUS_REASON_B : Fld := ⟨0xb004, 16, 4, .ro, 0x0, false, false, false, .none⟩
abbrev Reg.SEC_SVN_RUNNING : Fld := ⟨0xb008, 16, 11, .ro, 0x0, false, false, false, .none⟩
abbrev Reg.SEC_SVN_COUNT : Fld := ⟨0xb008, 0, 11, .ro, 0x0, false, false, false, .none⟩
abbrev Reg.SEC_SERIAL_BYTES (i : Nat) : Fld := ⟨0xb010 + 0x4 * i, 0, 32, .ro, 0x0, false, false, false, .none⟩
abbrev Reg.SEC_FW_DIGEST_BYTES (i : Nat) : Fld := ⟨0xb020 + 0x4 * i, 0, 32, .ro, 0x0, false, false, false, .none⟩
abbrev Reg.SEC_TRIM_DIGEST_BYTES (i : Nat) : Fld := ⟨0xb040 + 0x4 * i, 0, 32, .ro, 0x0, false, false, false, .none⟩
abbrev Reg.SEC_ENTROPY_HEALTHY : Fld := ⟨0xb060, 31, 1, .ro, 0x0, false, false, false, .none⟩
abbrev Reg.SEC_ENTROPY_FAILURES : Fld := ⟨0xb060, 0, 16, .ro, 0x0, false, false, false, .none⟩
abbrev Reg.SEC_POLICY_REPROVISION : Fld := ⟨0xb064, 1, 1, .bt, 0x1, false, false, true, .none⟩
abbrev Reg.SEC_POLICY_DEBUG_TOKENS : Fld := ⟨0xb064, 0, 1, .bt, 0x1, false, false, true, .none⟩
abbrev Reg.SEC_EVENT_ENTROPY : Fld := ⟨0xb068, 3, 1, .rc, 0x0, false, false, false, .none⟩
abbrev Reg.SEC_EVENT_DEBUG : Fld := ⟨0xb068, 2, 1, .rc, 0x0, false, false, false, .none⟩
abbrev Reg.SEC_EVENT_PROVISION : Fld := ⟨0xb068, 1, 1, .rc, 0x0, false, false, false, .none⟩
abbrev Reg.SEC_EVENT_SESSION : Fld := ⟨0xb068, 0, 1, .rc, 0x0, false, false, false, .none⟩
abbrev Reg.SEC_EVENT_EN_EN : Fld := ⟨0xb06c, 0, 4, .rw, 0x0, false, false, true, .none⟩
abbrev Reg.SEC_BOOT_CTRL_DONE : Fld := ⟨0xb080, 0, 1, .w1pbt, 0x0, false, false, false, .none⟩
abbrev Reg.SEC_GATE_BASE_BASE (i : Nat) : Fld := ⟨0xb100 + 0x8 * i, 12, 20, .bt, 0x0, false, false, true, .none⟩
abbrev Reg.SEC_GATE_BASE_EN (i : Nat) : Fld := ⟨0xb100 + 0x8 * i, 0, 1, .bt, 0x0, false, false, true, .none⟩
abbrev Reg.SEC_GATE_LIMIT_LIMIT (i : Nat) : Fld := ⟨0xb104 + 0x8 * i, 12, 20, .bt, 0x0, false, false, true, .none⟩
abbrev Reg.SEC_GATE_LIMIT_READ (i : Nat) : Fld := ⟨0xb104 + 0x8 * i, 1, 1, .bt, 0x0, false, false, true, .none⟩
abbrev Reg.SEC_GATE_LIMIT_WRITE (i : Nat) : Fld := ⟨0xb104 + 0x8 * i, 0, 1, .bt, 0x0, false, false, true, .none⟩
/-! ## Block 0xc000 -/
abbrev Reg.NFC_CTRL_CHECKPOINT : Fld := ⟨0xc000, 1, 1, .w1p, 0x0, false, false, false, .none⟩
abbrev Reg.NFC_CTRL_SCRUB_EN : Fld := ⟨0xc000, 0, 1, .rw, 0x1, false, false, true, .none⟩
abbrev Reg.NFC_CFG_REFRESH_BITS : Fld := ⟨0xc004, 24, 8, .rw, 0xe, false, false, true, (.range 8 20)⟩
abbrev Reg.NFC_CFG_SPARE_LOW : Fld := ⟨0xc004, 0, 16, .rw, 0x40, false, false, true, (.range 16 1024)⟩
abbrev Reg.NFC_SCRUB_CFG_DAYS : Fld := ⟨0xc008, 16, 16, .rw, 0x5a, false, false, true, (.range 7 90)⟩
abbrev Reg.NFC_SCRUB_CFG_RD_LIMIT_K : Fld := ⟨0xc008, 0, 16, .rw, 0x1f4, false, false, true, (.range 10 10000)⟩
abbrev Reg.NFC_CKPT_CFG_PERIOD_S : Fld := ⟨0xc00c, 0, 32, .rw, 0x15180, false, false, true, (.range 3600 86400)⟩
abbrev Reg.NFC_PART_CES : Fld := ⟨0xc010, 30, 2, .ro, 0x0, false, false, false, .none⟩
abbrev Reg.NFC_PART_RETRY : Fld := ⟨0xc010, 26, 4, .ro, 0x0, false, false, false, .none⟩
abbrev Reg.NFC_PART_PPB : Fld := ⟨0xc010, 24, 2, .ro, 0x0, false, false, false, .none⟩
abbrev Reg.NFC_PART_BLOCKS : Fld := ⟨0xc010, 0, 20, .ro, 0x0, false, false, false, .none⟩
abbrev Reg.NFC_STATUS_READY : Fld := ⟨0xc014, 31, 1, .ro, 0x0, false, false, false, .none⟩
abbrev Reg.NFC_STATUS_DEFERRED : Fld := ⟨0xc014, 30, 1, .ro, 0x0, false, false, false, .none⟩
abbrev Reg.NFC_STATUS_FAST : Fld := ⟨0xc014, 29, 1, .ro, 0x0, false, false, false, .none⟩
abbrev Reg.NFC_STATUS_CKPT_BUSY : Fld := ⟨0xc014, 28, 1, .ro, 0x0, false, false, false, .none⟩
abbrev Reg.NFC_STATUS_PART : Fld := ⟨0xc014, 24, 4, .ro, 0x0, false, false, false, .none⟩
abbrev Reg.NFC_STATUS_QUEUED : Fld := ⟨0xc014, 0, 7, .ro, 0x0, false, false, false, .none⟩
abbrev Reg.NFC_BLOCKS_FREE : Fld := ⟨0xc018, 16, 16, .ro, 0x0, false, false, false, .none⟩
abbrev Reg.NFC_BLOCKS_BAD : Fld := ⟨0xc018, 0, 16, .ro, 0x0, false, false, false, .none⟩
abbrev Reg.NFC_WEAR_ERASE_MAX : Fld := ⟨0xc01c, 16, 16, .ro, 0x0, false, false, false, .none⟩
abbrev Reg.NFC_WEAR_ERASE_MIN : Fld := ⟨0xc01c, 0, 16, .ro, 0x0, false, false, false, .none⟩
abbrev Reg.NFC_RETRY_COUNT_COUNT : Fld := ⟨0xc020, 0, 32, .ro, 0x0, false, false, false, .none⟩
abbrev Reg.NFC_UNCORR_COUNT_COUNT : Fld := ⟨0xc024, 0, 32, .ro, 0x0, false, false, false, .none⟩
abbrev Reg.NFC_RETIRED_COUNT_COUNT : Fld := ⟨0xc028, 0, 32, .ro, 0x0, false, false, false, .none⟩
abbrev Reg.NFC_REFRESH_COUNT_COUNT : Fld := ⟨0xc02c, 0, 32, .ro, 0x0, false, false, false, .none⟩
abbrev Reg.NFC_SCRUB_STATUS_PASSES : Fld := ⟨0xc030, 16, 16, .ro, 0x0, false, false, false, .none⟩
abbrev Reg.NFC_SCRUB_STATUS_BLOCK : Fld := ⟨0xc030, 0, 16, .ro, 0x0, false, false, false, .none⟩
abbrev Reg.NFC_CKPT_AGE_SECONDS : Fld := ⟨0xc034, 0, 32, .ro, 0xffffffff, false, false, false, .none⟩
abbrev Reg.NFC_LAST_VALID : Fld := ⟨0xc038, 31, 1, .rc, 0x0, false, false, false, .none⟩
abbrev Reg.NFC_LAST_KIND : Fld := ⟨0xc038, 28, 3, .ro, 0x0, false, false, false, .none⟩
abbrev Reg.NFC_LAST_CE : Fld := ⟨0xc038, 27, 1, .ro, 0x0, false, false, false, .none⟩
abbrev Reg.NFC_LAST_PAGE : Fld := ⟨0xc038, 16, 8, .ro, 0x0, false, false, false, .none⟩
abbrev Reg.NFC_LAST_BLOCK : Fld := ⟨0xc038, 0, 16, .ro, 0x0, false, false, false, .none⟩
abbrev Reg.NFC_EVENT_SPARE_LOW : Fld := ⟨0xc03c, 3, 1, .rc, 0x0, false, false, false, .none⟩
abbrev Reg.NFC_EVENT_RETIRED : Fld := ⟨0xc03c, 2, 1, .rc, 0x0, false, false, false, .none⟩
abbrev Reg.NFC_EVENT_PASS : Fld := ⟨0xc03c, 1, 1, .rc, 0x0, false, false, false, .none⟩
abbrev Reg.NFC_EVENT_CHECKPOINT : Fld := ⟨0xc03c, 0, 1, .rc, 0x0, false, false, false, .none⟩
abbrev Reg.NFC_EVENT_EN_EN : Fld := ⟨0xc040, 0, 4, .rw, 0x0, false, false, true, .none⟩
/-! ## Block 0xd000 -/
abbrev Reg.FLT_TOP_PENDING : Fld := ⟨0xd000, 31, 1, .ro, 0x0, false, false, false, .none⟩
abbrev Reg.FLT_TOP_SEVERITY : Fld := ⟨0xd000, 8, 2, .ro, 0x0, false, false, false, .none⟩
abbrev Reg.FLT_TOP_SOURCE : Fld := ⟨0xd000, 0, 8, .ro, 0x0, false, false, false, .none⟩
abbrev Reg.FLT_CTRL_HOST_SEV : Fld := ⟨0xd004, 0, 2, .rw, 0x2, false, false, true, .none⟩
abbrev Reg.FLT_ESCALATE_EN : Fld := ⟨0xd008, 0, 1, .bt, 0x1, false, false, true, .none⟩
abbrev Reg.FLT_NMI_OVERDUE : Fld := ⟨0xd00c, 31, 1, .rc, 0x0, false, false, false, .none⟩
abbrev Reg.FLT_NMI_TIMING : Fld := ⟨0xd00c, 30, 1, .ro, 0x0, false, false, false, .none⟩
abbrev Reg.FLT_NMI_SOURCE : Fld := ⟨0xd00c, 0, 8, .ro, 0x0, false, false, false, .none⟩
abbrev Reg.FLT_FENCE_CHAMBER : Fld := ⟨0xd010, 16, 16, .ro, 0x0, false, false, false, .none⟩
abbrev Reg.FLT_FENCE_REACH : Fld := ⟨0xd010, 0, 16, .ro, 0x0, false, false, false, .none⟩
abbrev Reg.FLT_RESET_VALID : Fld := ⟨0xd014, 31, 1, .ro, 0x0, false, false, false, .none⟩
abbrev Reg.FLT_RESET_SOURCE : Fld := ⟨0xd014, 0, 8, .ro, 0x0, false, false, false, .none⟩
abbrev Reg.FLT_STICKY_STICKY (i : Nat) : Fld := ⟨0xd100 + 0x4 * i, 0, 32, .ro, 0x0, false, false, false, .none⟩
abbrev Reg.FLT_LIVE_LIVE (i : Nat) : Fld := ⟨0xd120 + 0x4 * i, 0, 32, .ro, 0x0, false, false, false, .none⟩
abbrev Reg.FLT_FORCE_FORCE (i : Nat) : Fld := ⟨0xd140 + 0x4 * i, 0, 32, .rw, 0x0, false, false, false, .none⟩
abbrev Reg.FLT_CLEAR_CLEAR (i : Nat) : Fld := ⟨0xd160 + 0x4 * i, 0, 32, .w1p, 0x0, false, false, false, .none⟩
/-! ## Block 0xe000 -/
abbrev Reg.RIF_CRC_CTRL_COMMIT : Fld := ⟨0xe000, 2, 1, .w1p, 0x0, false, false, false, .none⟩
abbrev Reg.RIF_CRC_CTRL_HOLD : Fld := ⟨0xe000, 1, 1, .rw, 0x0, false, false, false, .none⟩
abbrev Reg.RIF_CRC_CTRL_EN : Fld := ⟨0xe000, 0, 1, .w1s, 0x0, false, false, false, .none⟩
abbrev Reg.RIF_CRC_REF_CRC : Fld := ⟨0xe004, 0, 32, .rw, 0x0, false, false, false, .none⟩
abbrev Reg.RIF_CRC_LIVE_CRC : Fld := ⟨0xe008, 0, 32, .ro, 0x0, false, false, false, .none⟩
abbrev Reg.RIF_CRC_STATUS_MISMATCH : Fld := ⟨0xe00c, 31, 1, .ro, 0x0, false, false, false, .none⟩
abbrev Reg.RIF_CRC_STATUS_PENDING : Fld := ⟨0xe00c, 30, 1, .ro, 0x0, false, false, false, .none⟩
abbrev Reg.RIF_CRC_SWEEPS_COUNT : Fld := ⟨0xe010, 0, 32, .ro, 0x0, false, false, false, .none⟩
abbrev Reg.RIF_CRC_TRANSIENTS_COUNT : Fld := ⟨0xe014, 0, 32, .ro, 0x0, false, false, false, .none⟩
abbrev Reg.RIF_DISCARD_VALID : Fld := ⟨0xe018, 31, 1, .rc, 0x0, false, false, false, .none⟩
abbrev Reg.RIF_DISCARD_CAUSE : Fld := ⟨0xe018, 28, 3, .ro, 0x0, false, false, false, .none⟩
abbrev Reg.RIF_DISCARD_REQUESTER : Fld := ⟨0xe018, 26, 2, .ro, 0x0, false, false, false, .none⟩
abbrev Reg.RIF_DISCARD_WRITE : Fld := ⟨0xe018, 25, 1, .ro, 0x0, false, false, false, .none⟩
abbrev Reg.RIF_DISCARD_ADDR_ADDR : Fld := ⟨0xe01c, 0, 32, .ro, 0x0, false, false, false, .none⟩
abbrev Reg.RIF_INT_STATUS_BITS_HI : Fld := ⟨0xe020, 14, 2, .ro, 0x0, false, false, false, .none⟩
abbrev Reg.RIF_INT_STATUS_FAULT : Fld := ⟨0xe020, 13, 1, .rc, 0x0, false, false, false, .none⟩
abbrev Reg.RIF_INT_STATUS_BITS_LO : Fld := ⟨0xe020, 0, 13, .ro, 0x0, false, false, false, .none⟩
abbrev Reg.RIF_INT_EN_BITS : Fld := ⟨0xe024, 0, 16, .rw, 0x0, false, false, false, .none⟩
abbrev Reg.RIF_INT_CTRL_MSG_CPL : Fld := ⟨0xe028, 3, 1, .rw, 0x0, false, false, false, .none⟩
abbrev Reg.RIF_INT_CTRL_MSG_FAULT : Fld := ⟨0xe028, 2, 1, .rw, 0x0, false, false, false, .none⟩
abbrev Reg.RIF_INT_CTRL_MSG_EVENT : Fld := ⟨0xe028, 1, 1, .rw, 0x0, false, false, false, .none⟩
abbrev Reg.RIF_INT_CTRL_INT_EN : Fld := ⟨0xe028, 0, 1, .rw, 0x1, false, false, false, .none⟩
abbrev Reg.RIF_MSG_COUNT_COUNT : Fld := ⟨0xe02c, 0, 32, .ro, 0x0, false, false, false, .none⟩
abbrev Reg.RIF_DISCARD_COUNT_COUNT (i : Nat) : Fld := ⟨0xe040 + 0x4 * i, 0, 32, .ro, 0x0, false, false, false, .none⟩
abbrev Reg.RIF_BLOCK_CRC_CRC (i : Nat) : Fld := ⟨0xe100 + 0x4 * i, 0, 32, .ro, 0x0, false, false, false, .none⟩
abbrev Reg.RIF_MAILBOX_DATA (i : Nat) : Fld := ⟨0xe200 + 0x4 * i, 0, 32, .rw, 0x0, false, false, false, .none⟩
/-! ## Block 0xf000 -/
abbrev Reg.WHF_CMD_TAIL_SEQ (i : Nat) : Fld := ⟨0xf000 + 0x20 * i, 0, 32, .rw, 0x0, false, false, false, .none⟩
abbrev Reg.WHF_CMD_NEXT_SEQ (i : Nat) : Fld := ⟨0xf004 + 0x20 * i, 0, 32, .ro, 0x0, false, false, false, .none⟩
abbrev Reg.WHF_CPL_NEXT_SEQ (i : Nat) : Fld := ⟨0xf008 + 0x20 * i, 0, 32, .ro, 0x0, false, false, false, .none⟩
abbrev Reg.WHF_CPL_READ_SEQ (i : Nat) : Fld := ⟨0xf00c + 0x20 * i, 0, 32, .rw, 0x0, false, false, false, .none⟩
abbrev Reg.WHF_STATUS_BUSY (i : Nat) : Fld := ⟨0xf010 + 0x20 * i, 31, 1, .ro, 0x0, false, false, false, .none⟩
abbrev Reg.WHF_STATUS_LAST_STATUS (i : Nat) : Fld := ⟨0xf010 + 0x20 * i, 16, 8, .ro, 0x0, false, false, false, .none⟩
abbrev Reg.WHF_STATUS_OPCODE (i : Nat) : Fld := ⟨0xf010 + 0x20 * i, 0, 16, .ro, 0x0, false, false, false, .none⟩
abbrev Reg.WHF_EXEC_SEQ (i : Nat) : Fld := ⟨0xf014 + 0x20 * i, 0, 32, .ro, 0x0, false, false, false, .none⟩
abbrev Reg.WHF_FAILED_COUNT (i : Nat) : Fld := ⟨0xf018 + 0x20 * i, 0, 32, .ro, 0x0, false, false, false, .none⟩
abbrev Reg.WHF_TELEM_CFG_EN : Fld := ⟨0xf040, 31, 1, .rw, 0x1, false, false, true, .none⟩
abbrev Reg.WHF_TELEM_CFG_PERIOD : Fld := ⟨0xf040, 0, 16, .rw, 0x78, false, false, true, (.range 1 65535)⟩
abbrev Reg.WHF_TELEM_NEXT_SEQ : Fld := ⟨0xf044, 0, 32, .ro, 0x0, false, false, false, .none⟩
abbrev Reg.WHF_TELEM_READ_SEQ : Fld := ⟨0xf048, 0, 32, .rw, 0x0, false, false, false, .none⟩
abbrev Reg.WHF_TELEM_LOST_COUNT : Fld := ⟨0xf04c, 0, 32, .ro, 0x0, false, false, false, .none⟩
abbrev Reg.WHF_EVENT_SEQUENCE : Fld := ⟨0xf050, 3, 1, .rc, 0x0, false, false, false, .none⟩
abbrev Reg.WHF_EVENT_TELEM : Fld := ⟨0xf050, 2, 1, .rc, 0x0, false, false, false, .none⟩
abbrev Reg.WHF_EVENT_CPL_SESSION : Fld := ⟨0xf050, 1, 1, .rc, 0x0, false, false, false, .none⟩
abbrev Reg.WHF_EVENT_CPL_OPEN : Fld := ⟨0xf050, 0, 1, .rc, 0x0, false, false, false, .none⟩
abbrev Reg.WHF_EVENT_EN_EN : Fld := ⟨0xf054, 0, 4, .rw, 0x0, false, false, true, .none⟩
abbrev Reg.PNT_CTRL_PAIR_JOINED : Fld := ⟨0xf800, 2, 1, .rw, 0x0, false, false, true, .none⟩
abbrev Reg.PNT_CTRL_EGRESS_ZERO : Fld := ⟨0xf800, 1, 1, .rw, 0x0, false, false, true, .none⟩
abbrev Reg.PNT_CTRL_EN : Fld := ⟨0xf800, 0, 1, .rw, 0x0, true, false, true, .none⟩
abbrev Reg.PNT_CFG_COUNT : Fld := ⟨0xf804, 8, 8, .rw, 0x1, true, false, true, (.range 1 128)⟩
abbrev Reg.PNT_CFG_WIDTH32 : Fld := ⟨0xf804, 7, 1, .rw, 0x0, true, false, true, .none⟩
abbrev Reg.PNT_CFG_HOME : Fld := ⟨0xf804, 0, 6, .rw, 0x0, true, false, true, .none⟩
abbrev Reg.PNT_STATUS_BUSY : Fld := ⟨0xf808, 31, 1, .ro, 0x0, false, false, false, .none⟩
abbrev Reg.PNT_STATUS_DRIVING : Fld := ⟨0xf808, 30, 1, .ro, 0x0, false, false, false, .none⟩
abbrev Reg.PNT_STATUS_SHORT : Fld := ⟨0xf808, 29, 1, .rc, 0x0, false, false, false, .none⟩
abbrev Reg.PNT_STATUS_SKIPPED : Fld := ⟨0xf808, 0, 16, .ro, 0x0, false, false, false, .none⟩
abbrev Reg.PNT_SENT_COUNT : Fld := ⟨0xf80c, 0, 32, .ro, 0x0, false, false, false, .none⟩
abbrev Reg.PNT_EVENT_BERTH : Fld := ⟨0xf810, 2, 1, .rc, 0x0, false, false, false, .none⟩
abbrev Reg.PNT_EVENT_SKIPPED : Fld := ⟨0xf810, 1, 1, .rc, 0x0, false, false, false, .none⟩
abbrev Reg.PNT_EVENT_SENT : Fld := ⟨0xf810, 0, 1, .rc, 0x0, false, false, false, .none⟩
abbrev Reg.PNT_EVENT_EN_EN : Fld := ⟨0xf814, 0, 3, .rw, 0x0, false, false, true, .none⟩
/-! ## Fault sources (R245-R248, R252, R255) -/
/-- Sources FS000 to FS031: kind, default severity, default reaction bits as FLT_REACT holds them (R248). -/
def Src.table0 : List SrcInfo :=
  [⟨.event, 3, 8⟩, ⟨.event, 2, 1⟩, ⟨.event, 3, 8⟩, ⟨.event, 0, 0⟩,
   ⟨.event, 3, 2⟩, ⟨.event, 3, 16⟩, ⟨.event, 3, 16⟩, ⟨.event, 1, 1⟩,
   ⟨.event, 2, 1⟩, ⟨.stateful, 3, 16⟩, ⟨.event, 2, 1⟩, ⟨.event, 3, 16⟩,
   ⟨.event, 3, 16⟩, ⟨.stateful, 3, 4⟩, ⟨.event, 2, 1⟩, ⟨.event, 2, 1⟩,
   ⟨.event, 1, 1⟩, ⟨.event, 1, 1⟩, ⟨.stateful, 1, 1⟩, ⟨.event, 2, 1⟩,
   ⟨.event, 3, 4⟩, ⟨.event, 1, 1⟩, ⟨.spare, 0, 0⟩, ⟨.spare, 0, 0⟩,
   ⟨.spare, 0, 0⟩, ⟨.spare, 0, 0⟩, ⟨.spare, 0, 0⟩, ⟨.spare, 0, 0⟩,
   ⟨.spare, 0, 0⟩, ⟨.spare, 0, 0⟩, ⟨.spare, 0, 0⟩, ⟨.spare, 0, 0⟩]
/-- Sources FS032 to FS063: kind, default severity, default reaction bits as FLT_REACT holds them (R248). -/
def Src.table1 : List SrcInfo :=
  [⟨.stateful, 2, 1⟩, ⟨.event, 2, 1⟩, ⟨.event, 0, 0⟩, ⟨.event, 2, 1⟩,
   ⟨.event, 1, 0⟩, ⟨.event, 2, 1⟩, ⟨.event, 1, 0⟩, ⟨.event, 1, 0⟩,
   ⟨.event, 1, 0⟩, ⟨.event, 2, 1⟩, ⟨.stateful, 2, 1⟩, ⟨.event, 2, 1⟩,
   ⟨.event, 0, 0⟩, ⟨.event, 2, 1⟩, ⟨.event, 2, 1⟩, ⟨.event, 1, 0⟩,
   ⟨.stateful, 1, 0⟩, ⟨.stateful, 1, 0⟩, ⟨.stateful, 1, 0⟩, ⟨.stateful, 1, 0⟩,
   ⟨.stateful, 1, 0⟩, ⟨.stateful, 1, 0⟩, ⟨.spare, 0, 0⟩, ⟨.spare, 0, 0⟩,
   ⟨.spare, 0, 0⟩, ⟨.spare, 0, 0⟩, ⟨.spare, 0, 0⟩, ⟨.spare, 0, 0⟩,
   ⟨.spare, 0, 0⟩, ⟨.spare, 0, 0⟩, ⟨.spare, 0, 0⟩, ⟨.spare, 0, 0⟩]
/-- Sources FS064 to FS095: kind, default severity, default reaction bits as FLT_REACT holds them (R248). -/
def Src.table2 : List SrcInfo :=
  [⟨.stateful, 2, 1⟩, ⟨.stateful, 2, 1⟩, ⟨.stateful, 2, 1⟩, ⟨.stateful, 2, 1⟩,
   ⟨.event, 3, 16⟩, ⟨.event, 3, 16⟩, ⟨.event, 2, 1⟩, ⟨.event, 2, 1⟩,
   ⟨.event, 1, 0⟩, ⟨.event, 2, 1⟩, ⟨.event, 1, 0⟩, ⟨.event, 2, 1⟩,
   ⟨.stateful, 3, 1⟩, ⟨.event, 1, 0⟩, ⟨.event, 1, 0⟩, ⟨.stateful, 2, 1⟩,
   ⟨.event, 2, 1⟩, ⟨.event, 2, 1⟩, ⟨.event, 2, 1⟩, ⟨.event, 2, 1⟩,
   ⟨.event, 2, 1⟩, ⟨.event, 2, 1⟩, ⟨.event, 2, 1⟩, ⟨.event, 2, 1⟩,
   ⟨.event, 2, 1⟩, ⟨.event, 2, 1⟩, ⟨.event, 2, 1⟩, ⟨.event, 2, 1⟩,
   ⟨.event, 2, 1⟩, ⟨.event, 2, 1⟩, ⟨.event, 2, 1⟩, ⟨.event, 2, 1⟩]
/-- Sources FS096 to FS127: kind, default severity, default reaction bits as FLT_REACT holds them (R248). -/
def Src.table3 : List SrcInfo :=
  [⟨.stateful, 2, 0⟩, ⟨.event, 1, 0⟩, ⟨.event, 2, 10⟩, ⟨.spare, 0, 0⟩,
   ⟨.event, 2, 12⟩, ⟨.event, 2, 12⟩, ⟨.event, 2, 12⟩, ⟨.event, 2, 12⟩,
   ⟨.event, 1, 0⟩, ⟨.event, 2, 12⟩, ⟨.event, 2, 12⟩, ⟨.event, 2, 12⟩,
   ⟨.event, 1, 0⟩, ⟨.event, 1, 0⟩, ⟨.event, 2, 0⟩, ⟨.event, 0, 0⟩,
   ⟨.event, 1, 0⟩, ⟨.event, 2, 0⟩, ⟨.stateful, 3, 8⟩, ⟨.event, 1, 0⟩,
   ⟨.event, 1, 0⟩, ⟨.event, 1, 0⟩, ⟨.event, 2, 0⟩, ⟨.event, 1, 0⟩,
   ⟨.spare, 0, 0⟩, ⟨.spare, 0, 0⟩, ⟨.spare, 0, 0⟩, ⟨.spare, 0, 0⟩,
   ⟨.spare, 0, 0⟩, ⟨.spare, 0, 0⟩, ⟨.spare, 0, 0⟩, ⟨.spare, 0, 0⟩]
/-- Sources FS128 to FS159: kind, default severity, default reaction bits as FLT_REACT holds them (R248). -/
def Src.table4 : List SrcInfo :=
  [⟨.event, 1, 0⟩, ⟨.event, 2, 0⟩, ⟨.event, 1, 0⟩, ⟨.event, 1, 0⟩,
   ⟨.event, 1, 0⟩, ⟨.event, 2, 0⟩, ⟨.spare, 0, 0⟩, ⟨.spare, 0, 0⟩,
   ⟨.event, 0, 0⟩, ⟨.event, 1, 0⟩, ⟨.stateful, 2, 8⟩, ⟨.event, 2, 0⟩,
   ⟨.event, 2, 10⟩, ⟨.event, 2, 0⟩, ⟨.event, 1, 0⟩, ⟨.event, 1, 0⟩,
   ⟨.stateful, 1, 0⟩, ⟨.stateful, 3, 0⟩, ⟨.stateful, 3, 0⟩, ⟨.stateful, 2, 0⟩,
   ⟨.event, 1, 0⟩, ⟨.spare, 0, 0⟩, ⟨.spare, 0, 0⟩, ⟨.spare, 0, 0⟩,
   ⟨.spare, 0, 0⟩, ⟨.spare, 0, 0⟩, ⟨.spare, 0, 0⟩, ⟨.spare, 0, 0⟩,
   ⟨.spare, 0, 0⟩, ⟨.spare, 0, 0⟩, ⟨.spare, 0, 0⟩, ⟨.spare, 0, 0⟩]
/-- Sources FS160 to FS191: kind, default severity, default reaction bits as FLT_REACT holds them (R248). -/
def Src.table5 : List SrcInfo :=
  [⟨.event, 0, 0⟩, ⟨.event, 2, 1⟩, ⟨.event, 1, 0⟩, ⟨.stateful, 2, 1⟩,
   ⟨.event, 1, 0⟩, ⟨.event, 1, 0⟩, ⟨.stateful, 1, 0⟩, ⟨.event, 1, 0⟩,
   ⟨.event, 2, 4⟩, ⟨.event, 3, 1⟩, ⟨.event, 2, 1⟩, ⟨.stateful, 3, 1⟩,
   ⟨.stateful, 2, 1⟩, ⟨.event, 2, 1⟩, ⟨.event, 2, 1⟩, ⟨.event, 1, 0⟩,
   ⟨.stateful, 2, 1⟩, ⟨.spare, 0, 0⟩, ⟨.spare, 0, 0⟩, ⟨.spare, 0, 0⟩,
   ⟨.stateful, 3, 17⟩, ⟨.event, 2, 1⟩, ⟨.event, 1, 0⟩, ⟨.event, 1, 0⟩,
   ⟨.event, 1, 0⟩, ⟨.event, 1, 0⟩, ⟨.event, 1, 0⟩, ⟨.spare, 0, 0⟩,
   ⟨.spare, 0, 0⟩, ⟨.spare, 0, 0⟩, ⟨.spare, 0, 0⟩, ⟨.spare, 0, 0⟩]
/-- What the source table says of source n (R248). -/
def Src.info (n : Nat) : SrcInfo :=
  match n / 32 with
  | 0 => Src.table0.getD (n % 32) default
  | 1 => Src.table1.getD (n % 32) default
  | 2 => Src.table2.getD (n % 32) default
  | 3 => Src.table3.getD (n % 32) default
  | 4 => Src.table4.getD (n % 32) default
  | _ => Src.table5.getD (n % 32) default

/-- The light class of R245: FS048-FS053 and FS096-FS159. -/
def Src.light (n : Nat) : Bool := (48 ≤ n && n ≤ 53) || (96 ≤ n && n ≤ 159)

/-- The sources whose locus is a reach (R255). -/
def Src.reachLocus (n : Nat) : Bool := [98, 129, 137, 139, 140, 143].contains n

/-- The sources whose locus is a chamber (R255). -/
def Src.chamberLocus (n : Nat) : Bool := (100 ≤ n && n ≤ 107) || n == 110

/-- The greatest LEVEL a light-class source may hold (R255). -/
def Src.maxLevel (n : Nat) : Nat := if Src.chamberLocus n then 2 else if Src.reachLocus n then 1 else 0

/-- The control-class sources that R252's block-reset table lists. -/
def Src.hasBlock (n : Nat) : Bool :=
  (8 ≤ n && n ≤ 21) || (32 ≤ n && n ≤ 47) || (64 ≤ n && n ≤ 95) || (160 ≤ n && n ≤ 176) || (180 ≤ n && n ≤ 186)

/-- The reset value of FLT_SEV word v: sixteen 2-bit severities (R246, R263). -/
def Src.sevWord (v : Nat) : Nat :=
  (List.range 16).foldl (fun acc i => acc + (Src.info (16 * v + i)).sev * 4 ^ i) 0

/-- The type of a FLT_SEV or FLT_REACT field of source n: BT for FS000-FS031 (R263). -/
def Src.acc (n : Nat) : Acc := if n < 32 then .bt else .rw

abbrev Reg.FLT_SEV_SEV (v : Nat) : Fld := ⟨0xd200 + 4 * v, 0, 32, Src.acc (16 * v), Src.sevWord v, false, false, true, .none⟩
abbrev Reg.FLT_REACT_COUNT (n : Nat) : Fld := ⟨0xd400 + 4 * n, 16, 16, .ro, 0, false, false, false, .none⟩
abbrev Reg.FLT_REACT_INT (n : Nat) : Fld := ⟨0xd400 + 4 * n, 0, 1, Src.acc n, (Src.info n).react % 2, false, false, true, .none⟩
/-- Control class: NMI. -/
abbrev Reg.FLT_REACT_NMI (n : Nat) : Fld := ⟨0xd400 + 4 * n, 1, 1, Src.acc n, (Src.info n).react / 2 % 2, false, false, true, .none⟩
abbrev Reg.FLT_REACT_BR (n : Nat) : Fld := ⟨0xd400 + 4 * n, 2, 1, Src.acc n, (Src.info n).react / 4 % 2, false, false, true, .none⟩
abbrev Reg.FLT_REACT_CR (n : Nat) : Fld := ⟨0xd400 + 4 * n, 3, 1, Src.acc n, (Src.info n).react / 8 % 2, false, false, true, .none⟩
abbrev Reg.FLT_REACT_HD (n : Nat) : Fld := ⟨0xd400 + 4 * n, 4, 1, Src.acc n, (Src.info n).react / 16 % 2, false, false, true, .none⟩
/-- Light class: the fence level, clamped under R255. -/
abbrev Reg.FLT_REACT_LEVEL (n : Nat) : Fld := ⟨0xd400 + 4 * n, 1, 2, .rw, (Src.info n).react / 2 % 4, false, false, true, .range 0 (Src.maxLevel n)⟩
/-- Light class: enter Degraded. -/
abbrev Reg.FLT_REACT_DEGRADE (n : Nat) : Fld := ⟨0xd400 + 4 * n, 3, 1, .rw, (Src.info n).react / 8 % 2, false, false, true, .none⟩

/-- The fields of FLT_REACT n: the control-class or the light-class layout (R263). BR is absent (reads 0) where R252
lists no block. -/
def Reg.FLT_REACT_fields (n : Nat) : List Fld :=
  if Src.light n then [Reg.FLT_REACT_COUNT n, Reg.FLT_REACT_DEGRADE n, Reg.FLT_REACT_LEVEL n, Reg.FLT_REACT_INT n]
  else if Src.hasBlock n then
    [Reg.FLT_REACT_COUNT n, Reg.FLT_REACT_HD n, Reg.FLT_REACT_CR n, Reg.FLT_REACT_BR n, Reg.FLT_REACT_NMI n, Reg.FLT_REACT_INT n]
  else [Reg.FLT_REACT_COUNT n, Reg.FLT_REACT_HD n, Reg.FLT_REACT_CR n, Reg.FLT_REACT_NMI n, Reg.FLT_REACT_INT n]

/-- The register map of the block at 0x0000. -/
def Reg.rows0 : List Row :=
  [⟨0x0, 0x0, 1, fun _ => [Reg.SYS_ID_ID]⟩,
   ⟨0x4, 0x0, 1, fun _ => [Reg.SYS_STEPPING_STEPPING]⟩,
   ⟨0x8, 0x0, 1, fun _ => [Reg.SYS_CAPS_MEMBER, Reg.SYS_CAPS_REACHES, Reg.SYS_CAPS_CHAMBERS, Reg.SYS_CAPS_BASIN_MIB]⟩,
   ⟨0xc, 0x0, 1, fun _ => [Reg.SYS_CAPS2_ARRAY, Reg.SYS_CAPS2_SINKS]⟩,
   ⟨0x10, 0x0, 1, fun _ => [Reg.SYS_EPOCH_EPOCH]⟩,
   ⟨0x14, 0x0, 1, fun _ => [Reg.SYS_TIME_LO_TIME]⟩,
   ⟨0x18, 0x0, 1, fun _ => [Reg.SYS_TIME_HI_TIME]⟩,
   ⟨0x20, 0x0, 1, fun _ => [Reg.SYS_MODE_SD_CAUSE, Reg.SYS_MODE_EGRESS_HELD, Reg.SYS_MODE_PROVISION, Reg.SYS_MODE_MAINT, Reg.SYS_MODE_TEST, Reg.SYS_MODE_DEGRADED, Reg.SYS_MODE_BASE, Reg.SYS_MODE_MODE]⟩,
   ⟨0x24, 0x0, 1, fun _ => [Reg.SYS_MODE_CTRL_CHIP_RESET, Reg.SYS_MODE_CTRL_SAFE_DARK, Reg.SYS_MODE_CTRL_CLEAR_SAFE_DARK, Reg.SYS_MODE_CTRL_RESUME]⟩,
   ⟨0x28, 0x0, 1, fun _ => [Reg.SYS_RESET_CAUSE]⟩,
   ⟨0x2c, 0x0, 1, fun _ => [Reg.SYS_SERVICE_STUCK, Reg.SYS_SERVICE_PRESSED, Reg.SYS_SERVICE_LAST_ACTION, Reg.SYS_SERVICE_LAST_MS]⟩,
   ⟨0x30, 0x0, 1, fun _ => [Reg.SYS_MODE_EVENT_SERVICE, Reg.SYS_MODE_EVENT_REFUSED, Reg.SYS_MODE_EVENT_MODE]⟩,
   ⟨0x34, 0x0, 1, fun _ => [Reg.SYS_MODE_EVENT_EN_EN]⟩,
   ⟨0x40, 0x0, 1, fun _ => [Reg.SYS_REACH_RESET_REACH_RESET]⟩,
   ⟨0x50, 0x0, 1, fun _ => [Reg.SYS_FLIGHT_CTRL_SLOT]⟩,
   ⟨0x54, 0x0, 1, fun _ => [Reg.SYS_FLIGHT_STATUS_REASON, Reg.SYS_FLIGHT_STATUS_CHECKED_SLOT, Reg.SYS_FLIGHT_STATUS_ACTIVE, Reg.SYS_FLIGHT_STATUS_REFUSED, Reg.SYS_FLIGHT_STATUS_E_VALID, Reg.SYS_FLIGHT_STATUS_B_VALID, Reg.SYS_FLIGHT_STATUS_A_VALID]⟩,
   ⟨0x58, 0x4, 3, fun i => [Reg.SYS_FLIGHT_ID_FLIGHT_ID i]⟩,
   ⟨0x64, 0x0, 1, fun _ => [Reg.SYS_STALL_MAX_LC, Reg.SYS_STALL_LAST_LC]⟩]
/-- The register map of the block at 0x1000. -/
def Reg.rows1 : List Row :=
  [⟨0x1000, 0x0, 1, fun _ => [Reg.SEQ_CTRL_FREE_LIGHT, Reg.SEQ_CTRL_SYNC_EDGE, Reg.SEQ_CTRL_RUN]⟩,
   ⟨0x1004, 0x0, 1, fun _ => [Reg.SEQ_COMMIT_COMMIT]⟩,
   ⟨0x1008, 0x0, 1, fun _ => [Reg.SEQ_RATE_F_NOM, Reg.SEQ_RATE_S]⟩,
   ⟨0x100c, 0x0, 1, fun _ => [Reg.SEQ_SYNC_CFG_HOLDOVER_LC, Reg.SEQ_SYNC_CFG_SYNC_DELAY]⟩,
   ⟨0x1010, 0x0, 1, fun _ => [Reg.SEQ_SYNC_STATUS_BAD_EDGES, Reg.SEQ_SYNC_STATUS_STATE]⟩,
   ⟨0x1014, 0x0, 1, fun _ => [Reg.SEQ_SYNC_PHASE_PHASE]⟩,
   ⟨0x1018, 0x0, 1, fun _ => [Reg.SEQ_SYNC_PERIOD_PERIOD]⟩,
   ⟨0x101c, 0x0, 1, fun _ => [Reg.SEQ_TICK_SCAN, Reg.SEQ_TICK_TICK]⟩,
   ⟨0x1020, 0x0, 1, fun _ => [Reg.SEQ_SLUICE_COUNT_COUNT]⟩,
   ⟨0x1024, 0x0, 1, fun _ => [Reg.SEQ_SLUICE_COUNT_HI_COUNT]⟩,
   ⟨0x1028, 0x0, 1, fun _ => [Reg.SEQ_SLUICE_TIME_LO_TIME]⟩,
   ⟨0x102c, 0x0, 1, fun _ => [Reg.SEQ_SLUICE_TIME_HI_TIME]⟩,
   ⟨0x1030, 0x0, 1, fun _ => [Reg.SEQ_LOCK_NUMBER_LOCK_NUMBER]⟩,
   ⟨0x1034, 0x0, 1, fun _ => [Reg.SEQ_LOCK_NUMBER_SET_VALUE]⟩,
   ⟨0x1038, 0x0, 1, fun _ => [Reg.SEQ_LOCK_LOAD_LOAD]⟩,
   ⟨0x1040, 0x0, 1, fun _ => [Reg.SEQ_UNDERRUN_UNDERRUN]⟩,
   ⟨0x1044, 0x0, 1, fun _ => [Reg.SEQ_UNDERRUN_COUNT_COUNT]⟩,
   ⟨0x1048, 0x0, 1, fun _ => [Reg.SEQ_EVENT_SYNC_CHANGE, Reg.SEQ_EVENT_COMMIT_TAKEN, Reg.SEQ_EVENT_SLUICE]⟩,
   ⟨0x104c, 0x0, 1, fun _ => [Reg.SEQ_EVENT_EN_EN]⟩]
/-- The register map of the block at 0x2000. -/
def Reg.rows2 : List Row :=
  [⟨0x2000, 0x100, 16, fun i => [Reg.CHM_STATUS_LOCK i, Reg.CHM_STATUS_FENCED i, Reg.CHM_STATUS_STOPPED i, Reg.CHM_STATUS_HALTED i, Reg.CHM_STATUS_RUNNING i]⟩,
   ⟨0x2004, 0x100, 16, fun i => [Reg.CHM_BREACH_VALID i, Reg.CHM_BREACH_SOURCE i, Reg.CHM_BREACH_LOCK i]⟩,
   ⟨0x2008, 0x100, 16, fun i => [Reg.CHM_BREACH_CYCLE_CYCLE i]⟩,
   ⟨0x200c, 0x100, 16, fun i => [Reg.CHM_BREACH_PC_PC i]⟩,
   ⟨0x2010, 0x100, 16, fun i => [Reg.CHM_BARGES_PEAK i, Reg.CHM_BARGES_NOW i]⟩]
/-- The register map of the block at 0x3000. -/
def Reg.rows3 : List Row :=
  [⟨0x3000, 0x0, 1, fun _ => [Reg.BAS_BERTH_CMD_RETIRE, Reg.BAS_BERTH_CMD_RELEASE, Reg.BAS_BERTH_CMD_CANCEL, Reg.BAS_BERTH_CMD_READY, Reg.BAS_BERTH_CMD_TARGET, Reg.BAS_BERTH_CMD_BERTH]⟩,
   ⟨0x3004, 0x0, 1, fun _ => [Reg.BAS_BERTH_RESULT_BERTH, Reg.BAS_BERTH_RESULT_RESULT]⟩,
   ⟨0x3008, 0x0, 1, fun _ => [Reg.BAS_REFUSE_VALID, Reg.BAS_REFUSE_CAUSE, Reg.BAS_REFUSE_STATE, Reg.BAS_REFUSE_BERTH]⟩,
   ⟨0x300c, 0x0, 1, fun _ => [Reg.BAS_REFUSE_COUNT_COUNT]⟩,
   ⟨0x3010, 0x0, 1, fun _ => [Reg.BAS_ECC_CORR_COUNT]⟩,
   ⟨0x3014, 0x0, 1, fun _ => [Reg.BAS_ECC_RETRY_COUNT]⟩,
   ⟨0x3018, 0x0, 1, fun _ => [Reg.BAS_ECC_UNCORR_COUNT]⟩,
   ⟨0x301c, 0x0, 1, fun _ => [Reg.BAS_ECC_LAST_VALID, Reg.BAS_ECC_LAST_KIND, Reg.BAS_ECC_LAST_BARGE, Reg.BAS_ECC_LAST_TAG, Reg.BAS_ECC_LAST_BANK, Reg.BAS_ECC_LAST_LINE]⟩,
   ⟨0x3020, 0x0, 1, fun _ => [Reg.BAS_SPARE_USED, Reg.BAS_SPARE_FREE]⟩,
   ⟨0x3024, 0x0, 1, fun _ => [Reg.BAS_SCRUB_CFG_CORR_LIMIT, Reg.BAS_SCRUB_CFG_PERIOD]⟩,
   ⟨0x3028, 0x0, 1, fun _ => [Reg.BAS_SCRUB_STATUS_SWEEPS, Reg.BAS_SCRUB_STATUS_POSITION]⟩,
   ⟨0x302c, 0x0, 1, fun _ => [Reg.BAS_EVENT_LASTING, Reg.BAS_EVENT_REFUSED, Reg.BAS_EVENT_BERTH_FREED]⟩,
   ⟨0x3030, 0x0, 1, fun _ => [Reg.BAS_EVENT_EN_EN]⟩,
   ⟨0x3100, 0x10, 64, fun i => [Reg.BAS_BERTH_PLACE_SIZE i, Reg.BAS_BERTH_PLACE_BASE i]⟩,
   ⟨0x3104, 0x10, 64, fun i => [Reg.BAS_BERTH_FMT_FORMAT i, Reg.BAS_BERTH_FMT_RES i]⟩,
   ⟨0x3108, 0x10, 64, fun i => [Reg.BAS_BERTH_STATUS_RETIRE_MARK i, Reg.BAS_BERTH_STATUS_COVERED i, Reg.BAS_BERTH_STATUS_HOME i, Reg.BAS_BERTH_STATUS_STATE i]⟩,
   ⟨0x310c, 0x10, 64, fun i => [Reg.BAS_BERTH_FILL_UNITS i]⟩]
/-- The register map of the block at 0x4000. -/
def Reg.rows4 : List Row :=
  [⟨0x4000, 0x0, 1, fun _ => [Reg.GLY_LIB_ID_LIB_ID]⟩,
   ⟨0x4004, 0x0, 1, fun _ => [Reg.GLY_LIB_STATUS_LOADED, Reg.GLY_LIB_STATUS_GLYPHS, Reg.GLY_LIB_STATUS_REASON, Reg.GLY_LIB_STATUS_KIB_USED]⟩,
   ⟨0x4008, 0x0, 1, fun _ => [Reg.GLY_STAGE_RUN_SOURCE_VALID, Reg.GLY_STAGE_RUN_DAMAGED, Reg.GLY_STAGE_RUN_ALTERNATES, Reg.GLY_STAGE_RUN_PRIMARIES]⟩,
   ⟨0x400c, 0x0, 1, fun _ => [Reg.GLY_STAGE_EGRESS_SOURCE_VALID, Reg.GLY_STAGE_EGRESS_DAMAGED, Reg.GLY_STAGE_EGRESS_ALTERNATES, Reg.GLY_STAGE_EGRESS_PRIMARIES]⟩,
   ⟨0x4010, 0x0, 1, fun _ => [Reg.GLY_EVENT_DAMAGED, Reg.GLY_EVENT_LIB_DONE, Reg.GLY_EVENT_STAGED]⟩,
   ⟨0x4014, 0x0, 1, fun _ => [Reg.GLY_EVENT_EN_EN]⟩,
   ⟨0x4100, 0x10, 3, fun i => [Reg.WRP_STATUS_PRESENT i, Reg.WRP_STATUS_OUT i, Reg.WRP_STATUS_FOLDS i]⟩,
   ⟨0x4104, 0x10, 3, fun i => [Reg.WRP_X_RANGE_MAX i, Reg.WRP_X_RANGE_MIN i]⟩,
   ⟨0x4108, 0x10, 3, fun i => [Reg.WRP_Y_RANGE_MAX i, Reg.WRP_Y_RANGE_MIN i]⟩,
   ⟨0x4200, 0x4, 16, fun i => [Reg.CMP_LAYER_DEFINED i, Reg.CMP_LAYER_LIVE i, Reg.CMP_LAYER_LIVE_BERTH i, Reg.CMP_LAYER_HOME i, Reg.CMP_LAYER_AGE i]⟩]
/-- The register map of the block at 0x5000. -/
def Reg.rows5 : List Row :=
  [⟨0x5000, 0x0, 1, fun _ => [Reg.TRM_CTRL_WEAR_EN, Reg.TRM_CTRL_PIXEL_EN]⟩,
   ⟨0x5004, 0x0, 1, fun _ => [Reg.TRM_SAT_LIMIT, Reg.TRM_SAT_LAST]⟩,
   ⟨0x5008, 0x0, 1, fun _ => [Reg.TRM_ECC_RETRY_COUNT]⟩,
   ⟨0x500c, 0x0, 1, fun _ => [Reg.TRM_ECC_UNCORR_COUNT]⟩,
   ⟨0x5010, 0x0, 1, fun _ => [Reg.TRM_ECC_LAST_VALID, Reg.TRM_ECC_LAST_LASTING, Reg.TRM_ECC_LAST_STORE, Reg.TRM_ECC_LAST_WORD]⟩,
   ⟨0x5014, 0x0, 1, fun _ => [Reg.TRM_WEAR_MAX_GW, Reg.TRM_WEAR_AT_LIMIT]⟩,
   ⟨0x5018, 0x0, 1, fun _ => [Reg.TRM_LEDGER_RESTORED, Reg.TRM_LEDGER_GROUP]⟩,
   ⟨0x501c, 0x0, 1, fun _ => [Reg.TRM_REFUSE_VALID, Reg.TRM_REFUSE_CAUSE, Reg.TRM_REFUSE_OFFSET]⟩,
   ⟨0x5040, 0x4, 16, fun i => [Reg.TRM_PRED_DARK i, Reg.TRM_PRED_MW i]⟩,
   ⟨0x5100, 0x0, 1, fun _ => [Reg.CEIL_CTRL_EGRESS_RELAX, Reg.CEIL_CTRL_PLANE]⟩,
   ⟨0x5104, 0x0, 1, fun _ => [Reg.CEIL_STATUS_BUSY1, Reg.CEIL_STATUS_BUSY0, Reg.CEIL_STATUS_ACTIVE]⟩,
   ⟨0x5108, 0x0, 1, fun _ => [Reg.CEIL_KO_COUNT_COUNT]⟩,
   ⟨0x510c, 0x0, 1, fun _ => [Reg.CEIL_GLARE_COUNT_COUNT]⟩,
   ⟨0x5110, 0x0, 1, fun _ => [Reg.CEIL_EYE_COUNT_COUNT]⟩,
   ⟨0x5200, 0x0, 1, fun _ => [Reg.WEIR_BUDGET_MW]⟩,
   ⟨0x5204, 0x0, 1, fun _ => [Reg.WEIR_CAP_MW]⟩,
   ⟨0x5208, 0x0, 1, fun _ => [Reg.WEIR_CFG_RISE_STEP, Reg.WEIR_CFG_HOLD_LC, Reg.WEIR_CFG_P_FIXED]⟩,
   ⟨0x520c, 0x0, 1, fun _ => [Reg.WEIR_ILSB_NA]⟩,
   ⟨0x5210, 0x0, 1, fun _ => [Reg.WEIR_STATE_SOURCE, Reg.WEIR_STATE_HOLDING, Reg.WEIR_STATE_RAMPING, Reg.WEIR_STATE_TARGET, Reg.WEIR_STATE_FACTOR]⟩,
   ⟨0x5214, 0x0, 1, fun _ => [Reg.WEIR_THERMAL_MW]⟩,
   ⟨0x5218, 0x0, 1, fun _ => [Reg.WEIR_EFFECTIVE_DUAL, Reg.WEIR_EFFECTIVE_MW]⟩,
   ⟨0x521c, 0x0, 1, fun _ => [Reg.WEIR_PRED_MW]⟩,
   ⟨0x5220, 0x0, 1, fun _ => [Reg.WEIR_MEASURED_MW]⟩,
   ⟨0x5224, 0x0, 1, fun _ => [Reg.WEIR_VLED_MV]⟩,
   ⟨0x5228, 0x0, 1, fun _ => [Reg.WEIR_CHECK_LC, Reg.WEIR_CHECK_PCT, Reg.WEIR_CHECK_OFFSET_MW]⟩,
   ⟨0x522c, 0x0, 1, fun _ => [Reg.WEIR_EVENT_MODEL, Reg.WEIR_EVENT_RAISED, Reg.WEIR_EVENT_LOWERED]⟩,
   ⟨0x5230, 0x0, 1, fun _ => [Reg.WEIR_EVENT_EN_EN]⟩]
/-- The register map of the block at 0x6000. -/
def Reg.rows6 : List Row :=
  [⟨0x6000, 0x0, 1, fun _ => [Reg.DRV_STALE_STALE]⟩,
   ⟨0x6004, 0x0, 1, fun _ => [Reg.DRV_REACH_STATE_RESET, Reg.DRV_REACH_STATE_FENCED]⟩,
   ⟨0x6008, 0x0, 1, fun _ => [Reg.DRV_VLED_WINDOW_MAX_MV, Reg.DRV_VLED_WINDOW_MIN_MV]⟩,
   ⟨0x600c, 0x0, 1, fun _ => [Reg.DRV_DETECT_SHORT_MV, Reg.DRV_DETECT_OPEN_MV]⟩,
   ⟨0x6010, 0x0, 1, fun _ => [Reg.DRV_OC_LAST_VALID, Reg.DRV_OC_LAST_REACH, Reg.DRV_OC_LAST_ROW]⟩,
   ⟨0x6014, 0x0, 1, fun _ => [Reg.DRV_OC_COUNT_COUNT]⟩,
   ⟨0x6040, 0x4, 16, fun i => [Reg.DRV_REACH_I_BAND i, Reg.DRV_REACH_I_MA i]⟩,
   ⟨0x6100, 0x8, 6, fun i => [Reg.DRV_BAND_WAVE_PC_MV i, Reg.DRV_BAND_WAVE_DEAD i, Reg.DRV_BAND_WAVE_EDGE i]⟩,
   ⟨0x6104, 0x8, 6, fun i => [Reg.DRV_BAND_DAC_DAC_SCALE i]⟩,
   ⟨0x6800, 0x0, 1, fun _ => [Reg.DIAG_CTRL_FILL_SHARE, Reg.DIAG_CTRL_FILL_EN, Reg.DIAG_CTRL_KO_SUPPRESS]⟩,
   ⟨0x6804, 0x0, 1, fun _ => [Reg.DIAG_CFG_ROW_EVENT_LIMIT, Reg.DIAG_CFG_FLAP_LIMIT, Reg.DIAG_CFG_FLAP_WINDOW]⟩,
   ⟨0x6808, 0x0, 1, fun _ => [Reg.DIAG_STATUS_SWEEP_DONE, Reg.DIAG_STATUS_TEST_ROW, Reg.DIAG_STATUS_DL_COUNT]⟩,
   ⟨0x680c, 0x0, 1, fun _ => [Reg.DIAG_TRANSIENT_COUNT_COUNT]⟩,
   ⟨0x6810, 0x0, 1, fun _ => [Reg.DIAG_LASTING_COUNT_COUNT]⟩,
   ⟨0x6814, 0x0, 1, fun _ => [Reg.DIAG_ROW_EVENTS_COUNT]⟩,
   ⟨0x6818, 0x0, 1, fun _ => [Reg.DIAG_MARKED_COUNT]⟩,
   ⟨0x681c, 0x0, 1, fun _ => [Reg.DIAG_SUSPECTS_COUNT]⟩,
   ⟨0x6820, 0x0, 1, fun _ => [Reg.DIAG_DL_SEL_INDEX]⟩,
   ⟨0x6824, 0x4, 4, fun i => [Reg.DIAG_DL_WORD_WORD i]⟩,
   ⟨0x6834, 0x0, 1, fun _ => [Reg.DIAG_MAP_SEL_LOCAL, Reg.DIAG_MAP_SEL_WORD]⟩,
   ⟨0x6838, 0x0, 1, fun _ => [Reg.DIAG_MAP_DATA_BITS]⟩,
   ⟨0x683c, 0x0, 1, fun _ => [Reg.DIAG_EVENT_ROW_EVENT, Reg.DIAG_EVENT_LASTING, Reg.DIAG_EVENT_TRANSIENT, Reg.DIAG_EVENT_SWEEP]⟩,
   ⟨0x6840, 0x0, 1, fun _ => [Reg.DIAG_EVENT_EN_EN]⟩]
/-- The register map of the block at 0x7000. -/
def Reg.rows7 : List Row :=
  [⟨0x7000, 0x0, 1, fun _ => [Reg.CAL_CTRL_AUTO]⟩,
   ⟨0x7004, 0x0, 1, fun _ => [Reg.CAL_CMD_REACHES]⟩,
   ⟨0x7008, 0x0, 1, fun _ => [Reg.CAL_CFG_HOLDOFF_S, Reg.CAL_CFG_DELTA]⟩,
   ⟨0x700c, 0x0, 1, fun _ => [Reg.CAL_STATUS_RUNNING, Reg.CAL_STATUS_REACH, Reg.CAL_STATUS_LAST_CAUSE, Reg.CAL_STATUS_QUEUED]⟩,
   ⟨0x7010, 0x0, 1, fun _ => [Reg.CAL_COUNT_COUNT]⟩,
   ⟨0x7014, 0x0, 1, fun _ => [Reg.CAL_ABORTS_COUNT]⟩,
   ⟨0x7018, 0x0, 1, fun _ => [Reg.CAL_LAST_TIME_LO_TIME]⟩,
   ⟨0x701c, 0x0, 1, fun _ => [Reg.CAL_LAST_TIME_HI_TIME]⟩,
   ⟨0x7020, 0x0, 1, fun _ => [Reg.CAL_VREF_REACH, Reg.CAL_VREF_VREF]⟩,
   ⟨0x7024, 0x0, 1, fun _ => [Reg.CAL_IREF_REACH, Reg.CAL_IREF_C_REF]⟩,
   ⟨0x7028, 0x0, 1, fun _ => [Reg.CAL_RESULT_STEP_NA, Reg.CAL_RESULT_OUTLIERS]⟩,
   ⟨0x702c, 0x0, 1, fun _ => [Reg.CAL_EVENT_ABORT, Reg.CAL_EVENT_DONE]⟩,
   ⟨0x7030, 0x0, 1, fun _ => [Reg.CAL_EVENT_EN_EN]⟩,
   ⟨0x7040, 0x4, 16, fun i => [Reg.CAL_REACH_T_REF i, Reg.CAL_REACH_VALID i, Reg.CAL_REACH_RUNS i]⟩,
   ⟨0x7400, 0x0, 1, fun _ => [Reg.THM_CFG_RATE_LIMIT, Reg.THM_CFG_SOFT_C, Reg.THM_CFG_RELAX_S, Reg.THM_CFG_GAIN]⟩,
   ⟨0x7404, 0x0, 1, fun _ => [Reg.THM_SINK_T_SINK]⟩,
   ⟨0x7408, 0x0, 1, fun _ => [Reg.THM_STATUS_TRIP, Reg.THM_STATUS_LIMIT, Reg.THM_STATUS_THROTTLE, Reg.THM_STATUS_RELAXING, Reg.THM_STATUS_FAST, Reg.THM_STATUS_NAND_OK, Reg.THM_STATUS_OTP_OK]⟩,
   ⟨0x740c, 0x0, 1, fun _ => [Reg.THM_DIE_MAX, Reg.THM_DIE_MIN]⟩,
   ⟨0x7410, 0x0, 1, fun _ => [Reg.THM_HOT_VALUE, Reg.THM_HOT_NODE]⟩,
   ⟨0x7414, 0x0, 1, fun _ => [Reg.THM_RATE_VALUE, Reg.THM_RATE_NODE]⟩,
   ⟨0x7418, 0x0, 1, fun _ => [Reg.THM_SENSOR_FAIL_SUBST, Reg.THM_SENSOR_FAIL_LOST]⟩,
   ⟨0x741c, 0x0, 1, fun _ => [Reg.THM_SENSOR_TRANS_COUNT]⟩,
   ⟨0x7420, 0x0, 1, fun _ => [Reg.THM_EVENT_SENSOR, Reg.THM_EVENT_BAND, Reg.THM_EVENT_RELAXED, Reg.THM_EVENT_THROTTLED]⟩,
   ⟨0x7424, 0x0, 1, fun _ => [Reg.THM_EVENT_EN_EN]⟩,
   ⟨0x7440, 0x4, 11, fun i => [Reg.THM_SENSOR_READING i, Reg.THM_SENSOR_BIAS i]⟩,
   ⟨0x7480, 0x4, 16, fun i => [Reg.THM_REACH_T_BAND i, Reg.THM_REACH_DWELL i, Reg.THM_REACH_TARGET i, Reg.THM_REACH_BAND i]⟩,
   ⟨0x74c0, 0x4, 16, fun i => [Reg.THM_REACH_MEAN_MEAN i]⟩,
   ⟨0x7500, 0x0, 1, fun _ => [Reg.THM_NODE_SEL_NODE]⟩,
   ⟨0x7504, 0x0, 1, fun _ => [Reg.THM_NODE_DATA_OUTPUT, Reg.THM_NODE_DATA_RATE]⟩,
   ⟨0x7580, 0x0, 1, fun _ => [Reg.THM_COEF0_C_NODE, Reg.THM_COEF0_G_LAT]⟩,
   ⟨0x7584, 0x0, 1, fun _ => [Reg.THM_COEF1_G_V, Reg.THM_COEF1_ETA]⟩,
   ⟨0x7588, 0x0, 1, fun _ => [Reg.THM_COEF2_C_P0, Reg.THM_COEF2_C_P1]⟩,
   ⟨0x758c, 0x0, 1, fun _ => [Reg.THM_COEF3_C_P2, Reg.THM_COEF3_C_P3]⟩,
   ⟨0x7590, 0x0, 1, fun _ => [Reg.THM_COEF4_G_01, Reg.THM_COEF4_G_12]⟩,
   ⟨0x7594, 0x0, 1, fun _ => [Reg.THM_COEF5_G_23, Reg.THM_COEF5_G_CASE]⟩,
   ⟨0x7598, 0x0, 1, fun _ => [Reg.THM_COEF6_P_LOGIC]⟩]
/-- The register map of the block at 0x8000. -/
def Reg.rows8 : List Row :=
  [⟨0x8000, 0x100, 2, fun i => [Reg.LNK_CTRL_RETRAIN i, Reg.LNK_CTRL_RATE_5G i, Reg.LNK_CTRL_EN i]⟩,
   ⟨0x8004, 0x100, 2, fun i => [Reg.LNK_CFG_DEVNUM i, Reg.LNK_CFG_TRAIN_TRIES i]⟩,
   ⟨0x8008, 0x100, 2, fun i => [Reg.LNK_STATUS_SESSION i, Reg.LNK_STATUS_RATE i, Reg.LNK_STATUS_FENCED i, Reg.LNK_STATUS_WIDTH i, Reg.LNK_STATUS_STATE i]⟩,
   ⟨0x800c, 0x100, 2, fun i => [Reg.LNK_PARTNER_ROLE i, Reg.LNK_PARTNER_DEVNUM i, Reg.LNK_PARTNER_MEMBER i, Reg.LNK_PARTNER_RATES i, Reg.LNK_PARTNER_RX_BUFFERS i]⟩,
   ⟨0x8010, 0x100, 2, fun i => [Reg.LNK_PARTNER_EPOCH_EPOCH i]⟩,
   ⟨0x8014, 0x100, 2, fun i => [Reg.LNK_SEQ_TX_NEXT i, Reg.LNK_SEQ_RX_LAST i]⟩,
   ⟨0x8018, 0x100, 2, fun i => [Reg.LNK_TIMEOUT_RECOVER_MS i, Reg.LNK_TIMEOUT_IDLE_US i, Reg.LNK_TIMEOUT_PKT_NS i]⟩,
   ⟨0x801c, 0x100, 2, fun i => [Reg.LNK_RETURN_HOLD_MS i]⟩,
   ⟨0x8020, 0x100, 2, fun i => [Reg.LNK_NAK_COUNT_COUNT i]⟩,
   ⟨0x8024, 0x100, 2, fun i => [Reg.LNK_REPLAY_COUNT_COUNT i]⟩,
   ⟨0x8028, 0x100, 2, fun i => [Reg.LNK_TRANSIENT_COUNT_COUNT i]⟩,
   ⟨0x802c, 0x100, 2, fun i => [Reg.LNK_BRINGUPS_COUNT i]⟩,
   ⟨0x8030, 0x100, 2, fun i => [Reg.LNK_EVENT_SESSION_END i, Reg.LNK_EVENT_REPLAY_LIMIT i, Reg.LNK_EVENT_LANE i, Reg.LNK_EVENT_STATE i]⟩,
   ⟨0x8034, 0x100, 2, fun i => [Reg.LNK_EVENT_EN_EN i]⟩,
   ⟨0x8040, 0x4, 4, fun i => [Reg.LNK_LANE_FENCED i, Reg.LNK_LANE_RETURNING i, Reg.LNK_LANE_VIOLATIONS i]⟩,
   ⟨0x8140, 0x4, 2, fun i => [Reg.LNK_PEER_LANE_FENCED i, Reg.LNK_PEER_LANE_RETURNING i, Reg.LNK_PEER_LANE_VIOLATIONS i]⟩,
   ⟨0x8080, 0x0, 1, fun _ => [Reg.LNK_TIME_EDGE_EDGE]⟩,
   ⟨0x8084, 0x0, 1, fun _ => [Reg.LNK_TIME_OFFSET_OFFSET]⟩,
   ⟨0x8800, 0x10, 6, fun i => [Reg.EYE_CTRL_VOLT i, Reg.EYE_CTRL_PHASE i, Reg.EYE_CTRL_EXP i, Reg.EYE_CTRL_STOP i, Reg.EYE_CTRL_START i]⟩,
   ⟨0x8804, 0x10, 6, fun i => [Reg.EYE_STATUS_ABORTED i, Reg.EYE_STATUS_DONE i, Reg.EYE_STATUS_RUNNING i]⟩,
   ⟨0x8808, 0x10, 6, fun i => [Reg.EYE_ERRORS_VALUE i]⟩,
   ⟨0x880c, 0x10, 6, fun i => [Reg.EYE_COUNT_VALUE i]⟩]
/-- The register map of the block at 0x9000. -/
def Reg.rows9 : List Row :=
  [⟨0x9000, 0x0, 1, fun _ => [Reg.PEER_CFG_PAIRED, Reg.PEER_CFG_COMPAT, Reg.PEER_CFG_AUTO_RESYNC, Reg.PEER_CFG_COMPAT_LC, Reg.PEER_CFG_RESYNC_AFTER, Reg.PEER_CFG_VERIFY_LIMIT]⟩,
   ⟨0x9004, 0x0, 1, fun _ => [Reg.PEER_CTRL_RESYNC]⟩,
   ⟨0x9008, 0x0, 1, fun _ => [Reg.PEER_STATUS_TWIN_LOCK, Reg.PEER_STATUS_DUAL, Reg.PEER_STATUS_ALIGNED, Reg.PEER_STATUS_COUPLED, Reg.PEER_STATUS_RESYNC, Reg.PEER_STATUS_MATCH_RUN, Reg.PEER_STATUS_TWIN_ROLE, Reg.PEER_STATUS_ROLE, Reg.PEER_STATUS_ROLE_IN]⟩,
   ⟨0x900c, 0x0, 1, fun _ => [Reg.PEER_PHASE_VALUE]⟩,
   ⟨0x9010, 0x0, 1, fun _ => [Reg.PEER_LATENCY_VALUE]⟩,
   ⟨0x9014, 0x0, 1, fun _ => [Reg.PEER_MISMATCH_COMPARED, Reg.PEER_MISMATCH_DIFFER]⟩,
   ⟨0x9018, 0x0, 1, fun _ => [Reg.PEER_MISMATCH_COUNT_COUNT]⟩,
   ⟨0x901c, 0x0, 1, fun _ => [Reg.PEER_MAP_MISSED_COUNT]⟩,
   ⟨0x9020, 0x0, 1, fun _ => [Reg.PEER_SWITCHES_COUNT]⟩,
   ⟨0x9024, 0x0, 1, fun _ => [Reg.PEER_COPY_KIB_KIB]⟩,
   ⟨0x9028, 0x0, 1, fun _ => [Reg.PEER_EVENT_RESYNC, Reg.PEER_EVENT_MISMATCH, Reg.PEER_EVENT_LOCK, Reg.PEER_EVENT_ROLE]⟩,
   ⟨0x902c, 0x0, 1, fun _ => [Reg.PEER_EVENT_EN_EN]⟩,
   ⟨0x9040, 0x4, 16, fun i => [Reg.PEER_CRC_CRC i]⟩]
/-- The register map of the block at 0xa000. -/
def Reg.rowsA : List Row :=
  [⟨0xa000, 0x4, 4, fun i => [Reg.SAF_IN_CFG_DISC_MS i, Reg.SAF_IN_CFG_SCENE i, Reg.SAF_IN_CFG_LATCH i, Reg.SAF_IN_CFG_FUNCTION i, Reg.SAF_IN_CFG_MODE i]⟩,
   ⟨0xa010, 0x0, 1, fun _ => [Reg.SAF_IN_STATUS_A3, Reg.SAF_IN_STATUS_B3, Reg.SAF_IN_STATUS_STATE3, Reg.SAF_IN_STATUS_A2, Reg.SAF_IN_STATUS_B2, Reg.SAF_IN_STATUS_STATE2, Reg.SAF_IN_STATUS_A1, Reg.SAF_IN_STATUS_B1, Reg.SAF_IN_STATUS_STATE1, Reg.SAF_IN_STATUS_A0, Reg.SAF_IN_STATUS_B0, Reg.SAF_IN_STATUS_STATE0]⟩,
   ⟨0xa014, 0x0, 1, fun _ => [Reg.SAF_OUT_PULSE_EN, Reg.SAF_OUT_READBACK, Reg.SAF_OUT_FAIL1, Reg.SAF_OUT_FAIL0, Reg.SAF_OUT_TESTING, Reg.SAF_OUT_PAUSED, Reg.SAF_OUT_SOUT1, Reg.SAF_OUT_SOUT0]⟩,
   ⟨0xa018, 0x0, 1, fun _ => [Reg.SAF_TG_CFG_EN, Reg.SAF_TG_CFG_SKEW_MS, Reg.SAF_TG_CFG_SOURCE]⟩,
   ⟨0xa01c, 0x0, 1, fun _ => [Reg.SAF_TG_TIME_FIRST_S, Reg.SAF_TG_TIME_TIMEOUT_MS]⟩,
   ⟨0xa020, 0x0, 1, fun _ => [Reg.SAF_TG_STATUS_TIMED_OUT, Reg.SAF_TG_STATUS_SYNCED, Reg.SAF_TG_STATUS_COMMAND, Reg.SAF_TG_STATUS_SCENE, Reg.SAF_TG_STATUS_ALIVE]⟩,
   ⟨0xa024, 0x0, 1, fun _ => [Reg.SAF_TG_REJECT_VALID, Reg.SAF_TG_REJECT_CHANNEL, Reg.SAF_TG_REJECT_REASON, Reg.SAF_TG_REJECT_ALIVE]⟩,
   ⟨0xa028, 0x0, 1, fun _ => [Reg.SAF_TG_ACCEPTED_COUNT]⟩,
   ⟨0xa02c, 0x0, 1, fun _ => [Reg.SAF_TG_REJECTED_COUNT]⟩,
   ⟨0xa030, 0x0, 1, fun _ => [Reg.SAF_TOWP_CFG_REPLY]⟩,
   ⟨0xa034, 0x0, 1, fun _ => [Reg.SAF_TOWP_ERRORS_COUNT]⟩,
   ⟨0xa038, 0x0, 1, fun _ => [Reg.SAF_EGRESS_REQUESTED, Reg.SAF_EGRESS_SCENE, Reg.SAF_EGRESS_TIMEOUT, Reg.SAF_EGRESS_TELEGRAM, Reg.SAF_EGRESS_INPUTS]⟩,
   ⟨0xa03c, 0x0, 1, fun _ => [Reg.SAF_CMD_REARM]⟩,
   ⟨0xa040, 0x0, 1, fun _ => [Reg.SAF_EVENT_CHK, Reg.SAF_EVENT_OUT_FAIL, Reg.SAF_EVENT_TG_REJECT, Reg.SAF_EVENT_EGRESS, Reg.SAF_EVENT_DEMAND]⟩,
   ⟨0xa044, 0x0, 1, fun _ => [Reg.SAF_EVENT_EN_EN]⟩,
   ⟨0xa100, 0x20, 8, fun i => [Reg.CHK_CFG_EN i, Reg.CHK_CFG_POINT i, Reg.CHK_CFG_INDEX i, Reg.CHK_CFG_POLY i, Reg.CHK_CFG_MODE i, Reg.CHK_CFG_BE i, Reg.CHK_CFG_ALIVE_EN i, Reg.CHK_CFG_ALIVE16 i]⟩,
   ⟨0xa104, 0x20, 8, fun i => [Reg.CHK_OFFSETS_ALIVE_OFF i, Reg.CHK_OFFSETS_CHK_OFF i]⟩,
   ⟨0xa108, 0x20, 8, fun i => [Reg.CHK_REF_REF i]⟩,
   ⟨0xa10c, 0x20, 8, fun i => [Reg.CHK_VALUE_VALUE i]⟩,
   ⟨0xa110, 0x20, 8, fun i => [Reg.CHK_RECORDS_COUNT i]⟩,
   ⟨0xa114, 0x20, 8, fun i => [Reg.CHK_MISMATCHES_COUNT i]⟩,
   ⟨0xa118, 0x20, 8, fun i => [Reg.CHK_ALIVE_SEEDED i, Reg.CHK_ALIVE_LAST i]⟩]
/-- The register map of the block at 0xb000. -/
def Reg.rowsB : List Row :=
  [⟨0xb000, 0x0, 1, fun _ => [Reg.SEC_STATUS_BOOT_PHASE, Reg.SEC_STATUS_IDENTITY, Reg.SEC_STATUS_DEBUG_OPEN, Reg.SEC_STATUS_PROVISION, Reg.SEC_STATUS_HOST_SESSION, Reg.SEC_STATUS_PEER_SESSION, Reg.SEC_STATUS_TG_KEY, Reg.SEC_STATUS_TRIM_OK, Reg.SEC_STATUS_USABLE, Reg.SEC_STATUS_REVOKED, Reg.SEC_STATUS_WRITTEN, Reg.SEC_STATUS_KEYS]⟩,
   ⟨0xb004, 0x0, 1, fun _ => [Reg.SEC_BOOT_STATUS_RECOVERY, Reg.SEC_BOOT_STATUS_FALLBACK, Reg.SEC_BOOT_STATUS_IMAGE, Reg.SEC_BOOT_STATUS_MARKED, Reg.SEC_BOOT_STATUS_REASON_A, Reg.SEC_BOOT_STATUS_REASON_B]⟩,
   ⟨0xb008, 0x0, 1, fun _ => [Reg.SEC_SVN_RUNNING, Reg.SEC_SVN_COUNT]⟩,
   ⟨0xb010, 0x4, 4, fun i => [Reg.SEC_SERIAL_BYTES i]⟩,
   ⟨0xb020, 0x4, 8, fun i => [Reg.SEC_FW_DIGEST_BYTES i]⟩,
   ⟨0xb040, 0x4, 8, fun i => [Reg.SEC_TRIM_DIGEST_BYTES i]⟩,
   ⟨0xb060, 0x0, 1, fun _ => [Reg.SEC_ENTROPY_HEALTHY, Reg.SEC_ENTROPY_FAILURES]⟩,
   ⟨0xb064, 0x0, 1, fun _ => [Reg.SEC_POLICY_REPROVISION, Reg.SEC_POLICY_DEBUG_TOKENS]⟩,
   ⟨0xb068, 0x0, 1, fun _ => [Reg.SEC_EVENT_ENTROPY, Reg.SEC_EVENT_DEBUG, Reg.SEC_EVENT_PROVISION, Reg.SEC_EVENT_SESSION]⟩,
   ⟨0xb06c, 0x0, 1, fun _ => [Reg.SEC_EVENT_EN_EN]⟩,
   ⟨0xb080, 0x0, 1, fun _ => [Reg.SEC_BOOT_CTRL_DONE]⟩,
   ⟨0xb100, 0x8, 16, fun i => [Reg.SEC_GATE_BASE_BASE i, Reg.SEC_GATE_BASE_EN i]⟩,
   ⟨0xb104, 0x8, 16, fun i => [Reg.SEC_GATE_LIMIT_LIMIT i, Reg.SEC_GATE_LIMIT_READ i, Reg.SEC_GATE_LIMIT_WRITE i]⟩]
/-- The register map of the block at 0xc000. -/
def Reg.rowsC : List Row :=
  [⟨0xc000, 0x0, 1, fun _ => [Reg.NFC_CTRL_CHECKPOINT, Reg.NFC_CTRL_SCRUB_EN]⟩,
   ⟨0xc004, 0x0, 1, fun _ => [Reg.NFC_CFG_REFRESH_BITS, Reg.NFC_CFG_SPARE_LOW]⟩,
   ⟨0xc008, 0x0, 1, fun _ => [Reg.NFC_SCRUB_CFG_DAYS, Reg.NFC_SCRUB_CFG_RD_LIMIT_K]⟩,
   ⟨0xc00c, 0x0, 1, fun _ => [Reg.NFC_CKPT_CFG_PERIOD_S]⟩,
   ⟨0xc010, 0x0, 1, fun _ => [Reg.NFC_PART_CES, Reg.NFC_PART_RETRY, Reg.NFC_PART_PPB, Reg.NFC_PART_BLOCKS]⟩,
   ⟨0xc014, 0x0, 1, fun _ => [Reg.NFC_STATUS_READY, Reg.NFC_STATUS_DEFERRED, Reg.NFC_STATUS_FAST, Reg.NFC_STATUS_CKPT_BUSY, Reg.NFC_STATUS_PART, Reg.NFC_STATUS_QUEUED]⟩,
   ⟨0xc018, 0x0, 1, fun _ => [Reg.NFC_BLOCKS_FREE, Reg.NFC_BLOCKS_BAD]⟩,
   ⟨0xc01c, 0x0, 1, fun _ => [Reg.NFC_WEAR_ERASE_MAX, Reg.NFC_WEAR_ERASE_MIN]⟩,
   ⟨0xc020, 0x0, 1, fun _ => [Reg.NFC_RETRY_COUNT_COUNT]⟩,
   ⟨0xc024, 0x0, 1, fun _ => [Reg.NFC_UNCORR_COUNT_COUNT]⟩,
   ⟨0xc028, 0x0, 1, fun _ => [Reg.NFC_RETIRED_COUNT_COUNT]⟩,
   ⟨0xc02c, 0x0, 1, fun _ => [Reg.NFC_REFRESH_COUNT_COUNT]⟩,
   ⟨0xc030, 0x0, 1, fun _ => [Reg.NFC_SCRUB_STATUS_PASSES, Reg.NFC_SCRUB_STATUS_BLOCK]⟩,
   ⟨0xc034, 0x0, 1, fun _ => [Reg.NFC_CKPT_AGE_SECONDS]⟩,
   ⟨0xc038, 0x0, 1, fun _ => [Reg.NFC_LAST_VALID, Reg.NFC_LAST_KIND, Reg.NFC_LAST_CE, Reg.NFC_LAST_PAGE, Reg.NFC_LAST_BLOCK]⟩,
   ⟨0xc03c, 0x0, 1, fun _ => [Reg.NFC_EVENT_SPARE_LOW, Reg.NFC_EVENT_RETIRED, Reg.NFC_EVENT_PASS, Reg.NFC_EVENT_CHECKPOINT]⟩,
   ⟨0xc040, 0x0, 1, fun _ => [Reg.NFC_EVENT_EN_EN]⟩]
/-- The register map of the block at 0xd000. -/
def Reg.rowsD : List Row :=
  [⟨0xd000, 0x0, 1, fun _ => [Reg.FLT_TOP_PENDING, Reg.FLT_TOP_SEVERITY, Reg.FLT_TOP_SOURCE]⟩,
   ⟨0xd004, 0x0, 1, fun _ => [Reg.FLT_CTRL_HOST_SEV]⟩,
   ⟨0xd008, 0x0, 1, fun _ => [Reg.FLT_ESCALATE_EN]⟩,
   ⟨0xd00c, 0x0, 1, fun _ => [Reg.FLT_NMI_OVERDUE, Reg.FLT_NMI_TIMING, Reg.FLT_NMI_SOURCE]⟩,
   ⟨0xd010, 0x0, 1, fun _ => [Reg.FLT_FENCE_CHAMBER, Reg.FLT_FENCE_REACH]⟩,
   ⟨0xd014, 0x0, 1, fun _ => [Reg.FLT_RESET_VALID, Reg.FLT_RESET_SOURCE]⟩,
   ⟨0xd100, 0x4, 6, fun i => [Reg.FLT_STICKY_STICKY i]⟩,
   ⟨0xd120, 0x4, 6, fun i => [Reg.FLT_LIVE_LIVE i]⟩,
   ⟨0xd140, 0x4, 6, fun i => [Reg.FLT_FORCE_FORCE i]⟩,
   ⟨0xd160, 0x4, 6, fun i => [Reg.FLT_CLEAR_CLEAR i]⟩,
   ⟨0xd200, 0x4, 12, fun v => [Reg.FLT_SEV_SEV v]⟩,
   ⟨0xd400, 0x4, 192, fun n => Reg.FLT_REACT_fields n⟩]
/-- The register map of the block at 0xe000. -/
def Reg.rowsE : List Row :=
  [⟨0xe000, 0x0, 1, fun _ => [Reg.RIF_CRC_CTRL_COMMIT, Reg.RIF_CRC_CTRL_HOLD, Reg.RIF_CRC_CTRL_EN]⟩,
   ⟨0xe004, 0x0, 1, fun _ => [Reg.RIF_CRC_REF_CRC]⟩,
   ⟨0xe008, 0x0, 1, fun _ => [Reg.RIF_CRC_LIVE_CRC]⟩,
   ⟨0xe00c, 0x0, 1, fun _ => [Reg.RIF_CRC_STATUS_MISMATCH, Reg.RIF_CRC_STATUS_PENDING]⟩,
   ⟨0xe010, 0x0, 1, fun _ => [Reg.RIF_CRC_SWEEPS_COUNT]⟩,
   ⟨0xe014, 0x0, 1, fun _ => [Reg.RIF_CRC_TRANSIENTS_COUNT]⟩,
   ⟨0xe018, 0x0, 1, fun _ => [Reg.RIF_DISCARD_VALID, Reg.RIF_DISCARD_CAUSE, Reg.RIF_DISCARD_REQUESTER, Reg.RIF_DISCARD_WRITE]⟩,
   ⟨0xe01c, 0x0, 1, fun _ => [Reg.RIF_DISCARD_ADDR_ADDR]⟩,
   ⟨0xe020, 0x0, 1, fun _ => [Reg.RIF_INT_STATUS_BITS_HI, Reg.RIF_INT_STATUS_FAULT, Reg.RIF_INT_STATUS_BITS_LO]⟩,
   ⟨0xe024, 0x0, 1, fun _ => [Reg.RIF_INT_EN_BITS]⟩,
   ⟨0xe028, 0x0, 1, fun _ => [Reg.RIF_INT_CTRL_MSG_CPL, Reg.RIF_INT_CTRL_MSG_FAULT, Reg.RIF_INT_CTRL_MSG_EVENT, Reg.RIF_INT_CTRL_INT_EN]⟩,
   ⟨0xe02c, 0x0, 1, fun _ => [Reg.RIF_MSG_COUNT_COUNT]⟩,
   ⟨0xe040, 0x4, 6, fun i => [Reg.RIF_DISCARD_COUNT_COUNT i]⟩,
   ⟨0xe100, 0x4, 16, fun i => [Reg.RIF_BLOCK_CRC_CRC i]⟩,
   ⟨0xe200, 0x4, 16, fun i => [Reg.RIF_MAILBOX_DATA i]⟩]
/-- The register map of the block at 0xf000. -/
def Reg.rowsF : List Row :=
  [⟨0xf000, 0x20, 2, fun i => [Reg.WHF_CMD_TAIL_SEQ i]⟩,
   ⟨0xf004, 0x20, 2, fun i => [Reg.WHF_CMD_NEXT_SEQ i]⟩,
   ⟨0xf008, 0x20, 2, fun i => [Reg.WHF_CPL_NEXT_SEQ i]⟩,
   ⟨0xf00c, 0x20, 2, fun i => [Reg.WHF_CPL_READ_SEQ i]⟩,
   ⟨0xf010, 0x20, 2, fun i => [Reg.WHF_STATUS_BUSY i, Reg.WHF_STATUS_LAST_STATUS i, Reg.WHF_STATUS_OPCODE i]⟩,
   ⟨0xf014, 0x20, 2, fun i => [Reg.WHF_EXEC_SEQ i]⟩,
   ⟨0xf018, 0x20, 2, fun i => [Reg.WHF_FAILED_COUNT i]⟩,
   ⟨0xf040, 0x0, 1, fun _ => [Reg.WHF_TELEM_CFG_EN, Reg.WHF_TELEM_CFG_PERIOD]⟩,
   ⟨0xf044, 0x0, 1, fun _ => [Reg.WHF_TELEM_NEXT_SEQ]⟩,
   ⟨0xf048, 0x0, 1, fun _ => [Reg.WHF_TELEM_READ_SEQ]⟩,
   ⟨0xf04c, 0x0, 1, fun _ => [Reg.WHF_TELEM_LOST_COUNT]⟩,
   ⟨0xf050, 0x0, 1, fun _ => [Reg.WHF_EVENT_SEQUENCE, Reg.WHF_EVENT_TELEM, Reg.WHF_EVENT_CPL_SESSION, Reg.WHF_EVENT_CPL_OPEN]⟩,
   ⟨0xf054, 0x0, 1, fun _ => [Reg.WHF_EVENT_EN_EN]⟩,
   ⟨0xf800, 0x0, 1, fun _ => [Reg.PNT_CTRL_PAIR_JOINED, Reg.PNT_CTRL_EGRESS_ZERO, Reg.PNT_CTRL_EN]⟩,
   ⟨0xf804, 0x0, 1, fun _ => [Reg.PNT_CFG_COUNT, Reg.PNT_CFG_WIDTH32, Reg.PNT_CFG_HOME]⟩,
   ⟨0xf808, 0x0, 1, fun _ => [Reg.PNT_STATUS_BUSY, Reg.PNT_STATUS_DRIVING, Reg.PNT_STATUS_SHORT, Reg.PNT_STATUS_SKIPPED]⟩,
   ⟨0xf80c, 0x0, 1, fun _ => [Reg.PNT_SENT_COUNT]⟩,
   ⟨0xf810, 0x0, 1, fun _ => [Reg.PNT_EVENT_BERTH, Reg.PNT_EVENT_SKIPPED, Reg.PNT_EVENT_SENT]⟩,
   ⟨0xf814, 0x0, 1, fun _ => [Reg.PNT_EVENT_EN_EN]⟩]
/-- The rows of register block b (R403). -/
def Reg.rows (b : Nat) : List Row :=
  match b with
  | 0 => Reg.rows0
  | 1 => Reg.rows1
  | 2 => Reg.rows2
  | 3 => Reg.rows3
  | 4 => Reg.rows4
  | 5 => Reg.rows5
  | 6 => Reg.rows6
  | 7 => Reg.rows7
  | 8 => Reg.rows8
  | 9 => Reg.rows9
  | 10 => Reg.rowsA
  | 11 => Reg.rowsB
  | 12 => Reg.rowsC
  | 13 => Reg.rowsD
  | 14 => Reg.rowsE
  | 15 => Reg.rowsF
  | _ => []

/-- The shadowed fields (R412). -/
def Reg.shadowed : List Fld :=
  [Reg.SYS_FLIGHT_CTRL_SLOT, Reg.SEQ_SYNC_CFG_SYNC_DELAY, Reg.SEQ_LOCK_NUMBER_SET_VALUE, Reg.SEQ_LOCK_LOAD_LOAD, Reg.TRM_CTRL_WEAR_EN, Reg.TRM_CTRL_PIXEL_EN, Reg.CEIL_CTRL_EGRESS_RELAX, Reg.CEIL_CTRL_PLANE, Reg.WEIR_BUDGET_MW, Reg.WEIR_CFG_RISE_STEP, Reg.WEIR_CFG_HOLD_LC, Reg.WEIR_CFG_P_FIXED, Reg.WEIR_ILSB_NA, Reg.DIAG_CTRL_FILL_SHARE, Reg.DIAG_CTRL_FILL_EN, Reg.DIAG_CTRL_KO_SUPPRESS, Reg.PNT_CTRL_EN, Reg.PNT_CFG_COUNT, Reg.PNT_CFG_WIDTH32, Reg.PNT_CFG_HOME] ++ (List.range 8).map Reg.CHK_REF_REF

/-- The index of the set of a row that holds byte offset `off`, if the row lists it. -/
def Row.index? (r : Row) (off : Nat) : Option Nat :=
  if off < r.base then none
  else if r.count ≤ 1 then (if off = r.base then some 0 else none)
  else if (off - r.base) % r.stride = 0 ∧ (off - r.base) / r.stride < r.count then some ((off - r.base) / r.stride)
  else none

/-- The fields of the register at byte offset `off` of register space; none for an offset that no map lists (R403). -/
def Reg.fieldsAt (off : Nat) : Option (List Fld) :=
  (Reg.rows (off / 0x1000)).findSome? (fun r => (r.index? off).map r.fields)

/-- Insertion into an ascending list of offsets. -/
def insertAsc (x : Nat) : List Nat → List Nat
  | [] => [x]
  | y :: ys => if x ≤ y then x :: y :: ys else y :: insertAsc x ys

/-- Every listed register offset of block b, in ascending order (R416). -/
def Reg.offsets (b : Nat) : List Nat :=
  ((Reg.rows b).flatMap (fun r => (List.range r.count).map (fun i => r.base + r.stride * i))).foldr insertAsc []

end Sys2Proof.Machine
end

