-- ==== Sys2Proof/Machine/State.lean ====
section
/-!
DEFINITION. The state of the SL1M, as plain data: the register fields (every one of the 1,152 registers, R403), and block by block
the state the spec gives the machine beside them. State.reset is the device as a power-up reset ends and Boot begins (R386, R397,
R400). A step can stop only as Fault and Refusal say.
-/
namespace Sys2Proof.Machine

/-- The register file: field values by field key; an unlisted field holds its reset value. -/
abbrev RegFile := Sparse Nat

/-! ## Chambers (R42-R57, R79-R82, R110, R116) -/

/-- A result on its way to its destination: the register, the enabled lanes, the value. `mac` carries the product that is added to
the accumulator in the landing cycle (R50); `store` the bytes of an ST or VST (R48, R77). -/
inductive Landing where
  | scalar (r : Fin 32) (v : W16)
  | vector (r : Fin 32) (mask : PredW) (v : VecW)
  | pred (r : Fin 8) (mask : PredW) (v : PredW)
  | acc (r : Fin 4) (mask : PredW) (v : AccW)
  | mac (r : Fin 4) (mask : PredW) (product : AccW)
  | store (cells : List Host.Cell)
deriving DecidableEq, Repr

/-- A result in flight: the schedule cycle in which it lands, and its issue order (2 × cycle + slot, R51). -/
structure InFlight where
  due : Nat
  order : Nat
  land : Landing
deriving DecidableEq, Repr

/-- A loop-stack entry (R80). -/
structure LoopEntry where
  start : Nat
  stop : Nat
  remaining : Nat
deriving DecidableEq, Repr

/-- A control transfer whose delay bundles are issuing: bundles still to issue before the target, and the target (R80). -/
structure Transfer where
  left : Nat
  target : Nat
deriving DecidableEq, Repr

/-- A barge-table entry (R110). -/
structure BargeEntry where
  issue : Nat
  src : Nat
  cstride : Int
  srcPitch : Nat
  dstPitch : Nat
  dst : Nat
  rowBeats : Nat
  rows : Nat
  skew : Nat
  reps : Nat
  space : Nat
  berth : Nat
  repCycles : Nat
  repSrcStep : Int
  repDstStep : Int
deriving DecidableEq, Repr

/-- A barge in flight: its entry, the repetition, the schedule cycle of its issue, its issue order over the device, its tag slot
(R149), and the next beat to move. -/
structure Barge where
  entry : BargeEntry
  rep : Nat
  issued : Nat
  order : Nat
  slot : Fin 8
  next : Nat
deriving DecidableEq, Repr

/-- A chamber. `cycle` is the schedule cycle of the bundle that is issuing; `scalarUsed` and `vectorUsed` say which slots of that
bundle have issued; `stopped` that the last sluice found it executing. `lock` is the running or last lock, `lockStart` its START; `reps` the next
repetition of each barge-list entry; `arrived` the local-store units that barge beats wrote in this cycle (R45). -/
structure Chamber where
  s : Vector W16 32
  v : Vector VecW 32
  p : Vector PredW 8
  a : Vector AccW 4
  pc : Nat
  loops : List LoopEntry
  calls : List Nat
  transfers : List Transfer
  store : Memory
  tags : List Nat
  istore : Sparse (BitVec 64)
  inFlight : List InFlight
  barges : List Barge
  cycle : Nat
  scalarUsed : Bool
  vectorUsed : Bool
  running : Bool
  halted : Bool
  stopped : Bool
  lock : Nat
  lockStart : Nat
  reps : Sparse Nat
  arrived : List Nat
  peak : Nat
deriving DecidableEq, Repr

/-- A chamber after reset: all zero (R42, R56; R130 for the stores). -/
def Chamber.reset : Chamber :=
  { s := Vector.replicate 32 0#16, v := Vector.replicate 32 0#512, p := Vector.replicate 8 0#32, a := Vector.replicate 4 0#1280,
    pc := 0, loops := [], calls := [], transfers := [], store := [], tags := [], istore := [], inFlight := [], barges := [],
    cycle := 0, scalarUsed := false, vectorUsed := false, running := false, halted := false, stopped := false, lock := 0,
    lockStart := 0, reps := [], arrived := [], peak := 0 }

/-! ## Management cores (R58-R65) -/

/-- The lockstep pair of management cores as one (R65): 32 registers (s0 reads 0), the pc, the control words of R62, the NMI held
pending, a WFI in progress, the stop of a double trap, and the device time at which CW_CYCLE counts 0. -/
structure Mgmt where
  x : Vector W32 32
  pc : W32
  ie : Bool
  trapActive : Bool
  nmiActive : Bool
  trapCause : W32
  trapPc : W32
  trapVal : W32
  trapVector : W32
  nmiVector : W32
  nmiPc : W32
  nmiAcked : Bool
  cycleHi : W32
  protBase : Vector W32 16
  protLimit : Vector W32 16
  intPending : Bool
  nmiPending : Bool
  waiting : Bool
  stopped : Bool
  sram : Memory
  born : Nat
deriving DecidableEq, Repr

/-- The cores after a chip reset: execution starts at 0x0600_0000 (R59); every other word 0. -/
def Mgmt.reset : Mgmt :=
  { x := Vector.replicate 32 0#32, pc := 0x06000000#32, ie := false, trapActive := false, nmiActive := false, trapCause := 0#32,
    trapPc := 0#32, trapVal := 0#32, trapVector := 0#32, nmiVector := 0#32, nmiPc := 0#32, nmiAcked := false, cycleHi := 0#32,
    protBase := Vector.replicate 16 0#32, protLimit := Vector.replicate 16 0#32, intPending := false, nmiPending := false,
    waiting := false, stopped := false, sram := [], born := 0 }

/-! ## Flights (R107-R113, R122) -/

structure LockEntry where
  start : Nat
  length : Nat
  mask : Nat
  entry : Nat
  bargeFirst : Nat
  bargeN : Nat
  claimFirst : Nat
  claimN : Nat
deriving DecidableEq, Repr

structure Claim where
  phase : Nat
  first : Nat
  last : Nat
deriving DecidableEq, Repr

structure Layer where
  berth : Nat
  format : Nat
  res : Nat
deriving DecidableEq, Repr

/-- A program-directory entry (R108). -/
structure Prog where
  offset : Nat
  bundles : Nat
deriving DecidableEq, Repr

/-- What a checked flight image says (R107-R112). -/
structure Flight where
  egress : Bool
  fMin : Nat
  fMax : Nat
  sReq : Nat
  id : Nat
  imageSize : Nat
  progs : List Prog
  locks : List LockEntry
  barges : List BargeEntry
  claims : List Claim
  layers : List Layer
  dataOff : Nat
  dataSize : Nat
deriving DecidableEq, Repr

/-! ## Sequencer (R19-R37) -/

/-- R27; the codes of SEQ_SYNC_STATUS.STATE. -/
inductive SyncState where
  | stopped | free | acquire | locked | holdover
deriving DecidableEq, Repr

/-- What the device holds of tick −4 before a sluice (R31-R33): COMMIT, every field value written by then, whether Egress was in force
(R124), and whether a further write of 1 to COMMIT, or to SEQ_LOCK_LOAD, has landed since. -/
structure Snap where
  commit : Bool
  regs : RegFile
  egress : Bool
  again : Bool
  againLoad : Bool
deriving DecidableEq, Repr

/-- A landing while the first sluice since STOPPED is awaited (R31): its time, what the device held before it, and whether it wrote 1 to
COMMIT or to SEQ_LOCK_LOAD. -/
structure Landed where
  time : Nat
  before : Snap
  commit : Bool
  load : Bool
deriving DecidableEq, Repr

/-- The sequencer. Times are device time in nanoseconds (one chamber cycle each, R18). `next` is the time placed for the next
sluice; `first` that it is the first one since STOPPED; `opened` the time of the last one (chamber cycle 0); `length` the length of the
lock cycle it opened; `lastEdge` the last active edge and `lastValid` the last valid one; `target` the last target (R25), `pend` one that
the coming sluice is to be compared with; `recent` the landings of the last ticks while the first sluice is awaited. `slots` holds the
checked flights of slots A, B and E, `run` the running one. `layers` is what each home berth of the running flight resolved to at the
sluice, as (home, first byte) (R148). `stallFences` are the lines fenced in the present retry stall (R136). -/
structure Seq where
  state : SyncState
  runAt : Nat
  next : Option Nat
  first : Bool
  opened : Nat
  length : Nat
  lastEdge : Option Nat
  lastValid : Option Nat
  target : Option Nat
  pend : Option Nat
  holdLcs : Nat
  sluices : Nat
  sluiceTime : Nat
  snap : Option Snap
  recent : List Landed
  heldCmds : List Nat
  slots : Vector (Option Flight) 3
  run : Option Flight
  layers : List (Nat × Nat)
  stallCycle : Option Nat
  stallCount : Nat
  stallFences : List Nat
  bargeOrder : Nat
  heartbeat : Bool
deriving DecidableEq, Repr

def Seq.reset : Seq :=
  { state := .stopped, runAt := 0, next := none, first := true, opened := 0, length := 0, lastEdge := none,
    lastValid := none, target := none, pend := none, holdLcs := 0, sluices := 0, sluiceTime := 0, snap := none, recent := [], heldCmds := [],
    slots := Vector.replicate 3 none, run := none, layers := [], stallCycle := none, stallCount := 0, stallFences := [], bargeOrder := 0,
    heartbeat := false }

/-! ## Basin and berths (R128-R149) -/

/-- R142; the codes of BAS_BERTH_STATUS.STATE. -/
inductive BerthState where
  | free | host | ready | live | retiring
deriving DecidableEq, Repr

/-- A berth: its state, home, retire mark, the covered 16 B units (ascending), and whether its present mismatch with the running
flight has been flagged (R147, R148). Its extent and format are BAS_BERTH_PLACE and BAS_BERTH_FMT. -/
structure Berth where
  state : BerthState
  home : Nat
  retireMark : Bool
  covered : List Nat
  flagged : Bool
deriving DecidableEq, Repr

/-- The basin: its bytes, the fenced lines, the lines a spare replaces (line, spare), the corrections counted in this scrub sweep and
whether they have raised FS111, the units (address / 16) that wait to be written back (R134), the requesters whose transfer has failed and who
have not been told yet (R137), and the last requester granted on each bank (R133-R138). -/
structure Basin where
  mem : Memory
  fenced : List Nat
  spares : List (Nat × Nat)
  sweepCorr : Nat
  sweepTold : Bool
  writeBack : List Nat
  failed : List SvcReq
  granted : Vector SvcReq 32
  berths : Vector Berth 64
deriving DecidableEq, Repr

def Berth.reset : Berth := { state := .free, home := 0, retireMark := false, covered := [], flagged := false }

def Basin.reset : Basin :=
  { mem := [], fenced := [], spares := [], sweepCorr := 0, sweepTold := false, writeBack := [], failed := [], granted := Vector.replicate 32 .scrub, berths := Vector.replicate 64 Berth.reset }

/-! ## Reaches: trim port and drive store (R9, R17, R35, R99, R100) -/

/-- A reach reset under R17: none; written, acting at the next sluice; dark with everything cleared; its chamber rendering again. -/
inductive ReachReset where
  | none | requested | dark | rendering
deriving DecidableEq, Repr

/-- A drive-store bank: the words by row × 2,048 + sink (R9), its drive sum (R185), the ceiling plane it was formatted with (none: nothing
has been formatted into it), and whether keep-out was applied (R184). -/
structure Bank where
  words : Sparse W16
  sum : Nat
  plane : Option Nat
  ko : Bool
deriving DecidableEq, Repr

def Bank.blank : Bank := { words := [], sum := 0, plane := none, ko := false }

/-- A reach: requests delivered in this lock cycle by row × 64 + segment, the deliveries not yet formatted (oldest first), the
segments written into the back bank, the two banks and which one is in front, whether it has swapped since chip reset, and the reset in
progress. -/
structure Reach where
  delivered : Sparse VecW
  waiting : List Nat
  written : List Nat
  bank0 : Bank
  bank1 : Bank
  frontIs1 : Bool
  shown : Bool
  reset : ReachReset
deriving DecidableEq, Repr

def Reach.init : Reach :=
  { delivered := [], waiting := [], written := [], bank0 := Bank.blank, bank1 := Bank.blank, frontIs1 := false, shown := false,
    reset := .none }

/-! ## Fault collector (R245-R258) -/

/-- The fault collector beside its registers: raises of this lock cycle and of the one before, as (source, locus) (R255); the time of
each source's last raise (R250); the sources holding HEALTH low (R254); the escalation timer's start (R257); blocks in reset (R252);
a Degraded entry and reach fences waiting for the next sluice (R255); a chip reset requested by a source (R253); the instant of each
(source, locus)'s last raise where occurrences of one instant count once (R249). -/
structure Faults where
  raised : List (Nat × Option Nat)
  before : List (Nat × Option Nat)
  lastRaise : Sparse Nat
  healthLow : List Nat
  escalateAt : Option Nat
  inReset : List Block
  degrade : Bool
  crReq : Option Nat
  instants : List (Nat × Option Nat × Nat)
deriving DecidableEq, Repr

def Faults.reset : Faults :=
  { raised := [], before := [], lastRaise := [], healthLow := [], escalateAt := none, inReset := [], degrade := false, crReq := none,
    instants := [] }

/-! ## Modes (R386-R400, R438) -/

/-- Where the device stands between reset and running: held in Reset, in Boot, or past the end of Boot. -/
inductive Phase where
  | reset | boot | running
deriving DecidableEq, Repr

/-- Mode state beside SYS_MODE: the phase, when Boot ended, the Safe-Dark latch, Egress in force and whether its entry set RUN
(R388), whole lock cycles without a request, RESUME accepted for the next sluice (R389), the reset inputs (R396, R438), the mode and
base last reported (R400), when the Egress condition last ended (R398), whether a light that was on when the Maintenance latch was set still is
(R389), and how far a cleared Safe-Dark keeps the array dark: 1 to the next sluice, 2 on to its first display scan (R390). -/
structure Modes where
  phase : Phase
  bootEnd : Nat
  safeDark : Bool
  egress : Bool
  egressSetRun : Bool
  quiet : Bool
  resume : Bool
  egressEnd : Option Nat
  resetLow : Bool
  badPower : Bool
  seen : Nat
  afterglow : Bool
  relight : Nat
deriving DecidableEq, Repr

/-! ## Register interface and wharf (R401-R427) -/

/-- A MSG packet queued to the host (R421). -/
structure Msg where
  code : Nat
  arg : Nat
  payload : List Byte
deriving DecidableEq, Repr

/-- The register interface beside its registers: MSG packets queued, the summary bits last seen (R421), the registers whose WL fields
are locked (R414), and the configuration-CRC engine: sweeps since HOLD was set, the last compared sweep's verdict (none where the
succession is broken), whether a latch is pending (R416-R418), and the device time and sluice count of the last telemetry record (R427). -/
structure Rif where
  msgs : List Msg
  summary : Nat
  locked : List Nat
  holdSweeps : Nat
  lastMismatch : Option Bool
  latch : Bool
  telemAt : Nat
  telemSluices : Nat
deriving DecidableEq, Repr

def Rif.reset : Rif := { msgs := [], summary := 0, locked := [], holdSweeps := 0, lastMismatch := none, latch := false, telemAt := 0, telemSluices := 0 }

/-! ## Pair health map (R97, R213, R214) -/

/-- A map of sub-emitters in words of 32 (R213): a bit is 1 where marked. After reset every sub-emitter is marked, being unproven
(R204; DIAG_MARKED). -/
abbrev HealthMap := Sparse W32

/-! ## NAND storage (R366-R385) -/

/-- Stored bytes: a length, and the cells (an unlisted byte is 0). -/
structure Blob where
  len : Nat
  cells : Memory
deriving DecidableEq, Repr

/-- The part in use: chip enables, read-retry levels, pages per block, blocks over all chip enables (R366, R367). -/
structure NPart where
  ces : Nat
  retry : Nat
  ppb : Nat
  blocks : Nat
deriving DecidableEq, Repr

/-- The metadata in a page's spare (R369): partition, copy, file index, page index within the file, file version, the block's erase count (on its
page 0, else 0), and powered seconds at the program. -/
structure PageMeta where
  part : Nat
  copy : Nat
  file : Nat
  page : Nat
  version : Nat
  erases : Nat
  ptime : Nat
deriving DecidableEq, Repr

/-- A block: erase count, reads since its last erase, those of them that the journal's newest snapshot holds (R374), bad, the (partition,
index, copy) that owns it (R375-R377), and the metadata of the pages programmed in it, in order (R369). `bad` is its marker (R369, R375). -/
structure NBlock where
  erases : Nat
  reads : Nat
  kept : Nat
  bad : Bool
  owner : Option (Nat × Nat × Nat)
  pages : List PageMeta
deriving DecidableEq, Repr

def NBlock.fresh : NBlock := { erases := 0, reads := 0, kept := 0, bad := false, owner := none, pages := [] }

/-- A copy of the boot map (R373): SEQ, PREFER, and of FW_A, FW_B, TRIM0 and TRIM1 the length and the blocks in file order. -/
structure BootCopy where
  seq : Nat
  prefer : Nat
  files : List (Nat × List Nat)
deriving DecidableEq, Repr

/-- A record of the journal (R374): a file commit, a block retirement, a completed erase, a checkpoint. -/
inductive JRecord where
  | commit (part idx copy version : Nat) (blocks : List Nat)
  | retired (block : Nat)
  | erased (block : Nat)
  | checkpoint (slot : Nat)
deriving DecidableEq, Repr

/-- A journal page (R374, R378): its sequence number, the SYS_TIME that dates it once a TIME packet has been applied, and its records. -/
structure JPage where
  seq : Nat
  date : Option Int
  records : List JRecord
deriving DecidableEq, Repr

/-- A committed file (R372): the blocks of each copy, and the sectors that no copy holds any more. -/
structure NFile where
  part : Nat
  idx : Nat
  version : Nat
  blob : Blob
  copies : List (List Nat)
  lost : List Nat
deriving DecidableEq, Repr

/-- What a write in progress is: a file, a ledger checkpoint, a BACKUP generation, or the move of a block (refresh, or wear levelling
to a named block). -/
inductive JobKind where
  | file
  | checkpoint
  | backup
  | move (old : Nat) (dest : Option Nat) (counted : Bool)
deriving DecidableEq, Repr

/-- A write in progress or deferred: the copies to write in all, those committed, the blocks and pages of the present copy, the old
blocks it will release, the wharf pair that waits for it, and whether it has been retried (R368, R372, R382). -/
structure NJob where
  kind : JobKind
  part : Nat
  idx : Nat
  version : Nat
  blob : Blob
  copies : Nat
  done : List (List Nat)
  blocks : List Nat
  page : Nat
  pages : Nat
  old : List Nat
  pair : Option Pair
  retried : Bool
deriving DecidableEq, Repr

/-- A delegated key of the key table (R342). -/
structure Cert where
  key : List Byte
  perm : Nat
  rootSlot : Nat
  version : Nat
  serial : List Byte
deriving DecidableEq, Repr

/-- The start record (R393). -/
structure StartRec where
  f : Nat
  sc : Nat
  slot : Nat
  budget : Nat
  auto : Bool
deriving DecidableEq, Repr

/-- What a BACKUP generation carries (R371): user plane, key table, pairing record, telegram key, start record. -/
structure Saved where
  plane : Memory
  roots : List (Option (List Byte))
  deleg : List (Option Cert)
  pairing : Option (List Byte)
  tgKey : Option (List Byte)
  start : Option StartRec
deriving DecidableEq, Repr

/-- The NAND channel. `underway`: a program or erase was under way as the temperature window closed (R242); `boot`: the copies of the boot map,
each with its block, oldest first (R373); `records`: what the journal's next page will hold, `journal` its pages since its newest snapshot,
`journalSeq` the next page's number (R374); `dated`: the SYS_TIME of its newest dated record (R378); `lastTaken`: the block that a write took
last (R376). Committed contents (blocks, files, boot map, journal, newest checkpoint, backup, identity record) survive every reset. -/
structure Nand where
  part : Option NPart
  blocks : Sparse NBlock
  files : List NFile
  jobs : List NJob
  erasing : List Nat
  refresh : List Nat
  deferred : List NJob
  torn : Bool
  prefer : Nat
  bootSeq : Nat
  nextSlot : Nat
  ckptAt : Option Nat
  saved : Option Saved
  start : Option StartRec
  idRecord : List Byte
  movedAt : Option Nat
  scrubNext : Nat
  ckptPairs : List Pair
  underway : Bool
  boot : List (Nat × BootCopy)
  records : List JRecord
  journal : List JPage
  journalSeq : Nat
  dated : Option Int
  lastTaken : Option Nat
deriving DecidableEq, Repr

def Nand.blank : Nand :=
  { part := none, blocks := [], files := [], jobs := [], erasing := [], refresh := [], deferred := [], torn := false, prefer := 0,
    bootSeq := 0, nextSlot := 0, ckptAt := none, saved := none, start := none, idRecord := [], movedAt := none,
    scrubNext := 0, ckptPairs := [], underway := false, boot := [], records := [],
    journal := [], journalSeq := 0, dated := none, lastTaken := none }

/-! ## Trust (R336-R365) -/

/-- The keys of a session, in each direction (R357, R358). -/
structure SessKeys where
  inKey : List Byte
  outKey : List Byte
  inSalt : List Byte
  outSalt : List Byte
deriving DecidableEq, Repr

/-- A handshake in progress (R357, R359): HELLO, REPLY, the key that must sign, the shared X coordinate, and at the initiator of a peer session
the draw of its ephemeral key. -/
structure Handshake where
  hello : List Byte
  reply : List Byte
  key : List Byte
  shared : List Byte
  own : Nat
deriving DecidableEq, Repr

/-- The security engine and the key table. `otp` holds the bits programmed, `otpFail` the bits that fail their read check (R339);
`jumped` the firmware slot whose boot stage runs (R348); `recover` the image under assembly (R352); `digests` those of flight slots A,
B, E and of the library (R361). -/
structure Trust where
  otp : Memory
  otpFail : List Nat
  idKey : Option (List Byte)
  k1 : Bool
  host : Option SessKeys
  peer : Option SessKeys
  tgKey : Option (List Byte)
  roots : Vector (Option (List Byte)) 4
  deleg : Vector (Option Cert) 16
  challenge : Option (List Byte)
  hostHs : Option Handshake
  peerHs : Option Handshake
  peerKeys : Option SessKeys
  hostKey : List Byte
  pairing : Option (List Byte)
  jumped : Option Nat
  runEntry : Nat
  scope : Nat
  extest : Bool
  entropyFail : Bool
  engineOff : Bool
  katFails : Nat
  recover : Blob
  digests : Vector (List Byte) 4
deriving DecidableEq, Repr

def Trust.reset : Trust :=
  { otp := [], otpFail := [], idKey := none, k1 := false, host := none, peer := none, tgKey := none, roots := Vector.replicate 4 none,
    deleg := Vector.replicate 16 none, challenge := none, hostHs := none, peerHs := none, peerKeys := none, hostKey := [], pairing := none,
    jumped := none, runEntry := 0, scope := 0, extest := false, entropyFail := false, engineOff := false, katFails := 0,
    recover := { len := 0, cells := [] }, digests := Vector.replicate 4 [] }

/-! ## Trim store, ledger, weir (R170-R192) -/

/-- What an unwritten byte of the trim store holds (R171): user pixel gains 128, user column gains 2,048, all else 0. -/
def trimDefault (a : Nat) : Byte :=
  if 0x400000 ≤ a ∧ a < 0x600000 then 128#8
  else if 0x600000 ≤ a ∧ a < 0x610000 ∧ a % 2 = 1 then 8#8
  else 0#8

/-- Trim, ledger, ceiling and weir state beside the registers. `store` the trim store, `failed` its words and `ledgerFailed` the
ledger's words under a lasting error (R173); `ledger` the wear ledger; `lastVisit` the time of each group's last visit, `visitBase`
where none is listed (R179); `lfsr` (R179). What was latched at the sluice that opened the lock cycle: bands and node outputs (R175), relaxation
(R183), fenced emitters and columns (R211), lit reaches (R179). `sat`, `ko`, `glare`, `eye`: the words that each formatted segment adds to the
counts, by reach × 4,096 + segment (R100, R176,
R184). `drops` the
sluices since the last decrease of W_f (R187), `counted` whether a reach was counted in the last lock cycle, `litPred` the lit
prediction of the present one, `excess` the lock cycles in which the measurement has exceeded it (R190). -/
structure Trim where
  store : Sparse Byte
  failed : List Nat
  ledger : Memory
  ledgerFailed : List Nat
  lastVisit : Sparse Nat
  visitBase : Nat
  lfsr : Nat
  bands : List Nat
  temps : List Int
  relax : Bool
  fencedEm : List Nat
  fencedCol : List Nat
  lit : List Nat
  sat : Sparse Nat
  ko : Sparse Nat
  glare : Sparse Nat
  eye : Sparse Nat
  visited : List Nat
  drops : Option Nat
  counted : Bool
  litPred : Nat
  excess : Nat
deriving DecidableEq, Repr

def Trim.reset : Trim :=
  { store := [], failed := [], ledger := [], ledgerFailed := [], lastVisit := [], visitBase := 0, lfsr := 1, bands := [], temps := [],
    relax := false, fencedEm := [], fencedCol := [], lit := [], sat := [], ko := [], glare := [], eye := [], visited := [], drops := none,
    counted := false, litPred := 0, excess := 0 }

/-! ## Array diagnostics and the painter port (R193-R222) -/

/-- A suspect (R205): sub-emitter index, kind (1 open, 2 short), SYS_TIME of its flag, the sluice count then, and whether a row event
made it one (R200). -/
structure Suspect where
  key : Nat
  kind : Nat
  seen : Nat
  lc : Nat
  rowEvent : Bool
deriving DecidableEq, Repr

/-- A defect-list entry (R208); fence 1 emitter, 2 column. -/
structure Defect where
  key : Nat
  kind : Nat
  fence : Nat
  seen : Nat
  sluice : Nat
deriving DecidableEq, Repr

/-- An entry of the flapping table (R207). -/
structure Flap where
  key : Nat
  first : Nat
  count : Nat
  last : Nat
deriving DecidableEq, Repr

/-- The row slot in progress: scan (0 the slack scan) and row, whether VLED suspends its checks (R199), the reaches whose row switch has
tripped in it (R201), the reaches whose slot carries a test pulse or a retest, the sub-emitters that became suspects in it, the suspects that its
checks have found lasting, and the reaches that have had a row event in it (R200). -/
structure RowSlot where
  scan : Nat
  row : Nat
  suspended : Bool
  tripped : List Nat
  pulsed : List Nat
  flagged : List Nat
  judged : List Nat
  rowEvents : List Nat
deriving DecidableEq, Repr

/-- Diagnostics. `slots` counts the row slots begun in this lock cycle; `swept` the rows (reach × 64 + row) that have carried their pulse of the
proof sweep since the sequencer last left STOPPED, `proven` those that have carried one since chip reset, `left` the sub-emitters that it
left out (R204); `extraCols` columns fenced with the list full (R209); `vled` the highest VLED sample of this lock
cycle, `vledSum` and `vledN` the sum and the number of those of its display scans (R190); `vledRaised` FS141 raised in this lock cycle; `watched`
the reaches that have made their watch measurement in this slack scan (R225). -/
structure Diag where
  slot : Option RowSlot
  slots : Nat
  suspects : List Suspect
  defects : List Defect
  extraCols : List Nat
  unverified : List Nat
  swept : List Nat
  proven : List Nat
  left : List Nat
  sweeping : Bool
  flaps : List Flap
  localMap : HealthMap
  vled : Nat
  vledSum : Nat
  vledN : Nat
  vledRaised : Bool
  watched : List Nat
deriving DecidableEq, Repr

def Diag.reset : Diag :=
  { slot := none, slots := 0, suspects := [], defects := [], extraCols := [], unverified := [], swept := [], proven := [], left := [],
    sweeping := false, flaps := [], localMap := [], vled := 0, vledSum := 0, vledN := 0, vledRaised := false, watched := [] }

/-- The painter line: the stream being sent, the time since which the line has been low, a zero stream that waits or is being sent, and
whether the device lit the array when last seen (R216-R219). -/
structure Painter where
  stream : List Byte
  lowSince : Nat
  zeroDue : Bool
  zeroing : Bool
  lit : Bool
deriving DecidableEq, Repr

/-! ## Calibration and the thermal model (R223-R244) -/

/-- A calibration run: reach, sluice count at its start, measurement slots taken, the reference sums, the sink counts (sink ascending), the
abort cause, the reach's mean temperature at its start (R227-R230). -/
structure CalRun where
  reach : Nat
  start : Nat
  slots : Nat
  refs : List Nat
  c16 : List Nat
  c56 : List Nat
  abort : Option Nat
  mean : Int
deriving DecidableEq, Repr

/-- Calibration: the queue, the run, when each reach's last run ended (none yet: not listed), start-up trigger done, SYS_TIME of the sluice
that installed the last completed run. -/
structure Calib where
  queue : List Nat
  run : Option CalRun
  ended : List (Nat × Nat)
  startup : Bool
  lastTime : Nat
deriving DecidableEq, Repr

/-- The thermal model. Temperatures and biases in 2⁻¹² K, outputs and readings in 1/16 °C. `sampled` the sensors that
have had a valid sample since chip reset, `rising` a node rose faster than half of RATE_LIMIT at the last update (R235). `heat` the inputs of the
coming update (µW); `snaps` the snapshots, oldest first, with their times; `bad` sensors whose last sample failed its check; `bound` since when a bias
has been held at a bound; `excess` of the last update, `clear` updates without one; `stepAt` the last downward step; `dirs` the direction of
each reach's target at the previous update; `due` the band a reach takes at the next sluice; `fastUntil` the end of the fast rate once its causes
have gone; `length` the closing lock cycle's; `updated` an update has been made since the last sluice. -/
structure Thermal where
  started : Bool
  t : List Int
  pk : List Int
  bias : List Int
  readings : List Int
  sampled : List Nat
  outs : List Int
  rates : List Int
  rising : Bool
  heat : List Nat
  snaps : List (Nat × List Int)
  snapDue : Nat
  bad : List Nat
  bound : List (Nat × Nat)
  boundDone : List Nat
  excess : Bool
  clear : Nat
  stepAt : Nat
  dirs : List Int
  due : List (Nat × Nat)
  bandsSet : Bool
  fastUntil : Nat
  length : Nat
  updated : Bool
deriving DecidableEq, Repr

def Thermal.reset : Thermal :=
  { started := false, t := [], pk := [], bias := [], readings := [], sampled := [], outs := [], rates := [], rising := false, heat := [], snaps := [],
    snapDue := 0, bad := [], bound := [], boundDone := [], excess := false, clear := 0, stepAt := 0, dirs := [], due := [],
    bandsSet := false, fastUntil := 0, length := 0, updated := false }

/-! ## SYS_TIME (R287) -/

/-- SYS_TIME: `base` its value at device time `at_`; `slew` what remained to be added (or, negative, taken away) then. `edges` are the
captures at the last 8 valid FRAME_SYNC edges, oldest first: edge number (LNK_TIME_EDGE) and SYS_TIME; `applied` the EDGE of the last
TIME packet applied. -/
structure Clock where
  base : Int
  at_ : Nat
  slew : Int
  edges : List (Nat × Nat)
  applied : Option Nat
deriving DecidableEq, Repr

def Clock.reset : Clock := { base := 0, at_ := 0, slew := 0, edges := [], applied := none }

/-! ## Links (R264-R289) -/

/-- What a bring-up, or a recovery, is doing (R270, R286). -/
inductive LinkStage where
  | train | lock | exchange
deriving DecidableEq, Repr

/-- A lane of a link in training (R271, R272, R285): consecutive identical TP1 sets and their content (RATES, PRESET, FLAGS), when the eighth
arrived, consecutive TP2 sets, completed; completed since it was last lost or restarted, though fenced since; the preset it sends with;
consecutive SLACK sets without a violation; the elastic buffer's fill from its centre (R268); since when a fenced lane has been clean. -/
structure LinkLane where
  tp1 : Nat
  tp1Set : Nat × Nat × Nat
  tp1At : Option Nat
  tp2 : Nat
  done : Bool
  trained : Bool
  preset : Nat
  slacks : Nat
  fill : Int
  cleanSince : Option Nat
deriving DecidableEq, Repr

def LinkLane.reset : LinkLane :=
  { tp1 := 0, tp1Set := (0, 0, 0), tp1At := none, tp2 := 0, done := false, trained := false, preset := 2, slacks := 0, fill := 0, cleanSince := none }

/-- A packet to the partner (R275): header fields, payload as sent, tag where encrypted, its sequence and how often it has been sent. -/
structure OutPacket where
  type : Nat
  enc : Bool
  status : Nat
  prev : Bool
  len : Nat
  addr : Nat
  payload : List Byte
  tag : List Byte
  seq : Nat
  sends : Nat
deriving DecidableEq, Repr

/-- A link beside its registers. Bring-up: stage, lanes, lanes with a receiver, when the present state or rate began, consecutive
failures at 5.0 GBd and the limit to 2.5 GBd, whether the present bring-up may train at 5.0 GBd (R290), the last CAPS refusal, whether this is a
recovery, whether CAPS with ACK have been sent and received, the partner's CAPS and those last sent. Receiving: the next sequence expected, the
packets landed under this numbering, the last one landed, whether
the expected one has failed once, the last NAK, packets landed and not acknowledged, requests whose completion waits, LIMIT
as last sent, packets landed in the session, an authentication failure. Sending: packets waiting for room, the replay buffer,
the partner's LIMIT, the last progress, packets numbered in the session. MASK as last sent (R284). For each lane the start and EXP of its
last eye scan (R288). -/
structure Link where
  stage : LinkStage
  lanes : Vector LinkLane 4
  detected : Nat
  since : Nat
  fails5 : Nat
  only25 : Bool
  rate5 : Bool
  refusedAt : Option Nat
  recovering : Bool
  ackSent : Bool
  ackGot : Bool
  caps : Option (List Byte)
  capsSent : List Byte
  rxNext : Nat
  landed : Nat
  lastRx : Option Nat
  failing : Bool
  nakAt : Option Nat
  unacked : Nat
  staging : Nat
  limitSent : Nat
  rxCount : Nat
  authFail : Bool
  held : List OutPacket
  tx : List OutPacket
  limit : Nat
  progressAt : Nat
  txCount : Nat
  maskTx : Nat
  eyes : Vector (Nat × Nat) 4
deriving DecidableEq, Repr

def Link.reset : Link :=
  { stage := .train, lanes := Vector.replicate 4 LinkLane.reset, detected := 0, since := 0, fails5 := 0, only25 := false, rate5 := false, refusedAt := none,
    recovering := false, ackSent := false, ackGot := false, caps := none, capsSent := [], rxNext := 0, landed := 0, lastRx := none, failing := false, nakAt := none,
    unacked := 0, staging := 0, limitSent := 31, rxCount := 0, authFail := false, held := [], tx := [], limit := 0, progressAt := 0,
    txCount := 0, maskTx := 0, eyes := Vector.replicate 4 (0, 0) }

/-! ## Safety (R291-R312) -/

/-- A pattern of an input pair (R292). -/
inductive Pattern where
  | normal | demand | discrepant
deriving DecidableEq, Repr

/-- Safety state beside the registers: for each input pair its last three samples, newest first, with their times, how many samples in a row
channel A and channel B have read low (R291), the pattern recognised and since when it has been discrepant (R293); the copies held
for channels A and B with their arrivals (R304); the output tests: next channel, the one under
test, an output whose tests pause and when they resume (R301, R302); outputs that rise at the first display scan
(R299); whether the egress frames are in the front banks; the egress glyphs verified as last checked and in force (R300); a STATUS
frame that waits and the last one sent (R308); check-value units that wait for a sluice (R312). -/
structure Safety where
  samples : Vector (List (Nat × Bool × Bool)) 4
  lows : Vector (Nat × Nat) 4
  pattern : Vector (Option Pattern) 4
  discrepant : Vector (Option Nat) 4
  copyA : Option (Nat × List Byte)
  copyB : Option (Nat × List Byte)
  nextTest : Nat
  testing : Option Nat
  paused : Vector (Option Nat) 2
  resumeAt : Vector (Option Nat) 2
  rise : Nat
  egressShown : Bool
  checked : Bool
  verified : Bool
  reply : Option (Nat × List Byte)
  lastReply : List Byte
  chkWait : List Nat
deriving DecidableEq, Repr

def Safety.reset : Safety :=
  { samples := Vector.replicate 4 [], lows := Vector.replicate 4 (0, 0), pattern := Vector.replicate 4 none, discrepant := Vector.replicate 4 none, copyA := none, copyB := none,
    nextTest := 0, testing := none, paused := Vector.replicate 2 none, resumeAt := Vector.replicate 2 none, rise := 0, egressShown := false, checked := false,
    verified := false, reply := none, lastReply := [], chkWait := [] }

/-! ## Pairing (R314-R333) -/

/-- A twin's SLUICE record (R319). -/
structure TwinRecord where
  lock : Nat
  role : Nat
  committed : Bool
  twinLock : Bool
  resend : Bool
  scene : Nat
  slot : Nat
  digest : Nat
  offset : Nat
  f : Nat
  s : Nat
  epoch : Nat
deriving DecidableEq, Repr

/-- A sluice whose actions are not complete: the first of R29's orders still to be carried out (3 waits for the active's record, R323; 8 for
the twin's record and SEAL, R326, R331); whether it is the first since STOPPED, and whether the sequencer stops at it; the reads of the
stager that meet errors; the calibration run that closes; the highest VLED sample of the closing lock cycle; the reaches whose back banks are
complete; whether a flight ran in the lock cycle that closes, and whether it was the egress flight; FLT_FENCE.REACH as the tick began; whether the
device was in Shadow; whether the sluice has taken a commit. -/
structure SluiceWork where
  order : Nat
  first : Bool
  stopping : Bool
  errs : List (Nat × Ecc)
  cal : Option CalRun
  vled : Nat
  complete : Nat
  closing : Bool
  egress : Bool
  fences : Nat
  shadow : Bool
  committed : Bool
deriving DecidableEq, Repr

/-- What is still to be sent of the copy set (R333): the SLOTS record; n bytes from a basin address; a berth's BERTH record; its layer range
from an offset; the WHARF record; the END record. -/
inductive CopyItem where
  | slots
  | bytes (addr n : Nat)
  | berth (b : Fin 64)
  | layer (b : Fin 64) (off : Nat)
  | wharf
  | done
deriving DecidableEq, Repr

/-- Pairing state beside the registers. `work` is the present sluice while actions of it are still to be carried out.
What has come from the twin since the sluice tick: record, SEAL (whether it matched), FCRC; the last record ever; consecutive sluices
without an active twin's record, and without any record or FCRC. The mirror of the twin's map, the map as sent, entries since the
last SEAL, a whole map asked for by the twin or to be asked of it. ECHO: the last request's ID, its sluice count, the last
latencies. The frame compared: its lock number, complete reaches and CRCs; reaches that mismatched before. Lock cycles UNLOCKED in
Shadow, in VERIFY; a resynchronisation requested. The copy being received: bytes and CRC so far, the SLOTS and WHARF
records, berths named. The copy being sent: what is left of it, XFER bytes sent and their CRC. COMPAT lock cycles still dark; since when ROLE 00
has been recognised. -/
structure Peer where
  work : Option SluiceWork
  record : Option TwinRecord
  sealOk : Option Bool
  fcrc : Bool
  last : Option TwinRecord
  noRecord : Nat
  silent : Nat
  mirror : HealthMap
  sent : HealthMap
  entries : Nat
  twinAsks : Bool
  ask : Bool
  echoId : Nat
  echoAt : Option Nat
  latencies : List Nat
  ownLock : Nat
  complete : Nat
  crcs : List Nat
  before : Nat
  unlockedLc : Nat
  verifyLc : Nat
  wanted : Bool
  copyBytes : Nat
  copyCrc : Nat
  copySlots : List Byte
  copyWharf : Option (Nat × Nat)
  copyBerths : List Nat
  copyOut : List CopyItem
  outBytes : Nat
  outCrc : Nat
  compatLeft : Nat
  darkSince : Option Nat
deriving DecidableEq, Repr

def Peer.reset : Peer :=
  { work := none, record := none, sealOk := none, fcrc := false, last := none, noRecord := 2, silent := 0, mirror := [], sent := [],
    entries := 0, twinAsks := false, ask := false, echoId := 0, echoAt := none, latencies := [], ownLock := 0, complete := 0, crcs := [], before := 0,
    unlockedLc := 0, verifyLc := 0, wanted := false, copyBytes := 0, copyCrc := 0xFFFFFFFF, copySlots := [], copyWharf := none,
    copyBerths := [], copyOut := [], outBytes := 0, outCrc := 0xFFFFFFFF, compatLeft := 0, darkSince := none }


/-! ## The whole -/

/-- The SL1M. `pending` is the queue of waiting commands, oldest first; `now` device time since power-up in nanoseconds; `fresh` the
model's own counter from which free values are drawn (no state of the spec's). `regs` holds every register field as software reads
it (an SH field: its shadow value), `act` the active values of the SH fields. -/
structure State where
  pending : List Instr
  now : Nat
  fresh : Nat
  regs : RegFile
  act : RegFile
  ch : Vector Chamber 16
  mgmt : Mgmt
  seq : Seq
  bas : Basin
  reach : Vector Reach 16
  flt : Faults
  mode : Modes
  rif : Rif
  pairMap : HealthMap
  nand : Nand
  sec : Trust
  liveSince : Sparse Nat
  trim : Trim
  diag : Diag
  pnt : Painter
  cal : Calib
  thm : Thermal
  clk : Clock
  link : Vector Link 2
  saf : Safety
  peer : Peer
deriving DecidableEq, Repr

/-- Why a step stops with a fault: no command of this device does (a condition the spec describes is a fault SOURCE of the device,
recorded in State, R249). -/
inductive Fault where
deriving DecidableEq, Repr

/-- Why a step has no next state. -/
inductive Refusal where
  /-- A row of the opcode table without a meaning yet, by its mnemonic; raised by the dispatch alone. Safe. -/
  | notModelled (mnemonic : String)
deriving DecidableEq, Repr

/-- The machine right after reset: a power-up reset has ended and Boot begins (R386: mode Boot; R397: CAUSE 0). Every register holds the
reset value of its field table; stores hold zeros (R56, R130). -/
def State.reset : State :=
  { pending := [], now := 0, fresh := 0, regs := [], act := [], ch := Vector.replicate 16 Chamber.reset, mgmt := Mgmt.reset,
    seq := Seq.reset, bas := Basin.reset, reach := Vector.replicate 16 Reach.init, flt := Faults.reset,
    mode := { phase := .boot, bootEnd := 0, safeDark := false, egress := false, egressSetRun := false, quiet := false, resume := false,
              egressEnd := none, resetLow := false, badPower := false, seen := 0x11, afterglow := false, relight := 0 },
    rif := Rif.reset,
    pairMap := [],
    nand := Nand.blank,
    sec := Trust.reset,
    liveSince := [],
    trim := Trim.reset,
    diag := Diag.reset,
    pnt := { stream := [], lowSince := 0, zeroDue := false, zeroing := false, lit := false },
    cal := { queue := [], run := none, ended := [], startup := false, lastTime := 0 },
    thm := Thermal.reset,
    clk := Clock.reset,
    link := Vector.replicate 2 Link.reset,
    saf := Safety.reset,
    peer := Peer.reset }

end Sys2Proof.Machine
end

