-- ==== Sys2Proof/Machine/Ops.lean ====
section
/-!
DEFINITION. The named operations over the register file, the chambers, the basin and the modes that every meaning shares: reading
and writing a field, its active value, saturating counters, event bits; the mode in force (R387) and what follows from it (R28,
R254, R391).
-/
namespace Sys2Proof.Machine

/-! ## Register fields -/

/-- The present value of a field (an SH field: its shadow value, R412). -/
def State.rd (s : State) (f : Fld) : Nat := Sparse.get s.regs f.reset f.key

/-- A hardware or landed write of a field, cut to its width. -/
def State.put (s : State) (f : Fld) (v : Nat) : State := { s with regs := Sparse.set s.regs f.reset f.key (v % 2 ^ f.w) }

/-- The active value of an SH field (R412). -/
def State.actv (s : State) (f : Fld) : Nat := Sparse.get s.act f.reset f.key

/-- The active value of an SH field becomes v. -/
def State.putAct (s : State) (f : Fld) (v : Nat) : State := { s with act := Sparse.set s.act f.reset f.key (v % 2 ^ f.w) }

/-- A counter that saturates at its width's limit. -/
def State.inc (s : State) (f : Fld) (n : Nat := 1) : State := s.put f (satInc (s.rd f) (2 ^ f.w - 1) n)

/-- A counter modulo its width. -/
def State.incMod (s : State) (f : Fld) (n : Nat := 1) : State := s.put f (s.rd f + n)

/-- An RC event bit, or any 1-bit field, is set. -/
def State.flag (s : State) (f : Fld) : State := s.put f 1

/-- Bit i of a field. -/
def State.bitOf (s : State) (f : Fld) (i : Nat) : Bool := (s.rd f).testBit i

/-- Bit i of a field becomes b. -/
def State.putBit (s : State) (f : Fld) (i : Nat) (b : Bool) : State := s.put f (setBit (s.rd f) i b)

/-- A 1-bit field as a Bool. -/
def State.on (s : State) (f : Fld) : Bool := s.rd f != 0

/-! ## Units -/

def State.chAt (s : State) (c : ChamberId) : Chamber := s.ch[c]

def State.setCh (s : State) (c : ChamberId) (x : Chamber) : State := { s with ch := s.ch.set c x }

def State.reachAt (s : State) (r : ReachId) : Reach := s.reach[r]

def State.setReach (s : State) (r : ReachId) (x : Reach) : State := { s with reach := s.reach.set r x }

def State.berthAt (s : State) (b : Fin 64) : Berth := s.bas.berths[b]

def State.setBerth (s : State) (b : Fin 64) (x : Berth) : State := { s with bas := { s.bas with berths := s.bas.berths.set b x } }

/-! ## Berth extents and layers (R139, R140) -/

/-- A berth's extent: first byte and size in bytes. -/
def State.berthBase (s : State) (b : Nat) : Nat := s.rd (Reg.BAS_BERTH_PLACE_BASE b) * 512
def State.berthSize (s : State) (b : Nat) : Nat := s.rd (Reg.BAS_BERTH_PLACE_SIZE b) * 512

/-- The layer size of a format and resolution; `extent` for RAW (R140). -/
def layerSize (fmt res extent : Nat) : Nat :=
  let side := 1024 / 2 ^ res
  match fmt with
  | 0 => side * side
  | 1 => side * side * 3 / 2
  | 2 => side * side * 2
  | 3 => side * side * 4
  | 4 => side * side / 8
  | 5 => 8192
  | _ => extent

def State.berthLayer (s : State) (b : Nat) : Nat :=
  layerSize (s.rd (Reg.BAS_BERTH_FMT_FORMAT b)) (s.rd (Reg.BAS_BERTH_FMT_RES b)) (s.berthSize b)

def BerthState.code : BerthState → Nat
  | .free => 0
  | .host => 1
  | .ready => 2
  | .live => 3
  | .retiring => 4

/-- The chambers, reaches and berths in ascending order. -/
def all16 : List (Fin 16) := List.finRange 16
def all64 : List (Fin 64) := List.finRange 64

/-! ## Sequencer figures (R19-R26, R103) -/

/-- f_scan in hertz (R22). -/
def fScan (f sc : Nat) : Nat := f * (sc + 1) * 67584

/-- s_min (R22). -/
def sMin (f : Nat) : Nat := ceilDiv 120000000 (f * 67584) - 1

/-- s_max (R22). -/
def sMax (f : Nat) : Nat := 140000000 / (f * 67584) - 1

/-- The shortest lock cycle at F, chamber cycles: floor(10⁹ / F × 0.9995) (R24, R26). -/
def lcMin (f : Nat) : Nat := 999500000 / f

/-- The longest lock cycle at F, chamber cycles: ceil(10⁹ / F × 1.0005) (R24, R26). -/
def lcMax (f : Nat) : Nat := ceilDiv 1000500000 f

/-- The nominal lock cycle at F, chamber cycles, to the nearest cycle. -/
def lcNominal (f : Nat) : Nat := (1000000000 + f / 2) / f

/-- The lock budget (R103). -/
def lockBudget (f : Nat) : Nat := 999500000 / f - 32000

/-- F and S in force (R23). -/
def State.F (s : State) : Nat := s.rd Reg.SEQ_RATE_F_NOM
def State.S (s : State) : Nat := s.rd Reg.SEQ_RATE_S

/-- Fewer than n nominal scan ticks lie from time a to time b (R31). -/
def State.within (s : State) (a b n : Nat) : Bool := (b : Int) * fScan s.F s.S - a * fScan s.F s.S < n * 1000000000

/-- What the device holds now of what a sluice takes (R31, R32). -/
def State.takeSnap (s : State) : Snap :=
  { commit := s.on Reg.SEQ_COMMIT_COMMIT, regs := s.regs, egress := s.mode.egress, again := false, againLoad := false }

/-- A write that a sluice may take lands: while the first sluice since STOPPED is awaited, what stood before it is kept for 4 ticks, since
that sluice may yet be placed before the landing has passed its tick −4 (R31). -/
def State.landing (s : State) (commit load : Bool) : State :=
  if s.seq.first then
    let l : Landed := { time := s.now, before := s.takeSnap, commit := commit, load := load }
    { s with seq := { s.seq with recent := s.seq.recent.filter (fun x => s.within x.time s.now 4) ++ [l] } }
  else s

/-- The code of a sync state in SEQ_SYNC_STATUS.STATE. -/
def SyncState.code : SyncState → Nat
  | .stopped => 0
  | .free => 1
  | .acquire => 2
  | .locked => 3
  | .holdover => 4

/-- A change of sync state sets SEQ_EVENT.SYNC_CHANGE (R38). -/
def State.setSync (s : State) (x : SyncState) : State :=
  if s.seq.state = x then s
  else State.flag { s with seq := { s.seq with state := x } } Reg.SEQ_EVENT_SYNC_CHANGE

def State.running (s : State) : Bool := s.seq.state != .stopped

/-- A lock cycle is open: the sequencer runs and its first sluice has come. -/
def State.cycling (s : State) : Bool := s.running && !s.seq.first

/-- The present schedule cycle (R102): the chamber cycles since the sluice less those of retry stalls, or what a chamber has reached. -/
def State.schedule (s : State) : Nat :=
  s.ch.toList.foldl (fun n x => max n x.cycle) (s.now - s.seq.opened - s.seq.stallCount)

/-! ## Modes (R386, R387) -/

/-- R386. -/
inductive Mode where
  | reset | boot | provision | idle | run | shadow | egress | degraded | recalibrate | maintenance | test | safeDark
deriving DecidableEq, Repr

def Mode.code : Mode → Nat
  | .reset => 0
  | .boot => 1
  | .provision => 2
  | .idle => 3
  | .run => 4
  | .shadow => 5
  | .egress => 6
  | .degraded => 7
  | .recalibrate => 8
  | .maintenance => 9
  | .test => 10
  | .safeDark => 11

/-- The mode in force: the first row of R387 whose condition holds. -/
def State.modeOf (s : State) : Mode :=
  if s.mode.phase = .reset then .reset
  else if s.mode.phase = .boot then .boot
  else if s.mode.safeDark then .safeDark
  else if s.on Reg.PEER_CFG_PAIRED && s.running && s.rd Reg.PEER_STATUS_ROLE != 2 then .shadow
  else if s.mode.egress then .egress
  else if s.on Reg.SYS_MODE_TEST then .test
  else if s.on Reg.SYS_MODE_MAINT then .maintenance
  else if s.on Reg.SYS_MODE_PROVISION then .provision
  else if s.on Reg.SYS_MODE_DEGRADED && s.running then .degraded
  else if s.on Reg.CAL_STATUS_RUNNING && s.running then .recalibrate
  else if s.running then .run
  else .idle

/-- SYS_MODE.BASE (R387). -/
def State.baseOf (s : State) : Mode :=
  match s.modeOf with
  | .egress => if s.on Reg.SYS_MODE_DEGRADED then .degraded else .run
  | m => m

/-- MODE and BASE as one number, for the MODE event. -/
def State.modeWord (s : State) : Nat := s.baseOf.code * 16 + s.modeOf.code

/-- Boot level: BOOT_PHASE is set (R60, R349). -/
def State.bootLevel (s : State) : Bool := s.on Reg.SEC_STATUS_BOOT_PHASE

/-- The array lights: the sequencer runs, lighting is allowed in its sync state (R28), the mode lights it (R391), no compatibility
switch-over and no Safe-Dark just cleared keeps it dark (R330, R390), VLED drive is not cut (R240), and EXTEST is not selected (R362). A light that
was on when the Maintenance latch was set goes dark at the next sluice (R389). -/
def State.lights (s : State) : Bool :=
  (match s.seq.state with
   | .stopped => false
   | .free => s.on Reg.SEQ_CTRL_FREE_LIGHT
   | _ => true) &&
  (match s.modeOf with
   | .run | .egress | .degraded | .recalibrate | .test => true
   | .maintenance => s.mode.afterglow
   | _ => false) && s.mode.relight = 0 && s.peer.compatLeft = 0 && !s.on Reg.THM_STATUS_TRIP && !s.sec.extest

/-- The level of HEALTH (R254, R362, R391). -/
def State.healthHigh (s : State) : Bool :=
  (match s.modeOf with
   | .idle | .run | .shadow | .egress | .degraded | .recalibrate => true
   | _ => false) && s.flt.healthLow.isEmpty && !s.sec.extest

/-! ## The host link, as MSG packets need it (R421) -/

/-- Running: ACTIVE or DEGRADE. -/
def State.linkRunning (s : State) (l : Nat) : Bool :=
  s.rd (Reg.LNK_STATUS_STATE l) == 5 || s.rd (Reg.LNK_STATUS_STATE l) == 6

/-- A MSG packet is queued while the host link runs, and dropped otherwise (R421). -/
def State.sendMsg (s : State) (code arg : Nat) (payload : List Byte) : State :=
  if s.linkRunning 0 then
    let m : Msg := { code := code, arg := arg, payload := payload }
    State.inc { s with rif := { s.rif with msgs := s.rif.msgs ++ [m] } } Reg.RIF_MSG_COUNT_COUNT
  else s

/-! ## Free values -/

/-- The next draw of a free value: the counter moves on. -/
def State.draw (s : State) : State := { s with fresh := s.fresh + 1 }

/-! ## Lists as sets -/

/-- Insertion into an ascending list without repeats. -/
def insertSet (x : Nat) : List Nat → List Nat
  | [] => [x]
  | y :: ys => if x = y then y :: ys else if x < y then x :: y :: ys else y :: insertSet x ys

end Sys2Proof.Machine
end

