-- ==== Sys2Proof/Machine/Post.lean ====
section
/-!
DEFINITION. The basin as bytes (R128, R136), runs of bytes moved between memories, and the posting of a wharf completion (R421-R424),
which a block reset makes as well as the commands themselves (R252).
-/
namespace Sys2Proof

/-! ## The two ring pairs (R422) -/

/-- The number of a pair in the WHF_ registers. -/
def Pair.num : Pair → Nat
  | .openPair => 0
  | .session => 1

/-- Entries of each ring of a pair (R422). -/
def Pair.slots : Pair → Nat
  | .openPair => 16
  | .session => 256

def Pair.cmdRing : Pair → Nat
  | .openPair => 0x1E00000
  | .session => 0x1E04000

def Pair.cplRing : Pair → Nat
  | .openPair => 0x1E00400
  | .session => 0x1E08000

def Pair.dataArea : Pair → Nat
  | .openPair => 0x1E00800
  | .session => 0x1E0A000

def Pair.dataLen : Pair → Nat
  | .openPair => 14336
  | .session => 221184

end Sys2Proof

namespace Sys2Proof.Machine

/-! ## Runs of bytes -/

/-- The n bytes from address lo, rebased to 0. -/
def Memory.slice (m : Memory) (lo n : Nat) : Memory :=
  (m.filter (fun c => decide (lo ≤ c.1 ∧ c.1 < lo + n))).map (fun c => (c.1 - lo, c.2))

/-- The cells of a list that have rising addresses from lo to hi - 1 and are not 0: those that a canonical list may hold there. -/
def Memory.canon (lo hi : Nat) : Memory → Memory
  | [] => []
  | c :: r => if lo ≤ c.1 ∧ c.1 < hi ∧ c.2 ≠ 0#8 then c :: Memory.canon (c.1 + 1) hi r else Memory.canon lo hi r

/-- The n bytes from address lo become the cells given (addresses below n). -/
def Memory.splice (m : Memory) (lo n : Nat) (cells : Memory) : Memory :=
  m.filter (fun c => decide (c.1 < lo)) ++ Memory.canon lo (lo + n) (cells.map (fun c => (c.1 + lo, c.2))) ++
  m.filter (fun c => decide (lo + n ≤ c.1))

/-- The cells of a list of bytes from address i. -/
def cellsFrom (i : Nat) : List Byte → Memory
  | [] => []
  | b :: bs => if b = 0#8 then cellsFrom (i + 1) bs else (i, b) :: cellsFrom (i + 1) bs

def Blob.empty : Blob := { len := 0, cells := [] }

def Blob.ofBytes (bs : List Byte) : Blob := { len := bs.length, cells := cellsFrom 0 bs }

/-- The byte at offset i. -/
def Blob.byte (b : Blob) (i : Nat) : Byte := b.cells.byte i

/-- n bytes from offset i. -/
def Blob.bytes (b : Blob) (i n : Nat) : List Byte := b.cells.readBytes i n

/-- The little-endian number in n bytes from offset i. -/
def Blob.le (b : Blob) (i n : Nat) : Nat := b.cells.readLE i n

/-- Every byte of a range is 0. -/
def Blob.zeros (b : Blob) (lo hi : Nat) : Bool := b.cells.all (fun c => decide (c.1 < lo ∨ hi ≤ c.1))

/-- The first n bytes. -/
def Blob.take (b : Blob) (n : Nat) : Blob := { len := min n b.len, cells := b.cells.slice 0 n }

/-! ## The basin (R128, R134, R136) -/

/-- The byte at a basin address; a fenced line reads zeros (R136). -/
def Basin.byte (b : Basin) (a : Nat) : Byte := if b.fenced.contains (a / 512) then 0#8 else b.mem.byte a

/-- A write of one byte; one to a fenced line is discarded (R136). -/
def Basin.setByte (b : Basin) (a : Nat) (v : Byte) : Basin :=
  if b.fenced.contains (a / 512) then b else { b with mem := b.mem.setByte a v }

/-- n bytes from address a. -/
def Basin.bytes (b : Basin) (a n : Nat) : List Byte := (List.range n).map (fun i => b.byte (a + i))

/-- Bytes from address a upward. -/
def Basin.write (b : Basin) (a : Nat) : List Byte → Basin
  | [] => b
  | v :: vs => Basin.write (b.setByte a v) (a + 1) vs

/-- The n bytes from address lo as stored bytes. -/
def Basin.blob (b : Basin) (lo n : Nat) : Blob :=
  { len := n, cells := Memory.slice (b.mem.filter (fun c => !(b.fenced.contains (c.1 / 512)))) lo n }

/-- The n bytes from address lo become the cells given; those on a fenced line are discarded. -/
def Basin.fill (b : Basin) (lo n : Nat) (cells : Memory) : Basin :=
  { b with mem := b.mem.splice lo n (cells.filter (fun c => !(b.fenced.contains ((c.1 + lo) / 512)))) }

def State.basWrite (s : State) (a : Nat) (vs : List Byte) : State := { s with bas := s.bas.write a vs }

def State.basFill (s : State) (lo n : Nat) (cells : Memory) : State := { s with bas := s.bas.fill lo n cells }

/-! ## Completions (R423, R424) -/

/-- A pair is executing a command. -/
def State.pairBusy (s : State) (p : Pair) : Bool := s.on (Reg.WHF_STATUS_BUSY p.num)

/-- The bytes of a completion entry (R423). -/
def cplEntry (seq opcode status detail length : Nat) (result : List Byte) : List Byte :=
  leBytes seq 4 ++ leBytes opcode 2 ++ leBytes status 1 ++ [0#8] ++ leBytes detail 4 ++ leBytes length 4 ++
  (result ++ List.replicate 16 0#8).take 16

/-- The completion of the command that a pair is executing (R424): the entry, the counters, the event and the message. -/
def State.complete (s : State) (p : Pair) (status detail length : Nat) (result : List Byte) : State :=
  let q := s.rd (Reg.WHF_EXEC_SEQ p.num)
  let entry := cplEntry q (s.rd (Reg.WHF_STATUS_OPCODE p.num)) status detail length result
  let s := s.basWrite (p.cplRing + q % p.slots * 32) entry
  let s := (s.incMod (Reg.WHF_CPL_NEXT_SEQ p.num)).put (Reg.WHF_STATUS_BUSY p.num) 0
  let s := s.put (Reg.WHF_STATUS_LAST_STATUS p.num) status
  let s := if status = 0 ∨ status = 6 then s else s.inc (Reg.WHF_FAILED_COUNT p.num)
  let s := if status = 9 then s.flag Reg.WHF_EVENT_SEQUENCE else s
  let s := match p with
    | .openPair => s.flag Reg.WHF_EVENT_CPL_OPEN
    | .session => s.flag Reg.WHF_EVENT_CPL_SESSION
  if s.on Reg.RIF_INT_CTRL_MSG_CPL then s.sendMsg 3 (p.num * 32768 + q % 32768) entry else s

/-- A completion that carries only its status. -/
def State.status (s : State) (p : Pair) (code : Nat) : State := s.complete p code 0 0 []

/-! ## Ends of sessions (R358), and of NAND work (R374, R383) -/

/-- The host session ends: its keys go, and LNK_EVENT.SESSION_END is set. -/
def State.endHost (s : State) : State :=
  if s.sec.host.isNone then s
  else
    let s := { s with sec := { s.sec with host := none, hostKey := [] } }
    ((s.put Reg.SEC_STATUS_HOST_SESSION 0).put (Reg.LNK_STATUS_SESSION 0) 0).flag (Reg.LNK_EVENT_SESSION_END 0)

/-- The peer session ends; the next one's COUNT begins at 0. -/
def State.endPeer (s : State) : State :=
  if s.sec.peer.isNone then s
  else
    let s := { s with sec := { s.sec with peer := none }, link := s.link.set 1 { s.link[1] with rxCount := 0 } }
    ((s.put Reg.SEC_STATUS_PEER_SESSION 0).put (Reg.LNK_STATUS_SESSION 1) 0).flag (Reg.LNK_EVENT_SESSION_END 1)

/-- The wharf opcodes that the NAND controller serves. -/
def nandServed (op : Nat) : Bool := [0x25, 0x30, 0x41, 0x43, 0x50, 0x52, 0x53, 0x54, 0x55].contains op

/-- The writes in progress are lost as at a power loss: each file stays at its committed version, and the blocks they had taken will be
erased (R374, R383). -/
def Nand.powerLoss (n : Nand) : Nand :=
  { n with
    erasing := n.erasing ++ n.jobs.flatMap (fun j => j.blocks)
    torn := n.torn || n.jobs.any (fun j => !j.blocks.isEmpty)
    jobs := []
    ckptPairs := []
    underway := false }

/-- After a chip reset the block table is that of the newest snapshot with the journal pages after it: the read counts are the snapshot's (R374). -/
def Nand.readsAfterReset (n : Nand) : Nand :=
  { n with blocks := n.blocks.foldl (fun m c => Sparse.set m NBlock.fresh c.1 { c.2 with reads := c.2.kept }) [] }

/-- A command of the block's that a pair is executing completes with a reset status (R252). -/
def State.resetCommands (s : State) (served : Nat → Bool) : State :=
  [Pair.openPair, Pair.session].foldl
    (fun s p => if s.pairBusy p && served (s.rd (Reg.WHF_STATUS_OPCODE p.num)) then s.status p 4 else s) s

end Sys2Proof.Machine
end

