-- ==== Sys2Proof/Machine/Flags.lean ====
section
/-!
DEFINITION. The fault collector's work, which every meaning shares: raising a source (R249-R251), its reaction (R252-R257), state
sources rising and falling (R247, R250), and the summary bits of the event registers (R419).
-/
namespace Sys2Proof.Machine

/-- The sticky bit and, below, the force bit of a source. -/
def State.sticky (s : State) (n : Nat) : Bool := s.bitOf (Reg.FLT_STICKY_STICKY (n / 32)) (n % 32)
/-- The live bit of a source. Those of FS032 and FS042 follow the state of their links, from chip reset on (R250, R270). -/
def State.live (s : State) (n : Nat) : Bool :=
  s.bitOf (Reg.FLT_LIVE_LIVE (n / 32)) (n % 32) || (n == 32 && !s.linkRunning 0) || (n == 42 && !s.linkRunning 1)
def State.forced (s : State) (n : Nat) : Bool := s.bitOf (Reg.FLT_FORCE_FORCE (n / 32)) (n % 32)
def State.setLive (s : State) (n : Nat) (b : Bool) : State := s.putBit (Reg.FLT_LIVE_LIVE (n / 32)) (n % 32) b

/-- The severity FLT_SEV holds for a source (R246). -/
def State.sev (s : State) (n : Nat) : Nat := s.rd (Reg.FLT_SEV_SEV (n / 16)) / 4 ^ (n % 16) % 4

/-- The sources whose sticky bit is set, ascending. -/
def State.stickies (s : State) : List Nat := (List.range 192).filter s.sticky

/-- FLT_TOP: PENDING, the highest severity among the sticky sources, and the lowest-numbered source at it (R251). -/
def State.fltTop (s : State) : Nat :=
  match s.stickies with
  | [] => 0
  | l =>
    let top := l.foldl (fun m n => max m (s.sev n)) 0
    2 ^ 31 + top * 256 + ((l.find? (fun n => s.sev n == top)).getD 0)

/-- The block that a BR reaction of source n resets (R252). -/
def blockOf (n : Nat) : Option Block :=
  if 8 ≤ n ∧ n ≤ 21 then some .security
  else if 42 ≤ n ∧ n ≤ 45 then some .peerLink
  else if 32 ≤ n ∧ n ≤ 47 then some .hostLink
  else if 64 ≤ n ∧ n ≤ 95 then some .safety
  else if 160 ≤ n ∧ n ≤ 169 then some .nand
  else if 170 ≤ n ∧ n ≤ 176 then some .pairing
  else if 180 ≤ n ∧ n ≤ 186 then some .crc
  else none

/-- The wharf opcodes that the security engine serves. -/
def securityServed (op : Nat) : Bool := (1 ≤ op && op ≤ 0x25) || op = 0x30 || op = 0x31

/-- The wharf opcodes that a block serves (R252, R426): RESYNC is the pairing block's. -/
def blockServes (b : Block) (op : Nat) : Bool :=
  match b with
  | .security => securityServed op
  | .nand => nandServed op
  | .pairing => op = 0x61
  | _ => false

/-- What a block reset does at once: a link goes to DISABLED; the security engine clears K2 to K5, which ends both sessions (R341, R358);
the NAND controller loses the write in progress (R383). Commands being executed complete with a reset status. -/
def State.blockClear (s : State) (b : Block) : State :=
  match b with
  | .hostLink => (s.put (Reg.LNK_STATUS_STATE 0) 0).flag (Reg.LNK_EVENT_STATE 0)
  | .peerLink => (s.put (Reg.LNK_STATUS_STATE 1) 0).flag (Reg.LNK_EVENT_STATE 1)
  | .security =>
    let s := s.endHost.endPeer
    State.resetCommands { s with sec := { s.sec with hostHs := none, peerHs := none, peerKeys := none } } (blockServes b)
  | .nand => State.resetCommands ({ s with nand := s.nand.powerLoss }.put Reg.NFC_STATUS_CKPT_BUSY 0) (blockServes b)
  | _ => s.resetCommands (blockServes b)

/-- A block enters reset; a reset in progress is not restarted (R257). -/
def State.blockReset (s : State) (b : Block) : State :=
  if s.flt.inReset.contains b then s
  else State.blockClear { s with flt := { s.flt with inReset := s.flt.inReset ++ [b] } } b

/-- A chip reset is requested by source n; of several, the lowest-numbered stays (R253). -/
def State.requestReset (s : State) (n : Nat) : State :=
  { s with flt := { s.flt with crReq := some (match s.flt.crReq with | none => n | some m => min m n) } }

/-- An NMI to the cores: pending, one deep (R64). -/
def State.issueNmi (s : State) : State := { s with mgmt := { s.mgmt with nmiPending := true } }

/-- An NMI that has not been acknowledged is active or pending: CW_NMI_ACK acknowledges the one in progress (R62, R257). -/
def State.nmiOpen (s : State) : Bool := s.mgmt.nmiPending || (s.mgmt.nmiActive && !s.mgmt.nmiAcked)

/-- A maskable interrupt to the cores (R63, R252). -/
def State.issueInt (s : State) : State := { s with mgmt := { s.mgmt with intPending := true } }

/-- The source and locus were raised in the lock cycle before (R255). -/
def State.raisedBefore (s : State) (n : Nat) (locus : Option Nat) : Bool := s.flt.before.contains (n, locus)

/-- A raise of a light-class source is lasting (R255). -/
def State.lastingRaise (s : State) (n : Nat) (locus : Option Nat) : Bool :=
  [114, 129, 137, 138].contains n || s.raisedBefore n locus

/-- A chamber fence: the chamber stops, its barges are cancelled, and its bits of FLT_FENCE are set (R255). -/
def State.fenceChamber (s : State) (c : Nat) : State :=
  let s := (s.putBit Reg.FLT_FENCE_CHAMBER c true).putBit Reg.FLT_FENCE_REACH c true
  if h : c < 16 then
    let x := s.chAt ⟨c, h⟩
    s.setCh ⟨c, h⟩ { x with running := false, halted := true, barges := [], tags := [] }
  else s

/-- The light-class reaction of R255 on a locus. -/
def State.lightReaction (s : State) (n : Nat) (locus : Option Nat) : State :=
  let lasting := s.lastingRaise n locus
  let s := if s.on (Reg.FLT_REACT_INT n) then s.issueInt else s
  if lasting then
    let s := if s.on (Reg.FLT_REACT_DEGRADE n) then { s with flt := { s.flt with degrade := true } } else s
    match s.rd (Reg.FLT_REACT_LEVEL n), locus with
    | 0, _ => s
    | _, none => s
    | 1, some k => s.putBit Reg.FLT_FENCE_REACH k true
    | _, some k => if Src.chamberLocus n then s.fenceChamber k else s.putBit Reg.FLT_FENCE_REACH k true
  else s

/-- HEALTH is driven low for source n (R254). -/
def State.dropHealth (s : State) (n : Nat) : State :=
  { s with flt := { s.flt with healthLow := insertSet n s.flt.healthLow } }

/-- The control-class reaction of R252: every selected action, but that the reset of the source's block stands over its interrupt (R257;
DEDUCED: of two selected actions of one raise as of two raises). -/
def State.controlReaction (s : State) (n : Nat) : State :=
  let resets := s.on (Reg.FLT_REACT_BR n) && (blockOf n).isSome
  let s := if s.on (Reg.FLT_REACT_INT n) && !resets then s.issueInt else s
  let s := if s.on (Reg.FLT_REACT_NMI n) then s.issueNmi else s
  let s := if s.on (Reg.FLT_REACT_BR n) then
      (match blockOf n with
       | some b => s.blockReset b
       | none => s) else s
  let s := if s.on (Reg.FLT_REACT_HD n) then s.dropHealth n else s
  if s.on (Reg.FLT_REACT_CR n) then s.requestReset n else s

/-- The escalation timer starts on a severity-3 raise with an unacknowledged NMI active or pending (R257). -/
def State.escalate (s : State) (n : Nat) : State :=
  if s.sev n == 3 && s.nmiOpen && s.flt.escalateAt.isNone then
    (State.put { s with flt := { s.flt with escalateAt := some s.now } } Reg.FLT_NMI_TIMING 1).put Reg.FLT_NMI_SOURCE n
  else s

/-- The signalling of R251: RIF_INT_STATUS bit 13 and the FAULT message. -/
def State.signalFault (s : State) (n : Nat) : State :=
  if s.rd Reg.FLT_CTRL_HOST_SEV ≤ s.sev n then
    let s := s.flag Reg.RIF_INT_STATUS_FAULT
    if s.on Reg.RIF_INT_CTRL_MSG_FAULT then s.sendMsg 2 n (leBytes s.fltTop 4) else s
  else s

/-- The record every raise makes: sticky bit, COUNT, and the raise history of this lock cycle (R249, R255). -/
def State.recordRaise (s : State) (n : Nat) (locus : Option Nat) : State :=
  let s := (s.putBit (Reg.FLT_STICKY_STICKY (n / 32)) (n % 32) true).inc (Reg.FLT_REACT_COUNT n)
  { s with flt := { s.flt with raised := (n, locus) :: s.flt.raised } }

/-- The raise of source n at a locus, forced or real: record, signal, start the escalation timer if its conditions hold before the
reaction, and react (R249, R251, R257). -/
def State.raiseAt (s : State) (n : Nat) (locus : Option Nat) : State :=
  let s := ((s.recordRaise n locus).signalFault n).escalate n
  if Src.light n then s.lightReaction n locus else s.controlReaction n

/-- A real raise: the live bit is set as well, and the time noted (R250). -/
def State.raise (s : State) (n : Nat) (locus : Option Nat := none) : State :=
  let s := s.setLive n true
  State.raiseAt { s with flt := { s.flt with lastRaise := Sparse.set s.flt.lastRaise 0 n s.now } } n locus

/-- A real raise at an instant named by a number: a second occurrence of the source at the same locus and instant counts as the same raise
(R249). -/
def State.raiseOnce (s : State) (n : Nat) (locus : Option Nat) (instant : Nat) : State :=
  if s.flt.instants.contains (n, locus, instant) then s
  else
    let keep := s.flt.instants.filter (fun x => !(x.1 == n && x.2.1 == locus))
    State.raise { s with flt := { s.flt with instants := (n, locus, instant) :: keep } } n locus

/-- A state source takes the value b: a raise at its onset, its live bit falling at its end (R247, R249, R250). -/
def State.condition (s : State) (n : Nat) (b : Bool) (locus : Option Nat := none) : State :=
  if b then (if s.live n then s else s.raise n locus) else s.setLive n false

/-! ## Discarded register accesses (R404, R405, R409, RIF_DISCARD) -/

/-- The fault source of a discard cause: narrow, misaligned, quiet, unlisted, lock, force refused. -/
def discardSource (cause : Nat) : Nat :=
  match cause with
  | 0 => 182
  | 1 => 183
  | 2 => 184
  | 3 => 185
  | 4 => 181
  | _ => 186

def requesterCode : Requester → Nat
  | .host => 0
  | .mgmt => 1
  | .debug => 2

/-- One or more causes refused an access or parts of it: each is counted and raises its source; RIF_DISCARD takes the access with the
lowest-numbered cause (R409). -/
def State.discard (s : State) (who : Requester) (write : Bool) (addr : Nat) (causes : List Nat) : State :=
  match causes with
  | [] => s
  | c :: cs =>
    let s := (c :: cs).foldl (fun s k => (s.inc (Reg.RIF_DISCARD_COUNT_COUNT k)).raise (discardSource k)) s
    let s := (s.flag Reg.RIF_DISCARD_VALID).put Reg.RIF_DISCARD_CAUSE (cs.foldl min c)
    ((s.put Reg.RIF_DISCARD_REQUESTER (requesterCode who)).put Reg.RIF_DISCARD_WRITE (b2n write)).put Reg.RIF_DISCARD_ADDR_ADDR addr

/-! ## Summary bits (R419) -/

/-- An event register ANDed with its enable register is not zero. -/
def State.anyEvent (s : State) (events : List Fld) (en : Fld) : Bool :=
  events.any (fun f => s.on f && s.bitOf en f.lo)

/-- Summary bit i of R419; bit 13 is RIF_INT_STATUS's own RC bit. -/
def State.summaryBit (s : State) (i : Nat) : Bool :=
  match i with
  | 0 => s.anyEvent [Reg.SYS_MODE_EVENT_MODE, Reg.SYS_MODE_EVENT_REFUSED, Reg.SYS_MODE_EVENT_SERVICE] Reg.SYS_MODE_EVENT_EN_EN
  | 1 => s.anyEvent [Reg.SEQ_EVENT_SLUICE, Reg.SEQ_EVENT_COMMIT_TAKEN, Reg.SEQ_EVENT_SYNC_CHANGE] Reg.SEQ_EVENT_EN_EN
  | 2 => s.anyEvent [Reg.BAS_EVENT_BERTH_FREED, Reg.BAS_EVENT_REFUSED, Reg.BAS_EVENT_LASTING] Reg.BAS_EVENT_EN_EN
  | 3 => s.anyEvent [Reg.GLY_EVENT_STAGED, Reg.GLY_EVENT_LIB_DONE, Reg.GLY_EVENT_DAMAGED] Reg.GLY_EVENT_EN_EN
  | 4 => s.anyEvent [Reg.WEIR_EVENT_LOWERED, Reg.WEIR_EVENT_RAISED, Reg.WEIR_EVENT_MODEL] Reg.WEIR_EVENT_EN_EN
  | 5 => s.anyEvent [Reg.DIAG_EVENT_SWEEP, Reg.DIAG_EVENT_TRANSIENT, Reg.DIAG_EVENT_LASTING, Reg.DIAG_EVENT_ROW_EVENT] Reg.DIAG_EVENT_EN_EN
  | 6 => s.anyEvent [Reg.CAL_EVENT_DONE, Reg.CAL_EVENT_ABORT] Reg.CAL_EVENT_EN_EN
  | 7 => s.anyEvent [Reg.THM_EVENT_THROTTLED, Reg.THM_EVENT_RELAXED, Reg.THM_EVENT_BAND, Reg.THM_EVENT_SENSOR] Reg.THM_EVENT_EN_EN
  | 8 => [0, 1].any (fun l => s.anyEvent
      [Reg.LNK_EVENT_STATE l, Reg.LNK_EVENT_LANE l, Reg.LNK_EVENT_REPLAY_LIMIT l, Reg.LNK_EVENT_SESSION_END l] (Reg.LNK_EVENT_EN_EN l))
  | 9 => s.anyEvent [Reg.PEER_EVENT_ROLE, Reg.PEER_EVENT_LOCK, Reg.PEER_EVENT_MISMATCH, Reg.PEER_EVENT_RESYNC] Reg.PEER_EVENT_EN_EN
  | 10 => s.anyEvent [Reg.SAF_EVENT_DEMAND, Reg.SAF_EVENT_EGRESS, Reg.SAF_EVENT_TG_REJECT, Reg.SAF_EVENT_OUT_FAIL, Reg.SAF_EVENT_CHK] Reg.SAF_EVENT_EN_EN
  | 11 => s.anyEvent [Reg.SEC_EVENT_SESSION, Reg.SEC_EVENT_PROVISION, Reg.SEC_EVENT_DEBUG, Reg.SEC_EVENT_ENTROPY] Reg.SEC_EVENT_EN_EN
  | 12 => s.anyEvent [Reg.NFC_EVENT_CHECKPOINT, Reg.NFC_EVENT_PASS, Reg.NFC_EVENT_RETIRED, Reg.NFC_EVENT_SPARE_LOW] Reg.NFC_EVENT_EN_EN
  | 13 => s.on Reg.RIF_INT_STATUS_FAULT
  | 14 => s.anyEvent [Reg.WHF_EVENT_CPL_OPEN, Reg.WHF_EVENT_CPL_SESSION, Reg.WHF_EVENT_TELEM, Reg.WHF_EVENT_SEQUENCE] Reg.WHF_EVENT_EN_EN
  | 15 => s.anyEvent [Reg.PNT_EVENT_SENT, Reg.PNT_EVENT_SKIPPED, Reg.PNT_EVENT_BERTH] Reg.PNT_EVENT_EN_EN
  | _ => false

/-- RIF_INT_STATUS (R419). -/
def State.summary (s : State) : Nat :=
  (List.range 16).foldl (fun acc i => if s.summaryBit i then acc + 2 ^ i else acc) 0

/-- INT_N is driven low (R420): released in Reset and in Boot. -/
def State.intLow (s : State) : Bool :=
  s.mode.phase == .running && s.on Reg.RIF_INT_CTRL_INT_EN && (s.summary &&& s.rd Reg.RIF_INT_EN_BITS) != 0

end Sys2Proof.Machine
end

