-- ==== Sys2Proof/Machine/LinkTx.lean ====
section
/-!
DEFINITION. The sending side of the links (R275, R278-R281): packet headers, encryption, numbering, the 64 KiB replay buffer, and the pump
that moves waiting packets into it and sends what the partner's LIMIT permits. It runs whenever the device settles.
-/
namespace Sys2Proof

/-- The number of a link in the LNK_ registers (R290). -/
def LinkId.num : LinkId → Nat
  | .host => 0
  | .peer => 1

/-- The lanes of the full width (R264, R270). -/
def LinkId.full : LinkId → Nat
  | .host => 15
  | .peer => 3

/-- The two links as an index. -/
def LinkId.idx : LinkId → Fin 2
  | .host => 0
  | .peer => 1

/-- The source a link raises where the host link raises FS n (R289). -/
def LinkId.source (l : LinkId) (n : Nat) : Nat :=
  match l with
  | .host => n
  | .peer =>
    if n = 32 then 42
    else if n = 33 ∨ n = 46 then 43
    else if n = 35 then 45
    else if n = 48 then 52
    else if n = 49 then 53
    else 44

namespace Machine

def State.linkAt (s : State) (l : LinkId) : Link := s.link[l.idx]

def State.setLink (s : State) (l : LinkId) (x : Link) : State := { s with link := s.link.set l.idx x }

/-- ACTIVE or DEGRADE (R270). -/
def State.linkUp (s : State) (l : LinkId) : Bool := s.linkRunning l.num

/-- The keys of the session on a link. -/
def State.sessionOf (s : State) (l : LinkId) : Option SessKeys :=
  match l with
  | .host => s.sec.host
  | .peer => s.sec.peer

/-- The session on a link ends. -/
def State.endSession (s : State) (l : LinkId) : State :=
  match l with
  | .host => s.endHost
  | .peer => s.endPeer

/-! ## Packets (R275, R276, R278) -/

/-- The 8 header bytes (R275): bytes 2-3 and ADDR least significant byte first (R266). -/
def packetHeader (type seq : Nat) (enc : Bool) (status : Nat) (prev : Bool) (len addr : Nat) : List Byte :=
  [BitVec.ofNat 8 (type * 16 + seq / 256), BitVec.ofNat 8 seq] ++
  leBytes (b2n enc * 32768 + status * 4096 + b2n prev * 2048 + len) 2 ++ leBytes addr 4

def OutPacket.header (p : OutPacket) : List Byte := packetHeader p.type p.seq p.enc p.status p.prev p.len p.addr

/-- What a packet takes of the replay buffer: header, payload, tag and CRC. -/
def OutPacket.size (p : OutPacket) : Nat := 8 + p.payload.length + p.tag.length + 4

/-- A packet that waits to be numbered. -/
def OutPacket.plain (type status len addr : Nat) (payload : List Byte) : OutPacket :=
  { type := type, enc := false, status := status, prev := false, len := len, addr := addr, payload := payload, tag := [], seq := 0,
    sends := 0 }

/-- The IV of a packet: the salt, then COUNT as a u64, most significant byte first (R278). -/
def gcmNonce (salt : List Byte) (count : Nat) : List Byte := salt ++ (leBytes count 8).reverse

/-- Bytes XORed with the key stream. -/
def gcmCrypt (key nonce bs : List Byte) : List Byte := List.zipWith (· ^^^ ·) bs (Config.gcmStream key nonce bs.length)

/-- The tag of an encrypted packet under its header. -/
def OutPacket.seal_ (p : OutPacket) (k : SessKeys) (count : Nat) : OutPacket :=
  { p with tag := Config.gcmTag k.outKey (gcmNonce k.outSalt count) p.header p.payload }

/-- The bytes of a replay buffer. -/
def Link.txBytes (x : Link) : Nat := x.tx.foldl (fun n p => n + p.size) 0

/-- The 64 KiB of the replay buffer (R281). -/
def replayBytes : Nat := 65536

/-- A waiting packet enters the replay buffer: it is numbered and, while a session exists, encrypted; a completion that enters frees its
request's staging buffer (R280). -/
def State.numberPacket (s : State) (l : LinkId) (p : OutPacket) : State :=
  let x := s.linkAt l
  let q := s.rd (Reg.LNK_SEQ_TX_NEXT l.num)
  let s := s.put (Reg.LNK_SEQ_TX_NEXT l.num) (q + 1)
  let staging := if p.type = 3 then x.staging - 1 else x.staging
  match s.sessionOf l with
  | none => s.setLink l { x with tx := x.tx ++ [{ p with seq := q }], staging := staging }
  | some k =>
    let c : OutPacket := { p with seq := q, enc := true, payload := gcmCrypt k.outKey (gcmNonce k.outSalt x.txCount) p.payload }
    s.setLink l { x with tx := x.tx ++ [c.seal_ k x.txCount], staging := staging, txCount := x.txCount + 1 }

/-- Waiting packets enter the replay buffer in order, while it has room and fewer than 2,047 packets are unacknowledged. -/
def State.fillReplay (s : State) (l : LinkId) : List OutPacket → State
  | [] => s.setLink l { s.linkAt l with held := [] }
  | p :: ps =>
    let x := s.linkAt l
    if x.tx.length < 2047 ∧ x.txBytes + p.size + 16 ≤ replayBytes then State.fillReplay (s.numberPacket l p) l ps
    else s.setLink l { x with held := p :: ps }

/-- Sequence q may be sent under a LIMIT (R280). -/
def mayTransmit (limit q : Nat) : Bool := decide ((limit + 4096 - q) % 4096 < 2048)

/-- Packets not yet sent go out in order, as far as LIMIT permits. -/
def sendUnsent (limit : Nat) : List OutPacket → List OutPacket
  | [] => []
  | p :: ps =>
    if 0 < p.sends then p :: sendUnsent limit ps
    else if mayTransmit limit p.seq then { p with sends := 1 } :: sendUnsent limit ps
    else p :: ps

/-- MSG packets queued become waiting packets of the host link (R421). -/
def State.takeMsgs (s : State) : State :=
  if s.rif.msgs.isEmpty then s
  else
    let x := s.linkAt .host
    let ps := s.rif.msgs.map (fun m => OutPacket.plain 4 0 m.payload.length (m.code * 65536 + m.arg) m.payload)
    State.setLink { s with rif := { s.rif with msgs := [] } } .host { x with held := x.held ++ ps }

/-- One link's sending, while it runs. -/
def State.pumpLink (s : State) (l : LinkId) : State :=
  if !s.linkUp l then s
  else
    let s := if (s.linkAt l).held.isEmpty then s else s.fillReplay l (s.linkAt l).held
    let x := s.linkAt l
    let tx := sendUnsent x.limit x.tx
    if tx = x.tx then s
    else
      let first := match x.tx with
        | p :: _ => p.sends == 0
        | [] => false
      s.setLink l { x with tx := tx, progressAt := if first then s.now else x.progressAt }

/-- The links send what waits. -/
def State.pump (s : State) : State := (s.takeMsgs.pumpLink .host).pumpLink .peer

/-- A packet to the partner waits for the pump. -/
def State.post (s : State) (l : LinkId) (p : OutPacket) : State :=
  let x := s.linkAt l
  s.setLink l { x with held := x.held ++ [p] }

/-- The completion of a request (R283): the request's sequence and its data. -/
def State.postCpl (s : State) (seq status len : Nat) (data : List Byte) : State :=
  s.post .host (OutPacket.plain 3 status len seq data)

/-- Twin lock is lost: UNLOCKED, FS176, and the run of matches restarts (R328). -/
def State.loseTwinLock (s : State) : State :=
  if s.on Reg.PEER_STATUS_TWIN_LOCK then
    (((s.put Reg.PEER_STATUS_TWIN_LOCK 0).put Reg.PEER_STATUS_MATCH_RUN 0).flag Reg.PEER_EVENT_LOCK).condition 176 true
  else s

/-- A link that a block reset has taken to DISABLED is down: FS032 or FS042 (R252, R270). A peer link that does not run ends twin lock
(R328). -/
def State.noteLinks (s : State) : State :=
  let s := if s.flt.inReset.contains .hostLink && !s.bitOf (Reg.FLT_LIVE_LIVE 1) 0 then s.raise 32 else s
  let s := if s.flt.inReset.contains .peerLink && !s.bitOf (Reg.FLT_LIVE_LIVE 1) 10 then s.raise 42 else s
  if s.linkUp .peer then s else s.loseTwinLock

end Machine
end Sys2Proof
end

