-- ==== Sys2Proof/Machine/Copy.lean ====
section
/-!
DEFINITION. The peer session, and the sending of the copy set of a resynchronisation (R318, R332, R333): item by item, as the peer link has
room, whenever the device settles.
-/
namespace Sys2Proof.Machine

def State.setPeer (s : State) (p : Peer) : State := { s with peer := p }

/-- A peer session over a running peer link (R318). -/
def State.peerSession (s : State) : Bool := s.linkUp .peer && s.sec.peer.isSome

/-- A record to the twin; sent only while a peer session exists. -/
def State.postPeer (s : State) (type : Nat) (payload : List Byte) : State :=
  if s.peerSession then s.post .peer (OutPacket.plain type 0 payload.length 0 payload) else s

/-- A berth in a state that the copy set takes in (R333). -/
def BerthState.copied (x : BerthState) : Bool := x == .ready || x == .live || x == .retiring

/-- The copy set (R333): the moorings and the glyph cache stand next to each other in the basin (R131). -/
def State.copySet (s : State) : List CopyItem :=
  [.slots, .bytes 0x1000000 0xE00000] ++ (all64.filter (fun b => (s.berthAt b).state.copied)).flatMap (fun b => [.berth b, .layer b 0]) ++
  [.wharf, .done]

/-- An XCTL record of a kind, its bytes from byte 4 on; the rest is 0 (R333). -/
def State.sendXctl (s : State) (kind : Nat) (body : List Byte) : State :=
  s.postPeer 2 (leBytes kind 4 ++ body ++ List.replicate (28 - body.length) 0#8)

/-- XFER: n bytes of the basin from address a (R318, R333). -/
def State.sendXfer (s : State) (a n : Nat) : State :=
  let data := s.bas.bytes a n
  let s := s.setPeer { s.peer with outBytes := s.peer.outBytes + n, outCrc := crc32cMore s.peer.outCrc data }
  s.post .peer (OutPacket.plain 1 0 n a data)

/-- The record of a berth: BASE, SIZE, FORMAT, RES, STATE, HOME and covered units. -/
def State.berthRecord (s : State) (b : Fin 64) : List Byte :=
  leBytes b 2 ++ leBytes (s.rd (Reg.BAS_BERTH_PLACE_BASE b)) 2 ++ leBytes (s.rd (Reg.BAS_BERTH_PLACE_SIZE b)) 2 ++
  leBytes (s.rd (Reg.BAS_BERTH_FMT_FORMAT b)) 1 ++ leBytes (s.rd (Reg.BAS_BERTH_FMT_RES b)) 1 ++ leBytes (s.berthAt b).state.code 1 ++
  leBytes (s.berthAt b).home 3 ++ leBytes (s.berthAt b).covered.length 4

/-- The record of the flight slots: which are valid, and their FLIGHT_ID. -/
def State.slotsRecord (s : State) : List Byte :=
  let slots := s.seq.slots.toList
  slots.flatMap (fun f => leBytes (b2n f.isSome) 1) ++ [0#8] ++ slots.flatMap (fun f => leBytes ((f.map Flight.id).getD 0) 4)

/-- One step of the copy: the first item goes out, or the next 1,024 bytes of it. A berth that the active has freed meanwhile is no longer
sent. -/
def State.copyStep (s : State) (item : CopyItem) (rest : List CopyItem) : State :=
  let left (s : State) (items : List CopyItem) : State := s.setPeer { s.peer with copyOut := items }
  match item with
  | .slots => left (s.sendXctl 1 s.slotsRecord) rest
  | .bytes a n => left (s.sendXfer a (min 1024 n)) (if n ≤ 1024 then rest else .bytes (a + 1024) (n - 1024) :: rest)
  | .berth b => left (if (s.berthAt b).state.copied then s.sendXctl 2 (s.berthRecord b) else s) rest
  | .layer b off =>
    let n := s.berthLayer b - off
    if !(s.berthAt b).state.copied || n == 0 then left s rest
    else left (s.sendXfer (s.berthBase b + off) (min 1024 n)) (if n ≤ 1024 then rest else .layer b (off + 1024) :: rest)
  | .wharf => left (s.sendXctl 3 (leBytes (s.rd (Reg.WHF_CMD_NEXT_SEQ 1)) 4 ++ leBytes (s.rd (Reg.WHF_CPL_NEXT_SEQ 1)) 4)) rest
  | .done => left (s.sendXctl 4 (leBytes s.peer.outBytes 4 ++ leBytes (s.peer.outCrc ^^^ 0xFFFFFFFF) 4)) rest

/-- The copy goes on, while what it sends finds room in the replay buffer; without a session, or where the device is not active, it is
given up. -/
def State.copyGoesOn : Nat → State → State
  | 0, s => s
  | n + 1, s =>
    match s.peer.copyOut with
    | [] => s
    | item :: rest =>
      if !s.peerSession || s.rd Reg.PEER_STATUS_ROLE != 2 then s.setPeer { s.peer with copyOut := [] }
      else if !(s.linkAt .peer).held.isEmpty then s
      else State.copyGoesOn n ((s.copyStep item rest).pumpLink .peer)

/-- Turns of the copy that fill the replay buffer whatever it sends. -/
def copyTurns : Nat := 2048

def State.sendCopy (s : State) : State := s.copyGoesOn copyTurns

end Sys2Proof.Machine
end

