-- ==== Sys2Proof/Machine/Eye.lean ====
section
/-!
DEFINITION. The eye scan of a receiving lane (R288, R290). A scan whose lane or link is out of use ends when the device settles.
-/
namespace Sys2Proof.Machine

/-- LNK_LANE.FENCED of a lane. -/
def laneFenced (l : LinkId) (n : Nat) : Fld :=
  match l with
  | .host => Reg.LNK_LANE_FENCED n
  | .peer => Reg.LNK_PEER_LANE_FENCED n

/-- The lane of EYE_ set i: its link and number. -/
def eyeLane (i : Fin 6) : LinkId × Fin 4 := if i.val < 4 then (.host, Fin.ofNat 4 i.val) else (.peer, Fin.ofNat 4 (i.val - 4))

/-- The bits that a scan has compared: at most 2^EXP, at 2.5 or 5.0 Gbit/s since its start. -/
def State.eyeBits (s : State) (i : Fin 6) : Nat :=
  let p := eyeLane i
  let (start, exp) := (s.linkAt p.1).eyes[p.2]
  min (2 ^ exp) ((s.now - start) * (if s.on (Reg.LNK_STATUS_RATE p.1.num) then 10 else 5) / 2)

/-- The disagreements among them: not stated by the spec. -/
def State.eyeSoFar (s : State) (i : Fin 6) : Nat :=
  let p := eyeLane i
  min (s.eyeBits i) (Config.eyeErrors p.1.num p.2.val ((s.linkAt p.1).eyes[p.2]).1 s.now)

/-- START: ignored while a scan runs. -/
def State.eyeStart (s : State) (i : Fin 6) : State :=
  if s.on (Reg.EYE_STATUS_RUNNING i) then s
  else
    let p := eyeLane i
    let x := s.linkAt p.1
    let s := s.setLink p.1 { x with eyes := x.eyes.set p.2 (s.now, s.rd (Reg.EYE_CTRL_EXP i)) }
    ((s.put (Reg.EYE_STATUS_RUNNING i) 1).put (Reg.EYE_STATUS_DONE i) 0).put (Reg.EYE_STATUS_ABORTED i) 0

/-- A running scan ends with the errors counted over a number of bits; the two registers saturate. -/
def State.eyeFinish (s : State) (i : Fin 6) (errors bits : Nat) (aborted : Bool) : State :=
  if !s.on (Reg.EYE_STATUS_RUNNING i) then s
  else
    let s := ((s.put (Reg.EYE_STATUS_RUNNING i) 0).put (Reg.EYE_STATUS_DONE i) 1).put (Reg.EYE_STATUS_ABORTED i) (b2n aborted)
    (s.put (Reg.EYE_ERRORS_VALUE i) (min errors (2 ^ 32 - 1))).put (Reg.EYE_COUNT_VALUE i) (min (bits / 256) (2 ^ 32 - 1))

/-- STOP: the scan ends where it stands. -/
def State.eyeStop (s : State) (i : Fin 6) : State := s.eyeFinish i (s.eyeSoFar i) (s.eyeBits i) false

/-- A scan whose lane is fenced, or whose link has left the running states, ends early. -/
def State.eyeAbort (s : State) (i : Fin 6) : State :=
  let p := eyeLane i
  if s.linkUp p.1 && !s.on (laneFenced p.1 p.2) then s else s.eyeFinish i (s.eyeSoFar i) (s.eyeBits i) true

def State.noteEyes (s : State) : State := ([0, 1, 2, 3, 4, 5] : List (Fin 6)).foldl State.eyeAbort s

/-- A scan reaches its length, 2^EXP bits. -/
def State.eyeEnd (s : State) (i : Fin 6) (errors : Nat) : State :=
  let p := eyeLane i
  let bits := 2 ^ ((s.linkAt p.1).eyes[p.2]).2
  s.eyeFinish i (min errors bits) bits false

end Sys2Proof.Machine
end

