-- ==== Sys2Proof/Machine/SafeOut.lean ====
section
/-!
DEFINITION. The safety outputs (R298, R299, R302): their conditions, their fall as soon as a condition ceases to hold, their rise at a
display scan, and their failure.
-/
namespace Sys2Proof.Machine

def State.setSaf (s : State) (x : Safety) : State := { s with saf := x }

/-- SOUTo, and FAILo. -/
def soutFld (o : Nat) : Fld := if o = 0 then Reg.SAF_OUT_SOUT0 else Reg.SAF_OUT_SOUT1
def failFld (o : Nat) : Fld := if o = 0 then Reg.SAF_OUT_FAIL0 else Reg.SAF_OUT_FAIL1

/-- Egress ready (R298). -/
def State.egressReady (s : State) : Bool :=
  s.healthHigh && (s.seq.slots[2]).isSome && s.saf.verified && s.rd Reg.SAF_EGRESS_SCENE != 0

/-- Egress active and verified (R298): the egress flight runs, and the array lights a frame that it rendered. -/
def State.egressActive (s : State) : Bool :=
  s.egressReady && s.seq.run.isSome && s.rd Reg.SYS_FLIGHT_STATUS_ACTIVE == 2 && s.saf.egressShown && s.lights

/-- The condition of output o, which a failed readback overrides (R299). -/
def State.outHolds (s : State) (o : Nat) : Bool :=
  !s.on (failFld o) && (if o = 0 then s.egressReady else s.egressActive)

/-- FS079 is live while slot E is valid and the egress glyphs are not verified (R300). -/
def State.noteVerified (s : State) : State := s.condition 79 ((s.seq.slots[2]).isSome && !s.saf.verified)

/-- Output o is driven; its two channels read back as driven. -/
def State.driveOut (s : State) (o : Nat) (b : Bool) : State :=
  ((s.put (soutFld o) (b2n b)).putBit Reg.SAF_OUT_READBACK (2 * o) b).putBit Reg.SAF_OUT_READBACK (2 * o + 1) b

/-- PAUSED: the tests of an output pause (R302). -/
def State.notePaused (s : State) : State := s.put Reg.SAF_OUT_PAUSED (b2n (s.saf.paused.toList.any Option.isSome))

/-- Output o falls; where it was under test, its tests pause, with its other channel next due. A pause lasts while it is low (R302). -/
def State.dropOut (s : State) (o : Fin 2) : State :=
  let s := s.driveOut o false
  let due := match s.saf.testing with
    | some c => if c / 2 = o.val then some (2 * o.val + (1 - c % 2)) else s.saf.paused[o]
    | none => s.saf.paused[o]
  State.notePaused (s.setSaf { s.saf with paused := s.saf.paused.set o due, resumeAt := s.saf.resumeAt.set o none })

/-- A driven output whose condition has ceased to hold falls. -/
def State.noteOutputs (s : State) : State :=
  ([0, 1] : List (Fin 2)).foldl (fun s (o : Fin 2) => if s.on (soutFld o) && !s.outHolds o then s.dropOut o else s) s

/-- The first display scan after a sluice begins: the outputs whose conditions held at the sluice and hold now rise. -/
def State.raiseOutputs (s : State) : State :=
  let t := ([0, 1] : List (Fin 2)).foldl (fun s (o : Fin 2) =>
    if s.saf.rise.testBit o && s.outHolds o && !s.on (soutFld o) then
      let s := s.driveOut o true
      s.setSaf { s.saf with resumeAt := s.saf.resumeAt.set o ((s.saf.paused[o]).map (fun _ => s.now + 1000000000)) }
    else s) s
  t.setSaf { t.saf with rise := 0 }

/-- A failed output: held low for the rest of the epoch, FS068 or FS069 (R302). -/
def State.failOut (s : State) (o : Nat) : State :=
  let s := ((s.driveOut o false).put (failFld o) 1).flag Reg.SAF_EVENT_OUT_FAIL
  s.raise (68 + o)

end Sys2Proof.Machine
end

