-- ==== Sys2Proof/Machine/Settle.lean ====
section
/-!
DEFINITION. What the device does of itself between two commands: a requested chip reset is made (R253, R397), the state of tick −4 is
held when a sluice comes near (R31-R33), the painter takes note of the light (R219), a safety output whose condition has ceased falls (R299), a
change of mode sets its event (R387, R400), and a summary bit that has risen queues its message (R421), and the links send what waits, a copy for
the twin with it (R280, R333). Every meaning runs on the settled state, and on a device held in Reset nothing runs (R386). -/
namespace Sys2Proof.Machine

/-- The fields of FLT_ that a warm chip reset keeps: the sticky bits and the COUNT fields (R250). -/
def keptFlt : List Fld :=
  (List.range 6).map Reg.FLT_STICKY_STICKY ++ (List.range 192).map Reg.FLT_REACT_COUNT

/-- Register fields of the kept list, copied into a state. -/
def State.keep (old : State) (fs : List Fld) (s : State) : State :=
  fs.foldl (fun t f => t.put f (old.rd f)) s

/-- Erases that no journal page has recorded are unknown after a chip reset: their blocks are erased again (R374). -/
def Nand.forgetErases (n : Nand) : Nand :=
  let bs := n.records.filterMap (fun r => match r with
    | .erased b => some b
    | _ => none)
  { n with
    records := [], erasing := n.erasing ++ (bs.filter (fun b => !(n.erasing.contains b))).eraseDups
    blocks := bs.foldl (fun m b => let x := Sparse.get m NBlock.fresh b; Sparse.set m NBlock.fresh b { x with erases := x.erases - 1 }) n.blocks }

/-- NAND over a chip reset: what is committed stays; writes in progress, queues and the copies held in memory are lost (R374, R383). -/
def Nand.overReset (n : Nand) : Nand :=
  { n.powerLoss.forgetErases.readsAfterReset with deferred := [], refresh := [], scrubNext := 0 }

/-- What the device keeps over every chip reset: the queue, device time, the free-value counter, the reset inputs, OTP and the NAND. The
mode is Reset until Boot starts (R253). -/
def State.rebirth (s : State) : State :=
  { State.reset with
    pending := s.pending, now := s.now, fresh := s.fresh,
    mode := { State.reset.mode with phase := .reset, seen := 0, resetLow := s.mode.resetLow, badPower := s.mode.badPower },
    mgmt := { Mgmt.reset with born := s.now },
    clk := { Clock.reset with at_ := s.now },
    nand := s.nand.overReset,
    rif := { Rif.reset with telemAt := s.now },
    sec := { Trust.reset with otp := s.sec.otp, otpFail := s.sec.otpFail } }

/-- The slots marked failed after a chip reset: one that comes between the jump to a boot stage and its DONE marks that slot (R348). -/
def State.markedAfter (s : State) : Nat :=
  match s.sec.jumped with
  | some i => if s.bootLevel then setBit (s.rd Reg.SEC_BOOT_STATUS_MARKED) i true else s.rd Reg.SEC_BOOT_STATUS_MARKED
  | none => s.rd Reg.SEC_BOOT_STATUS_MARKED

/-- A warm chip reset (R250, R253, R348, R397): sticky bits, counts and failure marks kept, and with the sticky bits the sources that hold
HEALTH low (R254); SYS_EPOCH incremented, CAUSE and FLT_RESET written. -/
def State.warmReset (s : State) (cause : Nat) (source : Option Nat) : State :=
  let t := { s.rebirth with flt := { Faults.reset with healthLow := s.flt.healthLow } }
  let t := (s.keep keptFlt t).put Reg.SEC_BOOT_STATUS_MARKED s.markedAfter
  let t := (t.put Reg.SYS_EPOCH_EPOCH (s.rd Reg.SYS_EPOCH_EPOCH + 1)).put Reg.SYS_RESET_CAUSE cause
  match source with
  | none => t
  | some n => (t.put Reg.FLT_RESET_VALID 1).put Reg.FLT_RESET_SOURCE n

/-- The tick −4 cut before a sluice at time `at_`: its last tick has begun to pass. A write is landed by tick −4 if fewer than three
ticks do not remain (four at the first sluice after STOPPED) (R31). -/
def State.pastCut (s : State) (at_ : Nat) : Bool := s.within s.now at_ (if s.seq.first then 4 else 3)

/-- The landings that came later than 4 ticks before time t, oldest first. -/
def State.sinceCut (s : State) (t : Nat) : List Landed := s.seq.recent.filter (fun l => s.within l.time t 4)

/-- What is held for a sluice placed at time t: the present state, or before the first sluice since STOPPED what stood 4 ticks before it,
where landings have come since (R31). -/
def State.snapFor (s : State) (t : Nat) : Snap :=
  if s.seq.first then
    match s.sinceCut t with
    | [] => s.takeSnap
    | l :: ls => { l.before with again := (l :: ls).any Landed.commit, againLoad := (l :: ls).any Landed.load }
  else s.takeSnap

/-- The state of tick −4 is held once that tick has passed (R31, R32). -/
def State.holdSnap (s : State) : State :=
  match s.seq.next, s.seq.snap with
  | some t, none => if s.pastCut t then { s with seq := { s.seq with snap := some (s.snapFor t) } } else s
  | _, _ => s

/-- Every force bit clears, without a raise (R258). -/
def State.clearForces (s : State) : State := (List.range 6).foldl (fun s w => s.put (Reg.FLT_FORCE_FORCE w) 0) s

/-- A mode code is Test or Maintenance. -/
def forceMode (code : Nat) : Bool := code = 9 || code = 10

/-- SYS_MODE_EVENT.MODE is set when MODE or BASE has changed (R400); leaving Test or Maintenance, be it for the other, clears every force
bit (R258). -/
def State.noteMode (s : State) : State :=
  if s.modeWord = s.mode.seen then s
  else
    let s := if forceMode (s.mode.seen % 16) && s.mode.seen % 16 != s.modeOf.code then s.clearForces else s
    State.flag { s with mode := { s.mode with seen := s.modeWord } } Reg.SYS_MODE_EVENT_MODE

/-- A source holds HEALTH low until its sticky bit is cleared and its live bit reads 0 (R254). -/
def State.noteHealth (s : State) : State :=
  { s with flt := { s.flt with healthLow := s.flt.healthLow.filter (fun n => s.sticky n || s.live n) } }

/-- A register word from its stored fields. -/
def State.fieldsWord (s : State) (fs : List Fld) : Nat := fs.foldl (fun acc f => acc + s.rd f * 2 ^ f.lo) 0

/-- The stored word at a register offset. -/
def State.storedWord (s : State) (off : Nat) : Nat := s.fieldsWord ((Reg.fieldsAt off).getD [])

/-- The event register behind summary bit i, as an EVENT message carries it (R421). -/
def State.eventPayload (s : State) (i : Nat) : List Byte :=
  match i with
  | 0 => leBytes (s.storedWord 0x0030) 4
  | 1 => leBytes (s.storedWord 0x1048) 4
  | 2 => leBytes (s.storedWord 0x302c) 4
  | 3 => leBytes (s.storedWord 0x4010) 4
  | 4 => leBytes (s.storedWord 0x522c) 4
  | 5 => leBytes (s.storedWord 0x683c) 4
  | 6 => leBytes (s.storedWord 0x702c) 4
  | 7 => leBytes (s.storedWord 0x7420) 4
  | 8 => leBytes (s.storedWord 0x8030) 4 ++ leBytes (s.storedWord 0x8130) 4
  | 9 => leBytes (s.storedWord 0x9028) 4
  | 10 => leBytes (s.storedWord 0xa040) 4
  | 11 => leBytes (s.storedWord 0xb068) 4
  | 12 => leBytes (s.storedWord 0xc03c) 4
  | 14 => leBytes (s.storedWord 0xf050) 4
  | _ => leBytes (s.storedWord 0xf810) 4

/-- EVENT messages for the enabled summary bits other than 13 that have gone from 0 to 1 (R421). -/
def State.noteSummary (s : State) : State :=
  let w := s.summary
  if w = s.rif.summary then s
  else
    let t : State := { s with rif := { s.rif with summary := w } }
    if s.on Reg.RIF_INT_CTRL_MSG_EVENT then
      (List.range 16).foldl
        (fun t i => if i != 13 && w.testBit i && !s.rif.summary.testBit i && s.bitOf Reg.RIF_INT_EN_BITS i
          then t.sendMsg 1 i (s.eventPayload i) else t) t
    else t

/-- A fall of the light makes a zero stream of the painter due (R219). -/
def State.noteLight (s : State) : State :=
  if s.pnt.lit = s.lights then s
  else { s with pnt := { s.pnt with lit := s.lights, zeroDue := s.pnt.zeroDue || s.pnt.lit } }

/-- The device between two commands. -/
def State.settle (s : State) : State :=
  let s := match s.flt.crReq with
    | some n => s.warmReset 2 (some n)
    | none => s
  s.noteLinks.noteEyes.holdSnap.noteLight.noteVerified.noteOutputs.noteMode.noteHealth.noteSummary.pump.sendCopy

/-- Nothing is left for the device to do of itself, and it is not held in Reset: the state in which a command has its own effect. -/
def State.Ready (s : State) : Prop := s.settle = s ∧ s.mode.phase ≠ .reset

/-- A command's effect on the settled state; none while the device is held in Reset. -/
def State.command (s : State) (f : State → State) : Host.Outcome State Fault Refusal :=
  let t := s.settle
  .next (if t.mode.phase = .reset then t else f t)

end Sys2Proof.Machine
end

