-- ==== Sys2Proof/Machine/Operands.lean ====
section
/-!
DEFINITION. Every operand form of Elvoth: the immediates and offsets of the formats (R67, R73, R74), the local-store address (R77),
scalar, vector, predicate and accumulator operands with their lanes (R42, R52), and the lines an access touches (R44, R46).
-/
namespace Sys2Proof

open Machine (toSigned)

/-! ## Immediates (R67) -/

/-- imm13 = bits 15:11 then 7:0. -/
def Fields.imm13 (f : Fields) : Nat := f.b.toNat * 256 + f.minor.toNat

/-- imm16 = bits 15:11, 10:8, 7:0. -/
def Fields.imm16 (f : Fields) : Nat := f.b.toNat * 2048 + f.pred.toNat * 256 + f.minor.toNat

/-- The target of format T: bits 15:11 then 7:0. -/
def Fields.target (f : Fields) : Nat := f.b.toNat * 256 + f.minor.toNat

/-- off11 of format B, signed: bits 10:8 then 7:0. -/
def Fields.off11 (f : Fields) : Int := toSigned 11 (f.pred.toNat * 256 + f.minor.toNat)

/-- off16 of format J, signed. -/
def Fields.off16 (f : Fields) : Int := toSigned 16 f.imm16

/-- The 32-bit word of a major opcode and its fields (R40). -/
def Fields.word (major : Nat) (f : Fields) : Nat :=
  major * 2 ^ 26 + f.d.toNat * 2 ^ 21 + f.a.toNat * 2 ^ 16 + f.b.toNat * 2 ^ 11 + f.pred.toNat * 2 ^ 8 + f.minor.toNat

end Sys2Proof

namespace Sys2Proof.Machine

/-! ## Lanes (R42) -/

/-- n lanes of w bits from lane i upward, as one number. -/
def packLanes (w : Nat) (f : Nat → Nat) : Nat → Nat → Nat
  | 0, _ => 0
  | n + 1, i => f i % 2 ^ w + 2 ^ w * packLanes w f n (i + 1)

/-- Lane i of a vector. -/
def lane (v : VecW) (i : Nat) : Nat := v.toNat / 2 ^ (16 * i) % 65536

/-- A vector from its 32 lanes. -/
def mkVec (f : Nat → Nat) : VecW := BitVec.ofNat 512 (packLanes 16 f 32 0)

/-- Lane i of an accumulator, signed. -/
def accLane (a : AccW) (i : Nat) : Int := toSigned 40 (a.toNat / 2 ^ (40 * i))

/-- An accumulator from its 32 signed lanes. -/
def mkAcc (f : Nat → Int) : AccW := BitVec.ofNat 1280 (packLanes 40 (fun i => ofSigned 40 (f i)) 32 0)

/-- A predicate from its 32 bits. -/
def mkPred (f : Nat → Bool) : PredW := BitVec.ofNat 32 (packLanes 1 (fun i => b2n (f i)) 32 0)

/-- The lanes of `new` where the mask enables them, the lanes of `old` elsewhere (R52). -/
def mergeVec (mask : PredW) (old new : VecW) : VecW := mkVec (fun i => if mask.getLsbD i then lane new i else lane old i)
def mergeAcc (mask : PredW) (old new : AccW) : AccW := mkAcc (fun i => if mask.getLsbD i then accLane new i else accLane old i)
def mergePred (mask old new : PredW) : PredW := (new &&& mask) ||| (old &&& ~~~mask)

/-! ## Register operands of a chamber (R42) -/

/-- Scalar register r; s0 reads 0. -/
def Chamber.scalar (x : Chamber) (r : BitVec 5) : Nat := if r = 0#5 then 0 else (x.s[r.toFin]).toNat

/-- Vector register r. -/
def Chamber.vector (x : Chamber) (r : BitVec 5) : VecW := x.v[r.toFin]

/-- Predicate register r; p0 reads all ones. -/
def Chamber.predicate (x : Chamber) (r : BitVec 3) : PredW := if r = 0#3 then 0xFFFFFFFF#32 else x.p[r.toFin]

/-- Accumulator r. -/
def Chamber.accum (x : Chamber) (r : BitVec 2) : AccW := x.a[r.toFin]

/-- A scalar-slot instruction executes only if bit 0 of its predicate is 1 (R52). -/
def Chamber.executes (x : Chamber) (f : Fields) : Bool := (x.predicate f.pred).getLsbD 0

/-! ## Local-store addresses (R44, R77) -/

/-- ls_addr (R77). -/
def lsAddr (sa region offset scale : Nat) : Nat := region * 65536 + (sa + offset * scale) % 65536

/-- The local-store address of a format M instruction: region in minor bits 7:6, offset in bits 5:0. -/
def Chamber.memAddr (x : Chamber) (f : Fields) (scale : Nat) : Nat :=
  lsAddr (x.scalar f.a) (f.minor.toNat / 64) (f.minor.toNat % 64) scale

/-- The first of the lines of a COVER or LUT16 region operand (R94, R96). -/
def regionLine (region s : Nat) : Nat := region * 1024 + s / 64

/-- n consecutive lines, line numbers modulo 4,096. -/
def lineRun (first n : Nat) : List Nat := (List.range n).map (fun i => (first + i) % 4096)

/-- A byte of the local store, addresses modulo 256 KiB (R91). -/
def Chamber.lsByte (x : Chamber) (a : Nat) : Nat := (x.store.byte (a % 262144)).toNat

/-- The aligned 16-bit word at a byte address: bit 0 of the address is ignored (R44, R91). -/
def Chamber.lsWord (x : Chamber) (a : Nat) : Nat := x.lsByte (a % 262144 / 2 * 2) + 256 * x.lsByte (a % 262144 / 2 * 2 + 1)

/-- Byte k of a run of consecutive lines from line `first`, line numbers modulo 4,096. -/
def Chamber.runByte (x : Chamber) (first k : Nat) : Nat := x.lsByte ((first + k / 64) % 4096 * 64 + k % 64)

/-- The 16-bit word at byte k of such a run. -/
def Chamber.runWord (x : Chamber) (first k : Nat) : Nat := x.runByte first k + 256 * x.runByte first (k + 1)

end Sys2Proof.Machine
end

