-- ==== Sys2Proof/Machine/Chamber.lean ====
section
/-!
DEFINITION. The chambers' sequencing (R41, R47-R57, R80) and their scalar-slot instructions (R69-R72, R77-R82): opening and closing
a bundle, landing results and resolving collisions, halting, and one meaning per scalar-slot row. The common scalar operations are
shared with the management cores (R58, R69).
-/
namespace Sys2Proof.Machine

/-! ## Breaches (R121, R126, R127) -/

/-- A breach in chamber c in schedule cycle `at_`: recorded in CHM_BREACH and raised with the chamber as locus, once for the cycle (R249). -/
def State.breachAt (s : State) (c : ChamberId) (n at_ : Nat) : State :=
  let x := s.chAt c
  let s := (s.flag (Reg.CHM_BREACH_VALID c)).put (Reg.CHM_BREACH_SOURCE c) n
  let s := (s.put (Reg.CHM_BREACH_LOCK c) x.lock).put (Reg.CHM_BREACH_CYCLE_CYCLE c) (at_ - x.lockStart)
  (s.put (Reg.CHM_BREACH_PC_PC c) x.pc).raiseOnce n (some c.val) at_

/-- A breach in the chamber's present cycle. -/
def State.breach (s : State) (c : ChamberId) (n : Nat) : State := s.breachAt c n (s.chAt c).cycle

/-- The chamber halts: it issues no further bundle until its next lock (R54, R55). -/
def Chamber.halt (x : Chamber) : Chamber := { x with running := false, halted := true }

/-- The lock entry a chamber runs, if a flight runs. -/
def State.lockOf (s : State) (x : Chamber) : Option LockEntry := s.seq.run.bind (fun f => f.locks[x.lock]?)

/-- An illegal encoding: the chamber halts as if by HALT and raises FS102 (R54, R66). -/
def State.illegal (s : State) (c : ChamberId) : State := (s.setCh c (s.chAt c).halt).breach c 102

/-- A loop- or call-stack breach: the chamber halts and raises FS103 (R54). -/
def State.stackFault (s : State) (c : ChamberId) : State := (s.setCh c (s.chAt c).halt).breach c 103

/-! ## Landing (R48, R50, R51) -/

/-- The register a result lands in, as a number; none for a store. -/
def Landing.dest : Landing → Option Nat
  | .scalar r _ => some r.val
  | .vector r _ _ => some (32 + r.val)
  | .pred r _ _ => some (64 + r.val)
  | .acc r _ _ => some (72 + r.val)
  | .mac r _ _ => some (72 + r.val)
  | .store _ => none

/-- Saturation to 40 bits (R43, R88). -/
def sat40 (z : Int) : Int := clampInt (-549755813888) 549755813887 z

/-- The landing of one result; `old` holds the registers as they stood before the landing cycle, from which a MAC reads its
accumulator (R50). -/
def Chamber.land1 (old x : Chamber) : Landing → Chamber
  | .scalar r v => { x with s := x.s.set r v }
  | .vector r mask v => { x with v := x.v.set r (mergeVec mask x.v[r] v) }
  | .pred r mask v => { x with p := x.p.set r (mergePred mask x.p[r] v) }
  | .acc r mask v => { x with a := x.a.set r (mergeAcc mask x.a[r] v) }
  | .mac r mask v =>
    { x with a := x.a.set r (mergeAcc mask x.a[r] (mkAcc (fun i => sat40 (accLane old.a[r] i + accLane v i)))) }
  | .store cells => { x with store := cells.foldl (fun m c => m.setByte c.1 c.2) x.store }

/-- Insertion by issue order. -/
def insertFlight (r : InFlight) : List InFlight → List InFlight
  | [] => [r]
  | q :: qs => if r.order ≤ q.order then r :: q :: qs else q :: insertFlight r qs

/-- Two results of one cycle land in one register (R51). -/
def collides : List InFlight → Bool
  | [] => false
  | r :: rs => (r.land.dest.isSome && rs.any (fun q => q.land.dest == r.land.dest)) || collides rs

/-- The results due by the chamber's cycle land, in issue order, so that the later-issued has priority lane by lane; a collision
raises FS100 (R51). -/
def State.landDue (s : State) (c : ChamberId) : State :=
  let x := s.chAt c
  let due := (x.inFlight.filter (fun r => r.due ≤ x.cycle)).foldr insertFlight []
  let y := due.foldl (fun y r => Chamber.land1 x y r.land) { x with inFlight := x.inFlight.filter (fun r => !(r.due ≤ x.cycle)) }
  let s := s.setCh c y
  if collides due then s.breach c 100 else s

/-- Results land cycle by cycle up to schedule cycle t, which becomes the chamber's cycle. -/
def State.landTo (s : State) (c : ChamberId) (t : Nat) : Nat → State
  | 0 => s.setCh c { s.chAt c with cycle := t }
  | n + 1 =>
    match ((s.chAt c).inFlight.map InFlight.due).min? with
    | some d => if d ≤ t then State.landTo ((s.setCh c { s.chAt c with cycle := d }).landDue c) c t n
      else s.setCh c { s.chAt c with cycle := t }
    | none => s.setCh c { s.chAt c with cycle := t }

/-! ## Bundles (R47, R53, R80) -/

/-- The bundle after the one at pc, by sequence and by the loop rule: (loop stack, pc) (R80). -/
def nextBundle (loops : List LoopEntry) (pc : Nat) : List LoopEntry × Nat :=
  match loops with
  | [] => ([], pc + 1)
  | l :: ls =>
    if l.stop = pc then
      if l.remaining > 1 then ({ l with remaining := l.remaining - 1 } :: ls, l.start) else (ls, pc + 1)
    else (l :: ls, pc + 1)

/-- The target that takes the place of the next bundle, if a transfer's delay bundles have issued. -/
def dueTarget (ts : List Transfer) : Option Nat := (ts.find? (fun t => t.left = 1)).map Transfer.target

/-- The bundle closes: the program counter moves on (R80), the schedule cycle advances (R47). A store of this cycle leaves the units
that a barge wrote in the same cycle (R45). -/
def Chamber.advance (x : Chamber) : Chamber :=
  let (loops, pc) := nextBundle x.loops x.pc
  let keep := fun (r : InFlight) => match r.land with
    | .store cells => { r with land := .store (cells.filter (fun a => !(x.arrived.contains (a.1 / 16)))) }
    | _ => r
  { x with
    loops := if x.halted then x.loops else loops
    pc := if x.halted then x.pc else (dueTarget x.transfers).getD pc
    transfers := (x.transfers.filter (fun t => t.left > 1)).map (fun t => { t with left := t.left - 1 })
    inFlight := x.inFlight.map keep
    arrived := []
    cycle := x.cycle + 1
    scalarUsed := false
    vectorUsed := false }

/-- The open bundle of chamber c closes, and what is due in the next cycle lands. -/
def State.closeBundle (s : State) (c : ChamberId) : State :=
  let x := s.chAt c
  if x.scalarUsed || x.vectorUsed then (s.setCh c x.advance).landDue c else s

/-- A bundle that no program may hold: at or beyond the program's BUNDLES, or beyond 8,191 (R54, R108). -/
def State.pcIllegal (s : State) (c : ChamberId) : Bool :=
  let x := s.chAt c
  8191 < x.pc ||
  (x.running && (match s.seq.run.bind (fun f => f.progs[c.val]?) with
    | some p => p.bundles ≤ x.pc
    | none => false))

/-- The chamber is fenced by a reaction (R255). -/
def State.chFenced (s : State) (c : ChamberId) : Bool := s.bitOf Reg.FLT_FENCE_CHAMBER c.val

/-- A scalar-slot instruction issues: it opens a bundle (closing the one before), and acts unless the chamber issues nothing: halted,
fenced, or in a retry stall (R47, R55, R105, R121, R255). -/
def State.issueScalar (s : State) (c : ChamberId) (f : State → State) : State :=
  if s.seq.stallCycle.isSome || s.chFenced c then s
  else
    let s := s.closeBundle c
    let x := s.chAt c
    if x.halted then s
    else
      let s := s.setCh c { x with scalarUsed := true }
      if s.pcIllegal c then s.illegal c else f s

/-- A vector-slot instruction issues: in the open bundle if its vector slot is free (also when that bundle's scalar slot has just
halted the chamber, R54, R55), else in a bundle of its own. -/
def State.issueVector (s : State) (c : ChamberId) (f : State → State) : State :=
  if s.seq.stallCycle.isSome || s.chFenced c then s
  else
    let s := if (s.chAt c).vectorUsed then s.closeBundle c else s
    let x := s.chAt c
    if x.scalarUsed then f (s.setCh c { x with vectorUsed := true })
    else if x.halted then s
    else
      let s := s.setCh c { x with vectorUsed := true }
      if s.pcIllegal c then s.illegal c else f s

/-- A result of an instruction of this bundle, landing after `lat` cycles; `slot` is 0 scalar, 1 vector (R48, R51). -/
def State.send (s : State) (c : ChamberId) (lat slot : Nat) (l : Landing) : State :=
  let x := s.chAt c
  let r : InFlight := { due := x.cycle + lat, order := 2 * x.cycle + slot, land := l }
  s.setCh c { x with inFlight := x.inFlight ++ [r] }

/-- A scalar result; a write to s0 is discarded (R42). -/
def State.sendScalar (s : State) (c : ChamberId) (lat slot : Nat) (d : BitVec 5) (v : Nat) : State :=
  if d = 0#5 then s else s.send c lat slot (.scalar d.toFin (BitVec.ofNat 16 v))

/-- A vector result in the enabled lanes (R52). -/
def State.sendVec (s : State) (c : ChamberId) (lat slot : Nat) (d : BitVec 5) (mask : PredW) (v : VecW) : State :=
  s.send c lat slot (.vector d.toFin mask v)

/-- A predicate result in the enabled bits; a write to p0 is discarded (R42, R84). -/
def State.sendPred (s : State) (c : ChamberId) (lat : Nat) (d : BitVec 3) (mask v : PredW) : State :=
  if d = 0#3 then s else s.send c lat 1 (.pred d.toFin mask v)

/-- An access that touches a pending line raises FS101 and proceeds (R46). -/
def State.touch (s : State) (c : ChamberId) (lines : List Nat) : State :=
  if lines.any (fun l => (s.chAt c).tags.contains l) then s.breach c 101 else s

/-! ## The common scalar operations (R69-R72, R76) -/

/-- Division with the corner values of R76: quotient and remainder of w-bit operands. -/
def divSigned (w a b : Nat) : Nat × Nat :=
  let x := toSigned w a
  let y := toSigned w b
  if y = 0 then (2 ^ w - 1, a) else (ofSigned w (Int.tdiv x y), ofSigned w (Int.tmod x y))

def divUnsigned (w a b : Nat) : Nat × Nat := if b = 0 then (2 ^ w - 1, a) else (a / b, a % b)

/-- The operation a minor of major 0x00 selects on w-bit operands: the result and the chamber latency (R70); none where the minor is
unassigned. The divides are Elvoth-S only. -/
def scalarAlu (w minor a b : Nat) : Option (Nat × Nat) :=
  let sa := toSigned w a
  let sb := toSigned w b
  match minor with
  | 0x00 => some ((a + b) % 2 ^ w, 1)
  | 0x01 => some ((a + 2 ^ w - b) % 2 ^ w, 1)
  | 0x02 => some (a &&& b, 1)
  | 0x03 => some (a ||| b, 1)
  | 0x04 => some (a ^^^ b, 1)
  | 0x05 => some (a &&& (2 ^ w - 1 - b), 1)
  | 0x06 => some (a * 2 ^ (b % w) % 2 ^ w, 1)
  | 0x07 => some (a / 2 ^ (b % w), 1)
  | 0x08 => some (ofSigned w (Int.ediv sa (2 ^ (b % w) : Nat)), 1)
  | 0x09 => some (b2n (sa < sb), 1)
  | 0x0A => some (b2n (a < b), 1)
  | 0x0B => some (if sa < sb then a else b, 1)
  | 0x0C => some (if sa < sb then b else a, 1)
  | 0x0D => some (min a b, 1)
  | 0x0E => some (max a b, 1)
  | 0x10 => some (a * b % 2 ^ w, 3)
  | 0x11 => some (ofSigned w (Int.ediv (sa * sb) (2 ^ w : Nat)), 3)
  | 0x12 => some (a * b / 2 ^ w, 3)
  | 0x14 => if w = 32 then some ((divSigned w a b).1, 34) else none
  | 0x15 => if w = 32 then some ((divUnsigned w a b).1, 34) else none
  | 0x16 => if w = 32 then some ((divSigned w a b).2, 34) else none
  | 0x17 => if w = 32 then some ((divUnsigned w a b).2, 34) else none
  | _ => none

/-- The operations of majors 0x01-0x09 (R71): imm13 zero-extended for the logic operations, modulo w for the shifts, sign-extended
otherwise. -/
def scalarImm (w : Nat) (op : ImmOp) (a imm13 : Nat) : Nat :=
  let se := ofSigned w (toSigned 13 imm13)
  match op with
  | .addi => (a + se) % 2 ^ w
  | .andi => a &&& imm13
  | .ori => a ||| imm13
  | .xori => a ^^^ imm13
  | .slli => a * 2 ^ (imm13 % w) % 2 ^ w
  | .srli => a / 2 ^ (imm13 % w)
  | .srai => ofSigned w (Int.ediv (toSigned w a) (2 ^ (imm13 % w) : Nat))
  | .slti => b2n (toSigned w a < toSigned 13 imm13)
  | .sltiu => b2n (a < se)

/-- The major opcode of an immediate operation (R71). -/
def immMajor : ImmOp → Nat
  | .addi => 1
  | .andi => 2
  | .ori => 3
  | .xori => 4
  | .slli => 5
  | .srli => 6
  | .srai => 7
  | .slti => 8
  | .sltiu => 9

/-! ## Scalar-slot instructions in a chamber -/

/-- Major 0x00 (R70). -/
def State.vScalarOp (s : State) (c : ChamberId) (f : Fields) : State :=
  let x := s.chAt c
  match scalarAlu 16 f.minor.toNat (x.scalar f.a) (x.scalar f.b) with
  | none => s.illegal c
  | some (v, lat) => if x.executes f then s.sendScalar c lat 0 f.d v else s

/-- Majors 0x01-0x09 (R71). -/
def State.vScalarImm (s : State) (c : ChamberId) (op : ImmOp) (f : Fields) : State :=
  let x := s.chAt c
  if x.executes f then s.sendScalar c 1 0 f.d (scalarImm 16 op (x.scalar f.a) f.imm13) else s

/-- Major 0x0A: LI has no predicate field and always executes; bits 20:16 are reserved (R67, R72). -/
def State.vLi (s : State) (c : ChamberId) (f : Fields) : State :=
  if f.a ≠ 0#5 then s.illegal c else s.sendScalar c 1 0 f.d f.imm16

/-- Majors 0x28 and 0x2A (R77): the pending check does not depend on the predicate (R46, R52). -/
def State.vLoadScalar (s : State) (c : ChamberId) (f : Fields) : State :=
  if f.b ≠ 0#5 then s.illegal c
  else
    let x := s.chAt c
    let a := x.memAddr f 2
    let s := s.touch c [a / 64]
    if x.executes f then s.sendScalar c 3 0 f.d (x.lsWord a) else s

def State.vLoadLine (s : State) (c : ChamberId) (f : Fields) : State :=
  if f.b ≠ 0#5 then s.illegal c
  else
    let x := s.chAt c
    let a := x.memAddr f 64
    let s := s.touch c [a / 64]
    s.sendVec c 3 0 f.d (x.predicate f.pred) (BitVec.ofNat 512 (x.store.readLE (a / 64 * 64) 64))

/-- The bytes an enabled lane of a vector store writes. -/
def laneCells (base : Nat) (mask : PredW) (v : VecW) : List Host.Cell :=
  (List.range 32).flatMap (fun i => if mask.getLsbD i then
    [(base + 2 * i, BitVec.ofNat 8 (lane v i)), (base + 2 * i + 1, BitVec.ofNat 8 (lane v i / 256))] else [])

/-- Majors 0x29 and 0x2B (R77). -/
def State.vStoreScalar (s : State) (c : ChamberId) (f : Fields) : State :=
  if f.b ≠ 0#5 then s.illegal c
  else
    let x := s.chAt c
    let a := x.memAddr f 2 / 2 * 2
    let s := s.touch c [a / 64]
    if x.executes f then
      s.send c 1 0 (.store [(a, BitVec.ofNat 8 (x.scalar f.d)), (a + 1, BitVec.ofNat 8 (x.scalar f.d / 256))])
    else s

def State.vStoreLine (s : State) (c : ChamberId) (f : Fields) : State :=
  if f.b ≠ 0#5 then s.illegal c
  else
    let x := s.chAt c
    let a := x.memAddr f 64 / 64 * 64
    let s := s.touch c [a / 64]
    s.send c 1 0 (.store (laneCells a (x.predicate f.pred) (x.vector f.d)))

/-- LOOP (R80): a body of 0, or one that ends beyond the enclosing body, is illegal; a fourth level is a stack breach (R54). DESIGN CHOICE:
a LOOP that is both is judged by its body first, and raises FS102. -/
def State.vLoop (s : State) (c : ChamberId) (body : BitVec 12) (trip : BitVec 16) : State :=
  let x := s.chAt c
  let l : LoopEntry := { start := x.pc + 1, stop := x.pc + body.toNat, remaining := if trip = 0#16 then 65536 else trip.toNat }
  if body = 0#12 then s.illegal c
  else if (match x.loops with | [] => false | e :: _ => e.stop < l.stop) then s.illegal c
  else if x.loops.length ≥ 3 then s.stackFault c
  else s.setCh c { x with loops := l :: x.loops }

/-- The transfer to a target after two delay bundles (R80). -/
def State.transferTo (s : State) (c : ChamberId) (target : Nat) : State :=
  let x := s.chAt c
  s.setCh c { x with transfers := { left := 3, target := target } :: x.transfers }

/-- JUMP (R81): format T, predicate 000, d and a zero. -/
def State.vJump (s : State) (c : ChamberId) (f : Fields) : State :=
  if f.d ≠ 0#5 ∨ f.a ≠ 0#5 ∨ f.pred ≠ 0#3 then s.illegal c else s.transferTo c f.target

/-- CALL (R81): pushes its own index + 3; a fifth level is a stack breach (R54). -/
def State.vCall (s : State) (c : ChamberId) (f : Fields) : State :=
  let x := s.chAt c
  if f.d ≠ 0#5 ∨ f.a ≠ 0#5 ∨ f.pred ≠ 0#3 then s.illegal c
  else if x.calls.length ≥ 4 then s.stackFault c
  else (s.setCh c { x with calls := (x.pc + 3) :: x.calls }).transferTo c f.target

/-- RET, major 0x2F minor 0 (R81). -/
def State.vRet (s : State) (c : ChamberId) (f : Fields) : State :=
  let x := s.chAt c
  if f.d ≠ 0#5 ∨ f.a ≠ 0#5 ∨ f.b ≠ 0#5 ∨ f.pred ≠ 0#3 then s.illegal c
  else match x.calls with
    | [] => s.stackFault c
    | t :: ts => (s.setCh c { x with calls := ts }).transferTo c t

/-- HALT, major 0x2F minor 1 (R55, R81): before lock-relative cycle LENGTH − 1 it is a breach (R121). -/
def State.vHalt (s : State) (c : ChamberId) (f : Fields) : State :=
  let x := s.chAt c
  if f.d ≠ 0#5 ∨ f.a ≠ 0#5 ∨ f.b ≠ 0#5 ∨ f.pred ≠ 0#3 then s.illegal c
  else
    let early := x.running && (match s.lockOf x with
      | some l => x.cycle - x.lockStart < l.length - 1
      | none => false)
    let s := s.setCh c x.halt
    if early then s.breach c 105 else s

/-- RDCTX, major 0x2F minor 2 (R82). -/
def State.vRdctx (s : State) (c : ChamberId) (f : Fields) : State :=
  let x := s.chAt c
  let lock := s.rd Reg.SEQ_LOCK_NUMBER_LOCK_NUMBER
  if f.a ≠ 0#5 ∨ 3 < f.b.toNat then s.illegal c
  else if x.executes f then
    s.sendScalar c 1 0 f.d (match f.b.toNat with | 0 => lock % 65536 | 1 => lock / 65536 | 2 => c.val | _ => x.lock)
  else s

/-! ## Barges: issue (R46, R79, R114, R116, R121, R149) -/

/-- dix and dcyc of R114. -/
def dix (n : Nat) : Nat := n - n / 8
def dcyc (n : Nat) : Nat := n + n / 7

/-- The first beat's data cycle of row r of a barge issued at schedule cycle ci by chamber ch (R114). -/
def BargeEntry.rowFirst (e : BargeEntry) (ci ch r : Nat) : Nat := dix (ci + 6) + ch * e.skew + r * (e.rowBeats + 2)

/-- The destination of repetition k, before the row's pitch (R114). -/
def BargeEntry.dstBase (e : BargeEntry) (k : Nat) : Nat := ofSigned 18 ((e.dst : Int) + (k : Int) * e.repDstStep)

/-- The local-store address of beat j of row r (R114). -/
def BargeEntry.beatDst (e : BargeEntry) (k r j : Nat) : Nat := (e.dstBase k + r * e.dstPitch + 16 * j) % 262144

/-- The cycle in which the last beat lands (R114). -/
def BargeEntry.done (e : BargeEntry) (ci ch : Nat) : Nat := dcyc (e.rowFirst ci ch (e.rows - 1) + e.rowBeats - 1) + 4

/-- The destination lines of a repetition, ascending. -/
def BargeEntry.lines (e : BargeEntry) (k : Nat) : List Nat :=
  (List.range e.rows).foldl (fun acc r => (List.range e.rowBeats).foldl (fun acc j => insertSet (e.beatDst k r j / 64) acc) acc) []

/-- The barge is in flight in schedule cycle t (R116). -/
def Barge.inFlightAt (b : Barge) (ch t : Nat) : Bool := b.issued ≤ t && t ≤ b.entry.done b.issued ch

/-- The barge-list entry n of the chamber's running lock. -/
def State.bargeOf (s : State) (x : Chamber) (n : Nat) : Option BargeEntry :=
  match s.seq.run, s.lockOf x with
  | some fl, some l => if x.running && n < l.bargeN then fl.barges[l.bargeFirst + n]? else none
  | _, _ => none

/-- The lowest free tag slot of a chamber (R149). -/
def freeSlot (bs : List Barge) : Option (Fin 8) := (List.finRange 8).find? (fun k => !(bs.any (fun b => b.slot = k)))

/-- BARGE.ISSUE n (R79): the running lock's entry n starts its next repetition. A mistimed issue, or a ninth barge, starts nothing
and raises FS106 (R121). -/
def State.vBargeIssue (s : State) (c : ChamberId) (f : Fields) : State :=
  let x := s.chAt c
  let n := f.minor.toNat
  if f.d ≠ 0#5 ∨ f.a ≠ 0#5 ∨ f.b ≠ 0#5 ∨ f.pred ≠ 0#3 then s.illegal c
  else match s.bargeOf x n with
    | none => s.illegal c
    | some e =>
      let k := Sparse.get x.reps 0 n
      let live := x.barges.filter (fun b => b.inFlightAt c.val x.cycle)
      match freeSlot live with
      | none => s.breach c 106
      | some slot =>
        if k < e.reps ∧ x.cycle - x.lockStart = e.issue + k * e.repCycles then
          let b : Barge := { entry := e, rep := k, issued := x.cycle, order := s.seq.bargeOrder, slot := slot, next := 0 }
          let y := { x with
            barges := live ++ [b], reps := Sparse.set x.reps 0 n (k + 1)
            tags := (e.lines k).foldl (fun t l => insertSet l t) x.tags
            peak := max x.peak (live.length + 1) }
          State.setCh { s with seq := { s.seq with bargeOrder := s.seq.bargeOrder + 1 } } c y
        else s.breach c 106

end Sys2Proof.Machine
end

