-- ==== Sys2Proof/Machine/Vector.lean ====
section
/-!
DEFINITION. The vector-slot instructions of the chambers (R83-R100): vector arithmetic and compares, predicates, multiplies and
accumulators, SAMPLE, COVER, BLEND, LUT16, HEALTH and REQ.PUT.
-/
namespace Sys2Proof.Machine

/-! ## Types (R43, R83) -/

/-- Minor bits 7:6: u16, s16, q1.15, u0.16. s16 and q1.15 are signed. -/
def isSigned (ty : Nat) : Bool := ty = 1 || ty = 2

/-- A lane as the type reads it. -/
def laneVal (ty n : Nat) : Int := if isSigned ty then toSigned 16 n else (n : Int)

/-- Saturation to the type's range, back to lane bits (R43). -/
def satLane (ty : Nat) (z : Int) : Nat :=
  if isSigned ty then ofSigned 16 (clampInt (-32768) 32767 z) else ofSigned 16 (clampInt 0 65535 z)

/-! ## Major 0x30 (R83, R84) -/

/-- The lane operations that write a vector: minor bits 5:0, the type, the two lanes, the b field as count n, and the lane number. None
where the minor is not one of them. -/
def vecLane (op ty n : Nat) (a b i : Nat) : Option Nat :=
  match op with
  | 0x00 => some (satLane ty (laneVal ty a + laneVal ty b))
  | 0x01 => some (satLane ty (laneVal ty a - laneVal ty b))
  | 0x02 => some (a &&& b)
  | 0x03 => some (a ||| b)
  | 0x04 => some (a ^^^ b)
  | 0x05 => some (if laneVal ty a ≤ laneVal ty b then a else b)
  | 0x06 => some (if laneVal ty a ≤ laneVal ty b then b else a)
  | 0x07 => some a
  | 0x08 => some (satLane ty (laneVal ty a * (2 ^ (n % 16) : Nat)))
  | 0x09 => some (ofSigned 16 (roundShift (laneVal ty a) (n % 16)))
  | 0x0C => some i
  | _ => none

/-- The compares: minor bits 5:0 (R83). -/
def vecCmp (op ty a b : Nat) : Option Bool :=
  match op with
  | 0x10 => some (a = b)
  | 0x11 => some (a ≠ b)
  | 0x12 => some (laneVal ty a < laneVal ty b)
  | 0x13 => some (laneVal ty a ≤ laneVal ty b)
  | _ => none

/-- Fields that a major-0x30 operation neither reads nor writes must be 0 (R83): b of VMOV, a and b of VIDX. -/
def vecReservedOk (op : Nat) (f : Fields) : Bool :=
  if op = 0x07 then f.b = 0#5 else if op = 0x0C then f.a = 0#5 && f.b = 0#5 else true

/-- The destination predicate of a compare, predicate operation or HEALTH: bits 23:21, with 25:24 zero (R84, R97). -/
def Fields.pdOk (f : Sys2Proof.Fields) : Bool := f.d.toNat < 8
def predDest (f : Sys2Proof.Fields) : BitVec 3 := f.d.setWidth 3

def State.vPredOp (s : State) (c : ChamberId) (f : Sys2Proof.Fields) : State :=
  let x := s.chAt c
  let op := f.minor.toNat % 64
  if 7 < f.d.toNat ∨ 7 < f.a.toNat ∨ 7 < f.b.toNat then s.illegal c
  else
    let a := x.predicate (f.a.setWidth 3)
    let b := x.predicate (f.b.setWidth 3)
    match op with
    | 0x18 => s.sendPred c 2 (predDest f) (x.predicate f.pred) (a &&& b)
    | 0x19 => s.sendPred c 2 (predDest f) (x.predicate f.pred) (a ||| b)
    | 0x1A => s.sendPred c 2 (predDest f) (x.predicate f.pred) (a ^^^ b)
    | _ => s.illegal c

/-- VEXT (R85): lane n of va to sd, two cycles later; it must carry p0. -/
def State.vVext (s : State) (c : ChamberId) (f : Sys2Proof.Fields) : State :=
  if f.pred ≠ 0#3 then s.illegal c
  else s.sendScalar c 2 1 f.d (lane ((s.chAt c).vector f.a) f.b.toNat)

/-- VBCAST (R83, R85). -/
def State.vVbcast (s : State) (c : ChamberId) (f : Sys2Proof.Fields) : State :=
  let x := s.chAt c
  if f.b ≠ 0#5 then s.illegal c
  else s.sendVec c 2 1 f.d (x.predicate f.pred) (mkVec (fun _ => x.scalar f.a))

/-- The bounds of a CLAMP lane (R86): the upper bound where the bounds cross. -/
def clampLane (ty v lo hi : Nat) : Nat :=
  let m := if laneVal ty v ≤ laneVal ty lo then lo else v
  if laneVal ty m ≤ laneVal ty hi then m else hi

/-- CLAMP (R86): vb even. -/
def State.vClamp (s : State) (c : ChamberId) (f : Sys2Proof.Fields) : State :=
  let x := s.chAt c
  let ty := f.minor.toNat / 64
  if f.b.toNat % 2 = 1 then s.illegal c
  else
    let lo := x.vector f.b
    let hi := x.vector (f.b + 1#5)
    s.sendVec c 2 1 f.d (x.predicate f.pred) (mkVec (fun i => clampLane ty (lane (x.vector f.a) i) (lane lo i) (lane hi i)))

/-- MINMAX (R87): vd even; both results land in the same cycle. -/
def State.vMinmax (s : State) (c : ChamberId) (f : Sys2Proof.Fields) : State :=
  let x := s.chAt c
  let ty := f.minor.toNat / 64
  if f.d.toNat % 2 = 1 then s.illegal c
  else
    let a := x.vector f.a
    let b := x.vector f.b
    let m := x.predicate f.pred
    (s.sendVec c 2 1 f.d m (mkVec (fun i => (vecLane 0x05 ty 0 (lane a i) (lane b i) i).getD 0))).sendVec c 2 1 (f.d + 1#5) m
      (mkVec (fun i => (vecLane 0x06 ty 0 (lane a i) (lane b i) i).getD 0))

/-- Every other operation of major 0x30 (R83). -/
def State.vVectorOp (s : State) (c : ChamberId) (f : Sys2Proof.Fields) : State :=
  let x := s.chAt c
  let op := f.minor.toNat % 64
  let ty := f.minor.toNat / 64
  let a := x.vector f.a
  let b := x.vector f.b
  if op = 0x0A then s.vVbcast c f
  else if op = 0x0B then s.vVext c f
  else if op = 0x0D then s.vClamp c f
  else if op = 0x0E then s.vMinmax c f
  else if 0x18 ≤ op ∧ op ≤ 0x1A then s.vPredOp c f
  else if (vecLane op ty f.b.toNat 0 0 0).isSome then
    if vecReservedOk op f then
      s.sendVec c 2 1 f.d (x.predicate f.pred) (mkVec (fun i => (vecLane op ty f.b.toNat (lane a i) (lane b i) i).getD 0))
    else s.illegal c
  else if (vecCmp op ty 0 0).isSome then
    if 7 < f.d.toNat then s.illegal c
    else s.sendPred c 2 (predDest f) (x.predicate f.pred) (mkPred (fun i => (vecCmp op ty (lane a i) (lane b i)).getD false))
  else s.illegal c

/-! ## Major 0x31 (R88) -/

/-- The exact product of two lanes under the type. -/
def laneProduct (ty a b : Nat) : Int := laneVal ty a * laneVal ty b

/-- The narrowed product of VMUL (R88). -/
def vmulLane (ty a b : Nat) : Nat :=
  let p := laneProduct ty a b
  satLane ty (if ty = 2 then roundShift p 15 else if ty = 3 then roundShift p 16 else p)

/-- Major 0x31 by minor bits 5:0: 0 VMUL, 1 VMULA, 2 VMAC, 3 ACC.NARROW. An accumulator field uses two bits, the rest zero. -/
def State.vMulOp (s : State) (c : ChamberId) (op : Nat) (f : Sys2Proof.Fields) : State :=
  let x := s.chAt c
  let ty := f.minor.toNat / 64
  let a := x.vector f.a
  let b := x.vector f.b
  let m := x.predicate f.pred
  match op with
  | 0 => s.sendVec c 4 1 f.d m (mkVec (fun i => vmulLane ty (lane a i) (lane b i)))
  | 1 => if 3 < f.d.toNat then s.illegal c
    else s.send c 4 1 (.acc (f.d.setWidth 2).toFin m (mkAcc (fun i => laneProduct ty (lane a i) (lane b i))))
  | 2 => if 3 < f.d.toNat then s.illegal c
    else s.send c 4 1 (.mac (f.d.setWidth 2).toFin m (mkAcc (fun i => laneProduct ty (lane a i) (lane b i))))
  | 3 => if 3 < f.a.toNat then s.illegal c
    else
      let acc := x.accum (f.a.setWidth 2)
      s.sendVec c 4 1 f.d m (mkVec (fun i => satLane ty (roundShift (accLane acc i) f.b.toNat)))
  | _ => s.illegal c

/-! ## SAMPLE (R89-R93) -/

/-- A window descriptor (R90). -/
structure Window where
  base : Nat
  pitch : Nat
  wM1 : Nat
  hM1 : Nat
  format : Nat
deriving DecidableEq, Repr

/-- Descriptor d, from line 4,080 + d; FORMAT 4-255 reads as 2 (R90). -/
def Chamber.window (x : Chamber) (d : Nat) : Window :=
  let a := (4080 + d) * 64
  let w16 := fun k => x.lsByte (a + k) + 256 * x.lsByte (a + k + 1)
  let fmt := x.lsByte (a + 10)
  { base := (w16 0 + 65536 * w16 2) % 262144, pitch := w16 4, wM1 := w16 6, hM1 := w16 8, format := if fmt < 4 then fmt else 2 }

/-- Texel (i, j) after clamping, expanded to u16, with the byte addresses it reads (R91). -/
def Chamber.texel (x : Chamber) (w : Window) (channel : Nat) (i j : Int) : Nat × List Nat :=
  let ci := (clampInt 0 w.wM1 i).toNat
  let cj := (clampInt 0 w.hM1 j).toNat
  let row := w.base + cj * w.pitch
  match w.format with
  | 0 => (x.lsByte (row + ci) * 257, [row + ci])
  | 1 =>
    let b := row + 3 * (ci / 2)
    if ci % 2 = 0 then
      let v := x.lsByte b + 256 * (x.lsByte (b + 1) % 16)
      (v * 16 + v / 256, [b, b + 1])
    else
      let v := x.lsByte (b + 1) / 16 + 16 * x.lsByte (b + 2)
      (v * 16 + v / 256, [b + 1, b + 2])
  | 2 => (x.lsWord (row + 2 * ci), [row + 2 * ci])
  | _ => (x.lsWord (row + 4 * ci + 2 * channel), [row + 4 * ci + 2 * channel])

/-- The Catmull-Rom weights of R92, in units of 2^-19. -/
def bicubicWeight (k : Int) (n : Nat) : Int :=
  let m : Int := n
  if k = -1 then -(m ^ 3) + 128 * m ^ 2 - 4096 * m
  else if k = 0 then 3 * m ^ 3 - 320 * m ^ 2 + 524288
  else if k = 1 then -(3 * m ^ 3) + 256 * m ^ 2 + 4096 * m
  else m ^ 3 - 64 * m ^ 2

/-- The texel offsets a filter reads around (ix, iy): 0..1 bilinear, -1..2 bicubic (R92). -/
def filterSpan (bicubic : Bool) : List Int := if bicubic then [-1, 0, 1, 2] else [0, 1]

/-- One lane of SAMPLE (R92). -/
def Chamber.sampleLane (x : Chamber) (w : Window) (bicubic : Bool) (channel xc yc : Nat) : Nat :=
  let ix : Int := (xc / 64 : Nat)
  let iy : Int := (yc / 64 : Nat)
  let fx := xc % 64
  let fy := yc % 64
  let t := fun (i j : Int) => (x.texel w channel (ix + i) (iy + j)).1
  if bicubic then
    let acc := (filterSpan true).foldl (fun acc j => (filterSpan true).foldl (fun acc k =>
      acc + bicubicWeight k fx * bicubicWeight j fy * (t k j : Int)) acc) 0
    (clampInt 0 65535 (Int.ediv (acc + 137438953472) 274877906944)).toNat
  else
    let top := t 0 0 * (64 - fx) + t 1 0 * fx
    let bot := t 0 1 * (64 - fx) + t 1 1 * fx
    (top * (64 - fy) + bot * fy + 2048) / 4096

/-- The local-store lines a SAMPLE touches: its descriptor line and the line of every texel byte of every lane (R93). -/
def Chamber.sampleLines (x : Chamber) (w : Window) (d : Nat) (bicubic : Bool) (channel : Nat) (vx vy : VecW) : List Nat :=
  (4080 + d) :: (List.range 32).flatMap (fun i =>
    (filterSpan bicubic).flatMap (fun j => (filterSpan bicubic).flatMap (fun k =>
      (x.texel w channel ((lane vx i / 64 : Nat) + k) ((lane vy i / 64 : Nat) + j)).2.map (fun a => a % 262144 / 64))))

/-- SAMPLE, major 0x32 (R89). -/
def State.vSample (s : State) (c : ChamberId) (f : Sys2Proof.Fields) : State :=
  let x := s.chAt c
  let m := f.minor.toNat
  if m / 16 % 4 ≠ 0 then s.illegal c
  else
    let bic := m / 128 = 1
    let chn := m / 64 % 2
    let d := m % 16
    let w := x.window d
    let vx := x.vector f.a
    let vy := x.vector f.b
    let s := s.touch c (x.sampleLines w d bic chn vx vy)
    s.sendVec c 12 1 f.d (x.predicate f.pred) (mkVec (fun i => x.sampleLane w bic chn (lane vx i) (lane vy i)))

/-! ## COVER (R94, R155, R159, R160) -/

/-- The transform of a staged header, and its tile origin (R157, R159). -/
structure CoverHeader where
  a : Int
  b : Int
  c : Int
  d : Int
  tx : Int
  ty : Int
  ox : Nat
  oy : Nat
  n : Nat
deriving DecidableEq, Repr

/-- xf() of R155: a glyph point to an array point in 1/256 pixel. -/
def CoverHeader.xf (h : CoverHeader) (p : Int × Int) : Int × Int :=
  (Int.ediv (h.a * p.1 + h.b * p.2 + 32768) 65536 + h.tx, Int.ediv (h.c * p.1 + h.d * p.2 + 32768) 65536 + h.ty)

/-- The eight line edges of one segment (start, control, end), flattened (R160). -/
def flattenSeg (h : CoverHeader) (p0 pc p1 : Int × Int) : List ((Int × Int) × (Int × Int)) :=
  let q0 := h.xf p0
  let qc := h.xf pc
  let q1 := h.xf p1
  let at_ := fun (m : Nat) =>
    let w := fun (u v t : Int) =>
      Int.ediv (((8 - m : Int) ^ 2) * u + 2 * m * (8 - m : Int) * v + (m : Int) ^ 2 * t + 32) 64
    (w q0.1 qc.1 q1.1, w q0.2 qc.2 q1.2)
  (List.range 8).map (fun m => (if m = 0 then q0 else at_ m, at_ (m + 1)))

/-- The winding of the edges around a sample (R160). -/
def winding (edges : List ((Int × Int) × (Int × Int))) (sx sy : Int) : Int :=
  edges.foldl (fun w e =>
    let a := e.1
    let b := e.2
    let ev := (b.1 - a.1) * (sy - a.2) - (sx - a.1) * (b.2 - a.2)
    if a.2 < b.2 ∧ a.2 ≤ sy ∧ sy < b.2 ∧ 0 < ev then w + 1
    else if b.2 < a.2 ∧ b.2 ≤ sy ∧ sy < a.2 ∧ ev < 0 then w - 1
    else w) 0

/-- cover() of R160 for the pixel (i, r) of a tile whose edges are given. -/
def coverPixel (h : CoverHeader) (edges : List ((Int × Int) × (Int × Int))) (i r : Nat) : Nat :=
  let count := (List.range 16).foldl (fun n v => (List.range 16).foldl (fun n u =>
    let sx : Int := (256 * (h.ox + i) + 16 * u + 8 : Nat)
    let sy : Int := (256 * (h.oy + r) + 16 * v + 8 : Nat)
    if winding edges sx sy ≠ 0 then n + 1 else n) n) 0
  min (count * 256) 65535

/-- The header and the edges of the edge block at line `first` of a byte source: `byte k` is byte k of the block (R157, R159). -/
def coverHeader (byte : Nat → Nat) : CoverHeader :=
  let w16 := fun k => byte k + 256 * byte (k + 1)
  let s32 := fun k => toSigned 32 (w16 k + 65536 * w16 (k + 2))
  { a := s32 0, b := s32 4, c := s32 8, d := s32 12, tx := s32 16, ty := s32 20, ox := w16 24, oy := w16 26, n := min (byte 28) 64 }

def coverEdges (h : CoverHeader) (byte : Nat → Nat) : List ((Int × Int) × (Int × Int)) :=
  let s16 := fun k => toSigned 16 (byte k + 256 * byte (k + 1))
  (List.range h.n).flatMap (fun k =>
    let p := 64 + 12 * k
    flattenSeg h (s16 p, s16 (p + 2)) (s16 (p + 4), s16 (p + 6)) (s16 (p + 8), s16 (p + 10)))

/-- COVER, major 0x33 (R94). -/
def State.vCover (s : State) (c : ChamberId) (f : Sys2Proof.Fields) : State :=
  let x := s.chAt c
  let m := f.minor.toNat
  if m / 4 ≠ 0 then s.illegal c
  else
    let first := regionLine m (x.scalar f.a)
    let byte := x.runByte first
    let h := coverHeader byte
    let edges := coverEdges h byte
    let s := s.touch c (lineRun first 13)
    s.sendVec c 8 1 f.d (x.predicate f.pred) (mkVec (fun i => coverPixel h edges i (x.scalar f.b % 32)))

/-! ## BLEND (R95) -/

/-- One lane of BLEND; none for mode 7. -/
def blendLane (mode d sv α : Nat) : Option Nat :=
  let a1 := α + α / 32768
  let sa := (sv * a1 + 32768) / 65536
  let sw := (sv * a1 + 65535 * (65536 - a1) + 32768) / 65536
  match mode with
  | 0 => some ((sv * a1 + d * (65536 - a1) + 32768) / 65536)
  | 1 => some (min 65535 (d + sa))
  | 2 => some (max d sa)
  | 3 => some (min d sw)
  | 4 => some ((d * (sw + sw / 32768) + 32768) / 65536)
  | 5 => some sv
  | 6 => some (if α ≠ 0 then 0 else d)
  | _ => none

/-- BLEND, major 0x34: minor bits 7:3 zero, mode 7 illegal (R95). -/
def State.vBlend (s : State) (c : ChamberId) (f : Sys2Proof.Fields) : State :=
  let x := s.chAt c
  let m := f.minor.toNat
  if 6 < m then s.illegal c
  else s.sendVec c 2 1 f.d (x.predicate f.pred)
    (mkVec (fun i => (blendLane m (lane (x.vector f.d) i) (lane (x.vector f.a) i) (lane (x.vector f.b) i)).getD 0))

/-! ## LUT16 (R96) -/

def Chamber.lutLane (x : Chamber) (first v : Nat) : Nat :=
  let i := v / 64
  let f := v % 64
  (x.runWord first (2 * i) * (64 - f) + x.runWord first (2 * i + 2) * f + 32) / 64

/-- LUT16, major 0x35 (R96). -/
def State.vLut16 (s : State) (c : ChamberId) (f : Sys2Proof.Fields) : State :=
  let x := s.chAt c
  let m := f.minor.toNat
  if m / 4 ≠ 0 then s.illegal c
  else
    let first := regionLine m (x.scalar f.b)
    let s := s.touch c (lineRun first 33)
    s.sendVec c 3 1 f.d (x.predicate f.pred) (mkVec (fun i => x.lutLane first (lane (x.vector f.a) i)))

/-! ## HEALTH (R97, R98) -/

/-- A map marks the sub-emitter of pixel (px, py), channel ch (R213). -/
def marked (m : HealthMap) (px py ch : Nat) : Bool :=
  (Sparse.get m 0xFFFFFFFF#32 (py * 64 + (2 * px + ch) / 32)).getLsbD ((2 * px + ch) % 32)

/-- The pixel is healthy in the map for the mode: 0 warm, 1 cool, 2 both (R97). -/
def healthy (m : HealthMap) (mode px py : Nat) : Bool :=
  (mode = 1 || !marked m px py 0) && (mode = 0 || !marked m px py 1)

/-- HEALTH, major 0x36 (R97). -/
def State.vHealth (s : State) (c : ChamberId) (f : Sys2Proof.Fields) : State :=
  let x := s.chAt c
  let m := f.minor.toNat
  if 7 < f.d.toNat ∨ 2 < m then s.illegal c
  else
    let row := x.scalar f.a % 1024
    let group := x.scalar f.b % 32
    s.sendPred c 3 (predDest f) (x.predicate f.pred) (mkPred (fun i => healthy s.pairMap m (32 * group + i) row))

/-! ## REQ.PUT (R99, R100) -/

/-- A segment key: row × 64 + segment. -/
def segKey (sb : Nat) : Nat := sb / 64 % 64 * 64 + sb % 64

/-- The delivery of 32 lanes to the port of a reach: recorded; waiting for the trim stage unless the reach is fenced, whose port
discards what it has counted (R99, R100). -/
def Reach.deliver (x : Reach) (fenced : Bool) (key : Nat) (v : VecW) : Reach :=
  { x with
    delivered := Sparse.insert x.delivered key v
    waiting := if fenced || x.waiting.contains key then x.waiting else x.waiting ++ [key] }

/-- The segment has been delivered in this lock cycle. -/
def Reach.has (x : Reach) (key : Nat) : Bool := x.delivered.any (fun c => c.1 = key)

/-- REQ.PUT, major 0x37 (R99): the fault of a repeated segment depends on the flight alone (R100). -/
def State.vReqPut (s : State) (c : ChamberId) (f : Sys2Proof.Fields) : State :=
  let x := s.chAt c
  if f.d ≠ 0#5 ∨ f.minor ≠ 0#8 ∨ f.pred ≠ 0#3 then s.illegal c
  else
    let key := segKey (x.scalar f.b)
    let r := s.reachAt c
    let s1 := s.setReach c (r.deliver (s.bitOf Reg.DRV_REACH_STATE_FENCED c.val) key (x.vector f.a))
    if r.has key then s1.breach c 104 else s1

end Sys2Proof.Machine
end

