-- ==== Sys2Proof/Machine/Mgmt.lean ====
section
/-!
DEFINITION. The management cores (R58-R65, R73-R76) but for their loads and stores: traps, interrupts and NMIs, protection regions,
control words, and the control-flow and system instructions.
-/
namespace Sys2Proof.Machine

/-- The value of a register; s0 reads 0 (R58: the scalar subset is the common one). -/
def Mgmt.reg (m : Mgmt) (r : BitVec 5) : Nat := if r = 0#5 then 0 else (m.x[r.toFin]).toNat

/-- A register write; one to s0 is discarded. -/
def Mgmt.setReg (m : Mgmt) (r : BitVec 5) (v : Nat) : Mgmt :=
  if r = 0#5 then m else { m with x := m.x.set r.toFin (BitVec.ofNat 32 v) }

def State.setMgmt (s : State) (m : Mgmt) : State := { s with mgmt := m }

/-- A double trap: FS002, nothing stored, and the cores stop until the reaction acts. DEDUCED: a reaction acts on the cores by an NMI or an
interrupt, at once, or by a chip reset; BR and HD leave them stopped (R63, R252). -/
def State.doubleTrap (s : State) : State :=
  let s := State.raise (s.setMgmt { s.mgmt with stopped := true }) 2
  if s.on (Reg.FLT_REACT_NMI 2) || s.on (Reg.FLT_REACT_INT 2) then s.setMgmt { s.mgmt with stopped := false } else s

/-- A trap with cause and value, `at_` the address it stores (R63); with TRAP_ACTIVE set, a double trap. -/
def State.trapAt (s : State) (cause val : Nat) (at_ : W32) : State :=
  if s.mgmt.trapActive then s.doubleTrap
  else s.setMgmt { s.mgmt with
    trapCause := BitVec.ofNat 32 cause, trapPc := at_, trapVal := BitVec.ofNat 32 val, trapActive := true, ie := false,
    pc := s.mgmt.trapVector, waiting := false }

/-- A trap of the instruction at the program counter. -/
def State.trap (s : State) (cause val : Nat) : State := s.trapAt cause val s.mgmt.pc

/-- A trap whose value the spec does not state: a free value. -/
def State.trapOpen (s : State) (cause : Nat) : State := State.trap s.draw cause (Config.freeBits 32 s.fresh)

/-- The protection region that decides an address: the highest-numbered enabled one that contains it (R61). -/
def Mgmt.region (m : Mgmt) (addr : Nat) : Option (Fin 16) :=
  (List.finRange 16).reverse.find? (fun i =>
    (m.protBase[i]).toNat % 2 = 1 && (m.protBase[i]).toNat / 4096 ≤ addr / 4096 && addr / 4096 ≤ (m.protLimit[i]).toNat / 4096)

/-- The access is permitted: always at boot level; at firmware level where the deciding region grants it: bit 2 read, 1 write,
0 execute (R60-R62). -/
def State.permits (s : State) (addr grant : Nat) : Bool :=
  s.bootLevel || (match s.mgmt.region addr with
    | some i => (s.mgmt.protLimit[i]).toNat.testBit grant
    | none => false)

/-- A management instruction: nothing while the cores are stopped or wait under WFI; a fetch that no region grants traps with cause
0x03 (R61, R63, R74, R75). -/
def State.issueMgmt (s : State) (f : State → State) : State :=
  if s.mgmt.stopped then s
  else if s.mgmt.waiting && !s.mgmt.intPending && !s.mgmt.nmiPending then s
  else
    let s := s.setMgmt { s.mgmt with waiting := false }
    if s.permits s.mgmt.pc.toNat 0 then f s else (s.trap 3 s.mgmt.pc.toNat).raise 1

/-- The next instruction. -/
def State.nextPc (s : State) : State := s.setMgmt { s.mgmt with pc := s.mgmt.pc + 4#32 }

/-- A register result, then the next instruction. -/
def State.mResult (s : State) (d : BitVec 5) (v : Nat) : State := State.nextPc (s.setMgmt (s.mgmt.setReg d v))

/-- An illegal instruction: cause 0x01 with the instruction word (R63, R66). -/
def State.mIllegal (s : State) (major : Nat) (f : Fields) : State := s.trap 1 (f.word major)

/-- The predicate field must be 000 in every Elvoth-S encoding that has one (R75). -/
def State.mPred (s : State) (major : Nat) (f : Fields) (g : State → State) : State :=
  if f.pred = 0#3 then g s else s.mIllegal major f

/-! ## Common and arithmetic instructions (R69-R72, R76) -/

def State.mScalarOp (s : State) (f : Fields) : State :=
  s.mPred 0 f (fun s => match scalarAlu 32 f.minor.toNat (s.mgmt.reg f.a) (s.mgmt.reg f.b) with
    | none => s.mIllegal 0 f
    | some (v, _) => s.mResult f.d v)

def State.mScalarImm (s : State) (op : ImmOp) (f : Fields) : State :=
  s.mPred (immMajor op) f (fun s => s.mResult f.d (scalarImm 32 op (s.mgmt.reg f.a) f.imm13))

def State.mLi (s : State) (f : Fields) : State := if f.a = 0#5 then s.mResult f.d f.imm16 else s.mIllegal 0x0A f

/-- LUI writes bits 31:16 and leaves bits 15:0 (R72). -/
def State.mLui (s : State) (f : Fields) : State :=
  if f.a = 0#5 then s.mResult f.d (f.imm16 * 65536 + s.mgmt.reg f.d % 65536) else s.mIllegal 0x0B f

/-! ## Control flow (R74) -/

/-- The conditions of R74. -/
def branchTaken (op : BranchOp) (a b : Nat) : Bool :=
  match op with
  | .beq => a = b
  | .bne => a ≠ b
  | .blt => toSigned 32 a < toSigned 32 b
  | .bge => toSigned 32 b ≤ toSigned 32 a
  | .bltu => a < b
  | .bgeu => b ≤ a

def branchMajor : BranchOp → Nat
  | .beq => 0x18
  | .bne => 0x19
  | .blt => 0x1A
  | .bge => 0x1B
  | .bltu => 0x1C
  | .bgeu => 0x1D

/-- An address an offset of words away. -/
def pcPlus (pc : W32) (words : Int) : W32 := BitVec.ofNat 32 (ofSigned 32 ((pc.toNat : Int) + 4 * words))

def State.mBranch (s : State) (op : BranchOp) (f : Fields) : State :=
  if f.d ≠ 0#5 then s.mIllegal (branchMajor op) f
  else if branchTaken op (s.mgmt.reg f.a) (s.mgmt.reg f.b) then s.setMgmt { s.mgmt with pc := pcPlus s.mgmt.pc f.off11 }
  else s.nextPc

def State.mJal (s : State) (f : Fields) : State :=
  if f.a ≠ 0#5 then s.mIllegal 0x1E f
  else
    let t := pcPlus s.mgmt.pc f.off16
    let m := s.mgmt.setReg f.d (s.mgmt.pc + 4#32).toNat
    s.setMgmt { m with pc := t }

/-- JALR reads sa before it writes sd (R74). -/
def State.mJalr (s : State) (f : Fields) : State :=
  s.mPred 0x1F f (fun s =>
    let t := ofSigned 32 ((s.mgmt.reg f.a : Int) + toSigned 13 f.imm13) / 4 * 4
    let m := s.mgmt.setReg f.d (s.mgmt.pc + 4#32).toNat
    s.setMgmt { m with pc := BitVec.ofNat 32 t })

/-! ## Control words (R62) -/

/-- Management cycles since reset: one every 2 ns (R18, R62). -/
def State.mgmtCycles (s : State) : Nat := (s.now - s.mgmt.born) / 2

/-- CW_STATUS. -/
def State.cwStatus (s : State) : Nat :=
  b2n s.mgmt.ie + 2 * b2n s.mgmt.trapActive + 4 * b2n s.mgmt.nmiActive + 8 * b2n s.bootLevel

/-- The value of control word i; an unassigned index reads 0, as does the write-only CW_NMI_ACK. -/
def State.cwRead (s : State) (i : Nat) : Nat :=
  match i with
  | 0x00 => s.cwStatus
  | 0x01 => s.mgmt.trapCause.toNat
  | 0x02 => s.mgmt.trapPc.toNat
  | 0x03 => s.mgmt.trapVal.toNat
  | 0x04 => s.mgmt.trapVector.toNat
  | 0x05 => s.mgmt.nmiVector.toNat
  | 0x06 => s.mgmt.nmiPc.toNat
  | 0x08 => s.mgmtCycles % 2 ^ 32
  | 0x09 => s.mgmt.cycleHi.toNat
  | _ =>
    if h : 0x10 ≤ i ∧ i < 0x20 then (s.mgmt.protBase[i - 0x10]'(by omega)).toNat
    else if h : 0x20 ≤ i ∧ i < 0x30 then (s.mgmt.protLimit[i - 0x20]'(by omega)).toNat
    else 0

/-- Reading CW_CYCLE_LO latches the high word (R62). -/
def State.cwLatch (s : State) (i : Nat) : State :=
  if i = 8 then s.setMgmt { s.mgmt with cycleHi := BitVec.ofNat 32 (s.mgmtCycles / 2 ^ 32) } else s

/-- The NMI is acknowledged: the escalation timer stops (R64, R257). -/
def State.nmiAck (s : State) : State :=
  State.put { s with mgmt := { s.mgmt with nmiAcked := true }, flt := { s.flt with escalateAt := none } } Reg.FLT_NMI_TIMING 0

/-- The control words writable at boot level only. -/
def cwBoot (i : Nat) : Bool := i = 4 || i = 5 || (0x10 ≤ i && i < 0x30)

/-- A write of control word i at a level that permits it; an unassigned or read-only index discards it. -/
def State.cwWrite (s : State) (i v : Nat) : State :=
  match i with
  | 0x00 => s.setMgmt { s.mgmt with ie := v.testBit 0, trapActive := v.testBit 1, nmiActive := v.testBit 2 }
  | 0x02 => s.setMgmt { s.mgmt with trapPc := BitVec.ofNat 32 v }
  | 0x04 => s.setMgmt { s.mgmt with trapVector := BitVec.ofNat 32 v }
  | 0x05 => s.setMgmt { s.mgmt with nmiVector := BitVec.ofNat 32 v }
  | 0x07 => if v % 2 = 1 then s.nmiAck else s
  | _ =>
    if h : 0x10 ≤ i ∧ i < 0x20 then
      s.setMgmt { s.mgmt with protBase := s.mgmt.protBase.set (i - 0x10) (BitVec.ofNat 32 (v / 4096 * 4096 + v % 2)) (by omega) }
    else if h : 0x20 ≤ i ∧ i < 0x30 then
      s.setMgmt { s.mgmt with protLimit := s.mgmt.protLimit.set (i - 0x20) (BitVec.ofNat 32 (v / 4096 * 4096 + v % 8)) (by omega) }
    else s

/-- CWR (R62, R75): format C with the a and b fields zero. -/
def State.mCwr (s : State) (f : Fields) : State :=
  s.mPred 0x20 f (fun s =>
    if f.a ≠ 0#5 ∨ f.b ≠ 0#5 then s.mIllegal 0x20 f
    else (s.cwLatch f.minor.toNat).mResult f.d (s.cwRead f.minor.toNat))

/-- CWW (R62, R75) with the write it makes: a boot-level word at firmware level traps with cause 0x02 and is unchanged. -/
def State.mCwwBy (s : State) (f : Fields) (write : State → State) : State :=
  s.mPred 0x21 f (fun s =>
    if f.d ≠ 0#5 ∨ f.b ≠ 0#5 then s.mIllegal 0x21 f
    else if cwBoot f.minor.toNat && !s.bootLevel then s.trapOpen 2
    else (write s).nextPc)

/-- CWW. -/
def State.mCww (s : State) (f : Fields) : State := s.mCwwBy f (fun s => s.cwWrite f.minor.toNat (s.mgmt.reg f.a))

/-- CWW where the cores' outputs differ: the control-word write is discarded (R65). -/
def State.mCwwDropped (s : State) (f : Fields) : State := s.mCwwBy f (fun s => s)

/-! ## System instructions (R63, R64, R75) -/

/-- TRAP imm: cause 0x09, value imm. -/
def State.mTrap (s : State) (f : Fields) : State :=
  if f.d ≠ 0#5 ∨ f.a ≠ 0#5 ∨ f.b ≠ 0#5 ∨ f.pred ≠ 0#3 then s.mIllegal 0x22 f else s.trap 9 f.minor.toNat

/-- The format of major 0x23: only the minor is used. -/
def State.mSystem (s : State) (f : Fields) (g : State → State) : State :=
  if f.d ≠ 0#5 ∨ f.a ≠ 0#5 ∨ f.b ≠ 0#5 ∨ f.pred ≠ 0#3 then s.mIllegal 0x23 f else g s

/-- RETT: clears TRAP_ACTIVE, restores IE to 1, resumes at CW_TRAP_PC; without a trap it is illegal. -/
def State.mRett (s : State) (f : Fields) : State :=
  s.mSystem f (fun s =>
    if s.mgmt.trapActive then s.setMgmt { s.mgmt with trapActive := false, ie := true, pc := s.mgmt.trapPc } else s.mIllegal 0x23 f)

/-- A pending NMI is taken: CW_NMI_PC, NMI_ACTIVE, the vector (R64). -/
def State.takeNmi (s : State) : State :=
  s.setMgmt { s.mgmt with nmiPc := s.mgmt.pc, nmiActive := true, nmiPending := false, nmiAcked := false, pc := s.mgmt.nmiVector, waiting := false }

/-- RETN: clears NMI_ACTIVE and continues at CW_NMI_PC; an NMI held pending is taken at once (R64). -/
def State.mRetn (s : State) (f : Fields) : State :=
  s.mSystem f (fun s =>
    if s.mgmt.nmiActive then
      let s := s.setMgmt { s.mgmt with nmiActive := false, pc := s.mgmt.nmiPc }
      if s.mgmt.nmiPending then s.takeNmi else s
    else s.mIllegal 0x23 f)

/-- WFI: the core waits until a maskable interrupt or an NMI is pending. -/
def State.mWfi (s : State) (f : Fields) : State :=
  s.mSystem f (fun s => State.nextPc (s.setMgmt { s.mgmt with waiting := true }))

/-- FENCE: accesses here complete in order, so it only moves on. -/
def State.mFence (s : State) (f : Fields) : State := s.mSystem f (fun s => s.nextPc)

/-- A pending maskable interrupt is taken while IE is 1 and TRAP_ACTIVE is 0: cause 0x10, the address of the next instruction (R63). The
value stored is not stated: a free value. -/
def State.takeInt (s : State) : State :=
  if s.mgmt.intPending && s.mgmt.ie && !s.mgmt.trapActive && !s.mgmt.stopped then
    State.trapOpen (s.setMgmt { s.mgmt with intPending := false }) 0x10
  else s

end Sys2Proof.Machine
end

