-- ==== Sys2Proof/Machine/Clock.lean ====
section
/-!
DEFINITION. SYS_TIME (R18, R287): the device's domain clock, its slewing, and the captures at FRAME_SYNC edges.
-/
namespace Sys2Proof.Machine

/-- What of a slew has been absorbed by device time `now`: 500 ns in each 1,000,000 ns. -/
def Clock.absorbed (c : Clock) (now : Nat) : Int :=
  let room : Int := ((now - c.at_) / 2000 : Nat)
  if 0 ≤ c.slew then min c.slew room else max c.slew (-room)

/-- SYS_TIME at device time `now`. -/
def Clock.read (c : Clock) (now : Nat) : Int := c.base + ((now - c.at_ : Nat) : Int) + c.absorbed now

/-- SYS_TIME, ns. -/
def State.sysTime (s : State) : Nat := (s.clk.read s.now).toNat

/-- An offset takes effect: forward by more than 1 ms as a step, otherwise as a slew that replaces one in progress (R287). -/
def Clock.offset (c : Clock) (now : Nat) (off : Int) : Clock :=
  let t := c.read now
  if 1000000 < off then { c with base := t + off, at_ := now, slew := 0 } else { c with base := t, at_ := now, slew := off }

/-- The capture at a valid FRAME_SYNC edge; the last 8 are kept. -/
def State.captureEdge (s : State) : State :=
  let n := (s.rd (Reg.LNK_TIME_EDGE_EDGE) + 1) % 2 ^ 32
  let s := s.put (Reg.LNK_TIME_EDGE_EDGE) n
  let es := s.clk.edges ++ [(n, s.sysTime)]
  { s with clk := { s.clk with edges := es.drop (es.length - 8) } }

end Sys2Proof.Machine
end

