-- ==== Sys2Proof/Machine/Trust.lean ====
section
/-!
DEFINITION. Trust (R336-R365): OTP and its read check, the owner slots and the rollback count, the key table and what a key may sign,
random data, tokens and certificates, and the host session's and the peer session's handshakes.
-/
namespace Sys2Proof.Machine

/-! ## The identity record (R337) -/

/-- A committed file of a NAND partition. -/
def Nand.file (n : Nand) (part idx : Nat) : Option NFile := n.files.find? (fun f => f.part = part ∧ f.idx = idx)

/-- A copy of the identity record can be read: it stands beside a copy of the trim package, in partition 3 or 4 (R337, R371). DESIGN CHOICE:
the spec gives its place no nearer; it is lost with the first sector that its partition's file has lost. -/
def Nand.identityKept (n : Nand) (part : Nat) : Bool := !((n.file part 0).any (fun f => !f.lost.isEmpty))

/-- The identity record as either copy gives it; empty where none does. -/
def Nand.identity (n : Nand) : List Byte := if n.identityKept 3 || n.identityKept 4 then n.idRecord else []

/-! ## OTP (R338-R340) -/

/-- The device serial. -/
def State.serial (s : State) : List Byte := s.sec.otp.readBytes 0x20 16

/-- The read check of n bytes of OTP at an offset passes (R339). -/
def State.otpOk (s : State) (off n : Nat) : Bool := !(s.sec.otpFail.any (fun b => off * 8 ≤ b && b < (off + n) * 8))

/-- VENDOR_ROOT_HASH; a field that fails its read check matches no key. -/
def State.vendorHash (s : State) : Option (List Byte) := if s.otpOk 0 32 then some (s.sec.otp.readBytes 0 32) else none

/-- IDENTITY_HASH. -/
def State.identityHash (s : State) : Option (List Byte) := if s.otpOk 0x40 32 then some (s.sec.otp.readBytes 0x40 32) else none

/-- The hash of owner slot i. -/
def State.rootHash (s : State) (i : Nat) : List Byte := s.sec.otp.readBytes (0x60 + 32 * i) 32

/-- Slot i is WRITTEN; REVOKED, which a failed read check counts as. -/
def State.slotWritten (s : State) (i : Nat) : Bool := (s.sec.otp.byte (0xE0 + i)).getLsbD 0

def State.slotRevoked (s : State) (i : Nat) : Bool :=
  (s.sec.otp.byte (0xE0 + i)).getLsbD 1 || !(s.otpOk (0x60 + 32 * i) 32) || !(s.otpOk (0xE0 + i) 1)

/-- A slot is usable while WRITTEN is 1 and REVOKED is 0 (R338). -/
def State.slotUsable (s : State) (i : Nat) : Bool := s.slotWritten i && !s.slotRevoked i

/-- The device is provisioned while a slot is usable (R338). -/
def State.provisioned (s : State) : Bool := [0, 1, 2, 3].any s.slotUsable

/-- The bits of a mask over slots 0 to 3. -/
def slotMask (f : Nat → Bool) : Nat := b2n (f 0) + 2 * b2n (f 1) + 4 * b2n (f 2) + 8 * b2n (f 3)

/-- The rollback count: set bits of ROLLBACK; a bit that fails its read check counts as set (R339, R340). -/
def State.rollback (s : State) : Nat :=
  ((List.range 1024).filter (fun i => (s.sec.otp.byte (0x100 + i / 8)).getLsbD (i % 8) || s.sec.otpFail.contains (0x100 * 8 + i))).length

/-- A bit of OTP is programmed to 1. -/
def otpSet (otp : Memory) (b : Nat) : Memory := otp.setByte (b / 8) (otp.byte (b / 8) ||| BitVec.ofNat 8 (2 ^ (b % 8)))

/-- Programming of bits in order; those that took stay programmed. The result is the status of the operation: DONE where every bit took, ERROR
where one failed its read-back (R339), TEMPERATURE where it aborted (R242; DESIGN CHOICE: that is the status R425 gives a closed
window, and the spec names none for an abort). -/
def State.otpProgram (s : State) (bitsToSet : List Nat) (run : OtpRun) : State × Nat :=
  let take := match run with
    | .takes => bitsToSet
    | .fails k => bitsToSet.take k
    | .aborts k => bitsToSet.take k
  let s := { s with sec := { s.sec with otp := take.foldl otpSet s.sec.otp } }
  if take.length = bitsToSet.length then (s, 0)
  else match run with
    | .aborts _ => (s, 5)
    | _ => (s, 2)

/-- The bits that are 1 in bytes to be programmed from an offset. -/
def onesOf (off : Nat) (bs : List Byte) : List Nat :=
  (List.range (bs.length * 8)).filterMap (fun i =>
    if ((bs.drop (i / 8)).headD 0#8).getLsbD (i % 8) then some (off * 8 + i) else none)

/-- SEC_STATUS follows the slots and the key table; debug is open while the device is not provisioned, and FS018 is live while debug is
open on a provisioned device (R362, R365). -/
def State.noteKeys (s : State) : State :=
  let s := ((s.put Reg.SEC_STATUS_USABLE (slotMask s.slotUsable)).put Reg.SEC_STATUS_REVOKED (slotMask s.slotRevoked)).put
    Reg.SEC_STATUS_WRITTEN (slotMask s.slotWritten)
  let s := s.put Reg.SEC_STATUS_KEYS (s.sec.deleg.toList.filter Option.isSome).length
  let wasOpen := s.on Reg.SEC_STATUS_DEBUG_OPEN
  let opened := s.sec.scope != 0 || !s.provisioned
  let s := s.put Reg.SEC_STATUS_DEBUG_OPEN (b2n opened)
  let s := if opened && !wasOpen then s.flag Reg.SEC_EVENT_DEBUG else s
  s.condition 18 (opened && s.provisioned)

/-! ## Keys (R341-R343) -/

/-- The public key of a usable owner root that the key table holds. -/
def State.rootKey (s : State) (i : Nat) : Option (List Byte) :=
  if h : i < 4 then if s.slotUsable i then s.sec.roots[i] else none else none

/-- A delegated key. -/
def State.delegated (s : State) (i : Nat) : Option Cert := if h : i < 16 then s.sec.deleg[i] else none

/-- PERM bits of a certificate (R342). -/
def permFlight : Nat := 0
def permHost : Nat := 1
def permDebug : Nat := 2
def permTelegram : Nat := 3

/-- What a SIGNER byte names for an operation that roots and keys with a PERM bit may sign (R356, R360): its key, and whether it names a key
that is held but may not do this. -/
def State.signer (s : State) (code perm : Nat) : Option (List Byte) × Bool :=
  if code < 4 then (s.rootKey code, false)
  else if 0x10 ≤ code ∧ code < 0x20 then
    match s.delegated (code - 0x10) with
    | some c => if c.perm.testBit perm then (some c.key, false) else (none, true)
    | none => (none, false)
  else (none, false)

/-- A signature over bytes verifies. -/
def sigOk (key msg sig : List Byte) : Bool := Config.ecdsaVerifies key (Config.sha256 msg) sig

/-- The keys that may sign a flight or a library (R343). -/
def State.flightKeys (s : State) : List (List Byte) :=
  if s.provisioned then
    (List.range 4).filterMap s.rootKey ++
    (List.range 16).filterMap (fun i => (s.delegated i).bind (fun c => if c.perm.testBit permFlight then some c.key else none))
  else if s.vendorHash = some (Config.sha256 Config.vendorRoot) then [Config.vendorRoot] else []

/-- The signature block of an image of a size verifies with a key that may sign it (R113, R343). -/
def State.imageSigned (s : State) (img : Blob) (size : Nat) : Bool :=
  let id := img.bytes (size - 128) 32
  match s.flightKeys.find? (fun k => Config.sha256 k = id) with
  | some k => !s.sec.engineOff && sigOk k (img.bytes 0 (size - 128)) (img.bytes (size - 96) 64)
  | none => false

/-- The image names a key that the device holds but that may not sign it (R341). -/
def State.keyMisused (s : State) (img : Blob) (size : Nat) : Bool :=
  let id := img.bytes (size - 128) 32
  let held := (List.range 4).filterMap s.rootKey ++ (List.range 16).filterMap (fun i => (s.delegated i).map Cert.key) ++ [Config.vendorRoot]
  held.any (fun k => Config.sha256 k = id) && !(s.flightKeys.any (fun k => Config.sha256 k = id))

/-! ## Random data (R363) -/

/-- The engine can give random data. -/
def State.entropyOk (s : State) : Bool := !s.sec.entropyFail && !s.sec.engineOff

/-- n bytes from the DRBG: free values. -/
def State.random (s : State) (n : Nat) : State × List Byte := (s.draw, leBytes (Config.freeBits (8 * n) s.fresh) n)

/-- A fresh challenge replaces the current one (R355). -/
def State.newChallenge (s : State) : State × List Byte :=
  let (s, c) := s.random 32
  ({ s with sec := { s.sec with challenge := some c } }, c)

/-! ## Certificates and tokens (R342, R356) -/

def allZero (bs : List Byte) : Bool := bs.all (· = 0#8)

/-- A key certificate that verifies against a usable root and fits the serial: its entry. -/
def State.certOk (s : State) (bs : List Byte) : Option (Nat × Cert) :=
  let root := leAt bs 67 1
  let serial := (bs.drop 72).take 16
  match s.rootKey root with
  | none => none
  | some k =>
    if bs.length = 160 ∧ leAt bs 64 2 < 16 ∧ leAt bs 66 1 < 16 ∧ (allZero serial ∨ serial = s.serial) ∧ allZero ((bs.drop 88).take 8)
      ∧ sigOk k (bs.take 96) (bs.drop 96) then
      some (leAt bs 66 1, { key := bs.take 64, perm := leAt bs 64 2, rootSlot := root, version := leAt bs 68 4, serial := serial })
    else none

/-- The fields of a token but its signature are as they must be; the challenge it carries is the current one (R356). -/
def State.tokenFields (s : State) (bs magic : List Byte) : Bool :=
  bs.length = 128 && bs.take 4 = magic && (bs.drop 4).take 16 = s.serial && some ((bs.drop 20).take 32) = s.sec.challenge &&
  allZero ((bs.drop 54).take 10)

/-- A re-provision token: signed by a usable root. -/
def State.reprovisionOk (s : State) (bs : List Byte) : Bool :=
  s.tokenFields bs [0x52#8, 0x50#8, 0x56#8, 0x31#8] && leAt bs 53 1 = 0 &&
  (match s.rootKey (leAt bs 52 1) with
   | some k => sigOk k (bs.take 64) (bs.drop 64)
   | none => false)

/-- The SIGNER of a re-provision token names a key that the device holds but that may not sign it: a delegated one (R341). -/
def State.reprovisionMisused (s : State) (bs : List Byte) : Bool :=
  let code := leAt bs 52 1
  decide (0x10 ≤ code) && (s.delegated (code - 0x10)).isSome

/-- A debug token: signed by a usable root or a key with PERM.DEBUG; a disabled engine verifies none (R363). -/
def State.debugOk (s : State) (bs : List Byte) : Bool :=
  !s.sec.engineOff && s.tokenFields bs [0x44#8, 0x42#8, 0x47#8, 0x31#8] && (leAt bs 53 1 = 1 || leAt bs 53 1 = 2) &&
  (match (s.signer (leAt bs 52 1) permDebug).1 with
   | some k => sigOk k (bs.take 64) (bs.drop 64)
   | none => false)

/-- The current challenge is cleared. -/
def State.clearChallenge (s : State) : State := { s with sec := { s.sec with challenge := none } }

/-- A debug token is accepted (R356, R362). -/
def State.debugOpens (s : State) (bs : List Byte) : Bool := s.on Reg.SEC_POLICY_DEBUG_TOKENS && s.debugOk bs

/-- An accepted debug token opens debug at its scope, or higher where it stands higher. -/
def State.openDebug (s : State) (bs : List Byte) : State :=
  { s.clearChallenge with sec := { s.clearChallenge.sec with scope := max s.sec.scope (leAt bs 53 1) } }

/-- A refused debug token spends the challenge as well. -/
def State.refuseDebug (s : State) : State := s.clearChallenge.flag Reg.SEC_EVENT_DEBUG

/-- What a refused debug token raises. -/
def State.debugFaults (s : State) (bs : List Byte) : List Nat := if (s.signer (leAt bs 52 1) permDebug).2 then [19, 15] else [19]

/-! ## Sessions (R357-R359) -/

/-- The keys of a session from the shared secret: host-to-device key, device-to-host key, then the two salts (R357). For a peer session
the responder takes the place of the device. -/
def sessionKeys (shared salt info : List Byte) (initiator : Bool) : SessKeys :=
  let k := Config.hkdf shared salt info 72
  let toDev := k.take 32
  let toHost := (k.drop 32).take 32
  let saltDev := (k.drop 64).take 4
  let saltHost := (k.drop 68).take 4
  if initiator then { inKey := toHost, outKey := toDev, inSalt := saltHost, outSalt := saltDev }
  else { inKey := toDev, outKey := toHost, inSalt := saltDev, outSalt := saltHost }

/-- TH2 = SHA-256(HELLO, REPLY). -/
def Handshake.th2 (h : Handshake) : List Byte := Config.sha256 (h.hello ++ h.reply)

/-- The ASCII bytes QSL-HOST and QSL-PEER. -/
def labelHost : List Byte := [0x51#8, 0x53#8, 0x4C#8, 0x2D#8, 0x48#8, 0x4F#8, 0x53#8, 0x54#8]
def labelPeer : List Byte := [0x51#8, 0x53#8, 0x4C#8, 0x2D#8, 0x50#8, 0x45#8, 0x45#8, 0x52#8]

/-- The salt: Nh followed by Nd. -/
def Handshake.salt (h : Handshake) : List Byte := (h.hello.drop 64).take 16 ++ (h.reply.drop 64).take 16

/-- The REPLY to a HELLO: Qd, Nd, the identity record and the identity signature over TH1 (R357). -/
def State.replyTo (s : State) (hello idKey : List Byte) : State × List Byte × List Byte :=
  let n := s.fresh
  let (s, nd) := s.draw.random 16
  let body := Config.ephemeral n ++ nd ++ s.nand.identity
  let sig := Config.ecdsaSign idKey (Config.sha256 (hello ++ body)) s.fresh
  (s.draw, body ++ sig, Config.ecdh n (hello.take 64))

/-- HELLO from the host: the certificate must carry PERM.HOST. -/
def State.hostHello (s : State) (hello : List Byte) : State × Option (List Byte) :=
  match s.certOk (hello.drop 80), s.sec.idKey with
  | some (_, c), some k =>
    if hello.length = 240 ∧ c.perm.testBit permHost then
      let (s, reply, shared) := s.replyTo hello k
      ({ s with sec := { s.sec with hostHs := some { hello := hello, reply := reply, key := c.key, shared := shared, own := 0 } } }, some reply)
    else ({ s with sec := { s.sec with hostHs := none } }, none)
  | _, _ => ({ s with sec := { s.sec with hostHs := none } }, none)

/-- What a refused HELLO raises: FS015 too where its certificate is in order but for PERM.HOST. -/
def State.helloFaults (s : State) (hello : List Byte) : List Nat :=
  if (s.certOk (hello.drop 80)).isSome && s.sec.idKey.isSome && hello.length = 240 then [17, 15] else [17]

/-- FINISH from the host: its key's signature over TH2; the new session takes the place of an old one (R358). -/
def State.hostFinish (s : State) (sig : List Byte) : State × Bool :=
  match s.sec.hostHs with
  | none => (s, false)
  | some h =>
    let s := { s with sec := { s.sec with hostHs := none } }
    if sig.length = 64 ∧ Config.ecdsaVerifies h.key h.th2 sig then
      let s := s.endHost
      let s := { s with sec := { s.sec with host := some (sessionKeys h.shared h.salt (labelHost ++ h.th2) false), hostKey := h.key } }
      ((s.put Reg.SEC_STATUS_HOST_SESSION 1).flag Reg.SEC_EVENT_SESSION, true)
    else (s, false)

/-- The serial that this end's pairing record gives for its twin (R359). -/
def State.twinSerial (s : State) : Option (List Byte) :=
  s.sec.pairing.bind (fun r =>
    if (r.drop 4).take 16 = s.serial then some ((r.drop 20).take 16)
    else if (r.drop 20).take 16 = s.serial then some ((r.drop 4).take 16)
    else none)

/-- An identity record verifies under the vendor root and names a serial; its key (R337). -/
def State.identityOk (s : State) (rec : List Byte) (serial : Option (List Byte)) : Option (List Byte) :=
  if rec.length = 192 ∧ rec.take 4 = [0x49#8, 0x44#8, 0x52#8, 0x31#8] ∧ leAt rec 4 2 = 1 ∧ leAt rec 6 1 = 4 ∧ leAt rec 7 1 = 0
    ∧ serial = some ((rec.drop 8).take 16) ∧ allZero ((rec.drop 88).take 40) ∧ s.vendorHash = some (Config.sha256 Config.vendorRoot)
    ∧ sigOk Config.vendorRoot (rec.take 128) (rec.drop 128) then some ((rec.drop 24).take 64)
  else none

/-- A pairing record: one of its serials is this device's, and a usable root signed it (R359). -/
def State.pairingOk (s : State) (r : List Byte) : Bool :=
  r.length = 128 && r.take 4 = [0x50#8, 0x41#8, 0x49#8, 0x52#8] && allZero ((r.drop 41).take 23) &&
  ((r.drop 4).take 16 = s.serial || (r.drop 20).take 16 = s.serial) &&
  (match s.rootKey (leAt r 40 1) with
   | some k => sigOk k (r.take 64) (r.drop 64)
   | none => false)

/-- The key table that the boot stage rebuilds (R342, R349): a root key whose hash is a usable slot's; a delegated key whose certificate still
stands on a usable root, fits the serial, and permits something. The telegram key is unwrapped under K1 (R341). A disabled engine verifies and unwraps
nothing (R363). -/
def State.rebuildKeys (s : State) : State :=
  match s.nand.saved with
  | none => s.noteKeys
  | some b =>
    let root (i : Nat) : Option (List Byte) :=
      ((b.roots[i]?).join).filter (fun k => !s.sec.engineOff && s.slotUsable i && Config.sha256 k == s.rootHash i)
    let fits (c : Cert) : Bool :=
      (root c.rootSlot).isSome && (allZero c.serial || c.serial == s.serial) && c.perm != 0
    State.noteKeys { s with sec := { s.sec with
      roots := Vector.ofFn (fun (i : Fin 4) => root i.val)
      deleg := Vector.ofFn (fun (i : Fin 16) => ((b.deleg[i.val]?).join).filter fits)
      pairing := b.pairing
      tgKey := if s.sec.k1 && !s.sec.engineOff then b.tgKey else none } }

/-! ## Firmware images (R344, R345) -/

/-- A signature block at an offset: its key's hash, and that it verifies over every byte before it. -/
def imageSig (img : Blob) (at_ : Nat) : List Byte × Bool :=
  let key := img.bytes at_ 64
  (Config.sha256 key, sigOk key (img.bytes 0 at_) (img.bytes (at_ + 64) 64))

/-- Check 1 of R345. -/
def imageLayout (img : Blob) : Bool :=
  let size := img.le 0x0C 4
  let entry (o : Nat) : Bool := decide (o % 4 = 0 ∧ 0x100 ≤ o ∧ o + 256 < size)
  img.bytes 0 4 = [0x46#8, 0x57#8, 0x49#8, 0x31#8] && img.le 4 2 = 1 && decide (size = img.len ∧ size % 64 = 0 ∧ 512 ≤ size ∧ size ≤ 458752) &&
  entry (img.le 0x10 4) && entry (img.le 0x14 4) && decide (img.le 6 1 < 2) && img.le 0x0A 2 = 0 && img.zeros 0x1C 0x100 && decide (img.le 8 2 ≤ 1024)

/-- A hash is that of a usable owner slot. -/
def State.usableHash (s : State) (h : List Byte) : Bool := [0, 1, 2, 3].any (fun i => s.slotUsable i && s.rootHash i = h)

/-- A held key has been used on an image outside its list (R341): in SIG1 a delegated key, or an owner root where the image is not owner-built;
in SIG2 a delegated key. `code` is the check that failed. -/
def State.firmwareMisused (s : State) (img : Blob) (code : Nat) : Bool :=
  let size := img.le 0x0C 4
  let h (at_ : Nat) : List Byte := Config.sha256 (img.bytes at_ 64)
  let table (x : List Byte) : Bool := (List.range 16).any (fun i => (s.delegated i).any (fun c => Config.sha256 c.key = x))
  if code = 3 then table (h (size - 256)) || (img.le 6 1 = 0 && s.usableHash (h (size - 256)))
  else code = 4 && table (h (size - 128))

/-- The checks of R345 against a rollback count: the code of the first that fails. -/
def State.imageCheck (s : State) (img : Blob) (count : Nat) : Nat :=
  let size := img.le 0x0C 4
  let ownerBuilt := img.le 6 1 = 1
  if !imageLayout img then 1
  else if img.le 7 1 ≠ 4 then 2
  else
    let (h1, ok1) := imageSig img (size - 256)
    if !(ok1 && !s.sec.engineOff && (if ownerBuilt then s.provisioned && s.usableHash h1 else s.vendorHash = some h1)) then 3
    else
      let (h2, ok2) := imageSig img (size - 128)
      let second := if !ownerBuilt && s.provisioned then ok2 && s.usableHash h2 else img.zeros (size - 128) size
      if !second then 4 else if img.le 8 2 < count then 5 else 0

end Sys2Proof.Machine
end

