-- ==== Sys2Proof/Machine/Wharf.lean ====
section
/-!
DEFINITION. The wharf (R422-R427): sequence pointers, command start, arguments and references, and the frame in which every wharf
command runs. A command's row carries out the command that its pair is executing.
-/
namespace Sys2Proof.Machine

/-- (a - b) mod 2^32. -/
def seqSub (a b : Nat) : Nat := (a % 2 ^ 32 + 2 ^ 32 - b % 2 ^ 32) % 2 ^ 32

/-- A written value is backward of the present one (R424). -/
def seqBackward (v old : Nat) : Bool := decide (2 ^ 31 ≤ seqSub v old)

/-- A write of TAIL (R424). -/
def State.writeTail (s : State) (p : Pair) (v : Nat) : State :=
  let f := Reg.WHF_CMD_TAIL_SEQ p.num
  let read := s.rd (Reg.WHF_CPL_READ_SEQ p.num)
  if seqBackward v (s.rd f) then s
  else if p.slots < seqSub v read then s.put f (read + p.slots)
  else s.put f v

/-- A write of CPL_READ (R424). -/
def State.writeCplRead (s : State) (p : Pair) (v : Nat) : State :=
  let f := Reg.WHF_CPL_READ_SEQ p.num
  let old := s.rd f
  let next := s.rd (Reg.WHF_CPL_NEXT_SEQ p.num)
  if seqBackward v old then s
  else if seqSub next old < seqSub v old then s.put f next
  else s.put f v

/-- A write of WHF_TELEM_READ, clamped as CPL_READ is (R427, R430). -/
def State.writeTelemRead (s : State) (v : Nat) : State :=
  let f := Reg.WHF_TELEM_READ_SEQ
  let old := s.rd f
  let next := s.rd Reg.WHF_TELEM_NEXT_SEQ
  if seqBackward v old then s
  else if seqSub next old < seqSub v old then s.put f next
  else s.put f v

/-! ## Command start (R423, R424, R426) -/

/-- The pair of each opcode: pair O commands on both pairs, pair S commands on the session pair; none for an unassigned opcode. -/
def openOpcodes : List Nat := [0x01, 0x02, 0x03, 0x10, 0x11, 0x20, 0x21, 0x22, 0x23, 0x24, 0x25]
def sessionOpcodes : List Nat :=
  [0x12, 0x13, 0x14, 0x15, 0x16, 0x30, 0x31, 0x40, 0x41, 0x42, 0x43, 0x44, 0x45, 0x50, 0x52, 0x53, 0x54, 0x55, 0x60, 0x61, 0x70, 0x71,
   0x72, 0x73]

/-- The commands that the ROM serves in recovery (R352). -/
def recoveryOpcodes : List Nat := [0x01, 0x02, 0x25]

def State.recovery (s : State) : Bool := s.on Reg.SEC_BOOT_STATUS_RECOVERY

/-- The next command of a pair is placed and its completion has room (R424). -/
def State.mayStart (s : State) (p : Pair) : Bool :=
  let q := s.rd (Reg.WHF_CMD_NEXT_SEQ p.num)
  !s.pairBusy p && 1 ≤ seqSub (s.rd (Reg.WHF_CMD_TAIL_SEQ p.num)) q && seqSub q (s.rd (Reg.WHF_CPL_READ_SEQ p.num)) < p.slots

/-- The commands are served: by the firmware after Boot, or by the ROM in recovery. -/
def State.wharfServed (s : State) : Bool := s.mode.phase = .running || s.recovery

/-- The report that a NAND transfer has met a lasting error is taken up (R137). -/
def State.clearFailed (s : State) : State := { s with bas := { s.bas with failed := s.bas.failed.filter (· ≠ .nand) } }

/-- Sources are raised, in order. -/
def State.raises (s : State) (sources : List Nat) : State := sources.foldl (fun s n => s.raise n) s

/-- A command fails: it completes, and then its sources are raised. DESIGN CHOICE: in this order, so that a block reset which a source's
reaction makes finds the command completed, and completes it no second time (R252, R424). -/
def State.fails (s : State) (p : Pair) (code detail : Nat) (sources : List Nat) : State := (s.complete p code detail 0 []).raises sources

/-- A pair's command is refused as not permitted (3) or for its arguments (11); a refused TG_KEY_SET raises FS015 (R360). -/
def State.refused (s : State) (p : Pair) (code : Nat) : State :=
  s.fails p code 0 (if s.rd (Reg.WHF_STATUS_OPCODE p.num) = 0x16 then [15] else [])

/-- The device starts the next command of a pair: SEQ, OPCODE and pair are judged, and a command that passes is executing from now on. -/
def State.startCommand (s : State) (p : Pair) : State :=
  if !s.wharfServed || !s.mayStart p then s
  else
    let q := s.rd (Reg.WHF_CMD_NEXT_SEQ p.num)
    let slot := p.cmdRing + q % p.slots * 64
    let op := leAt (s.bas.bytes (slot + 4) 2) 0 2
    let s := (s.put (Reg.WHF_CMD_NEXT_SEQ p.num) (q + 1)).put (Reg.WHF_EXEC_SEQ p.num) q
    let s := ((s.put (Reg.WHF_STATUS_BUSY p.num) 1).put (Reg.WHF_STATUS_OPCODE p.num) op).clearFailed
    if leAt (s.bas.bytes slot 4) 0 4 ≠ q then s.status p 9
    else if !(openOpcodes.contains op) && !(sessionOpcodes.contains op) then s.status p 10
    else if sessionOpcodes.contains op && (p = .openPair || s.sec.host.isNone) then s.refused p 3
    else if s.recovery && !(recoveryOpcodes.contains op) then s.refused p 3
    else if leAt (s.bas.bytes (slot + 6) 2) 0 2 ≠ 0 then s.refused p 11
    else s

/-! ## Arguments (R425) -/

/-- The 56 argument bytes of the command that a pair is executing. -/
def State.args (s : State) (p : Pair) : List Byte :=
  s.bas.bytes (p.cmdRing + s.rd (Reg.WHF_EXEC_SEQ p.num) % p.slots * 64 + 8) 56

/-- n argument bytes from byte i as a number. -/
def State.arg (s : State) (p : Pair) (i n : Nat) : Nat := leAt (s.args p) i n

/-- A data reference at argument byte i: basin address and length; none where it is not wholly inside the pair's data area. -/
def State.dataRef (s : State) (p : Pair) (i : Nat) : Option (Nat × Nat) :=
  let off := s.arg p i 4
  let len := s.arg p (i + 4) 4
  if off + len ≤ p.dataLen then some (p.dataArea + off, len) else none

/-- A berth reference: a berth of FORMAT RAW in state FREE or HOST. -/
def State.berthRef (s : State) (b : Nat) : Option (Fin 64) :=
  if h : b < 64 then
    let x := s.berthAt ⟨b, h⟩
    if s.rd (Reg.BAS_BERTH_FMT_FORMAT b) = 6 ∧ (x.state = .free ∨ x.state = .host) then some ⟨b, h⟩ else none
  else none

/-- Output to byte 0 of a berth: a FREE berth becomes HOST (R142). -/
def State.berthOutput (s : State) (b : Fin 64) (data : Blob) : State :=
  let x := s.berthAt b
  let units := ceilDiv data.len 16
  let s := s.setBerth b { x with
    state := if x.state = .free then .host else x.state
    covered := (List.range units).foldl (fun c u => insertSet u c) x.covered }
  s.basFill (s.rd (Reg.BAS_BERTH_PLACE_BASE b) * 512) data.len data.cells

/-- The content of a berth from byte 0. -/
def State.berthInput (s : State) (b : Fin 64) : Blob :=
  s.bas.blob (s.rd (Reg.BAS_BERTH_PLACE_BASE b) * 512) (s.rd (Reg.BAS_BERTH_PLACE_SIZE b) * 512)

/-- The content of a berth that a command copies goes to `f`; `lost` where the copy has met a lasting error (R137). -/
def State.copyBerth (s : State) (b : Fin 64) (f : State → Blob → State) (lost : State → State) : State :=
  if s.bas.failed.contains .nand then lost s.clearFailed else f s (s.berthInput b)

/-- The pair is executing the command with this opcode. -/
def State.executing (s : State) (p : Pair) (op : Nat) : Bool := s.pairBusy p && s.rd (Reg.WHF_STATUS_OPCODE p.num) = op

/-- The frame of a wharf command: nothing where the pair is not executing it; RESET while the block that serves it is in reset (R252);
ERROR where it needs the security engine and that is disabled (R363); ARGUMENT where a byte beyond its arguments is not zero (R425). -/
def State.serve (s : State) (p : Pair) (op used : Nat) (f : State → State) : State :=
  if !s.executing p op then s
  else if s.flt.inReset.any (fun b => blockServes b op) then s.status p 4
  else if s.sec.engineOff && securityServed op then s.status p 2
  else if !allZero ((s.args p).drop used) then s.refused p 11
  else f s

/-- An output to a data reference at argument byte i; ARGUMENT where the reference is bad or too short. -/
def State.output (s : State) (p : Pair) (i : Nat) (bytes : List Byte) : State :=
  match s.dataRef p i with
  | none => s.status p 11
  | some (a, len) => if len < bytes.length then s.status p 11 else (s.basWrite a bytes).complete p 0 0 bytes.length []

/-- The reference of an output can take n bytes. -/
def State.canOutput (s : State) (p : Pair) (i n : Nat) : Bool :=
  match s.dataRef p i with
  | none => false
  | some (_, len) => n ≤ len

/-- The input that the reference at argument byte i names goes to `f`; ARGUMENT where the reference is bad. -/
def State.withInput (s : State) (p : Pair) (i : Nat) (f : State → List Byte → State) : State :=
  match s.dataRef p i with
  | none => s.refused p 11
  | some (a, len) => f s (s.bas.bytes a len)

end Sys2Proof.Machine
end

