-- ==== Sys2Proof/Machine/Nand.lean ====
section
/-!
DEFINITION. NAND storage (R366-R385): blocks, files and their versions, writes that commit page by page, the deferral queue, refresh
and wear levelling, reads with retry, checkpoints and backups.
-/
namespace Sys2Proof.Machine

/-! ## Blocks (R371, R375, R376) -/

def State.setNand (s : State) (n : Nand) : State := { s with nand := n }

def Nand.block (n : Nand) (b : Nat) : NBlock := Sparse.get n.blocks NBlock.fresh b

def Nand.setBlock (n : Nand) (b : Nat) (x : NBlock) : Nand := { n with blocks := Sparse.set n.blocks NBlock.fresh b x }

def Nand.total (n : Nand) : Nat := (n.part.map NPart.blocks).getD 0

/-- Blocks on one chip enable; pages of a block. -/
def Nand.perCe (n : Nand) : Nat := n.total / max 1 ((n.part.map NPart.ces).getD 1)
def Nand.ppb (n : Nand) : Nat := (n.part.map NPart.ppb).getD 64

/-- The two blocks of the boot map: block 0 of CE0 and the first good block from 1 to 15 (R373). -/
def Nand.bootBlocks (n : Nand) : List Nat := 0 :: (((List.range 15).map (· + 1)).find? (fun b => !(n.block b).bad)).toList

/-- The good blocks of the free pool, ascending. -/
def Nand.free (n : Nand) : List Nat :=
  (List.range n.total).filter (fun b => !(n.block b).bad && (n.block b).owner.isNone && !(n.bootBlocks.contains b))

/-- The blocks in use. -/
def Nand.inUse (n : Nand) : List Nat := (n.blocks.filter (fun c => c.2.owner.isSome && !c.2.bad)).map Prod.fst

def Nand.badCount (n : Nand) : Nat := (n.blocks.filter (fun c => c.2.bad)).length

/-- The block of a list with the lowest (`low`) or highest erase count; the first of equals. -/
def Nand.extreme (n : Nand) (low : Bool) : List Nat → Option Nat
  | [] => none
  | b :: bs =>
    match n.extreme low bs with
    | none => some b
    | some c =>
      let x := (n.block b).erases
      let y := (n.block c).erases
      some (if (if low then decide (x ≤ y) else decide (y ≤ x)) then b else c)

/-- The free block that a write takes: the lowest erase count; with two chip enables, of the one not written last (R376). -/
def Nand.pick (n : Nand) : Option Nat :=
  let other := match n.lastTaken, n.part with
    | some b, some p => if p.ces = 2 then n.free.filter (fun c => c / n.perCe ≠ b / n.perCe) else n.free
    | _, _ => n.free
  match n.extreme true other with
  | some b => some b
  | none => n.extreme true n.free

/-- NFC_BLOCKS, NFC_WEAR and FS163 follow the pool (R375, R385). -/
def State.noteBlocks (s : State) : State :=
  let n := s.nand
  let free := n.free.length
  let s := (s.put Reg.NFC_BLOCKS_FREE (min 65535 free)).put Reg.NFC_BLOCKS_BAD (min 65535 n.badCount)
  let counts := n.inUse.map (fun b => (n.block b).erases)
  let s := (s.put Reg.NFC_WEAR_ERASE_MAX (min 65535 (counts.foldl max 0))).put Reg.NFC_WEAR_ERASE_MIN (min 65535 (counts.min?.getD 0))
  let low := n.part.isSome && free < s.rd Reg.NFC_CFG_SPARE_LOW
  let s := if low && !(s.live 163) then s.flag Reg.NFC_EVENT_SPARE_LOW else s
  s.condition 163 low

/-- Seconds of powered time (R378). -/
def State.powered (s : State) : Nat := s.now / 1000000000

/-- NFC_LAST takes an error (R385). -/
def State.nandError (s : State) (kind block page : Nat) : State :=
  let s := ((s.flag Reg.NFC_LAST_VALID).put Reg.NFC_LAST_KIND kind).put Reg.NFC_LAST_CE (block / max 1 s.nand.perCe)
  (s.put Reg.NFC_LAST_PAGE page).put Reg.NFC_LAST_BLOCK (block % max 1 s.nand.perCe)

/-- A block is retired as grown bad: the journal will record it, and FS162 tells it (R374, R375). -/
def Nand.retire (n : Nand) (b : Nat) : Nand :=
  { n.setBlock b { n.block b with bad := true, owner := none } with
    erasing := n.erasing.filter (· ≠ b), refresh := n.refresh.filter (· ≠ b), records := n.records ++ [.retired b] }

def State.retireBlock (s : State) (b : Nat) : State :=
  ((State.inc (s.setNand (s.nand.retire b)) Reg.NFC_RETIRED_COUNT_COUNT).flag Reg.NFC_EVENT_RETIRED).raise 162

/-! ## Files (R371, R372) -/

/-- A partition's size in bytes. -/
def quota (part : Nat) : Nat :=
  match part with
  | 1 => 1048576
  | 2 => 1048576
  | 3 => 4 * 1048576
  | 4 => 4 * 1048576
  | 5 => 4 * 1048576
  | 6 => 96 * 1048576
  | 7 => 32 * 1048576
  | 8 => 16 * 1048576
  | 9 => 16 * 1048576
  | 10 => 8 * 1048576
  | _ => 0

/-- The copies of a file. -/
def copiesOf (part idx : Nat) : Nat := if part = 5 ∨ part = 9 ∨ (part = 6 ∧ idx = 0) then 2 else 1

/-- The files that have a copy in a block. -/
def Nand.filesIn (n : Nand) (b : Nat) : List NFile := n.files.filter (fun f => f.copies.any (fun c => c.contains b))

/-- The version most recently issued: that of the last write waiting or in progress, else the committed one (R383). -/
def Nand.issued (n : Nand) (part idx : Nat) : Option Blob :=
  match (n.jobs ++ n.deferred).reverse.find? (fun j => j.kind = .file ∧ j.part = part ∧ j.idx = idx) with
  | some j => some j.blob
  | none => (n.file part idx).map NFile.blob

/-- A stored file can be read: it exists and no copy-less sector is in it (R372). -/
def State.readFile (s : State) (part idx : Nat) : State × Option Blob :=
  match s.nand.file part idx with
  | none => (s, none)
  | some f =>
    let pending := (s.nand.jobs ++ s.nand.deferred).any (fun j => j.kind = .file ∧ j.part = part ∧ j.idx = idx)
    if f.lost.isEmpty || pending then (s, s.nand.issued part idx) else (s.raise 169, none)

/-- The place of block b in the copy that holds it. -/
def NFile.placeOf (f : NFile) (b : Nat) : Nat :=
  match f.copies.find? (fun c => c.contains b) with
  | some c => c.findIdx (fun x => x = b)
  | none => 0

/-- Pages of a length. -/
def pagesOf (len : Nat) : Nat := ceilDiv len 4096

/-- The metadata of a page (R369): as programmed; for a file that came with the part, which lists none, that of its version 1. -/
def Nand.pageMeta (n : Nand) (b k : Nat) : Option PageMeta :=
  match (n.block b).pages[k]? with
  | some m => some m
  | none =>
    match (n.block b).owner, (n.filesIn b).head? with
    | some (part, idx, copy), some f =>
      if (n.block b).pages.isEmpty && decide (f.placeOf b * n.ppb + k < pagesOf f.blob.len) then
        some { part := part, copy := copy, file := idx, page := f.placeOf b * n.ppb + k, version := 1, erases := 0, ptime := 0 }
      else none
    | _, _ => none

/-- The spare area of a page (R369), but for its parity: the marker, and the metadata. -/
def PageMeta.bytes (m : PageMeta) : List Byte :=
  leBytes m.part 1 ++ leBytes m.copy 1 ++ leBytes m.file 2 ++ leBytes m.page 4 ++ leBytes m.version 4 ++ leBytes m.erases 4 ++ leBytes m.ptime 8 ++
  List.replicate 8 0#8

/-- The pages programmed in a block, in order. -/
def Nand.pagesIn (n : Nand) (b : Nat) : List PageMeta := (List.range n.ppb).filterMap (n.pageMeta b)

/-- The quota of a partition would be exceeded by a file of this length. -/
def Nand.overQuota (n : Nand) (part idx len : Nat) : Bool :=
  let others := (n.files.filter (fun f => f.part = part ∧ f.idx ≠ idx)).foldl (fun a f => a + f.blob.len) 0
  quota part < others + len

/-! ## Writes and the deferral queue (R372, R375, R380-R382) -/

/-- A write of a file that has not begun. -/
def NJob.ofFile (part idx : Nat) (blob : Blob) (pair : Option Pair) : NJob :=
  { kind := .file, part := part, idx := idx, version := 0, blob := blob, copies := copiesOf part idx, done := [], blocks := [], page := 0,
    pages := pagesOf blob.len + 1, old := [], pair := pair, retried := false }

/-- The NAND is ready for use, in recovery by the ROM (R352); its write window is open (R242). -/
def State.nandReady (s : State) : Bool := s.on Reg.NFC_STATUS_READY || (s.recovery && s.nand.part.isSome)
def State.nandWindow (s : State) : Bool := s.on Reg.THM_STATUS_NAND_OK

/-- A program or an erase is in progress: one has begun while the window was open, or was under way as it closed (R242). -/
def State.nandBusy (s : State) : Bool := (!s.nand.jobs.isEmpty || !s.nand.erasing.isEmpty) && (s.nandWindow || s.nand.underway)

/-- The level of WP_N: low except while a program or an erase is in progress (R368). -/
def State.wpN (s : State) : Bool := s.nandBusy

/-- The completion of the command that waits for a write, if one does. -/
def State.statusOf (s : State) (p : Option Pair) (code : Nat) : State :=
  match p with
  | some p => s.status p code
  | none => s

/-- NFC_STATUS and FS166 follow the deferral queue and the window (R382). -/
def State.noteDeferral (s : State) : State :=
  let held := !s.nand.deferred.isEmpty && !s.nandWindow
  let s := (s.put Reg.NFC_STATUS_QUEUED s.nand.deferred.length).put Reg.NFC_STATUS_DEFERRED (b2n held)
  s.condition 166 held

/-- Bytes staged in the deferral queue. -/
def Nand.staged (n : Nand) : Nat := n.deferred.foldl (fun a j => a + (if j.kind = .file then j.blob.len else 0)) 0

/-- A write is issued (R372, R375, R382): refused with ERROR where the storage cannot take it; held with QUEUED, or refused with
TEMPERATURE, while the window is closed; else in progress from now on. -/
def State.issueWrite (s : State) (j : NJob) : State :=
  let n := s.nand
  if !s.nandReady then s.statusOf j.pair 2
  else if n.free.length < 8 ∧ (j.kind = .file ∨ j.kind = .backup) then s.statusOf j.pair 2
  else if j.kind = .file ∧ n.overQuota j.part j.idx j.blob.len then s.statusOf j.pair 2
  else if !s.nandWindow then
    let already := j.kind != .file && n.deferred.any (fun d => d.kind = j.kind)
    if already then s.statusOf j.pair 6
    else if 64 ≤ n.deferred.length ∨ 1048576 < n.staged + (if j.kind = .file then j.blob.len else 0) then s.statusOf j.pair 5
    else (State.statusOf (s.setNand { n with deferred := n.deferred ++ [{ j with pair := none }] }) j.pair 6).noteDeferral
  else s.setNand { n with jobs := n.jobs ++ [j] }

/-- The refresh, or the move, of a block that holds a file. -/
def Nand.refreshes (n : Nand) (part idx : Nat) (j : NJob) : Bool :=
  match j.kind with
  | .move old _ _ => (n.filesIn old).any (fun f => f.part == part && f.idx == idx)
  | _ => false

/-- The refreshes of a file are abandoned: the blocks that they have taken will be erased (R383). -/
def Nand.abandonRefresh (n : Nand) (part idx : Nat) : Nand :=
  let gone := n.jobs.filter (n.refreshes part idx)
  { n with
    jobs := n.jobs.filter (fun j => !n.refreshes part idx j), deferred := n.deferred.filter (fun j => !n.refreshes part idx j)
    erasing := n.erasing ++ (gone.flatMap NJob.blocks).filter (fun b => !(n.block b).bad) }

/-- A write of a file for a wharf command. Where it is taken up, a refresh of the file is abandoned for it (R383). -/
def State.writeFile (s : State) (part idx : Nat) (blob : Blob) (pair : Option Pair) : State :=
  let t := s.issueWrite (NJob.ofFile part idx blob pair)
  if t.nand.jobs.length + t.nand.deferred.length = s.nand.jobs.length + s.nand.deferred.length then t
  else State.noteDeferral (t.setNand (t.nand.abandonRefresh part idx))

/-! ## Checkpoints and backups (R380, R381) -/

/-- What a BACKUP generation carries now. -/
def State.toSave (s : State) : Saved :=
  { plane := s.trim.store.filter (fun c => 0x400000 ≤ c.1 && c.1 < 0x661000)
    roots := s.sec.roots.toList, deleg := s.sec.deleg.toList, pairing := s.sec.pairing, tgKey := s.sec.tgKey, start := s.nand.start }

/-- The user plane or the key material differs from the last generation's. -/
def State.backupDue (s : State) : Bool := s.nand.saved != some s.toSave

def NJob.backup (pair : Option Pair) : NJob :=
  { kind := .backup, part := 9, idx := 0, version := 0, blob := Blob.empty, copies := 2, done := [], blocks := [], page := 0, pages := 641,
    old := [], pair := pair, retried := false }

/-- The next LEDGER slot in rotation: 8 MiB, 2,048 pages. -/
def State.checkpointJob (s : State) : NJob :=
  { kind := .checkpoint, part := 7, idx := s.nand.nextSlot, version := 0, blob := { len := 8388608, cells := [] }, copies := 1, done := [],
    blocks := [], page := 0, pages := 2049, old := [], pair := none, retried := false }

/-- A checkpoint is requested; one in progress merges with the request. `waiting` waits for it (SHUTDOWN), and completes at once where the
checkpoint is deferred or the queue does not take it (R380, R382). -/
def State.checkpoint (s : State) (waiting : Option Pair) : State :=
  let n := { s.nand with ckptPairs := s.nand.ckptPairs ++ waiting.toList }
  if n.jobs.any (fun j => j.kind = .checkpoint) then s.setNand n
  else if s.nandReady && s.nandWindow then (s.setNand { n with jobs := n.jobs ++ [s.checkpointJob] }).put Reg.NFC_STATUS_CKPT_BUSY 1
  else s.issueWrite { s.checkpointJob with pair := waiting }

/-- NFC_CKPT_AGE (R382, R385). -/
def State.noteCkptAge (s : State) : State :=
  match s.nand.ckptAt with
  | some t => s.put Reg.NFC_CKPT_AGE_SECONDS (min (2 ^ 32 - 1) (s.powered - t))
  | none => s.put Reg.NFC_CKPT_AGE_SECONDS (2 ^ 32 - 1)

/-! ## Commits (R372-R374) -/

/-- A file of the boot map (R373). -/
def bootMapped (part : Nat) : Bool := 1 ≤ part && part ≤ 4

/-- The blocks of a copy are released: they will be erased. -/
def Nand.release (n : Nand) (bs : List Nat) : Nand := { n with erasing := n.erasing ++ bs.filter (fun b => !(n.block b).bad) }

/-- Copy 0 of a new version commits, or a later copy joins it. -/
def Nand.commitCopy (n : Nand) (j : NJob) : Nand :=
  match n.file j.part j.idx with
  | some f =>
    if j.done.isEmpty then
      let f' : NFile := { f with version := f.version + 1, blob := j.blob, copies := [j.blocks], lost := [] }
      { n with files := n.files.map (fun g => if g.part = j.part ∧ g.idx = j.idx then f' else g) }
    else
      { n with files := n.files.map (fun g =>
          if g.part = j.part ∧ g.idx = j.idx then { g with copies := g.copies ++ [j.blocks] } else g) }
  | none =>
    { n with files := n.files ++ [{ part := j.part, idx := j.idx, version := 1, blob := j.blob, copies := [j.blocks], lost := [] }] }

/-- A block moves within the files that hold it: each takes a new version (R376, R379). -/
def Nand.moveBlock (n : Nand) (old new : Nat) : Nand :=
  { n with files := n.files.map (fun f =>
      if f.copies.any (fun c => c.contains old) then
        { f with version := f.version + 1, copies := f.copies.map (fun bs => bs.map (fun b => if b = old then new else b)) }
      else f) }

/-- A copy of the boot map of the files as they stand (R373). -/
def Nand.bootCopy (n : Nand) : BootCopy :=
  { seq := n.bootSeq + 1, prefer := n.prefer
    files := [1, 2, 3, 4].map (fun part => match n.file part 0 with
      | some f => (f.blob.len, f.copies.head?.getD [])
      | none => (0, [])) }

/-- A u32 block address: bit 31 the chip enable, bits 19:0 the block within it (R373). -/
def blockAddress (perCe b : Nat) : Nat := b / max 1 perCe * 2 ^ 31 + b % max 1 perCe

/-- The page of a copy of the boot map (R373). -/
def BootCopy.bytes (c : BootCopy) (perCe : Nat) : List Byte :=
  let list (bs : List Nat) : List Byte := ((bs ++ List.replicate 32 0).take 32).flatMap (fun b => leBytes (blockAddress perCe b) 4)
  let body := c.files.flatMap (fun f => leBytes f.1 4 ++ leBytes (min 32 f.2.length) 4 ++ list f.2)
  let body := body ++ List.replicate (4080 - body.length) 0#8
  [0x42#8, 0x4D#8, 0x50#8, 0x31#8] ++ leBytes c.seq 4 ++ leBytes c.prefer 1 ++ leBytes 0 3 ++ leBytes (crc32c body) 4 ++ body

/-- The boot map is rewritten (R373): the new copy is appended to the block that holds the newest one, or when that is full goes to the other
block, which is erased for it. -/
def Nand.bootMap (n : Nand) : Nand :=
  let c := n.bootCopy
  let at_ := ((n.boot.getLast?).map Prod.fst).getD 0
  if (n.boot.filter (fun x => x.1 = at_)).length < n.ppb then { n with bootSeq := n.bootSeq + 1, boot := n.boot ++ [(at_, c)] }
  else
    let other := (n.bootBlocks.find? (fun b => b ≠ at_)).getD at_
    let x := n.block other
    { n.setBlock other { x with erases := x.erases + 1, reads := 0, kept := 0, pages := [] } with
      bootSeq := n.bootSeq + 1, boot := n.boot.filter (fun x => x.1 ≠ other) ++ [(other, c)] }

/-- The commands that wait for a checkpoint and its backup complete. -/
def State.answerWaiting (s : State) (code : Nat) : State :=
  s.nand.ckptPairs.foldl (fun s p => s.status p code) (s.setNand { s.nand with ckptPairs := [] })

/-- The backup that a checkpoint takes along (R381): written now; where the pool is too small, ERROR for the commands that wait; with the window
closed it is queued, which answers them, or not taken (R382). -/
def State.attachBackup (s : State) : State :=
  if s.nand.free.length < 8 then s.answerWaiting 2
  else if s.nandWindow then s.setNand { s.nand with jobs := s.nand.jobs ++ [NJob.backup none] }
  else
    let t := s.issueWrite (NJob.backup none)
    t.answerWaiting (if t.nand.deferred.any (fun d => d.kind = .backup) then 6 else 5)

/-- What follows the last commit of a write: the old blocks are released, the boot map and PREFER follow a firmware slot, a checkpoint
takes its backup along, and the command that waits completes (R346, R352, R373, R380, R381). -/
def State.finishJob (s : State) (j : NJob) : State :=
  let s := s.setNand (s.nand.release j.old)
  match j.kind with
  | .file =>
    let s := if j.part = 1 ∨ j.part = 2 then s.setNand { s.nand with prefer := j.part - 1 }.bootMap else s
    let s := s.statusOf j.pair 0
    if s.recovery ∧ j.part = 1 then
      let marks := s.rd Reg.SEC_BOOT_STATUS_MARKED
      (s.put Reg.SEC_BOOT_STATUS_MARKED (marks / 2 * 2)).warmReset 5 none
    else s
  | .checkpoint =>
    let s := s.setNand { s.nand with nextSlot := (s.nand.nextSlot + 1) % 4, ckptAt := some s.powered }
    let s := ((s.put Reg.NFC_STATUS_CKPT_BUSY 0).flag Reg.NFC_EVENT_CHECKPOINT).noteCkptAge
    if s.backupDue then s.attachBackup else s.answerWaiting 0
  | .backup =>
    let s := s.setNand { s.nand with saved := some s.toSave }
    let s := s.statusOf j.pair 0
    if s.nand.jobs.any (fun q => q.kind = .checkpoint) then s else s.answerWaiting 0
  | .move old _ counted =>
    let s := match j.blocks.head? with
      | some new =>
        let parts := (s.nand.files.filter (fun f => f.copies.any (fun c => c.contains old))).map NFile.part
        let n := (s.nand.moveBlock old new).release [old]
        s.setNand (if parts.any bootMapped then n.bootMap else n)
      | none => s
    if counted then s.inc Reg.NFC_REFRESH_COUNT_COUNT else s

/-- A journal page is programmed (R374, R378): it holds the records made since the last one and the commit's own, it is dated once a TIME packet
has been applied in the epoch, and every 1,024 pages, half of the journal, it is followed by a snapshot of the block table, which holds the
read counts. -/
def State.journalPage (s : State) (rs : List JRecord) : State :=
  let date := if s.clk.applied.isSome then some (s.clk.read s.now) else none
  let page : JPage := { seq := s.nand.journalSeq, date := date, records := s.nand.records ++ rs }
  let n : Nand := { s.nand with dated := date.or s.nand.dated, records := [], journalSeq := s.nand.journalSeq + 1 }
  if n.journal.length + 1 < 1024 then s.setNand { n with journal := n.journal ++ [page] }
  else s.setNand { n with journal := [], blocks := n.blocks.foldl (fun m c => Sparse.set m NBlock.fresh c.1 { c.2 with kept := c.2.reads }) [] }

/-- The version that a write commits under (R372). -/
def Nand.nextVersion (n : Nand) (part idx : Nat) : Nat := ((n.file part idx).map (fun f => f.version + 1)).getD 1

/-- The records of a move: a commit of each file that it moves. -/
def Nand.moveRecords (n : Nand) (old new : Nat) : List JRecord :=
  (n.filesIn old).map (fun f => .commit f.part f.idx 0 (f.version + 1) [new])

/-- The records of the commit that a write has reached. -/
def Nand.commitRecords (n : Nand) (j : NJob) : List JRecord :=
  match j.kind with
  | .move old _ _ => ((j.blocks.head?).map (n.moveRecords old)).getD []
  | .checkpoint => [.commit j.part j.idx 0 (n.nextVersion j.part j.idx) j.blocks, .checkpoint j.idx]
  | _ =>
    let v := n.nextVersion j.part j.idx
    [.commit j.part j.idx j.done.length (if j.done.isEmpty then v else v - 1) j.blocks]

/-- A job's present copy has committed with its journal page: the next copy begins, or the write ends. -/
def State.commitJob (s : State) (j : NJob) : State :=
  let s := s.journalPage (s.nand.commitRecords j)
  let rest := s.nand.jobs.drop 1
  let s := match j.kind with
    | .move .. => s
    | _ => s.setNand (s.nand.commitCopy j)
  let done := j.done ++ [j.blocks]
  match j.kind with
  | .move .. => State.finishJob (s.setNand { s.nand with jobs := rest }) j
  | _ =>
    if done.length < j.copies then
      s.setNand { s.nand with jobs := { j with done := done, blocks := [], page := 0 } :: rest }
    else State.finishJob (s.setNand { s.nand with jobs := rest }) j

/-! ## Programs and erases (R368, R372-R375) -/

/-- A write begins: it takes note of the blocks that it will release. -/
def Nand.oldBlocks (n : Nand) (j : NJob) : List Nat :=
  match j.kind with
  | .move .. => []
  | _ => ((n.file j.part j.idx).map (fun f => f.copies.flatten)).getD []

/-- The block that the next page of the write in progress goes to, where it needs a new one: none left, or fewer than 8 for a write that may not
take of those (R375). -/
def State.nextBlock (s : State) (j : NJob) : Option Nat :=
  if s.nand.free.length < 8 ∧ (j.kind = .file ∨ j.kind = .backup) then none
  else match j.kind with
    | .move _ (some t) _ => some t
    | _ => s.nand.pick

/-- The next page of the write in progress goes to a new block. -/
def State.needsBlock (s : State) (j : NJob) : Bool := decide (j.page + 1 < j.pages ∧ j.blocks.length ≤ j.page / s.nand.ppb)

/-- The write in progress has the block that its next page goes to. -/
def State.takeBlock (s : State) (j : NJob) (b : Nat) : State × NJob :=
  let j := if j.blocks.isEmpty && j.done.isEmpty then { j with old := s.nand.oldBlocks j } else j
  (s.setNand { s.nand.setBlock b { s.nand.block b with owner := some (j.part, j.idx, j.done.length) } with lastTaken := some b },
    { j with blocks := j.blocks ++ [b] })

/-- A write is given up: its blocks will be erased, ERROR for the commands that wait for it, and nothing has changed. -/
def State.giveUp (s : State) (j : NJob) : State :=
  let s := s.setNand ({ s.nand with jobs := s.nand.jobs.drop 1 }.release j.blocks)
  let s := s.statusOf j.pair 2
  match j.kind with
  | .checkpoint => (s.answerWaiting 2).put Reg.NFC_STATUS_CKPT_BUSY 0
  | .backup => if s.nand.jobs.any (fun q => q.kind = .checkpoint) then s else s.answerWaiting 2
  | _ => s

/-- The metadata of the page that a write programs next (R369): for a move, that of the moved page under its file's next version. -/
def State.nextMeta (s : State) (j : NJob) (b : Nat) : PageMeta :=
  let n := s.nand
  let erases := if j.page % n.ppb = 0 then (n.block b).erases else 0
  match j.kind with
  | .move old _ _ =>
    let m := (n.pageMeta old j.page).getD { part := j.part, copy := 0, file := j.idx, page := j.page, version := 0, erases := 0, ptime := 0 }
    { m with version := m.version + 1, erases := erases, ptime := s.powered }
  | _ =>
    { part := j.part, copy := j.done.length, file := j.idx, page := j.page,
      version := if j.done.isEmpty then n.nextVersion j.part j.idx else n.nextVersion j.part j.idx - 1, erases := erases, ptime := s.powered }

/-- A page but a journal page is programmed in the write's last block. -/
def State.programPage (s : State) (j : NJob) : State :=
  match j.blocks.getLast? with
  | some b => s.setNand (s.nand.setBlock b { s.nand.block b with pages := (s.nand.block b).pages ++ [s.nextMeta j b] })
  | none => s

/-- A page of the front job is programmed: a checkpoint's page holds the ledger as it now is; after the last page the file is committed. -/
def State.pageDone (s : State) (j : NJob) (rest : List NJob) : State :=
  let j := match j.kind with
    | .checkpoint => if j.page < 2048 then
        { j with blob := { j.blob with
            cells := j.blob.cells.splice (j.page * 4096) 4096 (s.trim.ledger.slice (j.page * 4096) 4096) } } else j
    | _ => j
  if j.page + 1 = j.pages then s.commitJob j
  else
    let s := s.programPage j
    s.setNand { s.nand with jobs := { j with page := j.page + 1 } :: rest }

/-- A page of the front job fails to program: its block is retired with FS164, and the job goes back to that block's first page.
A failed journal page raises FS164 and is programmed again; the journal's own blocks are not held (log entry 14). -/
def State.pageFailed (s : State) (j : NJob) (rest : List NJob) : State :=
  if j.page + 1 = j.pages then s.raise 164
  else
    match j.blocks.getLast? with
    | none => s
    | some b =>
      let again := { j with blocks := j.blocks.dropLast, page := j.page / s.nand.ppb * s.nand.ppb }
      let s := (s.setNand { s.nand with jobs := again :: rest }).nandError 3 b (j.page % s.nand.ppb)
      (s.raise 164).retireBlock b

/-- A page program completes (`ok`) or fails. A checkpoint's page is read from the ledger just before (R380). A failure raises FS164,
retires the block, and the pages of that block are programmed again in a new one (R375). -/
def State.programDone (s : State) (ok : Bool) : State :=
  match s.nand.jobs with
  | [] => s
  | j :: rest =>
    if s.needsBlock j then
      match s.nextBlock j with
      | some b =>
        let (s, j) := s.takeBlock j b
        (if ok then s.pageDone j rest else s.pageFailed j rest).noteBlocks
      | none => (s.giveUp j).noteBlocks
    else (if ok then s.pageDone j rest else s.pageFailed j rest).noteBlocks

/-- A block erase completes or fails: the block joins the pool with one more erase, or is retired with FS165 (R375). -/
def State.eraseDone (s : State) (ok : Bool) : State :=
  match s.nand.erasing with
  | [] => s
  | b :: rest =>
    let s := s.setNand { s.nand with erasing := rest }
    let s :=
      if ok then
        let x := s.nand.block b
        let n := s.nand.setBlock b { x with erases := x.erases + 1, reads := 0, kept := 0, owner := none, pages := [] }
        s.setNand { n with records := n.records ++ [.erased b] }
      else ((s.nandError 4 b 0).raise 165).retireBlock b
    s.noteBlocks

/-- NFC_STATUS.CKPT_BUSY follows the writes in progress (R385). -/
def State.noteCheckpoint (s : State) : State := s.put Reg.NFC_STATUS_CKPT_BUSY (b2n (s.nand.jobs.any (fun j => j.kind = .checkpoint)))

/-- A timeout (R368): FS168, whose default reaction resets the block; the write in progress is abandoned as if power had been lost and
retried once, then given up. -/
def State.nandTimeout (s : State) : State :=
  let front := s.nand.jobs.head?
  let at_ := (front.bind (fun j => j.blocks.getLast?)).getD 0
  let page := (front.map NJob.page).getD 0
  let s := s.nandError 5 at_ (page % s.nand.ppb)
  let s := match front with
    | none => s
    | some j =>
      if j.retried then s.giveUp j
      else
        let n := s.nand.release j.blocks
        s.setNand { n with jobs := { j with blocks := [], page := 0, retried := true } :: n.jobs.drop 1 }
  let kept := s.nand.jobs.head?.filter NJob.retried
  let s := s.raise 168
  match kept with
  | some j => if s.nand.jobs.isEmpty then State.noteCheckpoint (s.setNand { s.nand with jobs := [{ j with pair := none }] }) else s
  | none => s

/-! ## Reads, refresh and wear (R370, R376-R379) -/

/-- A block joins the refresh queue. -/
def State.queueRefresh (s : State) (b : Nat) : State :=
  if s.nand.refresh.contains b || (s.nand.block b).owner.isNone then s else s.setNand { s.nand with refresh := s.nand.refresh ++ [b] }

/-- A read of a block is counted; at RD_LIMIT_K thousand it is queued for refresh (R377). -/
def State.countRead (s : State) (b : Nat) : State :=
  let x := s.nand.block b
  let s := s.setNand (s.nand.setBlock b { x with reads := x.reads + 1 })
  if s.rd Reg.NFC_SCRUB_CFG_RD_LIMIT_K * 1000 ≤ x.reads + 1 then s.queueRefresh b else s

/-- A sector is lost to a single-copy file, with FS169 (R372). -/
def Nand.loseIn (n : Nand) (f : NFile) (k : Nat) : Nand :=
  let mark (g : NFile) : NFile := if g.part = f.part ∧ g.idx = f.idx then { g with lost := insertSet k g.lost } else g
  { n with files := n.files.map mark }

/-- What a lasting sector of block b costs its file: nothing while another copy holds it, else the sector. The block's pages move to a new
block. -/
def State.loseSector (s : State) (f : NFile) (b page sector : Nat) : State :=
  let s := if f.copies.length < 2 then
      (s.setNand (s.nand.loseIn f ((f.placeOf b * s.nand.ppb + page) * 4 + sector))).raise 169
    else s
  match s.nand.pick with
  | some c =>
    let n := s.nand
    let pages := (n.pagesIn b).zipIdx.map (fun m =>
      { m.1 with version := m.1.version + 1, erases := if m.2 = 0 then (n.block c).erases else 0, ptime := s.powered })
    let rs := n.moveRecords b c
    let mapped := (n.filesIn b).any (fun g => bootMapped g.part)
    let n := ({ n.setBlock c { n.block c with owner := (n.block b).owner, pages := pages } with lastTaken := some c }).moveBlock b c
    State.journalPage (s.setNand (if mapped then n.bootMap else n)) rs
  | none => s

/-- A lasting sector: the block is retired and its readable pages are copied to a new block; the sector comes from the other copy, or is
lost to the file with FS169 (R370, R372, R375, R383). -/
def State.lastingSector (s : State) (b page sector : Nat) : State :=
  let s := ((s.nandError 2 b page).inc Reg.NFC_UNCORR_COUNT_COUNT).raise 161
  let s := match (s.nand.filesIn b).head? with
    | none => s
    | some f => s.loseSector f b page sector
  (s.retireBlock b).noteBlocks

/-- A sector read (R370): `corrected` bits at level 0, or uncorrectable there and decoded at a read-retry level, or at none. -/
def State.readSector (s : State) (b page sector corrected : Nat) (level : Option Nat) : State :=
  let s := s.countRead b
  if corrected ≤ 24 then
    if s.rd Reg.NFC_CFG_REFRESH_BITS ≤ corrected then s.queueRefresh b else s
  else match level with
    | some _ => (((s.nandError 1 b page).inc Reg.NFC_RETRY_COUNT_COUNT).raise 160).queueRefresh b
    | none => s.lastingSector b page sector

/-- The other member of a pair of files that are never refreshed at once (R379). -/
def refreshTwin (part : Nat) : Nat :=
  match part with
  | 1 => 2
  | 2 => 1
  | 3 => 4
  | 4 => 3
  | p => p

/-- A move of the same file, or of the other member of its pair, is under way. -/
def Nand.movingTwin (n : Nand) (b : Nat) : Bool :=
  n.jobs.any (fun j => match j.kind with
    | .move old _ _ => (n.filesIn b).any (fun f => (n.filesIn old).any (fun g =>
        (g.part = f.part && g.idx = f.idx) || g.part = refreshTwin f.part))
    | _ => false)

/-- The move of a block: its committed pages and a journal page. -/
def NJob.moveOf (n : Nand) (b : Nat) (dest : Option Nat) (counted : Bool) : NJob :=
  let o := (n.block b).owner.getD (0, 0, 0)
  { kind := .move b dest counted, part := o.1, idx := o.2.1, version := 0, blob := Blob.empty, copies := 1, done := [], blocks := [], page := 0,
    pages := max 1 (n.pagesIn b).length + 1, old := [], pair := none, retried := false }

/-- A move can be issued: the storage is ready, and the window open or the deferral queue not full (R382). -/
def State.mayMove (s : State) : Bool :=
  s.nandReady && (s.nandWindow || (decide (s.nand.deferred.length < 64) && decide (s.nand.staged ≤ 1048576)))

/-- The refresh of the next queued block begins (R379); it waits while its twin is being refreshed, and the window governs it (R382). -/
def State.startRefresh (s : State) : State :=
  match s.nand.refresh with
  | [] => s
  | b :: rest =>
    if s.nand.movingTwin b || !s.mayMove then s
    else
      let s := s.issueWrite (NJob.moveOf s.nand b none true)
      s.setNand { s.nand with refresh := rest }

/-- At most once per hour of powered time, a spread of more than 1,000 erases moves the file of the lowest-count block to the free block
with the highest count (R376). -/
def State.wearLevel (s : State) : State :=
  let n := s.nand
  let used := n.inUse
  let hi := (used.map (fun b => (n.block b).erases)).foldl max 0
  match n.extreme true used, n.extreme false n.free with
  | some b, some t =>
    if s.mayMove && decide (1000 < hi - (n.block b).erases) && (match n.movedAt with | none => true | some m => decide (m + 3600 ≤ s.powered)) then
      State.issueWrite (s.setNand { n with movedAt := some s.powered }) (NJob.moveOf n b (some t) false)
    else s
  | _, _ => s

/-- A pass of the scrub has completed. -/
def State.passDone (s : State) : State :=
  ((State.incMod (s.setNand { s.nand with scrubNext := 0 }) Reg.NFC_SCRUB_STATUS_PASSES).flag Reg.NFC_EVENT_PASS).put Reg.NFC_STATUS_FAST 0

/-- One block of the scrub (R378): the next block in use in address order, boot blocks included, but for blocks under refresh (R383); with
the last one, or where none is left, the pass ends, and with the first pass the fast rate. -/
def State.scrubBlock (s : State) : State :=
  if !s.on Reg.NFC_CTRL_SCRUB_EN || !s.nandReady then s
  else
    let moving := s.nand.jobs.filterMap (fun j => match j.kind with
      | .move old _ _ => some old
      | _ => none)
    let walk := (s.nand.inUse.foldl (fun l b => insertSet b l) (s.nand.bootBlocks.foldl (fun l b => insertSet b l) [])).filter
      (fun b => !(moving.contains b))
    match walk.filter (fun b => s.nand.scrubNext ≤ b) with
    | b :: later =>
      let s := s.put Reg.NFC_SCRUB_STATUS_BLOCK (b % max 1 s.nand.perCe)
      if later.isEmpty then s.passDone else s.setNand { s.nand with scrubNext := b + 1 }
    | [] => s.passDone

/-- The window opens again and the queue runs (R382). -/
def State.resumeDeferred (s : State) : State :=
  if s.nandWindow then
    State.noteDeferral (State.noteCheckpoint (s.setNand { s.nand with jobs := s.nand.jobs ++ s.nand.deferred, deferred := [] }))
  else s

end Sys2Proof.Machine
end

