-- ==== Sys2Proof/Machine/Basin.lean ====
section
/-!
DEFINITION. The basin and its berths (R128-R149): units, line fences and spares, berth commands and placement, host writes into
the pool, service accesses and scrubbing; and the barge beats that read it (R105, R114, R117, R121, R135, R148).
-/
namespace Sys2Proof.Machine

/-! ## Lines and errors (R134-R137) -/

/-- The last error record (R150). -/
def State.eccRecord (s : State) (kind : Nat) (tag : Option Nat) (bank line : Nat) : State :=
  let s := ((s.flag Reg.BAS_ECC_LAST_VALID).put Reg.BAS_ECC_LAST_KIND kind).put Reg.BAS_ECC_LAST_BARGE (b2n tag.isSome)
  ((s.put Reg.BAS_ECC_LAST_TAG (tag.getD 0)).put Reg.BAS_ECC_LAST_BANK bank).put Reg.BAS_ECC_LAST_LINE line

/-- The base of a flight slot's mooring (R131). -/
def FSlotBase (i : Nat) : Nat := 0x1000000 + 0x400000 * i

/-- The mooring that holds a basin line. -/
def mooringOf (line : Nat) : Option (Fin 3) :=
  if line * 512 < FSlotBase 0 then none
  else if line * 512 < FSlotBase 1 then some 0
  else if line * 512 < FSlotBase 2 then some 1
  else if line * 512 < FSlotBase 3 then some 2
  else none

/-- A flight slot becomes invalid, and its WRP_ set reports no mesh (R118, R136, R169). -/
def State.invalidateSlot (s : State) (i : Fin 3) : State :=
  let s := { s with seq := { s.seq with slots := s.seq.slots.set i none } }
  let fields := [Reg.WRP_STATUS_PRESENT i, Reg.WRP_STATUS_OUT i, Reg.WRP_STATUS_FOLDS i, Reg.WRP_X_RANGE_MAX i, Reg.WRP_X_RANGE_MIN i,
    Reg.WRP_Y_RANGE_MAX i, Reg.WRP_Y_RANGE_MIN i]
  fields.foldl (fun s f => s.put f 0) s

/-- A basin line is fenced; in a mooring it clears that slot's validity (R136). -/
def State.fenceLine (s : State) (line : Nat) : State :=
  let s := { s with bas := { s.bas with fenced := insertSet line s.bas.fenced } }
  let s := s.flag Reg.BAS_EVENT_LASTING
  match mooringOf line with
  | some i => s.invalidateSlot i
  | none => s

/-- A unit waits for the scrubber to write it back (R134, R135). -/
def State.queueBack (s : State) (bank line : Nat) : State :=
  { s with bas := { s.bas with writeBack := insertSet (line * 32 + bank) s.bas.writeBack } }

/-- A corrected unit (R134): FS111 once in a sweep whose corrections exceed CORR_LIMIT. -/
def State.eccCorrected (s : State) (tag : Option Nat) (bank line : Nat) : State :=
  let s := ((s.inc Reg.BAS_ECC_CORR_COUNT).eccRecord 0 tag bank line).queueBack bank line
  let n := s.bas.sweepCorr + 1
  let s := { s with bas := { s.bas with sweepCorr := n } }
  if s.rd Reg.BAS_SCRUB_CFG_CORR_LIMIT < n ∧ !s.bas.sweepTold then State.raise { s with bas := { s.bas with sweepTold := true } } 111 else s

/-- The counters, record and faults of a read of a unit (R134-R137): its outcome, and the unit's line fenced where lasting. `stall` names the
data cycle of a barge beat, whose re-read is judged with those of the same data cycle (R105, R249). -/
def State.eccOutcome (s : State) (e : Ecc) (tag : Option Nat) (bank line : Nat) (stall : Option Nat := none) : State :=
  let tell (s : State) (n : Nat) : State := match stall with
    | some i => s.raiseOnce n none i
    | none => s.raise n
  match e with
  | .clean => s
  | .corrected => s.eccCorrected tag bank line
  | .transient => tell (((s.inc Reg.BAS_ECC_RETRY_COUNT).eccRecord 1 tag bank line).queueBack bank line) 112
  | .lasting => tell (((s.inc Reg.BAS_ECC_UNCORR_COUNT).eccRecord 2 tag bank line).fenceLine line) 113

/-- At a sluice every fenced line takes a free spare line, which holds zeros; with none free it stays fenced and FS114 is raised
(R136). -/
def State.mapSpares (s : State) : State :=
  s.bas.fenced.foldl (fun s line =>
    let used := s.bas.spares.length
    if used < 128 then
      let b := { s.bas with
        mem := s.bas.mem.clearRange (line * 512) (line * 512 + 512)
        fenced := s.bas.fenced.filter (· ≠ line)
        spares := s.bas.spares ++ [(line, used)] }
      (State.put { s with bas := b } Reg.BAS_SPARE_USED (used + 1)).put Reg.BAS_SPARE_FREE (127 - used)
    else s.condition 114 true) s

/-! ## Berths (R139-R144) -/

/-- Covered units within the layer range (BAS_BERTH_FILL). -/
def State.berthFill (s : State) (b : Fin 64) : Nat := ((s.berthAt b).covered.filter (· < s.berthLayer b / 16)).length

/-- Every 16 B unit of the layer range is covered. -/
def State.berthCovered (s : State) (b : Fin 64) : Bool := s.berthFill b = s.berthLayer b / 16

/-- The result of a berth command or a placement write; every result but DONE raises FS116 (R139, R144). -/
def State.berthResult (s : State) (b : Fin 64) (r : Nat) : State :=
  let s := (s.put Reg.BAS_BERTH_RESULT_BERTH b).put Reg.BAS_BERTH_RESULT_RESULT r
  if r = 0 then s else s.raise 116

/-- READY (R144). -/
def State.berthReady (s : State) (b target : Fin 64) : State :=
  let x := s.berthAt b
  if x.state ≠ .host then s.berthResult b 1
  else if s.berthSize b < s.berthLayer b then s.berthResult b 4
  else if !s.berthCovered b then s.berthResult b 2
  else if all64.any (fun o => o ≠ b && (s.berthAt o).state = .ready && (s.berthAt o).home = target.val) then s.berthResult b 3
  else (s.setBerth b { x with state := .ready, home := target, flagged := false }).berthResult b 0

/-- CANCEL (R144). -/
def State.berthCancel (s : State) (b : Fin 64) : State :=
  let x := s.berthAt b
  if x.state = .ready then (s.setBerth b { x with state := .host, home := 0, flagged := false }).berthResult b 0
  else if x.state = .live && x.retireMark then (s.setBerth b { x with retireMark := false }).berthResult b 0
  else s.berthResult b 1

/-- RELEASE (R144): no effect on a FREE berth. -/
def State.berthRelease (s : State) (b : Fin 64) : State :=
  let x := s.berthAt b
  if x.state = .host then (s.setBerth b { x with state := .free, covered := [] }).berthResult b 0
  else if x.state = .free then s.berthResult b 0
  else s.berthResult b 1

/-- RETIRE (R144). -/
def State.berthRetire (s : State) (b : Fin 64) : State :=
  let x := s.berthAt b
  if x.state = .live then (s.setBerth b { x with retireMark := true }).berthResult b 0 else s.berthResult b 1

/-- A BAS_BERTH_CMD word as it applies: bits 19:16 the commands, TARGET, BERTH; more than one command bit performs none (R144). -/
def State.applyBerthCmd (s : State) (w : Nat) : State :=
  let b : Fin 64 := Fin.ofNat 64 w
  let t : Fin 64 := Fin.ofNat 64 (w / 256)
  let s := (s.put Reg.BAS_BERTH_CMD_TARGET t).put Reg.BAS_BERTH_CMD_BERTH b
  match w / 65536 % 16 with
  | 0 => s
  | 1 => s.berthReady b t
  | 2 => s.berthCancel b
  | 4 => s.berthRelease b
  | 8 => s.berthRetire b
  | _ => s.berthResult b 5

/-- A BAS_BERTH_CMD write: held while it lands after tick −4 of a sluice, and applied after the sluice actions (R143). -/
def State.berthCmd (s : State) (w : Nat) : State :=
  if s.seq.snap.isSome then { s with seq := { s.seq with heldCmds := s.seq.heldCmds ++ [w] } } else s.applyBerthCmd w

/-- Two extents overlap; an empty one overlaps nothing (R139). -/
def overlaps (b1 n1 b2 n2 : Nat) : Bool := 0 < n1 && 0 < n2 && b1 < b2 + n2 && b2 < b1 + n1

/-- A BAS_BERTH_PLACE write (R139). -/
def State.berthPlace (s : State) (b : Fin 64) (base size : Nat) : State :=
  let size := min size (32768 - base)
  if (s.berthAt b).state ≠ .free then s.berthResult b 7
  else if all64.any (fun o => o ≠ b && overlaps base size (s.rd (Reg.BAS_BERTH_PLACE_BASE o)) (s.rd (Reg.BAS_BERTH_PLACE_SIZE o))) then
    s.berthResult b 6
  else ((s.put (Reg.BAS_BERTH_PLACE_BASE b) base).put (Reg.BAS_BERTH_PLACE_SIZE b) size).berthResult b 0

/-- A BAS_BERTH_FMT write (R139, R140): FORMAT 7 clamps to 6, RES to 0 for GLY. -/
def State.berthFmt (s : State) (b : Fin 64) (fmt res : Nat) : State :=
  let fmt := min fmt 6
  if (s.berthAt b).state ≠ .free then s.berthResult b 7
  else ((s.put (Reg.BAS_BERTH_FMT_FORMAT b) fmt).put (Reg.BAS_BERTH_FMT_RES b) (if fmt = 5 then 0 else res)).berthResult b 0

/-! ## Writes into the pool (R142, R145, R146) -/

/-- The outcome of a write packet. -/
inductive PoolWrite where
  | landed
  | busy
  | error
deriving DecidableEq, Repr

/-- The berths whose extents a packet touches, ascending. -/
def State.berthsTouched (s : State) (a n : Nat) : List (Fin 64) :=
  all64.filter (fun b => overlaps a n (s.berthBase b) (s.berthSize b))

/-- A refused packet: recorded, and FS115 (R146). -/
def State.poolRefuse (s : State) (touched : List (Fin 64)) (cause : Nat) : State :=
  let s := (s.flag Reg.BAS_REFUSE_VALID).put Reg.BAS_REFUSE_CAUSE cause
  let s := match touched with
    | [] => (s.put Reg.BAS_REFUSE_BERTH 0).put Reg.BAS_REFUSE_STATE 0
    | b :: _ => (s.put Reg.BAS_REFUSE_BERTH b).put Reg.BAS_REFUSE_STATE (s.berthAt b).state.code
  ((s.inc Reg.BAS_REFUSE_COUNT_COUNT).flag Reg.BAS_EVENT_REFUSED).raise 115

/-- The units of a landed packet are covered, and a FREE berth becomes HOST (R142, R145). -/
def Berth.cover (x : Berth) (first n : Nat) : Berth :=
  { x with
    state := if x.state = .free then .host else x.state
    covered := (List.range n).foldl (fun c i => insertSet (first + i) c) x.covered }

/-- A write into the berth pool, tested as a whole packet (R146): causes in the order ALIGN, NO_BERTH, CROSSES, STATE. -/
def State.poolWrite (s : State) (a : Nat) (data : List Byte) : State × PoolWrite :=
  let n := data.length
  let touched := s.berthsTouched a n
  if a % 16 ≠ 0 ∨ n % 16 ≠ 0 then (s.poolRefuse touched 3, .error)
  else match touched with
    | [] => (s.poolRefuse [] 1, .error)
    | b :: _ =>
      if a < s.berthBase b ∨ s.berthBase b + s.berthSize b < a + n then (s.poolRefuse touched 2, .error)
      else
        let x := s.berthAt b
        if x.state = .free ∨ x.state = .host then
          ((s.setBerth b (x.cover ((a - s.berthBase b) / 16) (n / 16))).basWrite a data, .landed)
        else (s.poolRefuse touched 0, .busy)

/-! ## Service slots and scrubbing (R133, R137, R138) -/

/-- The rotation of R133. -/
def svcRotation : List SvcReq := [.host, .mgmt, .peer, .nand, .scrub]

/-- The requesters in the order they are asked after the one granted last. -/
def rotationAfter (last : SvcReq) : List SvcReq :=
  let i := svcRotation.findIdx (· = last)
  svcRotation.drop (i + 1) ++ svcRotation.take (i + 1)

/-- The access that a service slot of a bank goes to. -/
def nextAccess (last : SvcReq) (waiting : List SvcAccess) : Option SvcAccess :=
  (rotationAfter last).findSome? (fun r => waiting.find? (fun w => w.req = r))

/-- Who writes a basin address (R131-R133): the host the pool and the wharf, NAND transfers the pool, state transfer the copy set (R333), the
management cores every region. -/
def svcWrites (r : SvcReq) (a : Nat) : Bool :=
  match r with
  | .host => a < 0x1000000 || (0x1E00000 ≤ a && a < 0x1E40000)
  | .mgmt => true
  | .peer => a < 0x1E00000
  | .nand => a < 0x1000000
  | .scrub => false

/-- A unit write of a requester, in the pool under R146. The scrubber writes back what it has corrected, which is what the unit holds
(R134, R138). -/
def State.serviceWrite (s : State) (r : SvcReq) (a : Nat) (v : BitVec 128) : State :=
  if r = .scrub then { s with bas := { s.bas with writeBack := s.bas.writeBack.filter (· ≠ a / 16) } }
  else if !svcWrites r a then s
  else if a < 0x1000000 then (s.poolWrite a (leBytes v.toNat 16)).1
  else s.basWrite a (leBytes v.toNat 16)

/-- A transfer of a requester has met a lasting error: firmware is told of a NAND or peer transfer (R137). -/
def State.transferFails (s : State) (r : SvcReq) (e : Ecc) : State :=
  if e = .lasting ∧ (r = .nand ∨ r = .peer) ∧ !s.bas.failed.contains r then { s with bas := { s.bas with failed := s.bas.failed ++ [r] } } else s

/-- A service access lands: a unit write, or a unit read with its outcome (R133, R137). -/
def State.serviceAccess (s : State) (bank : Fin 32) (waiting : List SvcAccess) : State :=
  match nextAccess (s.bas.granted[bank]) waiting with
  | none => s
  | some w =>
    let s := { s with bas := { s.bas with granted := s.bas.granted.set bank w.req } }
    match w.write with
    | some v => s.serviceWrite w.req (w.line.toNat * 512 + bank.val * 16) v
    | none =>
      if s.bas.fenced.contains w.line.toNat then s
      else (s.eccOutcome w.ecc none bank.val w.line.toNat).transferFails w.req w.ecc

/-- One line of the scrub (R138): the errors found in its units; the sweep's correction count restarts with each sweep (R134). -/
def State.scrubStep (s : State) (errs : List (Fin 32 × Ecc)) : State :=
  let line := s.rd Reg.BAS_SCRUB_STATUS_POSITION
  let s := errs.foldl (fun s e => if s.bas.fenced.contains line then s else s.eccOutcome e.2 none e.1.val line) s
  if line = 65535 then
    let s := { s with bas := { s.bas with sweepCorr := 0, sweepTold := false } }
    (s.put Reg.BAS_SCRUB_STATUS_POSITION 0).incMod Reg.BAS_SCRUB_STATUS_SWEEPS
  else s.put Reg.BAS_SCRUB_STATUS_POSITION (line + 1)

/-! ## Barge beats (R105, R114, R117, R121, R135, R148) -/

/-- The berth LIVE for a home. -/
def State.liveFor (s : State) (home : Nat) : Option (Fin 64) :=
  all64.find? (fun b => (s.berthAt b).state = .live && (s.berthAt b).home = home)

/-- A berth matches a layer descriptor (R147, R148). -/
def State.berthMatches (s : State) (b : Fin 64) (l : Layer) : Bool :=
  s.rd (Reg.BAS_BERTH_FMT_FORMAT b) = l.format && s.rd (Reg.BAS_BERTH_FMT_RES b) = l.res

/-- The berth that a layer of the running flight resolves to: LIVE for its home and matching its descriptor (R148). -/
def State.layerBerth (s : State) (l : Layer) : Option (Fin 64) :=
  match s.liveFor l.berth with
  | some b => if s.berthMatches b l then some b else none
  | none => none

/-- The layers of the running flight are resolved for the whole lock cycle (R148). -/
def State.resolveLayers (s : State) : State :=
  let layers := match s.seq.run with
    | none => []
    | some fl => fl.layers.filterMap (fun l => (s.layerBerth l).map (fun b => (l.berth, s.berthBase b)))
  { s with seq := { s.seq with layers := layers } }

/-- The basin address of the base of a barge's source space; none where its beats land zeros (R110, R114, R148). -/
def State.spaceBase (s : State) (e : BargeEntry) : Option Nat :=
  match e.space with
  | 0 => (s.seq.layers.find? (fun l => l.1 = e.berth)).map Prod.snd
  | 1 => s.seq.run.map (fun fl => FSlotBase (s.rd Reg.SYS_FLIGHT_STATUS_ACTIVE) + fl.dataOff)
  | _ => some 0x1C00000

/-- The source offset of beat j of row r, from its space's base (R114). -/
def BargeEntry.beatSrc (e : BargeEntry) (ch k r j : Nat) : Nat :=
  ((e.src : Int) + (ch : Int) * e.cstride + (k : Int) * e.repSrcStep).toNat + r * e.srcPitch + 16 * j

/-- The beat of a barge that moves in data cycle n, as (row, beat). -/
def Barge.beatAt (b : Barge) (ch n : Nat) : Option (Nat × Nat) :=
  let first := b.entry.rowFirst b.issued ch 0
  if n < first then none
  else
    let r := (n - first) / (b.entry.rowBeats + 2)
    let j := (n - first) % (b.entry.rowBeats + 2)
    if r < b.entry.rows ∧ j < b.entry.rowBeats then some (r, j) else none

/-- The bank of a beat: the bank of its basin address; bases lie on 512 B boundaries but for the data section's offset (R114, R128). -/
def State.beatBank (s : State) (b : Barge) (ch r j : Nat) : Nat :=
  ((s.spaceBase b.entry).getD 0 + b.entry.beatSrc ch b.rep r j) / 16 % 32

/-- A beat of the glyph cache below its staged sets reads nothing from the basin: it lands zeros and its bank cycle passes unused
(R153). -/
def BargeEntry.unread (e : BargeEntry) (ch k r j : Nat) : Bool := e.space = 2 && e.beatSrc ch k r j < 0x130000

/-- Another beat of the same data cycle has the bank: of a lower chamber number, or of an earlier barge of the chamber (R121). -/
def State.bankTaken (s : State) (c : ChamberId) (b : Barge) (n bank : Nat) : Bool :=
  all16.any (fun o => (s.chAt o).barges.any (fun q =>
    (o.val < c.val || (o = c && q.order < b.order)) &&
    (match q.beatAt o.val n with
     | some (r, j) => !(q.entry.unread o.val q.rep r j) && s.beatBank q o.val r j = bank
     | none => false)))

/-- A beat of a barge from beat i on writes to a line. -/
def BargeEntry.writesFrom (e : BargeEntry) (k i line : Nat) : Bool :=
  (List.range (e.rows * e.rowBeats)).any (fun m => i ≤ m && e.beatDst k (m / e.rowBeats) (m % e.rowBeats) / 64 = line)

/-- A beat lands 16 bytes in the local store; its line's tag clears with the last beat that writes the line (R117); the unit is noted
against a store of the same cycle (R45). DESIGN CHOICE: where two barges in flight write one line, the tag stays until the last beat of both has
landed there (R46 speaks of the line's data, R117 of the last beat that writes the line). -/
def Chamber.landBeat (x : Chamber) (b : Barge) (dst : Nat) (bytes : List Byte) : Chamber :=
  let moved := x.barges.map (fun q => if q.slot = b.slot ∧ q.order = b.order then { q with next := q.next + 1 } else q)
  { x with
    store := x.store.writeBytes dst bytes
    tags := if moved.any (fun q => q.entry.writesFrom q.rep q.next (dst / 64)) then x.tags else x.tags.filter (· ≠ dst / 64)
    barges := moved
    arrived := insertSet (dst / 16) x.arrived }

/-- A retry stall starts: 64 chamber cycles, one for all beats of the data cycle (R105). -/
def State.startStall (s : State) (n : Nat) : State :=
  if s.seq.stallCycle.isSome then s
  else { s with seq := { s.seq with stallCycle := some n, stallCount := s.seq.stallCount + 64, stallFences := [] } }

/-- A line is fenced within the stall: for the beats of the stall's own data cycle it was not fenced yet (R135, R136). -/
def State.stallFence (s : State) (line : Nat) : State := { s with seq := { s.seq with stallFences := insertSet line s.seq.stallFences } }

/-- A beat of data cycle n finds the line fenced: the fence acts from the cycle after the failed re-read (R135, R136). -/
def State.fencedFor (s : State) (n line : Nat) : Bool :=
  s.bas.fenced.contains line && !(s.seq.stallCycle == some n && s.seq.stallFences.contains line)

/-- The data of a beat's unit with the outcome of its read (R134-R136): zeros where nothing is LIVE, the line is fenced, or the error is
lasting. -/
def State.beatRead (s : State) (c : ChamberId) (b : Barge) (n r j : Nat) (ecc : Ecc) : State × List Byte :=
  match s.spaceBase b.entry with
  | none => (s, List.replicate 16 0#8)
  | some base =>
    let a := base + b.entry.beatSrc c.val b.rep r j
    let line := a / 512
    if s.fencedFor n line then (s, List.replicate 16 0#8)
    else
      let data := s.bas.bytes a 16
      let s1 := s.eccOutcome ecc (some (c.val * 8 + b.slot.val)) (a / 16 % 32) line (some n)
      match ecc with
      | .clean => (s1, data)
      | .corrected => (s1, data)
      | .transient => (s1.startStall n, data)
      | .lasting => ((s1.startStall n).stallFence line, List.replicate 16 0#8)

/-- The next beat of the barge in a chamber's tag slot. During a retry stall only beats of the same data cycle are served (R105). -/
def State.bargeBeat (s : State) (c : ChamberId) (slot : Fin 8) (ecc : Ecc) : State :=
  match (s.chAt c).barges.find? (fun b => b.slot = slot && b.next < b.entry.rows * b.entry.rowBeats) with
  | none => s
  | some b =>
    let r := b.next / b.entry.rowBeats
    let j := b.next % b.entry.rowBeats
    let n := b.entry.rowFirst b.issued c.val r + j
    if s.seq.stallCycle.isSome && s.seq.stallCycle != some n then s
    else
      let dst := b.entry.beatDst b.rep r j
      if b.entry.unread c.val b.rep r j then s.setCh c ((s.chAt c).landBeat b dst (List.replicate 16 0#8))
      else if s.bankTaken c b n (s.beatBank b c.val r j) then
        (s.setCh c ((s.chAt c).landBeat b dst (List.replicate 16 0#8))).breachAt c 107 (dcyc n)
      else
        let (s, data) := s.beatRead c b n r j ecc
        s.setCh c ((s.chAt c).landBeat b dst data)

end Sys2Proof.Machine
end

