-- ==== Sys2Proof/Machine/Trim.lean ====
section
/-!
DEFINITION. From request to drive (R170-R192): trim-store accesses and errors, the gain chain and its ceilings, the split into drive
words, the wear ledger, the power prediction and the weir.
-/
namespace Sys2Proof.Machine

/-! ## Reaches (R16, R17, R179, R185) -/

/-- Reach r is fenced: the fences in force since the last sluice (R16, R255). -/
def State.fenced (s : State) (r : ReachId) : Bool := s.bitOf Reg.DRV_REACH_STATE_FENCED r

/-- Reach r is dark under a reach reset (R17). -/
def State.resetDark (s : State) (r : ReachId) : Bool := (s.reachAt r).reset = .dark || (s.reachAt r).reset = .rendering

/-- Reach r is lit (R179). -/
def State.reachLit (s : State) (r : ReachId) : Bool := s.lights && !s.fenced r && !s.resetDark r

/-- Reach r counts in the prediction (R185). -/
def State.counted (s : State) (r : ReachId) : Bool :=
  s.reachLit r || (s.modeOf = .shadow && !s.fenced r && !s.resetDark r)

/-- Front and back bank. -/
def Reach.front (x : Reach) : Bank := if x.frontIs1 then x.bank1 else x.bank0
def Reach.back (x : Reach) : Bank := if x.frontIs1 then x.bank0 else x.bank1
def Reach.setBack (x : Reach) (b : Bank) : Reach := if x.frontIs1 then { x with bank0 := b } else { x with bank1 := b }

/-! ## The trim store (R171-R173, R180) -/

/-- A byte of the trim store, and a little-endian u16. -/
def State.ts (s : State) (a : Nat) : Nat := (Sparse.get s.trim.store (trimDefault a) a).toNat
def State.ts16 (s : State) (a : Nat) : Nat := s.ts a + 256 * s.ts (a + 1)

def State.tsSet (s : State) (a v : Nat) : State :=
  { s with trim := { s.trim with store := Sparse.set s.trim.store (trimDefault a) a (BitVec.ofNat 8 v) } }

/-- The base of a ceiling plane. -/
def ceilBase (plane : Nat) : Nat := if plane = 0 then 0x610000 else 0x640000

/-- The active ceiling plane. -/
def State.ceilActive (s : State) : Nat := s.actv Reg.CEIL_CTRL_PLANE

/-- A ceiling plane is busy: active, or a bank was formatted with it (R180). -/
def State.ceilBusy (s : State) (plane : Nat) : Bool :=
  s.ceilActive = plane || all16.any (fun r => (s.reachAt r).bank0.plane = some plane || (s.reachAt r).bank1.plane = some plane)

/-- The reach that is calibrating. -/
def State.calReach (s : State) : Option Nat := s.cal.run.map CalRun.reach

/-- Why a word of the trim store may not be written: the cause of TRM_REFUSE (R172). -/
def State.trimRefusal (s : State) (off : Nat) : Option Nat :=
  if off < 0x400000 then some 0
  else if off < 0x600000 then none
  else if off < 0x610000 then (if s.calReach = some ((off - 0x600000) / 4096) then some 2 else none)
  else if off < 0x631000 then (if s.ceilBusy 0 then some 1 else none)
  else if 0x640000 ≤ off ∧ off < 0x661000 then (if s.ceilBusy 1 then some 1 else none)
  else some 0

/-- A refused write is recorded, with FS132. -/
def State.trimRefuse (s : State) (off cause : Nat) : State :=
  (((s.flag Reg.TRM_REFUSE_VALID).put Reg.TRM_REFUSE_CAUSE cause).put Reg.TRM_REFUSE_OFFSET off).raise 132

/-- The bytes of the factory plane that a trim package carries (R171, R351): what the layout does not name there reads 0. -/
def factoryByte (a : Nat) : Bool :=
  decide (a < 0x200000) || (decide (0x700000 ≤ a ∧ a < 0x700600) && decide (a % 8 < 6)) || decide (0x701000 ≤ a ∧ a < 0x701180) ||
  decide (0x702000 ≤ a ∧ a < 0x702401) || decide (0x702800 ≤ a ∧ a < 0x702C01) || decide (0x703000 ≤ a ∧ a < 0x703140)

/-- What bytes read 0 whatever is written: bits 15:12 of a user column gain (R171). -/
def trimMask (a : Nat) : Nat := if 0x600000 ≤ a ∧ a < 0x610000 ∧ a % 2 = 1 then 16 else 256

/-- A landing 32-bit write: the 8 B word it lies in is rewritten, which ends a lasting error (R173). -/
def State.trimLand (s : State) (off : Nat) (bs : List Byte) : State :=
  let s := { s with trim := { s.trim with failed := s.trim.failed.filter (· ≠ off / 8) } }
  (List.range 4).foldl (fun s i => s.tsSet (off + i) (leAt bs i 1 % trimMask (off + i))) s

/-- The words of a write in ascending order; the causes of those refused. -/
def State.trimWords (s : State) (off : Nat) (bs : List Byte) : Nat → State × List Nat
  | 0 => (s, [])
  | n + 1 =>
    match s.trimRefusal off with
    | some c =>
      let (s, cs) := State.trimWords (s.trimRefuse off c) (off + 4) (bs.drop 4) n
      (s, c :: cs)
    | none => State.trimWords (s.trimLand off (bs.take 4)) (off + 4) (bs.drop 4) n

/-- A write to the trim store (R172). -/
def State.trimWrite (s : State) (off : Nat) (bs : List Byte) : State × PoolWrite :=
  if off % 4 ≠ 0 ∨ bs.length % 4 ≠ 0 then (s.trimRefuse off 3, .error)
  else
    let (s, causes) := s.trimWords off bs (bs.length / 4)
    (s, if causes.isEmpty then .landed else if causes.contains 0 then .error else .busy)

/-- An uncorrectable read of word `w` (8 B index) of a store (0 trim store, 1 ledger), by its outcome, with the reach it belongs to
(R173). -/
def State.trimEcc (s : State) (store w : Nat) (e : Ecc) (locus : Option Nat) : State :=
  let note (s : State) (lasting : Nat) : State :=
    (((s.flag Reg.TRM_ECC_LAST_VALID).put Reg.TRM_ECC_LAST_LASTING lasting).put Reg.TRM_ECC_LAST_STORE store).put Reg.TRM_ECC_LAST_WORD w
  match e with
  | .clean => s
  | .corrected => s
  | .transient => (note (s.inc Reg.TRM_ECC_RETRY_COUNT) 0).raise 128
  | .lasting =>
    let t := if store = 0 then { s.trim with failed := insertSet w s.trim.failed } else { s.trim with ledgerFailed := insertSet w s.trim.ledgerFailed }
    (note (State.inc { s with trim := t } Reg.TRM_ECC_UNCORR_COUNT) 1).raise 129 locus

/-! ## The gain chain (R174-R177) -/

/-- The emitter index. -/
def emitter (reach row sink : Nat) : Nat := reach * 131072 + row * 2048 + sink

/-- temp_gain of R175, for a table entry's base address. -/
def State.tempGain (s : State) (at_ : Nat) (t16 : Int) : Nat :=
  let lo := toSigned 16 (s.ts16 at_)
  let base : Int := s.ts16 (at_ + 2)
  let slope := toSigned 16 (s.ts16 (at_ + 4))
  (clampInt 8192 32767 (base + Int.ediv (slope * (t16 - lo)) 256)).toNat

/-- drive_value of R176 before its clamp. -/
def driveRaw (req gf gc gp gw gt : Nat) : Nat :=
  let d0 := (req * 51559 + 32768) / 65536
  let a := (d0 * gf * gc + 131072) / 262144
  (a * (896 + gp) * (1024 + gw) * gt + 8589934592) / 17179869184

/-- D_MAX. -/
def dMax : Nat := 64449

/-- The split of R177: the drive word of R9. -/
def splitWord (d : Nat) : Nat :=
  if d = 0 then 0
  else
    let k := (d + 1022) / 1023
    let p := (2 * d + k) / (2 * k)
    k * 1024 + p

/-- k and p of a drive word. -/
def wordK (w : Nat) : Nat := w / 1024
def wordP (w : Nat) : Nat := w % 1024

/-! ## Neighbour fill (R211) -/

/-- A sub-emitter is fenced in the fences latched at the sluice. -/
def State.latchedFence (s : State) (reach row sink : Nat) : Bool :=
  s.trim.fencedEm.contains (emitter reach row sink) || s.trim.fencedCol.contains (reach * 2048 + sink)

/-- The request of lane i of a segment, filled from its fenced neighbours. -/
def State.filledReq (s : State) (reach row seg : Nat) (v : VecW) (i : Nat) : Nat :=
  let req := lane v i
  if s.actv Reg.DIAG_CTRL_FILL_EN = 0 || s.latchedFence reach row (32 * seg + i) then req
  else
    let add (j : Nat) : Nat := (lane v j * s.actv Reg.DIAG_CTRL_FILL_SHARE + 128) / 256
    let left := if 2 ≤ i ∧ s.latchedFence reach row (32 * seg + i - 2) then min 65535 (req + add (i - 2)) else req
    if i < 30 ∧ s.latchedFence reach row (32 * seg + i + 2) then min 65535 (left + add (i + 2)) else left

/-! ## Formatting (R176, R177, R183, R184) -/

/-- The addresses that a drive word is formed from: gains, temperature table, cap, and where they act the keep-out byte and the glare
ceiling. -/
def State.wordReads (s : State) (reach row sink : Nat) : List Nat :=
  let e := emitter reach row sink
  let band := (s.trim.bands[reach]?).getD 0
  let c := sink % 2
  let idx := (reach * 6 + band) * 2 + c
  let x := sink / 2
  let y := reach * 64 + row
  let plane := ceilBase s.ceilActive
  [e, 0x600000 + (reach * 2048 + sink) * 2, 0x700000 + idx * 8, 0x701000 + idx * 2] ++
  (if s.actv Reg.TRM_CTRL_WEAR_EN = 1 then [0x200000 + e] else []) ++
  (if s.actv Reg.TRM_CTRL_PIXEL_EN = 1 then [0x400000 + e] else []) ++
  (if s.trim.relax then [] else [plane + y * 128 + x / 8, plane + 131072 + (y / 32 * 32 + x / 32) * 4])

/-- A drive word, and which steps lowered it: saturated, keep-out, glare, eye safety. -/
structure Formed where
  word : Nat
  sat : Bool
  ko : Bool
  glare : Bool
  eye : Bool
deriving DecidableEq, Repr

/-- The drive word of a request (R176, R177, R183). DESIGN CHOICE: in a lock cycle opened before the first thermal update no node has a temperature,
and R175 is applied with 0 (0 °C). -/
def State.formWord (s : State) (reach row sink req : Nat) : Formed :=
  let e := emitter reach row sink
  let band := (s.trim.bands[reach]?).getD 0
  let c := sink % 2
  let idx := (reach * 6 + band) * 2 + c
  let x := sink / 2
  let y := reach * 64 + row
  let plane := ceilBase s.ceilActive
  let gp := if s.actv Reg.TRM_CTRL_PIXEL_EN = 1 then s.ts (0x400000 + e) else 128
  let gw := if s.actv Reg.TRM_CTRL_WEAR_EN = 1 then s.ts (0x200000 + e) else 0
  let gt := s.tempGain (0x700000 + idx * 8) ((s.trim.temps[y / 32 * 32 + x / 32]?).getD 0)
  let b := driveRaw req (s.ts e) (s.ts16 (0x600000 + (reach * 2048 + sink) * 2)) gp gw gt
  let d := min b dMax
  let d1 := if !s.trim.relax && (s.ts (plane + y * 128 + x / 8)).testBit (x % 8) then 0 else d
  let g := s.ts16 (plane + 131072 + (y / 32 * 32 + x / 32) * 4 + 2 * c)
  let d2 := if !s.trim.relax && g < req then d1 * g / req else d1
  let d3 := min d2 (s.ts16 (0x701000 + idx * 2))
  if (s.wordReads reach row sink).any (fun a => s.trim.failed.contains (a / 8)) then
    { word := 0, sat := false, ko := false, glare := false, eye := false }
  else { word := splitWord d3, sat := dMax < b, ko := d1 < d, glare := d2 < d1, eye := d3 < d2 }

/-- A word takes its place in a bank, and its product in the drive sum (R185). -/
def Bank.setWord (b : Bank) (i w : Nat) : Bank :=
  let old := (Sparse.get b.words 0#16 i).toNat
  { b with words := Sparse.set b.words 0#16 i (BitVec.ofNat 16 w), sum := b.sum + wordP w * wordK w - wordP old * wordK old }

/-- The oldest waiting segment of a reach is formatted into its back bank; the first of a lock cycle starts a new bank. -/
def State.formatSegment (s : State) (r : ReachId) (key : Nat) : State :=
  let x := s.reachAt r
  let row := key / 64
  let seg := key % 64
  let v := Sparse.get x.delivered 0#512 key
  let formed := (List.range 32).map (fun i => (32 * seg + i, s.formWord r row (32 * seg + i) (s.filledReq r row seg v i)))
  let start := if x.written.isEmpty then Bank.blank else x.back
  let bank := formed.foldl (fun b f => b.setWord (row * 2048 + f.1) f.2.word) start
  let bank := { bank with plane := some s.ceilActive, ko := !s.trim.relax }
  let s := s.setReach r { x.setBack bank with waiting := x.waiting.filter (· ≠ key), written := insertSet key x.written }
  let note (l : Sparse Nat) (f : Formed → Bool) : Sparse Nat := Sparse.set l 0 (4096 * r.val + key) (formed.filter (fun p => f p.2)).length
  { s with trim := { s.trim with sat := note s.trim.sat Formed.sat, ko := note s.trim.ko Formed.ko, glare := note s.trim.glare Formed.glare,
                                 eye := note s.trim.eye Formed.eye } }

/-- The trim and ceiling stages take a reach's oldest delivery; `errs` are the trim-store words (8 B index) whose reads meet an error. -/
def State.trimFormat (s : State) (r : ReachId) (errs : List (Nat × Ecc)) : State :=
  match (s.reachAt r).waiting with
  | [] => s
  | key :: _ =>
    let reads := (List.range 32).flatMap (fun i => s.wordReads r (key / 64) (32 * (key % 64) + i))
    let met := errs.filter (fun e => reads.any (fun a => a / 8 = e.1) && !(s.trim.failed.contains e.1))
    (met.foldl (fun s e => s.trimEcc 0 e.1 e.2 (some r.val)) s).formatSegment r key

/-! ## The wear ledger (R178, R179, R181, R182) -/

/-- One step of the dither register: the Galois form that shifts toward bit 0, x³² + x²² + x² + x + 1. -/
def lfsrStep (x : Nat) : Nat := if x % 2 = 1 then x / 2 ^^^ 0x80200003 else x / 2

/-- The wear gain of a ledger value on a channel (R181). -/
def State.wearGain (s : State) (c l : Nat) : Nat :=
  let at_ (i : Nat) : Int := (s.ts (0x702000 + c * 0x800 + i) : Nat)
  let i := l / 4194304
  let f : Int := (l % 4194304 : Nat)
  ofSigned 8 (at_ i + Int.ediv ((at_ (i + 1) - at_ i) * f) 4194304)

/-- The wear gains in the plane. -/
def State.wearPlane (s : State) : List Nat :=
  (s.trim.store.filter (fun c => 0x200000 ≤ c.1 && c.1 < 0x400000)).map (fun c => c.2.toNat)

/-- TRM_WEAR follows the plane; a rise of AT_LIMIT raises FS131 (R181). -/
def State.noteWear (s : State) : State :=
  let gains := s.wearPlane
  let atLimit := (gains.filter (· = 255)).length
  let risen := s.rd Reg.TRM_WEAR_AT_LIMIT < atLimit
  let s := (s.put Reg.TRM_WEAR_AT_LIMIT atLimit).put Reg.TRM_WEAR_MAX_GW (gains.foldl max 0)
  if risen then s.raise 131 else s

/-- The ledger entry of an emitter. -/
def State.ledgerAt (s : State) (e : Nat) : Nat := s.trim.ledger.readLE (4 * e) 4

/-- Where WEAR_K stands for DAC code k, and WEAR_T for a temperature step (R171). -/
def wearKAt (c k : Nat) : Nat := if k < 32 then 0x703000 + c * 0x40 + k * 2 else 0x703080 + c * 0x40 + (k - 32) * 2
def wearTAt (c i : Nat) : Nat := 0x703100 + c * 0x20 + i * 2

/-- The front-bank word of an emitter, as swapped at this sluice (R179). -/
def State.frontWord (s : State) (e : Nat) : Nat :=
  (Sparse.get (s.reach[e / 131072 % 16]'(Nat.mod_lt _ (by decide))).front.words 0#16 (e % 131072)).toNat

/-- The temperature step of an emitter's node (R179). -/
def State.wearStep (s : State) (e : Nat) : Nat :=
  let node := e / 2048 / 32 * 32 + e % 2048 / 2 / 32
  (clampInt 0 15 (Int.ediv ((s.trim.temps[node]?).getD 0) 128)).toNat

/-- The wear of a visit in units of 2⁻³⁰ ledger unit: r2 of R179. -/
def State.wearOf (s : State) (e dt : Nat) : Nat :=
  let w := s.frontWord e
  let pl := if s.trim.lit.contains (e / 131072) then wordP w * s.rd Reg.WEIR_STATE_FACTOR / 1024 else 0
  let r1 := dt * pl * s.S / ((s.S + 1) * 1011)
  r1 * s.ts16 (wearKAt (e % 2) (wordK w)) * s.ts16 (wearTAt (e % 2) (s.wearStep e)) / 16777216

/-- The words of the trim store that the update of an emitter to ledger value l reads: its stress and acceleration factors, and the points of
its wear curve (R179, R181). -/
def State.wearReads (s : State) (e l : Nat) : List Nat :=
  let curve := 0x702000 + e % 2 * 0x800 + l / 4194304
  [wearKAt (e % 2) (wordK (s.frontWord e)), wearTAt (e % 2) (s.wearStep e), curve, curve + 1].map (· / 8)

/-- The time since the last visit of a group, at most 10 s. -/
def State.sinceVisit (s : State) (g : Nat) : Nat := min (s.now - Sparse.get s.trim.lastVisit s.trim.visitBase g) 10000000000

/-- The emitter's new ledger value and wear gain, from its factors and its curve. `errs` are the words of the trim store whose read met an
error. DESIGN CHOICE: R173 gives the drive words of a failed word, not the ledger's; an update that reads one leaves the emitter alone, as one
whose ledger word has failed. -/
def State.ledgerAdd (s : State) (e : Nat) (errs : List (Nat × Ecc)) : State :=
  let rnd := lfsrStep s.trim.lfsr
  let l := min (2 ^ 32 - 1) (s.ledgerAt e + (s.wearOf e (s.sinceVisit (e % 256)) + rnd % 1073741824) / 1073741824)
  let reads := s.wearReads e l
  let met := errs.filter (fun x => reads.contains x.1 && !(s.trim.failed.contains x.1))
  let s := met.foldl (fun s x => s.trimEcc 0 x.1 x.2 (some (e / 131072))) s
  if reads.any s.trim.failed.contains then s
  else
    let s := { s with trim := { s.trim with lfsr := rnd, ledger := s.trim.ledger.writeLE (4 * e) 4 l } }
    (s.tsSet (0x200000 + e) (s.wearGain (e % 2) l)).noteWear

/-- The update of emitter 256 k + g of the present group (R179): once in a lock cycle; a failed ledger word is left alone (R173). -/
def State.ledgerUpdate (s : State) (k : Nat) (ecc : Ecc) (errs : List (Nat × Ecc)) : State :=
  let g := s.rd Reg.TRM_LEDGER_GROUP
  let e := 256 * k + g
  if s.trim.visited.contains k || s.seq.sluices = 0 then s
  else
    let word := 4 * e / 8
    let s := if s.trim.ledgerFailed.contains word then s else s.trimEcc 1 word ecc (some (e / 131072))
    let s := if s.trim.ledgerFailed.contains word then s else s.ledgerAdd e errs
    let visited := insertSet k s.trim.visited
    if visited.length = 8192 then
      { s with trim := { s.trim with visited := visited, lastVisit := Sparse.set s.trim.lastVisit s.trim.visitBase g s.now } }
    else { s with trim := { s.trim with visited := visited } }

/-- The ledger is restored from a checkpoint, and every wear gain rebuilt from it (R182); every word of it is rewritten, which ends their
lasting errors (R173). -/
def State.ledgerRestore (s : State) (ledger : Memory) : State :=
  let s := { s with trim := { s.trim with ledger := ledger, ledgerFailed := [] } }
  let gains := (List.range 2097152).filterMap (fun e =>
    let g := s.wearGain (e % 2) (s.ledgerAt e)
    if g = 0 then none else some (0x200000 + e, BitVec.ofNat 8 g))
  let keep := s.trim.store.filter (fun c => c.1 < 0x200000)
  let above := s.trim.store.filter (fun c => 0x400000 ≤ c.1)
  (State.noteWear { s with trim := { s.trim with store := keep ++ gains ++ above } }).put Reg.TRM_LEDGER_RESTORED 1

/-! ## The prediction and the weir (R185-R190) -/

/-- p_var of a drive sum (R185). -/
def State.pVar (s : State) (psum vled : Nat) : Nat :=
  let iNa := psum * s.actv Reg.WEIR_ILSB_NA * s.S / (67584 * (s.S + 1))
  (iNa * vled + 999999999) / 1000000000

/-- The budget in force and the term that sets it (R186). -/
def State.weirBudget (s : State) : Nat × Nat :=
  let host := s.actv Reg.WEIR_BUDGET_MW
  let cap := s.rd Reg.WEIR_CAP_MW
  let terms := [host, cap, s.rd Reg.WEIR_THERMAL_MW] ++ (if s.on Reg.PEER_STATUS_DUAL then [min host cap / 2] else [])
  let b := terms.foldl min host
  (b, terms.findIdx (· = b))

/-- The target of R187. -/
def weirTarget (pPred pFixed pVar b : Nat) : Nat :=
  if pPred ≤ b then 1024 else if b ≤ pFixed then 0 else 1024 * (b - pFixed) / pVar

/-- The reaches' shares, and whether each was counted; the register of a stale reach holds (R185, R215). -/
def State.notePred (s : State) (vled : Nat) : State :=
  all16.foldl (fun s (r : ReachId) =>
    if s.bitOf Reg.DRV_STALE_STALE r then s
    else (s.put (Reg.TRM_PRED_DARK r) (b2n (!s.counted r))).put (Reg.TRM_PRED_MW r) (min 65535 (if s.counted r then s.pVar (s.reachAt r).front.sum vled else 0))) s

/-- The weir's new factor: the target at once after a lock cycle without a counted reach, down in one step, held, or up by a step (R187). -/
def weirFactor (target prev rise hold : Nat) (since : Option Nat) (fresh : Bool) : Nat :=
  if fresh ∨ target ≤ prev then target
  else match since with
    | some d => if d ≤ hold then prev else min target (prev + rise)
    | none => min target (prev + rise)

/-- The model check of R190 on the lock cycle that closes, with its measured power. -/
def State.weirCheck (s : State) (measured : Nat) : State :=
  let s := s.put Reg.WEIR_MEASURED_MW measured
  let limit := s.trim.litPred * (100 + s.rd Reg.WEIR_CHECK_PCT) + 100 * s.rd Reg.WEIR_CHECK_OFFSET_MW
  let excess := if limit < 100 * measured then s.trim.excess + 1 else 0
  if s.rd Reg.WEIR_CHECK_LC ≤ excess then (State.flag { s with trim := { s.trim with excess := 0 } } Reg.WEIR_EVENT_MODEL).raise 133
  else { s with trim := { s.trim with excess := excess } }

/-- R29 order 8, with the highest VLED sample of the closing lock cycle. DESIGN CHOICE: the first sluice after STOPPED closes none, and takes
0 mV (R185 states no value there). -/
def State.weirStep (s : State) (vled : Nat) : State :=
  let pFixed := s.actv Reg.WEIR_CFG_P_FIXED
  let psum := all16.foldl (fun n r => if s.counted r then n + (s.reachAt r).front.sum else n) 0
  let pVar := s.pVar psum vled
  let (b, source) := s.weirBudget
  let prev := s.rd Reg.WEIR_STATE_FACTOR
  let hold := s.actv Reg.WEIR_CFG_HOLD_LC
  let target := weirTarget (pVar + pFixed) pFixed pVar b
  let since := s.trim.drops.map (· + 1)
  let held := match since with
    | some d => decide (d ≤ hold)
    | none => false
  let fresh := !s.trim.counted
  let wf := weirFactor target prev (s.actv Reg.WEIR_CFG_RISE_STEP) hold since fresh
  let s := ((s.put Reg.WEIR_STATE_FACTOR wf).put Reg.WEIR_STATE_TARGET target).put Reg.WEIR_STATE_SOURCE source
  let s := s.put Reg.WEIR_STATE_HOLDING (b2n (!fresh && decide (prev < target) && held))
  let s := s.put Reg.WEIR_STATE_RAMPING (b2n (decide (prev < wf) && decide (wf < target)))
  let s := (s.put Reg.WEIR_EFFECTIVE_MW b).put Reg.WEIR_EFFECTIVE_DUAL (b2n (s.on Reg.PEER_STATUS_DUAL))
  let s := (s.put Reg.WEIR_PRED_MW (pVar + pFixed)).put Reg.WEIR_VLED_MV vled
  let s := if wf < prev then s.flag Reg.WEIR_EVENT_LOWERED else if prev < wf then s.flag Reg.WEIR_EVENT_RAISED else s
  let s := s.notePred vled
  { s with trim := { s.trim with
      drops := if wf < prev then some 0 else since
      counted := all16.any s.counted
      litPred := pFixed + pVar * wf / 1024 } }

/-! ## The trim stage at a sluice (R29, R175, R176, R179, R183, R184) -/

/-- The words counted over every segment. -/
def countAll (l : Sparse Nat) : Nat := l.foldl (fun n c => n + c.2) 0

/-- The counters of the lock cycle that closes become the LAST and COUNT fields; FS130 (R176). -/
def State.closeFormat (s : State) : State :=
  let sat := countAll s.trim.sat
  let s := (s.put Reg.TRM_SAT_LAST (min 65535 sat)).put Reg.CEIL_KO_COUNT_COUNT (countAll s.trim.ko)
  let s := (s.put Reg.CEIL_GLARE_COUNT_COUNT (countAll s.trim.glare)).put Reg.CEIL_EYE_COUNT_COUNT (countAll s.trim.eye)
  let s := { s with trim := { s.trim with sat := [], ko := [], glare := [], eye := [] } }
  if s.rd Reg.TRM_SAT_LIMIT < sat then s.raise 130 else s

/-- The ledger engine's group of the opening lock cycle; the visit times restart at the first sluice after STOPPED (R179). -/
def State.ledgerGroup (s : State) (first : Bool) : State :=
  let s := s.put Reg.TRM_LEDGER_GROUP (s.seq.sluices % 256)
  let s := { s with trim := { s.trim with visited := [], lit := (all16.filter s.reachLit).map Fin.val } }
  if first then { s with trim := { s.trim with lastVisit := [], visitBase := s.seq.opened } } else s

end Sys2Proof.Machine
end

