-- ==== Sys2Proof/Machine/Locks.lean ====
section
/-!
DEFINITION. Locks on the chambers (R57, R109, R121): the start of a lock, the end of its length, a repetition of a barge that was not
issued, the end of a retry stall (R105), and the landing of results with no bundle issuing (R48).
-/
namespace Sys2Proof.Machine

/-- Fuel for landing: one turn for each result in flight. -/
def State.landUpTo (s : State) (c : ChamberId) (t : Nat) : State := s.landTo c t ((s.chAt c).inFlight.length + 1)

/-- The chamber's schedule runs on to cycle t, if it stands before it. -/
def State.runTo (s : State) (c : ChamberId) (t : Nat) : State :=
  let s := s.closeBundle c
  if (s.chAt c).cycle < t then s.landUpTo c t else s

/-- The schedule holds in a retry stall: no schedule cycle passes and no result lands (R102, R105). -/
def State.stalled (s : State) : Bool := s.seq.stallCycle.isSome

/-- No HALT by lock-relative cycle LENGTH − 1: the chamber halts at the end of that cycle, with FS105 (R121). -/
def State.lockLengthExpire (s : State) (c : ChamberId) : State :=
  let x := s.chAt c
  match s.lockOf x with
  | none => s
  | some l =>
    if !x.running || s.stalled then s
    else
      let last := x.lockStart + l.length - 1
      let s := if x.cycle < last then s.runTo c last else s
      let s := s.breach c 105
      (s.setCh c (s.chAt c).halt).runTo c (last + 1)

/-- The issue cycle of the next repetition of barge-list entry n passed without its BARGE.ISSUE (R121): the repetition is not started. -/
def State.bargeRepMissed (s : State) (c : ChamberId) (n : Nat) : State :=
  let x := s.chAt c
  match s.seq.run, s.lockOf x with
  | some fl, some l =>
    match (if n < l.bargeN then fl.barges[l.bargeFirst + n]? else none) with
    | none => s
    | some e =>
      let k := Sparse.get x.reps 0 n
      if e.reps ≤ k ∨ s.chFenced c ∨ s.stalled then s
      else
        let s := s.runTo c (x.lockStart + e.issue + k * e.repCycles)
        let x := s.chAt c
        (s.setCh c { x with reps := Sparse.set x.reps 0 n (k + 1) }).breach c 106
  | _, _ => s

/-- A chamber starts a lock: at its entry, with empty stacks; registers, stores, tags, results and barges in flight stay (R57). A chamber still
in an earlier lock has overrun that lock's length. -/
def State.startLock (s : State) (c : ChamberId) (i : Nat) (l : LockEntry) : State :=
  let s := s.lockLengthExpire c
  let s := s.runTo c l.start
  let x := s.chAt c
  if l.start < x.cycle then s
  else
    s.setCh c { x with
      pc := l.entry, loops := [], calls := [], transfers := [], running := true, halted := false, lock := i, lockStart := l.start, reps := [] }

/-- Lock i of the running flight starts on each chamber of its mask that is neither fenced nor in a reach that a reset holds (R17, R109,
R255). -/
def State.lockStart (s : State) (i : Nat) : State :=
  match s.seq.run.bind (fun f => f.locks[i]?) with
  | none => s
  | some l =>
    if !s.cycling || s.stalled then s
    else all16.foldl (fun s (c : ChamberId) =>
      if l.mask.testBit c.val && !s.chFenced c && (s.reachAt c).reset != .dark then s.startLock c i l else s) s

/-- After 64 cycles a retry stall ends (R105). -/
def State.stallEnd (s : State) : State := { s with seq := { s.seq with stallCycle := none, stallFences := [] } }

/-- A result lands: the open bundle closes, or where none is open the schedule runs on to the next landing. -/
def State.resultLand (s : State) (c : ChamberId) : State :=
  let x := s.chAt c
  if s.stalled then s
  else if x.scalarUsed || x.vectorUsed then s.closeBundle c
  else if x.running then s
  else match (x.inFlight.map InFlight.due).min? with
    | some d => s.landUpTo c d
    | none => s

end Sys2Proof.Machine
end

