-- ==== Sys2Proof/Machine/Chk.lean ====
section
/-!
DEFINITION. The check-value units CHK0-CHK7 (R309-R312).
-/
namespace Sys2Proof.Machine

/-- A failed comparison or counter of unit u: its source. -/
def State.chkFail (s : State) (source : Nat) : State := (s.flag Reg.SAF_EVENT_CHK).raise source

/-- The number in n bytes, in either byte order. -/
def numberOf (be : Bool) (bs : List Byte) : Nat := if be then ofLE bs.reverse else ofLE bs

/-- What unit u compares: the check value of a record, and whether it matches; the value itself may be given. -/
def State.chkCompare (s : State) (u : Nat) (rec : List Byte) (given : Option Nat) : Nat × Bool :=
  let poly := s.rd (Reg.CHK_CFG_POLY u)
  let n := crcSize poly
  if s.rd (Reg.CHK_CFG_MODE u) = 0 ∨ s.rd (Reg.CHK_CFG_POINT u) = 1 ∨ s.rd (Reg.CHK_CFG_POINT u) = 2 then
    let v := given.getD (crcBy poly rec)
    (v, v = s.actv (Reg.CHK_REF_REF u) % 2 ^ (8 * n))
  else
    let off := s.rd (Reg.CHK_OFFSETS_CHK_OFF u)
    let v := crcBy poly (rec.take off)
    (v, decide (off + n ≤ rec.length) && v == numberOf (s.on (Reg.CHK_CFG_BE u)) ((rec.drop off).take n))

/-- The counter of a record (R311). A record too short for its counter has none. -/
def State.chkAlive (s : State) (u : Nat) (rec : List Byte) : State :=
  let n := 1 + s.rd (Reg.CHK_CFG_ALIVE16 u)
  let off := s.rd (Reg.CHK_OFFSETS_ALIVE_OFF u)
  let point := s.rd (Reg.CHK_CFG_POINT u)
  if !s.on (Reg.CHK_CFG_ALIVE_EN u) ∨ point = 1 ∨ point = 2 ∨ rec.length < off + n then s
  else
    let v := numberOf (s.on (Reg.CHK_CFG_BE u)) ((rec.drop off).take n)
    let s := if s.on (Reg.CHK_ALIVE_SEEDED u) && v != (s.rd (Reg.CHK_ALIVE_LAST u) + 1) % 2 ^ (8 * n) then s.chkFail (88 + u) else s
    (s.put (Reg.CHK_ALIVE_SEEDED u) 1).put (Reg.CHK_ALIVE_LAST u) v

/-- A record of unit u closes. -/
def State.chkRecord (s : State) (u : Nat) (rec : List Byte) (given : Option Nat) : State :=
  let (v, ok) := s.chkCompare u rec given
  let s := (s.inc (Reg.CHK_RECORDS_COUNT u)).put (Reg.CHK_VALUE_VALUE u) v
  let s := if ok then s else (s.inc (Reg.CHK_MISMATCHES_COUNT u)).chkFail (80 + u)
  s.chkAlive u rec

/-- Unit u snoops a point at an index (R309). -/
def State.chkWants (s : State) (point index u : Nat) : Bool :=
  s.on (Reg.CHK_CFG_EN u) && s.rd (Reg.CHK_CFG_POINT u) == point && !(s.saf.chkWait.contains u) &&
  (match point with
   | 3 => true
   | 4 => true
   | 5 => s.rd (Reg.CHK_CFG_INDEX u) % 2 == index
   | _ => s.rd (Reg.CHK_CFG_INDEX u) == index)

/-- A record passes a point: every unit that snoops it there closes it. -/
def State.chkSnoop (s : State) (point index : Nat) (rec : List Byte) : State :=
  (List.range 8).foldl (fun s u => if s.chkWants point index u then s.chkRecord u rec none else s) s

/-- The bytes of a reach's request frame, and whether all of it was delivered (R100, R309). -/
def Reach.requestFrame (x : Reach) : List Byte :=
  (List.range 4096).flatMap (fun k => leBytes (Sparse.get x.delivered 0#512 k).toNat 64)

/-- POINT 1: a request frame closes at the sluice. What an undelivered segment counts as is not stated: the value is then free. -/
def State.chkRequest (s : State) (r : ReachId) : State :=
  (List.range 8).foldl (fun s u =>
    if s.chkWants 1 r.val u then
      let x := s.reachAt r
      if x.delivered.length = 4096 then s.chkRecord u x.requestFrame none
      else State.chkRecord s.draw u [] (some (Config.freeBits (8 * crcSize (s.rd (Reg.CHK_CFG_POLY u))) s.fresh))
    else s) s

/-- POINT 2: the drive words of display scan 1 close at its end. -/
def State.chkDrive (s : State) (r : ReachId) : State :=
  (List.range 8).foldl (fun s u =>
    if s.chkWants 2 r.val u then
      s.chkRecord u ((List.range 131072).flatMap (fun k => leBytes (Sparse.get (s.reachAt r).front.words 0#16 k).toNat 2)) none
    else s) s

/-- The next record boundary of a unit's point is still to come when it is enabled: the next sluice at POINT 1 and 2, the end of a painter
stream that is being sent at POINT 4 (R312). At the other points a record passes whole. -/
def State.chkMidRecord (s : State) (u : Nat) : Bool :=
  let point := s.rd (Reg.CHK_CFG_POINT u)
  point == 1 || point == 2 || (point == 4 && !s.pnt.stream.isEmpty)

/-- A unit is enabled: its counter is not seeded, and it starts at the next record boundary of its point (R311, R312). -/
def State.chkEnable (s : State) (u : Nat) : State :=
  let s := s.put (Reg.CHK_ALIVE_SEEDED u) 0
  let others := s.saf.chkWait.filter (· != u)
  s.setSaf { s.saf with chkWait := if s.chkMidRecord u then insertSet u others else others }

/-- A record boundary comes at some points: the units that wait there start. -/
def State.chkStart (s : State) (points : List Nat) : State :=
  s.setSaf { s.saf with chkWait := s.saf.chkWait.filter (fun u => !points.contains (s.rd (Reg.CHK_CFG_POINT u))) }

/-- The sluice: request frames close for the units that run, and the units that wait start. -/
def State.chkSluice (s : State) : State :=
  State.chkStart (all16.foldl (fun s (r : ReachId) => s.chkRequest r) s) [1, 2]

end Sys2Proof.Machine
end

