-- ==== Sys2Proof/Machine/Modes.lean ====
section
/-!
DEFINITION. Modes (R386-R400): setting RUN and COMMIT, the Safe-Dark latch, Egress, the mode latches, the service button, and the resets
that software and the button make.
-/
namespace Sys2Proof.Machine

/-! ## RUN and COMMIT (R27, R33) -/

/-- RUN becomes 1: a stopped sequencer begins to wait for its first sluice (R27). -/
def State.setRun (s : State) : State :=
  let s := s.put Reg.SEQ_CTRL_RUN 1
  if s.seq.state = .stopped then { s with seq := { s.seq with runAt := s.now, next := none, target := none, pend := none, first := true } } else s

/-- RUN becomes 0: effective at the next sluice; a start that has not reached its first sluice is given up. -/
def State.clearRun (s : State) : State :=
  let s := s.put Reg.SEQ_CTRL_RUN 0
  if s.seq.state = .stopped then { s with seq := { s.seq with next := none, snap := none } } else s

/-- COMMIT becomes 1; past tick −4 it stays for the next sluice (R33). -/
def State.commitBit (s : State) : State :=
  let s := s.put Reg.SEQ_COMMIT_COMMIT 1
  { s with seq := { s.seq with snap := s.seq.snap.map (fun x => { x with again := true }) } }

/-- A write of 1 to COMMIT lands (R31, R33). -/
def State.setCommit (s : State) : State := (s.landing true false).commitBit

/-! ## Safe-Dark (R390) -/

/-- The Safe-Dark latch is set; SD_CAUSE keeps the first cause. -/
def State.enterSafeDark (s : State) (cause : Nat) : State :=
  if s.mode.safeDark then s
  else State.put { s with mode := { s.mode with safeDark := true } } Reg.SYS_MODE_SD_CAUSE cause

/-- The clear condition of the recorded cause: below 100 °C for cause 1, never for 2 and 3, at once for 4. -/
def State.safeDarkClears (s : State) : Bool :=
  match s.rd Reg.SYS_MODE_SD_CAUSE with
  | 1 => s.thm.outs.all (· < 1600) && s.thm.readings.all (· < 1600)
  | 4 => true
  | _ => false

/-- A request to clear the latch; a running sequencer lights again from the first display scan after the next sluice. -/
def State.clearSafeDark (s : State) : State :=
  if !s.mode.safeDark then s
  else if s.safeDarkClears then
    State.condition (State.put { s with mode := { s.mode with safeDark := false, relight := b2n s.running } } Reg.SYS_MODE_SD_CAUSE 0) 145 false
  else s.flag Reg.SYS_MODE_EVENT_REFUSED

/-! ## Latches (R389) -/

/-- The Maintenance latch is set, and RUN cleared; a light that is on goes dark from the next sluice. -/
def State.setMaint (s : State) : State :=
  State.clearRun (State.put { s with mode := { s.mode with afterglow := s.lights } } Reg.SYS_MODE_MAINT 1)

/-- The Test latch is set, and RUN cleared. -/
def State.setTest (s : State) : State := (s.put Reg.SYS_MODE_TEST 1).clearRun

/-- A write of RESUME: accepted only while FLT_FENCE reads 0 and FS114 and FS138 are not live; it acts at the next sluice. -/
def State.resume (s : State) : State :=
  if s.rd Reg.FLT_FENCE_REACH = 0 ∧ s.rd Reg.FLT_FENCE_CHAMBER = 0 ∧ !s.live 114 ∧ !s.live 138 then
    { s with mode := { s.mode with resume := true } }
  else s.flag Reg.SYS_MODE_EVENT_REFUSED

/-- The degraded latch at a sluice: an accepted RESUME clears it, a lasting reaction sets it (R255, R389). -/
def State.degradeAtSluice (s : State) : State :=
  let s := if s.mode.resume then State.put { s with mode := { s.mode with resume := false } } Reg.SYS_MODE_DEGRADED 0 else s
  if s.flt.degrade then State.put { s with flt := { s.flt with degrade := false } } Reg.SYS_MODE_DEGRADED 1 else s

/-! ## Egress (R124, R388) -/

/-- The conditions of entry: requested, Boot ended at least 2 ms ago, and no row above Egress holds. -/
def State.mayEnterEgress (s : State) : Bool :=
  s.on Reg.SAF_EGRESS_REQUESTED && s.mode.phase = .running && decide (s.mode.bootEnd + 2000000 ≤ s.now) && !s.mode.safeDark &&
  s.modeOf != .shadow

/-- Egress is entered. -/
def State.enterEgress (s : State) : State :=
  if s.mode.egress || !s.mayEnterEgress then s
  else
    let s := ((s.landing true false).put Reg.SYS_MODE_TEST 0).clearForces
    let setsRun := !s.on Reg.SEQ_CTRL_RUN
    let s := if setsRun then s.setRun else s
    let s := { s with mode := { s.mode with egress := true, egressSetRun := setsRun, quiet := false } }
    s.commitBit

/-- A flight slot holds a checked flight. -/
def State.slotValid (s : State) (i : Nat) : Bool := if h : i < 3 then (s.seq.slots[i]).isSome else false

/-- Egress is left: COMMIT is set, and a RUN that entry set is cleared where nothing may run. -/
def State.leaveEgress (s : State) : State :=
  let set := s.mode.egressSetRun
  let s := s.landing true false
  let s := { s with mode := { s.mode with egress := false, egressSetRun := false, quiet := false, egressEnd := some s.now } }
  let s := s.commitBit
  if set && (s.on Reg.SYS_MODE_MAINT || s.on Reg.SYS_MODE_PROVISION || !s.slotValid (s.actv Reg.SYS_FLIGHT_CTRL_SLOT)) then s.clearRun else s

/-- The exit judged at a sluice: a whole lock cycle without a request. -/
def State.egressAtSluice (s : State) : State :=
  if !s.mode.egress then s
  else if s.on Reg.SAF_EGRESS_REQUESTED then { s with mode := { s.mode with quiet := false } }
  else if s.mode.quiet then s.leaveEgress
  else { s with mode := { s.mode with quiet := true } }

/-! ## The service button (R398) -/

/-- The Egress condition held at some instant of the last `ms` milliseconds. -/
def State.egressWithin (s : State) (ms : Nat) : Bool :=
  s.mode.egress || (match s.mode.egressEnd with
    | some t => decide (s.now < t + ms * 1000000)
    | none => false)

/-- What a press of a duration does at its release: 0 nothing, 1 a reset, 2 Maintenance. -/
def State.pressAction (s : State) (ms : Nat) : Nat :=
  if s.egressWithin ms ∨ s.now < s.mode.bootEnd + ms * 1000000 then 0
  else if ms < 50 then 0
  else if ms < 5000 then 1
  else if ms < 10000 then (if s.modeOf = .safeDark ∨ s.modeOf = .provision then 0 else 2)
  else 0

/-- The release of a press. Once a press has reached 10 s the button is ignored, but that its own duration is reported when it ends. -/
def State.servicePress (s : State) (ms : Nat) : State :=
  if s.mode.phase ≠ .running then s
  else if s.on Reg.SYS_SERVICE_STUCK then
    if s.on Reg.SYS_SERVICE_PRESSED then (s.put Reg.SYS_SERVICE_PRESSED 0).put Reg.SYS_SERVICE_LAST_MS (min 65535 ms) else s
  else
    let a := s.pressAction ms
    let s := ((s.put Reg.SYS_SERVICE_PRESSED 0).put Reg.SYS_SERVICE_LAST_MS (min 65535 ms)).put Reg.SYS_SERVICE_LAST_ACTION a
    match a with
    | 1 => s.warmReset 3 none
    | 2 => s.setMaint
    | _ => s

/-- A press reaches 10 s. One during which Egress held is ignored. -/
def State.serviceStuck (s : State) : State :=
  if s.mode.phase ≠ .running ∨ s.on Reg.SYS_SERVICE_STUCK ∨ s.egressWithin 10000 then s
  else
    let s := (s.put Reg.SYS_SERVICE_STUCK 1).flag Reg.SYS_MODE_EVENT_SERVICE
    (s.put Reg.SYS_SERVICE_PRESSED 1).put Reg.SYS_SERVICE_LAST_ACTION 3

/-- After a stuck press the button has read high for 1 s. -/
def State.serviceClear (s : State) : State := (s.put Reg.SYS_SERVICE_STUCK 0).put Reg.SYS_SERVICE_PRESSED 0

end Sys2Proof.Machine
end

