-- ==== Sys2Proof/Machine/Calib.lean ====
section
/-!
DEFINITION. Calibration (R223-R230): the queue and its triggers, measurement slots, aborts, and the new column gains.
-/
namespace Sys2Proof.Machine

/-! ## The queue (R226) -/

/-- Reaches are queued in ascending order; one that is queued or running is not queued again. -/
def State.calQueue (s : State) (reaches : List Nat) : State :=
  reaches.foldl (fun s r =>
    if s.cal.queue.contains r || s.calReach = some r then s
    else State.putBit { s with cal := { s.cal with queue := s.cal.queue ++ [r] } } Reg.CAL_STATUS_QUEUED r true) s

/-- The reaches of a 16-bit mask. -/
def maskReaches (m : Nat) : List Nat := (List.range 16).filter (fun r => m.testBit r)

/-- The start-up trigger: once, when every reach that is not fenced has swapped. -/
def State.calStartup (s : State) : State :=
  if !s.cal.startup && all16.all (fun r => s.fenced r || (s.reachAt r).shown) then
    State.calQueue { s with cal := { s.cal with startup := true } } (List.range 16)
  else s

/-- The mean temperature of a reach at the last update. -/
def State.reachMean (s : State) (r : Nat) : Int := toSigned 16 (s.rd (Reg.THM_REACH_MEAN_MEAN r))

/-- The reach has been calibrated, and the holdoff since its last run has passed: with no completed run T_REF is no temperature, and with no run
nothing to hold off from (R226; DEDUCED). -/
def State.heldOff (s : State) (r : Nat) : Bool :=
  match s.cal.ended.find? (fun e => e.1 = r) with
  | some e => s.on (Reg.CAL_REACH_VALID r) && decide (e.2 + s.rd Reg.CAL_CFG_HOLDOFF_S * 1000000000 ≤ s.now)
  | none => false

/-- The temperature trigger, tested at a model update. -/
def State.calTemperature (s : State) : State :=
  if !s.on Reg.CAL_CTRL_AUTO then s
  else s.calQueue ((all16.filter (fun (r : ReachId) =>
    !s.fenced r && s.heldOff r &&
    decide (s.rd Reg.CAL_CFG_DELTA < (s.reachMean r - toSigned 16 (s.rd (Reg.CAL_REACH_T_REF r))).natAbs))).map Fin.val)

/-! ## Runs (R227-R230) -/

/-- A run starts at a sluice in Run, Degraded or Shadow with none in progress. A reach fenced at the start aborts (cause 5), effective at the
next sluice. -/
def State.calStart (s : State) : State :=
  let may : Bool := match s.modeOf with
    | .run | .degraded | .shadow => true
    | _ => false
  match s.cal.run, s.cal.queue with
  | none, r :: rest =>
    if !may then s
    else
      let cause := if s.bitOf Reg.DRV_REACH_STATE_FENCED r then some 5 else none
      let run : CalRun := { reach := r, start := s.seq.sluices, slots := 0, refs := [], c16 := [], c56 := [], abort := cause, mean := s.reachMean r }
      let s := { s with cal := { s.cal with queue := rest, run := some run } }
      let s := ((s.putBit Reg.CAL_STATUS_QUEUED r false).put Reg.CAL_STATUS_RUNNING 1).put Reg.CAL_STATUS_REACH r
      s.putBit Reg.DRV_STALE_STALE r true
  | _, _ => s

/-- The first cause of an abort stands. -/
def State.calAbort (s : State) (cause : Nat) : State :=
  { s with cal := { s.cal with run := s.cal.run.map (fun x => if x.abort.isSome then x else { x with abort := some cause }) } }

/-- C_ref of a reference slot. -/
def cRefOf (m : SlotMeas) : Nat := m.ref - m.zeros

/-- CAL_VREF and CAL_IREF take a reference slot. -/
def State.calReference (s : State) (m : SlotMeas) : State :=
  let s := (s.put Reg.CAL_VREF_VREF m.vref).put Reg.CAL_VREF_REACH m.reach
  (s.put Reg.CAL_IREF_C_REF (cRefOf m)).put Reg.CAL_IREF_REACH m.reach

/-- Why a reference slot aborts the run (causes 1 to 3), with the C_ref of the run's first one. -/
def refCause (m : SlotMeas) (first : Option Nat) : Option Nat :=
  if m.vref < 11500 ∨ 12500 < m.vref then some 1
  else
    let apart : Bool := match first with
      | some a => decide (max a (cRefOf m) < 5000 * (max a (cRefOf m) - min a (cRefOf m)))
      | none => false
    if apart then some 2
    else if (cRefOf m) < 125440 ∨ 130560 < (cRefOf m) then some 3
    else none

/-- 32 counts. -/
def counts32 (cs : List Nat) : List Nat := (List.range 32).map (fun i => (cs[i]?).getD 0)

/-- The next measurement slot of the run: a reference slot first and last, sink slots between (R228); VLED outside its window aborts. -/
def State.calMeasure (s : State) (m : SlotMeas) (vledOut : Bool) : State :=
  match s.cal.run with
  | none => s
  | some x =>
    if x.reach ≠ m.reach.val ∨ x.abort.isSome ∨ 66 ≤ x.slots then s
    else if vledOut then s.calAbort 4
    else if x.slots = 0 ∨ x.slots = 65 then
      let s := s.calReference m
      let s := { s with cal := { s.cal with run := some { x with slots := x.slots + 1, refs := x.refs ++ [(cRefOf m)] } } }
      match refCause m x.refs.head? with
      | some c => s.calAbort c
      | none => s
    else
      { s with cal := { s.cal with run := some { x with slots := x.slots + 1, c16 := x.c16 ++ counts32 m.c16, c56 := x.c56 ++ counts32 m.c56 } } }

/-- When a reach's last run ended. -/
def Calib.noteEnd (c : Calib) (r now : Nat) : Calib := { c with run := none, ended := (r, now) :: c.ended.filter (fun e => e.1 ≠ r) }

/-- The run ends aborted. -/
def State.calEndAborted (s : State) (x : CalRun) (cause : Nat) : State :=
  let s := { s with cal := s.cal.noteEnd x.reach s.now }
  let s := ((s.put Reg.CAL_STATUS_RUNNING 0).put Reg.CAL_STATUS_LAST_CAUSE cause).inc Reg.CAL_ABORTS_COUNT
  (s.flag Reg.CAL_EVENT_ABORT).raise 143 (some x.reach)

/-- A sluice judges the run before the banks: an abort ends it; at sluice C + 2 it stops calibrating, and is answered where it completed. -/
def State.calJudge (s : State) : State × Option CalRun :=
  match s.cal.run with
  | none => (s, none)
  | some x =>
    let cause := if x.abort.isNone && s.bitOf Reg.FLT_FENCE_REACH x.reach then some 5 else x.abort
    match cause with
    | some c => (s.calEndAborted x c, none)
    | none =>
      if s.seq.sluices < x.start + 2 then (s, none)
      else if x.slots < 66 then (s.calEndAborted x 7, none)
      else (State.put { s with cal := s.cal.noteEnd x.reach s.now } Reg.CAL_STATUS_RUNNING 0, some x)

/-- The counts of 40 codes of sink n; its gain and step (R229). -/
def CalRun.d (x : CalRun) (n : Nat) : Nat := ((x.c56[n]?).getD 0 + 2 ^ 32 - (x.c16[n]?).getD 0 % 2 ^ 32) % 2 ^ 32
def CalRun.cRef (x : CalRun) : Nat := (x.refs.foldl (· + ·) 0) / 2
def CalRun.gain (x : CalRun) (n : Nat) : Nat := (650240 * x.cRef + 500 * x.d n) / (1000 * x.d n)
def CalRun.step (x : CalRun) (n : Nat) : Nat := (40000 * x.d n + x.cRef / 2) / x.cRef
def CalRun.outlier (x : CalRun) (n : Nat) : Bool := x.d n = 0 || x.gain n < 1536 || 2560 < x.gain n

/-- The new column gain of a sink goes into the trim store. -/
def State.setColumnGain (s : State) (reach n g : Nat) : State :=
  let a := 0x600000 + (reach * 2048 + n) * 2
  let s := { s with trim := { s.trim with failed := s.trim.failed.filter (· ≠ a / 8) } }
  (s.tsSet a (g % 256)).tsSet (a + 1) (g / 256)

/-- What an installed run reports: its median step, its outliers, and the reach's reference temperature. -/
def State.calReport (s : State) (x : CalRun) (good total : Nat) : State :=
  let s :=
    if good = 0 then State.put s.draw Reg.CAL_RESULT_STEP_NA (Config.freeBits 16 s.fresh)
    else s.put Reg.CAL_RESULT_STEP_NA ((2 * total + good) / (2 * good))
  let s := (s.put Reg.CAL_RESULT_OUTLIERS (2048 - good)).put Reg.CAL_STATUS_LAST_CAUSE 0
  let s := (s.put (Reg.CAL_REACH_T_REF x.reach) (ofSigned 16 x.mean)).put (Reg.CAL_REACH_VALID x.reach) 1
  (s.incMod (Reg.CAL_REACH_RUNS x.reach)).inc Reg.CAL_COUNT_COUNT

/-- A completed run is installed, R29 order 7. With no sink to average, STEP_NA is a free value. -/
def State.calInstall (s : State) (x : CalRun) : State :=
  let good := (List.range 2048).filter (fun n => !x.outlier n)
  let s := good.foldl (fun s n => s.setColumnGain x.reach n (x.gain n)) s
  let s := s.calReport x good.length (good.foldl (fun a n => a + x.step n) 0)
  let s := { s with cal := { s.cal with lastTime := s.seq.sluiceTime } }
  s.flag Reg.CAL_EVENT_DONE

/-- A reach reset aborts the reach's run (R230 cause 6). -/
def State.calReset (s : State) (reaches : Nat) : State :=
  match s.calReach with
  | some r => if reaches.testBit r then s.calAbort 6 else s
  | none => s

end Sys2Proof.Machine
end

