-- ==== Sys2Proof/Machine/Drive.lean ====
section
/-!
DEFINITION. Scan-out (R193-R222): row slots, comparator checks, test pulses, suspects, verdicts and the defect list, fences, the local and
the pair map, and the painter port.
-/
namespace Sys2Proof.Machine

/-! ## Sub-emitters and fences (R208-R210) -/

/-- The column of a sub-emitter within the device: reach × 2,048 + sink. -/
def colOf (e : Nat) : Nat := e / 131072 * 2048 + e % 2048

/-- The reach and row of a sub-emitter, as reach × 64 + row. -/
def rowOf (e : Nat) : Nat := e / 2048

/-- Columns fenced provisionally: those of the short suspects, row events apart, from the row slot after the one of the flag (R205). -/
def State.provisional (s : State) : List Nat :=
  (s.diag.suspects.filter (fun q => q.kind = 2 && !q.rowEvent && !(s.diag.slot.any (fun x => x.flagged.contains q.key)))).map
    (fun q => colOf q.key)

/-- Columns fenced: provisionally, by the defect list, or with the list full. -/
def State.columnFences (s : State) : List Nat :=
  s.provisional ++ (s.diag.defects.filter (fun d => d.fence = 2)).map (fun d => colOf d.key) ++ s.diag.extraCols

/-- Sub-emitters fenced singly. -/
def State.emitterFences (s : State) : List Nat := (s.diag.defects.filter (fun d => d.fence = 1)).map Defect.key

/-- A sub-emitter is fenced as an emitter or by its column. -/
def State.subFenced (s : State) (e : Nat) : Bool := s.emitterFences.contains e || s.columnFences.contains (colOf e)

/-- A sub-emitter is a suspect or in the defect list. -/
def State.listed (s : State) (e : Nat) : Bool := s.diag.suspects.any (fun q => q.key = e) || s.diag.defects.any (fun d => d.key = e)

/-- VLED drive is enabled: not cut by a trip, by EXTEST or in Safe-Dark (R240, R362, R390). -/
def State.vledDrive (s : State) : Bool := s.running && !s.on Reg.THM_STATUS_TRIP && !s.sec.extest && s.modeOf != .safeDark

/-- A reach runs pulses and checks: VLED drive, no reach fence, not dark under a reach reset (R210). -/
def State.reachChecks (s : State) (r : ReachId) : Bool := s.vledDrive && !s.fenced r && !s.resetDark r

def State.setDiag (s : State) (d : Diag) : State := { s with diag := d }

/-! ## Suspects and verdicts (R205-R209) -/

/-- DIAG_SUSPECTS follows the list. -/
def State.setSuspects (s : State) (q : List Suspect) : State :=
  State.put (s.setDiag { s.diag with suspects := q }) Reg.DIAG_SUSPECTS_COUNT q.length

/-- A flagged sub-emitter becomes a suspect, in the tick of the flag. -/
def State.suspect (s : State) (e kind : Nat) (rowEvent : Bool) : State :=
  s.setSuspects (s.diag.suspects ++ [{ key := e, kind := kind, seen := s.sysTime, lc := s.seq.sluices, rowEvent := rowEvent }])

/-- The flapping table takes a transient; the answer says whether it makes a flapping defect (R207). -/
def State.noteFlap (s : State) (e : Nat) : State × Bool :=
  let lc := s.seq.sluices
  match s.diag.flaps.find? (fun f => f.key = e) with
  | some f =>
    let f' : Flap :=
      if s.rd Reg.DIAG_CFG_FLAP_WINDOW < lc - f.first then { key := e, first := lc, count := 1, last := lc }
      else { f with count := f.count + 1, last := lc }
    (s.setDiag { s.diag with flaps := s.diag.flaps.map (fun g => if g.key = e then f' else g) },
     decide (s.rd Reg.DIAG_CFG_FLAP_LIMIT ≤ f'.count))
  | none =>
    let new : Flap := { key := e, first := lc, count := 1, last := lc }
    let fs := s.diag.flaps
    if fs.length < 16 then (s.setDiag { s.diag with flaps := fs ++ [new] }, false)
    else
      let oldest := (fs.map Flap.last).foldl min lc
      let i := fs.findIdx (fun f => f.last = oldest)
      (s.setDiag { s.diag with flaps := fs.take i ++ [new] ++ fs.drop (i + 1) }, false)

/-- A lasting defect (R209): 1 open, 2 short, 3 and 4 their flapping forms. -/
def State.defect (s : State) (q : Suspect) (kind : Nat) : State :=
  let s := s.setSuspects (s.diag.suspects.filter (fun p => p.key ≠ q.key))
  let fence := if kind = 1 ∨ kind = 3 then 1 else 2
  let s :=
    if s.diag.defects.length < 8192 then
      let d : Defect := { key := q.key, kind := kind, fence := fence, seen := q.seen, sluice := s.seq.sluices % 2 ^ 32 }
      s.setDiag { s.diag with defects := s.diag.defects ++ [d] }
    else State.condition (s.setDiag { s.diag with extraCols := insertSet (colOf q.key) s.diag.extraCols }) 138 true
  (s.inc Reg.DIAG_LASTING_COUNT_COUNT).flag Reg.DIAG_EVENT_LASTING

/-- A passed retest: a transient, or the one too many that makes a flapping defect (R206, R207). The answer says whether it was lasting. -/
def State.passRetest (s : State) (q : Suspect) : State × Bool :=
  let (s, flapping) := s.noteFlap q.key
  if flapping then (s.defect q (q.kind + 2), true)
  else
    let s := s.setSuspects (s.diag.suspects.filter (fun p => p.key ≠ q.key))
    ((s.inc Reg.DIAG_TRANSIENT_COUNT_COUNT).flag Reg.DIAG_EVENT_TRANSIENT, false)

/-- The verdicts of the suspects a slot retests: FS137 once for the reach. The answer says whether one passed. -/
def State.verdicts (s : State) (r : ReachId) (due : List Suspect) (flagged : List Nat) : State × Bool :=
  let (s, passed, lasting) := due.foldl (fun (t : State × Bool × Bool) q =>
    if flagged.contains q.key then (t.1.defect q q.kind, t.2.1, true)
    else
      let (u, l) := t.1.passRetest q
      (u, t.2.1 || !l, t.2.2 || l)) (s, false, false)
  (if lasting then s.raise 137 (some r.val) else s, passed)

/-! ## Row slots (R19, R194, R199, R202-R204) -/

/-- Suspects of a row that the present slack scan retests: those flagged in an earlier lock cycle (R206). -/
def State.dueIn (s : State) (r : ReachId) (row kind : Nat) : List Suspect :=
  s.diag.suspects.filter (fun q => q.kind = kind && rowOf q.key = r.val * 64 + row && decide (q.lc < s.seq.sluices))

/-- The row still needs its pulse of the present proof sweep (R21, R204). -/
def State.unswept (s : State) (r : ReachId) (row : Nat) : Bool := !(s.diag.swept.contains (r.val * 64 + row))

/-- The row that the routine pulses of this lock cycle test. -/
def State.testRow (s : State) : Nat := s.seq.sluices % 64

/-- The slot is one of the slack scan in which the reach drives a pulse or makes a retest. -/
def State.slotPulsed (s : State) (r : ReachId) (row : Nat) : Bool :=
  s.unswept r row || row = s.testRow || !(s.dueIn r row 1).isEmpty || !(s.dueIn r row 2).isEmpty

/-- A sub-emitter is kept out in its reach's front bank (R184). -/
def State.keptOut (s : State) (r : ReachId) (row sink : Nat) : Bool :=
  let b := (s.reachAt r).front
  let x := sink / 2
  b.ko && (match b.plane with
    | some p => (s.ts (ceilBase p + (r.val * 64 + row) * 128 + x / 8)).testBit (x % 8)
    | none => false)

/-- The sink is driven by the pulse of this slack-scan slot: the sweep drives all that is not fenced, the routine pulse also leaves out what
is suppressed, and a retest drives its suspects. -/
def State.pulsesSink (s : State) (r : ReachId) (row sink : Nat) : Bool :=
  let e := emitter r row sink
  if (s.dueIn r row 1).any (fun q => q.key = e) then true
  else if s.subFenced e then false
  else if s.unswept r row then true
  else row = s.testRow && !(s.actv Reg.DIAG_CTRL_KO_SUPPRESS = 1 && s.keptOut r row sink)

/-- What a routine pulse leaves out under KO_SUPPRESS becomes unverified (R203). -/
def State.noteSuppressed (s : State) (r : ReachId) (row : Nat) : State :=
  if s.actv Reg.DIAG_CTRL_KO_SUPPRESS = 1 ∧ row = s.testRow ∧ !s.unswept r row then
    let out := ((List.range 2048).filter (fun n => s.keptOut r row n && !s.subFenced (emitter r row n) &&
      !((s.dueIn r row 1).any (fun q => q.key = emitter r row n)))).map (emitter r row)
    s.setDiag { s.diag with unverified := out.foldl (fun u e => insertSet e u) s.diag.unverified }
  else s

/-- VLED in a slot lies outside DRV_VLED_WINDOW. -/
def State.vledOutside (s : State) (mv : Nat) : Bool :=
  decide (mv < s.rd Reg.DRV_VLED_WINDOW_MIN_MV) || decide (s.rd Reg.DRV_VLED_WINDOW_MAX_MV < mv)

/-- A slack-scan slot of reach r that carries neither pulse nor retest serves the calibration run, or the watch (R225, R228). -/
def State.measureSlot (s : State) (r : ReachId) (m : SlotMeas) (out : Bool) : State :=
  if s.calReach = some r.val then s.calMeasure m out
  else if s.diag.sweeping || s.diag.watched.contains r.val then s
  else State.calReference (s.setDiag { s.diag with watched := insertSet r s.diag.watched }) m

/-- The slack scan after a run's second sluice has ended: a run that did not find its 66 slots aborts (R230 cause 7). -/
def State.calSlots (s : State) : State :=
  match s.cal.run with
  | some x => if x.start < s.seq.sluices ∧ x.slots < 66 then s.calAbort 7 else s
  | none => s

/-- VLED in the row slot that begins: the highest of the lock cycle, and the mean of its display scans (R185, R190). -/
def State.noteVled (s : State) (vled : Nat) : State :=
  let shown := decide (64 < s.diag.slots)
  s.setDiag { s.diag with
    vled := max s.diag.vled vled
    vledSum := if shown then s.diag.vledSum + vled else s.diag.vledSum
    vledN := if shown then s.diag.vledN + 1 else s.diag.vledN }

/-- The next row slot of the lock cycle begins. `vled` is VLED in mV; `meas` what the sense path of each reach reads if the slot is a measurement
slot there. -/
def State.rowSlot (s : State) (vled : Nat) (meas : List SlotMeas) : State :=
  let n := s.diag.slots
  if !s.cycling || decide ((s.S + 1) * 64 ≤ n) then s
  else
    let scan := n / 64
    let row := n % 64
    let s := (s.setDiag { s.diag with slots := n + 1, slot := none }).noteVled vled
    let s := if n = 64 then s.calSlots else s
    if !s.vledDrive then s
    else
      let out := s.vledOutside vled
      let pulsed := if scan = 0 then all16.filter (fun r => s.reachChecks r && s.slotPulsed r row) else []
      let slot : RowSlot := { scan := scan, row := row, suspended := out, tripped := [], pulsed := pulsed.map Fin.val, flagged := [], judged := [],
                              rowEvents := [] }
      let s := s.setDiag { s.diag with slot := some slot }
      let s := if out && !s.diag.vledRaised then State.raise (s.setDiag { s.diag with vledRaised := true }) 141 else s
      if scan ≠ 0 then s
      else
        let s := if out then s else pulsed.foldl (fun s r => s.noteSuppressed r row) s
        all16.foldl (fun s r => match meas.find? (fun m => m.reach = r) with
          | some m => if s.reachChecks r && !(pulsed.contains r) then s.measureSlot r m out else s
          | none => s) s

/-- The slot in progress in which a reach's comparators check: not suspended, no trip. -/
def State.checkSlot (s : State) (r : ReachId) : Option RowSlot :=
  s.diag.slot.filter (fun x => s.reachChecks r && !x.suspended && !(x.tripped.contains r.val))

/-- The sub-emitters of a reach that flags name, in the row of a slot. -/
def flagKeys (flags : List SinkFlag) (r : ReachId) (row : Nat) : List Nat :=
  (flags.filter (fun f => f.reach = r)).map (fun f => emitter r row f.sink)

/-! ## Row events (R200) -/

/-- A row event of a check (1 open, 2 short): the flags of the slot are discarded, those of the other check with them, and every sub-emitter of
the row becomes a suspect without a provisional fence; where the retest of a row event is one again, the reach is fenced from the next
sluice. A lasting verdict that the slot's short check gave is withdrawn from the defect list (DEDUCED: its COUNT and FS137, once told, stand). -/
def State.rowEvent (s : State) (r : ReachId) (x : RowSlot) (kind : Nat) : State :=
  let again := x.scan = 0 && (s.dueIn r x.row kind).any Suspect.rowEvent
  let s := s.setDiag { s.diag with
    defects := s.diag.defects.filter (fun d => !(x.judged.contains d.key && rowOf d.key == r.val * 64 + x.row))
    slot := s.diag.slot.map (fun y => { y with rowEvents := insertSet r y.rowEvents }) }
  let s := (s.inc Reg.DIAG_ROW_EVENTS_COUNT).flag Reg.DIAG_EVENT_ROW_EVENT
  let s :=
    if again then s.putBit Reg.FLT_FENCE_REACH r true
    else
      let s := s.setSuspects (s.diag.suspects.map (fun q =>
        if x.flagged.contains q.key && rowOf q.key = r.val * 64 + x.row then { q with kind := kind, rowEvent := true } else q))
      ((List.range 2048).map (emitter r x.row)).foldl (fun s e => if s.listed e then s else s.suspect e kind true) s
  s.raise 139 (some r.val)

/-- A check's flags in one reach: a row event, or verdicts on the suspects due and new suspects (R200, R205, R206). The answer says whether it
was a row event, and whether a retest passed. -/
def State.checkReach (s : State) (r : ReachId) (x : RowSlot) (kind : Nat) (flagged : List Nat) : State × Bool × Bool :=
  let due := if x.scan = 0 then s.dueIn r x.row kind else []
  let counting := flagged.filter (fun e => due.any (fun q => q.key = e) || !s.listed e)
  if s.rd Reg.DIAG_CFG_ROW_EVENT_LIMIT ≤ counting.length then (s.rowEvent r x kind, true, false)
  else
    let fresh := flagged.filter (fun e => !s.listed e)
    let failed := (due.map Suspect.key).filter flagged.contains
    let (s, passed) := s.verdicts r due flagged
    let s := fresh.foldl (fun s e => s.suspect e kind false) s
    let slot := s.diag.slot.map (fun y => { y with flagged := y.flagged ++ fresh, judged := y.judged ++ failed })
    (s.setDiag { s.diag with slot := slot }, false, passed)

/-! ## Comparator checks (R197, R198) -/

/-- A check of every reach whose comparators check in the slot in progress; FS136 once, whatever passes its retest in that tick (R249). -/
def State.checkAll (s : State) (check : State → ReachId → RowSlot → State × Bool) : State :=
  let (s, passed) := all16.foldl (fun (t : State × Bool) r => match t.1.checkSlot r with
    | some x =>
      let (u, p) := check t.1 r x
      (u, t.2 || p)
    | none => t) (s, false)
  if passed then s.raise 136 else s

/-- The short check of every reach at slot tick 28. -/
def State.shortCheck (s : State) (flags : List SinkFlag) : State :=
  s.checkAll (fun s r x =>
    let (t, _, passed) := s.checkReach r x 2 (flagKeys flags r x.row)
    (t, passed))

/-- The on-time of a sink in a display row slot, p' of R188; fences give 0 (R210). -/
def State.onTime (s : State) (r : ReachId) (row sink : Nat) : Nat :=
  if s.subFenced (emitter r row sink) then 0
  else wordP (Sparse.get (s.reachAt r).front.words 0#16 (row * 2048 + sink)).toNat * s.rd Reg.WEIR_STATE_FACTOR / 1024

/-- The sinks whose open comparators sample: those pulsed in the slack scan; in a display scan of a reach that lights, those with an
on-time of at least 192 ticks. -/
def State.openSinks (s : State) (r : ReachId) (x : RowSlot) : List Nat :=
  if x.scan = 0 then (if x.pulsed.contains r.val then (List.range 2048).filter (fun n => s.pulsesSink r x.row n) else [])
  else if s.trim.lit.contains r.val then (List.range 2048).filter (fun n => decide (192 ≤ s.onTime r x.row n))
  else []

/-- The sweep is done once every row of the reaches that are not fenced has carried its pulse since chip reset (R204). -/
def State.noteSweepDone (s : State) : State :=
  if !s.on Reg.DIAG_STATUS_SWEEP_DONE && all16.all (fun q => s.fenced q || (List.range 64).all (fun w => s.diag.proven.contains (q.val * 64 + w))) then
    (s.put Reg.DIAG_STATUS_SWEEP_DONE 1).flag Reg.DIAG_EVENT_SWEEP
  else s

/-- The proof sweep of a row has been pulsed. In the sweep after chip reset, what it left out stays unproven, suspects apart (R204). -/
def State.noteSwept (s : State) (r : ReachId) (row : Nat) (driven : List Nat) : State :=
  let key := r.val * 64 + row
  let out := if s.diag.proven.contains key then []
    else (((List.range 2048).filter (fun n => !(driven.contains n))).map (emitter r row)).filter (fun e => !s.listed e)
  State.noteSweepDone (s.setDiag { s.diag with
    swept := insertSet key s.diag.swept, proven := insertSet key s.diag.proven, left := out.foldl (fun u e => insertSet e u) s.diag.left })

/-- The open check of one reach. A pass ends the unverified state, and proves what the sweep left out (R203, R204). After a row event of the
slot's short check its flags count for nothing (R200). The answer says whether a retest passed. -/
def State.openReach (s : State) (r : ReachId) (x : RowSlot) (flags : List SinkFlag) : State × Bool :=
  let driven := s.openSinks r x
  let keys := driven.map (emitter r x.row)
  let flagged := (flagKeys flags r x.row).filter keys.contains
  let sweep := x.scan = 0 && x.pulsed.contains r.val && s.unswept r x.row
  let (s, event, retest) := if x.rowEvents.contains r.val then (s, true, false) else s.checkReach r x 1 flagged
  let passed := if event then [] else keys.filter (fun e => !(flagged.contains e))
  let s := s.setDiag { s.diag with
    unverified := s.diag.unverified.filter (fun e => !(passed.contains e)), left := s.diag.left.filter (fun e => !(passed.contains e)) }
  (if sweep then s.noteSwept r x.row driven else s, retest)

/-- The open check of every reach at the end of slot tick 223. -/
def State.openCheck (s : State) (flags : List SinkFlag) : State := s.checkAll (fun s r x => s.openReach r x flags)

/-- A row switch trips (R201): it opens, and the reach's sinks turn off, for the rest of the slot. -/
def State.rowOvercurrent (s : State) (r : ReachId) : State :=
  match s.diag.slot with
  | none => s
  | some x =>
    if !s.reachChecks r || x.tripped.contains r.val then s
    else
      let s := s.setDiag { s.diag with slot := some { x with tripped := insertSet r x.tripped } }
      let s := ((s.flag Reg.DRV_OC_LAST_VALID).put Reg.DRV_OC_LAST_REACH r).put Reg.DRV_OC_LAST_ROW x.row
      (s.inc Reg.DRV_OC_COUNT_COUNT).raise 140 (some r.val)

/-! ## The local map and the pair map (R213, R214) -/

/-- The word of a map that holds a sub-emitter, and its bit. -/
def mapWord (e : Nat) : Nat := e / 32
def mapBit (e : Nat) : W32 := BitVec.ofNat 32 (2 ^ (e % 32))

/-- A word of the local map in a row that is proven and not dark: its sub-emitters that are suspect, listed, fenced, unverified or
unproven. -/
def State.localWord (s : State) (w : Nat) : W32 :=
  let bad (e : Nat) : Bool := s.listed e || s.subFenced e || s.diag.unverified.contains e || s.diag.left.contains e
  (List.range 32).foldl (fun acc i => if bad (32 * w + i) then acc ||| mapBit i else acc) 0#32

/-- The local map: rows that are unproven, in fenced reaches or dark under a reach reset are marked throughout. -/
def State.makeLocalMap (s : State) : HealthMap :=
  all16.foldr (fun r acc =>
    if s.fenced r || s.resetDark r then acc
    else
      ((List.range 64).filter (fun row => s.diag.proven.contains (r.val * 64 + row))).foldr (fun row acc =>
        (List.range 64).foldr (fun i acc =>
          let w := (r.val * 64 + row) * 64 + i
          let v := s.localWord w
          if v = 0xFFFFFFFF#32 then acc else (w, v) :: acc) acc) acc) []

/-- The number of ones of a word. -/
def popCount (v : W32) : Nat := ((List.range 32).filter (fun i => v.getLsbD i)).length

/-- The marked sub-emitters of a map. -/
def markedIn (m : HealthMap) : Nat := 2097152 - m.foldl (fun n c => n + (32 - popCount c.2)) 0

/-- The OR of two maps: a word that either marks throughout is not listed. -/
def orMaps (a b : HealthMap) : HealthMap :=
  a.filterMap (fun c =>
    let v := c.2 ||| Sparse.get b 0xFFFFFFFF#32 c.1
    if v = 0xFFFFFFFF#32 then none else some (c.1, v))

/-- The local map is taken at the start of a sluice. -/
def State.takeLocalMap (s : State) : State :=
  let m := s.makeLocalMap
  State.put (s.setDiag { s.diag with localMap := m }) Reg.DIAG_MARKED_COUNT (markedIn m)

/-- The fences that the trim stage uses in the lock cycle that opens (R211). -/
def State.latchFences (s : State) : State :=
  { s with trim := { s.trim with fencedEm := s.emitterFences, fencedCol := s.columnFences } }

/-- The diagnostics of a lock cycle begin: its row slots, its tested row, its VLED samples; the first one after STOPPED carries a proof sweep
(R21). While the sequencer is stopped nothing is sampled, so the first sluice finds 0 mV. -/
def State.openDiag (s : State) (first : Bool) : State :=
  let s := s.setDiag { s.diag with slot := none, slots := 0, vled := 0, vledSum := 0, vledN := 0, vledRaised := false, watched := [],
                                   sweeping := first, swept := if first then [] else s.diag.swept }
  s.put Reg.DIAG_STATUS_TEST_ROW (s.seq.sluices % 64)

/-! ## The painter port (R216-R219) -/

/-- The line has been low for the reset gap and no stream runs. -/
def State.painterIdle (s : State) : Bool := s.pnt.stream.isEmpty && decide (s.pnt.lowSince + 100000 ≤ s.now)

/-- The port is held released: joined outputs while dual-active is detected. -/
def State.painterJoined (s : State) : Bool := s.on Reg.PNT_CTRL_PAIR_JOINED && s.on Reg.PEER_STATUS_DUAL

/-- Bytes of a satellite, and of a whole stream. -/
def State.satBytes (s : State) : Nat := if s.actv Reg.PNT_CFG_WIDTH32 = 1 then 4 else 3
def State.streamBytes (s : State) : Nat := s.actv Reg.PNT_CFG_COUNT * s.satBytes

/-- FS142. -/
def State.painterFault (s : State) : State := (s.flag Reg.PNT_EVENT_BERTH).raise 142

/-- A stream begins. -/
def State.sendStream (s : State) (bytes : List Byte) (zero : Bool) : State :=
  if bytes.isEmpty then s
  else State.put { s with pnt := { s.pnt with stream := bytes, zeroing := zero } } Reg.PNT_STATUS_BUSY 1

/-- The stream of the LIVE berth, cut to whole satellites where its extent is short (R217). -/
def State.painterStream (s : State) : State :=
  let live := (s.liveFor (s.actv Reg.PNT_CFG_HOME)).filter (fun b => s.rd (Reg.BAS_BERTH_FMT_FORMAT b) = 6)
  match live with
  | none => s.painterFault
  | some b =>
    let fits := s.berthSize b / s.satBytes * s.satBytes
    let n := min s.streamBytes fits
    let zero := s.modeOf = .egress && s.on Reg.PNT_CTRL_EGRESS_ZERO
    let bytes := if zero then List.replicate n 0#8 else s.bas.bytes (s.berthBase b) n
    let s := if n < s.streamBytes then (s.flag Reg.PNT_STATUS_SHORT).painterFault else s
    s.sendStream bytes false

/-- 16 µs after a sluice (R218). -/
def State.painterStart (s : State) : State :=
  if s.actv Reg.PNT_CTRL_EN = 0 || !s.lights || s.painterJoined then s
  else if !s.painterIdle then (s.inc Reg.PNT_STATUS_SKIPPED).flag Reg.PNT_EVENT_SKIPPED
  else s.painterStream

/-- The last bit of a stream has been sent. -/
def State.painterEnd (s : State) : State :=
  if s.pnt.stream.isEmpty then s
  else
    let s := { s with pnt := { s.pnt with stream := [], zeroing := false, lowSince := s.now } }
    ((s.put Reg.PNT_STATUS_BUSY 0).inc Reg.PNT_SENT_COUNT).flag Reg.PNT_EVENT_SENT

/-- The zero stream that follows the light (R219). -/
def State.painterZero (s : State) : State :=
  if s.pnt.zeroDue && !s.lights && s.painterIdle && !s.painterJoined then
    State.sendStream { s with pnt := { s.pnt with zeroDue := false } } (List.replicate s.streamBytes 0#8) true
  else s

/-- PAINTER_DOUT is driven. -/
def State.painterDriving (s : State) : Bool :=
  s.mode.phase = .running && !s.painterJoined && (s.lights || s.pnt.zeroDue || s.pnt.zeroing)

end Sys2Proof.Machine
end

