-- ==== Sys2Proof/Machine/Glyph.lean ====
section
/-!
DEFINITION. Symbols and layers (R151-R169): the library checks and load, the glyph transform, the stager's two sets, the warp-mesh scan,
and the CMP_LAYER report.
-/
namespace Sys2Proof.Machine

/-! ## The symbol library (R151-R153) -/

/-- Layout check 1. -/
def libLayoutOk (img : Blob) : Bool :=
  let ds := img.le 0x10 4
  let size := img.le 0x0C 4
  img.bytes 0 4 = [0x47#8, 0x4C#8, 0x42#8, 0x31#8] && img.le 4 2 = 1 && img.le 6 2 = 0 && ds ≤ 1212416 && ds % 4 = 0 &&
  size = 0x8040 + ds + 128 && size ≤ img.len && img.zeros 0x14 0x40 && img.zeros (size - 32) size

/-- Directory check 3, of entry g. -/
def libEntryOk (img : Blob) (g : Nat) : Bool :=
  let e := 0x40 + 8 * g
  let n := img.le (e + 4) 1
  let off := img.le e 4
  n ≤ 64 && img.zeros (e + 5) (e + 8) && (n = 0 || (off % 4 = 0 && off + 12 * n ≤ img.le 0x10 4))

/-- The reason of R152: 0 where every check passes. -/
def State.libCheck (s : State) (img : Blob) : Nat :=
  if !libLayoutOk img then 1
  else if !s.imageSigned img (img.le 0x0C 4) then 2
  else if !(List.range 4096).all (libEntryOk img) then 3
  else 0

/-- A cache directory entry: the OFFSET is rebased (R153). -/
def cacheEntry (img : Blob) (g : Nat) : List Byte := leBytes (img.le (0x40 + 8 * g) 4 + 0x8000) 4 ++ img.bytes (0x44 + 8 * g) 4

/-- The library takes its place in the glyph cache (R152, R153). -/
def State.libInstall (s : State) (img : Blob) : State :=
  let ds := img.le 0x10 4
  let s := s.basFill 0x1C00000 32768 (cellsFrom 0 ((List.range 4096).flatMap (cacheEntry img)))
  let s := s.basFill 0x1C08000 ds (img.cells.slice 0x8040 ds)
  let glyphs := ((List.range 4096).filter (fun g => img.le (0x44 + 8 * g) 1 ≠ 0)).length
  let s := ((s.put Reg.GLY_LIB_ID_LIB_ID (img.le 8 4)).put Reg.GLY_LIB_STATUS_LOADED 1).put Reg.GLY_LIB_STATUS_GLYPHS glyphs
  let s := s.put Reg.GLY_LIB_STATUS_KIB_USED (ceilDiv ds 1024)
  { s with sec := { s.sec with digests := s.sec.digests.set 3 (Config.sha256 (img.bytes 0 (img.le 0x0C 4 - 128))) } }

/-- What a library that fails its checks raises: FS119, and FS015 where it names a key that is held but may not sign it (R152, R341). -/
def State.libFails (s : State) (img : Blob) (r : Nat) : State :=
  let s := s.raise 119
  if r = 2 ∧ s.keyMisused img (img.le 0x0C 4) then s.raise 15 else s

/-- A library load: its reason is reported, and a failed check raises FS119 (R152). -/
def State.libLoad (s : State) (img : Blob) : State × Nat :=
  let r := s.libCheck img
  let s := (s.put Reg.GLY_LIB_STATUS_REASON r).flag Reg.GLY_EVENT_LIB_DONE
  if r = 0 then (s.libInstall img, 0)
  else (s.libFails img r, r)

/-! ## The glyph transform (R155) -/

/-- round(65,536 cos(2πk/1,024)) for k from 0 to 256. -/
def cosTab0 : List Nat :=
  [65536, 65535, 65531, 65525, 65516, 65505, 65492, 65476, 65457, 65436, 65413, 65387, 65358, 65328, 65294, 65259, 65220,
   65180, 65137, 65091, 65043, 64993, 64940, 64884, 64827, 64766, 64704, 64639, 64571, 64501, 64429, 64354, 64277, 64197,
   64115, 64031, 63944, 63854, 63763, 63668, 63572, 63473, 63372, 63268, 63162, 63054, 62943, 62830, 62714, 62596, 62476,
   62353]
/-- The table goes on. -/
def cosTab1 : List Nat :=
  [62228, 62101, 61971, 61839, 61705, 61568, 61429, 61288, 61145, 60999, 60851, 60700, 60547, 60392, 60235, 60075, 59914,
   59750, 59583, 59415, 59244, 59071, 58896, 58718, 58538, 58356, 58172, 57986, 57798, 57607, 57414, 57219, 57022, 56823,
   56621, 56418, 56212, 56004, 55794, 55582, 55368, 55152, 54934, 54714, 54491, 54267, 54040, 53812, 53581, 53349, 53114,
   52878]
/-- The table goes on. -/
def cosTab2 : List Nat :=
  [52639, 52398, 52156, 51911, 51665, 51417, 51166, 50914, 50660, 50404, 50146, 49886, 49624, 49361, 49095, 48828, 48559,
   48288, 48015, 47741, 47464, 47186, 46906, 46624, 46341, 46056, 45769, 45480, 45190, 44898, 44604, 44308, 44011, 43713,
   43412, 43110, 42806, 42501, 42194, 41886, 41576, 41264, 40951, 40636, 40320, 40002, 39683, 39362, 39040, 38716, 38391,
   38064]
/-- The table goes on. -/
def cosTab3 : List Nat :=
  [37736, 37407, 37076, 36744, 36410, 36075, 35738, 35401, 35062, 34721, 34380, 34037, 33692, 33347, 33000, 32652, 32303,
   31952, 31600, 31248, 30893, 30538, 30182, 29824, 29466, 29106, 28745, 28383, 28020, 27656, 27291, 26925, 26558, 26190,
   25821, 25451, 25080, 24708, 24335, 23961, 23586, 23210, 22834, 22457, 22078, 21699, 21320, 20939, 20557, 20175, 19792,
   19409]
/-- The table goes on. -/
def cosTab4 : List Nat :=
  [19024, 18639, 18253, 17867, 17479, 17091, 16703, 16314, 15924, 15534, 15143, 14751, 14359, 13966, 13573, 13180, 12785,
   12391, 11996, 11600, 11204, 10808, 10411, 10014, 9616, 9218, 8820, 8421, 8022, 7623, 7224, 6824, 6424, 6023, 5623,
   5222, 4821, 4420, 4019, 3617, 3216, 2814, 2412, 2010, 1608, 1206, 804, 402, 0]

def cosTab : List Nat := cosTab0 ++ cosTab1 ++ cosTab2 ++ cosTab3 ++ cosTab4

/-- cs of R155. -/
def cosTurn (a : Nat) : Int :=
  let a := a % 1024
  let q (k : Nat) : Int := ((cosTab.drop k).headD 0 : Nat)
  if a ≤ 256 then q a
  else if a ≤ 512 then -(q (512 - a))
  else if a ≤ 768 then -(q (a - 512))
  else q (1024 - a)

/-- sn of R155. -/
def sinTurn (a : Nat) : Int := cosTurn (a + 768)

/-- The coefficients of a staged header. -/
structure Affine where
  a : Int
  b : Int
  c : Int
  d : Int
  tx : Int
  ty : Int
deriving DecidableEq, Repr

/-- ma to ty for a rotation, a scale and a position (R155). -/
def affineOf (rot fine scale x y : Nat) : Affine :=
  let a := ofSigned 10 ((rot * 256 : Nat) + toSigned 8 fine)
  let k : Int := scale
  let ma := Int.ediv (k * cosTurn a + 128) 256
  { a := ma, b := Int.ediv (-k * sinTurn a + 128) 256, c := Int.ediv (k * sinTurn a + 128) 256, d := ma,
    tx := toSigned 20 x * 16, ty := toSigned 20 y * 16 }

/-- A glyph point in 1/256 pixel. -/
def Affine.point (m : Affine) (gx gy : Int) : Int × Int :=
  (Int.ediv (m.a * gx + m.b * gy + 32768) 65536 + m.tx, Int.ediv (m.c * gx + m.d * gy + 32768) 65536 + m.ty)

/-! ## Staging (R154, R156-R158) -/

/-- One entry of a glyph list (R154). -/
structure GlyEntry where
  en : Bool
  verified : Bool
  altEn : Bool
  id : Nat
  altId : Nat
  x : Nat
  y : Nat
  altX : Nat
  altY : Nat
  rot : Nat
  fine : Nat
  scale : Nat
  mix : List Byte
deriving DecidableEq, Repr

/-- The entry in 32 bytes. -/
def GlyEntry.ofBytes (bs : List Byte) : GlyEntry :=
  let g := leAt bs 0 2
  { en := g.testBit 15, verified := g.testBit 14, altEn := g.testBit 13, id := g % 4096, altId := leAt bs 2 2 % 4096,
    x := leAt bs 4 4 % 1048576, y := leAt bs 8 4 % 1048576, altX := leAt bs 12 4 % 1048576, altY := leAt bs 16 4 % 1048576,
    rot := leAt bs 20 1 % 4, fine := leAt bs 21 1, scale := leAt bs 22 2, mix := (bs.drop 24).take 6 }

/-- The entry is drawn at all. -/
def GlyEntry.drawn (e : GlyEntry) : Bool := e.en && e.scale != 0

/-- What the glyph cache holds for a glyph id: its segment bytes, and whether a lasting error of this staging struck its directory entry or
its record (`struck` the 16 B units, as address / 16); the rest of a fenced line reads as zeros (R136). -/
def State.glyph (s : State) (struck : List Nat) (id : Nat) : List Byte × Bool :=
  if !s.on Reg.GLY_LIB_STATUS_LOADED then ([], false)
  else
    let dir := 0x1C00000 + 8 * id
    let n := leAt (s.bas.bytes (dir + 4) 1) 0 1
    let at_ := 0x1C00000 + leAt (s.bas.bytes dir 4) 0 4
    if struck.contains (dir / 16) then ([], true)
    else if n = 0 then ([], false)
    else if struck.any (fun u => at_ / 16 ≤ u && u ≤ (at_ + 12 * n - 1) / 16) then ([], true)
    else (s.bas.bytes at_ (12 * n), false)

/-- The transformed points of segment bytes. -/
def segPoints (m : Affine) (segs : List Byte) : List (Int × Int) :=
  (List.range (segs.length / 4)).map (fun i => m.point (toSigned 16 (leAt segs (4 * i) 2)) (toSigned 16 (leAt segs (4 * i + 2) 2)))

/-- The least (or greatest) of pixel coordinates, clamped to s16. -/
def boxEdge (least : Bool) (cs : List Int) : Int :=
  match cs with
  | [] => 0
  | c :: rest => clampInt (-32768) 32767 (Int.ediv (rest.foldl (fun a b => if least then min a b else max a b) c) 256)

/-- A header line and its segments, padded to 12 lines (R157); `flags` beside EN, VERIFIED, ABSENT and DAMAGED. -/
def headerBytes (e : GlyEntry) (m : Affine) (id : Nat) (segs : List Byte) (alt damaged : Bool) : List Byte :=
  let ps := segPoints m segs
  let flags := b2n e.en + 2 * b2n e.verified + 4 * b2n alt + 8 * b2n segs.isEmpty + 16 * b2n damaged
  let edge (least : Bool) (f : Int × Int → Int) : List Byte := leBytes (ofSigned 16 (boxEdge least (ps.map f))) 2
  [m.a, m.b, m.c, m.d, m.tx, m.ty].flatMap (fun z => leBytes (ofSigned 32 z) 4) ++ leBytes 0 4 ++
  leBytes (segs.length / 12) 1 ++ leBytes flags 1 ++ leBytes id 2 ++ e.mix ++
  edge true Prod.fst ++ edge true Prod.snd ++ edge false Prod.fst ++ edge false Prod.snd ++ List.replicate 18 0#8 ++
  segs ++ List.replicate (768 - segs.length) 0#8

/-- What staging one entry gives: its frame, and what it counts. -/
structure Staged where
  frame : List Byte
  primary : Bool
  alternate : Bool
  damaged : Nat
deriving DecidableEq, Repr

/-- Slot frame (R157, R158). -/
def State.stageEntry (s : State) (struck : List Nat) (e : GlyEntry) : Staged :=
  let (p, pd) := if e.drawn then s.glyph struck e.id else ([], false)
  let (q, qd) := if e.drawn && e.altEn then s.glyph struck e.altId else ([], false)
  { frame := headerBytes e (affineOf e.rot e.fine e.scale e.x e.y) e.id p false pd ++
      headerBytes e (affineOf e.rot e.fine e.scale e.altX e.altY) e.altId q true qd
    primary := !p.isEmpty, alternate := !q.isEmpty, damaged := b2n pd + b2n qd }

/-- The entries of a list at a basin address; zeros where there is no list (R156). -/
def State.glyList (s : State) (src : Option Nat) : List GlyEntry :=
  (List.range 256).map (fun j => GlyEntry.ofBytes (match src with
    | some a => s.bas.bytes (a + 32 * j) 32
    | none => List.replicate 32 0#8))

/-- Little-endian word i of a slot's render prologue; 0 where the flight has none (R166). -/
def State.prologue (s : State) (slot : Fin 3) (i : Nat) : Nat :=
  match s.seq.slots[slot] with
  | some f => if f.dataSize < 64 then 0 else leAt (s.bas.bytes (FSlotBase slot + f.dataOff + 4 * i) 4) 0 4
  | none => 0

/-- The basin address of a structure of n bytes that the prologue names; none where the offset counts as none (R166). -/
def State.prologueAt (s : State) (slot : Fin 3) (i n : Nat) : Option Nat :=
  match s.seq.slots[slot] with
  | some f =>
    let off := s.prologue slot i
    if off = 0 ∨ off % 64 ≠ 0 ∨ f.dataSize < off + n then none else some (FSlotBase slot + f.dataOff + off)
  | none => none

/-- The list of the running set: the berth LIVE for the home of the first GLY layer (R156). -/
def State.runningList (s : State) : Option Nat :=
  match s.seq.run with
  | none => none
  | some fl => (fl.layers.find? (fun l => l.format = 5)).bind (fun l => (s.layerBerth l).map (fun b => s.berthBase b))

/-- The list of the egress set for a scene; none in the safe scene (R297). -/
def State.egressList (s : State) (scene : Nat) : Option Nat := if scene = 0 then none else s.prologueAt 2 1 8192

/-- The basin ranges that staging from a list reads: the list, and the directory entries and records of its drawn glyphs. -/
def State.stageReads (s : State) (src : Option Nat) : List (Nat × Nat) :=
  match src with
  | none => []
  | some a =>
    let ids := (s.glyList src).flatMap (fun e => if e.drawn then e.id :: (if e.altEn then [e.altId] else []) else [])
    (a, 8192) :: (if s.on Reg.GLY_LIB_STATUS_LOADED then ids.flatMap (fun id =>
      let dir := 0x1C00000 + 8 * id
      [(dir, 8), (0x1C00000 + leAt (s.bas.bytes dir 4) 0 4, 12 * leAt (s.bas.bytes (dir + 4) 1) 0 1)]) else [])

/-- One set at its space-2 offset; the counts of primaries, alternates and damaged headers. -/
def State.stageSet (s : State) (struck : List Nat) (src : Option Nat) (offset : Nat) : State × Nat × Nat × Nat :=
  let es := (s.glyList src).map (s.stageEntry struck)
  let cells := (List.range 256).flatMap (fun j => cellsFrom (j * 1664) (((es.drop j).head?.map Staged.frame).getD []))
  (s.basFill (0x1C00000 + offset) 425984 cells, (es.filter Staged.primary).length, (es.filter Staged.alternate).length,
    es.foldl (fun n e => n + e.damaged) 0)

/-- The stager (R156), for a scene: `errs` are the 16 B units (address / 16) whose reads meet an error, with its outcome; only units it reads count. -/
def State.stage (s : State) (scene : Nat) (errs : List (Nat × Ecc)) : State :=
  let run := s.runningList
  let egr := s.egressList scene
  let reads := s.stageReads run ++ s.stageReads egr
  let met := errs.filter (fun e => reads.any (fun r => r.1 / 16 ≤ e.1 && e.1 * 16 < r.1 + r.2) && !(s.bas.fenced.contains (e.1 / 32)))
  let struck := (met.filter (fun e => e.2 = .lasting)).map Prod.fst
  let s := met.foldl (fun s e => s.eccOutcome e.2 none (e.1 % 32) (e.1 / 32)) s
  let (s, p1, a1, d1) := s.stageSet struck run 0x130000
  let (s, p2, a2, d2) := s.stageSet struck egr 0x198000
  let s := (s.put Reg.GLY_STAGE_RUN_SOURCE_VALID (b2n run.isSome)).put Reg.GLY_STAGE_RUN_DAMAGED (min 511 d1)
  let s := (s.put Reg.GLY_STAGE_RUN_ALTERNATES a1).put Reg.GLY_STAGE_RUN_PRIMARIES p1
  let s := (s.put Reg.GLY_STAGE_EGRESS_SOURCE_VALID (b2n egr.isSome)).put Reg.GLY_STAGE_EGRESS_DAMAGED (min 511 d2)
  let s := ((s.put Reg.GLY_STAGE_EGRESS_ALTERNATES a2).put Reg.GLY_STAGE_EGRESS_PRIMARIES p2).flag Reg.GLY_EVENT_STAGED
  if 0 < d1 + d2 then (s.flag Reg.GLY_EVENT_DAMAGED).raise 118 else s

/-! ## The mesh scan (R166-R168) -/

/-- Control point (i, j) of a mesh, in 1/256 texel; bits 31:24 of a coordinate repeat bit 23. -/
def meshPoint (bs : List Byte) (i j : Nat) : Int × Int :=
  (toSigned 24 (leAt bs ((33 * j + i) * 8) 4), toSigned 24 (leAt bs ((33 * j + i) * 8 + 4) 4))

/-- Twice the signed area of the quadrilateral of cell (i, j). -/
def cellArea2 (pt : Nat → Nat → Int × Int) (i j : Nat) : Int :=
  let cross (p q : Int × Int) : Int := p.1 * q.2 - q.1 * p.2
  let a := pt i j
  let b := pt (i + 1) j
  let c := pt (i + 1) (j + 1)
  let d := pt i (j + 1)
  cross a b + cross b c + cross c d + cross d a

/-- The pairs of numbers below n. -/
def pairsBelow (n : Nat) : List (Nat × Nat) := (List.range n).flatMap (fun j => (List.range n).map (fun i => (i, j)))

/-- The WRP_ report of a slot that has just become valid (R168). -/
def State.meshScan (s : State) (slot : Fin 3) : State :=
  let s := s.put (Reg.WRP_STATUS_OUT slot) (b2n (s.prologue slot 0 != 0 && (s.prologueAt slot 0 8712).isNone))
  match s.prologueAt slot 0 8712 with
  | none => s
  | some a =>
    let bs := s.bas.bytes a 8712
    let pts := (pairsBelow 33).map (fun p => meshPoint bs p.1 p.2)
    let texel (least : Bool) (f : Int × Int → Int) : Nat := ofSigned 16 (boxEdge least (pts.map f))
    let folds := ((pairsBelow 32).filter (fun p => cellArea2 (meshPoint bs) p.1 p.2 ≤ 0)).length
    let s := (s.put (Reg.WRP_STATUS_PRESENT slot) 1).put (Reg.WRP_STATUS_FOLDS slot) folds
    let s := (s.put (Reg.WRP_X_RANGE_MAX slot) (texel false Prod.fst)).put (Reg.WRP_X_RANGE_MIN slot) (texel true Prod.fst)
    (s.put (Reg.WRP_Y_RANGE_MAX slot) (texel false Prod.snd)).put (Reg.WRP_Y_RANGE_MIN slot) (texel true Prod.snd)

/-! ## CMP_LAYER (R169) -/

/-- The report of flight layer i, at a sluice. -/
def State.noteLayer (s : State) (i : Nat) : State :=
  match s.seq.run.bind (fun f => f.layers[i]?) with
  | none => [Reg.CMP_LAYER_DEFINED i, Reg.CMP_LAYER_LIVE i, Reg.CMP_LAYER_LIVE_BERTH i, Reg.CMP_LAYER_HOME i, Reg.CMP_LAYER_AGE i].foldl
      (fun s f => s.put f 0) s
  | some l =>
    let live := s.layerBerth l
    let age := min 65535 (s.seq.sluices - Sparse.get s.liveSince 0 l.berth)
    let s := (s.put (Reg.CMP_LAYER_DEFINED i) 1).put (Reg.CMP_LAYER_HOME i) l.berth
    ((s.put (Reg.CMP_LAYER_LIVE i) (b2n live.isSome)).put (Reg.CMP_LAYER_LIVE_BERTH i) ((live.map Fin.val).getD 0)).put
      (Reg.CMP_LAYER_AGE i) age

def State.noteLayers (s : State) : State := (List.range 16).foldl State.noteLayer s

/-- The berth LIVE for a home has changed: its age restarts (R169). -/
def State.liveChanged (s : State) (home : Nat) : State := { s with liveSince := Sparse.set s.liveSince 0 home s.seq.sluices }

/-- What GLY_LIB_ reports of a library that state transfer has brought (R152, R169, R333). DESIGN CHOICE: it is loaded if a directory entry
has N ≥ 1; its LIB_ID and the size of its segment data, which XCTL does not carry, are free values. -/
def State.libCopied (s : State) : State :=
  let glyphs := ((List.range 4096).filter (fun g => leAt (s.bas.bytes (0x1C00004 + 8 * g) 1) 0 1 ≠ 0)).length
  let free (w i : Nat) : Nat := if glyphs = 0 then 0 else Config.freeBits w (s.fresh + i)
  let t := ((s.draw.draw.put Reg.GLY_LIB_STATUS_LOADED (b2n (glyphs != 0))).put Reg.GLY_LIB_STATUS_GLYPHS glyphs)
  (t.put Reg.GLY_LIB_ID_LIB_ID (free 32 0)).put Reg.GLY_LIB_STATUS_KIB_USED (free 11 1 % 1185)

end Sys2Proof.Machine
end

