-- ==== Sys2Proof/Machine/FlightLoad.lean ====
section
/-!
DEFINITION. Flight images (R107-R113, R118-R120): the image's tables, the legality of bundles as the load sees them, the walk of a lock
(R119), the row runs of its barges (R114, R115), and the load checks in their order.
-/
namespace Sys2Proof.Machine

/-! ## Legality of a word, by slot (R41, R66-R97) -/

/-- Every field of a word is 0 but the minor field. -/
def Fields.bare (f : Sys2Proof.Fields) : Bool := f.d = 0#5 && f.a = 0#5 && f.b = 0#5 && f.pred = 0#3

/-- A word is a legal Elvoth-V instruction of the scalar slot, wherever it stands; a LOOP body of 0 is illegal. -/
def scalarLegal (w : Nat) : Bool :=
  let f := fieldsOf w
  let m := f.minor.toNat
  match w / 2 ^ 26 with
  | 0x00 => (scalarAlu 16 m 0 0).isSome
  | 0x0A => f.a = 0#5
  | 0x28 | 0x29 | 0x2A | 0x2B => f.b = 0#5
  | 0x2C => Fields.bare f
  | 0x2D | 0x2E => f.d = 0#5 && f.a = 0#5 && f.pred = 0#3
  | 0x2F => if m < 2 then Fields.bare f else m = 2 && f.a = 0#5 && f.b.toNat < 4
  | k => if 60 ≤ k then w / 65536 % 4096 != 0 else 1 ≤ k && k ≤ 9

/-- A word is a legal Elvoth-V instruction of the vector slot. -/
def vectorLegal (w : Nat) : Bool :=
  let f := fieldsOf w
  let m := f.minor.toNat
  let op := m % 64
  match w / 2 ^ 26 with
  | 0x00 => w = 0
  | 0x30 =>
    if op = 0x0A then f.b = 0#5
    else if op = 0x0B then f.pred = 0#3
    else if op = 0x0D then f.b.toNat % 2 = 0
    else if op = 0x0E then f.d.toNat % 2 = 0
    else if 0x18 ≤ op ∧ op ≤ 0x1A then f.d.toNat < 8 && f.a.toNat < 8 && f.b.toNat < 8
    else if (vecLane op 0 0 0 0 0).isSome then vecReservedOk op f
    else (vecCmp op 0 0 0).isSome && f.d.toNat < 8
  | 0x31 => op = 0 || ((op = 1 || op = 2) && f.d.toNat < 4) || (op = 3 && f.a.toNat < 4)
  | 0x32 => m / 16 % 4 = 0
  | 0x33 => m < 4
  | 0x34 => m < 7
  | 0x35 => m < 4
  | 0x36 => f.d.toNat < 8 && m < 3
  | 0x37 => f.d = 0#5 && m = 0 && f.pred = 0#3
  | _ => false

/-! ## The walk of a lock (R53, R54, R80, R119) -/

/-- Where a walk stands. `delay` counts the bundles up to a transfer's target; `sites` the control transfers and LOOPs met, `bodies` the loop
bodies; `issues` each BARGE.ISSUE with its cycle, latest first; `put` the cycle of the last REQ.PUT; `halt` that of the HALT. -/
structure Walk where
  pc : Nat
  loops : List LoopEntry
  calls : List Nat
  delay : Option (Nat × Nat)
  sites : List Nat
  bodies : List (Nat × Nat)
  issues : List (Nat × Nat)
  put : Option Nat
  halt : Option Nat
deriving DecidableEq, Repr

def Walk.begin (entry : Nat) : Walk :=
  { pc := entry, loops := [], calls := [], delay := none, sites := [], bodies := [], issues := [], put := none, halt := none }

/-- A control instruction stands here: illegal in another's delay bundles (R54). -/
def Walk.site (w : Walk) : Option Walk := if w.delay.isSome then none else some { w with sites := insertSet w.pc w.sites }

/-- The scalar slot's part in the walk; none where it is illegal. -/
def Walk.scalar (w : Walk) (bargeN cyc word : Nat) : Option Walk :=
  let f := fieldsOf word
  match word / 2 ^ 26 with
  | 0x2C => if f.minor.toNat < bargeN then some { w with issues := (f.minor.toNat, cyc) :: w.issues } else none
  | 0x2D => w.site.map (fun w => { w with delay := some (3, f.target) })
  | 0x2E => if w.calls.length ≥ 4 then none
    else w.site.map (fun w => { w with delay := some (3, f.target), calls := (w.pc + 3) :: w.calls })
  | 0x2F =>
    if f.minor = 0#8 then
      match w.calls with
      | [] => none
      | t :: ts => w.site.map (fun w => { w with delay := some (3, t), calls := ts })
    else if f.minor = 1#8 then some { w with halt := some cyc }
    else some w
  | k =>
    if 60 ≤ k then
      let l : LoopEntry := { start := w.pc + 1, stop := w.pc + word / 65536 % 4096, remaining := if word % 65536 = 0 then 65536 else word % 65536 }
      let within : Bool := match w.loops with
        | [] => true
        | e :: _ => l.stop ≤ e.stop
      if within && w.loops.length < 3 then
        w.site.map (fun w => { w with loops := l :: w.loops
                                      bodies := if w.bodies.contains (l.start, l.stop) then w.bodies else (l.start, l.stop) :: w.bodies })
      else none
    else some w

/-- The bundle after this one. -/
def Walk.next (w : Walk) : Walk :=
  let (loops, pc) := nextBundle w.loops w.pc
  match w.delay with
  | some (n, t) => if n = 1 then { w with loops := loops, pc := t, delay := none } else { w with loops := loops, pc := pc, delay := some (n - 1, t) }
  | none => { w with loops := loops, pc := pc }

/-- One bundle of the walk; none where the bundle may not stand there. -/
def Walk.step (prog : Array Nat) (bargeN cyc : Nat) (w : Walk) : Option Walk :=
  match prog[w.pc]? with
  | none => none
  | some b =>
    let lo := b % 2 ^ 32
    let hi := b / 2 ^ 32
    if !scalarLegal lo || !vectorLegal hi then none
    else
      let w := if hi / 2 ^ 26 = 0x37 then { w with put := some cyc } else w
      w.scalar bargeN cyc lo

/-- The walk up to HALT, or through the lock's last cycle: `left` cycles from lock-relative cycle `cyc`. -/
def Walk.run (prog : Array Nat) (bargeN : Nat) : Nat → Nat → Walk → Option Walk
  | 0, _, w => some w
  | left + 1, cyc, w =>
    match w.step prog bargeN cyc with
    | none => none
    | some v => if v.halt.isSome then some v else Walk.run prog bargeN left (cyc + 1) v.next

/-- No control instruction met stands in the last three bundles of a loop body met (R54). -/
def Walk.placed (w : Walk) : Bool := w.sites.all (fun i => w.bodies.all (fun b => !(b.1 ≤ i && i ≤ b.2 && b.2 < i + 3)))

/-! ## Row runs (R111, R114, R115) -/

/-- A row run: phase and first to last data cycle. -/
structure Run where
  phase : Nat
  first : Nat
  last : Nat
deriving DecidableEq, Repr

/-- The row runs of repetition k of an entry, by chamber ch, in a lock that starts at ls; `base` is the base of its space modulo 512. -/
def BargeEntry.runs (e : BargeEntry) (base ls ch k : Nat) : List Run :=
  let src : Int := (base : Int) + (e.src : Int) + (ch : Int) * e.cstride + (k : Int) * e.repSrcStep
  (List.range e.rows).map (fun r =>
    let first := e.rowFirst (ls + e.issue + k * e.repCycles) ch r
    { phase := (Int.emod (Int.ediv (src + (r * e.srcPitch : Nat)) 16 - first) 32).toNat, first := first, last := first + e.rowBeats - 1 })

/-- Order by phase, then by first, then by last. -/
def Run.le (a b : Run) : Bool :=
  a.phase < b.phase || (a.phase = b.phase && (a.first < b.first || (a.first = b.first && a.last ≤ b.last)))

def insertRun (r : Run) : List Run → List Run
  | [] => [r]
  | q :: qs => if r.le q then r :: q :: qs else q :: insertRun r qs

/-- Runs of one phase that abut become one, in a sorted list. DESIGN CHOICE: of equal or overlapping runs, which R111 does not treat, each is
merged only with its neighbour in the list. -/
def mergeRuns : List Run → List Run
  | [] => []
  | r :: rs =>
    match mergeRuns rs with
    | q :: qs => if r.phase = q.phase ∧ r.last + 1 = q.first then { r with last := q.last } :: qs else r :: q :: qs
    | [] => [r]

def Run.collides (a b : Run) : Bool := a.phase = b.phase && a.first ≤ b.last && b.first ≤ a.last

/-- No two runs of a list collide. -/
def noCollision : List Run → Bool
  | [] => true
  | r :: rs => !(rs.any r.collides) && noCollision rs

/-! ## The tables of an image (R107-R112) -/

def parseProg (img : Blob) (dir c : Nat) : Prog := { offset := img.le (dir + 8 * c) 4, bundles := img.le (dir + 8 * c + 4) 2 }

def parseLock (img : Blob) (o : Nat) : LockEntry :=
  { start := img.le o 4, length := img.le (o + 4) 4, mask := img.le (o + 8) 2, entry := img.le (o + 10) 2, bargeFirst := img.le (o + 12) 4,
    bargeN := img.le (o + 16) 2, claimFirst := img.le (o + 20) 4, claimN := img.le (o + 24) 4 }

/-- 0 encodes 256. -/
def or256 (n : Nat) : Nat := if n = 0 then 256 else n

def parseBarge (img : Blob) (o : Nat) : BargeEntry :=
  { issue := img.le o 4, src := img.le (o + 4) 4, cstride := toSigned 32 (img.le (o + 8) 4), srcPitch := img.le (o + 12) 2,
    dstPitch := img.le (o + 14) 2, dst := img.le (o + 16) 4, rowBeats := or256 (img.le (o + 20) 1), rows := or256 (img.le (o + 21) 1),
    skew := img.le (o + 22) 2, reps := img.le (o + 24) 2, space := img.le (o + 26) 1, berth := img.le (o + 27) 1,
    repCycles := img.le (o + 28) 4, repSrcStep := toSigned 32 (img.le (o + 32) 4), repDstStep := toSigned 32 (img.le (o + 36) 4) }

def parseClaim (img : Blob) (o : Nat) : Claim := { phase := img.le o 1, first := img.le (o + 4) 4, last := img.le (o + 8) 4 }

def parseLayer (img : Blob) (o : Nat) : Layer := { berth := img.le o 1, format := img.le (o + 1) 1, res := img.le (o + 2) 1 }

/-- The header's counts and offsets. -/
def hdrLocks (img : Blob) : Nat := img.le 0x10 2
def hdrLayers (img : Blob) : Nat := img.le 0x12 1
def hdrDir (img : Blob) : Nat := img.le 0x14 4
def hdrLockTab (img : Blob) : Nat := img.le 0x18 4
def hdrBargeTab (img : Blob) : Nat := img.le 0x1C 4
def hdrBarges (img : Blob) : Nat := img.le 0x20 4
def hdrClaimTab (img : Blob) : Nat := img.le 0x24 4
def hdrClaims (img : Blob) : Nat := img.le 0x28 4
def hdrLayerTab (img : Blob) : Nat := img.le 0x2C 4
def hdrDataOff (img : Blob) : Nat := img.le 0x30 4
def hdrDataSize (img : Blob) : Nat := img.le 0x34 4

/-- n entries of a table. -/
def tableOf {α : Type} (n base size : Nat) (parse : Nat → α) : List α := (List.range n).map (fun i => parse (base + size * i))

/-- The flight that an image states. -/
def parseFlight (img : Blob) : Flight :=
  { egress := img.le 7 1 % 2 = 1, fMin := img.le 8 1, fMax := img.le 9 1, sReq := img.le 10 1, id := img.le 0x38 4, imageSize := img.le 0x0C 4
    progs := (List.range 16).map (parseProg img (hdrDir img))
    locks := tableOf (hdrLocks img) (hdrLockTab img) 32 (parseLock img)
    barges := tableOf (hdrBarges img) (hdrBargeTab img) 40 (parseBarge img)
    claims := tableOf (hdrClaims img) (hdrClaimTab img) 12 (parseClaim img)
    layers := tableOf (hdrLayers img) (hdrLayerTab img) 8 (parseLayer img)
    dataOff := hdrDataOff img, dataSize := hdrDataSize img }

/-! ## The checks (R118) -/

/-- The sections that cover bytes: offset and size; a program named twice counts once (R107, R108). -/
def sections (img : Blob) : List (Nat × Nat) :=
  let progs := ((List.range 16).map (fun c => (img.le (hdrDir img + 8 * c) 4, 8 * img.le (hdrDir img + 8 * c + 4) 2))).eraseDups
  ([(hdrDir img, 128), (hdrLockTab img, 32 * hdrLocks img), (hdrBargeTab img, 40 * hdrBarges img), (hdrClaimTab img, 12 * hdrClaims img),
    (hdrLayerTab img, 8 * hdrLayers img), (hdrDataOff img, hdrDataSize img)] ++ progs).filter (fun p => p.2 ≠ 0)

/-- No two sections of a list overlap. -/
def disjoint : List (Nat × Nat) → Bool
  | [] => true
  | p :: ps => ps.all (fun q => p.1 + p.2 ≤ q.1 || q.1 + q.2 ≤ p.1) && disjoint ps

/-- Check 0x01 (R107, R113); img.len is the delivered length. -/
def layoutOk (img : Blob) : Bool :=
  let size := img.le 0x0C 4
  let secs := sections img
  img.bytes 0 4 = [0x46#8, 0x4C#8, 0x54#8, 0x31#8] && img.le 4 2 = 1 && size % 64 = 0 && size ≤ 4194304 && size ≤ img.len && 256 ≤ size &&
  secs.all (fun p => p.1 % 64 = 0 && 128 ≤ p.1 && p.1 + p.2 ≤ size - 128) && disjoint secs &&
  img.cells.all (fun c => decide (c.1 < 128 ∨ size - 128 ≤ c.1) || secs.any (fun p => p.1 ≤ c.1 && c.1 < p.1 + p.2)) &&
  img.zeros (size - 32) size

/-- Check 0x04: S_REQ is legal for every F permitted (R22). -/
def ratesOk (f : Flight) : Bool :=
  48 ≤ f.fMin && f.fMin ≤ f.fMax && f.fMax ≤ 240 &&
  (f.sReq = 0 || (List.range (f.fMax + 1 - f.fMin)).all (fun i => sMin (f.fMin + i) ≤ f.sReq && f.sReq ≤ sMax (f.fMin + i)))

def ascending : List Nat → Bool
  | a :: b :: rest => a ≤ b && ascending (b :: rest)
  | _ => true

/-- A lock entry's own bounds (R109). -/
def lockOk (f : Flight) (l : LockEntry) : Bool :=
  1 ≤ l.length && l.mask ≠ 0 && l.entry ≤ 8191 && l.bargeN ≤ 256 && (l.bargeN = 0 || l.bargeFirst + l.bargeN ≤ f.barges.length) &&
  (l.claimN = 0 || l.claimFirst + l.claimN ≤ f.claims.length)

/-- A barge entry's own bounds (R110). -/
def bargeOk (e : BargeEntry) : Bool :=
  e.src % 16 = 0 && e.cstride % 16 = 0 && e.srcPitch % 16 = 0 && e.dstPitch % 16 = 0 && e.dst < 262144 && e.dst % 16 = 0 && e.skew ≤ 4095 &&
  1 ≤ e.reps && e.space ≤ 2 && (if e.space = 0 then e.berth ≤ 63 else e.berth = 0) && (e.reps = 1 || 1 ≤ e.repCycles) &&
  e.repSrcStep % 16 = 0 && e.repDstStep % 16 = 0

/-- The reserved fields of the header and the tables are 0. -/
def reservedOk (img : Blob) (f : Flight) : Bool :=
  img.le 7 1 / 2 = 0 && img.le 0x0B 1 = 0 && img.le 0x13 1 = 0 && img.zeros 0x60 0x80 &&
  (List.range 16).all (fun c => img.le (hdrDir img + 8 * c + 6) 2 = 0) &&
  (List.range f.locks.length).all (fun i => img.le (hdrLockTab img + 32 * i + 18) 2 = 0 && img.le (hdrLockTab img + 32 * i + 28) 4 = 0) &&
  (List.range f.claims.length).all (fun i => img.le (hdrClaimTab img + 12 * i + 1) 3 = 0) &&
  (List.range f.layers.length).all (fun i => img.le (hdrLayerTab img + 8 * i + 3) 5 = 0)

/-- Check 0x05. DESIGN CHOICE: a DATA_SIZE that is no multiple of 64 fails here; the spec does not say whether that, or the layout check 0x01,
reports it. -/
def boundsOk (img : Blob) (f : Flight) : Bool :=
  1 ≤ f.locks.length && f.locks.length ≤ 512 && f.layers.length ≤ 16 && f.barges.length ≤ 131072 && f.dataSize % 64 = 0 && reservedOk img f &&
  f.progs.all (fun p => p.bundles ≤ 8192) && f.locks.all (lockOk f) && ascending (f.locks.map LockEntry.start) && f.barges.all bargeOk &&
  f.claims.all (fun c => c.phase ≤ 31 && c.first ≤ c.last) && f.layers.all (fun l => l.berth ≤ 63 && l.format ≤ 5 && l.res ≤ 3) &&
  (f.layers.map Layer.berth).eraseDups.length = f.layers.length

/-- The chambers of a lock's mask. -/
def LockEntry.chambers (l : LockEntry) : List Nat := (List.range 16).filter (fun c => l.mask.testBit c)

/-- The bundles of chamber c's program. -/
def programOf (img : Blob) (f : Flight) (c : Nat) : Array Nat :=
  match f.progs[c]? with
  | some p => ((List.range p.bundles).map (fun i => img.le (p.offset + 8 * i) 8)).toArray
  | none => #[]

/-- Every lock with every chamber of its mask whose program is not empty, and the walk there (none where it meets an illegal bundle). -/
def walksOf (img : Blob) (f : Flight) : List (LockEntry × Nat × Option Walk) :=
  f.locks.flatMap (fun l => (l.chambers.filter (fun c => (programOf img f c).size ≠ 0)).map (fun c =>
    (l, c, (Walk.run (programOf img f c) l.bargeN l.length 0 (Walk.begin l.entry)).filter Walk.placed)))

/-- Check 0x07. -/
def locksApart (f : Flight) : List LockEntry → Bool
  | [] => true
  | l :: ls => ls.all (fun m => l.mask &&& m.mask = 0 || l.start + l.length ≤ m.start) &&
    l.chambers.all (fun c => (f.progs[c]?.map Prog.bundles).getD 0 ≠ 0) && locksApart f ls

/-- The barge list of a lock. -/
def Flight.bargeList (f : Flight) (l : LockEntry) : List BargeEntry := (f.barges.drop l.bargeFirst).take l.bargeN

/-- The issue cycles that an entry demands. -/
def BargeEntry.issueCycles (e : BargeEntry) : List Nat := (List.range e.reps).map (fun k => e.issue + k * e.repCycles)

/-- Check 0x09 for one walk. -/
def issuesOk (f : Flight) (l : LockEntry) (w : Walk) : Bool :=
  (List.range l.bargeN).all (fun n =>
    ((w.issues.reverse.filter (fun p => p.1 = n)).map Prod.snd) = ((f.barges[l.bargeFirst + n]?).map BargeEntry.issueCycles).getD [])

/-- The bytes that barges may read in the space of an entry (R110, R140). -/
def Flight.extent (f : Flight) (e : BargeEntry) : Option Nat :=
  match e.space with
  | 0 => (f.layers.find? (fun l => l.berth = e.berth)).map (fun l => layerSize l.format l.res 0)
  | 1 => some f.dataSize
  | _ => some 2097152

/-- Check 0x0A for an entry run by chamber ch: every repetition and row lies within its space. -/
def readsOk (f : Flight) (e : BargeEntry) (ch : Nat) : Bool :=
  match f.extent e with
  | none => false
  | some n => (List.range e.reps).all (fun k =>
      let src : Int := (e.src : Int) + (ch : Int) * e.cstride + (k : Int) * e.repSrcStep
      0 ≤ src && src + ((e.rows - 1) * e.srcPitch + 16 * e.rowBeats : Nat) ≤ n)

/-- A repetition's schedule cycles from issue to done (R116). -/
def flightsOf (f : Flight) (ch : Nat) : List (Nat × Nat) :=
  (f.locks.filter (fun l => l.mask.testBit ch)).flatMap (fun l => (f.bargeList l).flatMap (fun e =>
    e.issueCycles.map (fun i => (l.start + i, e.done (l.start + i) ch))))

/-- Check 0x0B for a chamber. -/
def inFlightOk (f : Flight) (ch : Nat) : Bool :=
  let fs := flightsOf f ch
  fs.all (fun p => (fs.filter (fun q => q.1 ≤ p.1 && p.1 ≤ q.2)).length ≤ 8)

/-- Check 0x0C: the fit of R104 at F_MAX. -/
def fitsOk (f : Flight) (ws : List (LockEntry × Nat × Option Walk)) : Bool :=
  let w := lockBudget f.fMax
  f.locks.all (fun l => 16000 ≤ l.start && l.start + l.length ≤ 16000 + w) &&
  (List.range 16).all (fun ch => (flightsOf f ch).all (fun p => p.2 < 16000 + w)) &&
  ws.all (fun x => match x.2.2.bind Walk.put with
    | some c => x.1.start + c + 1025 ≤ 16000 + w
    | none => true)

/-- The row runs of a lock. -/
def lockRuns (f : Flight) (l : LockEntry) : List Run :=
  l.chambers.flatMap (fun ch => (f.bargeList l).flatMap (fun e =>
    (List.range e.reps).flatMap (fun k => e.runs (if e.space = 1 then f.dataOff else 0) l.start ch k)))

/-- Check 0x0D for a lock. -/
def claimsOk (f : Flight) (l : LockEntry) : Bool :=
  (mergeRuns ((lockRuns f l).foldr insertRun [])).map (fun r => (r.phase, r.first, r.last)) =
    ((f.claims.drop l.claimFirst).take l.claimN).map (fun c => (c.phase, c.first, c.last))

/-- The checks from 0x06 on, of a flight whose tables are in order. DESIGN CHOICE: check 0x0A is made of the barges that a lock's list names; an
entry of the barge table that no list names reads nothing, and is not held to it. -/
def scheduleCheck (img : Blob) (f : Flight) (egressSlot : Bool) : Nat :=
  let ws := walksOf img f
  if ws.any (fun x => x.2.2.isNone) then 0x06
  else if !locksApart f f.locks then 0x07
  else if ws.any (fun x => x.2.2.bind Walk.halt != some (x.1.length - 1)) then 0x08
  else if ws.any (fun x => !((x.2.2.map (issuesOk f x.1)).getD false)) then 0x09
  else if f.locks.any (fun l => l.chambers.any (fun ch => (f.bargeList l).any (fun e => !readsOk f e ch))) then 0x0A
  else if (List.range 16).any (fun ch => !inFlightOk f ch) then 0x0B
  else if !fitsOk f ws then 0x0C
  else if f.locks.any (fun l => !claimsOk f l) then 0x0D
  else if !noCollision (f.locks.flatMap (lockRuns f)) then 0x0E
  else if (if egressSlot then f.egress && f.fMin = 48 && f.fMax = 240 && f.sReq = 0 else !f.egress) then 0
  else 0x0F

/-- The reason of R118: 0 where every check passes. -/
def State.flightCheck (s : State) (img : Blob) (egressSlot : Bool) : Nat :=
  let f := parseFlight img
  if !layoutOk img then 0x01
  else if !s.imageSigned img f.imageSize then 0x02
  else if img.le 6 1 ≠ 4 then 0x03
  else if !ratesOk f then 0x04
  else if !boundsOk img f then 0x05
  else scheduleCheck img f egressSlot

/-! ## The load (R118, R120, R168) -/

/-- The number of a slot in SYS_FLIGHT_STATUS. -/
def slotNum (slot : FSlot) : Fin 3 :=
  match slot with
  | .A => 0
  | .B => 1
  | .E => 2

/-- The running flight is the slot's (R120). -/
def State.slotRuns (s : State) (i : Fin 3) : Bool := s.seq.run.isSome && s.rd Reg.SYS_FLIGHT_STATUS_ACTIVE = i.val

/-- What a flight that fails its checks raises: FS108, and FS015 where it names a key that is held but may not sign it (R118, R341). -/
def State.flightFails (s : State) (img : Blob) (r : Nat) : State :=
  let s := s.raise 108
  if r = 2 ∧ s.keyMisused img (img.le 0x0C 4) then s.raise 15 else s

/-- A load into a slot: the image goes to the mooring, and what stands there is checked. Slot E valid while Egress is in force sets COMMIT
(R388). -/
def State.flightLoad (s : State) (i : Fin 3) (img : Blob) : State × Nat :=
  let s := s.invalidateSlot i
  let n := min (min img.len (img.le 0x0C 4)) 4194304
  let s := s.basFill (FSlotBase i) n (img.cells.slice 0 n)
  let got : Blob := { len := img.len, cells := (s.bas.blob (FSlotBase i) n).cells }
  let r := s.flightCheck got (i = 2)
  let s := (s.put Reg.SYS_FLIGHT_STATUS_REASON r).put Reg.SYS_FLIGHT_STATUS_CHECKED_SLOT i
  if r = 0 then
    let f := parseFlight got
    let s := { s with
      seq := { s.seq with slots := s.seq.slots.set i (some f) }
      sec := { s.sec with digests := s.sec.digests.set i.castSucc (Config.sha256 (got.bytes 0 (f.imageSize - 128))) } }
    let s : State := s.meshScan i
    (if i = 2 ∧ s.mode.egress = true then s.setCommit else s, 0)
  else (s.flightFails got r, r)

end Sys2Proof.Machine
end

