-- ==== Sys2Proof/Machine/Link.lean ====
section
/-!
DEFINITION. The links' state machine (R264-R274, R284-R288): bring-up, lane training, LOCK, the exchange of capabilities, lane loss
and return, recovery and fresh bring-up.
-/
namespace Sys2Proof.Machine

/-! ## Lane registers and widths -/

/-- LNK_LANE.RETURNING and VIOLATIONS of a lane. -/
def laneReturning (l : LinkId) (n : Nat) : Fld :=
  match l with
  | .host => Reg.LNK_LANE_RETURNING n
  | .peer => Reg.LNK_PEER_LANE_RETURNING n

def laneViolations (l : LinkId) (n : Nat) : Fld :=
  match l with
  | .host => Reg.LNK_LANE_VIOLATIONS n
  | .peer => Reg.LNK_PEER_LANE_VIOLATIONS n

/-- The lanes of a link. -/
def linkLanes (l : LinkId) : List (Fin 4) :=
  match l with
  | .host => [0, 1, 2, 3]
  | .peer => [0, 1]

/-- The lowest-numbered lane of a mask, as a mask. -/
def lowestLane (m : Nat) : Nat := ([1, 2, 4, 8].find? (fun b => m &&& b != 0)).getD 0

/-- The width of the usable lanes (R274); 0 where no lane is usable. -/
def chooseWidth (l : LinkId) (usable : Nat) : Nat :=
  if usable &&& l.full = l.full then l.full
  else if l = .host ∧ usable &&& 3 = 3 then 3
  else if l = .host ∧ usable &&& 12 = 12 then 12
  else lowestLane (usable &&& l.full)

/-- The mask of the lanes with a property. -/
def laneMask (l : LinkId) (f : Fin 4 → Bool) : Nat := (linkLanes l).foldl (fun m n => m + b2n (f n) * 2 ^ n.val) 0

/-- The symbol time, ns (R264). -/
def State.symbolNs (s : State) (l : LinkId) : Nat := if s.on (Reg.LNK_STATUS_RATE l.num) then 2 else 4

/-! ## Changes of state (R270, R274, R284) -/

/-- A change of STATE: the event, and FS032 raised where the link leaves the running states. Its live bit follows the state of the link (see
State.live); a link that has not run since chip reset is down without an onset. -/
def State.setLinkState (s : State) (l : LinkId) (n : Nat) : State :=
  if s.rd (Reg.LNK_STATUS_STATE l.num) = n then s
  else
    let ran := s.linkUp l
    let s := (s.put (Reg.LNK_STATUS_STATE l.num) n).flag (Reg.LNK_EVENT_STATE l.num)
    if n = 5 ∨ n = 6 then s.setLive (l.source 32) false else if ran then s.raise (l.source 32) else s

/-- A lane's fence is set or lifted; its source is live while it is fenced. A lane that is newly fenced trains again (R274, R285). -/
def State.fenceLane (s : State) (l : LinkId) (n : Fin 4) (b : Bool) : State :=
  let x := s.linkAt l
  let s := if s.on (laneFenced l n) = b then s
    else
      let y := x.lanes[n]
      let y : LinkLane := if b then { LinkLane.reset with trained := y.trained } else { y with cleanSince := none }
      State.flag (s.setLink l { x with lanes := x.lanes.set n y }) (Reg.LNK_EVENT_LANE l.num)
  let s := (s.put (laneFenced l n) (b2n b)).putBit (Reg.LNK_STATUS_FENCED l.num) n.val b
  let s := if b then s else s.put (laneReturning l n) 0
  s.condition (l.source (48 + n.val)) b

/-- The lanes outside a mask are fenced. -/
def State.fenceOutside (s : State) (l : LinkId) (mask : Nat) : State :=
  (linkLanes l).foldl (fun s n => if mask.testBit n.val then s else s.fenceLane l n true) s

/-- The fences of the lanes inside a mask are lifted. -/
def State.unfenceInside (s : State) (l : LinkId) (mask : Nat) : State :=
  (linkLanes l).foldl (fun s n => if mask.testBit n.val then s.fenceLane l n false else s) s

/-- The lanes that are not fenced. -/
def State.lanesInUse (s : State) (l : LinkId) : Nat := laneMask l (fun n => !s.on (laneFenced l n.val))

/-- The running state for a width: ACTIVE at the full width, DEGRADE otherwise. -/
def runState (l : LinkId) (width : Nat) : Nat := if width = l.full then 5 else 6

/-- The lanes' training starts over: in a bring-up, at either rate, on every lane, with preset 2 (R267); in a recovery (`all` false) on those
not fenced, with the presets in use (R286). -/
def State.restartLanes (s : State) (l : LinkId) (stage : LinkStage) (all : Bool) : State :=
  let x := s.linkAt l
  let lanes := (linkLanes l).foldl
    (fun (v : Vector LinkLane 4) (n : Fin 4) =>
      if all then v.set n LinkLane.reset
      else if s.on (laneFenced l n.val) then v
      else v.set n { LinkLane.reset with preset := (v[n]).preset }) x.lanes
  s.setLink l { x with stage := stage, lanes := lanes, since := s.now, ackSent := false, ackGot := false, caps := none }

/-- DETECT. -/
def State.toDetect (s : State) (l : LinkId) : State :=
  State.setLinkState (s.setLink l { s.linkAt l with recovering := false, since := s.now }) l 1

/-- A running link enters RECOVER (R270, R286). -/
def State.toRecover (s : State) (l : LinkId) : State :=
  if !s.linkUp l then s
  else
    let s := s.restartLanes l .train false
    State.setLinkState (s.setLink l { s.linkAt l with recovering := true }) l 7

/-- A bring-up fails: DETECT with FS033; a failure at 5.0 GBd counts toward TRAIN_TRIES where the state counts (R270, R271). -/
def State.bringUpFails (s : State) (l : LinkId) (counts : Bool) : State :=
  let x := s.linkAt l
  let s := if counts && s.on (Reg.LNK_STATUS_RATE l.num) then
      let n := x.fails5 + 1
      s.setLink l { x with fails5 := n, only25 := x.only25 || decide (s.rd (Reg.LNK_CFG_TRAIN_TRIES l.num) ≤ n) }
    else s
  (s.toDetect l).raise (l.source 33)

/-- Boot has enabled a link: from the DONE write on, and in recovery the host link alone (R349, R352, R391). -/
def State.linksEnabled (s : State) (l : LinkId) : Bool :=
  !s.bootLevel || (l = .host && s.on Reg.SEC_BOOT_STATUS_RECOVERY)

/-- LNK_CTRL.EN: 0 disables the link; 1 lets a disabled one enter DETECT once Boot has enabled it (R270, R391, R392). -/
def State.linkSwitch (s : State) (l : LinkId) (on : Bool) : State :=
  if !on then State.setLinkState (s.setLink l { s.linkAt l with recovering := false }) l 0
  else if s.rd (Reg.LNK_STATUS_STATE l.num) = 0 ∧ s.linksEnabled l ∧
      !(s.flt.inReset.contains (match l with | .host => Block.hostLink | .peer => Block.peerLink)) then s.toDetect l
  else s

/-- A write to LNK_CTRL clears the limit to 2.5 GBd (R271). -/
def State.clearRateLimit (s : State) (l : LinkId) : State := s.setLink l { s.linkAt l with only25 := false, fails5 := 0 }

/-! ## DETECT and TRAIN (R270, R271) -/

/-- A poll for receivers: no poll within 100 ms of a CAPS refusal. -/
def State.detectPoll (s : State) (l : LinkId) (found : Nat) : State :=
  let x := s.linkAt l
  if s.rd (Reg.LNK_STATUS_STATE l.num) ≠ 1 then s
  else if x.refusedAt.any (fun t => decide (s.now < t + 100000000)) then s
  else if found &&& l.full = 0 then s
  else
    let s := s.setLink l { x with detected := found &&& l.full, refusedAt := none, rate5 := s.on (Reg.LNK_CTRL_RATE_5G l.num) && !x.only25 }
    let s := (s.unfenceInside l l.full).put (Reg.LNK_STATUS_RATE l.num) 0
    (s.restartLanes l .train true).setLinkState l 2

/-- 5.0 GBd may be trained in the present bring-up (R271, R290). -/
def State.offers5 (s : State) (l : LinkId) : Bool := (s.linkAt l).rate5

/-- A preset nibble: 8-15 are read as 0 (R267). -/
def presetNibble (n : Nat) : Nat := if n % 16 < 8 then n % 16 else 0

/-- A PRESET byte as it is read: the preset asked of this end, and the one in use at the partner. -/
def presetRead (b : Nat) : Nat := presetNibble (b / 16) * 16 + presetNibble b

/-- The TP2 sets that this end has sent on a lane since the eighth TP1: one in 12 symbol times (R267, R271). -/
def LinkLane.tp2Sent (x : LinkLane) (now symbol : Nat) : Nat :=
  match x.tp1At with
  | some t => (now - t) / (12 * symbol)
  | none => 0

/-- A lane after a training set (R271). With the eighth identical TP1 this end takes the preset that they ask for, and sends TP2 with it; in a
recovery the preset in use stays (R286). The lane completes once 16 such TP2 sets have been sent and 8 consecutive TP2 have come. -/
def LinkLane.train (x : LinkLane) (now symbol : Nat) (own tp2 keep : Bool) (content : Nat × Nat × Nat) : LinkLane :=
  if !own then { x with tp1 := 0, tp2 := 0 }
  else
    let x := if tp2 then { x with tp2 := x.tp2 + 1, tp1 := 0 }
      else
        let n := if x.tp1 = 0 ∨ x.tp1Set ≠ content then 1 else x.tp1 + 1
        let eighth := x.tp1At.isNone && n == 8
        { x with
          tp1 := n, tp1Set := content, tp2 := 0, tp1At := if eighth then some now else x.tp1At
          preset := if eighth && !keep then content.2.1 / 16 else x.preset }
    let done := x.done || (decide (16 ≤ x.tp2Sent now symbol) && decide (8 ≤ x.tp2))
    { x with done := done, trained := x.trained || done }

/-- The lanes that have completed. -/
def State.lanesDone (s : State) (l : LinkId) : Nat := laneMask l (fun n => ((s.linkAt l).lanes[n]).done)

/-- A partner's set on a completed lane offered 5.0 GBd. -/
def State.partnerOffers5 (s : State) (l : LinkId) : Bool :=
  (linkLanes l).any (fun n => ((s.linkAt l).lanes[n]).done && ((s.linkAt l).lanes[n]).tp1Set.1.testBit 1)

/-- Training has completed on the width of the lanes done: at 2.5 GBd with 5.0 GBd offered by both ends, training starts again at
5.0 GBd; otherwise LOCK, the lanes that did not complete being fenced. -/
def State.trainCompletes (s : State) (l : LinkId) : State :=
  if !s.on (Reg.LNK_STATUS_RATE l.num) && s.offers5 l && s.partnerOffers5 l then
    State.restartLanes (s.put (Reg.LNK_STATUS_RATE l.num) 1) l .train true
  else
    let width := chooseWidth l (s.lanesDone l)
    let s := (s.fenceOutside l width).put (Reg.LNK_STATUS_WIDTH l.num) width
    let x := s.linkAt l
    let s := s.setLink l { x with stage := .lock, since := s.now, fails5 := if s.on (Reg.LNK_STATUS_RATE l.num) then 0 else x.fails5 }
    s.setLinkState l 3

/-- In RECOVER training has completed on every lane that is not fenced: LOCK, within RECOVER. -/
def State.recoverTrained (s : State) (l : LinkId) : State := s.setLink l { s.linkAt l with stage := .lock }

/-- A training set arrives (R270, R271, R285, R286). In a running state TP1 on a lane in use is the partner's recovery; on a fenced lane
sets train it in the background. -/
def State.trainingSet (s : State) (l : LinkId) (n : Fin 4) (tp2 : Bool) (number rates preset flags : Nat) : State :=
  if !(l.full.testBit n.val) then s
  else
    let st := s.rd (Reg.LNK_STATUS_STATE l.num)
    let fenced := s.on (laneFenced l n)
    let x := s.linkAt l
    let y := LinkLane.train x.lanes[n] s.now (s.symbolNs l) (number == n.val) tp2 (st == 7) (rates, presetRead preset, flags)
    if st = 5 ∨ st = 6 then
      if fenced then
        let fresh := y.done && !(x.lanes[n]).done
        let s := s.setLink l { x with lanes := x.lanes.set n { y with cleanSince := if fresh then some s.now else y.cleanSince } }
        if fresh then s.put (laneReturning l n) 1 else s
      else if tp2 then s
      else s.toRecover l
    else if st = 2 ∧ x.detected.testBit n.val then
      let s := s.setLink l { x with lanes := x.lanes.set n y }
      if s.lanesDone l = x.detected then s.trainCompletes l else s
    else if st = 7 ∧ x.stage = .train ∧ !fenced then
      let s := s.setLink l { x with lanes := x.lanes.set n y }
      if s.lanesInUse l &&& s.lanesDone l = s.lanesInUse l then s.recoverTrained l else s
    else s

/-- 24 ms at one rate: a width that has completed goes on; without one the bring-up fails. -/
def State.trainTimeout (s : State) (l : LinkId) : State :=
  if s.rd (Reg.LNK_STATUS_STATE l.num) ≠ 2 then s
  else if s.lanesDone l ≠ 0 then s.trainCompletes l
  else s.bringUpFails l true

/-! ## LOCK (R268, R272) -/

/-- The elastic buffer's fill after its adjustment at a SLACK set (R268). -/
def elasticAdjust (fill : Int) : Int := if 1 ≤ fill then fill - 1 else if fill ≤ -1 then fill + 1 else fill

/-- What a SLACK set shows on one lane. -/
def State.slackLane (s : State) (l : LinkId) (k : SlackLane) : State :=
  if !(l.full.testBit k.lane.val) then s
  else
    let x := s.linkAt l
    let y := x.lanes[k.lane]
    let s := s.inc (laneViolations l k.lane) k.violations
    s.setLink l { x with lanes := x.lanes.set k.lane { y with fill := elasticAdjust k.fill, slacks := if k.violations = 0 then y.slacks + 1 else 0 } }

/-- The width that a bring-up or a recovery locks: in RECOVER the lanes that are not fenced, whether or not their width had settled (R286). -/
def State.lockWidth (s : State) (l : LinkId) : Nat :=
  if s.rd (Reg.LNK_STATUS_STATE l.num) = 7 then s.lanesInUse l else s.rd (Reg.LNK_STATUS_WIDTH l.num)

/-- Every lane of the width has met LOCK. -/
def State.lockMet (s : State) (l : LinkId) : Bool :=
  (linkLanes l).all (fun n => !((s.lockWidth l).testBit n.val) || decide (16 ≤ ((s.linkAt l).lanes[n]).slacks))

/-- LOCK is under way, in a bring-up or within RECOVER. -/
def State.locking (s : State) (l : LinkId) : Bool :=
  s.rd (Reg.LNK_STATUS_STATE l.num) == 3 || (s.rd (Reg.LNK_STATUS_STATE l.num) == 7 && (s.linkAt l).stage == .lock)

/-- A lane's SLACK sets are counted anew: a code violation, or clock recovery out of lock (R272). -/
def State.restartSlacks (s : State) (l : LinkId) (n : Fin 4) : State :=
  let x := s.linkAt l
  s.setLink l { x with lanes := x.lanes.set n { x.lanes[n] with slacks := 0 } }

/-- The lanes later than the deskew capacity of 16 symbol times. -/
def lateLanes (ks : List SlackLane) : Nat := ks.foldl (fun m k => if 16 < k.skew ∧ !(m.testBit k.lane.val) then m + 2 ^ k.lane.val else m) 0

/-! ## Lane loss and return (R284, R285) -/

/-- A lane in use of a running link is lost: it is fenced, the width is chosen again, WIDTH sets go out; with no lane usable the link
enters RECOVER. A fenced lane that is lost trains again. In LOCK the lane does not meet R272 until it has locked anew. -/
def State.loseLane (s : State) (l : LinkId) (n : Fin 4) : State :=
  if !(l.full.testBit n.val) then s
  else if s.locking l then s.restartSlacks l n
  else if !s.linkUp l then s
  else
    let x := s.linkAt l
    let s := State.put (s.setLink l { x with lanes := x.lanes.set n LinkLane.reset }) (laneReturning l n) 0
    if s.on (laneFenced l n) then s
    else
      let s := s.fenceLane l n true
      let width := chooseWidth l (s.lanesInUse l)
      if width = 0 then s.toRecover l
      else
        let s := (s.fenceOutside l width).setLinkState l (runState l width)
        s.setLink l { s.linkAt l with maskTx := width }

/-- A SLACK set on the lanes of a link (R268, R272, R284). -/
def State.slackSet (s : State) (l : LinkId) (ks : List SlackLane) : State :=
  let s := ks.foldl (fun s k => s.slackLane l k) s
  let late := lateLanes ks
  let st := s.rd (Reg.LNK_STATUS_STATE l.num)
  if s.locking l then
    let s := if late &&& s.lockWidth l = 0 then s
      else
        let s := (linkLanes l).foldl (fun s n => if late.testBit n.val then s.fenceLane l n true else s) s
        let width := chooseWidth l (s.lanesInUse l)
        (s.fenceOutside l width).put (Reg.LNK_STATUS_WIDTH l.num) width
    if s.lockWidth l ≠ 0 ∧ s.lockMet l then
      let s := s.setLink l { s.linkAt l with
        stage := .exchange, since := if st = 3 then s.now else (s.linkAt l).since, ackSent := false, ackGot := false, caps := none }
      if st = 3 then s.setLinkState l 4 else s
    else s
  else if s.linkUp l then (linkLanes l).foldl (fun s n => if late.testBit n.val then s.loseLane l n else s) s
  else s

/-- Lanes whose return is due to be offered: clean under R285. -/
def State.cleanLanes (s : State) (l : LinkId) : Nat :=
  laneMask l (fun n => s.on (laneFenced l n) && ((s.linkAt l).lanes[n]).cleanSince.isSome)

/-- This end makes the offer: the device on the host link, the end with the lower DEVNUM on the peer link (R285). -/
def State.offersReturn (s : State) (l : LinkId) : Bool :=
  match l with
  | .host => true
  | .peer => decide (s.rd (Reg.LNK_CFG_DEVNUM 1) < s.rd (Reg.LNK_PARTNER_DEVNUM 1))

/-- The fenced lanes that have been clean for LNK_RETURN_HOLD. -/
def State.heldLanes (s : State) (l : LinkId) : Nat :=
  laneMask l (fun n => s.on (laneFenced l n) &&
    ((s.linkAt l).lanes[n]).cleanSince.any (fun t => decide (t + s.rd (Reg.LNK_RETURN_HOLD_MS l.num) * 1000000 ≤ s.now)))

/-- A lane has been clean for the hold: WIDTH sets that add it, and the others whose hold has passed, where a wider width is then to be had. -/
def State.offerLane (s : State) (l : LinkId) (n : Fin 4) : State :=
  if s.linkUp l && s.offersReturn l && (s.heldLanes l).testBit n.val then
    s.setLink l { s.linkAt l with maskTx := chooseWidth l (s.lanesInUse l ||| s.heldLanes l) }
  else s

/-- The hold of the lanes offered but left out starts again. -/
def State.restartHold (s : State) (l : LinkId) (offered taken : Nat) : State :=
  let x := s.linkAt l
  let lanes := (linkLanes l).foldl
    (fun (v : Vector LinkLane 4) (n : Fin 4) =>
      if offered.testBit n.val && !(taken.testBit n.val) then v.set n { v[n] with cleanSince := v[n].cleanSince.map (fun _ => s.now) } else v)
    x.lanes
  s.setLink l { x with lanes := lanes }

/-- WIDTH sets arrive: the AND of their MASK and this end's (the lanes in use and those clean) is answered and fences what it leaves
out; once the two MASKs are equal the width is settled. -/
def State.widthSet (s : State) (l : LinkId) (mask : Nat) : State :=
  if !s.linkUp l then s
  else
    let x := s.linkAt l
    let width := chooseWidth l (mask &&& (s.lanesInUse l ||| s.cleanLanes l))
    let s := s.setLink l { x with maskTx := width }
    if width = 0 then s.toRecover l
    else
      let s := (s.restartHold l x.maskTx width).fenceOutside l width
      let s := if mask = width then (s.unfenceInside l width).put (Reg.LNK_STATUS_WIDTH l.num) width else s
      s.setLinkState l (runState l (s.lanesInUse l))

/-- A WIDTH set (R267): MASK and its bitwise inverse; anything else is none, and without effect. -/
def State.widthArrives (s : State) (l : LinkId) (mask inverse : Byte) : State :=
  if inverse = ~~~mask then s.widthSet l (mask.toNat % 16) else s

/-! ## EXCHANGE (R273) and fresh bring-up (R286) -/

/-- The CAPS content this end sends. -/
def State.capsContent (s : State) (l : LinkId) : List Byte :=
  let x := s.linkAt l
  let rates := 1 + 2 * b2n (s.offers5 l)
  let flags := b2n x.caps.isSome + 2 * b2n x.lastRx.isSome + 4 * b2n (s.sessionOf l).isSome + 8 * b2n x.recovering
  leBytes (match l with | .host => 1 | .peer => 2) 1 ++ [4#8] ++ leBytes rates 1 ++ leBytes (laneMask l (fun n => (x.lanes[n]).trained)) 1 ++
  leBytes (s.rd (Reg.LNK_CFG_DEVNUM l.num)) 2 ++ leBytes flags 1 ++ [0#8] ++ leBytes (s.rd Reg.SYS_EPOCH_EPOCH) 4 ++
  leBytes (x.lastRx.getD 0) 2 ++ [32#8] ++ List.replicate 17 0#8

/-- A partner's CAPS is refused (R273). -/
def capsRefused (l : LinkId) (c : List Byte) : Bool :=
  let role := leAt c 0 1
  (match l with
   | .host => role != 0
   | .peer => role != 2 || leAt c 1 1 != 4) ||
  leAt c 14 1 = 0 || decide (63 < leAt c 14 1) || 4 ≤ leAt c 2 1 || 16 ≤ leAt c 5 1 || 16 ≤ leAt c 6 1 || leAt c 7 1 ≠ 0 ||
  16 ≤ leAt c 13 1 || leAt c 15 17 ≠ 0

/-- The packets of a replay buffer, numbered anew from n; completions carry PREV; an encrypted packet keeps its ciphertext, and its tag is
that of the new header. `count` is the COUNT of the first encrypted one. -/
def renumber (k : Option SessKeys) : List OutPacket → Nat → Nat → List OutPacket
  | [], _, _ => []
  | p :: ps, n, count =>
    let p : OutPacket := { p with seq := n, sends := 0, prev := p.type == 3 }
    match k with
    | some k => if p.enc then p.seal_ k count :: renumber (some k) ps (n + 1) (count + 1) else p :: renumber (some k) ps (n + 1) count
    | none => p :: renumber none ps (n + 1) count

/-- A packet is acknowledged by LAST (R280). -/
def acknowledged (last : Nat) (p : OutPacket) : Bool := decide (0 < p.sends) && decide ((last + 4096 - p.seq) % 4096 < 2048)

/-- The fresh numbering of both directions, after the partner's CAPS (R286). -/
def State.freshNumbers (s : State) (l : LinkId) (c : List Byte) : State :=
  let flags := leAt c 6 1
  let keep := flags.testBit 1 && flags.testBit 2
  let s := if keep then s else s.endSession l
  let x := s.linkAt l
  let rest := if keep then x.tx.filter (fun p => !acknowledged (leAt c 12 2) p) else []
  let first := x.txCount - (rest.filter (·.enc)).length
  let held := if keep then x.held.map (fun p => { p with prev := p.type == 3 }) else []
  let s := s.setLink l { x with
    tx := renumber (s.sessionOf l) rest 0 first, held := held, staging := if keep then x.staging else 0,
    rxNext := 0, landed := 0, failing := false, nakAt := none, unacked := 0, limitSent := 31, limit := leAt c 14 1 - 1 }
  (s.put (Reg.LNK_SEQ_TX_NEXT l.num) rest.length).inc (Reg.LNK_BRINGUPS_COUNT l.num)

/-- A resend from the first unacknowledged packet, of every packet sent (R281, R286). -/
def State.resendAll (s : State) (l : LinkId) : State :=
  let x := s.linkAt l
  if x.tx.any (fun p => decide (0 < p.sends)) then
    let s := s.inc (Reg.LNK_REPLAY_COUNT_COUNT l.num)
    s.setLink l { x with tx := x.tx.map (fun p => if 0 < p.sends then { p with sends := p.sends + 1 } else p), progressAt := s.now }
  else s

/-- EXCHANGE is complete: the link runs at its width. After a recovery each end resends from its first unacknowledged packet. -/
def State.linkRuns (s : State) (l : LinkId) (c : List Byte) : State :=
  let fresh := !(s.linkAt l).recovering
  let s := if fresh then s.freshNumbers l c
    else s.resendAll l
  let width := s.lockWidth l
  let s := s.put (Reg.LNK_STATUS_WIDTH l.num) width
  let s := s.setLink l { s.linkAt l with maskTx := width, recovering := false, progressAt := s.now, failing := false, nakAt := none }
  s.setLinkState l (runState l width)

/-- The exchange runs in EXCHANGE, and within RECOVER after LOCK. -/
def State.exchanging (s : State) (l : LinkId) : Bool :=
  s.rd (Reg.LNK_STATUS_STATE l.num) == 4 || (s.rd (Reg.LNK_STATUS_STATE l.num) == 7 && (s.linkAt l).stage == .exchange)

/-- EXCHANGE completes when CAPS with ACK have been both sent and received. -/
def State.exchangeDone (s : State) (l : LinkId) : State :=
  let x := s.linkAt l
  match x.caps with
  | some c => if x.ackSent && x.ackGot then s.linkRuns l c else s
  | none => s

/-- A CAPS set is sent. -/
def State.sendCaps (s : State) (l : LinkId) : State :=
  if !s.exchanging l then s
  else
    let x := s.linkAt l
    State.exchangeDone (s.setLink l { x with capsSent := s.capsContent l, ackSent := x.caps.isSome }) l

/-- A CAPS set arrives with the CRC-32 of its content (R267). A bad CRC is no CAPS; a refusal in EXCHANGE returns to DETECT with FS046. -/
def State.takeCaps (s : State) (l : LinkId) (c : List Byte) (crc : Nat) : State :=
  if !s.exchanging l || c.length != 32 || crc32 c != crc then s
  else if capsRefused l c then
    if s.rd (Reg.LNK_STATUS_STATE l.num) = 4 then
      State.raise (State.toDetect (s.setLink l { s.linkAt l with refusedAt := some s.now }) l) (l.source 46)
    else s
  else
    let n := l.num
    let s := ((s.put (Reg.LNK_PARTNER_ROLE n) (leAt c 0 1)).put (Reg.LNK_PARTNER_DEVNUM n) (leAt c 4 2)).put (Reg.LNK_PARTNER_MEMBER n) (leAt c 1 1)
    let s := ((s.put (Reg.LNK_PARTNER_RATES n) (leAt c 2 1)).put (Reg.LNK_PARTNER_RX_BUFFERS n) (leAt c 14 1)).put
      (Reg.LNK_PARTNER_EPOCH_EPOCH n) (leAt c 8 4)
    let x := s.linkAt l
    State.exchangeDone (s.setLink l { x with caps := some c, ackGot := x.ackGot || (leAt c 6 1).testBit 0 }) l

/-- 2 ms in LOCK, or in EXCHANGE, without completion. -/
def State.lockTimeout (s : State) (l : LinkId) : State :=
  if s.rd (Reg.LNK_STATUS_STATE l.num) = 3 then s.bringUpFails l false else s

def State.exchangeTimeout (s : State) (l : LinkId) : State :=
  if s.rd (Reg.LNK_STATUS_STATE l.num) = 4 then s.bringUpFails l false else s

/-- RECOVER_MS has passed: the next bring-up is a fresh one. -/
def State.recoverTimeout (s : State) (l : LinkId) : State :=
  if s.rd (Reg.LNK_STATUS_STATE l.num) = 7 then s.toDetect l else s

end Sys2Proof.Machine
end

