-- ==== Sys2Proof/Machine/Packets.lean ====
section
/-!
DEFINITION. Packets as they arrive (R275-R282): sequence checks, acknowledgement, NAK and replay, authentication and decryption, and
the landing of a packet.
-/
namespace Sys2Proof.Machine

/-! ## Acknowledging what has been received (R280) -/

/-- The staging buffers for received packets (R273). -/
def rxBuffers : Nat := 32

/-- LAST, the last sequence landed. -/
def Link.last (x : Link) : Nat := (x.rxNext + 4095) % 4096

/-- ACK or NAK carries LAST, and LIMIT: LAST plus the free staging buffers. -/
def State.acknowledge (s : State) (l : LinkId) : State :=
  let x := s.linkAt l
  s.setLink l { x with unacked := 0, limitSent := (x.last + (rxBuffers - x.staging)) % 4096 }

/-- A NAK, unless one has gone for the same expected sequence within 20 µs; what follows is discarded until that sequence arrives. -/
def State.sendNak (s : State) (l : LinkId) : State :=
  let x := s.linkAt l
  if x.failing && x.nakAt.any (fun t => decide (s.now < t + 20000)) then s
  else
    let s := (s.acknowledge l).inc (Reg.LNK_NAK_COUNT_COUNT l.num)
    s.setLink l { s.linkAt l with failing := true, nakAt := some s.now }

/-- A lasting replay failure (R281): FS035, and RECOVER. -/
def State.replayFails (s : State) (l : LinkId) : State :=
  State.toRecover ((s.raise (l.source 35)).flag (Reg.LNK_EVENT_REPLAY_LIMIT l.num)) l

/-- An arrival is discarded with a fault and a NAK. Where the expected sequence had been NAKed already, its second failure is lasting. -/
def State.discardArrival (s : State) (l : LinkId) (source : Nat) (expected : Bool) : State :=
  let again := (s.linkAt l).failing
  let s := (s.raise (l.source source)).sendNak l
  if expected && again then s.replayFails l else s

/-! ## Arrivals (R276, R278, R279) -/

/-- The keys with which packets are received: the session's; without one, those that the initiator of a peer session has derived and that the
responder already uses (R358, R359). -/
def State.receiveKeys (s : State) (l : LinkId) : Option SessKeys :=
  match l, s.sessionOf l with
  | .peer, none => s.sec.peerKeys
  | _, k => k

/-- A packet is whole and its CRC-32 is that of its header, payload and tag (R277). -/
def intact (p : RxPacket) (type len addr : Nat) : Bool :=
  p.whole && p.crc.toNat == crc32 (packetHeader type p.seq.toNat p.enc 0 false len addr ++ p.payload ++ p.tag)

/-- A packet is authentic: with keys, an encrypted packet must carry its tag, and an unencrypted one may come only before the first encrypted
one has landed (R278, R358); without keys an encrypted packet cannot be. -/
def State.authentic (s : State) (l : LinkId) (p : RxPacket) (header : List Byte) : Bool :=
  match s.receiveKeys l with
  | none => !p.enc
  | some k =>
    if p.enc then p.tag = Config.gcmTag k.inKey (gcmNonce k.inSalt (s.linkAt l).rxCount) header p.payload
    else (s.linkAt l).rxCount = 0

/-- The payload of an authentic packet, decrypted. -/
def State.opened (s : State) (l : LinkId) (p : RxPacket) : List Byte :=
  match s.receiveKeys l with
  | none => p.payload
  | some k => if p.enc then gcmCrypt k.inKey (gcmNonce k.inSalt (s.linkAt l).rxCount) p.payload else p.payload

/-- An authentication failure: FS037 and a NAK; on the resent packet it ends the session as well. -/
def State.authFails (s : State) (l : LinkId) : State :=
  let second := (s.linkAt l).authFail && (s.linkAt l).failing
  let s := State.discardArrival (s.setLink l { s.linkAt l with authFail := true }) l 37 true
  if second then s.endSession l else s

/-- The expected packet lands: the sequence moves on, a resent packet counts as transient, the eighth packet unacknowledged is acknowledged
at once. `held` says that it keeps its staging buffer until its completion has been queued. -/
def State.landPacket (s : State) (l : LinkId) (p : RxPacket) (held : Bool) : State :=
  let x := s.linkAt l
  let s := s.put (Reg.LNK_SEQ_RX_LAST l.num) p.seq.toNat
  let s := if x.failing then s.inc (Reg.LNK_TRANSIENT_COUNT_COUNT l.num) else s
  let s := s.setLink l { x with
    rxNext := (x.rxNext + 1) % 4096, landed := x.landed + 1, lastRx := some p.seq.toNat, failing := false, nakAt := none,
    authFail := false, unacked := x.unacked + 1, rxCount := if p.enc then x.rxCount + 1 else x.rxCount,
    staging := if held then x.staging + 1 else x.staging }
  if 8 ≤ (s.linkAt l).unacked then s.acknowledge l else s

/-- A packet arrives on a running link, `type`, `len` and `addr` its header and `fits` whether they fit the type table. `land` is its effect,
with the payload in the clear. -/
def State.receive (s : State) (l : LinkId) (p : RxPacket) (type len addr : Nat) (fits held : Bool) (land : State → List Byte → State) : State :=
  let x := s.linkAt l
  let q := p.seq.toNat
  let expected := q == x.rxNext
  let back := (x.rxNext + 4096 - q) % 4096
  if !s.linkUp l then s
  else if !intact p type len addr then s.discardArrival l 34 expected
  else if !fits then s.discardArrival l 40 expected
  else if 1 ≤ back ∧ back ≤ min 2048 x.landed then s.acknowledge l
  else if !expected || !mayTransmit x.limitSent q then
    s.discardArrival l 38 false
  else if !s.authentic l p (packetHeader type q p.enc 0 false len addr) then s.authFails l
  else
    let text := s.opened l p
    land (s.landPacket l p held) text

/-! ## ACK, NAK and timeouts (R280-R282) -/

/-- A link control word of a kind carries the CRC-16 of its 4 bytes (R277, R280). DEDUCED: one that does not is ignored; R280 asks for a NAK
only where a packet is discarded. -/
def controlOk (kind last limit crc : Nat) : Bool := crc16 (leBytes kind 1 ++ leBytes (limit * 4096 + last) 3) == crc

/-- LAST and LIMIT of a link control word: what it acknowledges leaves the replay buffer; those sent twice count as transient. -/
def State.takeAck (s : State) (l : LinkId) (last limit : Nat) : State :=
  let x := s.linkAt l
  let gone := x.tx.filter (acknowledged last)
  let s := s.inc (Reg.LNK_TRANSIENT_COUNT_COUNT l.num) (gone.filter (fun p => p.sends == 2)).length
  s.setLink l { x with
    tx := x.tx.filter (fun p => !acknowledged last p), limit := limit, progressAt := if gone.isEmpty then x.progressAt else s.now }

/-- A resend is called for: of a packet already resent it is a lasting failure (R281). -/
def State.replay (s : State) (l : LinkId) : State :=
  match (s.linkAt l).tx with
  | [] => s
  | p :: _ => if 2 ≤ p.sends then s.replayFails l else s.resendAll l

/-- A NAK arrives. -/
def State.takeNak (s : State) (l : LinkId) (last limit : Nat) : State := (s.takeAck l last limit).replay l

/-- PKT_NS without a symbol of a packet begun (R282). -/
def State.packetTimeout (s : State) (l : LinkId) : State := if s.linkUp l then s.discardArrival l 36 true else s

/-- An elastic buffer has overflowed or underflowed (R268). -/
def State.elasticFails (s : State) (l : LinkId) (n : Fin 4) : State :=
  if !(l.full.testBit n.val) then s
  else
    let s := (s.inc (laneViolations l n)).restartSlacks l n
    if s.linkUp l then s.discardArrival l 39 false else s.raise (l.source 39)

end Sys2Proof.Machine
end

