-- ==== Sys2Proof/Machine/Sequencer.lean ====
section
/-!
DEFINITION. Following FRAME_SYNC (R24-R28) and the small commands of the sequencer: edges, phase, the length of a lock cycle, starting and
stopping (R27, R123), rate (R23), lock-number loads (R37) and reach resets (R17).
-/
namespace Sys2Proof.Machine

/-! ## Phase (R25, R26) -/

/-- The measured FRAME_SYNC period, within the bounds of R26; nominal where none has been measured. -/
def State.period (s : State) : Nat :=
  let p := s.rd Reg.SEQ_SYNC_PERIOD_PERIOD
  if p = 0 then lcNominal s.F else clampNat (lcMin s.F) (lcMax s.F) p

/-- Of the targets that follow `t` at whole periods, the one nearest to a period after the last sluice. -/
def State.nextTarget (s : State) (t : Nat) : Int :=
  let p := s.period
  let k : Int := Int.ediv (((s.seq.opened + p : Nat) : Int) - t + (p / 2 : Nat)) (max 1 p : Nat)
  (t : Int) + k * p

/-- The length of the lock cycle that the last sluice opened: nominal in FREE, the last one in HOLDOVER, and otherwise what brings the
next sluice toward its target within the bounds of R26. -/
def State.aimLength (s : State) : Nat :=
  match s.seq.state with
  | .stopped => s.seq.length
  | .free => lcNominal s.F
  | .holdover => if s.seq.length = 0 then lcNominal s.F else s.seq.length
  | _ => match s.seq.target with
    | none => lcNominal s.F
    | some t => (clampInt (lcMin s.F) (lcMax s.F) (s.nextTarget t - s.seq.opened)).toNat

/-- The next sluice is placed. -/
def State.aim (s : State) : State :=
  let n := s.aimLength
  { s with seq := { s.seq with length := n, next := some (s.seq.opened + n) } }

/-- The next sluice is placed anew where its tick −4 has not come. -/
def State.reaim (s : State) : State := if s.seq.snap.isSome || s.seq.state == .stopped then s else s.aim

/-- A phase lies within ±1 scan tick. -/
def State.onPhase (s : State) (phase : Int) : Bool := decide (phase.natAbs * fScan s.F s.S ≤ 1000000000)

/-- A sluice is compared with its target: SEQ_SYNC_PHASE, and the transitions of R27 that a phase makes. -/
def State.judgePhase (s : State) (phase : Int) : State :=
  let s := s.put Reg.SEQ_SYNC_PHASE_PHASE (ofSigned 32 phase)
  let ok := s.onPhase phase
  match s.seq.state with
  | .acquire => if ok then s.setSync .locked else s
  | .locked => if ok then s else s.setSync .acquire
  | .holdover => s.setSync (if ok then .locked else .acquire)
  | _ => s

/-! ## FRAME_SYNC edges (R24, R27) -/

/-- The device takes its sluice phase from the twin: in Shadow, while the active's records come (R320). -/
def State.followsTwin (s : State) : Bool :=
  s.on Reg.PEER_CFG_PAIRED && s.rd Reg.PEER_STATUS_ROLE != 2 && s.peer.noRecord < 2

/-- A stopped sequencer waits for the active's sluice under a resynchronisation (R332). -/
def State.aligning (s : State) : Bool := s.rd Reg.PEER_STATUS_RESYNC == 1

/-- A valid edge gives its target to the nearer of the last and the next sluice. -/
def State.takeTarget (s : State) (t : Nat) : State :=
  let free := s.seq.state = .free
  let s := { s with seq := { s.seq with target := some t, holdLcs := 0 } }
  let s := if free then (s.setSync .acquire).condition 96 false else s
  let before : Int := (s.seq.opened : Int) - t
  match s.seq.next with
  | some n =>
    if ((n : Int) - t).natAbs < before.natAbs then { s with seq := { s.seq with pend := some t } }
    else (if free then s.put Reg.SEQ_SYNC_PHASE_PHASE (ofSigned 32 before) else s.judgePhase before).reaim
  | none => s.judgePhase before

/-- An edge at time `at_` lies within 2 / F of RUN (R27). -/
def State.inStart (s : State) (at_ : Nat) : Bool := decide (at_ * s.F ≤ s.seq.runAt * s.F + 2000000000)

/-- A valid edge at time `at_`; `whole` says that its interval began after RUN was set. From STOPPED the second edge of such a pair within
2 / F of RUN makes LOCKED, with the first sluice placed at its target (R27, R28). -/
def State.validEdge (s : State) (at_ : Nat) (whole : Bool) : State :=
  let t := at_ + s.actv Reg.SEQ_SYNC_CFG_SYNC_DELAY
  let s : State := { s with seq := { s.seq with lastValid := some at_ } }
  if s.seq.state = .stopped then
    if s.on Reg.SEQ_CTRL_RUN && s.seq.next.isNone && whole && s.inStart at_ && !s.aligning then
      State.setSync { s with seq := { s.seq with target := some t, pend := some t, next := some t } } .locked
    else s
  else if s.followsTwin || s.seq.first then s
  else s.takeTarget t

/-- An active FRAME_SYNC edge. -/
def State.frameSyncEdge (s : State) (at_ : Nat) (rising : Bool) : State :=
  let s : State := { s with now := max s.now at_ }
  if rising = s.on Reg.SEQ_CTRL_SYNC_EDGE then s
  else
    let at_ := s.now
    let last := s.seq.lastEdge
    let s : State := { s with seq := { s.seq with lastEdge := some at_ } }
    match last with
    | none => s
    | some e =>
      let n := at_ - e
      if n < lcMin s.F ∨ lcMax s.F < n then (s.inc Reg.SEQ_SYNC_STATUS_BAD_EDGES).raise 97
      else
        let s := (s.put Reg.SEQ_SYNC_PERIOD_PERIOD n).captureEdge
        State.validEdge s at_ (s.seq.runAt ≤ e)

/-- HOLDOVER begins (R27). -/
def State.holdOver (s : State) : State := State.setSync { s with seq := { s.seq with holdLcs := 0 } } .holdover

/-- The window after the last valid edge has passed, so device time has reached its end: HOLDOVER (R27). -/
def State.edgeTimeout (s : State) : State :=
  if s.followsTwin || s.seq.first then s
  else
    let ended := match s.seq.lastValid with
      | some e => max s.now (e + lcMax s.F + 1)
      | none => s.now
    match s.seq.state with
    | .locked => State.holdOver { s with now := ended }
    | .acquire => State.holdOver { s with now := ended }
    | _ => s

/-- HOLDOVER_LC lock cycles without a valid edge: FREE, and FS096. -/
def State.holdoverExpire (s : State) : State :=
  if s.seq.state = .holdover ∧ s.rd Reg.SEQ_SYNC_CFG_HOLDOVER_LC ≤ s.seq.holdLcs then (s.setSync .free).condition 96 true else s

/-- No valid pair of edges within 2 / F of RUN, whose end device time has reached: FREE, with the first sluice placed there. -/
def State.freeStart (s : State) : State :=
  if s.seq.state = .stopped ∧ s.on Reg.SEQ_CTRL_RUN ∧ s.seq.next.isNone ∧ !s.aligning then
    let t := s.seq.runAt + (2000000000 + s.F / 2) / s.F
    State.setSync { s with now := max s.now t, seq := { s.seq with next := some t } } .free
  else s

/-! ## RUN, rate and lock number (R23, R37, R123) -/

/-- Slot i may run at F and S (R122). -/
def State.slotPermits (s : State) (i : Nat) : Bool :=
  if h : i < 3 then
    (match s.seq.slots[i] with
     | some f => decide (f.fMin ≤ s.F) && decide (s.F ≤ f.fMax) && (f.sReq == 0 || f.sReq == s.S)
     | none => false)
  else false

/-- The slot that a start is judged by: the shadow value where a commit waits for the first sluice, else the active one. -/
def State.startSlot (s : State) : Nat :=
  if s.on Reg.SEQ_COMMIT_COMMIT then s.rd Reg.SYS_FLIGHT_CTRL_SLOT else s.actv Reg.SYS_FLIGHT_CTRL_SLOT

/-- A write of 1 to RUN: refused, with FS109, where the slot may not run (R123). -/
def State.runWrite (s : State) : State :=
  if s.on Reg.SEQ_CTRL_RUN then s
  else if s.seq.state != .stopped then s.setRun
  else if s.slotPermits s.startSlot then s.setRun
  else ((s.put Reg.SEQ_CTRL_RUN 0).flag Reg.SYS_FLIGHT_STATUS_REFUSED).raise 109

/-- F clamped, then S for that F (R23). -/
def clampRate (f sc : Nat) : Nat × Nat :=
  let f := clampNat 48 240 f
  (f, clampNat (sMin f) (sMax f) sc)

/-- SEQ_RATE takes a clamped pair. -/
def State.setRate (s : State) (f sc : Nat) : State :=
  let (f, sc) := clampRate f sc
  (s.put Reg.SEQ_RATE_F_NOM f).put Reg.SEQ_RATE_S sc

/-- A write of 1 to SEQ_LOCK_LOAD lands. -/
def State.setLockLoad (s : State) : State :=
  let s := (s.landing false true).put Reg.SEQ_LOCK_LOAD_LOAD 1
  { s with seq := { s.seq with snap := s.seq.snap.map (fun x => { x with againLoad := true }) } }

/-! ## Reach resets (R17) -/

/-- A write to SYS_REACH_RESET: a reset in progress is merged with; a calibration of the reach aborts. -/
def State.reachReset (s : State) (mask : Nat) : State :=
  let s := s.calReset mask
  all16.foldl (fun s (r : ReachId) =>
    if mask.testBit r.val && (s.reachAt r).reset == .none then s.setReach r { s.reachAt r with reset := .requested } else s) s

end Sys2Proof.Machine
end

