-- ==== Sys2Proof/Machine/Pair.lean ====
section
/-!
DEFINITION. The pair (R314-R333), what it needs before and beside the sluice: roles, the records a device sends, the exchange of local maps,
the comparison of frames and twin lock, echoes, and resynchronisation.
-/
namespace Sys2Proof.Machine

/-- Paired operation; a device of a pair whose role in force is not active is in Shadow (R315, R316). -/
def State.paired (s : State) : Bool := s.on Reg.PEER_CFG_PAIRED
def State.inShadow (s : State) : Bool := s.paired && s.rd Reg.PEER_STATUS_ROLE != 2

/-! ## Roles (R314, R315, R330) -/

/-- ROLE is recognised. An unpaired device ignores it. ROLE 00 held for 100 ms, then another value, asks to clear Safe-Dark (R390). -/
def State.roleRecognised (s : State) (role : Nat) : State :=
  let s := s.put Reg.PEER_STATUS_ROLE_IN role
  if !s.paired then s.setPeer { s.peer with darkSince := none }
  else
    let s := if role = 3 then s.raise 175 else s
    if role = 0 then s.setPeer { s.peer with darkSince := some (s.peer.darkSince.getD s.now) }
    else
      let clears := s.peer.darkSince.any (fun t => decide (t + 100000000 ≤ s.now))
      let s := s.setPeer { s.peer with darkSince := none }
      if clears then s.clearSafeDark else s

/-- The role that recognised lines call for. -/
def roleOf (lines : Nat) : Nat := if lines = 3 then 1 else lines

/-- A resynchronisation ends: DONE, or FAILED with FS174 (R332). -/
def State.resyncEnds (s : State) (ok : Bool) : State :=
  let s := (s.put Reg.PEER_STATUS_RESYNC (if ok then 4 else 5)).flag Reg.PEER_EVENT_RESYNC
  if ok then s else s.raise 174

/-- The role in force becomes the one recognised in tick −4. A compatibility switch-over begins, or counts on. A device that becomes active has
no active to follow: a resynchronisation in ALIGN or COPY fails (R332, R334). -/
def State.takeRole (s : State) (lines : Nat) : State :=
  if !s.paired then s
  else
    let old := s.rd Reg.PEER_STATUS_ROLE
    let new := roleOf lines
    let left :=
      if new ≠ 2 then 0
      else if old ≠ 2 then (if s.on Reg.PEER_CFG_COMPAT then s.rd Reg.PEER_CFG_COMPAT_LC else 0)
      else s.peer.compatLeft - 1
    let s := s.setPeer { s.peer with compatLeft := left }
    if old = new then s
    else
      let s := ((s.put Reg.PEER_STATUS_ROLE new).inc Reg.PEER_SWITCHES_COUNT).flag Reg.PEER_EVENT_ROLE
      if new ≠ 2 then s
      else
        let s := s.put Reg.PEER_STATUS_ALIGNED 0
        let phase := s.rd Reg.PEER_STATUS_RESYNC
        if phase = 1 ∨ phase = 2 then s.resyncEnds false else s

/-- FS172: a device in Shadow that is not aligned (R320). -/
def State.noteAligned (s : State) : State := s.condition 172 (s.inShadow && s.running && !s.on Reg.PEER_STATUS_ALIGNED)

/-! ## Local maps (R325, R326) -/

/-- The CRC-32C of a whole map in word order. -/
def mapCrc (m : HealthMap) : Nat :=
  (List.range 65536).foldl (fun c w => crc32cMore c (leBytes (Sparse.get m 0xFFFFFFFF#32 w).toNat 4)) 0xFFFFFFFF ^^^ 0xFFFFFFFF

/-- A LITERAL entry of n words from word w. -/
def literalEntry (m : HealthMap) (w n : Nat) : List Byte :=
  leBytes w 2 ++ [1#8] ++ leBytes (n - 1) 1 ++ (List.range n).flatMap (fun i => leBytes (Sparse.get m 0xFFFFFFFF#32 (w + i)).toNat 4)

/-- Ascending words as runs (first, count) of at most 255 words. -/
def wordRuns : List Nat → List (Nat × Nat)
  | [] => []
  | w :: ws =>
    match wordRuns ws with
    | (v, n) :: rs => if v = w + 1 ∧ n < 255 then (w, n + 1) :: rs else (w, 1) :: (v, n) :: rs
    | [] => [(w, 1)]

/-- The words in which two maps differ, ascending. -/
def mapDiff (a b : HealthMap) : List Nat :=
  let keys := (b.map Prod.fst).foldr insertSet (a.map Prod.fst)
  keys.filter (fun w => Sparse.get a 0xFFFFFFFF#32 w ≠ Sparse.get b 0xFFFFFFFF#32 w)

/-- Runs of words of a map go out, one entry to a packet. -/
def State.sendRuns (s : State) (m : HealthMap) (runs : List (Nat × Nat)) : State :=
  let s := runs.foldl (fun s r => s.postPeer 8 (literalEntry m r.1 r.2)) s
  s.setPeer { s.peer with sent := m, entries := s.peer.entries + runs.length }

/-- What has changed of the local map since it was sent. -/
def State.sendMapChanges (s : State) (m : HealthMap) : State :=
  if s.paired && s.peerSession then s.sendRuns m (wordRuns (mapDiff s.peer.sent m)) else s

/-- The whole map, asked for by the twin: 258 LITERAL entries. -/
def State.sendWholeMap (s : State) (m : HealthMap) : State :=
  s.sendRuns m ((List.range 257).map (fun i => (255 * i, 255)) ++ [(65535, 1)])

/-- The local map of the sluice tick goes out before its SEAL: what has changed, or all of it where the twin has asked. -/
def State.sendSluiceMap (s : State) : State :=
  if s.peer.twinAsks && s.paired && s.peerSession then State.sendWholeMap (s.setPeer { s.peer with twinAsks := false }) s.diag.localMap
  else s.sendMapChanges s.diag.localMap

/-- One entry of a MAP payload is applied to a mirror: the bytes it takes, and the mirror. -/
def applyEntry (m : HealthMap) (bs : List Byte) : Nat × HealthMap :=
  let first := leAt bs 0 2
  let fill := leAt bs 2 1 = 0
  let n := leAt bs 3 1 + 1
  let word (i : Nat) : W32 := BitVec.ofNat 32 (leAt bs (if fill then 4 else 4 + 4 * i) 4)
  (if fill then 8 else 4 + 4 * n,
    (List.range n).foldl (fun m i => Sparse.set m 0xFFFFFFFF#32 ((first + i) % 65536) (word i)) m)

/-- The entries of a payload, in order; a broken one ends them. -/
def applyEntries : Nat → HealthMap → List Byte → HealthMap
  | 0, m, _ => m
  | n + 1, m, bs =>
    let r := applyEntry m bs
    if bs.length < 8 ∨ 1 < leAt bs 2 1 ∨ bs.length < r.1 then m else applyEntries n r.2 (bs.drop r.1)

/-! ## Frame comparison and twin lock (R327, R328) -/

/-- The last of 8 matching lock cycles: LOCKED; in VERIFY the resynchronisation is done. -/
def State.gainTwinLock (s : State) : State :=
  let s := ((s.put Reg.PEER_STATUS_TWIN_LOCK 1).flag Reg.PEER_EVENT_LOCK).condition 176 false
  if s.rd Reg.PEER_STATUS_RESYNC = 3 then s.resyncEnds true else s

/-- The reaches of a request frame that are complete, and the CRC of each; what an incomplete frame's CRC is, is not stated. -/
def State.frameCrcs (s : State) : State × Nat × List Nat :=
  all16.foldl (fun (t : State × Nat × List Nat) (r : ReachId) =>
    let x := t.1.reachAt r
    if x.delivered.length = 4096 then (t.1, t.2.1 + 2 ^ r.val, t.2.2 ++ [crc32c x.requestFrame])
    else (t.1.draw, t.2.1, t.2.2 ++ [(Config.freeBits 32 t.1.fresh)])) (s, 0, [])

/-- A further matching lock cycle: the eighth in a row gains twin lock, or where it is held ends VERIFY (R328, R332). -/
def State.matched (s : State) : State :=
  let s := s.put Reg.PEER_STATUS_MATCH_RUN (min 8 (s.rd Reg.PEER_STATUS_MATCH_RUN + 1))
  if s.rd Reg.PEER_STATUS_MATCH_RUN ≠ 8 then s
  else if s.on Reg.PEER_STATUS_TWIN_LOCK then (if s.rd Reg.PEER_STATUS_RESYNC = 3 then s.resyncEnds true else s)
  else if !s.inShadow || s.on Reg.PEER_STATUS_ALIGNED then s.gainTwinLock
  else s

/-- The twin's FCRC is compared with this device's frame of the lock cycle that closed: FS170 once for the reaches that differ in one comparison
(R249, R327). -/
def State.compareFrames (s : State) (lock complete : Nat) (crcs : List Nat) : State :=
  let own (r : Nat) : Nat := (s.peer.crcs[r]?).getD 0
  let compared := s.peer.complete &&& complete
  let differ := (List.range 16).filter (fun r => compared.testBit r && own r != (crcs[r]?).getD 0)
  let mask := differ.foldl (fun m r => m + 2 ^ r) 0
  let s := s.put Reg.PEER_MISMATCH_COMPARED compared
  let s := (List.range 16).foldl (fun s r => s.put (Reg.PEER_CRC_CRC r) (own r)) s
  let s := if differ.isEmpty then s
    else ((s.inc Reg.PEER_MISMATCH_COUNT_COUNT differ.length).flag Reg.PEER_EVENT_MISMATCH).raise 170
  let s := s.put Reg.PEER_MISMATCH_DIFFER (s.rd Reg.PEER_MISMATCH_DIFFER ||| mask)
  let lasting := mask &&& s.peer.before != 0
  let s := if compared = 0 then s else s.setPeer { s.peer with before := mask }
  if compared ≠ 0 ∧ mask = 0 ∧ lock = s.peer.ownLock then s.matched
  else
    let s := s.put Reg.PEER_STATUS_MATCH_RUN 0
    if lasting then s.loseTwinLock else s

/-- A lock cycle without a comparison breaks the run of consecutive matches (R328). -/
def State.breakRun (s : State) : State := if s.peer.fcrc then s else s.put Reg.PEER_STATUS_MATCH_RUN 0

/-- What came from the twin before the first sluice since STOPPED belongs to no sluice of this run (R323, R326). -/
def State.forgetTwin (s : State) : State := s.breakRun.setPeer { s.peer with record := none, sealOk := none, fcrc := false }

/-- A sluice closes the time in which records of the sluice before it count: an active twin's record, and record and FCRC (R320, R328). -/
def State.judgeTwin (s : State) : State :=
  let p := s.peer
  let active := p.record.any (fun r => r.role == 2)
  let silent := if p.record.isSome && p.fcrc then 0 else min 2 (p.silent + 1)
  let noRecord := if active then 0 else min 2 (p.noRecord + 1)
  let s := s.breakRun.setPeer { p with record := none, sealOk := none, fcrc := false, silent := silent, noRecord := noRecord }
  let s := if noRecord = 2 then s.put Reg.PEER_STATUS_ALIGNED 0 else s
  if silent = 2 then s.loseTwinLock else s

/-! ## Echoes (R320, R321) -/

/-- The request of a lock cycle. -/
def State.echoRequest (s : State) : State :=
  if s.paired && s.linkUp .peer then
    let id := (s.peer.echoId + 1) % 256
    let s := s.setPeer { s.peer with echoId := id, echoAt := some s.seq.sluices }
    s.post .peer (OutPacket.plain 11 0 8 0 ([0#8] ++ leBytes id 1 ++ List.replicate 6 0#8))
  else s

/-- An ECHO's payload keeps its reserved bytes. -/
def echoOk (bs : List Byte) : Bool := bs.length = 8 && leAt bs 0 1 < 2 && leAt bs 2 2 = 0 && (leAt bs 0 1 = 1 || leAt bs 4 4 = 0)

/-- An ECHO lands: a request is answered with its turn-round time; an answer to the request of this lock cycle gives a round trip. Both
times are in 1/16 scan tick. -/
def State.echo (s : State) (bs : List Byte) (ticks : Nat) : State :=
  if leAt bs 0 1 = 0 then s.post .peer (OutPacket.plain 11 0 8 0 ([1#8] ++ leBytes (leAt bs 1 1) 1 ++ leBytes 0 2 ++ leBytes ticks 4))
  else if leAt bs 1 1 = s.peer.echoId ∧ s.peer.echoAt.any (fun n => decide (s.seq.sluices ≤ n + 1)) then
    let ls := s.peer.latencies ++ [ticks - leAt bs 4 4]
    let ls := ls.drop (ls.length - 8)
    let s := s.setPeer { s.peer with echoAt := none, latencies := ls }
    s.put Reg.PEER_LATENCY_VALUE (ls.foldl (· + ·) 0 / (2 * ls.length))
  else s

/-! ## The SLUICE record (R319, R320) -/

/-- The commit state as R319 digests it. -/
def State.commitDigest (s : State) (scene : Nat) : Nat :=
  let homes := (List.range 64).flatMap (fun h => match s.liveFor h with
    | some b => [BitVec.ofNat 8 h, BitVec.ofNat 8 b, BitVec.ofNat 8 (s.rd (Reg.BAS_BERTH_FMT_FORMAT b)), BitVec.ofNat 8 (s.rd (Reg.BAS_BERTH_FMT_RES b))]
    | none => [])
  crc32c (homes ++ leBytes (s.rd Reg.SYS_FLIGHT_STATUS_ACTIVE) 4 ++ leBytes scene 4 ++ leBytes (s.rd Reg.SEQ_LOCK_NUMBER_LOCK_NUMBER) 4)

/-- The time since the sluice tick began, in 1/16 scan tick. -/
def State.sinceTick (s : State) : Nat := (s.now - s.seq.opened) * (16 * fScan s.F s.S) / 1000000000

/-- This device's record. OFFSET: the record's SOP leaves as it is queued (DESIGN CHOICE: device time stands still while the peer link takes
it). -/
def State.sendRecord (s : State) (committed : Bool) (scene : Nat) : State :=
  if !s.paired || !s.peerSession then s
  else
    let flags := b2n committed + 2 * b2n (s.on Reg.PEER_STATUS_TWIN_LOCK) + 4 * b2n s.peer.ask
    let payload := leBytes (s.rd Reg.SEQ_LOCK_NUMBER_LOCK_NUMBER) 4 ++ leBytes (s.rd Reg.PEER_STATUS_ROLE) 1 ++ leBytes flags 1 ++ leBytes scene 1 ++
      leBytes (s.rd Reg.SYS_FLIGHT_STATUS_ACTIVE) 1 ++ leBytes (s.commitDigest scene) 4 ++ leBytes s.sinceTick 4 ++
      leBytes s.F 1 ++ leBytes s.S 1 ++ leBytes 0 2 ++ leBytes (s.rd Reg.SYS_EPOCH_EPOCH) 4 ++ leBytes 0 8
    State.postPeer (s.setPeer { s.peer with ask := false }) 7 payload

/-- The SEAL of a sluice. -/
def State.sendSeal (s : State) (m : HealthMap) : State :=
  if !s.paired || !s.peerSession then s
  else
    let s := s.postPeer 9 (leBytes (s.rd Reg.SEQ_LOCK_NUMBER_LOCK_NUMBER) 4 ++ leBytes (mapCrc m) 4 ++ leBytes s.peer.entries 4 ++ leBytes 0 4)
    s.setPeer { s.peer with entries := 0 }

/-- The FCRC of the lock cycle that closed. -/
def State.sendFcrc (s : State) : State :=
  if s.paired && s.peer.crcs.length == 16 then
    s.postPeer 10 (leBytes s.peer.ownLock 4 ++ leBytes s.peer.complete 2 ++ leBytes 0 2 ++ s.peer.crcs.flatMap (fun c => leBytes c 4))
  else s

def TwinRecord.ofBytes (b : List Byte) : TwinRecord :=
  let flags := leAt b 5 1
  { lock := leAt b 0 4, role := leAt b 4 1, committed := flags.testBit 0, twinLock := flags.testBit 1, resend := flags.testBit 2,
    scene := leAt b 6 1, slot := leAt b 7 1, digest := leAt b 8 4, offset := leAt b 12 4, f := leAt b 16 1, s := leAt b 17 1, epoch := leAt b 20 4 }

/-- 1/16 scan ticks as nanoseconds, toward 0. -/
def State.sixteenths (s : State) (n : Int) : Int := Int.tdiv (n * 1000000000) (16 * fScan s.F s.S : Nat)

/-- A record comes in: what it says is noted; in Shadow the active's record gives the phase (R320). -/
def State.takeRecord (s : State) (r : TwinRecord) (arrival : Int) : State :=
  let p := s.peer
  let s := s.setPeer { p with
    last := some r, record := some (p.record.getD r), twinAsks := p.twinAsks || r.resend, noRecord := if r.role = 2 then 0 else p.noRecord }
  let s := s.put Reg.PEER_STATUS_TWIN_ROLE (min 3 r.role)
  if !s.inShadow ∨ r.role ≠ 2 ∨ s.seq.state = .stopped then s
  else
    let phase := (r.offset : Int) + s.rd Reg.PEER_LATENCY_VALUE - arrival
    (s.put Reg.PEER_PHASE_VALUE (ofSigned 32 phase)).put Reg.PEER_STATUS_ALIGNED (b2n (decide (phase.natAbs ≤ 16)))

/-- The active's sluice is the target of a device in Shadow: judged, and the next sluice placed. -/
def State.steerByTwin (s : State) : State :=
  let phase := s.sixteenths (toSigned 32 (s.rd Reg.PEER_PHASE_VALUE))
  let s := { s with seq := { s.seq with target := some (((s.seq.opened : Int) - phase).toNat), holdLcs := 0 } }
  if s.seq.state = .free then (((s.setSync .acquire).condition 96 false).put Reg.SEQ_SYNC_PHASE_PHASE (ofSigned 32 phase)).reaim
  else (s.judgePhase phase).reaim

/-- In ALIGN a stopped sequencer places its first sluice on the active's next one (R332): a period after the active's sluice that the record
belongs to, whose SOP has just arrived. -/
def State.alignStart (s : State) (r : TwinRecord) : State :=
  if s.aligning && s.seq.state == .stopped && s.seq.next.isNone && s.on Reg.SEQ_CTRL_RUN && r.role == 2 then
    let t := ((s.now : Int) - s.sixteenths ((r.offset : Int) + s.rd Reg.PEER_LATENCY_VALUE)).toNat
    let next := some (t + s.period)
    { s with seq := { s.seq with target := next, pend := next, next := next } }
  else s

/-! ## Resynchronisation (R332, R333) -/

/-- One is in progress. -/
def State.resyncing (s : State) : Bool := let p := s.rd Reg.PEER_STATUS_RESYNC; p == 1 || p == 2 || p == 3

/-- A request of software. -/
def State.resyncRequest (s : State) : State := if s.resyncing then s else s.setPeer { s.peer with wanted := true }

/-- The conditions under which a resynchronisation fails at once; one on a device that is not in Shadow has no active to follow. -/
def State.resyncFails (s : State) : Bool :=
  !s.inShadow || s.rd (Reg.LNK_PARTNER_MEMBER 1) != 4 ||
  (match s.peer.last with
   | some r => r.role != 2 || r.f != s.F || r.s != s.S
   | none => true)

/-- The start at a sluice: by request, or after RESYNC_AFTER lock cycles UNLOCKED in Shadow. -/
def State.resyncAtSluice (s : State) : State :=
  if !s.paired then s.setPeer { s.peer with wanted := false }
  else
    let counts := s.inShadow && s.peerSession && !s.on Reg.PEER_STATUS_TWIN_LOCK && !s.resyncing
    let n := if counts then s.peer.unlockedLc + 1 else 0
    let start := !s.resyncing && (s.peer.wanted || (s.on Reg.PEER_CFG_AUTO_RESYNC && decide (s.rd Reg.PEER_CFG_RESYNC_AFTER ≤ n)))
    let v := s.peer.verifyLc + 1
    if start then
      let s := s.setPeer { s.peer with wanted := false, unlockedLc := 0, copyBytes := 0, copyCrc := 0xFFFFFFFF, copySlots := [], copyWharf := none, copyBerths := [] }
      let s := (s.put Reg.PEER_STATUS_RESYNC 1).put Reg.PEER_COPY_KIB_KIB 0
      if s.resyncFails then s.resyncEnds false else s
    else
      let s := s.setPeer { s.peer with unlockedLc := n, verifyLc := v }
      if s.rd Reg.PEER_STATUS_RESYNC = 3 ∧ s.rd Reg.PEER_CFG_VERIFY_LIMIT ≤ v then s.resyncEnds false else s

/-- The active takes up a copy for a standby that is not in twin lock. DESIGN CHOICE: the spec names no signal for sluice R, so a copy
begins with any such record while none is being sent; a twin takes part in it from its next SLOTS record. -/
def State.copyStart (s : State) (r : TwinRecord) : State :=
  if s.paired && s.rd Reg.PEER_STATUS_ROLE == 2 && r.role == 1 && !r.twinLock && s.peer.copyOut.isEmpty then
    s.setPeer { s.peer with copyOut := s.copySet, outBytes := 0, outCrc := 0xFFFFFFFF }
  else s

/-- Copy data for a berth that the copy has named lands in it (R333). -/
def State.copiesBerth (s : State) (addr n : Nat) : Bool :=
  addr % 16 = 0 && n % 16 = 0 &&
  s.peer.copyBerths.any (fun b => s.berthBase b ≤ addr && addr + n ≤ s.berthBase b + s.berthSize b)

/-- XFER: copy data lands where the copy set lies: in a berth it has named, or in the moorings and the glyph cache. A write elsewhere in the
pool is tested as R146 tests every write; beyond, nothing lands (R131, R132, R333). -/
def State.landXfer (s : State) (addr : Nat) (bs : List Byte) : State :=
  if addr + bs.length ≤ 0x1000000 then (if s.copiesBerth addr bs.length then s.basWrite addr bs else (s.poolWrite addr bs).1)
  else if 0x1000000 ≤ addr ∧ addr + bs.length ≤ 0x1E00000 then s.basWrite addr bs
  else s

/-- XFER (R333). -/
def State.takeXfer (s : State) (addr : Nat) (bs : List Byte) : State :=
  if s.rd Reg.PEER_STATUS_RESYNC ≠ 2 then s
  else
    let n := s.peer.copyBytes + bs.length
    let s := s.setPeer { s.peer with copyBytes := n, copyCrc := crc32cMore s.peer.copyCrc bs }
    (s.landXfer addr bs).put Reg.PEER_COPY_KIB_KIB (n / 1024)

/-- XCTL BERTH: the berth becomes as the active's. -/
def State.takeBerth (s : State) (bs : List Byte) : State :=
  let b : Fin 64 := Fin.ofNat 64 (leAt bs 4 1)
  let base := leAt bs 6 2
  let size := leAt bs 8 2
  if all64.any (fun o => o ≠ b && overlaps base size (s.rd (Reg.BAS_BERTH_PLACE_BASE o)) (s.rd (Reg.BAS_BERTH_PLACE_SIZE o))) then s.resyncEnds false
  else
    let state := match leAt bs 12 1 with
      | 2 => BerthState.ready
      | 3 => BerthState.live
      | _ => BerthState.retiring
    let s := (s.put (Reg.BAS_BERTH_PLACE_BASE b) base).put (Reg.BAS_BERTH_PLACE_SIZE b) size
    let s := (s.put (Reg.BAS_BERTH_FMT_FORMAT b) (leAt bs 10 1)).put (Reg.BAS_BERTH_FMT_RES b) (leAt bs 11 1)
    let s := s.setPeer { s.peer with copyBerths := insertSet b s.peer.copyBerths }
    let s := if state = .live then s.liveChanged (leAt bs 13 1 % 64) else s
    s.setBerth b { state := state, home := leAt bs 13 1 % 64, retireMark := false, covered := List.range (leAt bs 16 4), flagged := false }

/-- A berth of the standby's that the copy did not name becomes FREE. -/
def State.freeUncopied (s : State) : State :=
  all64.foldl (fun s b =>
    let x := s.berthAt b
    if s.peer.copyBerths.contains b.val || !x.state.copied then s
    else
      let s := if x.state = .live then s.liveChanged x.home else s
      s.setBerth b Berth.reset) s

/-- A slot holds what the copy brought into its mooring, under the FLIGHT_ID of the SLOTS record. -/
def State.copiedSlot (s : State) (i : Fin 3) : State :=
  let f := { parseFlight (s.bas.blob (FSlotBase i) 4194304) with id := leAt s.peer.copySlots (8 + 4 * i.val) 4 }
  let s := { s with
    seq := { s.seq with slots := s.seq.slots.set i (some f) }
    sec := { s.sec with digests := s.sec.digests.set i.castSucc (Config.sha256 (s.bas.bytes (FSlotBase i) (f.imageSize - 128))) } }
  s.meshScan i

/-- XCTL END: the copy checks, the session pair takes the copied sequences (R424), and VERIFY begins. -/
def State.copyEnds (s : State) (bs : List Byte) : State :=
  if leAt bs 4 4 = s.peer.copyBytes % 2 ^ 32 ∧ leAt bs 8 4 = s.peer.copyCrc ^^^ 0xFFFFFFFF then
    let s := s.freeUncopied
    let s := ([0, 1, 2] : List (Fin 3)).foldl (fun s i =>
      if leAt s.peer.copySlots (4 + i.val) 1 = 1 then s.copiedSlot i else s.invalidateSlot i) s
    let s := match s.peer.copyWharf with
      | some (c, q) => (((s.put (Reg.WHF_CMD_NEXT_SEQ 1) c).put (Reg.WHF_CMD_TAIL_SEQ 1) c).put (Reg.WHF_CPL_NEXT_SEQ 1) q).put (Reg.WHF_CPL_READ_SEQ 1) q
      | none => s
    State.put (s.libCopied.setPeer { s.peer with verifyLc := 0 }) Reg.PEER_STATUS_RESYNC 3
  else s.resyncEnds false

/-- An XCTL record of the copy. A SLOTS record begins it; an END without one belongs to a copy whose beginning this device did not take. -/
def State.takeXctl (s : State) (bs : List Byte) : State :=
  if s.rd Reg.PEER_STATUS_RESYNC ≠ 2 then s
  else match leAt bs 0 1 with
    | 1 =>
      let s := s.setPeer { s.peer with copySlots := bs, copyBytes := 0, copyCrc := 0xFFFFFFFF, copyBerths := [], copyWharf := none }
      ([0, 1, 2] : List (Fin 3)).foldl (fun s i => s.invalidateSlot i) s
    | 2 => s.takeBerth bs
    | 3 => s.setPeer { s.peer with copyWharf := some (leAt bs 4 4, leAt bs 8 4) }
    | 4 => if s.peer.copySlots.isEmpty then s else s.copyEnds bs
    | _ => s

end Sys2Proof.Machine
end

