-- ==== Sys2Proof/Machine/Safe.lean ====
section
/-!
DEFINITION. The safety block (R291-R308): input pairs, requests and the scene in force, telegrams on two channels, the towpath port, the
output tests, and the verification of the egress glyphs.
-/
namespace Sys2Proof.Machine

/-! ## Requests and scenes (R294-R296) -/

/-- SAF_IN_STATUS: STATE, A and B of pair n. -/
def inState (n : Nat) : Fld :=
  match n with
  | 0 => Reg.SAF_IN_STATUS_STATE0
  | 1 => Reg.SAF_IN_STATUS_STATE1
  | 2 => Reg.SAF_IN_STATUS_STATE2
  | _ => Reg.SAF_IN_STATUS_STATE3

def inLevelA (n : Nat) : Fld :=
  match n with
  | 0 => Reg.SAF_IN_STATUS_A0
  | 1 => Reg.SAF_IN_STATUS_A1
  | 2 => Reg.SAF_IN_STATUS_A2
  | _ => Reg.SAF_IN_STATUS_A3

def inLevelB (n : Nat) : Fld :=
  match n with
  | 0 => Reg.SAF_IN_STATUS_B0
  | 1 => Reg.SAF_IN_STATUS_B1
  | 2 => Reg.SAF_IN_STATUS_B2
  | _ => Reg.SAF_IN_STATUS_B3

/-- Pair n demands: after Boot, its MODE not OFF, in START, DEMAND, LATCHED or DISCREPANT (R294). -/
def State.demands (s : State) (n : Nat) : Bool :=
  s.mode.phase == .running && s.rd (Reg.SAF_IN_CFG_MODE n) != 0 && [0, 2, 3, 4].contains (s.rd (inState n))

/-- The demanding pairs. -/
def State.demanding (s : State) : List Nat := [0, 1, 2, 3].filter s.demands

/-- The telegram command in force is EGRESS; the telegram timeout holds. -/
def State.tgEgress (s : State) : Bool := s.rd Reg.SAF_TG_STATUS_COMMAND == 2
def State.tgTimeout (s : State) : Bool := s.on Reg.SAF_TG_STATUS_TIMED_OUT

/-- Egress is requested (R295). -/
def State.requested (s : State) : Bool := !s.demanding.isEmpty || s.tgEgress || s.tgTimeout

/-- The scene in force (R296). -/
def State.sceneNow (s : State) : Nat :=
  let ds := s.demanding
  if s.tgTimeout || ds.any (fun n => s.rd (Reg.SAF_IN_CFG_SCENE n) == 0) then 0
  else if s.tgEgress then s.rd Reg.SAF_TG_STATUS_SCENE
  else match ds with
    | n :: _ => s.rd (Reg.SAF_IN_CFG_SCENE n)
    | [] => s.rd Reg.SAF_EGRESS_SCENE

/-- SAF_EGRESS follows its causes; a change of the scene in force lands a write of 1 to COMMIT. -/
def State.noteEgress (s : State) : State :=
  let req := s.requested
  let scene := s.sceneNow
  let old := s.rd Reg.SAF_EGRESS_SCENE
  let changed := s.on Reg.SAF_EGRESS_REQUESTED != req || old != scene
  let s := ((s.put Reg.SAF_EGRESS_INPUTS (s.demanding.foldl (fun m n => m + 2 ^ n) 0)).put Reg.SAF_EGRESS_TELEGRAM (b2n s.tgEgress)).put
    Reg.SAF_EGRESS_TIMEOUT (b2n s.tgTimeout)
  let s := (s.put Reg.SAF_EGRESS_REQUESTED (b2n req)).put Reg.SAF_EGRESS_SCENE scene
  let s := if changed then s.flag Reg.SAF_EVENT_EGRESS else s
  let s := if req then { s with mode := { s.mode with quiet := false } } else s
  if old = scene then s else s.setCommit

/-! ## Input pairs (R291-R293) -/

/-- The pattern of levels in a mode (R292). -/
def patternOf (mode : Nat) (a b : Bool) : Pattern :=
  if mode = 2 then (if a && !b then .normal else if !a && b then .demand else .discrepant)
  else if a && b then .normal
  else if !a && !b then .demand
  else .discrepant

/-- A pair's state becomes v; an entry into DEMAND sets SAF_EVENT.DEMAND; FS064 + n is live in DISCREPANT. -/
def State.setPair (s : State) (n v : Nat) : State :=
  let entry := v == 2 && s.rd (inState n) != 2
  let s := s.put (inState n) v
  let s := if entry then s.flag Reg.SAF_EVENT_DEMAND else s
  s.condition (64 + n) (v == 4)

/-- The next state of a pair on a normal or a demand pattern (R293): 0 START, 1 NORMAL, 2 DEMAND, 3 LATCHED, 4 DISCREPANT. -/
def pairNext (st : Nat) (latch : Bool) (p : Pattern) : Nat :=
  match p with
  | .discrepant => st
  | .demand => 2
  | .normal => if st = 0 then 1 else if st = 2 then (if latch then 3 else 1) else st

/-- A channel of an OSSD pair counts as low once it has read low for more than 1 ms: from the twelfth sample in a row on (R291; DEDUCED: of 11
samples the first and the last are 1 ms apart). -/
def ossdHigh (lows : Nat) : Bool := decide (lows < 12)

/-- A pattern of a pair is recognised at levels a and b; a discrepant one has been held since a time (R293). -/
def State.recognised (s : State) (n : Fin 4) (a b : Bool) (since : Nat) : State :=
  let s := (s.put (inLevelA n) (b2n a)).put (inLevelB n) (b2n b)
  let mode := s.rd (Reg.SAF_IN_CFG_MODE n)
  if mode = 0 then s
  else
    let p := patternOf mode a b
    let held := match p, s.saf.discrepant[n] with
      | .discrepant, none => some since
      | .discrepant, t => t
      | _, _ => none
    let s := s.setSaf { s.saf with pattern := s.saf.pattern.set n (some p), discrepant := s.saf.discrepant.set n held }
    (s.setPair n (pairNext (s.rd (inState n)) (s.on (Reg.SAF_IN_CFG_LATCH n)) p)).noteEgress

/-- A sample of a pair (R291). Three samples in a row that agree (DEDUCED: in the levels of both channels) are a pattern; the first sample that
is not discrepant ends the time of a discrepancy (R293). -/
def State.safetyPattern (s : State) (n : Fin 4) (a b : Bool) : State :=
  if s.mode.phase ≠ .running then s
  else
    let mode := s.rd (Reg.SAF_IN_CFG_MODE n)
    let lowA := if a then 0 else (s.saf.lows[n]).1 + 1
    let lowB := if b then 0 else (s.saf.lows[n]).2 + 1
    let a := if mode = 3 then ossdHigh lowA else a
    let b := if mode = 3 then ossdHigh lowB else b
    let three := ((s.now, a, b) :: s.saf.samples[n]).take 3
    let broken := patternOf mode a b ≠ .discrepant
    let s := s.setSaf { s.saf with
      samples := s.saf.samples.set n three, lows := s.saf.lows.set n (lowA, lowB)
      discrepant := if broken then s.saf.discrepant.set n none else s.saf.discrepant }
    match three with
    | [_, y, z] => if y.2 = (a, b) ∧ z.2 = (a, b) then s.recognised n a b z.1 else s
    | _ => s

/-- A discrepant pattern has been held for DISC_MS. -/
def State.discrepancy (s : State) (n : Fin 4) : State :=
  if s.mode.phase ≠ .running ∨ s.rd (Reg.SAF_IN_CFG_MODE n) = 0 ∨ s.saf.discrepant[n] = none then s
  else (s.setPair n 4).noteEgress

/-- SAF_CMD.REARM of pair n: a LATCHED pair with a normal pattern returns to NORMAL. -/
def State.rearmPair (s : State) (n : Fin 4) : State :=
  if s.rd (inState n) = 3 ∧ s.saf.pattern[n] = some .normal then (s.setPair n 1).noteEgress else s

def State.rearm (s : State) (mask : Nat) : State :=
  ([0, 1, 2, 3] : List (Fin 4)).foldl (fun s n => if mask.testBit n.val then s.rearmPair n else s) s

/-- The pairs at the end of Boot: START, or OFF (R293). -/
def State.startPairs (s : State) : State :=
  let s := [0, 1, 2, 3].foldl (fun s n => s.put (inState n) (if s.rd (Reg.SAF_IN_CFG_MODE n) = 0 then 5 else 0)) s
  s.noteEgress

/-! ## Telegrams (R303-R305) -/

/-- A rejected copy or pair: channel, reason, ALIVE and source. -/
def State.tgReject (s : State) (channel reason alive source : Nat) : State :=
  let s := ((s.put Reg.SAF_TG_REJECT_VALID 1).put Reg.SAF_TG_REJECT_CHANNEL channel).put Reg.SAF_TG_REJECT_REASON reason
  let s := ((s.put Reg.SAF_TG_REJECT_ALIVE alive).inc Reg.SAF_TG_REJECTED_COUNT).flag Reg.SAF_EVENT_TG_REJECT
  s.raise source

/-- ALIVE of a telegram. -/
def tgAlive (t : List Byte) : Nat := leAt t 2 2

/-- Check 1 of R304. -/
def tgFormat (t : List Byte) : Bool :=
  let cmd := leAt t 4 1
  t.length = 32 && leAt t 6 2 = 0 && leAt t 14 2 = 0 && leAt t 28 4 = 0 && (1 ≤ cmd && cmd ≤ 3) && (cmd = 2 || leAt t 5 1 = 0) && leAt t 12 2 ≠ 0

/-- The reason and source of a copy that fails a check of R304; none for one that passes. -/
def State.tgCheck (s : State) (t : List Byte) : Option (Nat × Nat) :=
  if !tgFormat t then some (1, 74)
  else if crc32c (t.take 16) ≠ leAt t 16 4 then some (2, 74)
  else if s.sec.engineOff || s.sec.tgKey.all (fun k => (Config.cmac k (t.take 20)).take 8 ≠ (t.drop 20).take 8) then some (3, 73)
  else if leAt t 0 2 ≠ s.rd Reg.SAF_TG_CFG_SOURCE then some (4, 73)
  else none

/-- SYS_TIME in ms is inside the validity of a telegram. -/
def State.tgValid (s : State) (t : List Byte) : Bool :=
  let ms := s.clk.read s.now / 1000000
  let from_ : Int := (leAt t 8 4 : Int) - s.rd Reg.SAF_TG_CFG_SKEW_MS
  decide ((ms - from_) % 4294967296 ≤ (s.rd Reg.SAF_TG_CFG_SKEW_MS + leAt t 12 2 : Nat))

/-- A pair is accepted and acts. -/
def State.tgAccept (s : State) (t : List Byte) : State :=
  let s := ((s.put Reg.SAF_TG_STATUS_SYNCED 1).put Reg.SAF_TG_STATUS_ALIVE (tgAlive t)).inc Reg.SAF_TG_ACCEPTED_COUNT
  let s := (s.put Reg.SAF_TG_STATUS_TIMED_OUT 0).condition 76 false
  let s := match leAt t 4 1 with
    | 1 => (s.put Reg.SAF_TG_STATUS_COMMAND 1).put Reg.SAF_TG_STATUS_SCENE 0
    | 2 => (s.put Reg.SAF_TG_STATUS_COMMAND 2).put Reg.SAF_TG_STATUS_SCENE (leAt t 5 1)
    | _ => s
  s.noteEgress

/-- A pair: validity, then the alive counter. -/
def State.tgPair (s : State) (t : List Byte) : State :=
  let d := (tgAlive t + 65536 - s.rd Reg.SAF_TG_STATUS_ALIVE) % 65536
  if !s.tgValid t then s.tgReject 2 7 (tgAlive t) 77
  else if !s.on Reg.SAF_TG_STATUS_SYNCED || d == 1 then s.tgAccept t
  else if d = 0 then s.tgReject 2 8 (tgAlive t) 70
  else if d < 32768 then (s.raise 72).tgAccept t
  else s.tgReject 2 9 (tgAlive t) 71

/-- The copy held for a channel (false A, true B). -/
def State.tgHeld (s : State) (b : Bool) : Option (Nat × List Byte) := if b then s.saf.copyB else s.saf.copyA

def State.setHeld (s : State) (b : Bool) (c : Option (Nat × List Byte)) : State :=
  if b then s.setSaf { s.saf with copyB := c } else s.setSaf { s.saf with copyA := c }

/-- A held copy is discarded as unmatched. -/
def State.tgUnmatched (s : State) (b : Bool) : State :=
  match s.tgHeld b with
  | none => s
  | some c => (s.setHeld b none).tgReject (b2n b) 6 (tgAlive c.2) 75

/-- Two held copies are compared. -/
def State.tgMatch (s : State) : State :=
  match s.saf.copyA, s.saf.copyB with
  | some a, some b =>
    let s := s.setSaf { s.saf with copyA := none, copyB := none }
    if a.2 = b.2 then s.tgPair a.2 else s.tgReject 2 5 (tgAlive b.2) 75
  | _, _ => s

/-- A telegram copy on a channel. -/
def State.tgCopy (s : State) (b : Bool) (t : List Byte) : State :=
  if !s.on Reg.SAF_TG_CFG_EN then s
  else match s.tgCheck t with
    | some (reason, source) => s.tgReject (b2n b) reason (tgAlive t) source
    | none => State.tgMatch ((s.tgUnmatched b).setHeld b (some (s.now, t)))

/-- The telegram timeout begins to hold (R305). -/
def State.tgTimesOut (s : State) : State :=
  if !s.on Reg.SAF_TG_CFG_EN || s.tgTimeout || s.mode.phase != .running then s
  else ((s.put Reg.SAF_TG_STATUS_TIMED_OUT 1).condition 76 true).noteEgress

/-! ## Towpath (R306-R308) -/

/-- A bad frame: FS078. -/
def State.towpathError (s : State) : State := (s.inc Reg.SAF_TOWP_ERRORS_COUNT).raise 78

/-- A frame on the towpath after its bytes 0x55 and 0xD5 (R307): TYPE, LEN, the payload, and the CRC most significant byte first. -/
def towpathBody (type : Nat) (payload : List Byte) : List Byte :=
  let body := leBytes type 1 ++ leBytes payload.length 1 ++ payload
  body ++ (leBytes (crc16 body) 2).reverse

/-- A whole frame. -/
def towpathFrame (type : Nat) (payload : List Byte) : List Byte := [0x55#8, 0xD5#8] ++ towpathBody type payload

/-- The TYPE and payload of a frame received, `whole` where no stop bit was low and no gap came; none for one that is discarded (R307). -/
def towpathOpen (whole : Bool) (frame : List Byte) : Option (Nat × List Byte) :=
  let type := leAt frame 0 1
  let payload := (frame.drop 2).take (frame.length - 4)
  if whole && (type = 1 && payload.length = 32 || type = 3 && payload.length = 2) && frame = towpathBody type payload then some (type, payload)
  else none

/-- A frame arrives: the payload of a TELEGRAM is a record of POINT 3 and a copy for channel B; with REPLY set, a POLL that names the device is
answered; any other frame raises FS078. -/
def State.towpathReceive (s : State) (whole : Bool) (frame : List Byte) : State :=
  if s.mode.phase ≠ .running then s
  else
    match towpathOpen whole frame with
    | none => s.towpathError
    | some (1, t) => (s.chkSnoop 3 0 t).tgCopy true t
    | some (_, d) =>
      if s.on Reg.SAF_TOWP_CFG_REPLY && leAt d 0 2 == s.rd (Reg.LNK_CFG_DEVNUM 0) then s.setSaf { s.saf with reply := some (s.now, []) } else s

/-- The STATUS payload. -/
def State.statusPayload (s : State) : List Byte :=
  let e := s.storedWord 0xA038
  leBytes (s.rd (Reg.LNK_CFG_DEVNUM 0)) 2 ++ leBytes (s.rd Reg.SAF_OUT_SOUT0 + 2 * s.rd Reg.SAF_OUT_SOUT1) 1 ++
  leBytes (s.rd Reg.SAF_EGRESS_SCENE) 1 ++ leBytes (s.rd Reg.SAF_TG_STATUS_ALIVE) 2 ++ leBytes e 1 ++ leBytes (e / 256) 1 ++
  leBytes (s.rd Reg.SYS_EPOCH_EPOCH) 4 ++ List.replicate 4 0#8

/-- The answer to a poll is sent. -/
def State.towpathStatus (s : State) : State :=
  match s.saf.reply with
  | none => s
  | some _ => s.setSaf { s.saf with reply := none, lastReply := towpathFrame 2 s.statusPayload }

/-! ## Output tests (R301, R302) -/

/-- An output whose tests may resume: the turn is that of the channel that was next due (R302; DEDUCED: of two outputs the lower takes this
turn). -/
def State.resumeTests (s : State) : State :=
  match ([0, 1] : List (Fin 2)).find? (fun o => (s.saf.resumeAt[o]).any (· ≤ s.now)) with
  | none => s
  | some o =>
    State.notePaused (s.setSaf { s.saf with
      nextTest := (s.saf.paused[o]).getD s.saf.nextTest, paused := s.saf.paused.set o none, resumeAt := s.saf.resumeAt.set o none })

/-- The turn of a channel comes: A0, B0, A1, B1. A channel driven low, or whose output's tests pause, is not tested. -/
def State.testPulse (s : State) : State :=
  if !s.on Reg.SAF_OUT_PULSE_EN || s.saf.testing.isSome || s.mode.phase != .running then s
  else
    let s := s.resumeTests
    let c := s.saf.nextTest
    let s := s.setSaf { s.saf with nextTest := (c + 1) % 4 }
    if !s.on (soutFld (c / 2)) || (s.saf.paused[Fin.ofNat 2 (c / 2)]).isSome then s
    else
      let s := s.setSaf { s.saf with testing := some c }
      (s.put Reg.SAF_OUT_TESTING 1).putBit Reg.SAF_OUT_READBACK c false

/-- The pulse ends: the tested channel read low in it and high after it, the other channels their driven levels. One whose output has
fallen meanwhile stays low. -/
def State.testEnd (s : State) (low high others : Bool) : State :=
  match s.saf.testing with
  | none => s
  | some c =>
    let up := s.on (soutFld (c / 2))
    let s := (s.setSaf { s.saf with testing := none }).put Reg.SAF_OUT_TESTING 0
    let s := s.putBit Reg.SAF_OUT_READBACK c (up && high)
    if low && others && (high || !up) then s else s.failOut (c / 2)

/-- Two consecutive samples of the four channels: a channel not under test that differs from its driven level in both is in error. -/
def State.readback (s : State) (first second : Nat) : State :=
  let s := s.put Reg.SAF_OUT_READBACK second
  let wrong (c : Nat) : Bool :=
    let d := s.on (soutFld (c / 2))
    s.saf.testing != some c && first.testBit c != d && second.testBit c != d
  let bad := [0, 1].filter (fun o => (wrong (2 * o) || wrong (2 * o + 1)) && !s.on (failFld o))
  bad.foldl (fun s o => s.failOut o) s

/-! ## Verification of the egress glyphs (R300) -/

/-- A staged header: its flags, its shares, its box. -/
structure HeaderBox where
  n : Nat
  flags : Nat
  warm : Bool
  cool : Bool
  x0 : Int
  y0 : Int
  x1 : Int
  y1 : Int
deriving DecidableEq, Repr

def HeaderBox.ofBytes (bs : List Byte) : HeaderBox :=
  { n := leAt bs 28 1, flags := leAt bs 29 1, warm := leAt bs 34 2 != 0, cool := leAt bs 36 2 != 0,
    x0 := toSigned 16 (leAt bs 38 2), y0 := toSigned 16 (leAt bs 40 2), x1 := toSigned 16 (leAt bs 42 2), y1 := toSigned 16 (leAt bs 44 2) }

/-- The box lies wholly inside the array. -/
def HeaderBox.inside (h : HeaderBox) : Bool := decide (0 ≤ h.x0 ∧ 0 ≤ h.y0 ∧ h.x1 ≤ 1023 ∧ h.y1 ≤ 1023 ∧ h.x0 ≤ h.x1 ∧ h.y0 ≤ h.y1)

/-- A header is fit to be shown under a map. -/
def HeaderBox.fit (h : HeaderBox) (m : HealthMap) : Bool :=
  !(h.flags.testBit 3) && !(h.flags.testBit 4) && h.inside &&
  (List.range (h.y1 + 1 - h.y0).toNat).all (fun j => (List.range (h.x1 + 1 - h.x0).toNat).all (fun i =>
    let x := h.x0.toNat + i
    let y := h.y0.toNat + j
    !(h.warm && marked m x y 0) && !(h.cool && marked m x y 1)))

/-- Header line 0 or 13 of slot frame j of the egress set. -/
def State.egressHeader (s : State) (j line : Nat) : HeaderBox :=
  HeaderBox.ofBytes (s.bas.bytes (0x1C00000 + 0x198000 + j * 1664 + line * 64) 64)

/-- The egress glyphs are verified as staged, under the pair map in force. -/
def State.glyphsVerified (s : State) : Bool :=
  let drawn := (List.range 256).filter (fun j => (s.egressHeader j 0).flags % 4 == 3)
  s.on Reg.GLY_STAGE_EGRESS_SOURCE_VALID && !drawn.isEmpty &&
  drawn.all (fun j => (s.egressHeader j 0).fit s.pairMap || (s.egressHeader j 13).fit s.pairMap)

/-- At a sluice the last check takes effect, and the new set is checked under the new map. -/
def State.verifyGlyphs (s : State) : State := s.setSaf { s.saf with verified := s.saf.checked, checked := s.glyphsVerified }

/-- The safety block at a sluice: which outputs may rise at the first display scan; `shown` whether the front banks hold frames of the egress
flight. -/
def State.safetySluice (s : State) (shown : Bool) : State :=
  let s := State.noteVerified (s.verifyGlyphs.setSaf { s.verifyGlyphs.saf with egressShown := shown })
  s.setSaf { s.saf with rise := b2n (s.outHolds 0) + 2 * b2n (s.outHolds 1) }

end Sys2Proof.Machine
end

