-- ==== Sys2Proof/Machine/Thermal.lean ====
section
/-!
DEFINITION. The thermal model (R231-R242): its heat inputs, the update, sensor samples and their check, limits and throttling, temperature
bands, and the write windows. Temperatures are in 2⁻¹² K, outputs and readings in 1/16 °C.
-/
namespace Sys2Proof.Machine

def State.setThm (s : State) (t : Thermal) : State := { s with thm := t }

/-- z / n rounded to nearest, ties up. -/
def roundDiv (z : Int) (n : Nat) : Int := Int.ediv (2 * z + n) ((2 * n : Nat) : Int)

/-- Element i of a list of integers, 0 beyond its end. -/
def intAt (l : List Int) (i : Nat) : Int := (l[i]?).getD 0

def signedReg (s : State) (f : Fld) : Int := toSigned f.w (s.rd f)

/-! ## Heat (R232) -/

/-- The sums of p' × k over the 64 tiles of a reach's front bank: node row 0 or 1 of the reach, then node column. -/
def tileSums (b : Bank) (factor : Nat) : Array Nat :=
  b.words.foldl (fun (a : Array Nat) c =>
    let row := c.1 / 2048
    let tile := row / 32 * 32 + c.1 % 2048 / 2 / 32
    a.modify tile (· + wordP c.2.toNat * factor / 1024 * wordK c.2.toNat)) (Array.replicate 64 0)

/-- The mean current of a reach over the lock cycle, µA: as sensed, or for a stale reach computed from the sum of its held bank. -/
def State.reachMicroamps (s : State) (r : ReachId) (ua ds : Nat) : Nat :=
  if s.bitOf Reg.DRV_STALE_STALE r then ds * s.actv Reg.WEIR_ILSB_NA * s.S / (67584 * (s.S + 1) * 1000) else ua

/-- The heat of the 64 nodes of a reach, µW: 0 where it was not lit or its sum is 0. -/
def State.reachHeat (s : State) (r : ReachId) (ua : Nat) : List Nat :=
  let sums := tileSums (s.reachAt r).front (s.rd Reg.WEIR_STATE_FACTOR)
  let ds := sums.foldl (· + ·) 0
  let power := s.reachMicroamps r ua ds * s.diag.vled / 1000
  sums.toList.map (fun t =>
    if s.trim.lit.contains r.val && ds != 0 then power * t / ds * (65536 - s.rd Reg.THM_COEF1_ETA) / 65536 else 0)

/-- What a reach's sense path read. -/
def currentOf (currents : List ReachCurrent) (r : ReachId) : ReachCurrent := (currents[r.val]?).getD { microamps := 0, milliamps := 0 }

/-- The measured power of the closing lock cycle, mW (R190): the mean current over the lock cycle, which is that over its display scans
scaled by S / (S + 1), by the mean VLED of its display scans. A stale reach contributes the current computed from its held bank, where it was
lit. DESIGN CHOICE: rounded down (R190 gives an accuracy, no rounding). -/
def State.measuredPower (s : State) (currents : List ReachCurrent) : Nat :=
  let ua := all16.foldl (fun (n : Nat) (r : ReachId) =>
    let lit := s.trim.lit.contains r.val || !s.bitOf Reg.DRV_STALE_STALE r
    let ds := (tileSums (s.reachAt r).front (s.rd Reg.WEIR_STATE_FACTOR)).foldl (· + ·) 0
    if lit then n + s.reachMicroamps r (currentOf currents r).microamps ds else n) 0
  ua * (s.diag.vledSum / max 1 s.diag.vledN) / 1000000

/-- The inputs of the update in the coming slack scan, from the lock cycle that a sluice closes; DRV_REACH_I, with the band in use, keeps its
value while stale (R215). -/
def State.takeHeat (s : State) (currents : List ReachCurrent) : State :=
  let cur := currentOf currents
  let heat := all16.flatMap (fun r => s.reachHeat r (cur r).microamps)
  let s := s.setThm { s.thm with heat := heat, length := s.now - s.seq.opened, updated := false }
  all16.foldl (fun s (r : ReachId) =>
    if s.bitOf Reg.DRV_STALE_STALE r then s
    else (s.put (Reg.DRV_REACH_I_MA r) (cur r).milliamps).put (Reg.DRV_REACH_I_BAND r) (s.rd (Reg.THM_REACH_BAND r))) s

/-! ## The model (R231, R233, R234) -/

/-- The node under an array sensor. -/
def sensorNode (m : Nat) : Nat :=
  let at_ (i : Nat) : Nat := if i = 0 then 5 else if i = 1 then 16 else 26
  at_ (m / 3) * 32 + at_ (m % 3)

/-- Σ (t[n] − t[m]) over the neighbours of node n. -/
def latDiff (t : Array Int) (n : Nat) : Int :=
  let here := t.getD n 0
  let d (ok : Bool) (m : Nat) : Int := if ok then here - t.getD m 0 else 0
  d (n % 32 ≠ 0) (n - 1) + d (n % 32 ≠ 31) (n + 1) + d (32 ≤ n) (n - 32) + d (n < 992) (n + 32)

/-- One substep: q is in 2⁻¹² µW; the change is rounded to nearest. -/
def State.substep (s : State) (len : Nat) (m : Array Int × List Int) : Array Int × List Int :=
  let (t, pk) := m
  let p (i : Nat) : Int := intAt pk i
  let gv : Int := s.rd Reg.THM_COEF1_G_V
  let glat : Int := s.rd Reg.THM_COEF0_G_LAT
  let g01 : Int := 1000 * s.rd Reg.THM_COEF4_G_01
  let g12 : Int := 1000 * s.rd Reg.THM_COEF4_G_12
  let g23 : Int := 1000 * s.rd Reg.THM_COEF5_G_23
  let gc : Int := 1000 * s.rd Reg.THM_COEF5_G_CASE
  let heat := s.thm.heat.toArray
  let logic : Int := 4000 * s.rd Reg.THM_COEF6_P_LOGIC
  let move (q : Int) (c : Nat) : Int := roundDiv (q * len) (8000000000 * c)
  let sum := t.foldl (fun a x => a + (x - p 0)) 0
  let t' := (Array.range 1024).map (fun n =>
    let q := 4096 * (heat.getD n 0 : Int) + logic - glat * latDiff t n - gv * (t.getD n 0 - p 0)
    t.getD n 0 + move q (s.rd Reg.THM_COEF0_C_NODE))
  let sink := 256 * signedReg s Reg.THM_SINK_T_SINK
  let pk' := [
    p 0 + move (gv * sum - g01 * (p 0 - p 1)) (1000 * s.rd Reg.THM_COEF2_C_P0),
    p 1 + move (g01 * (p 0 - p 1) - g12 * (p 1 - p 2)) (1000 * s.rd Reg.THM_COEF2_C_P1),
    p 2 + move (g12 * (p 1 - p 2) - g23 * (p 2 - p 3)) (1000 * s.rd Reg.THM_COEF3_C_P2),
    p 3 + move (g23 * (p 2 - p 3) - gc * (p 3 - sink)) (1000 * s.rd Reg.THM_COEF3_C_P3)]
  (t', pk')

/-- A capacitance of the model is 0: the spec gives no temperatures then. -/
def State.noCapacity (s : State) : Bool :=
  [Reg.THM_COEF0_C_NODE, Reg.THM_COEF2_C_P0, Reg.THM_COEF2_C_P1, Reg.THM_COEF3_C_P2, Reg.THM_COEF3_C_P3].any (fun f => s.rd f = 0)

/-- n free temperatures, signed 32 bits wide. -/
def freeTemps (draw n : Nat) : List Int := (List.range n).map (fun i => toSigned 32 (Config.freeBits (32 * n) draw / 2 ^ (32 * i)))

/-- The eight substeps. -/
def State.runModel (s : State) : State :=
  if s.noCapacity then
    let s' := s.draw
    s'.setThm { s.thm with t := freeTemps s.fresh 1024, pk := freeTemps s'.fresh 4 } |>.draw
  else
    let (t, pk) := (List.range 8).foldl (fun m _ => s.substep s.thm.length m) (s.thm.t.toArray, s.thm.pk)
    s.setThm { s.thm with t := t.toList, pk := pk }

/-- Sensor m is lost; its substitute is in use. -/
def State.sensorLost (s : State) (m : Nat) : Bool := s.bitOf Reg.THM_SENSOR_FAIL_LOST m
def State.sensorSubst (s : State) (m : Nat) : Bool := s.bitOf Reg.THM_SENSOR_FAIL_SUBST m

/-- The bias that a sensor's region takes: 5 K more while its substitute is in use (R236). -/
def State.biasOf (s : State) (m : Nat) : Int := intAt s.thm.bias m + (if s.sensorSubst m then 20480 else 0)

/-- The span of the bias grid that holds a node row or column: its lower sensor index, its width, and the distance into it. -/
def biasSpan (i : Nat) : Nat × Nat × Nat :=
  let c := clampNat 5 26 i
  if c < 16 then (0, 11, c - 5) else (1, 10, c - 16)

/-- The output of node (i, j): t + b, with b interpolated between the sensors; rounded down to 1/16 °C. -/
def State.outputOf (s : State) (n : Nat) (t : Int) : Int :=
  let (ci, wi, di) := biasSpan (n % 32)
  let (cj, wj, dj) := biasSpan (n / 32)
  let b (x y : Nat) : Int := s.biasOf (3 * (cj + y) + ci + x)
  let sum : Int := ((wi - di : Nat) : Int) * ((wj - dj : Nat) : Int) * b 0 0 + (di : Int) * ((wj - dj : Nat) : Int) * b 1 0 +
    ((wi - di : Nat) : Int) * (dj : Int) * b 0 1 + (di : Int) * (dj : Int) * b 1 1
  Int.ediv (t * ((wi * wj : Nat) : Int) + sum) ((256 * wi * wj : Nat) : Int)

/-- The mean of the valid array-sensor readings, 1/16 °C; a free value where there is none. -/
def State.arrayMean (s : State) : State × Int :=
  let valid := (List.range 9).filter (fun m => !s.sensorLost m && s.thm.sampled.contains m)
  if valid.isEmpty then (s.draw, toSigned 16 (Config.freeBits 16 s.fresh))
  else (s, Int.ediv ((valid.map (intAt s.thm.readings)).foldl (· + ·) 0) valid.length)

/-- The first update after chip reset: every node at the mean reading, biases 0. -/
def State.startModel (s : State) : State :=
  if s.thm.started then s
  else
    let (s, mean) := s.arrayMean
    s.setThm { s.thm with started := true, t := List.replicate 1024 (256 * mean), pk := List.replicate 4 (256 * mean), bias := List.replicate 9 0 }

/-! ## Rates, excess and the fast rate (R235, R237) -/

/-- The greatest of a list and its first place. -/
def maxAt (l : List Int) : Int × Nat :=
  match l with
  | [] => (0, 0)
  | x :: _ =>
    let m := l.foldl max x
    (m, l.findIdx (· = m))

/-- A snapshot at the first update on or after each multiple of 125 ms of SYS_TIME; the last 8 are kept. -/
def State.snapshot (s : State) : State :=
  let k := s.sysTime / 125000000
  if s.thm.snapDue ≤ k then
    let l := s.thm.snaps ++ [(s.sysTime, s.thm.outs)]
    s.setThm { s.thm with snaps := l.drop (l.length - 8), snapDue := k + 1 }
  else s

/-- The time since the oldest snapshot, and the rises of the outputs since then. -/
def State.rises (s : State) : Nat × List Int :=
  match s.thm.snaps with
  | [] => (0, s.thm.outs.map (fun _ => 0))
  | (t, old) :: _ => (s.sysTime - t, (s.thm.outs.zip old).map (fun p => p.1 - p.2))

/-- A node rises faster than RATE_LIMIT / k. -/
def State.rateOver (s : State) (k : Nat) : Bool :=
  let (dt, rise) := s.rises
  rise.any (fun d => decide ((s.rd Reg.THM_CFG_RATE_LIMIT : Int) * dt < d * 1000000000 * k))

/-- Rates in 1/16 K/s, rounded down; 0 where no time has passed. -/
def State.noteRates (s : State) : State :=
  let (dt, rise) := s.rises
  let rates := if dt = 0 then rise.map (fun _ => 0) else rise.map (fun d => Int.ediv (d * 1000000000) dt)
  let s := s.setThm { s.thm with rates := rates, rising := s.rateOver 2 }
  let hot := maxAt s.thm.outs
  let fast := maxAt rates
  let s := (s.put Reg.THM_HOT_VALUE (ofSigned 16 hot.1)).put Reg.THM_HOT_NODE hot.2
  (s.put Reg.THM_RATE_VALUE (ofSigned 16 (clampInt (-32768) 32767 fast.1))).put Reg.THM_RATE_NODE fast.2

/-- The excess of an update, which ends a relaxation (R237, R239). -/
def State.noteExcess (s : State) : State :=
  let ex := s.rateOver 1 || s.thm.outs.any (fun o => decide ((16 * s.rd Reg.THM_CFG_SOFT_C : Nat) ≤ o))
  let s := s.setThm { s.thm with excess := ex, clear := if ex then 0 else s.thm.clear + 1 }
  if ex then s.put Reg.THM_STATUS_RELAXING 0 else s

/-- The causes of the fast rate, and its end 1 s after the last of them. -/
def State.noteFast (s : State) : State :=
  let hold := s.thm.outs.any (fun o => decide (1680 ≤ o) || decide (((16 * s.rd Reg.THM_CFG_SOFT_C : Nat) : Int) - 80 ≤ o)) ||
    s.thm.readings.any (fun x => decide (1680 ≤ x)) || s.thm.rising
  if hold then State.put (s.setThm { s.thm with fastUntil := 0 }) Reg.THM_STATUS_FAST 1
  else if !s.on Reg.THM_STATUS_FAST then s
  else if s.thm.fastUntil = 0 then s.setThm { s.thm with fastUntil := s.now + 1000000000 }
  else if s.thm.fastUntil ≤ s.now then s.put Reg.THM_STATUS_FAST 0
  else s

/-- 110 °C at an update or a sample (R240). -/
def State.noteLimit (s : State) : State :=
  if s.thm.outs.any (fun o => decide (1760 ≤ o)) || s.thm.readings.any (fun x => decide (1760 ≤ x)) then
    ((s.put Reg.THM_STATUS_LIMIT 1).enterSafeDark 1).condition 145 true
  else s

/-! ## Bands (R241) -/

/-- The boundaries of the bands, 1/16 °C. -/
def bandBounds : List Int := [160, 560, 960, 1280, 1520]

/-- The band that contains a temperature. -/
def bandFor (t : Int) : Nat := (bandBounds.filter (fun b => decide (b ≤ t))).length

/-- The target band: 2 K of hysteresis downward. -/
def bandTarget (b : Nat) (t : Int) : Nat :=
  let up := bandFor t
  let dn := bandFor (t + 32)
  if b < up then up else if dn < b then dn else b

/-- The outputs of a reach's nodes. -/
def State.reachOuts (s : State) (r : Nat) : List Int := (s.thm.outs.drop (64 * r)).take 64

/-- Target and dwell of a reach at an update; at a count of 16 the change is due at the next sluice. -/
def State.bandUpdate (s : State) (r : Nat) : State :=
  let outs := s.reachOuts r
  let t := (maxAt outs).1
  let mean := Int.ediv (outs.foldl (· + ·) 0) 64
  let b := s.rd (Reg.THM_REACH_BAND r)
  let target := bandTarget b t
  let dir : Int := if b < target then 1 else if target < b then -1 else 0
  let before := intAt s.thm.dirs r
  let n := if dir = 0 then 0 else if dir = before then s.rd (Reg.THM_REACH_DWELL r) + 1 else 1
  let dirs := (List.range 16).map (fun i => if i = r then dir else intAt s.thm.dirs i)
  let s := s.setThm { s.thm with dirs := dirs, due := if n = 16 then (r, target) :: s.thm.due.filter (fun d => d.1 ≠ r) else s.thm.due }
  let s := (s.put (Reg.THM_REACH_T_BAND r) (ofSigned 16 t)).put (Reg.THM_REACH_MEAN_MEAN r) (ofSigned 16 mean)
  (s.put (Reg.THM_REACH_TARGET r) target).put (Reg.THM_REACH_DWELL r) (if n = 16 then 0 else n)

/-- A reach takes a band. -/
def State.setBand (s : State) (r b : Nat) : State :=
  let changed := s.rd (Reg.THM_REACH_BAND r) ≠ b
  let s := s.put (Reg.THM_REACH_BAND r) b
  if changed then s.flag Reg.THM_EVENT_BAND else s

/-- Bands at a sluice: by the mean reading at the first one after chip reset, then those due. What the trim stage uses is latched. -/
def State.bandsAtSluice (s : State) : State :=
  let s :=
    if s.thm.bandsSet then (s.thm.due).foldl (fun s d => s.setBand d.1 d.2) s
    else
      let (s, mean) := s.arrayMean
      (List.range 16).foldl (fun s r => s.setBand r (bandFor mean)) (s.setThm { s.thm with bandsSet := true })
  let s := s.setThm { s.thm with due := [] }
  { s with trim := { s.trim with bands := (List.range 16).map (fun r => s.rd (Reg.THM_REACH_BAND r)), temps := s.thm.outs } }

/-! ## The update (R232, R233, R237) -/

/-- Substitutes come into use at an update while the thermal budget limits, for the rest of the epoch (R236). -/
def State.substitute (s : State) : State :=
  let s := if s.on Reg.THM_STATUS_THROTTLE then
      s.put Reg.THM_SENSOR_FAIL_SUBST (s.rd Reg.THM_SENSOR_FAIL_SUBST ||| s.rd Reg.THM_SENSOR_FAIL_LOST) else s
  let sub (m : Nat) : Int :=
    if m < 9 then Int.ediv (intAt s.thm.t (sensorNode m) + s.biasOf m) 256 else Int.ediv (intAt s.thm.pk 0 + 20480) 256
  let readings := (List.range s.thm.readings.length).map (fun m => if s.sensorSubst m then sub m else intAt s.thm.readings m)
  let s := s.setThm { s.thm with
    readings := readings, sampled := ((List.range readings.length).filter s.sensorSubst).foldl (fun l m => insertSet m l) s.thm.sampled }
  (List.range readings.length).foldl (fun s m =>
    if s.sensorSubst m then s.put (Reg.THM_SENSOR_READING m) (ofSigned 16 (intAt readings m)) else s) s

/-- The model updates, once in a lock cycle. -/
def State.thermalUpdate (s : State) : State :=
  if !s.cycling || s.thm.updated then s
  else
    let s := s.startModel.runModel.substitute
    let s := s.setThm { s.thm with updated := true, outs := (s.thm.t.zipIdx).map (fun p => s.outputOf p.2 p.1) }
    let s := s.snapshot.noteRates.noteExcess.noteFast
    let s := (List.range 16).foldl State.bandUpdate s
    s.calTemperature.noteLimit

/-! ## Samples (R234-R236, R242) -/

/-- The output that a sensor is compared with. -/
def State.sensorOut (s : State) (m : Nat) : Int :=
  if m < 9 then intAt s.thm.outs (sensorNode m) else Int.ediv (intAt s.thm.pk 0) 256

/-- A sample fails its check; before the model's start it has no output to be compared with. -/
def State.sampleFails (s : State) (m : Nat) (x : SensorSample) : Bool :=
  x.failed || (s.thm.started && decide (320 < (x.value.toInt - s.sensorOut m).natAbs))

/-- A sensor is lost for the rest of the epoch; during throttling the relax count restarts. -/
def State.loseSensor (s : State) (m : Nat) : State :=
  let s := (s.putBit Reg.THM_SENSOR_FAIL_LOST m true).flag Reg.THM_EVENT_SENSOR
  let s := if s.on Reg.THM_STATUS_THROTTLE then s.setThm { s.thm with clear := 0 } else s
  s.condition 147 true

/-- A bias that has been held at a bound for 1 s is noted once. -/
def State.noteBound (s : State) (m : Nat) (b : Int) : State :=
  if b.natAbs ≠ 32768 then
    s.setThm { s.thm with bound := s.thm.bound.filter (fun p => p.1 ≠ m), boundDone := s.thm.boundDone.filter (· ≠ m) }
  else
    match s.thm.bound.find? (fun p => p.1 = m) with
    | none => s.setThm { s.thm with bound := (m, s.now) :: s.thm.bound }
    | some p =>
      if p.2 + 1000000000 ≤ s.now ∧ !(s.thm.boundDone.contains m) then s.setThm { s.thm with boundDone := m :: s.thm.boundDone } else s

/-- A sensor takes a valid sample: its reading, and for an array sensor its bias. -/
def State.takeSample (s : State) (m : Nat) (v : Int) : State :=
  let readings := (List.range 11).map (fun i => if i = m then v else intAt s.thm.readings i)
  let s := State.put (s.setThm { s.thm with readings := readings, sampled := insertSet m s.thm.sampled }) (Reg.THM_SENSOR_READING m) (ofSigned 16 v)
  if m < 9 ∧ s.thm.started then
    let b := intAt s.thm.bias m
    let move := Int.tdiv ((256 * v - intAt s.thm.t (sensorNode m) - b) * s.rd Reg.THM_CFG_GAIN) 256
    let b' := clampInt (-32768) 32768 (b + move)
    let bias := (List.range 9).map (fun i => if i = m then b' else intAt s.thm.bias i)
    State.noteBound (State.put (s.setThm { s.thm with bias := bias }) (Reg.THM_SENSOR_BIAS m) (ofSigned 16 (Int.ediv b' 256))) m b'
  else s

/-- One sensor's sample (R236). -/
def State.sampleOne (s : State) (m : Nat) (x : SensorSample) : State :=
  if s.sensorLost m then s
  else if s.sampleFails m x then
    if s.thm.bad.contains m then s.loseSensor m else s.setThm { s.thm with bad := insertSet m s.thm.bad }
  else
    let s := if s.thm.bad.contains m then
        State.inc (s.setThm { s.thm with bad := s.thm.bad.filter (· ≠ m) }) Reg.THM_SENSOR_TRANS_COUNT else s
    s.takeSample m x.value.toInt

/-- The die range and the windows (R242): NAND opens again only within 2 to 83 °C. -/
def State.noteWindows (s : State) : State :=
  let used := (List.range s.thm.readings.length).filter (fun m =>
    s.thm.sampled.contains m && (!s.sensorLost m || s.sensorSubst m))
  match used.map (intAt s.thm.readings) with
  | [] => s
  | x :: xs =>
    let lo := xs.foldl min x
    let hi := xs.foldl max x
    let first := s.rd Reg.THM_DIE_MAX = 0 && s.rd Reg.THM_DIE_MIN = 0
    let within (a b : Int) : Bool := decide (16 * a ≤ lo) && decide (hi ≤ 16 * b)
    let nand := if s.on Reg.THM_STATUS_NAND_OK || first then within 0 85 else within 2 83
    let s := (s.put Reg.THM_DIE_MAX (ofSigned 16 hi)).put Reg.THM_DIE_MIN (ofSigned 16 lo)
    (s.put Reg.THM_STATUS_NAND_OK (b2n nand)).put Reg.THM_STATUS_OTP_OK (b2n (within 0 70))

/-- A sample of the eleven sensors: FS147 and FS148 once each for those that call for them (R249). -/
def State.sensorSample (s : State) (xs : List SensorSample) : State :=
  let done := s.thm.boundDone
  let s := (xs.take 11).zipIdx.foldl (fun s p => s.sampleOne p.2 p.1) s
  let s := if s.thm.boundDone.any (fun m => !(done.contains m)) then s.raise 148 else s
  s.noteWindows.noteFast.noteLimit

/-- The 120 °C comparator (R240): VLED drive is cut until chip reset. -/
def State.thermalTrip (s : State) : State := ((s.put Reg.THM_STATUS_TRIP 1).enterSafeDark 2).condition 146 true

/-! ## The thermal budget (R238, R239) -/

/-- R29 order 7: a step down, a rise, or the end of limiting. `measured` is the closing lock cycle's measured power. -/
def State.budgetAtSluice (s : State) : State :=
  let tb := s.rd Reg.WEIR_THERMAL_MW
  if !s.on Reg.THM_STATUS_THROTTLE then
    if s.thm.excess then
      let t := 9 * min (s.rd Reg.WEIR_MEASURED_MW) (s.rd Reg.WEIR_EFFECTIVE_MW) / 10
      let s := s.setThm { s.thm with excess := false, stepAt := s.now, clear := 0 }
      (((s.put Reg.WEIR_THERMAL_MW t).put Reg.THM_STATUS_THROTTLE 1).flag Reg.THM_EVENT_THROTTLED).condition 144 true
    else s
  else if s.thm.excess then
    if s.thm.stepAt + 1000000000 ≤ s.now then
      State.flag (State.put (s.setThm { s.thm with excess := false, stepAt := s.now, clear := 0 }) Reg.WEIR_THERMAL_MW (9 * tb / 10))
        Reg.THM_EVENT_THROTTLED
    else s
  else
    let need := if s.on Reg.THM_STATUS_RELAXING then s.F else s.F * s.rd Reg.THM_CFG_RELAX_S
    if s.thm.clear < need then s
    else
      let t := tb + ceilDiv tb 50
      let s := State.put (s.setThm { s.thm with clear := 0 }) Reg.THM_STATUS_RELAXING 1
      if min (s.actv Reg.WEIR_BUDGET_MW) (s.rd Reg.WEIR_CAP_MW) ≤ t then
        ((((s.put Reg.WEIR_THERMAL_MW 0xFFFF).put Reg.THM_STATUS_THROTTLE 0).put Reg.THM_STATUS_RELAXING 0).flag
          Reg.THM_EVENT_RELAXED).condition 144 false
      else s.put Reg.WEIR_THERMAL_MW t

end Sys2Proof.Machine
end

