-- ==== Sys2Proof/Machine/Sluice.lean ====
section
/-!
DEFINITION. The sluice (R29-R37): its ten orders. The sluice tick carries out orders 1 and 2, and the rest at once unless it waits for the
twin: a device in Shadow for the active's record before order 3 (R323), a paired device for record and SEAL before order 8 (R326, R331).
What waits is completed by the record, the SEAL, the end of the time for them (chamber cycle 12,000), or the first lock of the lock cycle.
-/
namespace Sys2Proof.Machine

/-! ## Order 1: the closing lock cycle (R56, R121, R249, R250) -/

/-- Light-class event sources cease to be live as the tick starts; the raises of the closing lock cycle become those of the one before. -/
def State.rollFaults (s : State) : State :=
  let s := (List.range 192).foldl (fun s n =>
    if Src.light n && (Src.info n).kind == .event && s.live n then s.setLive n false else s) s
  { s with flt := { s.flt with before := s.flt.raised, raised := [] } }

/-- A chamber with work of the closing lock cycle still in progress: executing, a barge in flight, a request not yet in the back bank. -/
def State.overran (s : State) (c : ChamberId) : Bool :=
  let x := s.chAt c
  x.running || x.barges.any (fun b => decide (b.next < b.entry.rows * b.entry.rowBeats)) || !(s.reachAt c).waiting.isEmpty

/-- FS110 for each of them, at the schedule cycle of the sluice (R121). -/
def State.marginCheck (s : State) : State :=
  let n := s.schedule
  all16.foldl (fun s (c : ChamberId) => if s.overran c then s.breachAt c 110 n else s) s

/-- The reaches whose back banks are complete (R35). -/
def State.completeBanks (s : State) : Nat :=
  all16.foldl (fun m (r : ReachId) => if (s.reachAt r).written.length = 4096 then m + 2 ^ r.val else m) 0

/-- The reports of the closing lock cycle: SYS_STALL and CHM_BARGES.PEAK. -/
def State.closeReports (s : State) : State :=
  let n := min 65535 s.seq.stallCount
  let s := (s.put Reg.SYS_STALL_LAST_LC n).put Reg.SYS_STALL_MAX_LC (max n (s.rd Reg.SYS_STALL_MAX_LC))
  let s := { s with seq := { s.seq with stallCycle := none, stallCount := 0 } }
  all16.foldl (fun s (c : ChamberId) => s.put (Reg.CHM_BARGES_PEAK c) (s.chAt c).peak) s

/-- Every chamber is cleared but for its instruction store, and issues nothing before its first lock (R56). The schedule cycles of the new
lock cycle are instants of their own. -/
def State.clearChambers (s : State) : State :=
  let s := { s with flt := { s.flt with instants := [] } }
  all16.foldl (fun s (c : ChamberId) => s.setCh c { Chamber.reset with istore := (s.chAt c).istore, halted := true, stopped := (s.chAt c).running }) s

/-- The ports are emptied: undelivered work of the closing lock cycle is discarded. -/
def State.clearPorts (s : State) : State :=
  all16.foldl (fun s (r : ReachId) => s.setReach r { s.reachAt r with delivered := [], waiting := [], written := [] }) s

/-- What the closing lock cycle leaves to count, measure and compare. -/
def State.closeCycle (s : State) (currents : List ReachCurrent) : State :=
  let s := s.marginCheck.closeFormat.chkSluice
  let s :=
    if s.paired then
      let (t, complete, crcs) := s.frameCrcs
      t.setPeer { t.peer with complete := complete, crcs := crcs, ownLock := s.rd Reg.SEQ_LOCK_NUMBER_LOCK_NUMBER }
    else s
  ((s.takeHeat currents).weirCheck (s.measuredPower currents)).closeReports

/-! ## Order 2, and the placing of the next sluice (R25-R27) -/

/-- The sequencer stops at this sluice (R27): no flight runs, and nothing is placed; a resynchronisation restarts it at once (R332). -/
def State.stopHere (s : State) : State :=
  let s := ((s.setSync .stopped).condition 96 false).put Reg.SYS_FLIGHT_STATUS_ACTIVE 3
  { s with seq := { s.seq with run := none, first := true, target := none, pend := none, runAt := if s.aligning then s.now else s.seq.runAt } }

/-- What a sluice does to the light: one left on by a set Maintenance latch goes dark, and one that a cleared Safe-Dark latch allows waits for this
lock cycle's first display scan (R389, R390). -/
def State.dusk (s : State) (stopping : Bool) : State :=
  { s with mode := { s.mode with afterglow := false, relight := if s.mode.relight = 0 || stopping then 0 else 2 } }

/-- The sluice takes place at time t: count, time, sync state and phase. The first one after STOPPED is compared with the target on which it was
placed; one placed by the active's record leaves STOPPED here (R25, R332). -/
def State.openCycle (s : State) (t : Nat) (first stopping : Bool) : State :=
  let s := s.dusk stopping
  let s := { s with seq := { s.seq with
    sluices := s.seq.sluices + 1, sluiceTime := s.sysTime, opened := t, next := none, first := false, recent := [] } }
  let s := if first && s.seq.state == .stopped then s.setSync (if s.seq.target.isSome then .locked else .free) else s
  let s := match s.seq.pend with
    | some g => State.judgePhase { s with seq := { s.seq with pend := none } } ((t : Int) - g)
    | none => s
  let s := if s.seq.state = .holdover then { s with seq := { s.seq with holdLcs := s.seq.holdLcs + 1 } } else s
  if stopping then s.stopHere else s.aim

/-! ## Orders 3 to 7 -/

/-- The value that a field held in tick −4. -/
def Snap.rd (x : Snap) (f : Fld) : Nat := Sparse.get x.regs f.reset f.key

/-- Order 3 (R37, R324): the lock number. -/
def State.takeLockNumber (s : State) (x : Snap) (committed : Bool) (record : Option TwinRecord) : State :=
  let load := committed && x.rd Reg.SEQ_LOCK_LOAD_LOAD == 1
  let n := match record with
    | some r => r.lock
    | none => if load then x.rd Reg.SEQ_LOCK_NUMBER_SET_VALUE else s.rd Reg.SEQ_LOCK_NUMBER_LOCK_NUMBER + 1
  let s := s.put Reg.SEQ_LOCK_NUMBER_LOCK_NUMBER n
  if load && !x.againLoad then s.put Reg.SEQ_LOCK_LOAD_LOAD 0 else s

/-- The shadow values of tick −4 become active (R32); a lock-number load is an action, not a setting, and SLOT becomes active as the switch
is made (R122, R123). -/
def State.transfer (s : State) (x : Snap) : State :=
  let slot := s.actv Reg.SYS_FLIGHT_CTRL_SLOT
  ((Reg.shadowed.foldl (fun s f => s.putAct f (x.rd f)) s).putAct Reg.SEQ_LOCK_LOAD_LOAD 0).putAct Reg.SYS_FLIGHT_CTRL_SLOT slot

/-- The instruction stores take the programs of the flight in a slot (R108, R122). -/
def State.loadPrograms (s : State) (i : Fin 3) (f : Flight) : State :=
  all16.foldl (fun s (c : ChamberId) =>
    match f.progs[c.val]? with
    | none => s
    | some p =>
      let word (k : Nat) : Nat := leAt (s.bas.bytes (FSlotBase i + p.offset + 8 * k) 8) 0 8
      let new := (List.range p.bundles).filterMap (fun k => if word k = 0 then none else some (k, BitVec.ofNat 64 (word k)))
      let x := s.chAt c
      s.setCh c { x with istore := new ++ x.istore.filter (fun e => decide (p.bundles ≤ e.1)) }) s

/-- The flight of slot i runs from this sluice. -/
def State.switchTo (s : State) (i : Nat) : State :=
  if h : i < 3 then
    match s.seq.slots[i] with
    | some f => State.put (State.loadPrograms { s with seq := { s.seq with run := some f } } ⟨i, h⟩ f) Reg.SYS_FLIGHT_STATUS_ACTIVE i
    | none => s
  else s

/-- No flight runs. -/
def State.noFlight (s : State) : State := State.put { s with seq := { s.seq with run := none } } Reg.SYS_FLIGHT_STATUS_ACTIVE 3

/-- A refused switch (R123). -/
def State.refuseSwitch (s : State) : State := (s.flag Reg.SYS_FLIGHT_STATUS_REFUSED).raise 109

/-- The slot runs already. -/
def State.runsSlot (s : State) (i : Nat) : Bool := s.seq.run.isSome && s.rd Reg.SYS_FLIGHT_STATUS_ACTIVE == i

/-- The flight of slot i runs, or runs from this sluice; none where it may not (R122). -/
def State.trySlot (s : State) (i : Nat) : Option State :=
  if s.runsSlot i then some s else if s.slotPermits i then some (s.switchTo i) else none

/-- After Egress the egress flight gives way to the active slot's flight, or to none (R124, R388). -/
def State.leaveEgressFlight (s : State) : State :=
  if s.runsSlot 2 then (s.trySlot (s.actv Reg.SYS_FLIGHT_CTRL_SLOT)).getD s.noFlight else s

/-- A committed sluice's switch to the shadow SLOT. In Egress the egress flight runs, and the value is held; a refused value stays
pending in the shadow register (R122-R124). -/
def State.commitSlot (s : State) (x : Snap) : State :=
  let want := x.rd Reg.SYS_FLIGHT_CTRL_SLOT
  if x.egress then
    let s := s.putAct Reg.SYS_FLIGHT_CTRL_SLOT want
    (s.trySlot 2).getD s.refuseSwitch
  else match s.trySlot want with
    | some t => t.putAct Reg.SYS_FLIGHT_CTRL_SLOT want
    | none => s.leaveEgressFlight.refuseSwitch

/-- Order 4 (R122-R124, R324): the flight that runs. In Shadow it is the record's, and a commit moves SLOT alone; an uncommitted first sluice
after STOPPED starts the active slot's flight. -/
def State.switchFlight (s : State) (x : Snap) (committed first : Bool) (record : Option TwinRecord) : State :=
  match record with
  | some r =>
    let s := if committed then s.putAct Reg.SYS_FLIGHT_CTRL_SLOT (x.rd Reg.SYS_FLIGHT_CTRL_SLOT) else s
    (s.trySlot r.slot).getD s.noFlight.refuseSwitch
  | none =>
    if committed then s.commitSlot x
    else if first then (s.trySlot (if x.egress then 2 else s.actv Reg.SYS_FLIGHT_CTRL_SLOT)).getD s
    else s

/-- Whether keep-out and glare are skipped in the lock cycle that opens (R183). -/
def State.judgeRelax (s : State) : State :=
  { s with trim := { s.trim with relax := s.actv Reg.CEIL_CTRL_EGRESS_RELAX == 1 && s.modeOf == .egress } }

/-- RETIRING berths become FREE (R142). -/
def State.freeRetired (s : State) : State :=
  all64.foldl (fun s b => if (s.berthAt b).state = .retiring then (s.setBerth b Berth.reset).flag Reg.BAS_EVENT_BERTH_FREED else s) s

/-- A READY berth is taken by the flight that runs (R147). DESIGN CHOICE: where none runs, no layer is named, so a RAW berth is taken and another
one is not. -/
def State.takes (s : State) (b : Fin 64) : Bool :=
  match s.seq.run with
  | none => s.rd (Reg.BAS_BERTH_FMT_FORMAT b) == 6
  | some f =>
    match f.layers.find? (fun l => l.berth = (s.berthAt b).home) with
    | some l => s.berthMatches b l
    | none => s.rd (Reg.BAS_BERTH_FMT_FORMAT b) == 6

/-- A taken berth becomes LIVE, and the one LIVE for its home RETIRING. -/
def State.goLive (s : State) (b : Fin 64) : State :=
  let x := s.berthAt b
  let s := match s.liveFor x.home with
    | some o => s.setBerth o { s.berthAt o with state := .retiring, retireMark := false, flagged := false }
    | none => s
  (s.setBerth b { x with state := .live, retireMark := false, flagged := false }).liveChanged x.home

/-- A berth does not match the running flight: it is noted once for each mismatch (R147, R148). -/
def State.noteMismatch (s : State) (b : Fin 64) : State := s.setBerth b { s.berthAt b with flagged := true }

/-- The committed half of order 5: READY berths are tested; then marked LIVE berths retire whose home took no berth. -/
def State.commitBerths (s : State) : State :=
  let ready := all64.filter (fun b => (s.berthAt b).state = .ready)
  let marked := all64.filter (fun b => (s.berthAt b).state = .live && (s.berthAt b).retireMark)
  let s := ready.foldl (fun s b =>
    if s.takes b then s.goLive b else s.noteMismatch b) s
  marked.foldl (fun s b =>
    if (s.berthAt b).state = .live then
      (s.setBerth b { s.berthAt b with state := .retiring, retireMark := false, flagged := false }).liveChanged (s.berthAt b).home
    else s) s

/-- The match of R148 of the LIVE berths with the running flight. -/
def State.noteMatches (s : State) : State :=
  match s.seq.run with
  | none => s
  | some f => f.layers.foldl (fun s l =>
      match s.liveFor l.berth with
      | none => s
      | some b =>
        if s.berthMatches b l then s.setBerth b { s.berthAt b with flagged := false } else s.noteMismatch b) s

/-- FS117 once at a sluice at which a mismatch begins (R147, R148, R249). -/
def State.tellMismatch (s : State) (old : State) : State :=
  if all64.any (fun b => (s.berthAt b).flagged && !(old.berthAt b).flagged) then s.raise 117 else s

/-- Order 5: the berths advance, and the layers of the running flight are resolved for the lock cycle (R142, R147, R148). -/
def State.berthsAtSluice (s : State) (committed : Bool) : State :=
  let s := s.freeRetired
  let t := (if committed then s.commitBerths else s).noteMatches
  (t.tellMismatch s).resolveLayers

/-- Reach resets move on (R17): dark and cleared, then rendering, then back in service. -/
def State.stepReset (s : State) (r : ReachId) : State :=
  let x := s.reachAt r
  match x.reset with
  | .none => s
  | .requested =>
    let s := s.setReach r { x with bank0 := Bank.blank, bank1 := Bank.blank, reset := .dark }
    (s.putBit Reg.FLT_FENCE_REACH r.val false).putBit Reg.FLT_FENCE_CHAMBER r.val false
  | .dark => s.setReach r { x with reset := .rendering }
  | .rendering => s.setReach r { x with reset := .none }

/-- The banks of a reach may swap, and an incomplete one counts as an underrun (R35, R36). -/
def State.eligible (s : State) (r : ReachId) : Bool :=
  !s.fenced r && s.calReach != some r.val && (s.reachAt r).reset == .none

/-- Order 6 for one reach. A chamber fenced within the lock cycle renders nothing more, and its reach does not underrun; a reach fence acts from
the next sluice (R36, R255). -/
def State.swapReach (s : State) (w : SluiceWork) (r : ReachId) : State :=
  if !s.eligible r then s
  else if w.complete.testBit r.val then
    let x := s.reachAt r
    (s.setReach r { x with frontIs1 := !x.frontIs1, shown := true }).putBit Reg.DRV_STALE_STALE r.val false
  else if w.closing && !(s.bitOf Reg.FLT_FENCE_CHAMBER r.val) then
    ((s.putBit Reg.SEQ_UNDERRUN_UNDERRUN r.val true).inc Reg.SEQ_UNDERRUN_COUNT_COUNT).raise 98 (some r.val)
  else s

/-- Every reach that is not fenced shows a frame of the closing lock cycle. -/
def State.allSwapped (s : State) (w : SluiceWork) : Bool :=
  all16.all (fun r => s.fenced r || (s.eligible r && w.complete.testBit r.val))

/-- Order 6. -/
def State.swapBanks (s : State) (w : SluiceWork) : State :=
  let s := all16.foldl State.stepReset s
  let s := s.put Reg.DRV_REACH_STATE_FENCED (w.fences &&& s.rd Reg.FLT_FENCE_REACH)
  (all16.foldl (fun s r => s.swapReach w r) s).calStartup.noteSweepDone

/-- Berth commands held since tick −4 apply, after the sluice actions they could change (R143). In Shadow, where those wait for the record,
they wait with them (R323; DEDUCED). -/
def State.heldCommands (s : State) : State :=
  let cmds := s.seq.heldCmds
  cmds.foldl State.applyBerthCmd { s with seq := { s.seq with heldCmds := [], snap := none } }

/-- Orders 3 to 7, with the active's record where the device holds it in Shadow. -/
def State.sluiceCommit (s : State) (w : SluiceWork) (x : Snap) (record : Option TwinRecord) : State × SluiceWork :=
  let committed := !w.stopping && (match record with
    | some r => r.committed
    | none => x.commit)
  let s := if committed && x.commit && !x.again then s.put Reg.SEQ_COMMIT_COMMIT 0 else s
  let s := s.takeLockNumber x committed record
  let s := if committed then s.transfer x else s
  let s := if w.stopping then s else s.switchFlight x committed w.first record
  let s := s.judgeRelax.berthsAtSluice committed
  let scene := match record with
    | some r => r.scene
    | none => s.rd Reg.SAF_EGRESS_SCENE
  let s := (if committed then s.stage scene w.errs else s).noteLayers
  let s := match record with
    | some r => if r.digest = s.commitDigest scene then s else s.loseTwinLock
    | none => s
  let s := (s.takeRole (x.rd Reg.PEER_STATUS_ROLE_IN)).sendRecord committed scene
  let s := s.sendSluiceMap.sendSeal s.diag.localMap
  let s := (if w.first then s else s.sendFcrc).echoRequest
  let s := (s.swapBanks w).ledgerGroup w.first
  let shown := w.egress && (s.allSwapped w || s.saf.egressShown)
  let s := s.budgetAtSluice.bandsAtSluice
  let s := match w.cal with
    | some c => s.calInstall c
    | none => s
  (s.heldCommands, { w with order := 8, egress := shown, committed := committed })

/-! ## Orders 8 to 10 -/

/-- Dual-active (R331). -/
def State.noteDual (s : State) : State :=
  let dual := s.paired && s.rd Reg.PEER_STATUS_ROLE == 2 && s.peer.record.any (fun r => r.role == 2)
  (s.put Reg.PEER_STATUS_DUAL (b2n dual)).condition 171 dual

/-- Order 9 (R214, R326): the pair map. A twin not in lock, or a record that did not come in Shadow, raises FS173. -/
def State.activateMap (s : State) (w : SluiceWork) : State :=
  let coupled := s.paired && s.peer.sealOk == some true
  let map := if coupled then orMaps s.diag.localMap s.peer.mirror else s.diag.localMap
  let s := State.put { s with pairMap := map } Reg.PEER_STATUS_COUPLED (b2n coupled)
  if !s.paired then s
  else
    let alone := w.shadow && !(s.peer.record.any (fun r => r.role == 2))
    let s := if coupled then s else State.inc (s.setPeer { s.peer with ask := true }) Reg.PEER_MAP_MISSED_COUNT
    if !coupled || alone then s.raise 173 else s

/-- Order 10: events and HEARTBEAT. -/
def State.sluiceEvents (s : State) (committed : Bool) : State :=
  let s := s.flag Reg.SEQ_EVENT_SLUICE
  let s := if committed then s.flag Reg.SEQ_EVENT_COMMIT_TAKEN else s
  if s.healthHigh then { s with seq := { s.seq with heartbeat := !s.seq.heartbeat } } else s

/-- Orders 8 to 10. -/
def State.sluiceLight (s : State) (w : SluiceWork) : State :=
  let s := ((s.noteDual.weirStep w.vled).activateMap w).safetySluice w.egress
  ((s.sluiceEvents w.committed).setPeer { s.peer with work := none }).noteAligned

/-! ## Waiting for the twin -/

/-- The work of a sluice goes on as far as it may: `late` says that the time for the twin's records has passed. -/
def State.sluiceGoesOn (s : State) (w : SluiceWork) (late : Bool) : State :=
  let wait := !late && s.paired && s.peerSession
  let record := if w.shadow then s.peer.record.filter (fun r => r.role == 2) else none
  if w.order = 3 ∧ wait ∧ w.shadow ∧ record.isNone then s.setPeer { s.peer with work := some w }
  else
    let (s, w) := if w.order = 3 then s.sluiceCommit w (s.seq.snap.getD s.takeSnap) record else (s, w)
    if wait ∧ (s.peer.record.isNone ∨ s.peer.sealOk.isNone) then s.setPeer { s.peer with work := some w }
    else s.sluiceLight w

/-- What has come from the twin lets the sluice go on. -/
def State.sluiceResume (s : State) : State :=
  match s.peer.work with
  | some w => s.sluiceGoesOn w false
  | none => s

/-- Chamber cycle 12,000 has passed. -/
def State.sluiceForce (s : State) : State :=
  match s.peer.work with
  | some w => s.sluiceGoesOn w true
  | none => s

/-! ## The sluice tick -/

/-- Orders 1 and 2 of the sluice at time t. -/
def State.sluiceTick (s : State) (t : Nat) (errs : List (Nat × Ecc)) (currents : List ReachCurrent) : State × SluiceWork :=
  let s : State := { s with now := max s.now t }
  let x := s.seq.snap.getD (s.snapFor t)
  let s : State := { s with seq := { s.seq with snap := some x }, diag := { s.diag with slot := none } }
  let first := s.seq.first
  let stopping := !first && (!s.on Reg.SEQ_CTRL_RUN || (s.aligning && !(s.paired && roleOf (x.rd Reg.PEER_STATUS_ROLE_IN) == 2)))
  let fences := s.rd Reg.FLT_FENCE_REACH
  let aligned := first && s.aligning
  let s := s.rollFaults.degradeAtSluice.takeLocalMap
  let shadow := s.inShadow
  let s := (if !s.paired then s else if first then s.forgetTwin else s.judgeTwin).resyncAtSluice
  let closing := !first && s.seq.run.isSome
  let egress := closing && s.rd Reg.SYS_FLIGHT_STATUS_ACTIVE == 2
  let complete := s.completeBanks
  let vled := s.diag.vled
  let s := if first then s.setThm { s.thm with heat := [], length := 0, updated := false } else s.closeCycle currents
  let s := s.clearChambers.clearPorts.mapSpares
  let s := ((s.egressAtSluice.openCycle t first stopping).latchFences).openDiag first
  let s := if aligned then (s.put Reg.PEER_STATUS_RESYNC 2).put Reg.PEER_STATUS_ALIGNED 1 else s
  let (s, cal) := s.calJudge
  let s := s.calStart
  (s, { order := 3, first := first, stopping := stopping, errs := errs, cal := cal, vled := vled, complete := complete, closing := closing,
        egress := egress, fences := fences, shadow := shadow, committed := false })

/-- The sluice. It has no effect where none is placed. -/
def State.sluice (s : State) (errs : List (Nat × Ecc)) (currents : List ReachCurrent) : State :=
  let s := s.sluiceForce
  match s.seq.next with
  | none => s
  | some t =>
    let (s, w) := s.sluiceTick t errs currents
    s.sluiceGoesOn w false

end Sys2Proof.Machine
end

