-- ==== Sys2Proof/Machine/PairRx.lean ====
section
/-!
DEFINITION. What comes from the twin (R318-R333): the packets of the peer link, and what they let the present sluice do.
-/
namespace Sys2Proof.Machine

/-- A peer-link packet arrives: its type, the ADDR it must carry, the lengths its type permits (R318). Its record counts only while a peer
session exists. -/
def State.fromTwin (s : State) (p : RxPacket) (type addr : Nat) (fits : Bool) (land : State → List Byte → State) : State :=
  s.receive .peer p type p.payload.length addr fits false (fun s bs => if s.paired && s.peerSession then land s bs else s)

/-- XFER (R318, R333). -/
def State.rxXfer (s : State) (p : RxPacket) (addr : Nat) : State :=
  let n := p.payload.length
  s.fromTwin p 1 addr (decide (16 ≤ n ∧ n ≤ 1024 ∧ n % 16 = 0 ∧ addr + n ≤ 0x2000000)) (fun s bs => s.takeXfer addr bs)

/-- XCTL (R333). -/
def State.rxXctl (s : State) (p : RxPacket) : State := s.fromTwin p 2 0 (p.payload.length = 32) State.takeXctl

/-- SLUICE (R319, R320, R323, R332): the sluice that waits goes on, the active takes up a copy for its twin, and in Shadow the next sluice is
steered. -/
def State.rxRecord (s : State) (p : RxPacket) (arrival : Int) : State :=
  s.fromTwin p 7 0 (p.payload.length = 32) (fun s bs =>
    let r := TwinRecord.ofBytes bs
    let s := (((s.takeRecord r arrival).copyStart r).alignStart r).sluiceResume
    let s := if s.inShadow && r.role == 2 && s.cycling && !s.aligning then s.steerByTwin else s
    s.noteAligned)

/-- MAP (R325). -/
def State.rxMap (s : State) (p : RxPacket) : State :=
  let n := p.payload.length
  s.fromTwin p 8 0 (decide (8 ≤ n ∧ n ≤ 1024 ∧ n % 4 = 0)) (fun s bs =>
    s.setPeer { s.peer with mirror := applyEntries bs.length s.peer.mirror bs })

/-- SEAL (R325, R326): the first one after a sluice tick is judged. -/
def State.rxSeal (s : State) (p : RxPacket) : State :=
  s.fromTwin p 9 0 (p.payload.length = 16) (fun s bs =>
    if s.peer.sealOk.isSome then s
    else State.sluiceResume (s.setPeer { s.peer with sealOk := some (mapCrc s.peer.mirror == leAt bs 4 4) }))

/-- FCRC (R327): compared once in a lock cycle. -/
def State.rxFcrc (s : State) (p : RxPacket) : State :=
  s.fromTwin p 10 0 (p.payload.length = 72) (fun s bs =>
    if s.peer.fcrc then s
    else
      let s := s.setPeer { s.peer with fcrc := true }
      s.compareFrames (leAt bs 0 4) (leAt bs 4 2) ((List.range 16).map (fun r => leAt bs (8 + 4 * r) 4)))

/-- ECHO (R321): sent whether or not a session exists. -/
def State.rxEcho (s : State) (p : RxPacket) (ticks : Nat) : State :=
  s.receive .peer p 11 p.payload.length 0 (echoOk (s.opened .peer p)) false (fun s bs => s.echo bs ticks)

/-- The local map has changed: its entries go out (R325). -/
def State.localMapSend (s : State) : State := s.sendMapChanges s.makeLocalMap

end Sys2Proof.Machine
end

