-- ==== Sys2Proof/Machine/Regs.lean ====
section
/-!
DEFINITION. The register interface (R403-R418): the value of a register at a read, side effects of reads, writes field by field with
their refusals, what a write of each register does besides, the bit alias, the judgement by size and address, fault clearing and
forcing (R250, R258), and the configuration CRC.
-/
namespace Sys2Proof.Machine

/-! ## Registers that hardware computes -/

/-- Fields take values, in the view that a read sees. -/
def State.puts (s : State) (vs : List (Fld × Nat)) : State := vs.foldl (fun s v => s.put v.1 v.2) s

/-- The scan tick within the lock cycle, 0 while none is open (R19). The scan clock is adjusted so that the lock cycle, whatever its length,
holds (S + 1) × 67,584 ticks (R26; DEDUCED: evenly over the lock cycle). -/
def State.tickNow (s : State) : Nat :=
  if s.cycling then min ((s.now - s.seq.opened) * ((s.S + 1) * 67584) / s.seq.length) ((s.S + 1) * 67584 - 1) else 0

/-- Word i of the selected defect-list entry (R208). -/
def State.defectWord (s : State) (i : Nat) : Nat :=
  match s.diag.defects[s.rd Reg.DIAG_DL_SEL_INDEX]? with
  | none => 0
  | some d =>
    match i with
    | 0 => d.seen % 2 ^ 32
    | 1 => d.seen / 2 ^ 32
    | 2 => 2 ^ 31 + d.kind * 2 ^ 28 + d.fence * 2 ^ 26 + d.key / 2048 * 2 ^ 11 + d.key % 2048
    | _ => d.sluice

/-- The selected word of a health map (R213); the reset value 0 until the first sluice has made the maps (R221). -/
def State.mapData (s : State) : Nat :=
  if s.seq.sluices = 0 then 0 else
  let m := if s.on Reg.DIAG_MAP_SEL_LOCAL then s.diag.localMap else s.pairMap
  (Sparse.get m 0xFFFFFFFF#32 (s.rd Reg.DIAG_MAP_SEL_WORD)).toNat

/-- CHM_STATUS and CHM_BARGES.NOW of a chamber (R126). -/
def State.chamberFields (s : State) (c : ChamberId) : List (Fld × Nat) :=
  let x := s.chAt c
  [(Reg.CHM_STATUS_LOCK c, x.lock), (Reg.CHM_STATUS_FENCED c, b2n (s.chFenced c)), (Reg.CHM_STATUS_STOPPED c, b2n x.stopped),
   (Reg.CHM_STATUS_HALTED c, b2n x.halted), (Reg.CHM_STATUS_RUNNING c, b2n x.running),
   (Reg.CHM_BARGES_NOW c, (x.barges.filter (fun b => b.inFlightAt c.val s.schedule)).length)]

/-- BAS_BERTH_STATUS and BAS_BERTH_FILL of a berth (R150): HOME in READY and LIVE, 0 otherwise. DESIGN CHOICE: UNITS of a RAW berth with
more units than the field's 262,144 reads 262,144. -/
def State.berthFields (s : State) (b : Fin 64) : List (Fld × Nat) :=
  let x := s.berthAt b
  [(Reg.BAS_BERTH_STATUS_RETIRE_MARK b, b2n x.retireMark), (Reg.BAS_BERTH_STATUS_COVERED b, b2n (s.berthCovered b)),
   (Reg.BAS_BERTH_STATUS_HOME b, if x.state = .ready ∨ x.state = .live then x.home else 0), (Reg.BAS_BERTH_STATUS_STATE b, x.state.code),
   (Reg.BAS_BERTH_FILL_UNITS b, min 262144 (s.berthFill b))]

/-- EYE_ERRORS and EYE_COUNT while a scan runs (R288): what it has counted so far. -/
def State.eyeFields (s : State) (i : Fin 6) : List (Fld × Nat) :=
  if s.on (Reg.EYE_STATUS_RUNNING i) then
    [(Reg.EYE_ERRORS_VALUE i, min (s.eyeSoFar i) (2 ^ 32 - 1)), (Reg.EYE_COUNT_VALUE i, min (s.eyeBits i / 256) (2 ^ 32 - 1))]
  else []

/-- The fields of the register at an offset that hardware computes at the read. -/
def State.liveFields (s : State) (off : Nat) : List (Fld × Nat) :=
  match off / 0x1000 with
  | 0 =>
    if off = 0x14 then [(Reg.SYS_TIME_LO_TIME, s.sysTime)]
    else if off = 0x20 then
      [(Reg.SYS_MODE_MODE, s.modeOf.code), (Reg.SYS_MODE_BASE, s.baseOf.code),
       (Reg.SYS_MODE_EGRESS_HELD, b2n (s.on Reg.SAF_EGRESS_REQUESTED && s.modeOf != .egress))]
    else if off = 0x54 then
      [(Reg.SYS_FLIGHT_STATUS_A_VALID, b2n (s.slotValid 0)), (Reg.SYS_FLIGHT_STATUS_B_VALID, b2n (s.slotValid 1)),
       (Reg.SYS_FLIGHT_STATUS_E_VALID, b2n (s.slotValid 2))]
    else if off = 0x58 ∨ off = 0x5C ∨ off = 0x60 then
      [0, 1, 2].map (fun (i : Fin 3) => (Reg.SYS_FLIGHT_ID_FLIGHT_ID i, ((s.seq.slots[i]).map Flight.id).getD 0))
    else []
  | 1 =>
    [(Reg.SEQ_SYNC_STATUS_STATE, s.seq.state.code), (Reg.SEQ_TICK_TICK, s.tickNow), (Reg.SEQ_TICK_SCAN, s.tickNow / 67584),
     (Reg.SEQ_SLUICE_COUNT_COUNT, s.seq.sluices), (Reg.SEQ_SLUICE_TIME_LO_TIME, s.seq.sluiceTime)]
  | 2 => s.chamberFields (Fin.ofNat 16 (off / 0x100))
  | 3 => if 0x3100 ≤ off then s.berthFields (Fin.ofNat 64 ((off - 0x3100) / 16)) else []
  | 5 =>
    if off = 0x5104 then
      [(Reg.CEIL_STATUS_ACTIVE, s.ceilActive), (Reg.CEIL_STATUS_BUSY0, b2n (s.ceilBusy 0)), (Reg.CEIL_STATUS_BUSY1, b2n (s.ceilBusy 1))]
    else []
  | 6 =>
    [(Reg.DRV_REACH_STATE_RESET, all16.foldl (fun m (r : ReachId) => if s.resetDark r then m + 2 ^ r.val else m) 0),
     (Reg.DIAG_STATUS_DL_COUNT, s.diag.defects.length), (Reg.DIAG_MAP_DATA_BITS, s.mapData)] ++
    [0, 1, 2, 3].map (fun i => (Reg.DIAG_DL_WORD_WORD i, s.defectWord i))
  | 7 =>
    let n := s.rd Reg.THM_NODE_SEL_NODE
    [(Reg.CAL_LAST_TIME_LO_TIME, s.cal.lastTime), (Reg.THM_NODE_DATA_OUTPUT, ofSigned 16 (intAt s.thm.outs n)),
     (Reg.THM_NODE_DATA_RATE, ofSigned 16 (intAt s.thm.rates n))]
  | 8 =>
    if 0x8800 ≤ off ∧ off < 0x8860 then s.eyeFields (Fin.ofNat 6 ((off - 0x8800) / 16)) else []
  | 11 =>
    [(Reg.SEC_STATUS_IDENTITY, b2n s.sec.idKey.isSome), (Reg.SEC_STATUS_PROVISION, b2n (s.modeOf == .provision)),
     (Reg.SEC_STATUS_TG_KEY, b2n s.sec.tgKey.isSome), (Reg.SEC_SVN_COUNT, s.rollback), (Reg.SEC_ENTROPY_HEALTHY, b2n s.entropyOk)]
  | 13 =>
    let w := s.fltTop
    if off = 0xD000 then
      [(Reg.FLT_TOP_PENDING, w / 2 ^ 31), (Reg.FLT_TOP_SEVERITY, w / 256), (Reg.FLT_TOP_SOURCE, w)]
    else if off = 0xD124 then
      [(Reg.FLT_LIVE_LIVE 1, setBit (setBit (s.rd (Reg.FLT_LIVE_LIVE 1)) 0 (s.live 32)) 10 (s.live 42))]
    else []
  | 14 =>
    if off = 0xE020 then
      let w := s.summary
      [(Reg.RIF_INT_STATUS_BITS_HI, w / 2 ^ 14), (Reg.RIF_INT_STATUS_BITS_LO, w)]
    else []
  | 15 => [(Reg.PNT_STATUS_DRIVING, b2n s.painterDriving)]
  | _ => []

/-- The word that a read of a register returns (R403, R412); an unlisted offset reads 0. -/
def State.regWord (s : State) (off : Nat) : Nat :=
  let s := if off = 0xC034 then s.noteCkptAge else s.puts (s.liveFields off)
  s.storedWord off

/-! ## Reads (R406, R407) -/

/-- A word read of a low word latches its high word (R38, R406). -/
def State.latchHigh (s : State) (off : Nat) : State :=
  match off with
  | 0x0014 => s.put Reg.SYS_TIME_HI_TIME (s.sysTime / 2 ^ 32)
  | 0x1020 => s.put Reg.SEQ_SLUICE_COUNT_HI_COUNT (s.seq.sluices / 2 ^ 32)
  | 0x1028 => s.put Reg.SEQ_SLUICE_TIME_HI_TIME (s.seq.sluiceTime / 2 ^ 32)
  | 0x7018 => s.put Reg.CAL_LAST_TIME_HI_TIME (s.cal.lastTime / 2 ^ 32)
  | _ => s

/-- The RC fields of a register are cleared. -/
def State.clearRc (s : State) (off : Nat) : State :=
  ((Reg.fieldsAt off).getD []).foldl (fun s f => if f.ty = .rc then s.put f 0 else s) s

/-- A word read of the register at an offset. -/
def State.readWord (s : State) (off : Nat) : State × Nat := ((s.latchHigh off).clearRc off, s.regWord off)

/-- The field that holds bit b of a register. -/
def fieldOfBit (off b : Nat) : Option Fld := ((Reg.fieldsAt off).getD []).find? (fun f => decide (f.lo ≤ b ∧ b < f.lo + f.w))

/-- The register offset and the bit of an alias offset (R407). -/
def aliasOf (a : Nat) : Nat × Nat := (a / 128 * 4, a / 4 % 32)

/-- An alias read: the bit, cleared if its field is RC. -/
def State.readAlias (s : State) (a : Nat) : State × Nat :=
  let (off, b) := aliasOf a
  let v := b2n ((s.regWord off).testBit b)
  match fieldOfBit off b with
  | some f => (if f.ty = .rc then s.putBit f (b - f.lo) false else s, v)
  | none => (s, 0)

/-! ## Clearing and forcing faults (R249, R250, R258) -/

/-- A write of 1 to FLT_CLEAR bits of word w: a sticky bit clears unless its live or force bit is 1. -/
def State.faultClear (s : State) (w mask : Nat) : State :=
  (List.range 32).foldl (fun s i =>
    let n := 32 * w + i
    if mask.testBit i && !s.live n && !s.forced n then s.putBit (Reg.FLT_STICKY_STICKY w) i false else s) s

/-- FLT_FORCE is open: in Test or Maintenance, or at boot level. -/
def State.forceOpen (s : State) : Bool := s.bootLevel || forceMode s.modeOf.code

/-- Force bits of word w take a value: each that goes from 0 to 1 raises its source, without the built-in response. -/
def State.faultForce (s : State) (w v : Nat) : State :=
  let old := s.rd (Reg.FLT_FORCE_FORCE w)
  let s := s.put (Reg.FLT_FORCE_FORCE w) v
  (List.range 32).foldl (fun s i => if v.testBit i && !old.testBit i then s.raiseAt (32 * w + i) none else s) s

/-! ## The end of the boot stage (R349) -/

/-- The BACKUP partition can be read; one that cannot holds nothing any more, with FS169 (R371, R372). -/
def State.readBackup (s : State) : State :=
  if (s.nand.file 9 0).any (fun f => !f.lost.isEmpty) then State.raise (s.setNand { s.nand with saved := none }) 169 else s

/-- The user plane from the newest generation (R350, R371): its words are rewritten, which ends their lasting errors (R173). -/
def State.restorePlane (s : State) : State :=
  match s.nand.saved with
  | none => s
  | some b =>
    let store := s.trim.store.filter (fun c => c.1 < 0x400000) ++ b.plane ++ s.trim.store.filter (fun c => 0x661000 ≤ c.1)
    { s with trim := { s.trim with store := store, failed := s.trim.failed.filter (fun w => w < 0x80000 || 0xCC200 ≤ w) } }

/-- The committed LEDGER slots, newest first (R380). -/
def Nand.checkpoints (n : Nand) : List NFile :=
  ([0, 1, 2, 3].map (fun k => (n.nextSlot + 3 - k) % 4)).filterMap (fun i => n.file 7 i)

/-- The ledger that the checkpoints give: the newest slot's, but for pages with a lost sector, which come from the next newer slot that
holds them. -/
def ledgerFrom : List NFile → Memory
  | [] => []
  | f :: older =>
    let lost := (f.lost.map (· / 4)).eraseDups
    lost.foldl (fun m p => m.splice (p * 4096) 4096 ((ledgerFrom older).slice (p * 4096) 4096)) f.blob.cells

/-- The wear ledger from the newest checkpoint, with FS161 where a page of it is lasting (R182, R350, R380). -/
def State.restoreLedger (s : State) : State :=
  match s.nand.checkpoints with
  | [] => s
  | f :: older =>
    let s := if f.lost.isEmpty then s else s.raise 161
    s.ledgerRestore (ledgerFrom (f :: older))

/-- The DONE write at boot level: user plane, ledger and key table stand as the boot stage has restored them (R349, R350), BOOT_PHASE drops,
the cores continue at RUN_ENTRY, and the links are brought up. -/
def State.bootDone (s : State) : State :=
  if !s.bootLevel then s
  else
    let s := s.readBackup.restorePlane.restoreLedger
    let s := s.rebuildKeys.put Reg.SEC_STATUS_BOOT_PHASE 0
    let s := s.setMgmt { s.mgmt with pc := BitVec.ofNat 32 s.sec.runEntry, waiting := false }
    [LinkId.host, LinkId.peer].foldl (fun s l => if s.on (Reg.LNK_CTRL_EN l.num) then s.linkSwitch l true else s) s

/-! ## Writes (R408-R414) -/

/-- The block of a Q field is idle (R413). -/
def State.fieldIdle (s : State) (f : Fld) : Bool :=
  if f.off / 0x1000 = 1 then s.seq.state == .stopped
  else if f.off / 0x1000 = 10 then !s.on (Reg.CHK_CFG_EN ((f.off - 0xA100) / 0x20))
  else true

/-- The cause for which a field refuses a value: a busy block (R413), a lock that the value would break (R414). -/
def State.refusal (s : State) (f : Fld) (v : Nat) : Option Nat :=
  match f.ty with
  | .bt => if !s.bootLevel && v != s.rd f then some 4 else none
  | .w1pbt => if !s.bootLevel && v != 0 then some 4 else none
  | .wl => if s.rif.locked.contains f.off && v != s.rd f then some 4 else none
  | .rw => if f.q && !s.fieldIdle f then some 2 else none
  | _ => none

/-- The field takes a written value. -/
def State.fieldOpen (s : State) (f : Fld) (v : Nat) : Bool :=
  match f.ty with
  | .rw => !f.q || s.fieldIdle f
  | .bt => s.bootLevel
  | .wl => !s.rif.locked.contains f.off
  | .w1s => v != 0
  | _ => false

/-- Registers whose fields follow a rule of their own at a write: SEQ_RATE (R23), the berth registers (R139, R144), FLT_FORCE (R258) and
the wharf's pointers (R424). -/
def ownWrite (off : Nat) : Bool :=
  off = 0x1008 || off = 0x3000 || (0x3100 ≤ off && off < 0x3500) || (0xD140 ≤ off && off < 0xD158) ||
  [0xF000, 0xF00C, 0xF020, 0xF02C, 0xF048].contains off

/-- A field takes its part of a written word, clamped, if it is open in the state `old` in which the write lands (R413, R414). -/
def State.writeField (old s : State) (w : Nat) (f : Fld) : State :=
  let v := w / 2 ^ f.lo % 2 ^ f.w
  if f ≠ Reg.SEQ_CTRL_RUN ∧ old.fieldOpen f v then s.put f (f.clamp.apply v) else s

/-- The write reaches a field: all of it, or the one field of an alias write. -/
def Fld.hit (f : Fld) (mask : Nat) : Bool := mask / 2 ^ f.lo % 2 ^ f.w != 0

/-- Pulses and other effects of a write to the SYS_ and SEQ_ blocks (R17, R23, R33, R37, R123, R389, R390, R397). -/
def State.sysWrite (s : State) (off w mask : Nat) : State :=
  match off with
  | 0x0024 =>
    let s := if w.testBit 0 then s.resume else s
    let s := if w.testBit 1 then s.clearSafeDark else s
    let s := if w.testBit 2 then s.enterSafeDark 4 else s
    if w.testBit 3 then s.warmReset 4 none else s
  | 0x0040 => s.reachReset (w % 65536)
  | 0x1000 => if mask.testBit 0 then (if w.testBit 0 then s.runWrite else s.clearRun) else s
  | 0x1004 => if w.testBit 0 && mask.testBit 0 then s.setCommit else s
  | 0x1008 => if s.seq.state == .stopped then s.setRate (w / 65536 % 256) (w % 64) else s
  | 0x1038 => if w.testBit 0 && mask.testBit 0 then s.setLockLoad else s
  | _ => s

/-- Effects of a write to the other blocks: berths (R139, R143), the VLED window, calibration (R226), links and eye scans (R270, R288),
pairing (R332), safety (R293, R312), the boot stage (R349), NAND (R380). `old` is the state before the write. -/
def State.blockWrite (old s : State) (off w mask : Nat) : State :=
  match off / 0x1000 with
  | 3 =>
    if off = 0x3000 then s.berthCmd w
    else if off < 0x3100 then s
    else if off % 16 = 0 then s.berthPlace (Fin.ofNat 64 ((off - 0x3100) / 16)) (w % 32768) (w / 65536)
    else if off % 16 = 4 then s.berthFmt (Fin.ofNat 64 ((off - 0x3100) / 16)) (w / 4 % 8) (w % 4)
    else s
  | 6 =>
    if off = 0x6008 then s.put Reg.DRV_VLED_WINDOW_MIN_MV (clampNat 3000 (s.rd Reg.DRV_VLED_WINDOW_MAX_MV) (s.rd Reg.DRV_VLED_WINDOW_MIN_MV))
    else s
  | 7 => if off = 0x7004 then s.calQueue (maskReaches (w % 65536)) else s
  | 8 =>
    if off = 0x8000 ∨ off = 0x8100 then
      let l : LinkId := if off = 0x8000 then .host else .peer
      let s := s.clearRateLimit l
      let s := if mask.testBit 0 then s.linkSwitch l (w.testBit 0) else s
      if w.testBit 2 then s.toRecover l else s
    else if 0x8800 ≤ off ∧ off < 0x8860 ∧ off % 16 = 0 then
      let i : Fin 6 := Fin.ofNat 6 ((off - 0x8800) / 16)
      let s := if w.testBit 0 then s.eyeStart i else s
      if w.testBit 1 then s.eyeStop i else s
    else s
  | 9 => if off = 0x9004 ∧ w.testBit 0 then s.resyncRequest else s
  | 10 =>
    if off = 0xA03C then s.rearm (w % 16)
    else if 0xA100 ≤ off ∧ (off - 0xA100) % 0x20 = 0 then
      let u := (off - 0xA100) / 0x20
      let point := s.rd (Reg.CHK_CFG_POINT u)
      let s := if point = 1 ∨ point = 2 then s.put (Reg.CHK_CFG_MODE u) 0 else s
      if s.on (Reg.CHK_CFG_EN u) && !old.on (Reg.CHK_CFG_EN u) then s.chkEnable u else s
    else s
  | 11 => if off = 0xB080 ∧ w.testBit 0 then s.bootDone else s
  | 12 => if off = 0xC000 ∧ w.testBit 1 then s.checkpoint none else s
  | _ => s

/-- Effects of a write to the fault, register-interface and wharf blocks (R250, R258, R417, R418, R424, R427). -/
def State.rifWrite (s : State) (off w mask : Nat) : State :=
  match off / 0x1000 with
  | 13 =>
    if 0xD140 ≤ off ∧ off < 0xD158 then s.faultForce ((off - 0xD140) / 4) w
    else if 0xD160 ≤ off ∧ off < 0xD178 then s.faultClear ((off - 0xD160) / 4) w
    else s
  | 14 =>
    if off = 0xE000 then
      let s := if mask.testBit 1 && w.testBit 1 then { s with rif := { s.rif with holdSweeps := 0 } } else s
      if w.testBit 2 then State.put { s with rif := { s.rif with latch := true } } Reg.RIF_CRC_STATUS_PENDING 1 else s
    else s
  | 15 =>
    match off with
    | 0xF000 => s.writeTail .openPair w
    | 0xF00C => s.writeCplRead .openPair w
    | 0xF020 => s.writeTail .session w
    | 0xF02C => s.writeCplRead .session w
    | 0xF048 => s.writeTelemRead w
    | _ => s
  | _ => s

/-- The first landed write locks the WL fields of a register (R414). -/
def State.lockWl (s : State) (off : Nat) (fs : List Fld) : State :=
  if fs.any (fun f => f.ty = .wl) then { s with rif := { s.rif with locked := insertSet off s.rif.locked } } else s

/-- A word write of a register: each field that `mask` reaches takes its part under its own type, the refusing causes are recorded together,
and the register's own effects follow (R403, R408, R409). -/
def State.writeWord (s : State) (who : Requester) (addr off w mask : Nat) : State :=
  match Reg.fieldsAt off with
  | none => s.discard who true addr [3]
  | some fs =>
    if 0xD140 ≤ off && off < 0xD158 && !s.forceOpen then s.discard who true addr [5]
    else
      let hits := fs.filter (fun f => f.hit mask)
      let causes := hits.foldl (fun cs f => match s.refusal f (w / 2 ^ f.lo % 2 ^ f.w) with
        | some c => insertSet c cs
        | none => cs) []
      let s := if hits.any (fun f => f.sh && f.ty = .rw) then s.landing false false else s
      let t := if ownWrite off then s else hits.foldl (fun t f => s.writeField t w f) s
      let t := ((State.blockWrite s (t.sysWrite off w mask) off w mask).rifWrite off w mask).lockWl off fs
      t.discard who true addr causes

/-- An alias write: bit 0 of the word becomes the bit, every other bit keeps its value; a reserved bit ignores it (R408). -/
def State.writeAlias (s : State) (who : Requester) (addr a v : Nat) : State :=
  let (off, b) := aliasOf a
  let old := s.regWord off
  let w := setBit old b (v.testBit 0)
  match fieldOfBit off b with
  | some f => s.writeWord who addr off w ((2 ^ f.w - 1) * 2 ^ f.lo)
  | none => s.writeWord who addr off old 0

/-! ## Access judgement (R404, R405) -/

/-- Register space and the bit alias in the memory map (R401). -/
def regBase : Nat := 0x4000000

/-- The device address of a register offset (R401). -/
def regAt (off : BitVec 16) : W32 := 0x4000000#32 + off.setWidth 32
def aliasBase : Nat := 0x4200000

/-- One word read at a device address of register space or of the alias. -/
def State.busReadWord (s : State) (addr : Nat) : State × Nat :=
  if addr < aliasBase then s.readWord (addr - regBase) else s.readAlias (addr - aliasBase)

/-- One word write. -/
def State.busWriteWord (s : State) (who : Requester) (addr v : Nat) : State :=
  if addr < aliasBase then s.writeWord who addr (addr - regBase) v 0xFFFFFFFF else s.writeAlias who addr (addr - aliasBase) v

/-- The kinds of access of R404. -/
inductive Width where
  | words (n : Nat)
  | narrow
  | misaligned
deriving DecidableEq, Repr

def widthOf (addr n : Nat) : Width :=
  if 0 < n ∧ n % 4 = 0 ∧ addr % 4 = 0 then .words (n / 4)
  else if n = 1 ∨ (n = 2 ∧ addr % 2 = 0) then .narrow
  else .misaligned

/-- The words of a read, in ascending address order. -/
def State.busReadWords (s : State) (addr : Nat) : Nat → State × List Byte
  | 0 => (s, [])
  | n + 1 =>
    let (s, v) := s.busReadWord addr
    let (s, bs) := State.busReadWords s (addr + 4) n
    (s, leBytes v 4 ++ bs)

/-- The words of a write, in ascending address order; a chip reset ends it. -/
def State.busWriteWords (s : State) (who : Requester) (addr : Nat) (data : List Byte) : Nat → State
  | 0 => s
  | n + 1 =>
    if s.mode.phase = .reset then s
    else State.busWriteWords (s.busWriteWord who addr (leAt data 0 4)) who (addr + 4) (data.drop 4) n

/-- A read of register space or of the alias: its bytes. -/
def State.busRead (s : State) (who : Requester) (addr n : Nat) : State × List Byte :=
  match widthOf addr n with
  | .words k => s.busReadWords addr k
  | .narrow => (s, ((leBytes (s.busReadWord (addr / 4 * 4)).2 4).drop (addr % 4)).take n)
  | .misaligned => (s.discard who false addr [1], List.replicate n 0#8)

/-- A write of register space or of the alias. -/
def State.busWrite (s : State) (who : Requester) (addr : Nat) (data : List Byte) : State :=
  match widthOf addr data.length with
  | .words k => s.busWriteWords who addr data k
  | .narrow => s.discard who true addr [0]
  | .misaligned => s.discard who true addr [1]

/-- The word at an address of either space belongs to a listed register. -/
def listedAt (addr : Nat) : Bool :=
  (Reg.fieldsAt (if addr < aliasBase then addr - regBase else (aliasOf (addr - aliasBase)).1)).isSome

/-- A management-core write is discarded under R403 or R404: narrow, or to an unlisted offset. -/
def coreDiscards (addr n : Nat) : Bool :=
  match widthOf addr n with
  | .words _ => !listedAt addr
  | _ => true

/-! ## The configuration CRC (R415-R418) -/

/-- The value a register contributes: its bits of configuration class. -/
def State.cfgWord (s : State) (off : Nat) : Nat := s.fieldsWord (((Reg.fieldsAt off).getD []).filter Fld.cfg)

/-- The bytes of a block, or of all blocks, in ascending address order. -/
def State.cfgBytes (s : State) (b : Nat) : List Byte := (Reg.offsets b).flatMap (fun off => leBytes (s.cfgWord off) 4)

/-- The comparison of a sweep's result (R417). -/
def State.crcCompare (s : State) (live : Nat) : State :=
  let bad := live != s.rd Reg.RIF_CRC_REF_CRC
  let twice := bad && s.rif.lastMismatch == some true
  let passing := !bad && s.rif.lastMismatch == some true && !s.live 180
  let s := if passing then s.inc Reg.RIF_CRC_TRANSIENTS_COUNT else s
  let s := State.put { s with rif := { s.rif with lastMismatch := some bad } } Reg.RIF_CRC_STATUS_MISMATCH (b2n bad)
  if twice then s.condition 180 true else if bad then s else s.condition 180 false

/-- What a completed sweep reports: each block's CRC, the live CRC and the count; a sweep under HOLD counts toward its end. -/
def State.noteSweep (s : State) (crcs : List Nat) (live : Nat) : State :=
  let s := (List.range 16).foldl (fun s b => s.put (Reg.RIF_BLOCK_CRC_CRC b) (crcs[b]?.getD (crc32c []))) s
  let s := (s.put Reg.RIF_CRC_LIVE_CRC live).incMod Reg.RIF_CRC_SWEEPS_COUNT
  if s.on Reg.RIF_CRC_CTRL_HOLD then { s with rif := { s.rif with holdSweeps := s.rif.holdSweeps + 1 } } else s

/-- What a completed sweep does with its live CRC: the latch takes it as the reference, a check in force compares it. -/
def State.useSweep (s : State) (live : Nat) : State :=
  if s.rif.latch then
    (State.put { s with rif := { s.rif with latch := false, lastMismatch := none } } Reg.RIF_CRC_REF_CRC live).put Reg.RIF_CRC_STATUS_PENDING 0
  else if s.on Reg.RIF_CRC_CTRL_EN && !s.on Reg.RIF_CRC_CTRL_HOLD then s.crcCompare live
  else { s with rif := { s.rif with lastMismatch := none } }

/-- A sweep starts, reads every register and completes (R416). -/
def State.crcSweep (s : State) : State :=
  let blocks := (List.range 16).map s.cfgBytes
  let live := crc32c blocks.flatten
  (s.noteSweep (blocks.map crc32c) live).useSweep live

/-- HOLD clears itself 16,384 sweeps after the last write that set it (R417). -/
def State.holdExpire (s : State) : State :=
  if s.on Reg.RIF_CRC_CTRL_HOLD && decide (16384 ≤ s.rif.holdSweeps) then
    State.put { s with rif := { s.rif with holdSweeps := 0 } } Reg.RIF_CRC_CTRL_HOLD 0
  else s

end Sys2Proof.Machine
end

