-- ==== Sys2Proof/Machine/Access.lean ====
section
/-!
DEFINITION. The memory map (R401, R402) as its requesters see it: what the host gate (R353, R354), the protection regions (R61) and the
debug port (R362) let through, the bytes of each range, host WR and RD packets and their completions (R132, R137, R146, R172, R283),
SAFE and TIME packets (R276, R287), and the loads and stores of the management cores (R59, R61, R73).
-/
namespace Sys2Proof.Machine

/-! ## The map (R401) -/

/-- A range of the memory map. -/
inductive Region where
  | basin | drive | trim | ledger | chambers | regs | alias_ | rom | sram
deriving DecidableEq, Repr

def trimBase : Nat := 0x2800000
def ledgerBase : Nat := 0x3000000
def sramBase : Nat := 0x6100000
def romBase : Nat := 0x6000000

/-- The range that holds an address; none where it is unmapped. -/
def regionOf (a : Nat) : Option Region :=
  if a < 0x2000000 then some .basin
  else if a < 0x2800000 then some .drive
  else if a < 0x3000000 then some .trim
  else if a < 0x3800000 then some .ledger
  else if a < 0x4000000 then some .chambers
  else if a < 0x4010000 then some .regs
  else if 0x4200000 ≤ a ∧ a < 0x4400000 then some .alias_
  else if 0x6000000 ≤ a ∧ a < 0x6010000 then some .rom
  else if 0x6100000 ≤ a ∧ a < 0x6180000 then some .sram
  else none

/-- The range as the host sees it: boot ROM and management SRAM are the cores' own (R59). -/
def hostRegion (a : Nat) : Option Region :=
  match regionOf a with
  | some .rom => none
  | some .sram => none
  | r => r

/-! ## Gates (R13, R61, R353, R354, R362) -/

/-- The open window, which a host reaches without a session and in every mode (R353). -/
def openWindow (write : Bool) (a : Nat) : Bool :=
  (!write && 0x4000000 ≤ a && a < 0x4000040) ||
  (!write && 0x4008000 ≤ a && a < 0x4009000) ||
  (write && 0x4008800 ≤ a && a < 0x4008860 && a % 16 < 4) ||
  (!write && 0x400B000 ≤ a && a < 0x400B100) ||
  (0x1E00000 ≤ a && a < 0x1E04000) ||
  (0x400F000 ≤ a && a < 0x400F020)

/-- The highest-numbered enabled host-gate window that contains an address (R354). -/
def State.gateWindow (s : State) (a : Nat) : Option Nat :=
  (List.range 16).reverse.find? (fun n =>
    s.on (Reg.SEC_GATE_BASE_EN n) && s.rd (Reg.SEC_GATE_BASE_BASE n) ≤ a / 4096 && a / 4096 ≤ s.rd (Reg.SEC_GATE_LIMIT_LIMIT n))

/-- The host may reach a byte: by the open window, or in a host session, outside Provision, by its gate windows. -/
def State.hostGrants (s : State) (write : Bool) (a : Nat) : Bool :=
  openWindow write a ||
  (s.sec.host.isSome && s.modeOf != .provision &&
    (match s.gateWindow a with
     | some n => if write then s.on (Reg.SEC_GATE_LIMIT_WRITE n) else s.on (Reg.SEC_GATE_LIMIT_READ n)
     | none => false))

/-- Every byte of a host request is granted and mapped. -/
def State.hostReaches (s : State) (write : Bool) (a n : Nat) : Bool :=
  (List.range n).all (fun i => s.hostGrants write (a + i) && (hostRegion (a + i)).isSome)

/-- The debug port reaches every byte of an access: at scope 2, or while the device is not provisioned, with the grants of the protection
regions at firmware level. -/
def State.debugReaches (s : State) (write : Bool) (a n : Nat) : Bool :=
  (s.sec.scope = 2 || !s.provisioned) &&
  (List.range n).all (fun i => match s.mgmt.region (a + i) with
    | some j => (s.mgmt.protLimit[j]).toNat.testBit (if write then 1 else 2)
    | none => false)

/-! ## Contents -/

/-- A byte of the drive store (R402): the front bank of its reach, or 0. -/
def State.driveByte (s : State) (off : Nat) : Nat :=
  let o := off % 0x80000
  if 0x40000 ≤ o then 0
  else
    let x := s.reach[off / 0x80000 % 16]'(Nat.mod_lt _ (by decide))
    (Sparse.get x.front.words 0#16 (o / 2)).toNat / 256 ^ (o % 2) % 256

/-- A byte of the chamber stores (R46, R402). -/
def State.chamberByte (s : State) (off : Nat) : Nat :=
  let o := off % 0x80000
  let x := s.ch[off / 0x80000 % 16]'(Nat.mod_lt _ (by decide))
  if o < 0x40000 then (x.store.byte o).toNat
  else if o < 0x50000 then (Sparse.get x.istore 0#64 ((o - 0x40000) / 8)).toNat / 256 ^ (o % 8) % 256
  else 0

/-- A byte of the memory map outside register space, as stored. -/
def State.mapByte (s : State) (a : Nat) : Nat :=
  match regionOf a with
  | some .basin => (s.bas.byte a).toNat
  | some .drive => s.driveByte (a - 0x2000000)
  | some .trim => s.ts (a - trimBase)
  | some .ledger => (s.trim.ledger.byte (a - ledgerBase)).toNat
  | some .chambers => s.chamberByte (a - 0x3800000)
  | some .rom => (Config.bootRom (a - romBase)).toNat
  | some .sram => (s.mgmt.sram.byte (a - sramBase)).toNat
  | _ => 0

/-- What the code finds in the unit `u` of `size` bytes; `errs` names units by an address in them. -/
def eccAt (errs : List (Nat × Ecc)) (size u : Nat) : Ecc := ((errs.find? (fun e => e.1 / size = u)).map (·.2)).getD .clean

/-- The units of a size that n bytes from address a touch. -/
def unitsOf (size a n : Nat) : List Nat := (List.range ((a + n - 1) / size + 1 - a / size)).map (· + a / size)

/-- The reach that a trim-store byte belongs to (R171): the planes by emitter, the column gains by reach. -/
def trimReach (off : Nat) : Option Nat :=
  if off < 0x600000 then some (off % 0x200000 / 131072)
  else if off < 0x610000 then some ((off - 0x600000) / 4096)
  else none

/-- The read of a unit of the basin, or of a word of the trim store or the ledger, with its outcome (R134-R137, R173). -/
def State.readUnit (s : State) (r : Region) (e : Ecc) (u : Nat) : State :=
  match r with
  | .basin => if s.bas.fenced.contains (u / 32) then s else s.eccOutcome e none (u % 32) (u / 32)
  | .trim => if s.trim.failed.contains (u - trimBase / 8) then s else s.trimEcc 0 (u - trimBase / 8) e (trimReach (u * 8 - trimBase))
  | .ledger =>
    if s.trim.ledgerFailed.contains (u - ledgerBase / 8) then s
    else s.trimEcc 1 (u - ledgerBase / 8) e (some ((u * 8 - ledgerBase) / 4 / 131072))
  | _ => s

/-- The units of a range. -/
def Region.unit : Region → Nat
  | .basin => 16
  | _ => 8

/-- A byte has no value that the spec states: it lies in a trim-store or ledger word under a lasting error (R173). -/
def State.byteOpen (s : State) (a : Nat) : Bool :=
  match regionOf a with
  | some .trim => s.trim.failed.contains ((a - trimBase) / 8)
  | some .ledger => s.trim.ledgerFailed.contains ((a - ledgerBase) / 8)
  | _ => false

/-- A read of n bytes outside register space: the bytes (zeros in place of a unit of the basin with a lasting error, a free value for a word
that cannot be read), and whether a unit failed (R137). -/
def State.mapRead (s : State) (r : Region) (a n : Nat) (errs : List (Nat × Ecc)) : State × List Byte × Bool :=
  let units := unitsOf r.unit a n
  let bytes := (List.range n).map (fun i => BitVec.ofNat 8 (s.mapByte (a + i)))
  let bad := if r = .basin then units.filter (fun u => eccAt errs 16 u = .lasting && !s.bas.fenced.contains (u / 32)) else []
  let t := units.foldl (fun t u => t.readUnit r (eccAt errs r.unit u) u) s
  let anyOpen := (List.range n).any (fun i => t.byteOpen (a + i))
  let free := leBytes (Config.freeBits (8 * n) t.fresh) n
  let out := (List.range n).map (fun i =>
    if t.byteOpen (a + i) then (free.drop i).headD 0#8
    else if bad.contains ((a + i) / 16) then 0#8
    else (bytes.drop i).headD 0#8)
  (if anyOpen then t.draw else t, out, !bad.isEmpty)

/-! ## Host packets (R132, R146, R172, R283) -/

/-- The completion statuses (R276): DONE, BUSY, ERROR, DENIED. -/
def cplDone : Nat := 0
def cplBusy : Nat := 1
def cplError : Nat := 2
def cplDenied : Nat := 3

def PoolWrite.code : PoolWrite → Nat
  | .landed => cplDone
  | .busy => cplBusy
  | .error => cplError

/-- A host write into the basin: the berth pool, the wharf region, or nothing (R132). DESIGN CHOICE: one that straddles the end of the pool is
R132's, ERROR without a refusal record, and not R146's. -/
def State.hostBasin (s : State) (a : Nat) (data : List Byte) : State × Nat :=
  if a + data.length ≤ 0x1000000 then
    match s.poolWrite a data with
    | (t, .landed) => (t.chkSnoop 0 (((s.berthsTouched a data.length).head?.map Fin.val).getD 0) data, cplDone)
    | (t, w) => (t, w.code)
  else if 0x1E00000 ≤ a ∧ a + data.length ≤ 0x1E40000 then (s.basWrite a data, cplDone)
  else (s, cplError)

/-- A host write to Trim Memory, from an offset in it. -/
def State.trimPut (s : State) (off : Nat) (data : List Byte) : State × Nat :=
  let (t, w) := s.trimWrite off data
  (t, w.code)

/-- A permitted host write to its region: only Trim Memory, the basin and the registers take writes. -/
def State.hostPut (s : State) (q : Option Region) (a : Nat) (data : List Byte) : State × Nat :=
  match q with
  | some .basin => s.hostBasin a data
  | some .trim => s.trimPut (a - trimBase) data
  | some .regs => (s.busWrite .host a data, cplDone)
  | some .alias_ => (s.busWrite .host a data, cplDone)
  | _ => (s, cplError)

/-- A WR packet that has landed: what it does, and the status of its completion (R283). -/
def State.hostWrite (s : State) (a : Nat) (data : List Byte) : State × Nat :=
  if !s.hostReaches true a data.length then (s.raise 41, cplDenied)
  else if hostRegion a ≠ hostRegion (a + data.length - 1) then (s, cplError)
  else s.hostPut (hostRegion a) a data

/-- An RD packet that has landed: status and bytes (R283). -/
def State.hostRead (s : State) (a n : Nat) (errs : List (Nat × Ecc)) : State × Nat × List Byte :=
  let zeros := List.replicate n 0#8
  if !s.hostReaches false a n then (s.raise 41, cplDenied, zeros)
  else if hostRegion a ≠ hostRegion (a + n - 1) then (s, cplError, zeros)
  else match hostRegion a with
    | none => (s, cplError, zeros)
    | some .regs => let (t, bs) := s.busRead .host a n; (t, cplDone, bs)
    | some .alias_ => let (t, bs) := s.busRead .host a n; (t, cplDone, bs)
    | some r => let (t, bs, failed) := s.mapRead r a n errs; (t, if failed then cplError else cplDone, bs)

/-- A completion, unless the request has made a chip reset. -/
def State.answer (s : State) (seq status len : Nat) (data : List Byte) : State :=
  if s.mode.phase = .reset then s else s.postCpl seq status len data

/-- A WR packet arrives (R276: LEN 1 to 1,024). -/
def State.rxWr (s : State) (p : RxPacket) (a : Nat) : State :=
  let n := p.payload.length
  s.receive .host p 1 (n % 2048) a (decide (1 ≤ n ∧ n ≤ 1024)) true (fun s data =>
    let (s, status) := s.hostWrite a data
    s.answer p.seq.toNat status 0 [])

/-- An RD packet arrives: no payload, LEN 1 to 1,024. -/
def State.rxRd (s : State) (p : RxPacket) (a n : Nat) (errs : List (Nat × Ecc)) : State :=
  s.receive .host p 2 n a (decide (1 ≤ n ∧ n ≤ 1024) && p.payload.isEmpty) true (fun s _ =>
    let (s, status, bs) := s.hostRead a n errs
    s.answer p.seq.toNat status n bs)

/-- A SAFE packet: a channel-A telegram copy. -/
def State.rxSafe (s : State) (p : RxPacket) : State :=
  s.receive .host p 5 p.payload.length 0 (p.payload.length = 32) false (fun s t => s.tgCopy false t)

/-- LNK_TIME_OFFSET: the last offset, saturated to its field. -/
def offsetWord (off : Int) : Nat := ofSigned 32 (clampInt (-2147483648) 2147483647 off)

/-- EDGE is later than that of the last TIME packet applied, modulo 2³². -/
def edgeLater (edge : Nat) (applied : Option Nat) : Bool :=
  match applied with
  | none => true
  | some e => edge ≠ e && (edge + 2 ^ 32 - e) % 2 ^ 32 < 2 ^ 31

/-- A TIME packet shows the present domain time: less than 24 h after the newest dated record of the journal, the scrub drops to its normal rate
(R378). -/
def State.noteOffTime (s : State) (present : Int) : State :=
  if s.nand.dated.any (fun t => decide (present - t < 86400000000000)) then s.put Reg.NFC_STATUS_FAST 0 else s

/-- A TIME payload (R287). -/
def State.applyTime (s : State) (bs : List Byte) : State :=
  let edge := leAt bs 0 4
  match s.clk.edges.find? (fun e => e.1 = edge) with
  | some (_, captured) =>
    if edgeLater edge s.clk.applied then
      let off : Int := (leAt bs 8 8 : Int) - (captured : Int)
      let s := s.noteOffTime (s.clk.read s.now + off)
      State.put { s with clk := { Clock.offset s.clk s.now off with applied := some edge } } Reg.LNK_TIME_OFFSET_OFFSET (offsetWord off)
    else s.raise 47
  | none => s.raise 47

def State.rxTime (s : State) (p : RxPacket) : State :=
  s.receive .host p 6 p.payload.length 0 (p.payload.length = 16) false (fun s bs => s.applyTime bs)

/-! ## Accesses of the register rows -/

/-- A management-core write of register space that is discarded traps with cause 0x07 and raises FS007 (R404). -/
def State.coreBusWrite (s : State) (a : Nat) (data : List Byte) : State :=
  let t := s.busWrite .mgmt a data
  if coreDiscards a data.length then (t.trap 7 a).raise 7 else t

/-- A requester's access of n bytes at a device address passes its own gate: the host's (R354), the cores' protection regions and
alignment (R59, R61), the debug port's (R362). -/
def State.reaches (s : State) (who : Requester) (write : Bool) (a n : Nat) : Bool :=
  match who with
  | .host => s.hostReaches write a n
  | .mgmt => !s.mgmt.stopped && (n ≠ 2 || a % 2 = 0) && (n ≠ 4 || a % 4 = 0) && s.permits a (if write then 1 else 2)
  | .debug => s.debugReaches write a n

/-- What follows where the gate refuses. -/
def State.gateRefuses (s : State) (who : Requester) (write : Bool) (a n : Nat) : State :=
  match who with
  | .host => s.raise 41
  | .mgmt =>
    if s.mgmt.stopped then s
    else if (n = 2 ∧ a % 2 ≠ 0) ∨ (n = 4 ∧ a % 4 ≠ 0) then s.trap 6 a
    else (s.trap (if write then 5 else 4) a).raise 1
  | .debug => s

/-- A write of register space by a requester. -/
def State.regWrite (s : State) (who : Requester) (a : Nat) (data : List Byte) : State :=
  if !s.reaches who true a data.length then s.gateRefuses who true a data.length
  else match who with
    | .mgmt => s.coreBusWrite a data
    | w => s.busWrite w a data

/-- A read of register space by a requester. -/
def State.regRead (s : State) (who : Requester) (a n : Nat) : State :=
  if s.reaches who false a n then (s.busRead who a n).1 else s.gateRefuses who false a n

/-- A write through the debug port outside register space, where the port reaches it: it lands as a management core's does (R362, R401). -/
def State.debugWrite (s : State) (a : Nat) (data : List Byte) : State :=
  if !s.debugReaches true a data.length || regionOf a != regionOf (a + data.length - 1) then s
  else match regionOf a with
    | some .basin => if a < 0x1000000 then (s.poolWrite a data).1 else s.basWrite a data
    | some .trim => (s.trimWrite (a - trimBase) data).1
    | some .sram => s.setMgmt { s.mgmt with sram := s.mgmt.sram.writeBytes (a - sramBase) data }
    | _ => s

/-- A read through the debug port outside register space, by what it leaves: the errors that it meets are counted. -/
def State.debugRead (s : State) (a n : Nat) (errs : List (Nat × Ecc)) : State :=
  if !s.debugReaches false a n || regionOf a != regionOf (a + n - 1) then s
  else match regionOf a with
    | some r => (s.mapRead r a n errs).1
    | none => s

/-- An address is in register space or its alias. -/
def inRegs (a : Nat) : Bool := regionOf a == some .regs || regionOf a == some .alias_

/-- An access of the register rows: register space by every requester, the rest of the map by the debug port alone. -/
def State.portWrite (s : State) (who : Requester) (a : Nat) (data : List Byte) : State :=
  if inRegs a then s.regWrite who a data else if who = .debug then s.debugWrite a data else s

def State.portRead (s : State) (who : Requester) (a n : Nat) (errs : List (Nat × Ecc)) : State :=
  if inRegs a then s.regRead who a n else if who = .debug then s.debugRead a n errs else s

/-! ## Loads and stores of the management cores (R59, R61, R73) -/

def loadMajor : LoadOp → Nat
  | .lw => 0x10
  | .lh => 0x11
  | .lhu => 0x12
  | .lb => 0x13
  | .lbu => 0x14

def storeMajor : StoreOp → Nat
  | .sw => 0x15
  | .sh => 0x16
  | .sb => 0x17

def LoadSize : LoadOp → Nat
  | .lw => 4
  | .lh => 2
  | .lhu => 2
  | .lb => 1
  | .lbu => 1

def StoreSize : StoreOp → Nat
  | .sw => 4
  | .sh => 2
  | .sb => 1

/-- A loaded number extended to 32 bits. -/
def loadExtend (op : LoadOp) (v : Nat) : Nat :=
  match op with
  | .lh => ofSigned 32 (toSigned 16 v)
  | .lb => ofSigned 32 (toSigned 8 v)
  | _ => v

/-- The address of a load or store. -/
def State.coreAddr (s : State) (f : Fields) : Nat := ofSigned 32 ((s.mgmt.reg f.a : Int) + toSigned 13 f.imm13)

/-- A load of management SRAM: a correctable error is corrected with FS003, an uncorrectable one traps with cause 0x08 and FS004. -/
def State.loadSram (s : State) (op : LoadOp) (d : BitVec 5) (a : Nat) (ecc : Ecc) : State :=
  let v := loadExtend op (s.mgmt.sram.readLE (a - sramBase) (LoadSize op))
  match ecc with
  | .clean => s.mResult d v
  | .corrected => (s.mResult d v).raise 3
  | _ => (s.trap 8 a).raise 4

/-- A load that is permitted and aligned. -/
def State.loadAt (s : State) (op : LoadOp) (d : BitVec 5) (a : Nat) (ecc : Ecc) : State :=
  let n := LoadSize op
  match regionOf a with
  | some .sram => s.loadSram op d a ecc
  | some .regs => let (t, bs) := s.busRead .mgmt a n; t.mResult d (loadExtend op (leAt bs 0 n))
  | some .alias_ => let (t, bs) := s.busRead .mgmt a n; t.mResult d (loadExtend op (leAt bs 0 n))
  | some r => let (t, bs, _) := s.mapRead r a n [(a, ecc)]; t.mResult d (loadExtend op (leAt bs 0 n))
  | none => State.raise (State.trap (s.setMgmt (s.mgmt.setReg d 0)) 7 a) 7

/-- The frame of a load or store: predicate, alignment, grant, then lockstep, whose mismatch discards what the instruction puts out
(R61, R65, R73, R75). DESIGN CHOICE: an access that is both misaligned and not granted takes the trap of its alignment, 0x06, without FS001. -/
def State.coreAccess (s : State) (major : Nat) (f : Fields) (n grant cause : Nat) (io : MgmtIO) (g : State → Nat → State) : State :=
  s.mPred major f (fun s =>
    let a := s.coreAddr f
    if a % n ≠ 0 then s.trap 6 a
    else if !s.permits a grant then (s.trap cause a).raise 1
    else if io.lockstep then s.nextPc.raise 0
    else g s a)

/-- LW, LH, LHU, LB, LBU. -/
def State.mLoad (s : State) (op : LoadOp) (f : Fields) (io : MgmtIO) : State :=
  s.coreAccess (loadMajor op) f (LoadSize op) 2 4 io (fun s a => s.loadAt op f.d a io.ecc)

/-- The pc moves on, unless a write has ended the boot stage, which sets it (R349), or made a chip reset. -/
def State.afterWrite (s : State) (pc : W32) : State :=
  if s.mode.phase = .reset || s.mgmt.pc != pc then s else s.nextPc

/-- A discarded store: FS007 and the trap. -/
def State.coreDiscard (s : State) (a : Nat) : State := (s.trap 7 a).raise 7

/-- A store that is permitted and aligned. -/
def State.storeAt (s : State) (a : Nat) (data : List Byte) : State :=
  match regionOf a with
  | some .basin => (if a < 0x1000000 then (s.poolWrite a data).1 else s.basWrite a data).nextPc
  | some .trim => (s.trimWrite (a - trimBase) data).1.nextPc
  | some .sram => State.nextPc (s.setMgmt { s.mgmt with sram := s.mgmt.sram.writeBytes (a - sramBase) data })
  | some .regs => if coreDiscards a data.length then s.coreBusWrite a data else (s.busWrite .mgmt a data).afterWrite s.mgmt.pc
  | some .alias_ => if coreDiscards a data.length then s.coreBusWrite a data else (s.busWrite .mgmt a data).afterWrite s.mgmt.pc
  | _ => s.coreDiscard a

/-- SW, SH, SB. -/
def State.mStore (s : State) (op : StoreOp) (f : Fields) (io : MgmtIO) : State :=
  s.coreAccess (storeMajor op) f (StoreSize op) 1 5 io (fun s a => s.storeAt a (leBytes (s.mgmt.reg f.d) (StoreSize op)))

end Sys2Proof.Machine
end

