-- ==== Sys2Proof/Machine/SecCmd.lean ====
section
/-!
DEFINITION. The wharf commands that the security engine serves (R337, R340, R342, R346, R352, R355-R362), the TAP's debug instructions and
the entropy tests (R362, R363). Each acts for the pair that executes it.
-/
namespace Sys2Proof.Machine

/-! ## Statuses (R425) -/

def stDone : Nat := 0
def stBusy : Nat := 1
def stError : Nat := 2
def stDenied : Nat := 3
def stTemperature : Nat := 5
def stNoIdentity : Nat := 7
def stEntropy : Nat := 8
def stArgument : Nat := 11

/-- The counts of a session's link begin: `landed` packets have come already (R278, R358). -/
def State.linkSession (s : State) (l : LinkId) (landed : Nat) : State :=
  (s.setLink l { s.linkAt l with rxCount := landed, txCount := 0 }).put (Reg.LNK_STATUS_SESSION l.num) 1

/-- FS013 or FS020 is raised, and SEC_EVENT.ENTROPY set. -/
def State.entropyEvent (s : State) (n : Nat) : State := (s.raise n).flag Reg.SEC_EVENT_ENTROPY

/-! ## Identity, challenge, quote (R337, R355, R361) -/

/-- GET_IDENTITY: the identity record, which stands in NAND beside the trim packages. -/
def State.cmdIdentity (s : State) (p : Pair) : State :=
  s.serve p 0x01 8 (fun s =>
    if s.nand.part.isNone || s.nand.identity.isEmpty then s.status p stError else s.output p 0 s.nand.identity)

/-- CHALLENGE: a fresh one. -/
def State.cmdChallenge (s : State) (p : Pair) : State :=
  s.serve p 0x02 8 (fun s =>
    if !s.canOutput p 0 32 then s.status p stArgument
    else if !s.entropyOk then s.status p stEntropy
    else
      let (s, c) := s.newChallenge
      s.output p 0 c)

/-- The bytes of the digest registers. -/
def State.digestBytes (s : State) (f : Nat → Fld) : List Byte := (List.range 8).flatMap (fun i => leBytes (s.rd (f i)) 4)

/-- Bytes 0 to 191 of a quote; `keys` is the digest of the key table, whose layout the spec does not state. -/
def State.quoteBody (s : State) (nonce keys : List Byte) : List Byte :=
  let parts := s.sec.digests.toList.flatten ++ keys
  [0x51#8, 0x54#8, 0x45#8, 0x31#8] ++ s.serial ++ leBytes (s.rd Reg.SYS_EPOCH_EPOCH) 4 ++ leBytes s.sysTime 8 ++ nonce ++
  s.digestBytes Reg.SEC_FW_DIGEST_BYTES ++ s.digestBytes Reg.SEC_TRIM_DIGEST_BYTES ++ Config.sha256 parts ++
  leBytes (s.rd Reg.SEC_SVN_RUNNING) 2 ++ leBytes s.rollback 2 ++ leBytes (slotMask s.slotUsable) 1 ++
  leBytes (b2n (s.on Reg.SEC_STATUS_DEBUG_OPEN) + 2 * b2n (s.modeOf == .provision) + 4 * b2n (s.on Reg.SEC_BOOT_STATUS_FALLBACK) +
    8 * b2n s.sec.tgKey.isSome) 1 ++ List.replicate 26 0#8

/-- QUOTE. -/
def State.cmdQuote (s : State) (p : Pair) : State :=
  s.serve p 0x03 40 (fun s =>
    if !s.canOutput p 32 256 then s.status p stArgument
    else match s.sec.idKey with
      | none => s.status p stNoIdentity
      | some k =>
        let body := s.quoteBody ((s.args p).take 32) (leBytes (Config.freeBits 256 s.fresh) 32)
        let s := s.draw
        State.output s.draw p 32 (body ++ Config.ecdsaSign k (Config.sha256 body) s.fresh))

/-! ## The host session (R357, R358) -/

/-- SESSION_HELLO: REPLY is 336 B. -/
def State.cmdHello (s : State) (p : Pair) : State :=
  s.serve p 0x10 16 (fun s =>
    if !s.canOutput p 8 336 then s.status p stArgument
    else s.withInput p 0 (fun s hello =>
      if s.sec.idKey.isNone then s.status p stNoIdentity
      else if !s.entropyOk then s.status p stEntropy
      else
        let faults := s.helloFaults hello
        match s.hostHello hello with
        | (s, some reply) => s.output p 8 reply
        | (s, none) => s.fails p stDenied 0 faults))

/-- SESSION_FINISH: its completion is the DONE message. -/
def State.cmdFinish (s : State) (p : Pair) : State :=
  s.serve p 0x11 8 (fun s => s.withInput p 0 (fun s sig =>
    match s.hostFinish sig with
    | (s, true) => (s.linkSession .host 0).status p stDone
    | (s, false) => s.fails p stDenied 0 [17]))

/-- SESSION_CLOSE: the session ends at the completion. -/
def State.cmdClose (s : State) : State := s.serve .session 0x12 0 (fun s => (s.status .session stDone).endHost)

/-! ## The peer session (R359) -/

/-- A peer session can be set up. -/
def State.peerMaySet (s : State) : Bool := s.on Reg.PEER_CFG_PAIRED && s.linkUp .peer

/-- The end with the lower DEVNUM. -/
def State.peerInitiator (s : State) : Bool := decide (s.rd (Reg.LNK_CFG_DEVNUM 1) < s.rd (Reg.LNK_PARTNER_DEVNUM 1))

/-- A refusal of the handshake. -/
def State.peerRefuses (s : State) : State × Option (List Byte) :=
  ({ s with sec := { s.sec with peerHs := none, peerKeys := none } }, none)

/-- The initiator's HELLO: ephemeral key, nonce, identity record. -/
def State.peerHello (s : State) : State × Option (List Byte) :=
  let n := s.fresh
  let (s, nonce) := s.draw.random 16
  let hello := Config.ephemeral n ++ nonce ++ s.nand.identity
  ({ s with sec := { s.sec with peerHs := some { hello := hello, reply := [], key := [], shared := [], own := n }, peerKeys := none } }, some hello)

/-- HELLO at the responder: REPLY. -/
def State.peerReply (s : State) (hello : List Byte) : State × Option (List Byte) :=
  match s.identityOk (hello.drop 80) s.twinSerial, s.sec.idKey with
  | some twin, some k =>
    let (s, reply, shared) := s.replyTo hello k
    ({ s with sec := { s.sec with peerHs := some { hello := hello, reply := reply, key := twin, shared := shared, own := 0 } } }, some reply)
  | _, _ => s.peerRefuses

/-- The keys that a handshake derives (R357, R359). -/
def Handshake.peerKeys (h : Handshake) (initiator : Bool) : SessKeys := sessionKeys h.shared h.salt (labelPeer ++ h.th2) initiator

/-- REPLY at the initiator: its signature is over TH1, FINISH is signed over TH2. The keys are derived: what the responder encrypts is accepted
from now on (R358). -/
def State.peerFinish (s : State) (reply : List Byte) : State × Option (List Byte) :=
  match s.sec.peerHs, s.identityOk ((reply.drop 80).take 192) s.twinSerial, s.sec.idKey with
  | some h, some twin, some k =>
    if h.reply.isEmpty && Config.ecdsaVerifies twin (Config.sha256 (h.hello ++ reply.take 272)) (reply.drop 272) then
      let h : Handshake := { h with reply := reply, key := twin, shared := Config.ecdh h.own (reply.take 64) }
      let sig := Config.ecdsaSign k h.th2 s.fresh
      let link := if s.sec.peer.isNone then s.link.set 1 { s.link[1] with rxCount := 0 } else s.link
      ({ s.draw with sec := { s.sec with peerHs := some h, peerKeys := some (h.peerKeys true) }, link := link }, some sig)
    else s.peerRefuses
  | _, _, _ => s.peerRefuses

/-- The peer session begins with the keys derived, and a present one ends; at the initiator packets may have landed under them already. -/
def State.peerBegins (s : State) (h : Handshake) (initiator : Bool) : State :=
  let landed := if initiator && s.sec.peer.isNone then (s.linkAt .peer).rxCount else 0
  let s := s.endPeer
  State.linkSession (State.put { s with sec := { s.sec with peer := some (h.peerKeys initiator), peerHs := none, peerKeys := none } }
    Reg.SEC_STATUS_PEER_SESSION 1) .peer landed

/-- FINISH at the responder: DONE, one byte of status. -/
def State.peerDone (s : State) (sig : List Byte) : State × Option (List Byte) :=
  match s.sec.peerHs with
  | some h => if !h.reply.isEmpty && Config.ecdsaVerifies h.key h.th2 sig then (s.peerBegins h false, some [0#8]) else s.peerRefuses
  | none => s.peerRefuses

/-- A message from the twin, by its length, and the next one for it: nothing, HELLO, REPLY, FINISH or DONE. -/
def State.peerStep (s : State) (m : List Byte) : State × Option (List Byte) :=
  if !s.peerMaySet then s.peerRefuses
  else match m.length, s.peerInitiator with
    | 0, true => s.peerHello
    | 272, false => s.peerReply m
    | 336, true => s.peerFinish m
    | 64, false => s.peerDone m
    | 1, true =>
      match s.sec.peerHs with
      | some h => if m = [0#8] ∧ !h.reply.isEmpty then (s.peerBegins h true, some []) else s.peerRefuses
      | none => s.peerRefuses
    | _, _ => s.peerRefuses

/-- PEER_MSG. -/
def State.cmdPeerMsg (s : State) : State :=
  s.serve .session 0x13 16 (fun s =>
    if !s.canOutput .session 8 336 then s.status .session stArgument
    else s.withInput .session 0 (fun s m =>
      if s.sec.idKey.isNone then s.status .session stNoIdentity
      else if !s.entropyOk then s.status .session stEntropy
      else match s.peerStep m with
        | (s, some reply) => s.output .session 8 reply
        | (s, none) => s.fails .session stDenied 0 [17]))

/-- PAIR_SET: a record that checks and has a higher VERSION than the one held. -/
def State.cmdPairSet (s : State) : State :=
  s.serve .session 0x14 8 (fun s => s.withInput .session 0 (fun s r =>
    if !s.pairingOk r then s.fails .session stError 0 [16]
    else if s.sec.pairing.any (fun q => decide (leAt r 36 4 ≤ leAt q 36 4)) then s.status .session stDenied
    else State.status { s with sec := { s.sec with pairing := some r } } .session stDone))

/-! ## Keys (R342, R360) -/

/-- The key that authenticated the host stands in the key table. -/
def State.hostKeyHeld (s : State) : Bool := s.sec.deleg.toList.any (fun c => c.any (fun c => c.key = s.sec.hostKey))

/-- The host session ends when the key that authenticated it is removed from the key table, where it was `held` (R358). -/
def State.noteHostKey (s : State) (held : Bool) : State := if s.sec.host.isSome && held && !s.hostKeyHeld then s.endHost else s

/-- CERT_SET. -/
def State.cmdCertSet (s : State) : State :=
  s.serve .session 0x15 8 (fun s => s.withInput .session 0 (fun s bs =>
    match s.certOk bs with
    | none => s.fails .session stError 0 [16]
    | some (i, c) =>
      if (s.delegated i).any (fun d => decide (c.version ≤ d.version)) then s.status .session stDenied
      else
        let held := s.hostKeyHeld
        let entry := if c.perm = 0 then none else some c
        let s := { s with sec := { s.sec with deleg := s.sec.deleg.set (i % 16) entry (Nat.mod_lt _ (by decide)) } }
        ((s.status .session stDone).noteKeys).noteHostKey held))

/-- TG_KEY_SET: key 32 B, SIGNER, signature 64 B. A refusal raises FS015. -/
def State.cmdTgKeySet (s : State) : State :=
  s.serve .session 0x16 8 (fun s => s.withInput .session 0 (fun s bs =>
    if bs.length ≠ 97 then s.refused .session stArgument
    else if !s.sec.k1 then s.status .session stNoIdentity
    else if !s.entropyOk then s.status .session stEntropy
    else
      let key := bs.take 32
      match (s.signer (leAt bs 32 1) permTelegram).1 with
      | some k =>
        if sigOk k (key ++ s.serial) (bs.drop 33) then
          State.status { s.draw with sec := { s.sec with tgKey := some key } } .session stDone
        else s.refused .session stDenied
      | none => s.refused .session stDenied))

/-! ## Provisioning (R355, R356) -/

/-- An operation on OTP waits for its temperature window (R242): refused with TEMPERATURE outside it. -/
def State.inOtpWindow (s : State) (p : Pair) (f : State → State) : State :=
  if s.on Reg.THM_STATUS_OTP_OK then f s else s.status p stTemperature

/-- The end of an operation on OTP: FS014 where a bit failed its read-back, FS021 and SEC_EVENT.PROVISION where an owner slot was its object. -/
def State.otpDone (s : State) (p : Pair) (owner : Bool) (st : Nat) : State :=
  let s := s.fails p st 0 (if st = stError then [14] else [])
  let s := if owner then (s.raise 21).flag Reg.SEC_EVENT_PROVISION else s
  s.noteKeys

/-- The lowest slot with WRITTEN 0. -/
def State.freeOwnerSlot (s : State) : Option Nat := [0, 1, 2, 3].find? (fun i => !s.slotWritten i)

/-- INSTALL_ROOT: KEY 64 B, signature 64 B; the key goes into the key table and, with a new BACKUP generation, into NAND (R342, R355). -/
def State.cmdInstallRoot (s : State) (p : Pair) (otp : OtpRun) : State :=
  s.serve p 0x20 8 (fun s => s.withInput p 0 (fun s bs =>
    if bs.length ≠ 128 then s.status p stArgument
    else match s.freeOwnerSlot, s.sec.challenge with
      | some i, some c =>
        let key := bs.take 64
        if s.modeOf = .provision ∧ sigOk key (key ++ s.serial ++ c) (bs.drop 64) then
          s.inOtpWindow p (fun s =>
            let (s, st) := s.clearChallenge.otpProgram (onesOf (0x60 + 32 * i) (Config.sha256 key) ++ [(0xE0 + i) * 8]) otp
            let s := if st = 0 then { s with sec := { s.sec with roots := s.sec.roots.set (i % 4) (some key) (Nat.mod_lt _ (by decide)) } } else s
            (if st = 0 then s.issueWrite (NJob.backup none) else s).otpDone p true st)
        else s.status p stDenied
      | _, _ => s.status p stDenied))

/-- REVOKE_ROOT. -/
def State.cmdRevokeRoot (s : State) (p : Pair) (otp : OtpRun) : State :=
  s.serve p 0x21 1 (fun s =>
    let i := s.arg p 0 1
    if 4 ≤ i then s.status p stArgument
    else if s.modeOf = .provision ∧ s.slotUsable i ∧ [0, 1, 2, 3].any (fun j => j ≠ i && s.slotUsable j) then
      s.inOtpWindow p (fun s =>
        let (s, st) := s.otpProgram [(0xE0 + i) * 8 + 1] otp
        s.otpDone p true st)
    else s.status p stDenied)

/-- The image in a firmware slot, as it can be read. -/
def State.firmware (s : State) (i : Nat) : Option Blob :=
  if s.nand.part.isNone then none else ((s.nand.file (i + 1) 0).filter (fun f => f.lost.isEmpty)).map NFile.blob

/-- The image in a firmware slot passes R345 against a count. -/
def State.firmwarePasses (s : State) (i count : Nat) : Bool := (s.firmware i).any (fun img => s.imageCheck img count = 0)

/-- PROVISION_END: it completes, then makes a chip reset. -/
def State.cmdProvisionEnd (s : State) (p : Pair) : State :=
  s.serve p 0x22 0 (fun s =>
    if s.modeOf = .provision ∧ (s.firmwarePasses 0 s.rollback || s.firmwarePasses 1 s.rollback) then
      (s.status p stDone).warmReset 4 none
    else s.status p stDenied)

/-- REPROVISION: the Provision latch. -/
def State.cmdReprovision (s : State) (p : Pair) : State :=
  s.serve p 0x23 8 (fun s => s.withInput p 0 (fun s bs =>
    if !s.on Reg.SEC_POLICY_REPROVISION then s.status p stDenied
    else if s.reprovisionOk bs then (s.clearChallenge.put Reg.SYS_MODE_PROVISION 1).status p stDone
    else s.clearChallenge.fails p stDenied 0 (if s.reprovisionMisused bs then [16, 15] else [16])))

/-! ## Debug (R362) -/

/-- DEBUG_UNLOCK. -/
def State.cmdDebugUnlock (s : State) (p : Pair) : State :=
  s.serve p 0x24 8 (fun s => s.withInput p 0 (fun s bs =>
    if s.debugOpens bs then ((s.openDebug bs).status p stDone).noteKeys else s.refuseDebug.fails p stDenied 0 (s.debugFaults bs)))

/-- SEC_CHAL: the current challenge is shifted out; one is created where none exists. -/
def State.tapChallenge (s : State) : State :=
  if s.sec.challenge.isSome || !s.entropyOk then s else s.newChallenge.1

/-- SEC_TOKEN. -/
def State.tapToken (s : State) (bs : List Byte) : State :=
  if s.debugOpens bs then (s.openDebug bs).noteKeys else s.refuseDebug.raises (s.debugFaults bs)

/-- EXTEST is selected or left; debug must be open (at either scope), or the device not provisioned. -/
def State.tapExtest (s : State) (on : Bool) : State :=
  if !on then { s with sec := { s.sec with extest := false } }
  else if s.sec.scope ≠ 0 ∨ !s.provisioned then { s with sec := { s.sec with extest := true } }
  else s

/-! ## Entropy (R363) -/

/-- A health test fails: FS013 is live. -/
def State.entropyFails (s : State) : State :=
  let s := State.inc { s with sec := { s.sec with entropyFail := true } } Reg.SEC_ENTROPY_FAILURES
  if s.live 13 then s else s.entropyEvent 13

/-- The tests pass again. -/
def State.entropyPasses (s : State) : State := State.setLive { s with sec := { s.sec with entropyFail := false } } 13 false

/-- The known-answer tests have run: FS020 where one fails; after two failures in a row the engine stays disabled for the epoch. -/
def State.knownAnswers (s : State) (ok : Bool) : State :=
  if ok then { s with sec := { s.sec with katFails := 0 } }
  else
    let n := s.sec.katFails + 1
    State.entropyEvent { s with sec := { s.sec with katFails := n, engineOff := s.sec.engineOff || decide (2 ≤ n) } } 20

/-! ## Firmware images (R346, R352) -/

/-- The code of the image for slot i (0 A, 1 B) is reported; a failure of the rollback check alone raises FS010 (R345), a key used outside
its list FS015 (R341). -/
def State.noteCode (s : State) (i code : Nat) (img : Option Blob) : State :=
  let s := s.put (if i = 0 then Reg.SEC_BOOT_STATUS_REASON_A else Reg.SEC_BOOT_STATUS_REASON_B) code
  let s := if code = 5 then s.raise 10 else s
  if img.any (fun b => s.firmwareMisused b code) then s.raise 15 else s

/-- The image that a command writes to slot i is checked, and the code reported (R345): it is written, or the command fails with FS016. -/
def State.writeImage (s : State) (p : Pair) (i : Nat) (img : Blob) : State :=
  let code := s.imageCheck img s.rollback
  if code = 0 then (s.noteCode i 0 (some img)).writeFile (i + 1) 0 img (some p)
  else (s.fails p stError code [16]).noteCode i code (some img)

/-- RECOVER_WRITE: a chunk; when the image is complete it is checked and written to slot A. It is a command of recovery. -/
def State.cmdRecoverWrite (s : State) (p : Pair) : State :=
  s.serve p 0x25 16 (fun s =>
    if !s.recovery then s.status p stDenied
    else s.withInput p 0 (fun s chunk =>
      let off := s.arg p 8 4
      let total := s.arg p 12 4
      if total < off + chunk.length ∨ 458752 < total then s.status p stArgument
      else
        let old := if s.sec.recover.len = total then s.sec.recover.cells else []
        let img : Blob := { len := total, cells := old.splice off chunk.length (cellsFrom 0 chunk) }
        let s := { s with sec := { s.sec with recover := img } }
        if off + chunk.length ≠ total then s.status p stDone
        else s.writeImage p 0 img))

/-- IMAGE_WRITE: into the slot not booted. -/
def State.cmdImageWrite (s : State) : State :=
  s.serve .session 0x30 5 (fun s =>
    let b := s.arg .session 0 1
    let n := s.arg .session 1 4
    if 64 ≤ b then s.status .session stArgument
    else match s.berthRef b with
      | none => s.status .session stDenied
      | some b =>
        if s.berthSize b < n then s.status .session stArgument
        else
          s.copyBerth b (fun s img => s.writeImage .session (if s.rd Reg.SEC_BOOT_STATUS_IMAGE = 0 then 1 else 0) (img.take n))
            (fun s => s.status .session stError))

/-- COMMIT_SVN: both firmware slots must pass with the new count. -/
def State.cmdCommitSvn (s : State) (otp : OtpRun) : State :=
  s.serve .session 0x31 0 (fun s =>
    let v := s.rd Reg.SEC_SVN_RUNNING
    if s.firmwarePasses 0 (max v s.rollback) && s.firmwarePasses 1 (max v s.rollback) then
      s.inOtpWindow .session (fun s =>
        let unset := (List.range v).filter (fun i => !((s.sec.otp.byte (0x100 + i / 8)).getLsbD (i % 8)))
        let (s, st) := s.otpProgram (unset.map (0x100 * 8 + ·)) otp
        s.otpDone .session false st)
    else s.status .session stDenied)

end Sys2Proof.Machine
end

