-- ==== Sys2Proof/Machine/Boot.lean ====
section
/-!
DEFINITION. Reset inputs and start-up (R347-R352, R367, R374, R392-R397, R438): power, RESET_N and the power-on detector, the ROM's boot
sequence, recovery, the end of Boot and the start record.
-/
namespace Sys2Proof.Machine

/-! ## Reset inputs (R395-R397, R438) -/

/-- A cold chip reset: nothing but OTP, NAND and the reset inputs is kept. -/
def State.coldReset (s : State) (cause : Nat) : State := s.rebirth.put Reg.SYS_RESET_CAUSE cause

/-- The blocks of a file's copies take their owner. -/
def Nand.own (n : Nand) (part idx copy : Nat) (blocks : List Nat) : Nand :=
  blocks.foldl (fun n b => n.setBlock b { n.block b with owner := some (part, idx, copy) }) n

/-- What manufacture and earlier use have left is there at the model's first power-up; at a later one nothing is new. -/
def State.fit (s : State) (x : Fitted) : State :=
  if !s.sec.otp.isEmpty || !s.nand.files.isEmpty then s
  else
    let bad := x.factoryBad.foldl (fun n b => n.setBlock b { NBlock.fresh with bad := true }) s.nand
    let owned := x.files.foldl (fun n f => f.2.2.1.zipIdx.foldl (fun n c => n.own f.1 f.2.1 c.2 c.1) n) bad
    let files := x.files.map (fun f : Nat × Nat × List (List Nat) × List Byte =>
      ({ part := f.1, idx := f.2.1, version := 1, blob := Blob.ofBytes f.2.2.2, copies := f.2.2.1, lost := [] } : NFile))
    let n : Nand := { owned with files := files, idRecord := x.idRecord }
    { s with
      nand := if files.any (fun f => bootMapped f.part) then n.bootMap else n
      sec := { s.sec with otp := cellsFrom 0 x.otp } }

/-- Power rises (R395). -/
def State.powerUp (s : State) (fitted : Option Fitted) : State :=
  (match fitted with
   | some x => s.fit x
   | none => s).coldReset 0

/-- RESET_N, filtered (R396). -/
def State.resetN (s : State) (low : Bool) : State :=
  if low then State.coldReset { s with mode := { s.mode with resetLow := true } } 1
  else { s with mode := { s.mode with resetLow := false } }

/-- Every rail is inside its detector window, and REFCLK within 25 % of its nominal 100 MHz (R438). -/
def inWindows (p : PowerSense) : Bool :=
  (700 ≤ p.core && p.core ≤ 800) && (840 ≤ p.srds && p.srds ≤ 960) && (1620 ≤ p.a18 && p.a18 ≤ 1980) && (1620 ≤ p.io18 && p.io18 ≤ 1980) &&
  (2970 ≤ p.io33 && p.io33 ≤ 3630) && p.refclk.any (fun f => decide (75000 ≤ f ∧ f ≤ 125000))

/-- The power-on detector (R438): a rail or REFCLK leaves its window, or all have been back in theirs for 1 ms. -/
def State.powerDetect (s : State) (sense : PowerSense) : State :=
  if inWindows sense then { s with mode := { s.mode with badPower := false } }
  else State.coldReset { s with mode := { s.mode with badPower := true } } 0

/-! ## The part (R366, R367) -/

/-- What NFC_STATUS.PART says of a part. -/
def partCode : Option FoundPart → Nat
  | none => 1
  | some p =>
    if !p.onfi then 2
    else if !p.slc then 3
    else if p.page ≠ 4096 ∨ p.spare < 224 ∨ !([64, 128, 256].contains p.ppb) then 4
    else if p.retry < 4 ∨ !p.nvddr2 then 5
    else if p.ces = 0 ∨ 2 < p.ces ∨ (p.ces = 2 ∧ !p.alike) ∨ p.blocks * p.ppb * 4096 < 536870912 ∨ 8589934592 < p.blocks * p.ppb * 4096 then 6
    else 0

/-- NFC_PART.PPB. -/
def ppbCode (ppb : Nat) : Nat := if ppb = 64 then 0 else if ppb = 128 then 1 else 2

/-- The controller finds its part, or goes without NAND for the epoch. -/
def State.bindPart (s : State) (found : Option FoundPart) : State :=
  let code := partCode found
  let s := s.put Reg.NFC_STATUS_PART code
  match found with
  | some p =>
    if code = 0 then
      let s := s.setNand { s.nand with part := some { ces := p.ces, retry := p.retry, ppb := p.ppb, blocks := p.blocks } }
      (((s.put Reg.NFC_PART_CES p.ces).put Reg.NFC_PART_RETRY (min 15 p.retry)).put Reg.NFC_PART_PPB (ppbCode p.ppb)).put
        Reg.NFC_PART_BLOCKS p.blocks
    else s
  | none => s

/-! ## The boot sequence (R347-R352) -/

/-- Registers f 0, f 1, … take a run of bytes, four each. -/
def State.putBytes (s : State) (f : Nat → Fld) (n : Nat) (bs : List Byte) : State :=
  (List.range n).foldl (fun s i => s.put (f i) (leAt bs (4 * i) 4)) s

/-- Step 2: OTP, known-answer tests, identity key and K1; after a cold reset SYS_EPOCH (R397). -/
def State.bootStep2 (s : State) (io : BootIO) : State :=
  let s : State := { s with sec := { s.sec with otpFail := io.otpFail } }
  let s := if io.otpFail.isEmpty then s else s.raise 14
  let s := s.knownAnswers io.katOk
  let s := if io.entropyOk then s else s.entropyFails
  let s := if s.identityHash = some (Config.sha256 io.key) then
      { s with sec := { s.sec with idKey := some io.key, k1 := true } }
    else s.raise 12
  let s := if s.rd Reg.SYS_RESET_CAUSE ≤ 1 then
      (if s.entropyOk then s.draw.put Reg.SYS_EPOCH_EPOCH (Config.freeBits 32 s.fresh)
       else s.put Reg.SYS_EPOCH_EPOCH (ofLE ((Config.sha256 io.pufRaw).drop 28).reverse))
    else s
  (s.putBytes Reg.SEC_SERIAL_BYTES 4 s.serial).noteKeys

/-- A slot is marked failed. -/
def State.marked (s : State) (i : Nat) : Bool := s.bitOf Reg.SEC_BOOT_STATUS_MARKED i

/-- The R345 code of the image in slot i (0 A, 1 B). -/
def State.slotCode (s : State) (io : BootIO) (i : Nat) : Nat :=
  if s.marked i then 7
  else match (if (if i = 0 then io.readA else io.readB) then s.firmware i else none) with
    | none => 6
    | some img => s.imageCheck img s.rollback

/-- The slots in the order in which they are tried: the first named by PREFER (R348). -/
def State.trySlots (s : State) (io : BootIO) : Nat × Nat :=
  if io.preferOk ∧ s.nand.prefer = 1 then (1, 0) else (0, 1)

/-- The image that passes is loaded over what the ROM has left in the management SRAM, and the ROM jumps to its boot stage (R344, R348,
R349). -/
def State.jump (s : State) (i : Nat) (fallback : Bool) (img : Blob) : State :=
  let s := (s.put Reg.SEC_BOOT_STATUS_IMAGE i).put Reg.SEC_SVN_RUNNING (img.le 8 2)
  let s := s.putBytes Reg.SEC_FW_DIGEST_BYTES 8 (Config.sha256 (img.bytes 0 img.len))
  let s := if fallback then (s.put Reg.SEC_BOOT_STATUS_FALLBACK 1).raise 8 else s
  { s with
    mgmt := { s.mgmt with sram := s.mgmt.sram.splice 0 img.len img.cells, pc := BitVec.ofNat 32 (sramBase + img.le 0x10 4) }
    sec := { s.sec with jumped := some i, runEntry := sramBase + img.le 0x14 4 } }

/-- A copy of the trim package passes: its SERIAL is the device's, and its signature by the vendor root verifies (R351). -/
def State.packagePasses (s : State) (p : TrimPkg) : Bool :=
  p.serial == s.serial && !s.sec.engineOff && s.vendorHash == some (Config.sha256 p.key) && sigOk p.key p.signed p.sig

/-- Step 6: the factory trim package (R351): copy 0, then copy 1. The register values that it holds stay in the management SRAM. -/
def State.loadPackage (s : State) (io : BootIO) : State :=
  match ([io.trim0, io.trim1].filterMap id).find? s.packagePasses with
  | none => s.raise 11
  | some p =>
    let s := (p.plane.filter (fun c => factoryByte c.1)).foldl (fun s c => s.tsSet c.1 c.2.toNat) s
    let s := s.setMgmt { s.mgmt with sram := Memory.canon 0 0x80000 p.left }
    (s.putBytes Reg.SEC_TRIM_DIGEST_BYTES 8 (Config.sha256 (p.signed ++ p.key ++ p.sig))).put Reg.SEC_STATUS_TRIM_OK 1

/-- Recovery (R352). -/
def State.enterRecovery (s : State) : State :=
  let s := (s.put Reg.SEC_BOOT_STATUS_RECOVERY 1).condition 9 true
  if s.on (Reg.LNK_CTRL_EN 0) then s.linkSwitch .host true else s

/-- Steps 3 to 6: the slots in order, the package, the jump; with no image, recovery. -/
def State.selectImage (s : State) (io : BootIO) : State :=
  let (a, b) := s.trySlots io
  let ca := s.slotCode io a
  let s := s.noteCode a ca (s.firmware a)
  if ca = 0 then ((s.loadPackage io).jump a false ((s.firmware a).getD Blob.empty))
  else
    let cb := s.slotCode io b
    let s := s.noteCode b cb (s.firmware b)
    if cb = 0 then ((s.loadPackage io).jump b true ((s.firmware b).getD Blob.empty)) else s.enterRecovery

/-- The boot sequence has not run since the last chip reset: the device is held in Reset, or stands where Boot begins. -/
def State.bootWaits (s : State) : Bool :=
  s.mode.phase = .reset || (s.mode.phase = .boot && s.sec.jumped.isNone && !s.recovery && !s.mgmt.stopped)

/-- Boot starts when RESET_N rises with the power in its windows (R396, R438). -/
def State.bootStart (s : State) (io : BootIO) : State :=
  if !s.bootWaits || s.mode.resetLow || s.mode.badPower then s
  else
    let s : State := { s with mode := { s.mode with phase := .boot, seen := 0x11 } }
    if !io.romOk then State.raise (s.setMgmt { s.mgmt with stopped := true }) 6
    else ((s.bootStep2 io).bindPart io.part).selectImage io

/-- The watchdog of the boot stage (R349). -/
def State.bootWatchdog (s : State) : State :=
  if s.sec.jumped.isSome && s.bootLevel then s.warmReset 5 none else s

/-! ## The end of Boot (R392, R393) -/

/-- The journal is replayed: blocks of writes in progress at a power loss go back to the pool, with FS167; the NAND is ready (R374, R378). -/
def State.replayJournal (s : State) : State :=
  if s.nand.part.isNone then s
  else
    let torn := s.nand.torn
    let s := if torn then (s.setNand { s.nand with torn := false }).raise 167 else s
    let s := s.setNand { s.nand with start := s.nand.saved.bind Saved.start }
    ((s.put Reg.NFC_STATUS_READY 1).put Reg.NFC_STATUS_FAST 1).noteBlocks.noteCkptAge

/-- The symbol library, and slot E. -/
def State.bootLoads (s : State) : State :=
  let (s, lib) := s.readFile 5 0
  let s := match lib with
    | some img => (s.libLoad img).1
    | none => s
  let (s, egress) := s.readFile 6 0
  match egress with
  | some img => (s.flightLoad 2 img).1
  | none => s

/-- The start record is applied in Idle; `index` is the flight stored for its slot (R393). -/
def State.applyStart (s : State) (index : Nat) : State :=
  match s.nand.start with
  | none => s
  | some r =>
    if s.modeOf ≠ .idle then s
    else
      let s := s.setRate r.f r.sc
      let s := (s.put Reg.SYS_FLIGHT_CTRL_SLOT r.slot).put Reg.WEIR_BUDGET_MW (Reg.WEIR_BUDGET_MW.clamp.apply r.budget)
      let (s, img) := s.readFile 6 index
      let s := match img with
        | some img => (s.flightLoad (Fin.ofNat 3 r.slot) img).1
        | none => s
      let s := s.setCommit
      if r.auto && s.slotValid r.slot then s.runWrite else s

/-- Boot ends. -/
def State.bootEnd (s : State) (index : Nat) : State :=
  if s.mode.phase ≠ .boot ∨ s.bootLevel then s
  else
    let s := s.replayJournal.bootLoads.put Reg.SAF_EGRESS_SCENE 1
    let s : State := { s with mode := { s.mode with phase := .running, bootEnd := s.now } }
    let s := if !s.provisioned then s.put Reg.SYS_MODE_PROVISION 1
      else if !s.on Reg.SEC_STATUS_TRIM_OK then s.enterSafeDark 3
      else s.applyStart index
    s.startPairs

end Sys2Proof.Machine
end

