-- ==== Sys2Proof/Machine/ExecBoot.lean ====
section
/-!
DEFINITION. The meanings of the reset inputs, of start-up, of the service button and of the TAP and entropy rows (R347-R349, R362, R363,
R392-R398, R438). -/
namespace Sys2Proof.Machine

/-- A row that acts while the device is held in Reset as well. -/
def State.anyPhase (s : State) (f : State → State) : Host.Outcome State Fault Refusal := .next (f s.settle)

/-- Power rises (R395). -/
def execPowerUp (fitted : Option Fitted) (s : State) : Host.Outcome State Fault Refusal :=
  s.anyPhase (fun s => s.powerUp fitted)

/-- RESET_N, filtered (R396). -/
def execResetN (low : Bool) (s : State) : Host.Outcome State Fault Refusal :=
  s.anyPhase (fun s => s.resetN low)

/-- The power-on detector (R438). -/
def execPowerOnDetect (sense : PowerSense) (s : State) : Host.Outcome State Fault Refusal :=
  s.anyPhase (fun s => s.powerDetect sense)

/-- The boot sequence (R347). -/
def execBootStart (io : BootIO) (s : State) : Host.Outcome State Fault Refusal :=
  s.anyPhase (fun s => s.bootStart io)

/-- 500 ms without DONE (R349). -/
def execBootWatchdog (s : State) : Host.Outcome State Fault Refusal :=
  s.command (fun s => s.bootWatchdog)

/-- The end of Boot (R392). -/
def execBootEnd (index : Fin 23) (s : State) : Host.Outcome State Fault Refusal :=
  s.command (fun s => s.bootEnd index)

/-- The release of a press of SERVICE_N (R398). -/
def execServicePress (ms : Nat) (s : State) : Host.Outcome State Fault Refusal :=
  s.command (fun s => s.servicePress ms)

/-- A press reaches 10 s (R398). -/
def execServiceStuck (s : State) : Host.Outcome State Fault Refusal :=
  s.command (fun s => s.serviceStuck)

/-- SERVICE_N has read high for 1 s (R398). -/
def execServiceStuckClear (s : State) : Host.Outcome State Fault Refusal :=
  s.command (fun s => s.serviceClear)

/-- An entropy health test fails (R363). -/
def execEntropyHealthFail (s : State) : Host.Outcome State Fault Refusal :=
  s.command (fun s => s.entropyFails)

/-- The entropy health tests pass again (R363). -/
def execEntropyHealthRestored (s : State) : Host.Outcome State Fault Refusal :=
  s.command (fun s => s.entropyPasses)

/-- The TAP instruction SEC_CHAL (R362). -/
def execSecChal (s : State) : Host.Outcome State Fault Refusal :=
  s.command (fun s => s.tapChallenge)

/-- The TAP instruction SEC_TOKEN (R362). -/
def execSecToken (token : List Byte) (s : State) : Host.Outcome State Fault Refusal :=
  s.command (fun s => s.tapToken token)

/-- EXTEST is selected or left (R362). -/
def execExtest (selected : Bool) (s : State) : Host.Outcome State Fault Refusal :=
  s.command (fun s => s.tapExtest selected)

end Sys2Proof.Machine
end

