-- ==== Sys2Proof/Machine/Issue.lean ====
section
/-!
DEFINITION. Who may issue an encoding, and in which slot (R41, R66, R68): the common scalar instructions, those of Elvoth-V alone, those
of Elvoth-S alone. An encoding of the other profile is illegal in a chamber and traps with cause 0x01 in a management core.
-/
namespace Sys2Proof.Machine

/-- The cores go on at the leading core's state, without the register writeback and the SRAM write, which are outputs of the mismatching
cycle (R65). -/
def Mgmt.leading (old new : Mgmt) : Mgmt :=
  { old with
    pc := new.pc, ie := new.ie, trapActive := new.trapActive, nmiActive := new.nmiActive, trapCause := new.trapCause, trapPc := new.trapPc,
    trapVal := new.trapVal, waiting := new.waiting, stopped := new.stopped }

/-- An instruction in whose cycle the cores' outputs differ: FS000, and none of its outputs reaches anything (R65). -/
def State.lockSplit (s : State) (m : State → State) : State := State.raise (s.setMgmt (s.mgmt.leading (m s).mgmt)) 0

/-- An instruction of both profiles: `v` its meaning in a chamber, `m` in the management cores. -/
def State.common (s : State) (e : Engine) (v : State → ChamberId → State) (m : State → State) : State :=
  match e with
  | .chamber c => s.issueScalar c (fun s => v s c)
  | .mgmt => s.issueMgmt m
  | .mgmtSplit => s.issueMgmt (fun s => s.lockSplit m)

/-- A scalar-slot instruction of Elvoth-V; `major` and `f` are its word in a management core. -/
def State.scalarOnly (s : State) (e : Engine) (major : Nat) (f : Fields) (v : State → ChamberId → State) : State :=
  match e with
  | .chamber c => s.issueScalar c (fun s => v s c)
  | .mgmt => s.issueMgmt (fun s => s.mIllegal major f)
  | .mgmtSplit => s.issueMgmt (fun s => s.lockSplit (fun s => s.mIllegal major f))

/-- A vector-slot instruction of Elvoth-V. -/
def State.vectorOnly (s : State) (e : Engine) (major : Nat) (f : Fields) (v : State → ChamberId → State) : State :=
  match e with
  | .chamber c => s.issueVector c (fun s => v s c)
  | .mgmt => s.issueMgmt (fun s => s.mIllegal major f)
  | .mgmtSplit => s.issueMgmt (fun s => s.lockSplit (fun s => s.mIllegal major f))

/-- An instruction of Elvoth-S. -/
def State.coreOnly (s : State) (e : Engine) (m : State → State) : State :=
  match e with
  | .chamber c => s.issueScalar c (fun s => s.illegal c)
  | .mgmt => s.issueMgmt m
  | .mgmtSplit => s.issueMgmt (fun s => s.lockSplit m)

/-- The operation is the one its row names; a minor that its row does not name is unassigned there, and illegal (R66). -/
def State.chMinor (s : State) (c : ChamberId) (holds : Bool) (g : State → State) : State := if holds then g s else s.illegal c

/-- The same in a management core. -/
def State.mMinor (s : State) (f : Fields) (n : Nat) (g : State → State) : State := if f.minor.toNat = n then g s else s.mIllegal 0x23 f

end Sys2Proof.Machine
end

