-- ==== Sys2Proof/Machine/ExecCore.lean ====
section
/-!
DEFINITION. The meanings of the Elvoth-S rows and of the management cores' interrupts (R62-R65, R73-R75).
-/
namespace Sys2Proof.Machine

/-- LW, LH, LHU, LB, LBU (R73). -/
def execElvothSLoad (e : Engine) (op : LoadOp) (f : Fields) (io : MgmtIO) (s : State) : Host.Outcome State Fault Refusal :=
  s.command (fun s => s.coreOnly e (fun s => s.mLoad op f io))

/-- SW, SH, SB (R73). -/
def execElvothSStore (e : Engine) (op : StoreOp) (f : Fields) (io : MgmtIO) (s : State) : Host.Outcome State Fault Refusal :=
  s.command (fun s => s.coreOnly e (fun s => s.mStore op f io))

/-- BEQ, BNE, BLT, BGE, BLTU, BGEU (R74). -/
def execBranch (e : Engine) (op : BranchOp) (f : Fields) (s : State) : Host.Outcome State Fault Refusal :=
  s.command (fun s => s.coreOnly e (fun s => s.mBranch op f))

/-- JAL (R74). -/
def execJal (e : Engine) (f : Fields) (s : State) : Host.Outcome State Fault Refusal :=
  s.command (fun s => s.coreOnly e (fun s => s.mJal f))

/-- JALR (R74). -/
def execJalr (e : Engine) (f : Fields) (s : State) : Host.Outcome State Fault Refusal :=
  s.command (fun s => s.coreOnly e (fun s => s.mJalr f))

/-- CWR (R62). -/
def execCwr (e : Engine) (f : Fields) (s : State) : Host.Outcome State Fault Refusal :=
  s.command (fun s => s.coreOnly e (fun s => s.mCwr f))

/-- CWW (R62). -/
def execCww (e : Engine) (f : Fields) (s : State) : Host.Outcome State Fault Refusal :=
  s.command (fun s => s.coreOnly e (fun s => if e = .mgmtSplit then s.mCwwDropped f else s.mCww f))

/-- A write of 1 to CW_NMI_ACK (R64, R257). -/
def execNmiAck (s : State) : Host.Outcome State Fault Refusal :=
  s.command (fun s => s.nmiAck)

/-- TRAP (R75). -/
def execTrap (e : Engine) (f : Fields) (s : State) : Host.Outcome State Fault Refusal :=
  s.command (fun s => s.coreOnly e (fun s => s.mTrap f))

/-- RETT, minor 0x00 of major 0x23 (R63). -/
def execRett (e : Engine) (f : Fields) (s : State) : Host.Outcome State Fault Refusal :=
  s.command (fun s => s.coreOnly e (fun s => s.mMinor f 0 (fun s => s.mRett f)))

/-- RETN, minor 0x01 (R64, R75). -/
def execRetn (e : Engine) (f : Fields) (s : State) : Host.Outcome State Fault Refusal :=
  s.command (fun s => s.coreOnly e (fun s => s.mMinor f 1 (fun s => s.mRetn f)))

/-- WFI, minor 0x02 (R75). -/
def execWfi (e : Engine) (f : Fields) (s : State) : Host.Outcome State Fault Refusal :=
  s.command (fun s => s.coreOnly e (fun s => s.mMinor f 2 (fun s => s.mWfi f)))

/-- FENCE, minor 0x03 (R75). -/
def execFence (e : Engine) (f : Fields) (s : State) : Host.Outcome State Fault Refusal :=
  s.command (fun s => s.coreOnly e (fun s => s.mMinor f 3 (fun s => s.mFence f)))

/-- A pending maskable interrupt is taken (R63). -/
def execInterruptTake (s : State) : Host.Outcome State Fault Refusal :=
  s.command (fun s => s.takeInt)

/-- A pending NMI is taken between instructions, unless one is active: it is then held (R64). -/
def execNmiTake (s : State) : Host.Outcome State Fault Refusal :=
  s.command (fun s => if s.mgmt.nmiPending && !s.mgmt.nmiActive && !s.mgmt.stopped then s.takeNmi else s)

end Sys2Proof.Machine
end

