-- ==== Sys2Proof/Machine/ExecLink.lean ====
section
/-!
DEFINITION. The meanings of the link rows (R264-R289).
-/
namespace Sys2Proof.Machine

/-- The poll for receivers in DETECT (R270). -/
def execLinkDetectPoll (link : LinkId) (lanes : BitVec 4) (s : State) : Host.Outcome State Fault Refusal :=
  s.command (fun s => s.detectPoll link lanes.toNat)

/-- A TP1 or TP2 set (R271). -/
def execTrainingSet (link : LinkId) (lane : Fin 4) (tp2 : Bool) (number rates preset flags : BitVec 8) (s : State) : Host.Outcome State Fault Refusal :=
  s.command (fun s => s.trainingSet link lane tp2 number.toNat rates.toNat preset.toNat flags.toNat)

/-- 24 ms in TRAIN at one rate (R270). -/
def execTrainTimeout (link : LinkId) (s : State) : Host.Outcome State Fault Refusal :=
  s.command (fun s => s.trainTimeout link)

/-- A SLACK set (R268, R272). -/
def execSlackSet (link : LinkId) (lanes : List SlackLane) (s : State) : Host.Outcome State Fault Refusal :=
  s.command (fun s => s.slackSet link lanes)

/-- 2 ms in LOCK (R270). -/
def execLockTimeout (link : LinkId) (s : State) : Host.Outcome State Fault Refusal :=
  s.command (fun s => s.lockTimeout link)

/-- A CAPS set goes out (R273). -/
def execCapsSend (link : LinkId) (s : State) : Host.Outcome State Fault Refusal :=
  s.command (fun s => s.sendCaps link)

/-- A CAPS set arrives (R273). -/
def execCaps (link : LinkId) (content : List Byte) (crc : W32) (s : State) : Host.Outcome State Fault Refusal :=
  s.command (fun s => s.takeCaps link content crc.toNat)

/-- 2 ms in EXCHANGE (R270). -/
def execExchangeTimeout (link : LinkId) (s : State) : Host.Outcome State Fault Refusal :=
  s.command (fun s => s.exchangeTimeout link)

/-- WIDTH sets arrive (R284). -/
def execWidthSet (link : LinkId) (w : WidthBytes) (s : State) : Host.Outcome State Fault Refusal :=
  s.command (fun s => s.widthArrives link w.mask w.inverse)

/-- A lane is lost (R284). -/
def execLaneLoss (link : LinkId) (lane : Fin 4) (s : State) : Host.Outcome State Fault Refusal :=
  s.command (fun s => s.loseLane link lane)

/-- A clean lane is offered back (R285). -/
def execLaneReturn (link : LinkId) (lane : Fin 4) (s : State) : Host.Outcome State Fault Refusal :=
  s.command (fun s => s.offerLane link lane)

/-- 1 ms of electrical idle on every lane (R270). -/
def execElectricalIdle (link : LinkId) (s : State) : Host.Outcome State Fault Refusal :=
  s.command (fun s => s.toRecover link)

/-- RECOVER_MS has passed (R286). -/
def execRecoverTimeout (link : LinkId) (s : State) : Host.Outcome State Fault Refusal :=
  s.command (fun s => s.recoverTimeout link)

/-- A WR packet arrives (R283). -/
def execWr (pkt : RxPacket) (addr : W32) (s : State) : Host.Outcome State Fault Refusal :=
  s.command (fun s => s.rxWr pkt addr.toNat)

/-- An RD packet arrives (R283). -/
def execRd (pkt : RxPacket) (addr : W32) (len : BitVec 11) (errs : List (Nat × Ecc)) (s : State) : Host.Outcome State Fault Refusal :=
  s.command (fun s => s.rxRd pkt addr.toNat len.toNat errs)

/-- A SAFE packet arrives (R276, R304). -/
def execSafe (pkt : RxPacket) (s : State) : Host.Outcome State Fault Refusal :=
  s.command (fun s => s.rxSafe pkt)

/-- A TIME packet arrives (R287). -/
def execTime (pkt : RxPacket) (s : State) : Host.Outcome State Fault Refusal :=
  s.command (fun s => s.rxTime pkt)

/-- An ACK arrives (R280). -/
def execAck (link : LinkId) (f : AckFields) (crc : BitVec 16) (s : State) : Host.Outcome State Fault Refusal :=
  s.command (fun s => if s.linkUp link && controlOk 1 f.last.toNat f.limit.toNat crc.toNat then s.takeAck link f.last.toNat f.limit.toNat else s)

/-- A NAK arrives (R281). -/
def execNak (link : LinkId) (f : AckFields) (crc : BitVec 16) (s : State) : Host.Outcome State Fault Refusal :=
  s.command (fun s => if s.linkUp link && controlOk 2 f.last.toNat f.limit.toNat crc.toNat then s.takeNak link f.last.toNat f.limit.toNat else s)

/-- An ACK goes out for what has landed (R280). -/
def execAckSend (link : LinkId) (s : State) : Host.Outcome State Fault Refusal :=
  s.command (fun s => if s.linkUp link && decide (0 < (s.linkAt link).unacked) then s.acknowledge link else s)

/-- 20 µs without progress (R281). -/
def execReplayTimeout (link : LinkId) (s : State) : Host.Outcome State Fault Refusal :=
  s.command (fun s => if s.linkUp link then s.replay link else s)

/-- PKT_NS without a symbol within a packet (R282). -/
def execPktTimeout (link : LinkId) (s : State) : Host.Outcome State Fault Refusal :=
  s.command (fun s => s.packetTimeout link)

/-- A packet ended with ABT is discarded, without NAK or fault (R282); nothing of it has been taken. -/
def execAbortedPacket (_link : LinkId) (s : State) : Host.Outcome State Fault Refusal :=
  s.command (fun s => s)

/-- A packet that breaks the type table (R276). -/
def execMalformedPacket (link : LinkId) (raw : RawPacket) (s : State) : Host.Outcome State Fault Refusal :=
  s.command (fun s => s.receive link raw.pkt raw.type.toNat raw.len.toNat raw.addr.toNat false false (fun s _ => s))

/-- An elastic buffer overflows or underflows (R268). -/
def execElasticBufferOverflow (link : LinkId) (lane : Fin 4) (s : State) : Host.Outcome State Fault Refusal :=
  s.command (fun s => s.elasticFails link lane)

/-- An eye scan completes (R288). -/
def execEyeScanEnd (lane : Fin 6) (ones zeros : Nat) (s : State) : Host.Outcome State Fault Refusal :=
  s.command (fun s => s.eyeEnd lane (ones + zeros))

end Sys2Proof.Machine
end

