-- ==== Sys2Proof/Machine/NandCmd.lean ====
section
/-!
DEFINITION. The NAND rows beside the storage itself (R309, R368-R382): the sectors that pass snoop point 5, the SYNC command that waits for the
deferral queue, and the temperature window.
-/
namespace Sys2Proof.Machine

/-! ## Sectors at snoop point 5 (R309) -/

/-- A sector whose bytes the spec does not state passes the point: the check value is free. -/
def State.chkSectorFree (s : State) (dir : Nat) : State :=
  (List.range 8).foldl (fun s u =>
    if s.chkWants 5 dir u then
      State.chkRecord s.draw u [] (some (Config.freeBits (8 * crcSize (s.rd (Reg.CHK_CFG_POLY u))) s.fresh))
    else s) s

/-- A sector passes: to the ECC encoder (0) or from the decoder (1). -/
def State.chkSector (s : State) (dir : Nat) (bytes : Option (List Byte)) : State :=
  match bytes with
  | some bs => s.chkSnoop 5 dir bs
  | none => s.chkSectorFree dir

/-- Sector k of stored bytes; none where it is not wholly inside them. -/
def Blob.sector (b : Blob) (k : Nat) : Option (List Byte) := if (k + 1) * 1024 ≤ b.len then some (b.bytes (k * 1024) 1024) else none

/-- An erased sector reads as 0xFF (R370). -/
def erasedSector : List Byte := List.replicate 1024 0xFF#8

/-- Sector `sector` of a page of block b as its file holds it; a page beyond those of the file is erased, and so is a block of the free pool. -/
def Nand.sectorAt (n : Nand) (b page sector : Nat) : Option (List Byte) :=
  match (n.filesIn b).head? with
  | some f =>
    let k := f.placeOf b * n.ppb + page
    if f.part = 9 then none else if pagesOf f.blob.len ≤ k then some erasedSector else f.blob.sector (k * 4 + sector)
  | none =>
    if n.free.contains b then some erasedSector
    else if n.bootBlocks.contains b then
      match (n.boot.filter (fun x => x.1 = b))[page]? with
      | some x => some (((x.2.bytes n.perCe).drop (sector * 1024)).take 1024)
      | none => some erasedSector
    else none

/-- A page is erased: nothing has been programmed in it (R370). -/
def Nand.erasedAt (n : Nand) (b page sector : Nat) : Bool :=
  n.sectorAt b page sector = some erasedSector && (n.pageMeta b page).isNone

/-- Sector k of the page that a write in progress programs next, for a move as the moved block's file holds it; none for a journal page and a
BACKUP generation. -/
def State.jobSector (s : State) (j : NJob) (k : Nat) : Option (List Byte) :=
  if j.page + 1 = j.pages then none
  else match j.kind with
    | .file => j.blob.sector (j.page * 4 + k)
    | .checkpoint => some (s.trim.ledger.readBytes (j.page * 4096 + k * 1024) 1024)
    | .move old _ _ => s.nand.sectorAt old j.page k
    | .backup => none

/-! ## The rows -/

/-- A sector read (R370): a sector that is decoded passes point 5. In an erased page `corrected` counts the zero bits, and up to 8 of them
raise nothing. -/
def State.sectorRead (s : State) (b page sector corrected : Nat) (level : Option Nat) : State :=
  if s.nand.total ≤ b ∨ s.nand.ppb ≤ page then s
  else if s.nand.erasedAt b page sector && decide (corrected ≤ 8) then (s.countRead b).chkSector 1 (some erasedSector)
  else
    let bytes := s.nand.sectorAt b page sector
    let s := s.readSector b page sector corrected level
    if corrected ≤ 24 ∨ level.isSome then s.chkSector 1 bytes else s

/-- A program or an erase may end: it began while the window was open, or was under way as the window closed (R242). -/
def State.mayEnd (s : State) : Bool := s.nandWindow || s.nand.underway

/-- The operation under way when the window closed has ended. -/
def State.opEnded (s : State) : State := s.setNand { s.nand with underway := false }

/-- A page program (R375): its four sectors have passed point 5. -/
def State.pageProgram (s : State) (ok : Bool) : State :=
  if !s.mayEnd then s
  else match s.nand.jobs with
    | [] => s
    | j :: _ => State.programDone ((List.range 4).foldl (fun s k => s.chkSector 0 (s.jobSector j k)) s.opEnded) ok

/-- A block erase (R375). -/
def State.blockErase (s : State) (ok : Bool) : State :=
  if !s.mayEnd || s.nand.erasing.isEmpty then s else s.opEnded.eraseDone ok

/-- A timeout of the controller (R368). -/
def State.timeoutRow (s : State) : State := if s.nand.part.isNone then s else s.nandTimeout

/-- SYNC that waits completes when the queue is empty, or with TEMPERATURE when the window closes (R382). -/
def State.noteSync (s : State) : State :=
  if !s.executing .session 0x52 then s
  else if s.nand.deferred.isEmpty then s.status .session 0
  else if s.nandWindow then s
  else s.status .session 5

/-- The window may have changed from `was`: an operation under way as it closes goes on to its end (R242: an operation starts only within the
window), FS166 follows, and a SYNC that waits. -/
def State.noteWindow (s : State) (was : Bool) : State :=
  let busy := !s.nand.jobs.isEmpty || !s.nand.erasing.isEmpty
  let s := if was && !s.nandWindow then s.setNand { s.nand with underway := busy } else s
  s.noteDeferral.noteSync

/-- The queue runs (R382). -/
def State.deferralRow (s : State) : State := s.resumeDeferred.noteSync

end Sys2Proof.Machine
end

