-- ==== Sys2Proof/Machine/ExecNand.lean ====
section
/-!
DEFINITION. The meanings of the NAND rows (R368-R382).
-/
namespace Sys2Proof.Machine

/-- A sector read (R370). -/
def execNandReadSector (block page : Nat) (sector : Fin 4) (corrected : Nat) (level : Option Nat) (s : State) : Host.Outcome State Fault Refusal :=
  s.command (fun s => s.sectorRead block page sector.val corrected level)

/-- A page program ends (R375). -/
def execNandProgramDone (ok : Bool) (s : State) : Host.Outcome State Fault Refusal :=
  s.command (fun s => s.pageProgram ok)

/-- A block erase ends (R375). -/
def execNandEraseDone (ok : Bool) (s : State) : Host.Outcome State Fault Refusal :=
  s.command (fun s => s.blockErase ok)

/-- A timeout (R368). -/
def execNandTimeout (s : State) : Host.Outcome State Fault Refusal :=
  s.command (fun s => s.timeoutRow)

/-- PERIOD_S powered seconds since the last checkpoint (R380). -/
def execCheckpointTimer (s : State) : Host.Outcome State Fault Refusal :=
  s.command (fun s => s.checkpoint none)

/-- The scrub reads the next block (R378). -/
def execNandScrubStep (s : State) : Host.Outcome State Fault Refusal :=
  s.command (fun s => s.scrubBlock)

/-- Hourly wear levelling (R376). -/
def execWearLevelMove (s : State) : Host.Outcome State Fault Refusal :=
  s.command (fun s => s.wearLevel)

/-- The refresh of a queued block (R379). -/
def execRefresh (s : State) : Host.Outcome State Fault Refusal :=
  s.command (fun s => s.startRefresh)

/-- The write window opens again (R382). -/
def execDeferralResume (s : State) : Host.Outcome State Fault Refusal :=
  s.command (fun s => s.deferralRow)

end Sys2Proof.Machine
end

