-- ==== Sys2Proof/Machine/ExecPair.lean ====
section
/-!
DEFINITION. The meanings of the pairing rows (R314-R333).
-/
namespace Sys2Proof.Machine

/-- An XFER packet (R318). -/
def execXfer (pkt : RxPacket) (addr : W32) (s : State) : Host.Outcome State Fault Refusal :=
  s.command (fun s => s.rxXfer pkt addr.toNat)

/-- An XCTL record (R333). -/
def execXctl (pkt : RxPacket) (s : State) : Host.Outcome State Fault Refusal :=
  s.command (fun s => s.rxXctl pkt)

/-- The twin's SLUICE record (R319, R323). -/
def execSluiceRecord (pkt : RxPacket) (arrival : Int) (s : State) : Host.Outcome State Fault Refusal :=
  s.command (fun s => s.rxRecord pkt arrival)

/-- No record by chamber cycle 12,000 (R323). -/
def execSluiceRecordTimeout (s : State) : Host.Outcome State Fault Refusal :=
  s.command (fun s => s.sluiceForce)

/-- MAP entries (R325). -/
def execMap (pkt : RxPacket) (s : State) : Host.Outcome State Fault Refusal :=
  s.command (fun s => s.rxMap pkt)

/-- A SEAL (R326). -/
def execSeal (pkt : RxPacket) (s : State) : Host.Outcome State Fault Refusal :=
  s.command (fun s => s.rxSeal pkt)

/-- The twin's frame CRCs (R327). -/
def execFcrc (pkt : RxPacket) (s : State) : Host.Outcome State Fault Refusal :=
  s.command (fun s => s.rxFcrc pkt)

/-- An ECHO (R321). -/
def execEcho (pkt : RxPacket) (ticks : Nat) (s : State) : Host.Outcome State Fault Refusal :=
  s.command (fun s => s.rxEcho pkt ticks)

/-- Changes of the local map go out (R325). -/
def execLocalMapSend (s : State) : Host.Outcome State Fault Refusal :=
  s.command (fun s => s.localMapSend)

/-- A ROLE value is recognised (R314). -/
def execRoleRecognised (role : BitVec 2) (s : State) : Host.Outcome State Fault Refusal :=
  s.command (fun s => s.roleRecognised role.toNat)

end Sys2Proof.Machine
end

