-- ==== Sys2Proof/Machine/ExecReg.lean ====
section
/-!
DEFINITION. The meanings of the register rows (R14, R17, R23-R37, R139-R144, R172, R226, R249-R258, R270, R288, R293, R332, R380, R389-R397,
R404-R418, R424, R427): each is the write, or the read, of the register that the row names, as its requester makes it. -/
namespace Sys2Proof.Machine

/-- A word write of the register at an offset. -/
def State.writeReg (s : State) (who : Requester) (off v : Nat) : State := s.regWrite who (regBase + off) (leBytes v 4)

/-- A word write in which the bits of `mask` become those of v, and the others keep the values they read. -/
def State.writeBits (s : State) (who : Requester) (off mask v : Nat) : State :=
  let w := s.regWord off
  s.writeReg who off (w - (w &&& mask) + v)

/-- The timer of R257 expires while it runs: FS005, and a chip reset where FLT_ESCALATE.EN is 1. -/
def State.escalationExpires (s : State) : State :=
  if s.flt.escalateAt.isNone then s
  else
    let s := { s with flt := { s.flt with escalateAt := none } }
    let s := ((s.put Reg.FLT_NMI_TIMING 0).flag Reg.FLT_NMI_OVERDUE).raise 5
    if s.on Reg.FLT_ESCALATE_EN then s.requestReset 5 else s

/-- The live bit of a control-class event source falls (R250). -/
def State.liveExpires (s : State) (n : Nat) : State :=
  if (Src.info n).kind = .event && !Src.light n then s.setLive n false else s

/-- The block is ready again: a link that is enabled goes from DISABLED to DETECT (R252, R270); the security engine has repeated its
known-answer tests, with the outcome `katOk` (R363). -/
def State.blockReady (s : State) (b : Block) (katOk : Bool) : State :=
  if !s.flt.inReset.contains b then s
  else
    let s := { s with flt := { s.flt with inReset := s.flt.inReset.filter (· ≠ b) } }
    match b with
    | .hostLink => if s.on (Reg.LNK_CTRL_EN 0) then s.linkSwitch .host true else s
    | .peerLink => if s.on (Reg.LNK_CTRL_EN 1) then s.linkSwitch .peer true else s
    | .security => s.knownAnswers katOk
    | _ => s

/-- FLT_CLEAR (R250). -/
def execFltClear (who : Requester) (word : Fin 6) (mask : W32) (s : State) : Host.Outcome State Fault Refusal :=
  s.command (fun s => s.writeReg who (0xD160 + 4 * word.val) mask.toNat)

/-- FLT_FORCE (R258). -/
def execFltForce (who : Requester) (word : Fin 6) (value : W32) (s : State) : Host.Outcome State Fault Refusal :=
  s.command (fun s => s.writeReg who (0xD140 + 4 * word.val) value.toNat)

/-- EYE_CTRL with START (R288). -/
def execEyeScanStart (who : Requester) (lane : Fin 6) (volt : BitVec 8) (phase : BitVec 6) (exp : BitVec 6) (s : State) : Host.Outcome State Fault Refusal :=
  s.command (fun s => s.writeReg who (0x8800 + 16 * lane.val) (volt.toNat * 2 ^ 24 + phase.toNat * 2 ^ 16 + exp.toNat * 2 ^ 8 + 1))

/-- EYE_CTRL with STOP (R288). -/
def execEyeScanStop (who : Requester) (lane : Fin 6) (s : State) : Host.Outcome State Fault Refusal :=
  s.command (fun s => s.writeBits who (0x8800 + 16 * lane.val) 2 2)

/-- A write of register space (R404, R409), or of another range of the map through the debug port (R362). -/
def execRegisterWrite (who : Requester) (a : W32) (data : List Byte) (s : State) : Host.Outcome State Fault Refusal :=
  s.command (fun s => s.portWrite who a.toNat data)

/-- A read of register space, which clears RC fields (R406), or of another range of the map through the debug port. -/
def execRegisterReadClear (who : Requester) (span : Span) (errs : List (Nat × Ecc)) (s : State) : Host.Outcome State Fault Refusal :=
  s.command (fun s => s.portRead who span.addr.toNat span.len errs)

/-- A read of the bit alias (R407). -/
def execBitAliasRead (who : Requester) (off : BitVec 21) (s : State) : Host.Outcome State Fault Refusal :=
  s.command (fun s => s.regRead who (aliasBase + off.toNat) 4)

/-- A write of the bit alias (R408). -/
def execBitAliasWrite (who : Requester) (off : BitVec 21) (data : W32) (s : State) : Host.Outcome State Fault Refusal :=
  s.command (fun s => s.regWrite who (aliasBase + off.toNat) (leBytes data.toNat 4))

/-- SEQ_COMMIT.COMMIT (R33). -/
def execCommit (who : Requester) (s : State) : Host.Outcome State Fault Refusal :=
  s.command (fun s => s.writeReg who 0x1004 1)

/-- SEQ_RATE (R23). -/
def execSeqRateWrite (who : Requester) (f : BitVec 8) (s_ : BitVec 6) (s : State) : Host.Outcome State Fault Refusal :=
  s.command (fun s => s.writeReg who 0x1008 (f.toNat * 65536 + s_.toNat))

/-- SEQ_LOCK_NUMBER_SET, then SEQ_LOCK_LOAD.LOAD (R37). -/
def execLockLoad (who : Requester) (value : W32) (s : State) : Host.Outcome State Fault Refusal :=
  s.command (fun s => s.regWrite who (regBase + 0x1034) (leBytes value.toNat 4 ++ leBytes 1 4))

/-- SEQ_CTRL.RUN set (R123). -/
def execRunSet (who : Requester) (s : State) : Host.Outcome State Fault Refusal :=
  s.command (fun s => s.writeBits who 0x1000 1 1)

/-- SEQ_CTRL.RUN cleared (R27). -/
def execRunClear (who : Requester) (s : State) : Host.Outcome State Fault Refusal :=
  s.command (fun s => s.writeBits who 0x1000 1 0)

/-- SYS_REACH_RESET (R17). -/
def execReachReset (who : Requester) (reaches : BitVec 16) (s : State) : Host.Outcome State Fault Refusal :=
  s.command (fun s => s.writeReg who 0x0040 reaches.toNat)

/-- BAS_BERTH_CMD with READY (R144). -/
def execReady (who : Requester) (berth : Fin 64) (target : Fin 64) (s : State) : Host.Outcome State Fault Refusal :=
  s.command (fun s => s.writeReg who 0x3000 (0x10000 + target.val * 256 + berth.val))

/-- BAS_BERTH_CMD with CANCEL (R144). -/
def execCancel (who : Requester) (berth : Fin 64) (s : State) : Host.Outcome State Fault Refusal :=
  s.command (fun s => s.writeReg who 0x3000 (0x20000 + berth.val))

/-- BAS_BERTH_CMD with RELEASE (R144). -/
def execRelease (who : Requester) (berth : Fin 64) (s : State) : Host.Outcome State Fault Refusal :=
  s.command (fun s => s.writeReg who 0x3000 (0x40000 + berth.val))

/-- BAS_BERTH_CMD with RETIRE (R144). -/
def execRetire (who : Requester) (berth : Fin 64) (s : State) : Host.Outcome State Fault Refusal :=
  s.command (fun s => s.writeReg who 0x3000 (0x80000 + berth.val))

/-- BAS_BERTH_PLACE (R139). -/
def execBerthPlace (who : Requester) (berth : Fin 64) (base : BitVec 15) (size : BitVec 16) (s : State) : Host.Outcome State Fault Refusal :=
  s.command (fun s => s.writeReg who (0x3100 + 16 * berth.val) (size.toNat * 65536 + base.toNat))

/-- BAS_BERTH_FMT (R139). -/
def execBerthFmt (who : Requester) (berth : Fin 64) (format : BitVec 3) (res : BitVec 2) (s : State) : Host.Outcome State Fault Refusal :=
  s.command (fun s => s.writeReg who (0x3104 + 16 * berth.val) (format.toNat * 4 + res.toNat))

/-- A write to the trim store (R172). -/
def execTrimStoreWrite (off : BitVec 23) (data : List Byte) (s : State) : Host.Outcome State Fault Refusal :=
  s.command (fun s => (s.trimWrite off.toNat data).1)

/-- CAL_CMD (R226). -/
def execCalCmd (who : Requester) (reaches : BitVec 16) (s : State) : Host.Outcome State Fault Refusal :=
  s.command (fun s => s.writeReg who 0x7004 reaches.toNat)

/-- SAF_CMD.REARM (R293). -/
def execRearm (who : Requester) (pairs : BitVec 4) (s : State) : Host.Outcome State Fault Refusal :=
  s.command (fun s => s.writeReg who 0xA03C pairs.toNat)

/-- LNK_CTRL.RETRAIN (R270). -/
def execRetrain (who : Requester) (link : LinkId) (s : State) : Host.Outcome State Fault Refusal :=
  s.command (fun s => s.writeBits who (0x8000 + 256 * link.num) 4 4)

/-- LNK_CTRL.EN (R270). -/
def execLinkEnable (who : Requester) (link : LinkId) (on : Bool) (s : State) : Host.Outcome State Fault Refusal :=
  s.command (fun s => s.writeBits who (0x8000 + 256 * link.num) 1 (b2n on))

/-- PEER_CTRL.RESYNC (R332). -/
def execPeerCtrlResync (who : Requester) (s : State) : Host.Outcome State Fault Refusal :=
  s.command (fun s => s.writeReg who 0x9004 1)

/-- SYS_MODE_CTRL.CHIP_RESET (R397). -/
def execChipReset (who : Requester) (s : State) : Host.Outcome State Fault Refusal :=
  s.command (fun s => s.writeReg who 0x0024 8)

/-- SYS_MODE_CTRL.SAFE_DARK (R390). -/
def execSafeDark (who : Requester) (s : State) : Host.Outcome State Fault Refusal :=
  s.command (fun s => s.writeReg who 0x0024 4)

/-- SYS_MODE_CTRL.CLEAR_SAFE_DARK (R390). -/
def execClearSafeDark (who : Requester) (s : State) : Host.Outcome State Fault Refusal :=
  s.command (fun s => s.writeReg who 0x0024 2)

/-- SYS_MODE_CTRL.RESUME (R389). -/
def execResume (who : Requester) (s : State) : Host.Outcome State Fault Refusal :=
  s.command (fun s => s.writeReg who 0x0024 1)

/-- NFC_CTRL.CHECKPOINT (R380). -/
def execNfcCheckpoint (who : Requester) (s : State) : Host.Outcome State Fault Refusal :=
  s.command (fun s => s.writeBits who 0xC000 2 2)

/-- RIF_CRC_CTRL.COMMIT (R418). -/
def execCrcCommit (who : Requester) (s : State) : Host.Outcome State Fault Refusal :=
  s.command (fun s => s.writeBits who 0xE000 4 4)

/-- RIF_CRC_CTRL.HOLD (R417). -/
def execCrcHold (who : Requester) (on : Bool) (s : State) : Host.Outcome State Fault Refusal :=
  s.command (fun s => s.writeBits who 0xE000 2 (2 * b2n on))

/-- RIF_CRC_CTRL.EN (R417). -/
def execCrcEn (who : Requester) (s : State) : Host.Outcome State Fault Refusal :=
  s.command (fun s => s.writeBits who 0xE000 1 1)

/-- HOLD clears itself (R417). -/
def execHoldExpire (s : State) : Host.Outcome State Fault Refusal :=
  s.command (fun s => s.holdExpire)

/-- A sweep of the configuration CRC (R416). -/
def execCrcSweep (s : State) : Host.Outcome State Fault Refusal :=
  s.command (fun s => s.crcSweep)

/-- WHF_CMD_TAIL of a pair (R424). -/
def execWhfCmdTail (who : Requester) (pair : Pair) (value : W32) (s : State) : Host.Outcome State Fault Refusal :=
  s.command (fun s => s.writeReg who (0xF000 + 32 * pair.num) value.toNat)

/-- WHF_CPL_READ of a pair (R424). -/
def execWhfCplRead (who : Requester) (pair : Pair) (value : W32) (s : State) : Host.Outcome State Fault Refusal :=
  s.command (fun s => s.writeReg who (0xF00C + 32 * pair.num) value.toNat)

/-- WHF_TELEM_READ (R427). -/
def execWhfTelemRead (who : Requester) (value : W32) (s : State) : Host.Outcome State Fault Refusal :=
  s.command (fun s => s.writeReg who 0xF048 value.toNat)

/-- The write of SEC_BOOT_CTRL.DONE by the boot stage (R349). -/
def execBootDone (s : State) : Host.Outcome State Fault Refusal :=
  s.command (fun s => s.writeReg .mgmt 0xB080 1)

/-- The escalation timer expires (R257). -/
def execEscalationTimeout (s : State) : Host.Outcome State Fault Refusal :=
  s.command (fun s => s.escalationExpires)

/-- 1 ms after the last raise of a control-class event source (R250). -/
def execLiveBitExpire (source : Fin 192) (s : State) : Host.Outcome State Fault Refusal :=
  s.command (fun s => s.liveExpires source)

/-- A block reset ends (R252). -/
def execBlockResetDone (block : Block) (katOk : Bool) (s : State) : Host.Outcome State Fault Refusal :=
  s.command (fun s => s.blockReady block katOk)

end Sys2Proof.Machine
end

