-- ==== Sys2Proof/Machine/ExecSafety.lean ====
section
/-!
DEFINITION. The meanings of the safety rows (R291-R308).
-/
namespace Sys2Proof.Machine

/-- A sample of an input pair, by which a pattern may be recognised (R291, R293). -/
def execSafetyPattern (pair : Fin 4) (a b : Bool) (s : State) : Host.Outcome State Fault Refusal :=
  s.command (fun s => s.safetyPattern pair a b)

/-- DISC_MS of discrepancy (R293). -/
def execDiscrepancyTimeout (pair : Fin 4) (s : State) : Host.Outcome State Fault Refusal :=
  s.command (fun s => s.discrepancy pair)

/-- A request for Egress takes effect (R388). -/
def execEgressEnter (s : State) : Host.Outcome State Fault Refusal :=
  s.command (fun s => s.enterEgress)

/-- A held copy finds no partner (R304). -/
def execTelegramUnmatched (towpath : Bool) (s : State) : Host.Outcome State Fault Refusal :=
  s.command (fun s => s.tgUnmatched towpath)

/-- No pair accepted within the timeout (R305). -/
def execTelegramTimeout (s : State) : Host.Outcome State Fault Refusal :=
  s.command (fun s => s.tgTimesOut)

/-- A frame that is no POLL (R307). -/
def execTowpathTelegram (whole : Bool) (frame : List Byte) (s : State) : Host.Outcome State Fault Refusal :=
  s.command (fun s => s.towpathReceive whole frame)

/-- A POLL (R308). -/
def execTowpathPoll (whole : Bool) (frame : List Byte) (s : State) : Host.Outcome State Fault Refusal :=
  s.command (fun s => s.towpathReceive whole frame)

/-- The STATUS frame goes out (R308). -/
def execTowpathStatus (s : State) : Host.Outcome State Fault Refusal :=
  s.command (fun s => s.towpathStatus)

/-- A test pulse of an output channel (R301). -/
def execOutputTestPulse (s : State) : Host.Outcome State Fault Refusal :=
  s.command (fun s => s.testPulse)

/-- The pulse is judged (R301). -/
def execOutputTestEnd (low high others : Bool) (s : State) : Host.Outcome State Fault Refusal :=
  s.command (fun s => s.testEnd low high others)

/-- Readback differs in two samples (R302). -/
def execOutputReadbackError (first second : BitVec 4) (s : State) : Host.Outcome State Fault Refusal :=
  s.command (fun s => s.readback first.toNat second.toNat)

end Sys2Proof.Machine
end

