-- ==== Sys2Proof/Machine/ExecScalar.lean ====
section
/-!
DEFINITION. The meanings of the scalar-slot rows: the common scalar instructions (R66, R69-R72), Elvoth-V's loads, stores, barges and
control flow (R77-R82), and the landing of results (R48).
-/
namespace Sys2Proof.Machine

/-- NOP in the management cores, and the words that they do not know. -/
def State.mNop (s : State) (word : W32) : State :=
  if word = 0#32 then s.nextPc else s.mIllegal (word.toNat / 2 ^ 26) (fieldsOf word.toNat)

/-- NOP in a chamber, and the words that its slot does not know. -/
def State.vNop (s : State) (c : ChamberId) (word : W32) : State := if word = 0#32 then s else s.illegal c

/-- NOP, and every word that no row names in its slot or engine (R66, R68). -/
def execNop (e : Engine) (w : SlotWord) (s : State) : Host.Outcome State Fault Refusal :=
  s.command (fun s => match e, w.slot with
    | .chamber c, .scalar => s.issueScalar c (fun s => s.vNop c w.word)
    | .chamber c, .vector => s.issueVector c (fun s => s.vNop c w.word)
    | .mgmt, _ => s.issueMgmt (fun s => s.mNop w.word)
    | .mgmtSplit, _ => s.issueMgmt (fun s => s.lockSplit (fun s => s.mNop w.word)))

/-- Major 0x00 (R70). -/
def execScalarOp (e : Engine) (f : Fields) (s : State) : Host.Outcome State Fault Refusal :=
  s.command (fun s => s.common e (fun s c => s.vScalarOp c f) (fun s => s.mScalarOp f))

/-- Majors 0x01-0x09 (R71). -/
def execScalarImmOp (e : Engine) (op : ImmOp) (f : Fields) (s : State) : Host.Outcome State Fault Refusal :=
  s.command (fun s => s.common e (fun s c => s.vScalarImm c op f) (fun s => s.mScalarImm op f))

/-- LI (R72). -/
def execLi (e : Engine) (f : Fields) (s : State) : Host.Outcome State Fault Refusal :=
  s.command (fun s => s.common e (fun s c => s.vLi c f) (fun s => s.mLi f))

/-- LUI (R72), Elvoth-S only. -/
def execLui (e : Engine) (f : Fields) (s : State) : Host.Outcome State Fault Refusal :=
  s.command (fun s => s.coreOnly e (fun s => s.mLui f))

/-- LD (R77). -/
def execLd (e : Engine) (f : Fields) (s : State) : Host.Outcome State Fault Refusal :=
  s.command (fun s => s.scalarOnly e 0x28 f (fun s c => s.vLoadScalar c f))

/-- ST (R77). -/
def execSt (e : Engine) (f : Fields) (s : State) : Host.Outcome State Fault Refusal :=
  s.command (fun s => s.scalarOnly e 0x29 f (fun s c => s.vStoreScalar c f))

/-- VLD (R77). -/
def execVld (e : Engine) (f : Fields) (s : State) : Host.Outcome State Fault Refusal :=
  s.command (fun s => s.scalarOnly e 0x2A f (fun s c => s.vLoadLine c f))

/-- VST (R77). -/
def execVst (e : Engine) (f : Fields) (s : State) : Host.Outcome State Fault Refusal :=
  s.command (fun s => s.scalarOnly e 0x2B f (fun s c => s.vStoreLine c f))

/-- BARGE.ISSUE (R79). -/
def execBargeIssue (e : Engine) (f : Fields) (s : State) : Host.Outcome State Fault Refusal :=
  s.command (fun s => s.scalarOnly e 0x2C f (fun s c => s.vBargeIssue c f))

/-- The word of a LOOP as fields (R67): its top four bits are 1111, and its major takes the two highest bits of the body length. -/
def loopMajor (body : BitVec 12) : Nat := 0x3C + body.toNat / 1024

def loopFields (body : BitVec 12) (trip : BitVec 16) : Fields :=
  { d := BitVec.ofNat 5 (body.toNat / 32), a := BitVec.ofNat 5 body.toNat, b := BitVec.ofNat 5 (trip.toNat / 2048),
    pred := BitVec.ofNat 3 (trip.toNat / 256), minor := BitVec.ofNat 8 trip.toNat }

/-- LOOP (R80). -/
def execLoop (e : Engine) (body : BitVec 12) (trip : BitVec 16) (s : State) : Host.Outcome State Fault Refusal :=
  s.command (fun s => s.scalarOnly e (loopMajor body) (loopFields body trip) (fun s c => s.vLoop c body trip))

/-- JUMP (R81). -/
def execJump (e : Engine) (f : Fields) (s : State) : Host.Outcome State Fault Refusal :=
  s.command (fun s => s.scalarOnly e 0x2D f (fun s c => s.vJump c f))

/-- CALL (R81). -/
def execCall (e : Engine) (f : Fields) (s : State) : Host.Outcome State Fault Refusal :=
  s.command (fun s => s.scalarOnly e 0x2E f (fun s c => s.vCall c f))

/-- RET, minor 0x00 of major 0x2F (R81). -/
def execRet (e : Engine) (f : Fields) (s : State) : Host.Outcome State Fault Refusal :=
  s.command (fun s => s.scalarOnly e 0x2F f (fun s c => s.chMinor c (f.minor = 0#8) (fun s => s.vRet c f)))

/-- HALT, minor 0x01 of major 0x2F (R55). -/
def execHalt (e : Engine) (f : Fields) (s : State) : Host.Outcome State Fault Refusal :=
  s.command (fun s => s.scalarOnly e 0x2F f (fun s c => s.chMinor c (f.minor = 1#8) (fun s => s.vHalt c f)))

/-- RDCTX, minor 0x02 of major 0x2F (R82). -/
def execRdctx (e : Engine) (f : Fields) (s : State) : Host.Outcome State Fault Refusal :=
  s.command (fun s => s.scalarOnly e 0x2F f (fun s c => s.chMinor c (f.minor = 2#8) (fun s => s.vRdctx c f)))

/-- A result lands (R48). -/
def execResultLand (c : ChamberId) (s : State) : Host.Outcome State Fault Refusal :=
  s.command (fun s => s.resultLand c)

end Sys2Proof.Machine
end

