-- ==== Sys2Proof/Machine/ExecTime.lean ====
section
/-!
DEFINITION. The meanings of the rows by which time and the array proceed: frame sync and sluices (R24-R38), locks and barges (R105-R121), the
basin (R133-R138), trim, ledger and drive (R173-R222), the thermal model (R232-R240). -/
namespace Sys2Proof.Machine

/-- Display scan 1 begins: the light that a cleared Safe-Dark latch allows comes on, where a sluice has come since (R390). -/
def State.relights (s : State) : State :=
  if s.mode.relight = 2 then { s with mode := { s.mode with relight := 0 } } else s

/-- A row slot begins; with the first of display scan 1 a light allowed again comes on (R390) and the safety outputs rise (R299), and when
display scan 1 has ended its drive words are records of POINT 2 (R309). -/
def State.rowSlotAll (s : State) (vled : Nat) (meas : List SlotMeas) : State :=
  let n := s.diag.slots
  let s := if s.cycling && n = 128 then all16.foldl (fun s (r : ReachId) => s.chkDrive r) s else s
  let s := if s.cycling && n = 64 then s.relights else s
  let s := s.rowSlot vled meas
  if s.cycling && n = 64 then s.raiseOutputs else s

/-- A stream that ends is a record of POINT 4 for the units that were running when it began (R309, R312). -/
def State.chkStream (s : State) : State := if s.pnt.stream.isEmpty then s else (s.chkSnoop 4 0 s.pnt.stream).chkStart [4]

/-- An active edge of FRAME_SYNC (R24, R27). -/
def execFrameSyncEdge (at_ : Nat) (rising : Bool) (s : State) : Host.Outcome State Fault Refusal :=
  s.command (fun s => s.frameSyncEdge at_ rising)

/-- The window after a valid edge has passed (R27). -/
def execSyncEdgeTimeout (s : State) : Host.Outcome State Fault Refusal :=
  s.command (fun s => s.edgeTimeout)

/-- HOLDOVER_LC lock cycles without a valid edge (R27). -/
def execHoldoverExpire (s : State) : Host.Outcome State Fault Refusal :=
  s.command (fun s => s.holdoverExpire)

/-- No pair of valid edges within 2/F of RUN (R27). -/
def execFreeStart (s : State) : Host.Outcome State Fault Refusal :=
  s.command (fun s => s.freeStart)

/-- The sluice tick (R29). -/
def execSluice (errs : List (Nat × Ecc)) (microamps milliamps : List Nat) (s : State) : Host.Outcome State Fault Refusal :=
  s.command (fun s => s.sluice errs (List.zipWith ReachCurrent.mk microamps milliamps))

/-- The START cycle of a lock (R109): a sluice whose actions still wait for the twin acts alone first (R323). -/
def execLockStart (index : Fin 512) (s : State) : Host.Outcome State Fault Refusal :=
  s.command (fun s => s.sluiceForce.lockStart index)

/-- The end of a lock without a HALT (R121). -/
def execLockLengthExpire (c : ChamberId) (s : State) : Host.Outcome State Fault Refusal :=
  s.command (fun s => s.lockLengthExpire c)

/-- A repetition was not issued in its cycle (R121). -/
def execBargeRepMissed (c : ChamberId) (n : Fin 256) (s : State) : Host.Outcome State Fault Refusal :=
  s.command (fun s => s.bargeRepMissed c n)

/-- A beat of a barge (R114). -/
def execBargeBeat (c : ChamberId) (slot : Fin 8) (ecc : Ecc) (s : State) : Host.Outcome State Fault Refusal :=
  s.command (fun s => s.bargeBeat c slot ecc)

/-- The end of a retry stall (R105). -/
def execRetryStallEnd (s : State) : Host.Outcome State Fault Refusal :=
  s.command (fun s => s.stallEnd)

/-- A service slot of a bank (R133). -/
def execBasinServiceAccess (bank : Fin 32) (waiting : List SvcAccess) (s : State) : Host.Outcome State Fault Refusal :=
  s.command (fun s => s.serviceAccess bank waiting)

/-- The scrubber reads a line (R138). -/
def execScrubStep (errs : List (Fin 32 × Ecc)) (s : State) : Host.Outcome State Fault Refusal :=
  s.command (fun s => s.scrubStep errs)

/-- A delivered segment is formatted (R176). -/
def execTrimFormat (reach : ReachId) (errs : List (Nat × Ecc)) (s : State) : Host.Outcome State Fault Refusal :=
  s.command (fun s => s.trimFormat reach errs)

/-- The wear of one emitter (R179). -/
def execLedgerUpdate (k : Fin 8192) (io : LedgerReads) (s : State) : Host.Outcome State Fault Refusal :=
  s.command (fun s => s.ledgerUpdate k io.ecc io.errs)

/-- A row slot begins (R194). With the first row of display scan 1 the outputs rise (R299); with its last, its drive words are a record (R309). -/
def execRowSlot (vled : Nat) (meas : List SlotMeas) (s : State) : Host.Outcome State Fault Refusal :=
  s.command (fun s => s.rowSlotAll vled meas)

/-- The short comparators (R198). -/
def execShortCheck (flags : List SinkFlag) (s : State) : Host.Outcome State Fault Refusal :=
  s.command (fun s => s.shortCheck flags)

/-- The open comparators (R197). -/
def execOpenCheck (flags : List SinkFlag) (s : State) : Host.Outcome State Fault Refusal :=
  s.command (fun s => s.openCheck flags)

/-- A row switch trips (R201). -/
def execRowOvercurrent (reach : ReachId) (s : State) : Host.Outcome State Fault Refusal :=
  s.command (fun s => s.rowOvercurrent reach)

/-- The thermal model (R232). -/
def execThermalUpdate (s : State) : Host.Outcome State Fault Refusal :=
  s.command (fun s => s.thermalUpdate)

/-- The sensors (R235). -/
def execSensorSample (samples : List SensorSample) (s : State) : Host.Outcome State Fault Refusal :=
  s.command (fun s => (s.sensorSample samples).noteWindow s.nandWindow)

/-- The 120 °C trip (R240). -/
def execThermalTrip (s : State) : Host.Outcome State Fault Refusal :=
  s.command (fun s => s.thermalTrip)

/-- The painter, 16 µs after a sluice (R218). -/
def execPainterStreamStart (s : State) : Host.Outcome State Fault Refusal :=
  s.command (fun s => s.painterStart)

/-- The end of a stream, which is a record of POINT 4 (R217, R309). -/
def execPainterStreamEnd (s : State) : Host.Outcome State Fault Refusal :=
  s.command (fun s => State.painterEnd (s.chkStream))

/-- The zero stream that follows the light (R219). -/
def execPainterZeroStream (s : State) : Host.Outcome State Fault Refusal :=
  s.command (fun s => s.painterZero)

end Sys2Proof.Machine
end

