-- ==== Sys2Proof/Machine/ExecVector.lean ====
section
/-!
DEFINITION. The meanings of the vector-slot rows (R83-R101).
-/
namespace Sys2Proof.Machine

/-- The operation of a minor: bits 5:0; bits 7:6 are the type (R83). -/
def minorOp (f : Fields) : Nat := f.minor.toNat % 64

/-- Vector ALU and compare operations, major 0x30 (R83). -/
def execVectorOp (e : Engine) (f : Fields) (s : State) : Host.Outcome State Fault Refusal :=
  s.command (fun s => s.vectorOnly e 0x30 f (fun s c => s.vVectorOp c f))

/-- PAND, POR, PXOR (R84). -/
def execPredicateOp (e : Engine) (f : Fields) (s : State) : Host.Outcome State Fault Refusal :=
  s.command (fun s => s.vectorOnly e 0x30 f (fun s c => s.vPredOp c f))

/-- VEXT, minor 0x0B (R85). -/
def execVext (e : Engine) (f : Fields) (s : State) : Host.Outcome State Fault Refusal :=
  s.command (fun s => s.vectorOnly e 0x30 f (fun s c => s.chMinor c (minorOp f = 0x0B) (fun s => s.vVext c f)))

/-- VBCAST, minor 0x0A (R85). -/
def execVbcast (e : Engine) (f : Fields) (s : State) : Host.Outcome State Fault Refusal :=
  s.command (fun s => s.vectorOnly e 0x30 f (fun s c => s.chMinor c (minorOp f = 0x0A) (fun s => s.vVbcast c f)))

/-- CLAMP, minor 0x0D (R86). -/
def execClamp (e : Engine) (f : Fields) (s : State) : Host.Outcome State Fault Refusal :=
  s.command (fun s => s.vectorOnly e 0x30 f (fun s c => s.chMinor c (minorOp f = 0x0D) (fun s => s.vClamp c f)))

/-- MINMAX, minor 0x0E (R87). -/
def execMinmax (e : Engine) (f : Fields) (s : State) : Host.Outcome State Fault Refusal :=
  s.command (fun s => s.vectorOnly e 0x30 f (fun s c => s.chMinor c (minorOp f = 0x0E) (fun s => s.vMinmax c f)))

/-- VMUL, minor 0x00 of major 0x31 (R88). -/
def execVmul (e : Engine) (f : Fields) (s : State) : Host.Outcome State Fault Refusal :=
  s.command (fun s => s.vectorOnly e 0x31 f (fun s c => s.chMinor c (minorOp f = 0) (fun s => s.vMulOp c 0 f)))

/-- VMULA, minor 0x01 (R88). -/
def execVmula (e : Engine) (f : Fields) (s : State) : Host.Outcome State Fault Refusal :=
  s.command (fun s => s.vectorOnly e 0x31 f (fun s c => s.chMinor c (minorOp f = 1) (fun s => s.vMulOp c 1 f)))

/-- VMAC, minor 0x02 (R88). -/
def execVmac (e : Engine) (f : Fields) (s : State) : Host.Outcome State Fault Refusal :=
  s.command (fun s => s.vectorOnly e 0x31 f (fun s c => s.chMinor c (minorOp f = 2) (fun s => s.vMulOp c 2 f)))

/-- ACC.NARROW, minor 0x03 (R88). -/
def execAccNarrow (e : Engine) (f : Fields) (s : State) : Host.Outcome State Fault Refusal :=
  s.command (fun s => s.vectorOnly e 0x31 f (fun s c => s.chMinor c (minorOp f = 3) (fun s => s.vMulOp c 3 f)))

/-- SAMPLE (R89-R93). -/
def execSample (e : Engine) (f : Fields) (s : State) : Host.Outcome State Fault Refusal :=
  s.command (fun s => s.vectorOnly e 0x32 f (fun s c => s.vSample c f))

/-- COVER (R94). -/
def execCover (e : Engine) (f : Fields) (s : State) : Host.Outcome State Fault Refusal :=
  s.command (fun s => s.vectorOnly e 0x33 f (fun s c => s.vCover c f))

/-- BLEND (R95). -/
def execBlend (e : Engine) (f : Fields) (s : State) : Host.Outcome State Fault Refusal :=
  s.command (fun s => s.vectorOnly e 0x34 f (fun s c => s.vBlend c f))

/-- LUT16 (R96). -/
def execLut16 (e : Engine) (f : Fields) (s : State) : Host.Outcome State Fault Refusal :=
  s.command (fun s => s.vectorOnly e 0x35 f (fun s c => s.vLut16 c f))

/-- HEALTH (R97). -/
def execHealth (e : Engine) (f : Fields) (s : State) : Host.Outcome State Fault Refusal :=
  s.command (fun s => s.vectorOnly e 0x36 f (fun s c => s.vHealth c f))

/-- REQ.PUT (R99). -/
def execReqPut (e : Engine) (f : Fields) (s : State) : Host.Outcome State Fault Refusal :=
  s.command (fun s => s.vectorOnly e 0x37 f (fun s c => s.vReqPut c f))

end Sys2Proof.Machine
end

