-- ==== Sys2Proof/Machine/WharfCmd.lean ====
section
/-!
DEFINITION. The wharf commands of flights, libraries, ceilings, storage, start record, calibration, pairing and modes (R118, R120, R152, R180,
R226, R332, R372, R380-R382, R388, R389, R393, R426), and the telemetry records (R427).
-/
namespace Sys2Proof.Machine

/-! ## Images from NAND or a berth (R118, R152) -/

/-- A berth argument goes to `f`: ARGUMENT beyond 63, DENIED where it is not a RAW berth in FREE or HOST (R425). -/
def State.withBerth (s : State) (b : Nat) (f : Fin 64 → State) : State :=
  if 64 ≤ b then s.status .session stArgument
  else match s.berthRef b with
    | some b => f b
    | none => s.status .session stDenied

/-- A storage or copy failure. -/
def State.lostCopy (s : State) : State := s.status .session stError

/-- The image of a source goes to `f`: 0 a file, 1 a berth; `lost` where the file cannot be read, or the berth's copy fails. -/
def State.withImage (s : State) (source part x : Nat) (f : State → Blob → State) (lost : State → State) : State :=
  if source = 1 then s.withBerth x (fun b => s.copyBerth b f lost)
  else match s.readFile part (if part = 6 then x else 0) with
    | (s, some img) => f s img
    | (s, none) => lost s

/-- The completion of a load or of a check: DONE, or ERROR with the reason in DETAIL. -/
def State.checked (s : State) (reason : Nat) : State :=
  if reason = 0 then s.status .session stDone else s.complete .session stError reason 0 []

/-- FLIGHT_LOAD: slot, source, index or berth. The slot is invalid from the start of the load, also where its image then cannot be read
(R118); the slot of the running flight is busy whatever the mode (R120). -/
def State.cmdFlightLoad (s : State) : State :=
  s.serve .session 0x40 3 (fun s =>
    let slot := s.arg .session 0 1
    let source := s.arg .session 1 1
    let x := s.arg .session 2 1
    if 3 ≤ slot ∨ 2 ≤ source ∨ (source = 0 ∧ 23 ≤ x) then s.status .session stArgument
    else
      let i : Fin 3 := Fin.ofNat 3 slot
      if s.slotRuns i then s.status .session stBusy
      else if slot = 2 ∧ s.modeOf ≠ .maintenance then s.status .session stDenied
      else s.withImage source 6 x (fun s img =>
        let r := s.flightLoad i img
        r.1.checked r.2) (fun s => (s.invalidateSlot i).lostCopy))

/-- FLIGHT_STORE: berth, index. -/
def State.cmdFlightStore (s : State) : State :=
  s.serve .session 0x41 2 (fun s =>
    let idx := s.arg .session 1 1
    if 23 ≤ idx then s.status .session stArgument
    else if idx = 0 ∧ s.modeOf ≠ .maintenance then s.status .session stDenied
    else s.withBerth (s.arg .session 0 1) (fun b => s.copyBerth b (fun s img =>
      let r := s.flightCheck img (idx = 0)
      if r = 0 then s.writeFile 6 idx (img.take (img.le 0x0C 4)) (some .session)
      else (s.flightFails img r).checked r) State.lostCopy))

/-- LIBRARY_LOAD: source, berth; in Maintenance only. -/
def State.cmdLibraryLoad (s : State) : State :=
  s.serve .session 0x42 (if s.arg .session 0 1 = 1 then 2 else 1) (fun s =>
    let source := s.arg .session 0 1
    if 2 ≤ source then s.status .session stArgument
    else if s.modeOf ≠ .maintenance then s.status .session stDenied
    else s.withImage source 5 (s.arg .session 1 1) (fun s img =>
      let r := s.libLoad img
      r.1.checked r.2) State.lostCopy)

/-- LIBRARY_STORE: berth. -/
def State.cmdLibraryStore (s : State) : State :=
  s.serve .session 0x43 1 (fun s => s.withBerth (s.arg .session 0 1) (fun b => s.copyBerth b (fun s img =>
    let r := s.libCheck img
    if r = 0 then s.writeFile 5 0 (img.take (img.le 0x0C 4)) (some .session) else (s.libFails img r).checked r) State.lostCopy))

/-! ## Ceiling sets (R131, R180) -/

/-- The basin address of a stored ceiling set. -/
def ceilSet (i : Nat) : Nat := 0x1E40000 + 135168 * i

/-- CEIL_STORE: berth, set. -/
def State.cmdCeilStore (s : State) : State :=
  s.serve .session 0x44 2 (fun s =>
    let i := s.arg .session 1 1
    if 3 ≤ i then s.status .session stArgument
    else s.withBerth (s.arg .session 0 1) (fun b =>
      if s.berthSize b < 135168 then s.status .session stArgument
      else s.copyBerth b (fun s img => (s.basFill (ceilSet i) 135168 img.cells).status .session stDone) State.lostCopy))

/-- A ceiling plane takes a stored set: every word of it is rewritten (R173, R180). -/
def State.ceilTake (s : State) (i plane : Nat) : State :=
  let base := ceilBase plane
  let store := Memory.splice s.trim.store base 135168 (s.bas.blob (ceilSet i) 135168).cells
  let failed := s.trim.failed.filter (fun w => w < base / 8 || (base + 135168) / 8 ≤ w)
  { s with trim := { s.trim with store := store, failed := failed } }

/-- CEIL_LOAD: set, plane. -/
def State.cmdCeilLoad (s : State) : State :=
  s.serve .session 0x45 2 (fun s =>
    let i := s.arg .session 0 1
    let plane := s.arg .session 1 1
    if 3 ≤ i ∨ 2 ≤ plane then s.status .session stArgument
    else if s.ceilBusy plane then s.status .session stBusy
    else (s.ceilTake i plane).status .session stDone)

/-! ## Storage (R372, R380-R382) -/

/-- The bytes of a BACKUP generation: 640 pages. -/
def backupBytes : Nat := 2621440

/-- What a read of a file gives: BACKUP and LOG contents are free values, as is how much the log holds (at most `room`). -/
def State.fileContent (s : State) (part idx room : Nat) : State × Option Blob :=
  if part = 9 then
    match s.readFile 9 0 with
    | (s, some _) => (s.draw, some (Blob.ofBytes (leBytes (Config.freeBits (8 * backupBytes) s.fresh) backupBytes)))
    | (s, none) => (s, none)
  else if part = 8 then
    let n := Config.freeBits 32 s.fresh % (room + 1)
    let s := s.draw
    (s.draw, some (Blob.ofBytes (leBytes (Config.freeBits (8 * n) s.fresh) n)))
  else s.readFile part idx

/-- The indices of a partition. -/
def filesOf (part : Nat) : Nat := if part = 6 then 23 else if part = 7 then 4 else 1

/-- FILE_READ: partition, index, copy, berth. -/
def State.cmdFileRead (s : State) : State :=
  s.serve .session 0x50 4 (fun s =>
    let part := s.arg .session 0 1
    let idx := s.arg .session 1 1
    if 10 < part then s.status .session stArgument
    else if part = 0 ∨ part = 10 then s.status .session stDenied
    else if filesOf part ≤ idx ∨ copiesOf part idx ≤ s.arg .session 2 1 then s.status .session stArgument
    else s.withBerth (s.arg .session 3 1) (fun b =>
      if !s.nandReady then s.status .session stError
      else match s.fileContent part idx (s.berthSize b) with
        | (_, none) => ((s.status .session stError).readFile part idx).1
        | (s, some img) =>
          if s.berthSize b < img.len then s.status .session stArgument
          else (s.berthOutput b img).complete .session stDone 0 img.len []))

/-- SYNC. -/
def State.cmdSync (s : State) : State := s.serve .session 0x52 0 State.noteSync

/-- BACKUP. -/
def State.cmdBackup (s : State) : State := s.serve .session 0x53 0 (fun s => s.issueWrite (NJob.backup (some .session)))

/-- SHUTDOWN: a checkpoint, and the backup that goes with it. -/
def State.cmdShutdown (s : State) : State := s.serve .session 0x54 0 (fun s => s.checkpoint (some .session))

/-- A BACKUP write is taken up (R375, R382). -/
def State.backupTaken (s : State) : Bool :=
  s.nandReady && decide (8 ≤ s.nand.free.length) &&
  (s.nandWindow || s.nand.deferred.any (fun d => d.kind = .backup) || decide (s.nand.deferred.length < 64))

/-- START_SET: F_NOM, S, SLOT, WEIR_BUDGET, AUTOSTART; the record goes into a new BACKUP generation. -/
def State.cmdStartSet (s : State) : State :=
  s.serve .session 0x55 6 (fun s =>
    let f := s.arg .session 0 1
    let sc := s.arg .session 1 1
    let slot := s.arg .session 2 1
    let auto := s.arg .session 5 1
    if clampRate f sc ≠ (f, sc) ∨ 2 ≤ slot ∨ 2 ≤ auto then s.status .session stArgument
    else
      let want : StartRec := { f := f, sc := sc, slot := slot, budget := s.arg .session 3 2, auto := auto = 1 }
      let t : State := if s.backupTaken then s.setNand { s.nand with start := some want } else s
      t.issueWrite (NJob.backup (some .session)))

/-! ## Calibration, pairing and modes (R226, R332, R388, R389) -/

/-- CALIBRATE: reach mask. -/
def State.cmdCalibrate (s : State) : State :=
  s.serve .session 0x60 2 (fun s => (s.calQueue (maskReaches (s.arg .session 0 2))).status .session stDone)

/-- RESYNC. -/
def State.cmdResync (s : State) : State := s.serve .session 0x61 0 (fun s => s.resyncRequest.status .session stDone)

/-- MAINT_ENTER: not in Egress. -/
def State.cmdMaintEnter (s : State) : State :=
  s.serve .session 0x70 0 (fun s => if s.mode.egress then s.status .session stDenied else s.setMaint.status .session stDone)

/-- MAINT_EXIT. -/
def State.cmdMaintExit (s : State) : State :=
  s.serve .session 0x71 0 (fun s => (s.put Reg.SYS_MODE_MAINT 0).status .session stDone)

/-- TEST_ENTER: from Idle or Maintenance. -/
def State.cmdTestEnter (s : State) : State :=
  s.serve .session 0x72 0 (fun s =>
    if s.modeOf = .idle ∨ s.modeOf = .maintenance then s.setTest.status .session stDone else s.status .session stDenied)

/-- TEST_EXIT. -/
def State.cmdTestExit (s : State) : State :=
  s.serve .session 0x73 0 (fun s => (s.put Reg.SYS_MODE_TEST 0).status .session stDone)

/-! ## Telemetry (R427) -/

/-- The bytes of a telemetry record. -/
def State.telemetryBytes (s : State) (q : Nat) : List Byte :=
  leBytes q 4 ++ leBytes (s.rd Reg.SYS_EPOCH_EPOCH) 4 ++ leBytes s.sysTime 8 ++ leBytes s.seq.sluices 4 ++ leBytes s.modeWord 1 ++
  leBytes 0 1 ++ leBytes (s.rd Reg.WEIR_STATE_FACTOR) 2 ++ leBytes (s.rd Reg.WEIR_PRED_MW) 4 ++ leBytes (s.rd Reg.WEIR_MEASURED_MW) 4 ++
  leBytes (s.rd Reg.WEIR_EFFECTIVE_MW) 2 ++ leBytes (s.rd Reg.THM_HOT_VALUE) 2 ++ leBytes (s.rd Reg.THM_RATE_VALUE) 2 ++
  leBytes s.diag.defects.length 2 ++ leBytes s.fltTop 4 ++ leBytes (s.rd Reg.DRV_STALE_STALE) 2 ++ leBytes (s.rd Reg.FLT_FENCE_REACH) 2 ++
  List.replicate 16 0#8

/-- A record is due: PERIOD sluices after the last one, or while no sluices occur 1 s after it. -/
def State.telemetryDue (s : State) : Bool :=
  if s.seq.sluices = s.rif.telemSluices ∨ !s.cycling then decide (s.rif.telemAt + 1000000000 ≤ s.now)
  else decide (s.rif.telemSluices + s.rd Reg.WHF_TELEM_CFG_PERIOD ≤ s.seq.sluices)

/-- A record is written; one that was at or above WHF_TELEM_READ is lost where this one takes its place. -/
def State.telemetryRecord (s : State) : State :=
  if s.mode.phase ≠ .running ∨ !s.on Reg.WHF_TELEM_CFG_EN ∨ !s.telemetryDue then s
  else
    let q := s.rd Reg.WHF_TELEM_NEXT_SEQ
    let s := if 1024 ≤ seqSub q (s.rd Reg.WHF_TELEM_READ_SEQ) then s.inc Reg.WHF_TELEM_LOST_COUNT else s
    let s : State := { s with rif := { s.rif with telemAt := s.now, telemSluices := s.seq.sluices } }
    let s := s.basWrite (0x1FF0000 + q % 1024 * 64) (s.telemetryBytes q)
    (s.incMod Reg.WHF_TELEM_NEXT_SEQ).flag Reg.WHF_EVENT_TELEM

end Sys2Proof.Machine
end

