-- ==== Sys2Proof/Machine/ExecWharf.lean ====
section
/-!
DEFINITION. The meanings of the wharf rows (R424-R427): each carries out the command that its pair is executing.
-/
namespace Sys2Proof.Machine

/-- The device starts the next command of a pair (R424). -/
def execCommandStart (pair : Pair) (s : State) : Host.Outcome State Fault Refusal :=
  s.command (fun s => s.startCommand pair)

/-- GET_IDENTITY (R337). -/
def execGetIdentity (pair : Pair) (s : State) : Host.Outcome State Fault Refusal :=
  s.command (fun s => s.cmdIdentity pair)

/-- CHALLENGE (R355). -/
def execChallenge (pair : Pair) (s : State) : Host.Outcome State Fault Refusal :=
  s.command (fun s => s.cmdChallenge pair)

/-- QUOTE (R361). -/
def execQuote (pair : Pair) (s : State) : Host.Outcome State Fault Refusal :=
  s.command (fun s => s.cmdQuote pair)

/-- SESSION_HELLO (R357). -/
def execSessionHello (pair : Pair) (s : State) : Host.Outcome State Fault Refusal :=
  s.command (fun s => s.cmdHello pair)

/-- SESSION_FINISH (R358). -/
def execSessionFinish (pair : Pair) (s : State) : Host.Outcome State Fault Refusal :=
  s.command (fun s => s.cmdFinish pair)

/-- SESSION_CLOSE (R358). -/
def execSessionClose (s : State) : Host.Outcome State Fault Refusal :=
  s.command (fun s => s.cmdClose)

/-- PEER_MSG (R359). -/
def execPeerMsg (s : State) : Host.Outcome State Fault Refusal :=
  s.command (fun s => s.cmdPeerMsg)

/-- PAIR_SET (R359). -/
def execPairSet (s : State) : Host.Outcome State Fault Refusal :=
  s.command (fun s => s.cmdPairSet)

/-- CERT_SET (R342). -/
def execCertSet (s : State) : Host.Outcome State Fault Refusal :=
  s.command (fun s => s.cmdCertSet)

/-- TG_KEY_SET (R360). -/
def execTgKeySet (s : State) : Host.Outcome State Fault Refusal :=
  s.command (fun s => s.cmdTgKeySet)

/-- INSTALL_ROOT (R355). -/
def execInstallRoot (pair : Pair) (otp : OtpRun) (s : State) : Host.Outcome State Fault Refusal :=
  s.command (fun s => s.cmdInstallRoot pair otp)

/-- REVOKE_ROOT (R355). -/
def execRevokeRoot (pair : Pair) (otp : OtpRun) (s : State) : Host.Outcome State Fault Refusal :=
  s.command (fun s => s.cmdRevokeRoot pair otp)

/-- PROVISION_END (R355). -/
def execProvisionEnd (pair : Pair) (s : State) : Host.Outcome State Fault Refusal :=
  s.command (fun s => s.cmdProvisionEnd pair)

/-- REPROVISION (R355, R356). -/
def execReprovision (pair : Pair) (s : State) : Host.Outcome State Fault Refusal :=
  s.command (fun s => s.cmdReprovision pair)

/-- DEBUG_UNLOCK (R362). -/
def execDebugUnlock (pair : Pair) (s : State) : Host.Outcome State Fault Refusal :=
  s.command (fun s => s.cmdDebugUnlock pair)

/-- RECOVER_WRITE (R352). -/
def execRecoverWrite (pair : Pair) (s : State) : Host.Outcome State Fault Refusal :=
  s.command (fun s => s.cmdRecoverWrite pair)

/-- IMAGE_WRITE (R346). -/
def execImageWrite (s : State) : Host.Outcome State Fault Refusal :=
  s.command (fun s => s.cmdImageWrite)

/-- COMMIT_SVN (R346). -/
def execCommitSvn (otp : OtpRun) (s : State) : Host.Outcome State Fault Refusal :=
  s.command (fun s => s.cmdCommitSvn otp)

/-- FLIGHT_LOAD (R118, R120). -/
def execFlightLoad (s : State) : Host.Outcome State Fault Refusal :=
  s.command (fun s => s.cmdFlightLoad)

/-- FLIGHT_STORE (R118, R426). -/
def execFlightStore (s : State) : Host.Outcome State Fault Refusal :=
  s.command (fun s => s.cmdFlightStore)

/-- LIBRARY_LOAD (R152). -/
def execLibraryLoad (s : State) : Host.Outcome State Fault Refusal :=
  s.command (fun s => s.cmdLibraryLoad)

/-- LIBRARY_STORE (R152, R426). -/
def execLibraryStore (s : State) : Host.Outcome State Fault Refusal :=
  s.command (fun s => s.cmdLibraryStore)

/-- CEIL_STORE (R426). -/
def execCeilStore (s : State) : Host.Outcome State Fault Refusal :=
  s.command (fun s => s.cmdCeilStore)

/-- CEIL_LOAD (R180). -/
def execCeilLoad (s : State) : Host.Outcome State Fault Refusal :=
  s.command (fun s => s.cmdCeilLoad)

/-- FILE_READ (R372). -/
def execFileRead (s : State) : Host.Outcome State Fault Refusal :=
  s.command (fun s => s.cmdFileRead)

/-- SYNC (R382). -/
def execSync (s : State) : Host.Outcome State Fault Refusal :=
  s.command (fun s => s.cmdSync)

/-- BACKUP (R381). -/
def execBackup (s : State) : Host.Outcome State Fault Refusal :=
  s.command (fun s => s.cmdBackup)

/-- SHUTDOWN (R380). -/
def execShutdown (s : State) : Host.Outcome State Fault Refusal :=
  s.command (fun s => s.cmdShutdown)

/-- START_SET (R393). -/
def execStartSet (s : State) : Host.Outcome State Fault Refusal :=
  s.command (fun s => s.cmdStartSet)

/-- CALIBRATE (R226). -/
def execCalibrate (s : State) : Host.Outcome State Fault Refusal :=
  s.command (fun s => s.cmdCalibrate)

/-- RESYNC (R332). -/
def execResync (s : State) : Host.Outcome State Fault Refusal :=
  s.command (fun s => s.cmdResync)

/-- MAINT_ENTER (R389). -/
def execMaintEnter (s : State) : Host.Outcome State Fault Refusal :=
  s.command (fun s => s.cmdMaintEnter)

/-- MAINT_EXIT (R389). -/
def execMaintExit (s : State) : Host.Outcome State Fault Refusal :=
  s.command (fun s => s.cmdMaintExit)

/-- TEST_ENTER (R389). -/
def execTestEnter (s : State) : Host.Outcome State Fault Refusal :=
  s.command (fun s => s.cmdTestEnter)

/-- TEST_EXIT (R389). -/
def execTestExit (s : State) : Host.Outcome State Fault Refusal :=
  s.command (fun s => s.cmdTestExit)

/-- A telemetry record (R427). -/
def execTelemetryRecord (s : State) : Host.Outcome State Fault Refusal :=
  s.command (fun s => s.telemetryRecord)

end Sys2Proof.Machine
end

