-- ==== Sys2Proof/Machine/Dispatch.lean ====
section
/-!
DEFINITION. The dispatch of a command to its meaning: one arm per constructor.
-/
namespace Sys2Proof.Machine

def exec (i : Instr) (s : State) : Host.Outcome State Fault Refusal :=
  match i with
  | .nop e w => Sys2Proof.Machine.execNop e w s
  | .scalarOp e f => Sys2Proof.Machine.execScalarOp e f s
  | .scalarImmOp e op f => Sys2Proof.Machine.execScalarImmOp e op f s
  | .li e f => Sys2Proof.Machine.execLi e f s
  | .lui e f => Sys2Proof.Machine.execLui e f s
  | .ld e f => Sys2Proof.Machine.execLd e f s
  | .st e f => Sys2Proof.Machine.execSt e f s
  | .vld e f => Sys2Proof.Machine.execVld e f s
  | .vst e f => Sys2Proof.Machine.execVst e f s
  | .bargeIssue e f => Sys2Proof.Machine.execBargeIssue e f s
  | .loop e body trip => Sys2Proof.Machine.execLoop e body trip s
  | .jump e f => Sys2Proof.Machine.execJump e f s
  | .call e f => Sys2Proof.Machine.execCall e f s
  | .ret e f => Sys2Proof.Machine.execRet e f s
  | .halt e f => Sys2Proof.Machine.execHalt e f s
  | .rdctx e f => Sys2Proof.Machine.execRdctx e f s
  | .vectorOp e f => Sys2Proof.Machine.execVectorOp e f s
  | .predicateOp e f => Sys2Proof.Machine.execPredicateOp e f s
  | .vext e f => Sys2Proof.Machine.execVext e f s
  | .vbcast e f => Sys2Proof.Machine.execVbcast e f s
  | .clamp e f => Sys2Proof.Machine.execClamp e f s
  | .minmax e f => Sys2Proof.Machine.execMinmax e f s
  | .vmul e f => Sys2Proof.Machine.execVmul e f s
  | .vmula e f => Sys2Proof.Machine.execVmula e f s
  | .vmac e f => Sys2Proof.Machine.execVmac e f s
  | .accNarrow e f => Sys2Proof.Machine.execAccNarrow e f s
  | .sample e f => Sys2Proof.Machine.execSample e f s
  | .cover e f => Sys2Proof.Machine.execCover e f s
  | .blend e f => Sys2Proof.Machine.execBlend e f s
  | .lut16 e f => Sys2Proof.Machine.execLut16 e f s
  | .health e f => Sys2Proof.Machine.execHealth e f s
  | .reqPut e f => Sys2Proof.Machine.execReqPut e f s
  | .resultLand c => Sys2Proof.Machine.execResultLand c s
  | .elvothSLoad e op f io => Sys2Proof.Machine.execElvothSLoad e op f io s
  | .elvothSStore e op f io => Sys2Proof.Machine.execElvothSStore e op f io s
  | .branch e op f => Sys2Proof.Machine.execBranch e op f s
  | .jal e f => Sys2Proof.Machine.execJal e f s
  | .jalr e f => Sys2Proof.Machine.execJalr e f s
  | .cwr e f => Sys2Proof.Machine.execCwr e f s
  | .cww e f => Sys2Proof.Machine.execCww e f s
  | .nmiAck => Sys2Proof.Machine.execNmiAck s
  | .trap e f => Sys2Proof.Machine.execTrap e f s
  | .rett e f => Sys2Proof.Machine.execRett e f s
  | .retn e f => Sys2Proof.Machine.execRetn e f s
  | .wfi e f => Sys2Proof.Machine.execWfi e f s
  | .fence e f => Sys2Proof.Machine.execFence e f s
  | .interruptTake => Sys2Proof.Machine.execInterruptTake s
  | .nmiTake => Sys2Proof.Machine.execNmiTake s
  | .frameSyncEdge at_ rising => Sys2Proof.Machine.execFrameSyncEdge at_ rising s
  | .syncEdgeTimeout => Sys2Proof.Machine.execSyncEdgeTimeout s
  | .holdoverExpire => Sys2Proof.Machine.execHoldoverExpire s
  | .freeStart => Sys2Proof.Machine.execFreeStart s
  | .sluice errs microamps milliamps => Sys2Proof.Machine.execSluice errs microamps milliamps s
  | .lockStart index => Sys2Proof.Machine.execLockStart index s
  | .lockLengthExpire c => Sys2Proof.Machine.execLockLengthExpire c s
  | .bargeRepMissed c n => Sys2Proof.Machine.execBargeRepMissed c n s
  | .bargeBeat c slot ecc => Sys2Proof.Machine.execBargeBeat c slot ecc s
  | .retryStallEnd => Sys2Proof.Machine.execRetryStallEnd s
  | .basinServiceAccess bank waiting => Sys2Proof.Machine.execBasinServiceAccess bank waiting s
  | .scrubStep errs => Sys2Proof.Machine.execScrubStep errs s
  | .trimFormat reach errs => Sys2Proof.Machine.execTrimFormat reach errs s
  | .ledgerUpdate k io => Sys2Proof.Machine.execLedgerUpdate k io s
  | .rowSlot vled meas => Sys2Proof.Machine.execRowSlot vled meas s
  | .shortCheck flags => Sys2Proof.Machine.execShortCheck flags s
  | .openCheck flags => Sys2Proof.Machine.execOpenCheck flags s
  | .rowOvercurrent reach => Sys2Proof.Machine.execRowOvercurrent reach s
  | .thermalUpdate => Sys2Proof.Machine.execThermalUpdate s
  | .sensorSample samples => Sys2Proof.Machine.execSensorSample samples s
  | .thermalTrip => Sys2Proof.Machine.execThermalTrip s
  | .painterStreamStart => Sys2Proof.Machine.execPainterStreamStart s
  | .painterStreamEnd => Sys2Proof.Machine.execPainterStreamEnd s
  | .painterZeroStream => Sys2Proof.Machine.execPainterZeroStream s
  | .linkDetectPoll link lanes => Sys2Proof.Machine.execLinkDetectPoll link lanes s
  | .trainingSet link lane tp2 number rates preset flags => Sys2Proof.Machine.execTrainingSet link lane tp2 number rates preset flags s
  | .trainTimeout link => Sys2Proof.Machine.execTrainTimeout link s
  | .slackSet link lanes => Sys2Proof.Machine.execSlackSet link lanes s
  | .lockTimeout link => Sys2Proof.Machine.execLockTimeout link s
  | .capsSend link => Sys2Proof.Machine.execCapsSend link s
  | .caps link content crc => Sys2Proof.Machine.execCaps link content crc s
  | .exchangeTimeout link => Sys2Proof.Machine.execExchangeTimeout link s
  | .widthSet link w => Sys2Proof.Machine.execWidthSet link w s
  | .laneLoss link lane => Sys2Proof.Machine.execLaneLoss link lane s
  | .laneReturn link lane => Sys2Proof.Machine.execLaneReturn link lane s
  | .electricalIdle link => Sys2Proof.Machine.execElectricalIdle link s
  | .recoverTimeout link => Sys2Proof.Machine.execRecoverTimeout link s
  | .wr pkt addr => Sys2Proof.Machine.execWr pkt addr s
  | .rd pkt addr len errs => Sys2Proof.Machine.execRd pkt addr len errs s
  | .safe pkt => Sys2Proof.Machine.execSafe pkt s
  | .time pkt => Sys2Proof.Machine.execTime pkt s
  | .ack link f crc => Sys2Proof.Machine.execAck link f crc s
  | .nak link f crc => Sys2Proof.Machine.execNak link f crc s
  | .ackSend link => Sys2Proof.Machine.execAckSend link s
  | .replayTimeout link => Sys2Proof.Machine.execReplayTimeout link s
  | .pktTimeout link => Sys2Proof.Machine.execPktTimeout link s
  | .abortedPacket link => Sys2Proof.Machine.execAbortedPacket link s
  | .xfer pkt addr => Sys2Proof.Machine.execXfer pkt addr s
  | .xctl pkt => Sys2Proof.Machine.execXctl pkt s
  | .sluiceRecord pkt arrival => Sys2Proof.Machine.execSluiceRecord pkt arrival s
  | .sluiceRecordTimeout => Sys2Proof.Machine.execSluiceRecordTimeout s
  | .map pkt => Sys2Proof.Machine.execMap pkt s
  | .seal pkt => Sys2Proof.Machine.execSeal pkt s
  | .fcrc pkt => Sys2Proof.Machine.execFcrc pkt s
  | .echo pkt ticks => Sys2Proof.Machine.execEcho pkt ticks s
  | .localMapSend => Sys2Proof.Machine.execLocalMapSend s
  | .roleRecognised role => Sys2Proof.Machine.execRoleRecognised role s
  | .safetyPattern pair a b => Sys2Proof.Machine.execSafetyPattern pair a b s
  | .discrepancyTimeout pair => Sys2Proof.Machine.execDiscrepancyTimeout pair s
  | .egressEnter => Sys2Proof.Machine.execEgressEnter s
  | .telegramUnmatched towpath => Sys2Proof.Machine.execTelegramUnmatched towpath s
  | .telegramTimeout => Sys2Proof.Machine.execTelegramTimeout s
  | .towpathTelegram whole frame => Sys2Proof.Machine.execTowpathTelegram whole frame s
  | .towpathPoll whole frame => Sys2Proof.Machine.execTowpathPoll whole frame s
  | .towpathStatus => Sys2Proof.Machine.execTowpathStatus s
  | .outputTestPulse => Sys2Proof.Machine.execOutputTestPulse s
  | .outputTestEnd low high others => Sys2Proof.Machine.execOutputTestEnd low high others s
  | .outputReadbackError first second => Sys2Proof.Machine.execOutputReadbackError first second s
  | .escalationTimeout => Sys2Proof.Machine.execEscalationTimeout s
  | .liveBitExpire source => Sys2Proof.Machine.execLiveBitExpire source s
  | .fltClear who word mask => Sys2Proof.Machine.execFltClear who word mask s
  | .fltForce who word value => Sys2Proof.Machine.execFltForce who word value s
  | .powerUp fitted => Sys2Proof.Machine.execPowerUp fitted s
  | .resetN low => Sys2Proof.Machine.execResetN low s
  | .powerOnDetect sense => Sys2Proof.Machine.execPowerOnDetect sense s
  | .bootStart io => Sys2Proof.Machine.execBootStart io s
  | .bootWatchdog => Sys2Proof.Machine.execBootWatchdog s
  | .bootDone => Sys2Proof.Machine.execBootDone s
  | .bootEnd index => Sys2Proof.Machine.execBootEnd index s
  | .servicePress ms => Sys2Proof.Machine.execServicePress ms s
  | .serviceStuck => Sys2Proof.Machine.execServiceStuck s
  | .entropyHealthFail => Sys2Proof.Machine.execEntropyHealthFail s
  | .secChal => Sys2Proof.Machine.execSecChal s
  | .secToken token => Sys2Proof.Machine.execSecToken token s
  | .eyeScanStart who lane volt phase exp => Sys2Proof.Machine.execEyeScanStart who lane volt phase exp s
  | .eyeScanStop who lane => Sys2Proof.Machine.execEyeScanStop who lane s
  | .eyeScanEnd lane ones zeros => Sys2Proof.Machine.execEyeScanEnd lane ones zeros s
  | .registerWrite who a data => Sys2Proof.Machine.execRegisterWrite who a data s
  | .registerReadClear who span errs => Sys2Proof.Machine.execRegisterReadClear who span errs s
  | .bitAliasRead who off => Sys2Proof.Machine.execBitAliasRead who off s
  | .bitAliasWrite who off data => Sys2Proof.Machine.execBitAliasWrite who off data s
  | .commit who => Sys2Proof.Machine.execCommit who s
  | .seqRateWrite who f s_ => Sys2Proof.Machine.execSeqRateWrite who f s_ s
  | .lockLoad who value => Sys2Proof.Machine.execLockLoad who value s
  | .runSet who => Sys2Proof.Machine.execRunSet who s
  | .runClear who => Sys2Proof.Machine.execRunClear who s
  | .reachReset who reaches => Sys2Proof.Machine.execReachReset who reaches s
  | .ready who berth target => Sys2Proof.Machine.execReady who berth target s
  | .cancel who berth => Sys2Proof.Machine.execCancel who berth s
  | .release who berth => Sys2Proof.Machine.execRelease who berth s
  | .retire who berth => Sys2Proof.Machine.execRetire who berth s
  | .berthPlace who berth base size => Sys2Proof.Machine.execBerthPlace who berth base size s
  | .berthFmt who berth format res => Sys2Proof.Machine.execBerthFmt who berth format res s
  | .trimStoreWrite off data => Sys2Proof.Machine.execTrimStoreWrite off data s
  | .calCmd who reaches => Sys2Proof.Machine.execCalCmd who reaches s
  | .rearm who pairs => Sys2Proof.Machine.execRearm who pairs s
  | .retrain who link => Sys2Proof.Machine.execRetrain who link s
  | .linkEnable who link on => Sys2Proof.Machine.execLinkEnable who link on s
  | .peerCtrlResync who => Sys2Proof.Machine.execPeerCtrlResync who s
  | .chipReset who => Sys2Proof.Machine.execChipReset who s
  | .safeDark who => Sys2Proof.Machine.execSafeDark who s
  | .clearSafeDark who => Sys2Proof.Machine.execClearSafeDark who s
  | .resume who => Sys2Proof.Machine.execResume who s
  | .nfcCheckpoint who => Sys2Proof.Machine.execNfcCheckpoint who s
  | .crcCommit who => Sys2Proof.Machine.execCrcCommit who s
  | .crcHold who on => Sys2Proof.Machine.execCrcHold who on s
  | .crcEn who => Sys2Proof.Machine.execCrcEn who s
  | .holdExpire => Sys2Proof.Machine.execHoldExpire s
  | .crcSweep => Sys2Proof.Machine.execCrcSweep s
  | .whfCmdTail who pair value => Sys2Proof.Machine.execWhfCmdTail who pair value s
  | .whfCplRead who pair value => Sys2Proof.Machine.execWhfCplRead who pair value s
  | .whfTelemRead who value => Sys2Proof.Machine.execWhfTelemRead who value s
  | .commandStart pair => Sys2Proof.Machine.execCommandStart pair s
  | .telemetryRecord => Sys2Proof.Machine.execTelemetryRecord s
  | .getIdentity pair => Sys2Proof.Machine.execGetIdentity pair s
  | .challenge pair => Sys2Proof.Machine.execChallenge pair s
  | .quote pair => Sys2Proof.Machine.execQuote pair s
  | .sessionHello pair => Sys2Proof.Machine.execSessionHello pair s
  | .sessionFinish pair => Sys2Proof.Machine.execSessionFinish pair s
  | .sessionClose => Sys2Proof.Machine.execSessionClose s
  | .peerMsg => Sys2Proof.Machine.execPeerMsg s
  | .pairSet => Sys2Proof.Machine.execPairSet s
  | .certSet => Sys2Proof.Machine.execCertSet s
  | .tgKeySet => Sys2Proof.Machine.execTgKeySet s
  | .installRoot pair otp => Sys2Proof.Machine.execInstallRoot pair otp s
  | .revokeRoot pair otp => Sys2Proof.Machine.execRevokeRoot pair otp s
  | .provisionEnd pair => Sys2Proof.Machine.execProvisionEnd pair s
  | .reprovision pair => Sys2Proof.Machine.execReprovision pair s
  | .debugUnlock pair => Sys2Proof.Machine.execDebugUnlock pair s
  | .recoverWrite pair => Sys2Proof.Machine.execRecoverWrite pair s
  | .imageWrite => Sys2Proof.Machine.execImageWrite s
  | .commitSvn otp => Sys2Proof.Machine.execCommitSvn otp s
  | .flightLoad => Sys2Proof.Machine.execFlightLoad s
  | .flightStore => Sys2Proof.Machine.execFlightStore s
  | .libraryLoad => Sys2Proof.Machine.execLibraryLoad s
  | .libraryStore => Sys2Proof.Machine.execLibraryStore s
  | .ceilStore => Sys2Proof.Machine.execCeilStore s
  | .ceilLoad => Sys2Proof.Machine.execCeilLoad s
  | .fileRead => Sys2Proof.Machine.execFileRead s
  | .sync => Sys2Proof.Machine.execSync s
  | .backup => Sys2Proof.Machine.execBackup s
  | .shutdown => Sys2Proof.Machine.execShutdown s
  | .startSet => Sys2Proof.Machine.execStartSet s
  | .calibrate => Sys2Proof.Machine.execCalibrate s
  | .resync => Sys2Proof.Machine.execResync s
  | .maintEnter => Sys2Proof.Machine.execMaintEnter s
  | .maintExit => Sys2Proof.Machine.execMaintExit s
  | .testEnter => Sys2Proof.Machine.execTestEnter s
  | .testExit => Sys2Proof.Machine.execTestExit s
  | .nandReadSector block page sector corrected level => Sys2Proof.Machine.execNandReadSector block page sector corrected level s
  | .nandProgramDone ok => Sys2Proof.Machine.execNandProgramDone ok s
  | .nandEraseDone ok => Sys2Proof.Machine.execNandEraseDone ok s
  | .nandTimeout => Sys2Proof.Machine.execNandTimeout s
  | .checkpointTimer => Sys2Proof.Machine.execCheckpointTimer s
  | .nandScrubStep => Sys2Proof.Machine.execNandScrubStep s
  | .wearLevelMove => Sys2Proof.Machine.execWearLevelMove s
  | .refresh => Sys2Proof.Machine.execRefresh s
  | .deferralResume => Sys2Proof.Machine.execDeferralResume s
  | .malformedPacket link raw => Sys2Proof.Machine.execMalformedPacket link raw s
  | .elasticBufferOverflow link lane => Sys2Proof.Machine.execElasticBufferOverflow link lane s
  | .serviceStuckClear => Sys2Proof.Machine.execServiceStuckClear s
  | .entropyHealthRestored => Sys2Proof.Machine.execEntropyHealthRestored s
  | .blockResetDone block katOk => Sys2Proof.Machine.execBlockResetDone block katOk s
  | .extest selected => Sys2Proof.Machine.execExtest selected s

end Sys2Proof.Machine
end

