-- ==== Sys2Proof/Machine/Step.lean ====
section
/-!
DEFINITION. A step: the command at the front of the queue runs on the state with the queue's rest. On an empty queue nothing happens but that
device time goes on by one nanosecond, one chamber cycle (DESIGN CHOICE: the table has no row for the passing of time).
-/
namespace Sys2Proof.Machine

/-- A word of Elvoth issues in a slot of a bundle, or in the management cores (R66-R68). -/
def issueWord (e : Engine) (slot : Slot) (io : MgmtIO) (w : W32) (s : State) : Host.Outcome State Fault Refusal := exec (decodeWord e slot io w) s

/-- Device time goes on by one chamber cycle (R18). -/
def State.tick (s : State) : State := { s with now := s.now + 1 }

/-- One step. -/
def step (s : State) : Host.Outcome State Fault Refusal :=
  match s.pending with
  | [] => .next s.tick
  | c :: rest => exec c { s with pending := rest }

/-- The state with the command that a word spells in front of its queue. The table gives no row bits, so no word spells one. -/
def State.withFetchWord (s : State) (nbits w : Nat) : State :=
  match Sys2Proof.decodeTableWord nbits w with
  | some c => { s with pending := c :: s.pending }
  | none => s

end Sys2Proof.Machine
end

