-- ==== Sys2Proof/Safety.lean ====
section
/-!
DEFINITION. What claims are stated in: what stays as it was, the conditions under which a unit acts, and the results of Elvoth operations as
the spec's tables give them, on bit vectors.
-/
namespace Sys2Proof.Machine

/-! ## Frames -/

/-- Every register field but those of a list reads as before. -/
def State.SameRegs (s t : State) (fs : List Fld) : Prop := ∀ g : Fld, (∀ f ∈ fs, f.key ≠ g.key) → t.rd g = s.rd g

/-- Nothing but the register fields of a list has changed. -/
def State.OnlyRegs (s t : State) (fs : List Fld) : Prop := { t with regs := s.regs } = s ∧ s.SameRegs t fs

/-! ## Chambers -/

/-- Chamber c has closed its last bundle, issues the next one, and may: no retry stall, not fenced, not halted, a legal bundle. -/
def State.Issues (s : State) (c : ChamberId) : Prop :=
  s.seq.stallCycle = none ∧ s.chFenced c = false ∧ (s.chAt c).scalarUsed = false ∧ (s.chAt c).vectorUsed = false ∧
    (s.chAt c).halted = false ∧ s.pcIllegal c = false

/-- The state after a scalar-slot instruction of chamber c that does `g` to the chamber and nothing else. -/
def State.scalarIssue (s : State) (c : ChamberId) (g : Chamber → Chamber) : State := s.setCh c (g { s.chAt c with scalarUsed := true })

/-- The state after a vector-slot instruction of chamber c that does `g` to the chamber and nothing else. -/
def State.vectorIssue (s : State) (c : ChamberId) (g : Chamber → Chamber) : State := s.setCh c (g { s.chAt c with vectorUsed := true })

/-- A result that lands `lat` cycles after this one (R48); `slot` 0 scalar, 1 vector. -/
def Chamber.later (x : Chamber) (lat slot : Nat) (l : Landing) : Chamber :=
  { x with inFlight := x.inFlight ++ [{ due := x.cycle + lat, order := 2 * x.cycle + slot, land := l }] }

/-- A scalar result; none to s0 (R42). -/
def Chamber.scalarLater (x : Chamber) (lat slot : Nat) (d : BitVec 5) (v : W16) : Chamber :=
  if d = 0#5 then x else x.later lat slot (.scalar d.toFin v)

/-- A vector result in the enabled lanes. -/
def Chamber.vectorLater (x : Chamber) (lat : Nat) (d : BitVec 5) (pred : BitVec 3) (v : Nat → Nat) : Chamber :=
  x.later lat 1 (.vector d.toFin (x.predicate pred) (mkVec v))

/-- A predicate result in the enabled bits; none to p0 (R42). -/
def Chamber.predLater (x : Chamber) (lat : Nat) (d : BitVec 3) (pred : BitVec 3) (v : Nat → Bool) : Chamber :=
  if d = 0#3 then x else x.later lat 1 (.pred d.toFin (x.predicate pred) (mkPred v))

/-- An access that touches no pending line (R46). -/
def Chamber.Clear (x : Chamber) (lines : List Nat) : Prop := ∀ l ∈ lines, l ∉ x.tags

/-! ## Registers -/

/-- A requester's word write of the register at an offset passes its gate (R59, R61, R354, R362). -/
def State.MayWrite (s : State) (who : Sys2Proof.Requester) (off : Nat) : Prop := s.reaches who true (regBase + off) 4 = true

/-! ## The twin -/

/-- A packet of the twin's that lands with its record in force (R276, R278, R318): paired, in a peer session, the expected one, authentic. -/
def State.TwinLands (s : State) (p : Sys2Proof.RxPacket) (type addr : Nat) : Prop :=
  s.paired = true ∧ s.peerSession = true ∧ intact p type p.payload.length addr = true ∧ p.seq.toNat = (s.linkAt .peer).rxNext ∧
    mayTransmit (s.linkAt .peer).limitSent p.seq.toNat = true ∧
    s.authentic .peer p (packetHeader type p.seq.toNat p.enc 0 false p.payload.length addr) = true

/-! ## The wharf -/

/-- The pair and the opcode that a wharf command's row carries out (R426). -/
def wharfCommand : Sys2Proof.Instr → Option (Pair × Nat)
  | .getIdentity p => some (p, 0x01)
  | .challenge p => some (p, 0x02)
  | .quote p => some (p, 0x03)
  | .sessionHello p => some (p, 0x10)
  | .sessionFinish p => some (p, 0x11)
  | .sessionClose => some (.session, 0x12)
  | .peerMsg => some (.session, 0x13)
  | .pairSet => some (.session, 0x14)
  | .certSet => some (.session, 0x15)
  | .tgKeySet => some (.session, 0x16)
  | .installRoot p _ => some (p, 0x20)
  | .revokeRoot p _ => some (p, 0x21)
  | .provisionEnd p => some (p, 0x22)
  | .reprovision p => some (p, 0x23)
  | .debugUnlock p => some (p, 0x24)
  | .recoverWrite p => some (p, 0x25)
  | .imageWrite => some (.session, 0x30)
  | .commitSvn _ => some (.session, 0x31)
  | .flightLoad => some (.session, 0x40)
  | .flightStore => some (.session, 0x41)
  | .libraryLoad => some (.session, 0x42)
  | .libraryStore => some (.session, 0x43)
  | .ceilStore => some (.session, 0x44)
  | .ceilLoad => some (.session, 0x45)
  | .fileRead => some (.session, 0x50)
  | .sync => some (.session, 0x52)
  | .backup => some (.session, 0x53)
  | .shutdown => some (.session, 0x54)
  | .startSet => some (.session, 0x55)
  | .calibrate => some (.session, 0x60)
  | .resync => some (.session, 0x61)
  | .maintEnter => some (.session, 0x70)
  | .maintExit => some (.session, 0x71)
  | .testEnter => some (.session, 0x72)
  | .testExit => some (.session, 0x73)
  | _ => none

/-- The argument bytes of a command (R425, R426); those after them are 0. -/
def State.argsUsed (s : State) (op : Nat) : Nat :=
  match op with
  | 0x03 => 40
  | 0x10 => 16
  | 0x13 => 16
  | 0x21 => 1
  | 0x25 => 16
  | 0x30 => 5
  | 0x40 => 3
  | 0x41 => 2
  | 0x42 => if s.arg .session 0 1 = 1 then 2 else 1
  | 0x43 => 1
  | 0x44 => 2
  | 0x45 => 2
  | 0x50 => 4
  | 0x55 => 6
  | 0x60 => 2
  | _ => if op ∈ [0x01, 0x02, 0x11, 0x14, 0x15, 0x16, 0x20, 0x23, 0x24] then 8 else 0

/-- A block that serves an opcode is in reset (R252): the security engine, the NAND controller, or the pairing block for RESYNC. -/
def State.servingReset (s : State) (op : Nat) : Prop :=
  Block.security ∈ s.flt.inReset ∧ securityServed op = true ∨ Block.nand ∈ s.flt.inReset ∧ nandServed op = true ∨
    Block.pairing ∈ s.flt.inReset ∧ op = 0x61

/-- A pair is executing a command that nothing stands in the way of: the block that serves it is up, and its unused argument bytes are 0. -/
def State.Serves (s : State) (p : Pair) (op : Nat) : Prop :=
  s.executing p op = true ∧ ¬ s.servingReset op ∧ ¬ (s.sec.engineOff = true ∧ securityServed op = true) ∧
    allZero ((s.args p).drop (s.argsUsed op)) = true

/-- The last completion of a pair has this status, and the pair executes nothing. -/
def State.Ended (s : State) (p : Pair) (code : Nat) : Prop := s.pairBusy p = false ∧ s.rd (Reg.WHF_STATUS_LAST_STATUS p.num) = code

/-- The bytes that the data reference at argument byte i names. -/
def State.Input (s : State) (p : Pair) (i : Nat) (bs : List Byte) : Prop := ∃ a len, s.dataRef p i = some (a, len) ∧ bs = s.bas.bytes a len

/-- The image that a command's source and index name: 0 a file, 1 a berth (R426), whose copy has met no lasting error (R137). -/
def State.Names (s : State) (source part x : Nat) (img : Blob) : Prop :=
  source = 0 ∧ s.readFile part (if part = 6 then x else 0) = (s, some img) ∨
    source = 1 ∧ x < 64 ∧ (∃ b, s.berthRef x = some b ∧ img = s.berthInput b) ∧ Sys2Proof.SvcReq.nand ∉ s.bas.failed

/-! ## NAND -/

/-- The storage cannot take a file of a length: not ready, fewer than 8 free blocks, or its partition's quota exceeded (R372, R375). -/
def State.LacksRoom (s : State) (part idx len : Nat) : Bool :=
  !s.nandReady || decide (s.nand.free.length < 8) || s.nand.overQuota part idx len

/-- A write of a file of a length begins at once: there is room, and the write window is open (R242, R372, R375). -/
def State.TakesFile (s : State) (part idx len : Nat) : Bool := !s.LacksRoom part idx len && s.nandWindow

/-- A write of a file is in progress, behind those that were: a refresh of the file is abandoned for it (R383), what is stored has not changed, and the
command that asked for it goes on executing. -/
def State.Storing (s t : State) (j : NJob) : Prop :=
  t.nand.jobs = s.nand.jobs.filter (fun q => !s.nand.refreshes j.part j.idx q) ++ [j] ∧ t.nand.files = s.nand.files ∧ t.bas = s.bas ∧
    t.sticky = s.sticky ∧ ∀ p, j.pair = some p → t.pairBusy p = s.pairBusy p

/-- No source of the NAND controller resets its block: neither a commit's follow-up nor a retired block then ends the work in progress (R252). -/
def State.NandHolds (s : State) : Prop := ∀ n, 160 ≤ n → n < 170 → s.on (Reg.FLT_REACT_BR n) = false

/-! ## Management cores -/

/-- A register of the cores as its 32 bits; s0 reads 0. -/
def Mgmt.value (m : Mgmt) (r : BitVec 5) : W32 := if r = 0#5 then 0#32 else m.x[r.toFin]

/-- The cores with a register written; a write to s0 is discarded. -/
def Mgmt.wrote (m : Mgmt) (r : BitVec 5) (v : W32) : Mgmt := if r = 0#5 then m else { m with x := m.x.set r.toFin v }

/-- The cores continue at the next instruction. -/
def Mgmt.advanced (m : Mgmt) : Mgmt := { m with pc := m.pc + 4#32 }

/-- What a trap leaves (R63). -/
def Mgmt.trapped (m : Mgmt) (cause value : W32) : Mgmt :=
  { m with trapCause := cause, trapPc := m.pc, trapVal := value, trapActive := true, ie := false, pc := m.trapVector }

/-- The cores execute the instruction that comes: not stopped, not held by WFI, and the fetch is granted. -/
def State.CoreRuns (s : State) : Prop :=
  s.mgmt.stopped = false ∧ (s.mgmt.waiting = false ∨ s.mgmt.intPending = true ∨ s.mgmt.nmiPending = true) ∧ s.permits s.mgmt.pc.toNat 0 = true

/-- The state after an instruction that does `g` to the cores and nothing else. -/
def State.coreStep (s : State) (g : Mgmt → Mgmt) : State := { s with mgmt := g { s.mgmt with waiting := false } }

/-- What a load puts in its register: LH and LB sign-extended, the others not (R73). -/
def loadResult (op : LoadOp) (v : Nat) : W32 :=
  match op with
  | .lh => (BitVec.ofNat 16 v).signExtend 32
  | .lb => (BitVec.ofNat 8 v).signExtend 32
  | _ => BitVec.ofNat 32 v

/-- The fields that an instruction of major 0x22 or 0x23 must hold at 0 (R66). -/
def Fields.OnlyMinor (f : Sys2Proof.Fields) : Prop := f.d = 0#5 ∧ f.a = 0#5 ∧ f.b = 0#5 ∧ f.pred = 0#3

/-- The instruction word as 32 bits (R40). -/
def Fields.bits (f : Sys2Proof.Fields) (major : BitVec 6) : W32 := major ++ f.d ++ f.a ++ f.b ++ f.pred ++ f.minor

/-! ## Elvoth results -/

/-- The table of R70 for registers of w bits, without the divides. -/
def aluResult (w minor : Nat) (a b : BitVec w) : Option (BitVec w) :=
  match minor with
  | 0x00 => some (a + b)
  | 0x01 => some (a - b)
  | 0x02 => some (a &&& b)
  | 0x03 => some (a ||| b)
  | 0x04 => some (a ^^^ b)
  | 0x05 => some (a &&& ~~~b)
  | 0x06 => some (a <<< (b.toNat % w))
  | 0x07 => some (a >>> (b.toNat % w))
  | 0x08 => some (a.sshiftRight (b.toNat % w))
  | 0x09 => some (if a.slt b then 1#w else 0#w)
  | 0x0A => some (if a.ult b then 1#w else 0#w)
  | 0x0B => some (if a.slt b then a else b)
  | 0x0C => some (if a.slt b then b else a)
  | 0x0D => some (if a.ult b then a else b)
  | 0x0E => some (if a.ult b then b else a)
  | 0x10 => some (a * b)
  | 0x11 => some (BitVec.ofInt w (a.toInt * b.toInt / 2 ^ w))
  | 0x12 => some (BitVec.ofNat w (a.toNat * b.toNat / 2 ^ w))
  | _ => none

/-- The divides of R70 with the corner values of R76. -/
def divResult (minor : Nat) (a b : W32) : Option W32 :=
  match minor with
  | 0x14 => some (if b = 0#32 then BitVec.allOnes 32 else a.sdiv b)
  | 0x15 => some (if b = 0#32 then BitVec.allOnes 32 else a / b)
  | 0x16 => some (if b = 0#32 then a else a.srem b)
  | 0x17 => some (if b = 0#32 then a else a % b)
  | _ => none

/-- The table of R71 for registers of w bits and the 13-bit immediate. -/
def immResult (w : Nat) (op : ImmOp) (a : BitVec w) (imm : BitVec 13) : BitVec w :=
  match op with
  | .addi => a + imm.signExtend w
  | .andi => a &&& imm.setWidth w
  | .ori => a ||| imm.setWidth w
  | .xori => a ^^^ imm.setWidth w
  | .slli => a <<< (imm.toNat % w)
  | .srli => a >>> (imm.toNat % w)
  | .srai => a.sshiftRight (imm.toNat % w)
  | .slti => if a.toInt < imm.toInt then 1#w else 0#w
  | .sltiu => if a.ult (imm.signExtend w) then 1#w else 0#w

/-- imm13 as bits 15:11 then 7:0 (R67). -/
def immBits (f : Fields) : BitVec 13 := f.b ++ f.minor

end Sys2Proof.Machine
end

