-- ==== Sys2Proof/Certificates/Slice0/Obligations.lean ====
section
/-!
DEFINITION. The statements about the SL1M, for the provers. Each says what a command leaves, or an invariant that every step keeps; `Ready`
is the settled device that is not held in Reset, in which a command has its own effect.
-/

open Sys2Proof Sys2Proof.Machine

/-! ## Elvoth-V: what a chamber's instructions do (R39-R57, R66-R101) -/

/-- R66, R70, R71 in a chamber: NOP has no effect; a scalar operation and an immediate operation write the result of their table to sd,
one cycle later, the multiplies three; only where bit 0 of the predicate is 1. Nothing else changes: the conclusion is the whole next
state.
R44, R46, R52, R77: LD and VLD read the word or the line at the address of R77 and land it three cycles later; ST and VST store to
it one cycle later; no line touched is pending here. Bit 0 of the predicate lets LD and ST act; the predicate is the lane mask of VLD
and VST. -/
def Obligations.ChamberScalarSlot : Prop :=
  (∀ (s : State) (c : ChamberId) (f : Fields), s.Ready → s.Issues c →
    exec (.nop (.chamber c) ⟨.scalar, 0#32⟩) s = .next (s.scalarIssue c id) ∧
    exec (.nop (.chamber c) ⟨.vector, 0#32⟩) s = .next (s.vectorIssue c id) ∧
    (∀ v : W16, aluResult 16 f.minor.toNat (BitVec.ofNat 16 ((s.chAt c).scalar f.a)) (BitVec.ofNat 16 ((s.chAt c).scalar f.b)) = some v →
      exec (.scalarOp (.chamber c) f) s = .next (s.scalarIssue c (fun x =>
        if x.executes f then x.scalarLater (if 0x10 ≤ f.minor.toNat then 3 else 1) 0 f.d v else x))) ∧
    (∀ op : ImmOp, exec (.scalarImmOp (.chamber c) op f) s = .next (s.scalarIssue c (fun x =>
      if x.executes f then x.scalarLater 1 0 f.d (immResult 16 op (BitVec.ofNat 16 (x.scalar f.a)) (immBits f)) else x)))) ∧
  (∀ (s : State) (c : ChamberId) (f : Fields), s.Ready → s.Issues c → f.b = 0#5 →
    (∀ a, a = (s.chAt c).memAddr f 2 / 2 * 2 → (s.chAt c).Clear [a / 64] →
      exec (.ld (.chamber c) f) s = .next (s.scalarIssue c (fun x => if x.executes f then
        x.scalarLater 3 0 f.d (x.store.byte (a + 1) ++ x.store.byte a) else x)) ∧
      exec (.st (.chamber c) f) s = .next (s.scalarIssue c (fun x => if x.executes f then
        x.later 1 0 (.store [(a, BitVec.ofNat 8 (x.scalar f.d)), (a + 1, BitVec.ofNat 8 (x.scalar f.d / 256))]) else x))) ∧
    (∀ a, a = (s.chAt c).memAddr f 64 / 64 * 64 → (s.chAt c).Clear [a / 64] →
      exec (.vld (.chamber c) f) s = .next (s.scalarIssue c (fun x => 
        x.later 3 0 (.vector f.d.toFin (x.predicate f.pred) (BitVec.ofNat 512 (x.store.readLE a 64))))) ∧
      exec (.vst (.chamber c) f) s = .next (s.scalarIssue c (fun x =>
        x.later 1 0 (.store (laneCells a (x.predicate f.pred) (x.vector f.d)))))))

/-- R53, R55, R80-R82: LOOP pushes start, end and count; JUMP, CALL and RET continue at their target after two delay bundles, CALL pushing
its own index + 3 and RET popping; HALT ends the lock's bundles; RDCTX writes the value that sel names. Nothing else changes.
R54, R66, R121: in a chamber, a word whose major opcode is unassigned or belongs to the other slot, a non-zero reserved field of LI, an
unassigned minor of major 0x00, an encoding of Elvoth-S alone and a LOOP of body length 0 halt it and raise FS102, with SOURCE, LOCK, CYCLE
and PC of the breach recorded; a RET with an empty call stack and a fifth call level raise FS103. Where the source has not been raised in this
cycle yet (R249), its sticky and live bits read 1.
R66, R68: a word in a slot issues as the row its major opcode names; one whose major is unassigned, or not of that slot, is no row's. -/
def Obligations.ChamberControlAndBreaches : Prop :=
  (∀ (s : State) (c : ChamberId) (f : Fields) (body : BitVec 12) (trip : BitVec 16), s.Ready → s.Issues c →
    (body ≠ 0#12 → (s.chAt c).loops.length < 3 → (∀ e ∈ (s.chAt c).loops.head?, (s.chAt c).pc + body.toNat ≤ e.stop) →
      exec (.loop (.chamber c) body trip) s = .next (s.scalarIssue c (fun x => { x with loops :=
        { start := x.pc + 1, stop := x.pc + body.toNat, remaining := if trip = 0#16 then 65536 else trip.toNat } :: x.loops }))) ∧
    (f.d = 0#5 → f.a = 0#5 → f.pred = 0#3 →
      exec (.jump (.chamber c) f) s = .next (s.scalarIssue c (fun x => { x with transfers := { left := 3, target := f.target } :: x.transfers })) ∧
      ((s.chAt c).calls.length < 4 → exec (.call (.chamber c) f) s = .next (s.scalarIssue c (fun x =>
        { x with calls := (x.pc + 3) :: x.calls, transfers := { left := 3, target := f.target } :: x.transfers }))) ∧
      (f.b = 0#5 →
        (∀ t ts, (s.chAt c).calls = t :: ts → f.minor = 0#8 → exec (.ret (.chamber c) f) s = .next (s.scalarIssue c (fun x =>
          { x with calls := ts, transfers := { left := 3, target := t } :: x.transfers }))) ∧
        (f.minor = 1#8 → (∀ l, (s.chAt c).running = true → s.lockOf (s.chAt c) = some l → l.length ≤ (s.chAt c).cycle - (s.chAt c).lockStart + 1) →
          exec (.halt (.chamber c) f) s = .next (s.scalarIssue c (fun x => { x with running := false, halted := true }))))) ∧
    (f.a = 0#5 → f.minor = 2#8 → ∀ v : Nat,
      (f.b = 0#5 ∧ v = s.rd Reg.SEQ_LOCK_NUMBER_LOCK_NUMBER % 65536 ∨ f.b = 1#5 ∧ v = s.rd Reg.SEQ_LOCK_NUMBER_LOCK_NUMBER / 65536 ∨
        f.b = 2#5 ∧ v = c.val ∨ f.b = 3#5 ∧ v = (s.chAt c).lock) →
      exec (.rdctx (.chamber c) f) s = .next (s.scalarIssue c (fun x => if x.executes f then x.scalarLater 1 0 f.d (BitVec.ofNat 16 v) else x)))) ∧
  (∀ (s : State) (c : ChamberId) (f : Fields) (i : Instr) (n : Nat), s.Ready → s.Issues c →
    (n = 102 ∧ (i = .li (.chamber c) f ∧ f.a ≠ 0#5 ∨
        i = .scalarOp (.chamber c) f ∧ aluResult 16 f.minor.toNat 0#16 0#16 = none ∨
        (∃ op io, i = .elvothSLoad (.chamber c) op f io) ∨ (∃ op io, i = .elvothSStore (.chamber c) op f io) ∨
        i = .lui (.chamber c) f ∨ i = .jal (.chamber c) f ∨ i = .cwr (.chamber c) f ∨
        (∃ slot w, w ≠ 0#32 ∧ i = .nop (.chamber c) ⟨slot, w⟩) ∨
        i = .loop (.chamber c) 0#12 (f.b ++ f.pred ++ f.minor)) ∨
     n = 103 ∧ f.d = 0#5 ∧ f.a = 0#5 ∧ f.pred = 0#3 ∧
       (i = .ret (.chamber c) f ∧ f.b = 0#5 ∧ f.minor = 0#8 ∧ (s.chAt c).calls = [] ∨ i = .call (.chamber c) f ∧ 4 ≤ (s.chAt c).calls.length)) →
    (n, some c.val, (s.chAt c).cycle) ∉ s.flt.instants →
    ∃ t, exec i s = .next t ∧ (t.chAt c).halted = true ∧ (t.chAt c).running = false ∧
      t.rd (Reg.CHM_BREACH_SOURCE c) = n ∧ t.on (Reg.CHM_BREACH_VALID c) = true ∧
      t.rd (Reg.CHM_BREACH_PC_PC c) = (s.chAt c).pc % 8192 ∧ t.rd (Reg.CHM_BREACH_LOCK c) = (s.chAt c).lock % 512 ∧
      t.rd (Reg.CHM_BREACH_CYCLE_CYCLE c) = ((s.chAt c).cycle - (s.chAt c).lockStart) % 2 ^ (Reg.CHM_BREACH_CYCLE_CYCLE c).w ∧
      t.sticky n = true ∧ t.live n = true) ∧
  (∀ (s : State) (e : Engine) (slot : Slot) (io : MgmtIO) (w : W32) (k : Nat), k = w.toNat / 2 ^ 26 →
    issueWord e slot io w s = exec (decodeWord e slot io w) s ∧
    decodeWord e slot io 0#32 = .nop e ⟨slot, 0#32⟩ ∧
    ((0x0C ≤ k ∧ k < 0x10 ∨ 0x24 ≤ k ∧ k < 0x28 ∨ 0x38 ≤ k ∧ k < 0x3C) → decodeWord e slot io w = .nop e ⟨slot, w⟩) ∧
    (∀ c : ChamberId,
      (0x30 ≤ k ∧ k < 0x38 → decodeWord (.chamber c) .scalar io w = .nop (.chamber c) ⟨.scalar, w⟩) ∧
      (k < 0x30 ∨ 0x38 ≤ k → decodeWord (.chamber c) .vector io w = .nop (.chamber c) ⟨.vector, w⟩)) ∧
    (k = 0x0A → decodeWord e .scalar io w = .li e (fieldsOf w.toNat)) ∧
    (0x3C ≤ k → decodeWord e .scalar io w = .loop e (w.extractLsb' 16 12) (w.extractLsb' 0 16)) ∧
    (k = 0x36 → decodeWord e .vector io w = .health e (fieldsOf w.toNat)))

/-- R79, R114: BARGE.ISSUE n of an entry of the running lock's list, in the cycle that the entry declares for its next repetition and
with a tag slot free, starts that repetition in the lowest free slot and makes its destination lines pending. -/
def Obligations.BargeIssueStarts : Prop :=
  ∀ (s : State) (c : ChamberId) (f : Fields) (e : BargeEntry) (slot : Fin 8), s.Ready → s.Issues c →
    f.d = 0#5 → f.a = 0#5 → f.b = 0#5 → f.pred = 0#3 → s.bargeOf (s.chAt c) f.minor.toNat = some e →
    Sparse.get (s.chAt c).reps 0 f.minor.toNat < e.reps →
    (s.chAt c).cycle - (s.chAt c).lockStart = e.issue + Sparse.get (s.chAt c).reps 0 f.minor.toNat * e.repCycles →
    freeSlot ((s.chAt c).barges.filter (fun b => b.inFlightAt c.val (s.chAt c).cycle)) = some slot →
    ∃ t y, exec (.bargeIssue (.chamber c) f) s = .next t ∧
      t = State.setCh { s with seq := { s.seq with bargeOrder := s.seq.bargeOrder + 1 } } c y ∧
      y = { s.chAt c with scalarUsed := true, barges := y.barges, reps := y.reps, tags := y.tags, peak := y.peak } ∧
      y.barges = (s.chAt c).barges.filter (fun b => b.inFlightAt c.val (s.chAt c).cycle) ++
        [{ entry := e, rep := Sparse.get (s.chAt c).reps 0 f.minor.toNat, issued := (s.chAt c).cycle, order := s.seq.bargeOrder, slot := slot, next := 0 }] ∧
      Sparse.get y.reps 0 f.minor.toNat = Sparse.get (s.chAt c).reps 0 f.minor.toNat + 1 ∧
      (∀ n, n ≠ f.minor.toNat → Sparse.get y.reps 0 n = Sparse.get (s.chAt c).reps 0 n) ∧
      (∀ l, l ∈ y.tags ↔ l ∈ (s.chAt c).tags ∨ l ∈ e.lines (Sparse.get (s.chAt c).reps 0 f.minor.toNat))

/-- R83-R85, R87, R95: the vector ALU operations, compares, predicate operations, VEXT, VBCAST, MINMAX and BLEND write the lanes of
their tables, two cycles later, in the lanes that the predicate enables.
R88, R50: VMUL narrows the product; VMULA writes it to an accumulator and VMAC sends it to be added to what the accumulator holds when
it lands; ACC.NARROW shifts, rounds and saturates; all land four cycles later. -/
def Obligations.VectorResults : Prop :=
  (∀ (s : State) (c : ChamberId) (f : Fields), s.Ready → s.Issues c →
    ∀ op ty, op = f.minor.toNat % 64 → ty = f.minor.toNat / 64 →
    (∀ g : Nat → Nat → Nat → Nat, vecReservedOk op f = true → (∀ a b i, vecLane op ty f.b.toNat a b i = some (g a b i)) →
      exec (.vectorOp (.chamber c) f) s = .next (s.vectorIssue c (fun x => x.vectorLater 2 f.d f.pred
        (fun i => g (lane (x.vector f.a) i) (lane (x.vector f.b) i) i)))) ∧
    (∀ g : Nat → Nat → Bool, f.d.toNat < 8 → (∀ a b, vecCmp op ty a b = some (g a b)) →
      exec (.vectorOp (.chamber c) f) s = .next (s.vectorIssue c (fun x => x.predLater 2 (f.d.setWidth 3) f.pred
        (fun i => g (lane (x.vector f.a) i) (lane (x.vector f.b) i))))) ∧
    (∀ g : Bool → Bool → Bool, f.d.toNat < 8 → f.a.toNat < 8 → f.b.toNat < 8 →
      (op = 0x18 ∧ g = and ∨ op = 0x19 ∧ g = or ∨ op = 0x1A ∧ g = xor) →
      exec (.predicateOp (.chamber c) f) s = .next (s.vectorIssue c (fun x => x.predLater 2 (f.d.setWidth 3) f.pred
        (fun i => g ((x.predicate (f.a.setWidth 3)).getLsbD i) ((x.predicate (f.b.setWidth 3)).getLsbD i))))) ∧
    (op = 0x0B → f.pred = 0#3 → exec (.vext (.chamber c) f) s = .next (s.vectorIssue c (fun x =>
      x.scalarLater 2 1 f.d (BitVec.ofNat 16 (lane (x.vector f.a) f.b.toNat))))) ∧
    (op = 0x0A → f.b = 0#5 → exec (.vbcast (.chamber c) f) s = .next (s.vectorIssue c (fun x =>
      x.vectorLater 2 f.d f.pred (fun _ => x.scalar f.a)))) ∧
    (op = 0x0E → f.d.toNat % 2 = 0 → exec (.minmax (.chamber c) f) s = .next (s.vectorIssue c (fun x =>
      let small (i : Nat) : Bool := decide (laneVal ty (lane (x.vector f.a) i) ≤ laneVal ty (lane (x.vector f.b) i))
      (x.vectorLater 2 f.d f.pred (fun i => if small i then lane (x.vector f.a) i else lane (x.vector f.b) i)).vectorLater 2 (f.d + 1#5) f.pred
        (fun i => if small i then lane (x.vector f.b) i else lane (x.vector f.a) i)))) ∧
    (∀ g : Nat → Nat → Nat → Nat, f.minor.toNat < 7 → (∀ d v α, blendLane f.minor.toNat d v α = some (g d v α)) →
      exec (.blend (.chamber c) f) s = .next (s.vectorIssue c (fun x => x.vectorLater 2 f.d f.pred
        (fun i => g (lane (x.vector f.d) i) (lane (x.vector f.a) i) (lane (x.vector f.b) i)))))) ∧
  (∀ (s : State) (c : ChamberId) (f : Fields), s.Ready → s.Issues c → ∀ ty, ty = f.minor.toNat / 64 →
    (f.minor.toNat % 64 = 0 → exec (.vmul (.chamber c) f) s = .next (s.vectorIssue c (fun x => x.vectorLater 4 f.d f.pred (fun i =>
      let p := laneVal ty (lane (x.vector f.a) i) * laneVal ty (lane (x.vector f.b) i)
      satLane ty (if ty = 2 then roundShift p 15 else if ty = 3 then roundShift p 16 else p))))) ∧
    (f.minor.toNat % 64 = 1 → f.d.toNat < 4 → exec (.vmula (.chamber c) f) s = .next (s.vectorIssue c (fun x =>
      x.later 4 1 (.acc (f.d.setWidth 2).toFin (x.predicate f.pred)
        (mkAcc (fun i => laneVal ty (lane (x.vector f.a) i) * laneVal ty (lane (x.vector f.b) i))))))) ∧
    (f.minor.toNat % 64 = 2 → f.d.toNat < 4 → exec (.vmac (.chamber c) f) s = .next (s.vectorIssue c (fun x =>
      x.later 4 1 (.mac (f.d.setWidth 2).toFin (x.predicate f.pred)
        (mkAcc (fun i => laneVal ty (lane (x.vector f.a) i) * laneVal ty (lane (x.vector f.b) i))))))) ∧
    (f.minor.toNat % 64 = 3 → f.a.toNat < 4 → exec (.accNarrow (.chamber c) f) s = .next (s.vectorIssue c (fun x =>
      x.vectorLater 4 f.d f.pred (fun i => satLane ty (roundShift (accLane (x.accum (f.a.setWidth 2)) i) f.b.toNat))))))

/-- R89-R97: SAMPLE, COVER, LUT16 and HEALTH write the lanes that their rules give, after 12, 8, 3 and 3 cycles; no line they read is
pending here. -/
def Obligations.TexelGlyphTableAndHealth : Prop :=
  ∀ (s : State) (c : ChamberId) (f : Fields), s.Ready → s.Issues c →
    (f.minor.toNat / 16 % 4 = 0 → ∀ w, w = (s.chAt c).window (f.minor.toNat % 16) →
      (s.chAt c).Clear ((s.chAt c).sampleLines w (f.minor.toNat % 16) (f.minor.toNat / 128 = 1) (f.minor.toNat / 64 % 2)
        ((s.chAt c).vector f.a) ((s.chAt c).vector f.b)) →
      exec (.sample (.chamber c) f) s = .next (s.vectorIssue c (fun x => x.vectorLater 12 f.d f.pred (fun i =>
        (s.chAt c).sampleLane w (f.minor.toNat / 128 = 1) (f.minor.toNat / 64 % 2) (lane (x.vector f.a) i) (lane (x.vector f.b) i))))) ∧
    (f.minor.toNat < 4 → ∀ n, n = regionLine f.minor.toNat ((s.chAt c).scalar f.a) → (s.chAt c).Clear (lineRun n 13) →
      exec (.cover (.chamber c) f) s = .next (s.vectorIssue c (fun x => x.vectorLater 8 f.d f.pred (fun i =>
        coverPixel (coverHeader ((s.chAt c).runByte n)) (coverEdges (coverHeader ((s.chAt c).runByte n)) ((s.chAt c).runByte n)) i (x.scalar f.b % 32))))) ∧
    (f.minor.toNat < 4 → ∀ n, n = regionLine f.minor.toNat ((s.chAt c).scalar f.b) → (s.chAt c).Clear (lineRun n 33) →
      exec (.lut16 (.chamber c) f) s = .next (s.vectorIssue c (fun x => x.vectorLater 3 f.d f.pred (fun i =>
        let v := lane (x.vector f.a) i
        ((s.chAt c).runWord n (2 * (v / 64)) * (64 - v % 64) + (s.chAt c).runWord n (2 * (v / 64) + 2) * (v % 64) + 32) / 64)))) ∧
    (f.d.toNat < 8 → f.minor.toNat ≤ 2 →
      exec (.health (.chamber c) f) s = .next (s.vectorIssue c (fun x => x.predLater 3 (f.d.setWidth 3) f.pred (fun i =>
        healthy s.pairMap f.minor.toNat (32 * (x.scalar f.b % 32) + i) (x.scalar f.a % 1024)))))

/-- R99, R100: REQ.PUT delivers the 32 lanes of va to the segment that sb names at the port of its reach, in its issue cycle. The delivery
is recorded and, unless the reach is fenced or the segment waits already, waits for the trim stage.
R48: with no bundle open, and the chamber not issuing, RESULT_LAND brings the schedule to the cycle in which the next result is due. A
scalar result alone in flight lands there in its register, and is in flight no more. -/
def Obligations.RequestsAndResultsLand : Prop :=
  (∀ (s : State) (c : ChamberId) (f : Fields), s.Ready → s.Issues c → f.d = 0#5 → f.minor = 0#8 → f.pred = 0#3 →
    ∀ key, key = (s.chAt c).scalar f.b / 64 % 64 * 64 + (s.chAt c).scalar f.b % 64 → (s.reachAt c).has key = false →
    ∃ t y, exec (.reqPut (.chamber c) f) s = .next t ∧ t = (s.vectorIssue c id).setReach c y ∧
      y = { s.reachAt c with delivered := y.delivered, waiting := y.waiting } ∧
      Sparse.get y.delivered 0#512 key = (s.chAt c).vector f.a ∧
      (∀ k, k ≠ key → Sparse.get y.delivered 0#512 k = Sparse.get (s.reachAt c).delivered 0#512 k) ∧
      y.waiting = (if s.fenced c || (s.reachAt c).waiting.contains key then (s.reachAt c).waiting else (s.reachAt c).waiting ++ [key])) ∧
  (∀ (s : State) (c : ChamberId) (r : Fin 32) (v : W16) (q : InFlight), s.Ready →
    (s.chAt c).scalarUsed = false → (s.chAt c).vectorUsed = false → (s.chAt c).running = false →
    (s.chAt c).inFlight = [q] → q.land = .scalar r v →
    exec (.resultLand c) s = .next (s.setCh c { s.chAt c with s := (s.chAt c).s.set r v, inFlight := [], cycle := q.due }))

/-! ## Elvoth-S: what the management cores' instructions do (R58-R65, R73-R76) -/

/-- R58, R70, R71, R76 in the cores: NOP only moves on; the scalar and immediate operations write the result of their table to
sd and move on; a divide by 0 gives 0xFFFF_FFFF and the dividend. Nothing else changes.
R74: a branch whose condition holds continues off11 words away, another at the next instruction; JAL and JALR write their own address + 4
to sd and continue off16 words away, or at sa + imm13 with its two lowest bits cleared, sa read before sd is written; and where the target is
not granted for execution, the next instruction traps there with cause 0x03 and raises FS001. -/
def Obligations.CoreResultsAndJumps : Prop :=
  (∀ (s : State) (f : Fields), s.Ready → s.CoreRuns →
    (∀ slot, exec (.nop .mgmt ⟨slot, 0#32⟩) s = .next (s.coreStep Mgmt.advanced)) ∧
    (f.pred = 0#3 → ∀ v : W32,
      (aluResult 32 f.minor.toNat (s.mgmt.value f.a) (s.mgmt.value f.b) = some v ∨ divResult f.minor.toNat (s.mgmt.value f.a) (s.mgmt.value f.b) = some v) →
      exec (.scalarOp .mgmt f) s = .next (s.coreStep (fun m => (m.wrote f.d v).advanced))) ∧
    (f.pred = 0#3 → ∀ op : ImmOp, exec (.scalarImmOp .mgmt op f) s = .next (s.coreStep (fun m =>
      (m.wrote f.d (immResult 32 op (m.value f.a) (immBits f))).advanced)))) ∧
  (∀ (s : State) (f : Fields), s.Ready →
    (s.CoreRuns →
      (f.d = 0#5 → ∀ (op : BranchOp) (taken : Bool),
        (taken = match op with
          | .beq => decide (s.mgmt.value f.a = s.mgmt.value f.b)
          | .bne => decide (s.mgmt.value f.a ≠ s.mgmt.value f.b)
          | .blt => (s.mgmt.value f.a).slt (s.mgmt.value f.b)
          | .bge => (s.mgmt.value f.b).sle (s.mgmt.value f.a)
          | .bltu => (s.mgmt.value f.a).ult (s.mgmt.value f.b)
          | .bgeu => (s.mgmt.value f.b).ule (s.mgmt.value f.a)) →
        exec (.branch .mgmt op f) s = .next (s.coreStep (fun m =>
          if taken then { m with pc := m.pc + ((f.pred ++ f.minor).signExtend 32) * 4#32 } else m.advanced))) ∧
      (f.a = 0#5 → exec (.jal .mgmt f) s = .next (s.coreStep (fun m =>
        { m.wrote f.d (m.pc + 4#32) with pc := m.pc + ((f.b ++ f.pred ++ f.minor).signExtend 32) * 4#32 }))) ∧
      (f.pred = 0#3 → exec (.jalr .mgmt f) s = .next (s.coreStep (fun m =>
        { m.wrote f.d (m.pc + 4#32) with pc := (m.value f.a + (immBits f).signExtend 32) &&& 0xFFFFFFFC#32 })))) ∧
    (s.mgmt.stopped = false → s.mgmt.waiting = false → s.permits s.mgmt.pc.toNat 0 = false → s.mgmt.trapActive = false →
      ∀ i, (∃ slot w, i = .nop .mgmt ⟨slot, w⟩) ∨ i = .branch .mgmt .beq f ∨ i = .jal .mgmt f ∨ i = .jalr .mgmt f →
      exec i s = .next (State.raise (s.coreStep (fun m => m.trapped 3#32 m.pc)) 1)))

/-- R62, R63, R64, R75: CWR reads and CWW writes control words, CW_CYCLE_LO latching its high word; TRAP takes cause 0x09; RETT and RETN
return, RETN into an NMI held pending; WFI waits; FENCE moves on; a write of 1 to CW_NMI_ACK acknowledges. The boot-level words are written at
boot level alone. -/
def Obligations.CoreSystem : Prop :=
  ∀ (s : State) (f : Fields), s.Ready →
    exec .nmiAck s = .next (State.put { s with mgmt := { s.mgmt with nmiAcked := true }, flt := { s.flt with escalateAt := none } } Reg.FLT_NMI_TIMING 0) ∧
    (s.CoreRuns →
      (f.pred = 0#3 → f.a = 0#5 → f.b = 0#5 → ∀ v : W32,
        (f.minor = 0x01#8 ∧ v = s.mgmt.trapCause ∨ f.minor = 0x02#8 ∧ v = s.mgmt.trapPc ∨ f.minor = 0x03#8 ∧ v = s.mgmt.trapVal ∨
          f.minor = 0x09#8 ∧ v = s.mgmt.cycleHi ∨ f.minor = 0x06#8 ∧ v = s.mgmt.nmiPc ∨ 0x30 ≤ f.minor.toNat ∧ v = 0#32) →
        exec (.cwr .mgmt f) s = .next (s.coreStep (fun m => (m.wrote f.d v).advanced))) ∧
      (f.pred = 0#3 → f.a = 0#5 → f.b = 0#5 → f.minor = 0x08#8 → ∀ n, n = (s.now - s.mgmt.born) / 2 →
        exec (.cwr .mgmt f) s = .next (s.coreStep (fun m =>
          ({ m with cycleHi := BitVec.ofNat 32 (n / 2 ^ 32) }.wrote f.d (BitVec.ofNat 32 n)).advanced))) ∧
      (f.pred = 0#3 → f.d = 0#5 → f.b = 0#5 → ∀ v, v = s.mgmt.value f.a →
        (f.minor = 0x00#8 → exec (.cww .mgmt f) s = .next (s.coreStep (fun m =>
          { m with ie := v.getLsbD 0, trapActive := v.getLsbD 1, nmiActive := v.getLsbD 2 }.advanced))) ∧
        (f.minor = 0x02#8 → exec (.cww .mgmt f) s = .next (s.coreStep (fun m => { m with trapPc := v }.advanced))) ∧
        (s.bootLevel = true → f.minor = 0x04#8 → exec (.cww .mgmt f) s = .next (s.coreStep (fun m => { m with trapVector := v }.advanced))) ∧
        (s.bootLevel = true → ∀ k : Fin 16, f.minor.toNat = 0x20 + k.val →
          exec (.cww .mgmt f) s = .next (s.coreStep (fun m => { m with protLimit := m.protLimit.set k (v &&& 0xFFFFF007#32) }.advanced))) ∧
        (0x30 ≤ f.minor.toNat → exec (.cww .mgmt f) s = .next (s.coreStep Mgmt.advanced)) ∧
        (s.bootLevel = false → s.mgmt.trapActive = false → f.minor.toNat = 4 ∨ f.minor.toNat = 5 ∨ (0x10 ≤ f.minor.toNat ∧ f.minor.toNat < 0x30) →
          ∃ x, exec (.cww .mgmt f) s = .next { s.coreStep (fun m => m.trapped 2#32 x) with fresh := s.fresh + 1 })) ∧
      (Fields.OnlyMinor f →
        (s.mgmt.trapActive = false → exec (.trap .mgmt f) s = .next (s.coreStep (fun m => m.trapped 9#32 (f.minor.setWidth 32)))) ∧
        (s.mgmt.trapActive = true → f.minor = 0#8 →
          exec (.rett .mgmt f) s = .next (s.coreStep (fun m => { m with trapActive := false, ie := true, pc := m.trapPc }))) ∧
        (s.mgmt.nmiActive = true → f.minor = 1#8 → exec (.retn .mgmt f) s = .next (s.coreStep (fun m =>
          if m.nmiPending then { m with nmiPc := m.nmiPc, nmiPending := false, nmiAcked := false, pc := m.nmiVector }
          else { m with nmiActive := false, pc := m.nmiPc }))) ∧
        (f.minor = 2#8 → exec (.wfi .mgmt f) s = .next (s.coreStep (fun m => { m with waiting := true }.advanced))) ∧
        (f.minor = 3#8 → exec (.fence .mgmt f) s = .next (s.coreStep Mgmt.advanced))))

/-- R63, R64: a pending maskable interrupt is taken while IE is 1 and TRAP_ACTIVE is 0, with cause 0x10 and the address of the next
instruction, and otherwise not; a pending NMI is taken whatever IE and TRAP_ACTIVE are, and while one is active it is held. (CW_TRAP_VAL
of the interrupt is a free value: log entry 9.)
R61: at boot level every access is permitted; at firmware level one is permitted exactly where an enabled region that contains the address
grants it and no region of a higher number that is enabled contains it. R63: a trap while TRAP_ACTIVE is set raises FS002, stores nothing and
stops the cores until its reaction acts, which an NMI or an interrupt selected for it does at once (log entry 9). R66, R68: a vector
instruction, and a word that no row names, are illegal in the cores, and trap there with the word. -/
def Obligations.CoreInterruptsAndTraps : Prop :=
  (∀ s : State, s.Ready →
    (s.mgmt.intPending = true → s.mgmt.ie = true → s.mgmt.trapActive = false → s.mgmt.stopped = false →
      ∃ x, exec .interruptTake s = .next { s with fresh := s.fresh + 1, mgmt := { s.mgmt.trapped 0x10#32 x with intPending := false, waiting := false } }) ∧
    (s.mgmt.ie = false ∨ s.mgmt.trapActive = true → exec .interruptTake s = .next s) ∧
    (s.mgmt.nmiPending = true → s.mgmt.nmiActive = false → s.mgmt.stopped = false →
      exec .nmiTake s = .next { s with mgmt := { s.mgmt with
        nmiPc := s.mgmt.pc, nmiActive := true, nmiPending := false, nmiAcked := false, pc := s.mgmt.nmiVector, waiting := false } }) ∧
    (s.mgmt.nmiActive = true → exec .nmiTake s = .next s)) ∧
  (∀ (s : State) (f : Fields),
    (∀ (a : Nat) (g : Nat), s.permits a g = true ↔ s.bootLevel = true ∨
      ∃ k : Fin 16, (s.mgmt.protLimit[k]).toNat.testBit g = true ∧
        ((s.mgmt.protBase[k]).getLsbD 0 = true ∧ (s.mgmt.protBase[k]).toNat / 4096 ≤ a / 4096 ∧ a / 4096 ≤ (s.mgmt.protLimit[k]).toNat / 4096) ∧
        ∀ j : Fin 16, k < j →
          ¬((s.mgmt.protBase[j]).getLsbD 0 = true ∧ (s.mgmt.protBase[j]).toNat / 4096 ≤ a / 4096 ∧ a / 4096 ≤ (s.mgmt.protLimit[j]).toNat / 4096)) ∧
    (s.Ready → s.CoreRuns →
      (s.mgmt.trapActive = true → Fields.OnlyMinor f →
        (s.on (Reg.FLT_REACT_NMI 2) = false → s.on (Reg.FLT_REACT_INT 2) = false →
          exec (.trap .mgmt f) s = .next (State.raise (s.coreStep (fun m => { m with stopped := true })) 2)) ∧
        (s.on (Reg.FLT_REACT_NMI 2) = true ∨ s.on (Reg.FLT_REACT_INT 2) = true →
          ∃ t, exec (.trap .mgmt f) s = .next t ∧ t.sticky 2 = true ∧ t.mgmt.stopped = false ∧ t.mgmt.trapCause = s.mgmt.trapCause ∧
            t.mgmt.trapPc = s.mgmt.trapPc ∧ t.mgmt.trapVal = s.mgmt.trapVal)) ∧
      (s.mgmt.trapActive = false →
        (∀ slot (w : W32), w ≠ 0#32 → exec (.nop .mgmt ⟨slot, w⟩) s = .next (s.coreStep (fun m => m.trapped 1#32 w))) ∧
        exec (.vectorOp .mgmt f) s = .next (s.coreStep (fun m => m.trapped 1#32 (Fields.bits f 0x30#6))) ∧
        exec (.ld .mgmt f) s = .next (s.coreStep (fun m => m.trapped 1#32 (Fields.bits f 0x28#6))) ∧
        (f.minor = 0#8 → exec (.rett .mgmt f) s = .next (s.coreStep (fun m => m.trapped 1#32 (Fields.bits f 0x23#6)))))))

/-- R61, R63, R65, R73: a load or store that is aligned and that the protection regions grant executes: a load of any mapped address puts the bytes
there in its register, extended as the operation says, and a store in management SRAM, the basin, Trim Memory or a listed register lands the low bytes
of its register as a write of that range does; the core then continues at the next instruction. A misaligned address traps with cause
0x06, one that no region grants with cause 0x04 or 0x05 and FS001, an unmapped one with cause 0x07 and FS007, and an error that the code of
the SRAM cannot correct with cause 0x08 and FS004. A lockstep mismatch raises FS000 and puts nothing out: no store, no register, no control word. -/
def Obligations.CoreMemory : Prop :=
  ∀ (s : State) (f : Fields) (a : Nat), s.Ready → s.CoreRuns → f.pred = 0#3 → a = (s.mgmt.value f.a + (immBits f).signExtend 32).toNat →
    (∀ (op : LoadOp) (io : MgmtIO) (n : Nat), n = LoadSize op →
      (a % n = 0 → s.permits a 2 = true → io.lockstep = false →
        (∀ r, regionOf a = some r → (r = .sram → io.ecc = .clean ∨ io.ecc = .corrected) →
          ∃ t v, exec (.elvothSLoad .mgmt op f io) s = .next t ∧ t.mgmt.pc = s.mgmt.pc + 4#32 ∧ t.mgmt.x = (s.mgmt.wrote f.d (loadResult op v)).x ∧
            (r = .sram → v = s.mgmt.sram.readLE (a - 0x6100000) n)) ∧
        (∀ r, regionOf a = some r → r ≠ .regs → r ≠ .alias_ → io.ecc = .clean → (∀ i < n, s.byteOpen (a + i) = false) →
          ∀ v, v = leAt ((List.range n).map (fun i => BitVec.ofNat 8 (s.mapByte (a + i)))) 0 n →
          exec (.elvothSLoad .mgmt op f io) s = .next (s.coreStep (fun m => (m.wrote f.d (loadResult op v)).advanced))) ∧
        (regionOf a = some .regs ∨ regionOf a = some .alias_ → ∀ u bs, (s.coreStep id).busRead .mgmt a n = (u, bs) →
          exec (.elvothSLoad .mgmt op f io) s = .next { u with mgmt := (u.mgmt.wrote f.d (loadResult op (leAt bs 0 n))).advanced }) ∧
        (regionOf a = none → s.mgmt.trapActive = false →
          exec (.elvothSLoad .mgmt op f io) s =
            .next (State.raise (s.coreStep (fun m => (m.wrote f.d 0#32).trapped 7#32 (BitVec.ofNat 32 a))) 7)) ∧
        (regionOf a = some .sram → io.ecc = .transient ∨ io.ecc = .lasting → s.mgmt.trapActive = false →
          exec (.elvothSLoad .mgmt op f io) s = .next (State.raise (s.coreStep (fun m => m.trapped 8#32 (BitVec.ofNat 32 a))) 4))) ∧
      (a % n = 0 → s.permits a 2 = true → io.lockstep = true →
        exec (.elvothSLoad .mgmt op f io) s = .next (State.raise (s.coreStep Mgmt.advanced) 0)) ∧
      (s.mgmt.trapActive = false → a % n ≠ 0 →
        exec (.elvothSLoad .mgmt op f io) s = .next (s.coreStep (fun m => m.trapped 6#32 (BitVec.ofNat 32 a)))) ∧
      (s.mgmt.trapActive = false → a % n = 0 → s.permits a 2 = false →
        exec (.elvothSLoad .mgmt op f io) s = .next (State.raise (s.coreStep (fun m => m.trapped 4#32 (BitVec.ofNat 32 a))) 1))) ∧
    (∀ (op : StoreOp) (io : MgmtIO) (n : Nat) (data : List Byte), n = StoreSize op → data = leBytes (s.mgmt.value f.d).toNat n →
      (a % n = 0 → s.permits a 1 = true → io.lockstep = false →
        (regionOf a = some .sram → ∃ r : Memory, exec (.elvothSStore .mgmt op f io) s = .next (s.coreStep (fun m => { m with sram := r }.advanced)) ∧
          (∀ i < n, r.byte (a - 0x6100000 + i) = BitVec.ofNat 8 ((s.mgmt.value f.d).toNat / 256 ^ i)) ∧
          (∀ b, b < a - 0x6100000 ∨ a - 0x6100000 + n ≤ b → r.byte b = s.mgmt.sram.byte b)) ∧
        (regionOf a = some .basin → 0x1000000 ≤ a →
          exec (.elvothSStore .mgmt op f io) s = .next (State.basWrite (s.coreStep Mgmt.advanced) a data)) ∧
        (regionOf a = some .basin → a < 0x1000000 →
          exec (.elvothSStore .mgmt op f io) s = .next ((s.coreStep id).poolWrite a data).1.nextPc) ∧
        (regionOf a = some .trim →
          exec (.elvothSStore .mgmt op f io) s = .next ((s.coreStep id).trimWrite (a - 0x2800000) data).1.nextPc) ∧
        (regionOf a = some .regs → n = 4 → listedAt a = true →
          exec (.elvothSStore .mgmt op f io) s =
            .next (((s.coreStep id).writeWord .mgmt a (a - 0x4000000) (s.mgmt.value f.d).toNat 0xFFFFFFFF).afterWrite s.mgmt.pc)) ∧
        (regionOf a = some .alias_ → n = 4 → listedAt a = true →
          exec (.elvothSStore .mgmt op f io) s =
            .next (((s.coreStep id).writeAlias .mgmt a (a - 0x4200000) (s.mgmt.value f.d).toNat).afterWrite s.mgmt.pc)) ∧
        (∀ r, regionOf a = some r → r = .drive ∨ r = .ledger ∨ r = .chambers ∨ r = .rom → s.mgmt.trapActive = false →
          exec (.elvothSStore .mgmt op f io) s = .next (State.raise (s.coreStep (fun m => m.trapped 7#32 (BitVec.ofNat 32 a))) 7))) ∧
      (a % n = 0 → s.permits a 1 = true → io.lockstep = true →
        exec (.elvothSStore .mgmt op f io) s = .next (State.raise (s.coreStep Mgmt.advanced) 0)) ∧
      (s.mgmt.trapActive = false → a % n ≠ 0 →
        exec (.elvothSStore .mgmt op f io) s = .next (s.coreStep (fun m => m.trapped 6#32 (BitVec.ofNat 32 a)))) ∧
      (s.mgmt.trapActive = false → a % n = 0 → s.permits a 1 = false →
        exec (.elvothSStore .mgmt op f io) s = .next (State.raise (s.coreStep (fun m => m.trapped 5#32 (BitVec.ofNat 32 a))) 1))) ∧
    (∀ op : ImmOp, exec (.scalarImmOp .mgmtSplit op f) s = .next (State.raise (s.coreStep Mgmt.advanced) 0)) ∧
    (f.d = 0#5 → f.b = 0#5 → s.bootLevel = true → exec (.cww .mgmtSplit f) s = .next (State.raise (s.coreStep Mgmt.advanced) 0))

/-! ## The sequencer, the basin and the display (R19-R38, R57, R105-R121, R128-R138, R173-R240) -/

/-- R24, R27: an edge of the inactive polarity moves only device time. The first active edge after chip reset starts the first interval; an
edge at an invalid interval counts in BAD_EDGES and raises FS097; a valid one is captured in SEQ_SYNC_PERIOD, and where it ends the first whole
interval after RUN within 2 / F of it, in STOPPED, it makes LOCKED and places the first sluice SYNC_DELAY after it.
R27: LOCKED or ACQUIRE whose window has passed without a valid edge goes to HOLDOVER; HOLDOVER_LC lock cycles without one go to FREE and raise
FS096; RUN without a pair of edges makes FREE, with the first sluice 2 / F after it; each change of state sets SEQ_EVENT.SYNC_CHANGE. In any
other state the row does nothing. -/
def Obligations.FrameSync : Prop :=
  (∀ (s : State) (at_ : Nat) (rising : Bool), s.Ready → s.now ≤ at_ →
    (rising = s.on Reg.SEQ_CTRL_SYNC_EDGE → exec (.frameSyncEdge at_ rising) s = .next { s with now := at_ }) ∧
    (rising ≠ s.on Reg.SEQ_CTRL_SYNC_EDGE →
      ∀ u, u = ({ s with now := at_, seq := { s.seq with lastEdge := some at_ } } : State) →
      (s.seq.lastEdge = none → exec (.frameSyncEdge at_ rising) s = .next u) ∧
      (∀ e, s.seq.lastEdge = some e → e ≤ at_ →
        (at_ - e < 999500000 / s.F ∨ ceilDiv 1000500000 s.F < at_ - e →
          exec (.frameSyncEdge at_ rising) s = .next ((u.inc Reg.SEQ_SYNC_STATUS_BAD_EDGES).raise 97)) ∧
        (999500000 / s.F ≤ at_ - e → at_ - e ≤ ceilDiv 1000500000 s.F →
          s.seq.state = .stopped → s.on Reg.SEQ_CTRL_RUN = true → s.seq.next = none → s.seq.runAt ≤ e → at_ * s.F ≤ s.seq.runAt * s.F + 2000000000 →
          s.aligning = false →
          ∃ t, exec (.frameSyncEdge at_ rising) s = .next t ∧ t.seq.next = some (at_ + s.actv Reg.SEQ_SYNC_CFG_SYNC_DELAY) ∧
            t.seq.state = .locked ∧ t.on Reg.SEQ_EVENT_SYNC_CHANGE = true ∧ t.rd Reg.SEQ_SYNC_PERIOD_PERIOD = at_ - e ∧ t.rd Reg.SEQ_SYNC_STATUS_BAD_EDGES = s.rd Reg.SEQ_SYNC_STATUS_BAD_EDGES)))) ∧
  (∀ s : State, s.Ready →
    (s.followsTwin = false → s.seq.first = false → s.seq.state = .locked ∨ s.seq.state = .acquire →
      (∀ e n, s.seq.lastValid = some e → n = max s.now (e + ceilDiv 1000500000 s.F + 1) →
        exec .syncEdgeTimeout s = .next (State.flag { s with now := n, seq := { s.seq with state := .holdover, holdLcs := 0 } } Reg.SEQ_EVENT_SYNC_CHANGE)) ∧
      (s.seq.lastValid = none →
        exec .syncEdgeTimeout s = .next (State.flag { s with seq := { s.seq with state := .holdover, holdLcs := 0 } } Reg.SEQ_EVENT_SYNC_CHANGE))) ∧
    (s.followsTwin = true ∨ s.seq.first = true ∨ s.seq.state ≠ .locked ∧ s.seq.state ≠ .acquire → exec .syncEdgeTimeout s = .next s) ∧
    (s.seq.state = .holdover → s.rd Reg.SEQ_SYNC_CFG_HOLDOVER_LC ≤ s.seq.holdLcs → s.live 96 = false →
      exec .holdoverExpire s = .next (State.raise (State.flag { s with seq := { s.seq with state := .free } } Reg.SEQ_EVENT_SYNC_CHANGE) 96)) ∧
    (s.seq.state ≠ .holdover ∨ s.seq.holdLcs < s.rd Reg.SEQ_SYNC_CFG_HOLDOVER_LC → exec .holdoverExpire s = .next s) ∧
    (s.seq.state = .stopped → s.on Reg.SEQ_CTRL_RUN = true → s.seq.next = none → s.aligning = false →
      ∃ n, exec .freeStart s = .next (State.flag { s with now := max s.now (s.seq.runAt + n), seq := { s.seq with
          state := .free, next := some (s.seq.runAt + n) } } Reg.SEQ_EVENT_SYNC_CHANGE) ∧ 2 * n * s.F ≤ 4000000000 + s.F ∧
        (0 < s.F → 4000000000 ≤ 2 * n * s.F + s.F)) ∧
    (s.seq.state ≠ .stopped ∨ s.on Reg.SEQ_CTRL_RUN = false ∨ s.seq.next ≠ none ∨ s.aligning = true → exec .freeStart s = .next s))

/-- R23, R27, R29, R37, R121: where no sluice is placed, SLUICE does nothing. One placed, with nothing of an earlier one still to be done, takes place
at its time whatever the reads and currents it meets: it is counted and opens a lock cycle. An unpaired device completes all its actions
there. A light left on by a set Maintenance latch ends, and one that a cleared Safe-Dark latch allows waits no longer for a sluice (R389, R390).
With RUN set, or at the first one, the next sluice is placed a lock cycle's length later, and the lock number is one more, or the one that
a commit loads. With RUN cleared no flight runs and ACTIVE reads 3, and no further sluice is placed. In both cases the berth commands held
since tick −4 have been applied, and the state held of tick −4 is gone.
The operations that a sluice is made of (R29, R32, R35, R36, R56, R142): each chamber is cleared but for its instruction store; at a commit every
shadowed field's active value but SLOT's becomes its value of tick −4; RETIRING berths become FREE and no other berth changes; a complete reach
swaps its banks, and an incomplete one that a flight ran for, its chamber not fenced, keeps them, counts an underrun and raises FS098. -/
def Obligations.Sluices : Prop :=
  (∀ (s : State) (errs : List (Nat × Ecc)) (microamps milliamps : List Nat), s.Ready → s.peer.work = none →
    (s.seq.next = none → exec (.sluice errs microamps milliamps) s = .next s) ∧
    (∀ t0, s.seq.next = some t0 →
      ∃ t, exec (.sluice errs microamps milliamps) s = .next t ∧ t.seq.sluices = s.seq.sluices + 1 ∧ t.seq.opened = t0 ∧ max s.now t0 ≤ t.now ∧
        t.mode.afterglow = false ∧ t.mode.relight ≠ 1 ∧
        (s.paired = false → t.seq.heldCmds = [] ∧ t.seq.snap = none ∧ t.peer.work = none ∧ t.on Reg.SEQ_EVENT_SLUICE = true ∧
          (s.seq.first = true ∨ s.on Reg.SEQ_CTRL_RUN = true → s.aligning = false →
            t.seq.first = false ∧ t.seq.next = some (t0 + t.seq.length) ∧ (s.seq.first = true → t.seq.state ≠ .stopped) ∧
            (∀ x, s.seq.snap = some x → t.rd Reg.SEQ_LOCK_NUMBER_LOCK_NUMBER =
              (if x.commit = true ∧ x.rd Reg.SEQ_LOCK_LOAD_LOAD = 1 then x.rd Reg.SEQ_LOCK_NUMBER_SET_VALUE
                else s.rd Reg.SEQ_LOCK_NUMBER_LOCK_NUMBER + 1) % 2 ^ 32)) ∧
          (s.seq.first = false → s.on Reg.SEQ_CTRL_RUN = false →
            t.seq.run = none ∧ t.rd Reg.SYS_FLIGHT_STATUS_ACTIVE = 3 ∧ t.seq.next = none ∧ t.seq.first = true)))) ∧
  (∀ s : State,
    (∀ c : ChamberId, (s.clearChambers.chAt c).istore = (s.chAt c).istore ∧ (s.clearChambers.chAt c).running = false ∧
      (s.clearChambers.chAt c).store = [] ∧ (s.clearChambers.chAt c).tags = [] ∧ (s.clearChambers.chAt c).inFlight = [] ∧
      (s.clearChambers.chAt c).barges = [] ∧ (∀ r : Fin 32, (s.clearChambers.chAt c).s[r] = 0#16 ∧ (s.clearChambers.chAt c).v[r] = 0#512)) ∧
    (∀ (x : Snap) (f : Fld), f ∈ Reg.shadowed → f.key ≠ Reg.SEQ_LOCK_LOAD_LOAD.key → f.key ≠ Reg.SYS_FLIGHT_CTRL_SLOT.key →
      (s.transfer x).actv f = Sparse.get x.regs f.reset f.key % 2 ^ f.w) ∧
    (∀ b : Fin 64, (s.berthAt b).state = .retiring → (s.freeRetired.berthAt b).state = .free ∧ (s.freeRetired.berthAt b).covered = []) ∧
    (∀ b : Fin 64, (s.berthAt b).state ≠ .retiring → s.freeRetired.berthAt b = s.berthAt b) ∧
    (∀ (w : SluiceWork) (r : ReachId), s.eligible r = true →
      (w.complete.testBit r.val = true → ((s.swapReach w r).reachAt r).front = (s.reachAt r).back ∧ ((s.swapReach w r).reachAt r).back = (s.reachAt r).front) ∧
      (w.complete.testBit r.val = false → w.closing = true → s.bitOf Reg.FLT_FENCE_CHAMBER r.val = false →
        (s.swapReach w r).reachAt r = s.reachAt r ∧ (s.swapReach w r).sticky 98 = true ∧
        (s.swapReach w r).bitOf Reg.SEQ_UNDERRUN_UNDERRUN r.val = true)))

/-- R57, R105, R109, R121: LOCK_START starts the lock on a chamber of its mask that is free, not fenced and not held in reset: the program counter is
the entry, the loop and call stacks are empty, and registers, accumulators, stores and tags stay; a chamber outside the mask stays as it
was. A chamber that has not halted when its lock's last cycle ends is halted with FS105; a repetition that was not issued is counted and
raises FS106. A retry stall ends; while it lasts no lock starts or ends, no repetition passes its cycle and no result lands. -/
def Obligations.LocksRun : Prop :=
  ∀ (s : State) (c : ChamberId), s.Ready →
    exec .retryStallEnd s = .next { s with seq := { s.seq with stallCycle := none, stallFences := [] } } ∧
    (s.seq.stallCycle ≠ none → (∀ index : Fin 512, exec (.lockStart index) s = .next s) ∧ exec (.lockLengthExpire c) s = .next s ∧
      (∀ n : Fin 256, exec (.bargeRepMissed c n) s = .next s) ∧ exec (.resultLand c) s = .next s) ∧
    (∀ (index : Fin 512) (fl : Flight) (l : LockEntry), s.seq.run = some fl → fl.locks[index.val]? = some l → s.cycling = true →
      s.seq.stallCycle = none → s.peer.work = none →
      (∀ d : ChamberId, l.mask.testBit d.val = true → (s.chAt d).running = false) →
      ∃ t, exec (.lockStart index) s = .next t ∧
        (l.mask.testBit c.val = false → t.chAt c = s.chAt c) ∧
        (l.mask.testBit c.val = true → s.chFenced c = false → (s.reachAt c).reset ≠ .dark → (s.chAt c).cycle = l.start →
          (s.chAt c).scalarUsed = false → (s.chAt c).vectorUsed = false →
          t.chAt c = { s.chAt c with
            pc := l.entry, loops := [], calls := [], transfers := [], running := true, halted := false,
            lock := index.val, lockStart := l.start, reps := [] })) ∧
    ((s.chAt c).running = false → exec (.lockLengthExpire c) s = .next s) ∧
    (∀ l : LockEntry, s.lockOf (s.chAt c) = some l → (s.chAt c).running = true → (s.chAt c).cycle = (s.chAt c).lockStart + l.length - 1 →
      0 < l.length → (s.chAt c).scalarUsed = false → (s.chAt c).vectorUsed = false → (s.chAt c).inFlight = [] → s.seq.stallCycle = none →
      (105, some c.val, (s.chAt c).cycle) ∉ s.flt.instants →
      ∃ t, exec (.lockLengthExpire c) s = .next t ∧ (t.chAt c).running = false ∧ (t.chAt c).halted = true ∧
        (t.chAt c).cycle = (s.chAt c).lockStart + l.length ∧ t.sticky 105 = true ∧ t.rd (Reg.CHM_BREACH_SOURCE c) = 105) ∧
    (∀ (n : Fin 256) (fl : Flight) (l : LockEntry) (e : BargeEntry) (k : Nat), s.seq.run = some fl → s.lockOf (s.chAt c) = some l →
      n.val < l.bargeN → fl.barges[l.bargeFirst + n.val]? = some e → k = Sparse.get (s.chAt c).reps 0 n.val → k < e.reps → s.chFenced c = false →
      s.seq.stallCycle = none → (s.chAt c).scalarUsed = false → (s.chAt c).vectorUsed = false → (s.chAt c).lockStart + e.issue + k * e.repCycles ≤ (s.chAt c).cycle →
      exec (.bargeRepMissed c n) s =
        .next (State.breach (s.setCh c { s.chAt c with reps := Sparse.set (s.chAt c).reps 0 n.val (k + 1) }) c 106))

/-- R114, R117, R134, R148: a barge's next beat lands at its destination the 16 bytes at its source, base and offsets as R114 gives them, or zeros
where nothing is LIVE for its home or the line is fenced; no other byte of the local store changes, and nothing else but the chamber's beat
count, tags and landed units.
R131, R133, R136, R138: a service slot goes to the next waiting requester in the rotation host, cores, peer, NAND, scrub after the one that had
it last, and a write above the pool stores its 16 bytes where R131 names the requester as its writer, and nothing elsewhere; a lasting error found
by the scrubber fences its line, counts, and raises FS113; the scrub goes on line by line and counts its sweeps. -/
def Obligations.BargeBeatsAndService : Prop :=
  (∀ (s : State) (c : ChamberId) (b : Barge) (dst : Nat), s.Ready → s.seq.stallCycle = none →
    (s.chAt c).barges.find? (fun q => q.slot = b.slot && q.next < q.entry.rows * q.entry.rowBeats) = some b →
    ∀ r j, r = b.next / b.entry.rowBeats → j = b.next % b.entry.rowBeats → b.entry.unread c.val b.rep r j = false →
    s.bankTaken c b (b.entry.rowFirst b.issued c.val r + j) (s.beatBank b c.val r j) = false →
    dst = ((b.entry.dst + b.rep * b.entry.repDstStep) % 262144).toNat + r * b.entry.dstPitch + 16 * j → dst + 16 ≤ 262144 →
    ∃ y, exec (.bargeBeat c b.slot .clean) s = .next (s.setCh c y) ∧
      y = { s.chAt c with store := y.store, tags := y.tags, barges := y.barges, arrived := y.arrived } ∧
      (∀ i < 16, y.store.byte (dst + i) = match s.spaceBase b.entry with
        | none => 0#8
        | some base =>
          let a := base + (b.entry.src + c.val * b.entry.cstride + b.rep * b.entry.repSrcStep).toNat + r * b.entry.srcPitch + 16 * j
          if s.bas.fenced.contains (a / 512) then 0#8 else s.bas.byte (a + i)) ∧
      (∀ a, a < dst ∨ dst + 16 ≤ a → y.store.byte a = (s.chAt c).store.byte a) ∧
      (∀ l, l ≠ dst / 64 → (l ∈ y.tags ↔ l ∈ (s.chAt c).tags))) ∧
  (∀ (s : State), s.Ready →
    (∀ (bank : Fin 32) (waiting : List SvcAccess), waiting ≠ [] →
      ∃ w ∈ waiting, (∃ t, exec (.basinServiceAccess bank waiting) s = .next t ∧ t.bas.granted[bank] = w.req ∧
          (∀ v a, w.write = some v → a = w.line.toNat * 512 + bank.val * 16 → 0x1000000 ≤ a →
            (w.req = .mgmt ∨ w.req = .host ∧ 0x1E00000 ≤ a ∧ a < 0x1E40000 ∨ w.req = .peer ∧ a < 0x1E00000 →
              t = State.basWrite { s with bas := { s.bas with granted := s.bas.granted.set bank w.req } } a (leBytes v.toNat 16)) ∧
            (w.req = .nand ∨ w.req = .host ∧ ¬(0x1E00000 ≤ a ∧ a < 0x1E40000) ∨ w.req = .peer ∧ 0x1E00000 ≤ a →
              t = { s with bas := { s.bas with granted := s.bas.granted.set bank w.req } }))) ∧
        ∀ w' ∈ waiting, (svcRotation.findIdx (· = w.req) + 4 - svcRotation.findIdx (· = s.bas.granted[bank])) % 5 ≤
          (svcRotation.findIdx (· = w'.req) + 4 - svcRotation.findIdx (· = s.bas.granted[bank])) % 5) ∧
    (∀ line, line = s.rd Reg.BAS_SCRUB_STATUS_POSITION →
      (line < 65535 → exec (.scrubStep []) s = .next (s.put Reg.BAS_SCRUB_STATUS_POSITION (line + 1))) ∧
      (line = 65535 → exec (.scrubStep []) s = .next (State.incMod (State.put { s with bas := { s.bas with sweepCorr := 0, sweepTold := false } }
        Reg.BAS_SCRUB_STATUS_POSITION 0) Reg.BAS_SCRUB_STATUS_SWEEPS)) ∧
      (line < 65535 → line ∉ s.bas.fenced → ∀ bank : Fin 32,
        ∃ t, exec (.scrubStep [(bank, .lasting)]) s = .next t ∧ line ∈ t.bas.fenced ∧ t.sticky 113 = true ∧
          t.rd Reg.BAS_ECC_LAST_KIND = 2 ∧ t.rd Reg.BAS_ECC_LAST_BANK = bank.val ∧ t.rd Reg.BAS_ECC_LAST_LINE = line ∧
          t.rd Reg.BAS_SCRUB_STATUS_POSITION = line + 1)))

/-- R177: the split of D into the DAC code and the PWM count: k = ceil(D / 1,023) of 1 to 63, p = round(D / k) of 1 to 1,023, so that p × k differs
from D by at most k / 2; and up to 1,023 it is exact.
R217, R218, R219: the painter sends the stream of the berth LIVE for its home, skips where the line has not been low for 100 µs, counts a
stream that ends, and sends the zero stream after the light has gone. With EN 0, or unlit, a sluice starts no stream. -/
def Obligations.DriveWordsAndPainter : Prop :=
  (∀ d : Nat, 0 < d → d ≤ 64449 →
    1 ≤ wordK (splitWord d) ∧ wordK (splitWord d) ≤ 63 ∧ 1023 * (wordK (splitWord d) - 1) < d ∧ d ≤ 1023 * wordK (splitWord d) ∧
    1 ≤ wordP (splitWord d) ∧ wordP (splitWord d) ≤ 1023 ∧
    2 * d ≤ 2 * (wordP (splitWord d) * wordK (splitWord d)) + wordK (splitWord d) ∧
    2 * (wordP (splitWord d) * wordK (splitWord d)) ≤ 2 * d + wordK (splitWord d) ∧
    (d ≤ 1023 → splitWord d = 1024 + d) ∧ splitWord 0 = 0) ∧
  (∀ s : State, s.Ready →
    (s.actv Reg.PNT_CTRL_EN = 0 ∨ s.lights = false → exec .painterStreamStart s = .next s) ∧
    (s.actv Reg.PNT_CTRL_EN ≠ 0 → s.lights = true → s.painterJoined = false →
      (s.painterIdle = false → exec .painterStreamStart s = .next (State.flag (s.inc Reg.PNT_STATUS_SKIPPED) Reg.PNT_EVENT_SKIPPED)) ∧
      (s.painterIdle = true → s.liveFor (s.actv Reg.PNT_CFG_HOME) = none →
        exec .painterStreamStart s = .next (State.raise (s.flag Reg.PNT_EVENT_BERTH) 142)) ∧
      (∀ b : Fin 64, s.painterIdle = true → s.liveFor (s.actv Reg.PNT_CFG_HOME) = some b → s.rd (Reg.BAS_BERTH_FMT_FORMAT b) = 6 →
        s.modeOf ≠ .egress → 0 < s.actv Reg.PNT_CFG_COUNT → s.streamBytes ≤ s.berthSize b →
        exec .painterStreamStart s = .next (State.put { s with pnt := { s.pnt with
          stream := s.bas.bytes (s.berthBase b) s.streamBytes, zeroing := false } } Reg.PNT_STATUS_BUSY 1))) ∧
    (∃ t, exec .painterStreamEnd s = .next t ∧ t.pnt.stream = [] ∧
      (s.pnt.stream ≠ [] → t.pnt.lowSince = s.now ∧ t.rd Reg.PNT_STATUS_BUSY = 0 ∧ t.on Reg.PNT_EVENT_SENT = true)) ∧
    (s.pnt.zeroDue = true → s.lights = false → s.painterIdle = true → s.painterJoined = false → 0 < s.actv Reg.PNT_CFG_COUNT →
      exec .painterZeroStream s = .next (State.put { s with pnt := { s.pnt with
        zeroDue := false, stream := List.replicate s.streamBytes 0#8, zeroing := true } } Reg.PNT_STATUS_BUSY 1)) ∧
    (s.pnt.zeroDue = false → exec .painterZeroStream s = .next s))

/-- R99, R176, R179, R181: TRIM_FORMAT writes the drive words of the reach's oldest waiting segment into its back bank, and the segment waits no more;
the front bank and every other reach stay as they were. LEDGER_UPDATE adds the emitter's wear, dithered, to its ledger value, saturating, and
changes no byte of another emitter's; its wear gain is that of the new value on its channel's curve. -/
def Obligations.TrimAndLedger : Prop :=
  ∀ s : State, s.Ready →
    (∀ (r : ReachId), (s.reachAt r).waiting = [] → exec (.trimFormat r []) s = .next s) ∧
    (∀ (r : ReachId) (key : Nat) (rest : List Nat), (s.reachAt r).waiting = key :: rest → key ∉ rest →
      ∃ t y, exec (.trimFormat r []) s = .next t ∧ t = { s.setReach r y with trim := t.trim } ∧
        y.waiting = rest ∧ key ∈ y.written ∧ y.front = (s.reachAt r).front ∧ y.delivered = (s.reachAt r).delivered ∧
        ∀ i < 32, Sparse.get y.back.words 0#16 (key / 64 * 2048 + (32 * (key % 64) + i)) =
          BitVec.ofNat 16 (s.formWord r (key / 64) (32 * (key % 64) + i)
            (s.filledReq r (key / 64) (key % 64) (Sparse.get (s.reachAt r).delivered 0#512 key) i)).word) ∧
    (∀ (k : Fin 8192) (e : Nat), s.seq.sluices ≠ 0 → k.val ∉ s.trim.visited → e = 256 * k.val + s.rd Reg.TRM_LEDGER_GROUP →
      4 * e / 8 ∉ s.trim.ledgerFailed →
      ∀ l, l = min (2 ^ 32 - 1) (s.ledgerAt e + (s.wearOf e (s.sinceVisit (e % 256)) + lfsrStep s.trim.lfsr % 1073741824) / 1073741824) →
      (∀ w ∈ s.wearReads e l, w ∉ s.trim.failed) →
      ∃ t, exec (.ledgerUpdate k ⟨.clean, []⟩) s = .next t ∧ t.ledgerAt e = l ∧ t.ts (0x200000 + e) = s.wearGain (e % 2) l % 256 ∧
        (∀ a, a < 4 * e ∨ 4 * e + 4 ≤ a → t.trim.ledger.byte a = s.trim.ledger.byte a)) ∧
    (∀ k : Fin 8192, k.val ∈ s.trim.visited → exec (.ledgerUpdate k ⟨.clean, []⟩) s = .next s)

/-- R19, R194, R197, R198, R201, R205: ROW_SLOT begins the next row slot of the lock cycle; in a display slot whose reach checks, a sub-emitter
flagged by the short comparators, or by the open comparators with an on-time of 192 ticks or more, becomes a suspect in that tick, and a
short one's column is fenced once that slot is over; a tripped row switch is recorded with FS140. Out of a slot the checks do nothing.
R232, R235, R236, R240: THERMAL_UPDATE updates once in a lock cycle; a sensor's sample that passes its check is its reading, one that fails for
the second time in succession loses the sensor for the epoch; THERMAL_TRIP cuts the VLED drive, reports TRIP, enters Safe-Dark and raises
FS146. -/
def Obligations.RowSlotChecksAndThermal : Prop :=
  (∀ s : State, s.Ready →
    (∀ (vled : Nat) (meas : List SlotMeas), s.cycling = true → s.diag.slots < (s.S + 1) * 64 →
      ∃ t, exec (.rowSlot vled meas) s = .next t ∧ t.diag.slots = s.diag.slots + 1 ∧ t.diag.vled = max s.diag.vled vled ∧
        (s.diag.slots ≠ 128 → s.vledDrive = true → ∃ x, t.diag.slot = some x ∧ x.scan = s.diag.slots / 64 ∧ x.row = s.diag.slots % 64 ∧ x.tripped = [])) ∧
    (∀ vled meas, s.cycling = false → exec (.rowSlot vled meas) s = .next s) ∧
    (s.diag.slot = none → ∀ flags r, exec (.shortCheck flags) s = .next s ∧ exec (.openCheck flags) s = .next s ∧
      exec (.rowOvercurrent r) s = .next s) ∧
    (∀ (x : RowSlot) (r : ReachId) (sink : Fin 2048), s.diag.slot = some x → x.scan ≠ 0 → s.checkSlot r = some x →
      s.listed (emitter r x.row sink) = false → 2 ≤ s.rd Reg.DIAG_CFG_ROW_EVENT_LIMIT →
      (∃ t, exec (.shortCheck [⟨r, sink⟩]) s = .next t ∧ t.diag.suspects = s.diag.suspects ++
          [{ key := emitter r x.row sink, kind := 2, seen := s.sysTime, lc := s.seq.sluices, rowEvent := false }] ∧
        colOf (emitter r x.row sink) ∈ (t.setDiag { t.diag with slot := none }).columnFences) ∧
      (r.val ∈ s.trim.lit → r.val ∉ x.rowEvents → 192 ≤ s.onTime r x.row sink →
        ∃ t, exec (.openCheck [⟨r, sink⟩]) s = .next t ∧ t.diag.suspects = s.diag.suspects ++
          [{ key := emitter r x.row sink, kind := 1, seen := s.sysTime, lc := s.seq.sluices, rowEvent := false }])) ∧
    (∀ (x : RowSlot) (r : ReachId), s.diag.slot = some x → s.reachChecks r = true → r.val ∉ x.tripped →
      exec (.rowOvercurrent r) s = .next (State.raise (State.inc (State.put (State.put (State.flag
        (s.setDiag { s.diag with slot := some { x with tripped := insertSet r x.tripped } }) Reg.DRV_OC_LAST_VALID)
        Reg.DRV_OC_LAST_REACH r) Reg.DRV_OC_LAST_ROW x.row) Reg.DRV_OC_COUNT_COUNT) 140 (some r.val)))) ∧
  (∀ s : State, s.Ready →
    (s.cycling = true → s.thm.updated = false → ∃ t, exec .thermalUpdate s = .next t ∧ t.thm.updated = true ∧ t.thm.started = true) ∧
    (s.cycling = false ∨ s.thm.updated = true → exec .thermalUpdate s = .next s) ∧
    (∀ xs : List SensorSample, xs.length ≤ 11 → ∃ t, exec (.sensorSample xs) s = .next t ∧
      ∀ (m : Nat) (x : SensorSample), xs[m]? = some x → s.sensorLost m = false →
        (s.sampleFails m x = false → t.rd (Reg.THM_SENSOR_READING m) = x.value.toNat) ∧
        (s.sampleFails m x = true → m ∈ s.thm.bad → t.sensorLost m = true ∧ t.on Reg.THM_EVENT_SENSOR = true) ∧
        (s.sampleFails m x = true → m ∉ s.thm.bad → m ∈ t.thm.bad ∧ t.rd (Reg.THM_SENSOR_READING m) = s.rd (Reg.THM_SENSOR_READING m))) ∧
    (∃ t, exec .thermalTrip s = .next t ∧ t.rd Reg.THM_STATUS_TRIP = 1 ∧ t.mode.safeDark = true ∧ t.vledDrive = false ∧ t.live 146 = true))

/-! ## The links (R264-R290) -/

/-- R267, R268, R270, R271, R272: DETECT with a receiver found trains, at 2.5 GBd, the lanes found; out of DETECT the poll does nothing. In TRAIN a TP1
set like the one before on its own lane counts one more, and the eighth takes the preset that it asks for, 8 to 15 read as 0; on another lane's
number the counts restart; 24 ms without a lane done, and 2 ms in LOCK, go back to DETECT with FS033; SLACK sets without a violation on every
lane of the width reach EXCHANGE. (No block reset is selected as the reaction to FS033.) -/
def Obligations.LinkBringUp : Prop :=
  ∀ (s : State) (l : LinkId), s.Ready → s.on (Reg.FLT_REACT_BR (l.source 33)) = false →
    (∀ lanes : BitVec 4, s.rd (Reg.LNK_STATUS_STATE l.num) = 1 → (s.linkAt l).refusedAt = none → lanes.toNat &&& l.full ≠ 0 →
      ∃ t, exec (.linkDetectPoll l lanes) s = .next t ∧ t.rd (Reg.LNK_STATUS_STATE l.num) = 2 ∧ t.rd (Reg.LNK_STATUS_RATE l.num) = 0 ∧
        (t.linkAt l).detected = lanes.toNat &&& l.full ∧ (t.linkAt l).stage = .train) ∧
    (∀ lanes : BitVec 4, s.rd (Reg.LNK_STATUS_STATE l.num) ≠ 1 → exec (.linkDetectPoll l lanes) s = .next s) ∧
    (∀ (lane : Fin 4) (number rates preset flags : BitVec 8), s.rd (Reg.LNK_STATUS_STATE l.num) = 2 → l.full.testBit lane.val = true →
      (s.linkAt l).detected.testBit lane.val = true → (s.linkAt l).lanes[lane].done = false →
      (number.toNat = lane.val → 0 < (s.linkAt l).lanes[lane].tp1 → (s.linkAt l).lanes[lane].tp1Set = (rates.toNat, presetRead preset.toNat, flags.toNat) →
        ∃ t, exec (.trainingSet l lane false number rates preset flags) s = .next t ∧ (t.linkAt l).lanes[lane].tp1 = (s.linkAt l).lanes[lane].tp1 + 1 ∧
          (t.linkAt l).lanes[lane].done = false ∧
          ((s.linkAt l).lanes[lane].tp1 = 7 → (s.linkAt l).lanes[lane].tp1At = none → (t.linkAt l).lanes[lane].tp1At = some s.now ∧
            (t.linkAt l).lanes[lane].preset = (if preset.toNat / 16 < 8 then preset.toNat / 16 else 0))) ∧
      (number.toNat ≠ lane.val → ∃ t, exec (.trainingSet l lane false number rates preset flags) s = .next t ∧
        (t.linkAt l).lanes[lane].tp1 = 0 ∧ (t.linkAt l).lanes[lane].tp2 = 0)) ∧
    (∀ i, i = Instr.trainTimeout l ∧ s.rd (Reg.LNK_STATUS_STATE l.num) = 2 ∧ s.lanesDone l = 0 ∨ i = Instr.lockTimeout l ∧ s.rd (Reg.LNK_STATUS_STATE l.num) = 3 →
      ∃ t, exec i s = .next t ∧ t.rd (Reg.LNK_STATUS_STATE l.num) = 1 ∧ t.sticky (l.source 33) = true) ∧
    (∀ ks : List SlackLane, s.rd (Reg.LNK_STATUS_STATE l.num) = 3 → s.rd (Reg.LNK_STATUS_WIDTH l.num) ≠ 0 → (ks.map SlackLane.lane).Nodup →
      (∀ k ∈ ks, k.violations = 0 ∧ k.skew ≤ 16) →
      (∀ n ∈ linkLanes l, (s.rd (Reg.LNK_STATUS_WIDTH l.num)).testBit n.val = true →
        16 ≤ (s.linkAt l).lanes[n].slacks ∨ 15 ≤ (s.linkAt l).lanes[n].slacks ∧ n ∈ ks.map SlackLane.lane) →
      ∃ t, exec (.slackSet l ks) s = .next t ∧ t.rd (Reg.LNK_STATUS_STATE l.num) = 4 ∧ (t.linkAt l).stage = .exchange)

/-- R267, R273, R284, R285: in EXCHANGE the partner's CAPS are kept in LNK_PARTNER, and CAPS with ACK sent and received bring the link to ACTIVE at its
full width and to DEGRADE at another; refused CAPS go back to DETECT with FS046; 2 ms do so with FS033; CAPS with a bad CRC-32 do nothing. CAPS are
answered with this end's; WIDTH sets, whose second byte is the inverse of the MASK, settle the width; a lost lane is fenced and the width
chosen again; the lanes that have been clean for LNK_RETURN_HOLD are offered back. -/
def Obligations.LinkExchange : Prop :=
  ∀ (s : State) (l : LinkId), s.Ready →
    (∀ c : List Byte, s.rd (Reg.LNK_STATUS_STATE l.num) = 4 → c.length = 32 → capsRefused l c = false → (s.linkAt l).recovering = false →
      (s.linkAt l).ackSent = true → (leAt c 6 1).testBit 0 = true →
      ∀ crc : W32, crc32 c = crc.toNat → ∃ t, exec (.caps l c crc) s = .next t ∧
        t.rd (Reg.LNK_STATUS_STATE l.num) = (if s.rd (Reg.LNK_STATUS_WIDTH l.num) = l.full then 5 else 6) ∧
        t.rd (Reg.LNK_PARTNER_DEVNUM l.num) = leAt c 4 2 ∧ t.rd (Reg.LNK_PARTNER_EPOCH_EPOCH l.num) = leAt c 8 4 ∧
        (t.linkAt l).rxNext = 0 ∧ (t.linkAt l).limit = leAt c 14 1 - 1) ∧
    (∀ c : List Byte, s.rd (Reg.LNK_STATUS_STATE l.num) = 4 → c.length = 32 → capsRefused l c = true →
      s.on (Reg.FLT_REACT_BR (l.source 46)) = false →
      ∀ crc : W32, crc32 c = crc.toNat → ∃ t, exec (.caps l c crc) s = .next t ∧ t.rd (Reg.LNK_STATUS_STATE l.num) = 1 ∧ t.sticky (l.source 46) = true ∧
        (t.linkAt l).refusedAt = some s.now) ∧
    (∀ (c : List Byte) (crc : W32), crc32 c ≠ crc.toNat → exec (.caps l c crc) s = .next s) ∧
    (s.rd (Reg.LNK_STATUS_STATE l.num) = 4 → s.on (Reg.FLT_REACT_BR (l.source 33)) = false →
      ∃ t, exec (.exchangeTimeout l) s = .next t ∧ t.rd (Reg.LNK_STATUS_STATE l.num) = 1 ∧ t.sticky (l.source 33) = true) ∧
    (s.exchanging l = true → (s.linkAt l).caps = none →
      exec (.capsSend l) s = .next (s.setLink l { s.linkAt l with capsSent := s.capsContent l, ackSent := false })) ∧
    (s.linkUp l = true →
      (∀ (mask inverse : Byte), inverse ≠ ~~~mask → exec (.widthSet l ⟨mask, inverse⟩) s = .next s) ∧
      (∀ (mask : Byte) (width : Nat), width = chooseWidth l (mask.toNat % 16 &&& (s.lanesInUse l ||| s.cleanLanes l)) → width ≠ 0 →
        ∃ t, exec (.widthSet l ⟨mask, ~~~mask⟩) s = .next t ∧ (t.linkAt l).maskTx = width ∧
          (∀ n ∈ linkLanes l, width.testBit n.val = false → t.on (laneFenced l n.val) = true) ∧
          (mask.toNat % 16 = width → t.rd (Reg.LNK_STATUS_WIDTH l.num) = width ∧ ∀ n ∈ linkLanes l, width.testBit n.val = true → t.on (laneFenced l n.val) = false)) ∧
      (∀ lane ∈ linkLanes l, s.on (laneFenced l lane.val) = false → chooseWidth l (s.lanesInUse l - 2 ^ lane.val) ≠ 0 →
        ∃ t, exec (.laneLoss l lane) s = .next t ∧ t.on (laneFenced l lane.val) = true ∧
          (t.linkAt l).maskTx = chooseWidth l (s.lanesInUse l - 2 ^ lane.val)) ∧
      (∀ lane : Fin 4, s.offersReturn l = true → (s.heldLanes l).testBit lane.val = true →
        exec (.laneReturn l lane) s = .next (s.setLink l { s.linkAt l with maskTx := chooseWidth l (s.lanesInUse l ||| s.heldLanes l) })) ∧
      (∀ lane : Fin 4, (s.heldLanes l).testBit lane.val = false → exec (.laneReturn l lane) s = .next s))

/-- R268, R270, R276, R282, R286: electrical idle takes a running link to RECOVER, and RECOVER_MS take it to DETECT; a packet that stops short raises
FS036, a malformed one FS040 and a buffer error FS039, each with a NAK of the expected sequence; a packet ended with ABT leaves nothing. -/
def Obligations.LinkDisturbances : Prop :=
  ∀ (s : State) (l : LinkId), s.Ready →
    exec (.abortedPacket l) s = .next s ∧
    (s.linkUp l = false → exec (.electricalIdle l) s = .next s ∧ exec (.pktTimeout l) s = .next s ∧
      (∀ p type len addr, exec (.malformedPacket l ⟨p, type, len, addr⟩) s = .next s) ∧
      (∀ lane : Fin 4, l.full.testBit lane.val = true →
        exec (.elasticBufferOverflow l lane) s = .next (State.raise (State.restartSlacks (s.inc (laneViolations l lane.val)) l lane) (l.source 39)))) ∧
    (s.linkUp l = true → s.on (Reg.FLT_REACT_BR (l.source 32)) = false →
      ∃ t, exec (.electricalIdle l) s = .next t ∧ t.rd (Reg.LNK_STATUS_STATE l.num) = 7 ∧ (t.linkAt l).recovering = true ∧
        (t.linkAt l).tx = (s.linkAt l).tx) ∧
    (s.rd (Reg.LNK_STATUS_STATE l.num) = 7 →
      ∃ t, exec (.recoverTimeout l) s = .next t ∧ t.rd (Reg.LNK_STATUS_STATE l.num) = 1 ∧ (t.linkAt l).recovering = false) ∧
    (s.rd (Reg.LNK_STATUS_STATE l.num) ≠ 7 → exec (.recoverTimeout l) s = .next s) ∧
    (s.linkUp l = true → (s.linkAt l).failing = false →
      ∀ (i : Instr) (n : Nat) (p : RxPacket) (type : BitVec 4) (len : BitVec 11) (addr : W32) (lane : Fin 4),
        (i = .pktTimeout l ∧ n = 36 ∨ i = .malformedPacket l ⟨p, type, len, addr⟩ ∧ intact p type.toNat len.toNat addr.toNat = true ∧ n = 40 ∨
          i = .elasticBufferOverflow l lane ∧ l.full.testBit lane.val = true ∧ n = 39) →
        ∃ t, exec i s = .next t ∧ t.sticky (l.source n) = true ∧ (t.linkAt l).failing = true ∧ (t.linkAt l).nakAt = some s.now ∧
          (t.linkAt l).rxNext = (s.linkAt l).rxNext ∧ (t.linkAt l).unacked = 0)

/-- R277, R278, R279, R283, R353, R354: the expected request on a link without a session, its CRC-32 good, lands. A write that the host's gate
grants, in the wharf region, stores its payload and a read returns the bytes stored; each completes DONE under the request's sequence. A request
that the gate refuses completes DENIED with FS041 and stores nothing.
R279, R287, R304: a SAFE packet lands as the next of its link and is answered by no completion; a TIME packet whose EDGE has been captured, and
is later than the last applied, reports its offset, and one whose EDGE has not raises FS047. A packet already landed is acknowledged again and
has no effect. -/
def Obligations.HostPackets : Prop :=
  (∀ (s : State) (p : RxPacket) (addr : W32), s.Ready → s.linkUp .host = true → s.sec.host = none →
    p.enc = false → p.seq.toNat = (s.linkAt .host).rxNext → mayTransmit (s.linkAt .host).limitSent p.seq.toNat = true →
    (1 ≤ p.payload.length → p.payload.length ≤ 1024 → intact p 1 p.payload.length addr.toNat = true →
      (0x1E00000 ≤ addr.toNat → addr.toNat + p.payload.length ≤ 0x1E40000 → s.hostReaches true addr.toNat p.payload.length = true →
        ∃ t, exec (.wr p addr) s = .next t ∧ t.bas = s.bas.write addr.toNat p.payload ∧
          (t.linkAt .host).held = (s.linkAt .host).held ++ [OutPacket.plain 3 0 0 p.seq.toNat []] ∧
          (t.linkAt .host).rxNext = (p.seq.toNat + 1) % 4096 ∧ t.rd (Reg.LNK_SEQ_RX_LAST 0) = p.seq.toNat) ∧
      (s.hostReaches true addr.toNat p.payload.length = false →
        ∃ t, exec (.wr p addr) s = .next t ∧ t.sticky 41 = true ∧
          (t.linkAt .host).held = (s.linkAt .host).held ++ [OutPacket.plain 3 3 0 p.seq.toNat []])) ∧
    (p.payload = [] → ∀ len : BitVec 11, 1 ≤ len.toNat → len.toNat ≤ 1024 → intact p 2 len.toNat addr.toNat = true →
      (0x1E00000 ≤ addr.toNat → addr.toNat + len.toNat ≤ 0x1E40000 → s.hostReaches false addr.toNat len.toNat = true →
        ∃ t, exec (.rd p addr len []) s = .next t ∧ t.bas = s.bas ∧
          (t.linkAt .host).held = (s.linkAt .host).held ++ [OutPacket.plain 3 0 len.toNat p.seq.toNat (s.bas.bytes addr.toNat len.toNat)]) ∧
      (s.hostReaches false addr.toNat len.toNat = false →
        ∃ t, exec (.rd p addr len []) s = .next t ∧ t.sticky 41 = true ∧
          (t.linkAt .host).held = (s.linkAt .host).held ++ [OutPacket.plain 3 3 len.toNat p.seq.toNat (List.replicate len.toNat 0#8)]))) ∧
  (∀ (s : State) (p : RxPacket), s.Ready → s.linkUp .host = true → s.sec.host = none → p.enc = false →
    (p.seq.toNat = (s.linkAt .host).rxNext → mayTransmit (s.linkAt .host).limitSent p.seq.toNat = true →
      (p.payload.length = 32 → intact p 5 32 0 = true → ∃ t, exec (.safe p) s = .next t ∧ (t.linkAt .host).rxNext = (p.seq.toNat + 1) % 4096 ∧
        (t.linkAt .host).held = (s.linkAt .host).held) ∧
      (p.payload.length = 16 → intact p 6 16 0 = true →
        (∀ captured, s.clk.edges.find? (fun e => e.1 = leAt p.payload 0 4) = some (leAt p.payload 0 4, captured) →
          edgeLater (leAt p.payload 0 4) s.clk.applied = true → captured ≤ leAt p.payload 8 8 → leAt p.payload 8 8 - captured < 2 ^ 31 →
          ∃ t, exec (.time p) s = .next t ∧ t.clk.applied = some (leAt p.payload 0 4) ∧
            t.rd Reg.LNK_TIME_OFFSET_OFFSET = leAt p.payload 8 8 - captured) ∧
        (s.clk.edges.find? (fun e => e.1 = leAt p.payload 0 4) = none →
          ∃ t, exec (.time p) s = .next t ∧ t.clk = s.clk ∧ t.sticky 47 = true))) ∧
    (1 ≤ ((s.linkAt .host).rxNext + 4096 - p.seq.toNat) % 4096 →
      ((s.linkAt .host).rxNext + 4096 - p.seq.toNat) % 4096 ≤ min 2048 (s.linkAt .host).landed →
      (p.payload.length = 32 → intact p 5 32 0 = true → exec (.safe p) s = .next (s.acknowledge .host)) ∧
      (p.payload.length = 16 → intact p 6 16 0 = true → exec (.time p) s = .next (s.acknowledge .host))))

/-- R280, R281: an ACK takes out of the replay buffer the sent packets up to LAST, and sets LIMIT; a NAK, or 20 µs without progress, sends every packet
sent once more, each in its place, or, where the first has been sent twice already, raises FS035 and takes the link to RECOVER. A control word
whose CRC-16 is bad does nothing (log entry 22).
R288: START clears a lane's status and runs a scan, and changes nothing but the scan; one that reaches 2^EXP bits holds its error count and
its length in units of 256 bits, saturated; one whose lane is fenced, or whose link has left the running states, is aborted; STOP ends one with
what it has counted so far, the errors among them not stated by the spec (log entry 22). -/
def Obligations.ReplayAndEyeScans : Prop :=
  (∀ (s : State) (l : LinkId) (last limit : BitVec 12) (crc : BitVec 16), s.Ready →
    (s.linkUp l = false ∨ controlOk 1 last.toNat limit.toNat crc.toNat = false → exec (.ack l ⟨last, limit⟩ crc) s = .next s) ∧
    (s.linkUp l = false ∨ controlOk 2 last.toNat limit.toNat crc.toNat = false → exec (.nak l ⟨last, limit⟩ crc) s = .next s) ∧
    (s.linkUp l = false → exec (.ackSend l) s = .next s ∧ exec (.replayTimeout l) s = .next s) ∧
    (s.linkUp l = true →
      (controlOk 1 last.toNat limit.toNat crc.toNat = true → ∃ t, exec (.ack l ⟨last, limit⟩ crc) s = .next t ∧ (t.linkAt l).limit = limit.toNat ∧
        ∀ q, q ∈ (t.linkAt l).tx ↔ q ∈ (s.linkAt l).tx ∧ (q.sends = 0 ∨ 2048 ≤ (last.toNat + 4096 - q.seq) % 4096)) ∧
      (0 < (s.linkAt l).unacked → exec (.ackSend l) s = .next (s.setLink l { s.linkAt l with
        unacked := 0, limitSent := ((s.linkAt l).rxNext + 4095 + (32 - (s.linkAt l).staging)) % 4096 })) ∧
      ((s.linkAt l).unacked = 0 → exec (.ackSend l) s = .next s) ∧
      ((s.linkAt l).tx = [] → exec (.replayTimeout l) s = .next s) ∧
      (∀ p rest, (s.linkAt l).tx = p :: rest →
        (p.sends = 1 → ∃ t, exec (.replayTimeout l) s = .next t ∧ t.rd (Reg.LNK_STATUS_STATE l.num) = s.rd (Reg.LNK_STATUS_STATE l.num) ∧
          (t.linkAt l).tx = (s.linkAt l).tx.map (fun q => if 0 < q.sends then { q with sends := q.sends + 1 } else q)) ∧
        (2 ≤ p.sends → s.on (Reg.FLT_REACT_BR (l.source 35)) = false → s.on (Reg.FLT_REACT_BR (l.source 32)) = false →
          ∃ t, exec (.replayTimeout l) s = .next t ∧ t.sticky (l.source 35) = true ∧ t.rd (Reg.LNK_STATUS_STATE l.num) = 7)) ∧
      (∀ p rest, (s.linkAt l).tx.filter (fun q => !acknowledged last.toNat q) = p :: rest → p.sends = 1 → controlOk 2 last.toNat limit.toNat crc.toNat = true →
        ∃ t, exec (.nak l ⟨last, limit⟩ crc) s = .next t ∧ (t.linkAt l).limit = limit.toNat ∧
          (t.linkAt l).tx = (p :: rest).map (fun q => if 0 < q.sends then { q with sends := q.sends + 1 } else q)))) ∧
  (∀ (s : State) (who : Requester) (lane : Fin 6) (l : LinkId) (n : Fin 4), s.Ready → eyeLane lane = (l, n) →
    (∀ (volt : BitVec 8) (phase exp : BitVec 6), s.reaches who true (regBase + (0x8800 + 16 * lane.val)) 4 = true → s.on (Reg.EYE_STATUS_RUNNING lane) = false →
      ∃ t, exec (.eyeScanStart who lane volt phase exp) s = .next t ∧
        { t with regs := s.regs } = s.setLink l { s.linkAt l with eyes := (s.linkAt l).eyes.set n (s.now, clampNat 20 40 exp.toNat) } ∧
        s.SameRegs t [Reg.EYE_CTRL_VOLT lane, Reg.EYE_CTRL_PHASE lane, Reg.EYE_CTRL_EXP lane, Reg.EYE_STATUS_RUNNING lane, Reg.EYE_STATUS_DONE lane,
          Reg.EYE_STATUS_ABORTED lane] ∧
        t.rd (Reg.EYE_CTRL_PHASE lane) = phase.toNat ∧ t.rd (Reg.EYE_CTRL_EXP lane) = clampNat 20 40 exp.toNat ∧
        t.rd (Reg.EYE_STATUS_RUNNING lane) = 1 ∧ t.rd (Reg.EYE_STATUS_DONE lane) = 0 ∧ t.rd (Reg.EYE_STATUS_ABORTED lane) = 0) ∧
    (∀ ones zeros bits : Nat, s.on (Reg.EYE_STATUS_RUNNING lane) = true → bits = 2 ^ ((s.linkAt l).eyes[n]).2 →
      ∃ t, exec (.eyeScanEnd lane ones zeros) s = .next t ∧ { t with regs := s.regs } = s ∧ t.rd (Reg.EYE_STATUS_RUNNING lane) = 0 ∧
        t.rd (Reg.EYE_STATUS_DONE lane) = 1 ∧ t.rd (Reg.EYE_STATUS_ABORTED lane) = 0 ∧
        t.rd (Reg.EYE_ERRORS_VALUE lane) = min (min (ones + zeros) bits) (2 ^ 32 - 1) ∧ t.rd (Reg.EYE_COUNT_VALUE lane) = min (bits / 256) (2 ^ 32 - 1)) ∧
    (∀ ones zeros : Nat, s.on (Reg.EYE_STATUS_RUNNING lane) = false → exec (.eyeScanEnd lane ones zeros) s = .next s) ∧
    (s.reaches who true (regBase + (0x8800 + 16 * lane.val)) 4 = true → s.on (Reg.EYE_STATUS_RUNNING lane) = true →
      ∃ t, exec (.eyeScanStop who lane) s = .next t ∧ { t with regs := s.regs } = s ∧
        t.rd (Reg.EYE_STATUS_RUNNING lane) = 0 ∧ t.rd (Reg.EYE_STATUS_DONE lane) = 1 ∧
        t.rd (Reg.EYE_ERRORS_VALUE lane) = min (s.eyeSoFar lane) (2 ^ 32 - 1) ∧ t.rd (Reg.EYE_COUNT_VALUE lane) = min (s.eyeBits lane / 256) (2 ^ 32 - 1))) ∧
  (∀ (s : State) (lane : Fin 6) (l : LinkId) (n : Fin 4), eyeLane lane = (l, n) → s.on (Reg.EYE_STATUS_RUNNING lane) = true →
    s.linkUp l = false ∨ s.on (laneFenced l n) = true →
    (s.eyeAbort lane).rd (Reg.EYE_STATUS_RUNNING lane) = 0 ∧ (s.eyeAbort lane).rd (Reg.EYE_STATUS_DONE lane) = 1 ∧
      (s.eyeAbort lane).rd (Reg.EYE_STATUS_ABORTED lane) = 1)

/-! ## The pair (R314-R333) -/

/-- R332, R333: in COPY an XFER packet counts in COPY_KIB and stores its bytes in the moorings, the glyph cache or a berth that the copy has named; a
write elsewhere in the pool is tested as every write there is (R146), and beyond the copy set nothing is stored (R131). XCTL SLOTS begins a
copy and empties the three slots, WHARF keeps the sequences, a BERTH record gives its berth the active's placement and format; an END that
checks fills the slots, takes the sequences, frees what the copy did not name and begins VERIFY; a berth that overlaps another one, or an END
that does not check, fails the resynchronisation with FS174. Outside COPY both land without an effect of their own.
The active sends the copy set: bytes of the basin in XFER packets of 1,024 bytes at most, each counted, and the slots, berths, sequences and end
of the copy in XCTL records of 32 bytes. -/
def Obligations.ResyncCopy : Prop :=
  (∀ (s : State) (p : RxPacket) (bs : List Byte), s.Ready → bs = s.opened .peer p → bs.length = p.payload.length →
    (∀ (addr : W32) (n : Nat), n = bs.length → s.TwinLands p 1 addr.toNat → 16 ≤ n → n ≤ 1024 → n % 16 = 0 → addr.toNat + n ≤ 0x2000000 →
      (s.rd Reg.PEER_STATUS_RESYNC = 2 → ∃ t, exec (.xfer p addr) s = .next t ∧
        t.rd Reg.PEER_COPY_KIB_KIB = (s.peer.copyBytes + n) / 1024 % 65536 ∧ t.rd Reg.PEER_STATUS_RESYNC = 2 ∧
        (0x1000000 ≤ addr.toNat ∧ addr.toNat + n ≤ 0x1E00000 ∨ addr.toNat + n ≤ 0x1000000 ∧ s.copiesBerth addr.toNat n = true →
          t.bas = s.bas.write addr.toNat bs) ∧
        (addr.toNat + n ≤ 0x1000000 → s.copiesBerth addr.toNat n = false → t.bas = (s.poolWrite addr.toNat bs).1.bas) ∧
        (0x1E00000 < addr.toNat + n ∨ addr.toNat < 0x1000000 ∧ 0x1000000 < addr.toNat + n → t.bas = s.bas)) ∧
      (s.rd Reg.PEER_STATUS_RESYNC ≠ 2 → exec (.xfer p addr) s = .next (s.landPacket .peer p false))) ∧
    (s.TwinLands p 2 0 → p.payload.length = 32 →
      (s.rd Reg.PEER_STATUS_RESYNC ≠ 2 → exec (.xctl p) s = .next (s.landPacket .peer p false)) ∧
      (s.rd Reg.PEER_STATUS_RESYNC = 2 →
        (leAt bs 0 1 = 1 → ∃ t, exec (.xctl p) s = .next t ∧ (∀ i : Fin 3, t.seq.slots[i] = none) ∧ t.peer.copySlots = bs ∧ t.peer.copyBytes = 0 ∧
          t.peer.copyBerths = []) ∧
        (leAt bs 0 1 = 3 → ∃ t, exec (.xctl p) s = .next t ∧ t.peer.copyWharf = some (leAt bs 4 4, leAt bs 8 4) ∧ t.bas = s.bas) ∧
        (leAt bs 0 1 = 2 → ∀ b : Fin 64, b.val = leAt bs 4 1 →
          ((∀ o : Fin 64, o ≠ b → overlaps (leAt bs 6 2) (leAt bs 8 2) (s.rd (Reg.BAS_BERTH_PLACE_BASE o)) (s.rd (Reg.BAS_BERTH_PLACE_SIZE o)) = false) →
            ∃ t, exec (.xctl p) s = .next t ∧ (leAt bs 6 2 < 32768 → t.rd (Reg.BAS_BERTH_PLACE_BASE b) = leAt bs 6 2) ∧ t.rd (Reg.BAS_BERTH_PLACE_SIZE b) = leAt bs 8 2 ∧
              (leAt bs 10 1 < 8 → t.rd (Reg.BAS_BERTH_FMT_FORMAT b) = leAt bs 10 1) ∧ (t.berthAt b).home = leAt bs 13 1 % 64 ∧
              (leAt bs 12 1 = 2 → (t.berthAt b).state = .ready) ∧ (leAt bs 12 1 = 3 → (t.berthAt b).state = .live) ∧
              b.val ∈ t.peer.copyBerths ∧ (∀ o : Fin 64, o ≠ b → t.berthAt o = s.berthAt o)) ∧
          (∀ o : Fin 64, o ≠ b → overlaps (leAt bs 6 2) (leAt bs 8 2) (s.rd (Reg.BAS_BERTH_PLACE_BASE o)) (s.rd (Reg.BAS_BERTH_PLACE_SIZE o)) = true →
            ∃ t, exec (.xctl p) s = .next t ∧ t.rd Reg.PEER_STATUS_RESYNC = 5 ∧ t.sticky 174 = true ∧ t.bas = s.bas)) ∧
        (leAt bs 0 1 = 4 →
          (s.peer.copySlots = [] → exec (.xctl p) s = .next (s.landPacket .peer p false)) ∧
          (s.peer.copySlots ≠ [] → leAt bs 4 4 ≠ s.peer.copyBytes % 2 ^ 32 ∨ leAt bs 8 4 ≠ s.peer.copyCrc ^^^ 0xFFFFFFFF →
            ∃ t, exec (.xctl p) s = .next t ∧ t.rd Reg.PEER_STATUS_RESYNC = 5 ∧ t.sticky 174 = true ∧ t.bas = s.bas) ∧
          (s.peer.copySlots ≠ [] → leAt bs 4 4 = s.peer.copyBytes % 2 ^ 32 → leAt bs 8 4 = s.peer.copyCrc ^^^ 0xFFFFFFFF →
            ∃ t, exec (.xctl p) s = .next t ∧ t.rd Reg.PEER_STATUS_RESYNC = 3 ∧ t.peer.verifyLc = 0 ∧
              (∀ i : Fin 3, (leAt s.peer.copySlots (4 + i.val) 1 ≠ 1 → t.seq.slots[i] = none) ∧
                (leAt s.peer.copySlots (4 + i.val) 1 = 1 → ∃ f, t.seq.slots[i] = some f ∧ f.id = leAt s.peer.copySlots (8 + 4 * i.val) 4)) ∧
              (∀ c q, s.peer.copyWharf = some (c, q) → t.rd (Reg.WHF_CMD_NEXT_SEQ 1) = c % 2 ^ (Reg.WHF_CMD_NEXT_SEQ 1).w ∧
                t.rd (Reg.WHF_CPL_NEXT_SEQ 1) = q % 2 ^ (Reg.WHF_CPL_NEXT_SEQ 1).w) ∧
              (∀ b : Fin 64, (b.val ∈ s.peer.copyBerths → t.berthAt b = s.berthAt b) ∧
                (b.val ∉ s.peer.copyBerths → (s.berthAt b).state.copied = true → (t.berthAt b).state = .free))))))) ∧
  (∀ (s : State) (rest : List CopyItem), s.peerSession = true →
    (∀ a n : Nat, 0 < n → ∃ t, s.copyStep (.bytes a n) rest = t ∧
      (t.linkAt .peer).held = (s.linkAt .peer).held ++ [OutPacket.plain 1 0 (min 1024 n) a (s.bas.bytes a (min 1024 n))] ∧
      t.peer.outBytes = s.peer.outBytes + min 1024 n ∧ t.peer.outCrc = crc32cMore s.peer.outCrc (s.bas.bytes a (min 1024 n)) ∧
      t.peer.copyOut = (if n ≤ 1024 then rest else .bytes (a + 1024) (n - 1024) :: rest)) ∧
    (∀ (item : CopyItem) (kind : Nat), (item = .slots ∧ kind = 1 ∨ (∃ b, item = .berth b ∧ (s.berthAt b).state.copied = true) ∧ kind = 2 ∨
        item = .wharf ∧ kind = 3 ∨ item = .done ∧ kind = 4) →
      ∃ bs, ((s.copyStep item rest).linkAt .peer).held = (s.linkAt .peer).held ++ [OutPacket.plain 2 0 32 0 bs] ∧ bs.length = 32 ∧
        leAt bs 0 4 = kind ∧ (s.copyStep item rest).peer.copyOut = rest ∧
        (kind = 4 → leAt bs 4 4 = s.peer.outBytes % 2 ^ 32 ∧ leAt bs 8 4 = (s.peer.outCrc ^^^ 0xFFFFFFFF) % 2 ^ 32)))

/-- R319, R320, R323, R326: a SLUICE record is kept, with its sender's role; in Shadow the active's gives PHASE = OFFSET + L − arrival, and ALIGNED
while |PHASE| is at most 16; a sluice in Shadow that waits for it takes its lock number. Without a record by cycle 12,000 the sluice is
completed, in Shadow with FS173; with no sluice waiting the timeout does nothing. The active takes up a copy for a standby that is not in twin
lock (log entry 24).
R314, R315, R390: a recognised ROLE is reported in ROLE_IN and changes the role in force at once neither way; on a paired device the value 11 raises
FS175, and 00 held for 100 ms before another value is a request to clear Safe-Dark, which cause 4 grants. An unpaired device ignores it. -/
def Obligations.SluiceRecordsAndRoles : Prop :=
  (∀ (s : State) (p : RxPacket) (arrival : Int) (r : TwinRecord), s.Ready → r = TwinRecord.ofBytes (s.opened .peer p) →
    (s.TwinLands p 7 0 → p.payload.length = 32 →
      (s.peer.work = none → s.inShadow = false →
        ∃ t, exec (.sluiceRecord p arrival) s = .next t ∧ t.peer.last = some r ∧ t.peer.record = some (s.peer.record.getD r) ∧
          t.rd Reg.PEER_STATUS_TWIN_ROLE = min 3 r.role ∧ (r.resend = true → t.peer.twinAsks = true) ∧
          (r.role = 1 → r.twinLock = false → s.peer.copyOut = [] → t.peer.copyOut = s.copySet ∧ t.peer.outBytes = 0)) ∧
      (s.peer.work = none → s.inShadow = true → r.role = 2 → s.seq.state ≠ .stopped →
        ∀ phase : Int, phase = (r.offset : Int) + s.rd Reg.PEER_LATENCY_VALUE - arrival →
          ∃ t, exec (.sluiceRecord p arrival) s = .next t ∧ t.rd Reg.PEER_PHASE_VALUE = ofSigned 32 phase ∧
            (t.on Reg.PEER_STATUS_ALIGNED = true ↔ phase.natAbs ≤ 16) ∧ (16 < phase.natAbs → t.live 172 = true) ∧ (phase.natAbs ≤ 16 → t.live 172 = false)) ∧
      (∀ w, s.peer.work = some w → w.order = 3 → w.shadow = true → w.stopping = false → s.peer.record = none → r.role = 2 →
        ∃ t, exec (.sluiceRecord p arrival) s = .next t ∧ t.rd Reg.SEQ_LOCK_NUMBER_LOCK_NUMBER = r.lock ∧ ∀ v, t.peer.work = some v → v.order = 8)) ∧
    (s.peer.work = none → exec .sluiceRecordTimeout s = .next s) ∧
    (∀ w, s.peer.work = some w →
      ∃ t, exec .sluiceRecordTimeout s = .next t ∧ t.peer.work = none ∧ t.on Reg.SEQ_EVENT_SLUICE = true ∧
        (w.shadow = true → s.paired = true → s.peer.record = none → t.sticky 173 = true))) ∧
  (∀ (s : State) (role : BitVec 2), s.Ready →
    ∃ t, exec (.roleRecognised role) s = .next t ∧ t.rd Reg.PEER_STATUS_ROLE_IN = role.toNat ∧ t.rd Reg.PEER_STATUS_ROLE = s.rd Reg.PEER_STATUS_ROLE ∧
      (s.paired = false → t.mode.safeDark = s.mode.safeDark ∧ { t with regs := s.regs, peer := s.peer } = s) ∧
      (s.paired = true →
        (role = 3#2 → t.sticky 175 = true) ∧
        (role = 0#2 → t.mode.safeDark = s.mode.safeDark ∧ t.peer.darkSince = some (s.peer.darkSince.getD s.now)) ∧
        (role ≠ 0#2 → t.peer.darkSince = none ∧
          (∀ d, s.peer.darkSince = some d → d + 100000000 ≤ s.now → s.mode.safeDark = true → s.rd Reg.SYS_MODE_SD_CAUSE = 4 → t.mode.safeDark = false) ∧
          (s.peer.darkSince = none → t.mode.safeDark = s.mode.safeDark))))

/-- R325, R326: a LITERAL entry sets its words of the mirror and a FILL entry sets all its words to one; no other word changes. The first SEAL after a
sluice tick is judged by the mirror's CRC, and the sluice that waits for it alone takes the OR of both maps where they agree, its own
map with FS173 where they do not. A changed local map is sent in a peer session and only there.
R321, R327, R328: the first FCRC of a lock cycle is compared: COMPARED takes the reaches complete on both, an unequal one among them raises
FS170 and is marked in DIFFER, and a matching lock cycle extends MATCH_RUN, which any other ends. An ECHO request is answered with its ID
and the turn-round time, with or without a session; the answer to the request of this lock cycle gives half the round trip. -/
def Obligations.PairMapsFramesEchoes : Prop :=
  (∀ (s : State) (p : RxPacket) (bs : List Byte), s.Ready → bs = s.opened .peer p → bs.length = p.payload.length →
    (s.TwinLands p 8 0 → p.payload.length ≤ 1024 →
      (∀ n, 1 ≤ n → n ≤ 255 → p.payload.length = 4 + 4 * n → leAt bs 2 1 = 1 → leAt bs 3 1 = n - 1 →
        ∃ t, exec (.map p) s = .next t ∧
          (∀ i, i < n → Sparse.get t.peer.mirror 0xFFFFFFFF#32 ((leAt bs 0 2 + i) % 65536) = BitVec.ofNat 32 (leAt bs (4 + 4 * i) 4)) ∧
          (∀ w, (∀ i, i < n → w ≠ (leAt bs 0 2 + i) % 65536) → Sparse.get t.peer.mirror 0xFFFFFFFF#32 w = Sparse.get s.peer.mirror 0xFFFFFFFF#32 w)) ∧
      (p.payload.length = 8 → leAt bs 2 1 = 0 →
        ∃ t, exec (.map p) s = .next t ∧
          (∀ i, i ≤ leAt bs 3 1 → Sparse.get t.peer.mirror 0xFFFFFFFF#32 ((leAt bs 0 2 + i) % 65536) = BitVec.ofNat 32 (leAt bs 4 4)) ∧
          (∀ w, (∀ i, i ≤ leAt bs 3 1 → w ≠ (leAt bs 0 2 + i) % 65536) →
            Sparse.get t.peer.mirror 0xFFFFFFFF#32 w = Sparse.get s.peer.mirror 0xFFFFFFFF#32 w))) ∧
    (s.TwinLands p 9 0 → p.payload.length = 16 →
      (s.peer.sealOk ≠ none → exec (.seal p) s = .next (s.landPacket .peer p false)) ∧
      (s.peer.sealOk = none → s.peer.work = none →
        ∃ t, exec (.seal p) s = .next t ∧ t.peer.sealOk = some (mapCrc s.peer.mirror == leAt bs 4 4) ∧ t.pairMap = s.pairMap) ∧
      (∀ w, s.peer.sealOk = none → s.peer.work = some w → w.order = 8 → w.stopping = false → s.peer.record ≠ none →
        ∃ t, exec (.seal p) s = .next t ∧ t.peer.work = none ∧
          (mapCrc s.peer.mirror = leAt bs 4 4 → t.on Reg.PEER_STATUS_COUPLED = true ∧ t.pairMap = orMaps s.diag.localMap s.peer.mirror) ∧
          (mapCrc s.peer.mirror ≠ leAt bs 4 4 → t.on Reg.PEER_STATUS_COUPLED = false ∧ t.pairMap = s.diag.localMap ∧ t.sticky 173 = true ∧
            t.peer.ask = true))) ∧
    (s.paired = false ∨ s.peerSession = false → exec .localMapSend s = .next s) ∧
    (s.paired = true → s.peerSession = true →
      ∃ t, exec .localMapSend s = .next t ∧ t.regs = s.regs ∧ t.peer.sent = s.makeLocalMap ∧
        (t.linkAt .peer).held = (s.linkAt .peer).held ++ (wordRuns (mapDiff s.peer.sent s.makeLocalMap)).map (fun q =>
          let b := literalEntry s.makeLocalMap q.1 q.2
          OutPacket.plain 8 0 b.length 0 b))) ∧
  (∀ (s : State) (p : RxPacket) (bs : List Byte), s.Ready → bs = s.opened .peer p →
    (s.TwinLands p 10 0 → p.payload.length = 72 →
      (s.peer.fcrc = true → exec (.fcrc p) s = .next (s.landPacket .peer p false)) ∧
      (s.peer.fcrc = false → ∀ both, both = s.peer.complete &&& leAt bs 4 2 →
        ∃ t, exec (.fcrc p) s = .next t ∧ t.rd Reg.PEER_MISMATCH_COMPARED = both ∧ t.peer.fcrc = true ∧
          (∀ r, r < 16 → both.testBit r = true → (s.peer.crcs[r]?).getD 0 ≠ leAt bs (8 + 4 * r) 4 →
            t.bitOf Reg.PEER_MISMATCH_DIFFER r = true ∧ t.sticky 170 = true ∧ t.on Reg.PEER_EVENT_MISMATCH = true ∧ t.rd Reg.PEER_STATUS_MATCH_RUN = 0) ∧
          (both ≠ 0 → leAt bs 0 4 = s.peer.ownLock → (∀ r, r < 16 → both.testBit r = true → (s.peer.crcs[r]?).getD 0 = leAt bs (8 + 4 * r) 4) →
            t.rd Reg.PEER_STATUS_MATCH_RUN = min 8 (s.rd Reg.PEER_STATUS_MATCH_RUN + 1) ∧
            t.rd Reg.PEER_MISMATCH_COUNT_COUNT = s.rd Reg.PEER_MISMATCH_COUNT_COUNT) ∧
          (both = 0 ∨ leAt bs 0 4 ≠ s.peer.ownLock → t.rd Reg.PEER_STATUS_MATCH_RUN = 0))) ∧
    (∀ ticks : Nat, s.linkUp .peer = true → intact p 11 p.payload.length 0 = true → echoOk bs = true → p.seq.toNat = (s.linkAt .peer).rxNext →
      mayTransmit (s.linkAt .peer).limitSent p.seq.toNat = true →
      s.authentic .peer p (packetHeader 11 p.seq.toNat p.enc 0 false p.payload.length 0) = true →
      (leAt bs 0 1 = 0 → exec (.echo p ticks) s = .next ((s.landPacket .peer p false).post .peer
        (OutPacket.plain 11 0 8 0 ([1#8] ++ leBytes (leAt bs 1 1) 1 ++ leBytes 0 2 ++ leBytes ticks 4)))) ∧
      (leAt bs 0 1 = 1 → leAt bs 1 1 ≠ s.peer.echoId → exec (.echo p ticks) s = .next (s.landPacket .peer p false)) ∧
      (leAt bs 0 1 = 1 → leAt bs 1 1 = s.peer.echoId → s.peer.echoAt = some s.seq.sluices → s.peer.latencies = [] → ticks < 2 ^ 32 →
        ∃ t, exec (.echo p ticks) s = .next t ∧ t.rd Reg.PEER_LATENCY_VALUE = (ticks - leAt bs 4 4) / 2 ∧ t.peer.echoAt = none)))

/-! ## Safety (R291-R312, R388) -/

/-- R291, R292, R293, R294, R295, R296: a sample of a pair is kept with the two before it; in OSSD mode a channel counts as low from its twelfth
low sample in a row on (log entry 23). Three samples that agree are a pattern: in a pair that is not OFF it moves the state as the table says, with
SAF_EVENT.DEMAND at an entry into DEMAND; a discrepancy held for DISC_MS moves it to DISCREPANT, its source live; REARM returns a LATCHED pair
with a normal pattern to NORMAL and no other. A demand requests Egress, in the demanding pair's scene where nothing stands above it, and a
change of scene sets COMMIT. -/
def Obligations.InputPairs : Prop :=
  ∀ (s : State) (n : Fin 4), s.Ready → s.mode.phase = .running → s.rd (inState n) ≤ 5 →
    (∀ (a b ca cb : Bool) (la lb : Nat), la = (if a then 0 else (s.saf.lows[n]).1 + 1) → lb = (if b then 0 else (s.saf.lows[n]).2 + 1) →
      ca = (if s.rd (Reg.SAF_IN_CFG_MODE n) = 3 then decide (la < 12) else a) → cb = (if s.rd (Reg.SAF_IN_CFG_MODE n) = 3 then decide (lb < 12) else b) →
      ∃ t, exec (.safetyPattern n a b) s = .next t ∧ t.saf.samples[n] = ((s.now, ca, cb) :: s.saf.samples[n]).take 3 ∧ t.saf.lows[n] = (la, lb) ∧
        (∀ m : Fin 4, m ≠ n → t.rd (inState m) = s.rd (inState m)) ∧
        (patternOf (s.rd (Reg.SAF_IN_CFG_MODE n)) ca cb ≠ .discrepant → t.saf.discrepant[n] = none) ∧
        ((∀ y z rest, s.saf.samples[n] = y :: z :: rest → y.2 ≠ (ca, cb) ∨ z.2 ≠ (ca, cb)) →
          { t with saf := s.saf } = s ∧ t.saf.pattern = s.saf.pattern) ∧
        (∀ y z rest, s.saf.samples[n] = y :: z :: rest → y.2 = (ca, cb) → z.2 = (ca, cb) → t.on (inLevelA n) = ca ∧ t.on (inLevelB n) = cb ∧
          (s.rd (Reg.SAF_IN_CFG_MODE n) = 0 → t.rd (inState n) = s.rd (inState n) ∧ t.saf.pattern = s.saf.pattern) ∧
          (∀ p, s.rd (Reg.SAF_IN_CFG_MODE n) ≠ 0 → p = patternOf (s.rd (Reg.SAF_IN_CFG_MODE n)) ca cb →
            t.saf.pattern[n] = some p ∧
            (p = .discrepant → t.saf.discrepant[n] = some ((s.saf.discrepant[n]).getD z.1)) ∧
            (p = .discrepant → t.rd (inState n) = s.rd (inState n)) ∧
        (p = .demand → t.rd (inState n) = 2 ∧ t.live (64 + n.val) = false ∧ t.on Reg.SAF_EGRESS_REQUESTED = true ∧
          (s.rd (inState n) ≠ 2 → t.on Reg.SAF_EVENT_DEMAND = true) ∧
          (s.tgTimeout = false → s.tgEgress = false → (∀ m : Fin 4, s.demands m = true → s.rd (Reg.SAF_IN_CFG_SCENE m) ≠ 0) →
            (∀ m : Fin 4, m < n → s.demands m = false) → 0 < s.rd (Reg.SAF_IN_CFG_SCENE n) → s.rd (Reg.SAF_IN_CFG_SCENE n) < 256 →
            t.rd Reg.SAF_EGRESS_SCENE = s.rd (Reg.SAF_IN_CFG_SCENE n) ∧
            (s.rd Reg.SAF_EGRESS_SCENE ≠ s.rd (Reg.SAF_IN_CFG_SCENE n) → t.on Reg.SEQ_COMMIT_COMMIT = true)) ∧
          (s.rd (Reg.SAF_IN_CFG_SCENE n) = 0 → t.rd Reg.SAF_EGRESS_SCENE = 0)) ∧
        (p = .normal →
          t.rd (inState n) = (match s.rd (inState n) with
            | 0 => 1
            | 2 => if s.on (Reg.SAF_IN_CFG_LATCH n) then 3 else 1
            | st => st))))) ∧
    (s.rd (Reg.SAF_IN_CFG_MODE n) = 0 ∨ s.saf.discrepant[n] = none → exec (.discrepancyTimeout n) s = .next s) ∧
    (s.rd (Reg.SAF_IN_CFG_MODE n) ≠ 0 → s.saf.discrepant[n] ≠ none →
      ∃ t, exec (.discrepancyTimeout n) s = .next t ∧ t.rd (inState n) = 4 ∧ t.live (64 + n.val) = true ∧ t.on Reg.SAF_EGRESS_REQUESTED = true) ∧
    (∀ (who : Requester) (pairs : BitVec 4), s.MayWrite who 0xA03C →
      ∃ t, exec (.rearm who pairs) s = .next t ∧
        (pairs.getLsbD n.val = true ∧ s.rd (inState n) = 3 ∧ s.saf.pattern[n] = some .normal → t.rd (inState n) = 1) ∧
        (pairs.getLsbD n.val = false ∨ s.rd (inState n) ≠ 3 ∨ s.saf.pattern[n] ≠ some .normal → t.rd (inState n) = s.rd (inState n)) ∧
        t.saf = s.saf)

/-- R303, R304, R305, R307: a held copy without a partner is discarded with reason 6 and FS075; the timeout requests Egress in scene 0, live as
FS076. A towpath frame with a low stop bit, a gap, or another TYPE, LEN or CRC-16 counts and raises FS078; the payload of a good one is a copy for
channel B: discarded with the reason of the first check it fails, held where it passes them alone, and with an identical copy of channel A and the
next ALIVE accepted, its command taken.
R306, R307, R308: with REPLY set a POLL that names the device makes an answer due and any other does not; the
answer is one STATUS frame, with its payload and CRC-16, and nothing is sent without one due. -/
def Obligations.Towpath : Prop :=
  (∀ (s : State), s.Ready →
    (∀ b : Bool, s.tgHeld b = none → exec (.telegramUnmatched b) s = .next s) ∧
    (∀ (b : Bool) (c : Nat × List Byte), s.tgHeld b = some c →
      ∃ t, exec (.telegramUnmatched b) s = .next t ∧ t.tgHeld b = none ∧ t.tgHeld (!b) = s.tgHeld (!b) ∧ t.sticky 75 = true ∧
        t.rd Reg.SAF_TG_REJECT_REASON = 6 ∧ t.rd Reg.SAF_TG_REJECT_CHANNEL = b2n b ∧ t.rd Reg.SAF_TG_REJECT_ALIVE = leAt c.2 2 2) ∧
    (s.on Reg.SAF_TG_CFG_EN = false ∨ s.tgTimeout = true → exec .telegramTimeout s = .next s) ∧
    (s.on Reg.SAF_TG_CFG_EN = true → s.tgTimeout = false → s.mode.phase = .running →
      ∃ t, exec .telegramTimeout s = .next t ∧ t.on Reg.SAF_TG_STATUS_TIMED_OUT = true ∧ t.live 76 = true ∧ t.on Reg.SAF_EGRESS_REQUESTED = true ∧
        t.rd Reg.SAF_EGRESS_SCENE = 0 ∧ (s.rd Reg.SAF_EGRESS_SCENE ≠ 0 → t.on Reg.SEQ_COMMIT_COMMIT = true)) ∧
    (s.mode.phase = .running → ∀ (whole : Bool) (bytes : List Byte),
      (whole = false ∨ ∀ type payload, (type = 1 ∧ payload.length = 32 ∨ type = 3 ∧ payload.length = 2) → bytes ≠ towpathBody type payload) →
      ∀ i, (i = .towpathTelegram whole bytes ∨ i = .towpathPoll whole bytes) →
      ∃ t, exec i s = .next t ∧ t.sticky 78 = true ∧ t.saf = s.saf ∧
        t.rd Reg.SAF_TOWP_ERRORS_COUNT = min (2 ^ 32 - 1) (s.rd Reg.SAF_TOWP_ERRORS_COUNT + 1)) ∧
    (s.mode.phase = .running → ∀ frame : List Byte, frame.length = 32 →
      ∃ t, exec (.towpathTelegram true (towpathBody 1 frame)) s = .next t ∧
        (s.on Reg.SAF_TG_CFG_EN = false → t.saf = s.saf) ∧
        (s.on Reg.SAF_TG_CFG_EN = true →
          (∀ reason source, s.tgCheck frame = some (reason, source) →
            t.saf = s.saf ∧ t.sticky source = true ∧ t.rd Reg.SAF_TG_REJECT_REASON = reason ∧ t.rd Reg.SAF_TG_REJECT_CHANNEL = 1) ∧
          (s.tgCheck frame = none → s.saf.copyA = none → s.saf.copyB = none →
            t.saf = { s.saf with copyB := some (s.now, frame) } ∧ t.rd Reg.SAF_TG_STATUS_ALIVE = s.rd Reg.SAF_TG_STATUS_ALIVE) ∧
          (∀ a : Nat × List Byte, s.tgCheck frame = none → s.saf.copyA = some a → s.saf.copyB = none →
            t.saf.copyA = none ∧ t.saf.copyB = none ∧
            (a.2 ≠ frame → t.sticky 75 = true ∧ t.rd Reg.SAF_TG_REJECT_REASON = 5 ∧ t.rd Reg.SAF_TG_STATUS_ALIVE = s.rd Reg.SAF_TG_STATUS_ALIVE) ∧
            (a.2 = frame → s.tgValid frame = false → t.sticky 77 = true ∧ t.rd Reg.SAF_TG_REJECT_REASON = 7) ∧
            (a.2 = frame → s.tgValid frame = true → ∀ d, d = (leAt frame 2 2 + 65536 - s.rd Reg.SAF_TG_STATUS_ALIVE) % 65536 →
              (s.on Reg.SAF_TG_STATUS_SYNCED = false ∨ d = 1 ∨ 2 ≤ d ∧ d < 32768 →
                t.rd Reg.SAF_TG_STATUS_ALIVE = leAt frame 2 2 ∧ t.tgTimeout = false ∧ t.live 76 = false ∧
                (leAt frame 4 1 = 1 → t.rd Reg.SAF_TG_STATUS_COMMAND = 1) ∧
                (leAt frame 4 1 = 2 → t.rd Reg.SAF_TG_STATUS_COMMAND = 2 ∧ t.rd Reg.SAF_TG_STATUS_SCENE = leAt frame 5 1 ∧ t.on Reg.SAF_EGRESS_REQUESTED = true) ∧
                (leAt frame 4 1 = 3 → t.rd Reg.SAF_TG_STATUS_COMMAND = s.rd Reg.SAF_TG_STATUS_COMMAND)) ∧
              (s.on Reg.SAF_TG_STATUS_SYNCED = true → (2 ≤ d ∧ d < 32768 → t.sticky 72 = true) ∧
                (d = 0 → t.sticky 70 = true ∧ t.rd Reg.SAF_TG_STATUS_COMMAND = s.rd Reg.SAF_TG_STATUS_COMMAND) ∧
                (32768 ≤ d → t.sticky 71 = true ∧ t.rd Reg.SAF_TG_STATUS_ALIVE = s.rd Reg.SAF_TG_STATUS_ALIVE))))))) ∧
  (∀ (s : State), s.Ready → s.mode.phase = .running →
    (∀ devnum : BitVec 16, ∀ poll, poll = Instr.towpathPoll true (towpathBody 3 (leBytes devnum.toNat 2)) →
      (s.on Reg.SAF_TOWP_CFG_REPLY = true → devnum.toNat = s.rd (Reg.LNK_CFG_DEVNUM 0) →
        exec poll s = .next { s with saf := { s.saf with reply := some (s.now, []) } }) ∧
      (s.on Reg.SAF_TOWP_CFG_REPLY = false ∨ devnum.toNat ≠ s.rd (Reg.LNK_CFG_DEVNUM 0) → exec poll s = .next s)) ∧
    (s.saf.reply = none → exec .towpathStatus s = .next s) ∧
    (s.saf.reply ≠ none → ∃ t f, exec .towpathStatus s = .next t ∧ t = { s with saf := { s.saf with reply := none, lastReply := f } } ∧
      f.length = 22 ∧ f.take 4 = [0x55#8, 0xD5#8, 2#8, 16#8] ∧
      leAt f 4 2 = s.rd (Reg.LNK_CFG_DEVNUM 0) % 65536 ∧ leAt f 7 1 = s.rd Reg.SAF_EGRESS_SCENE % 256 ∧ leAt f 8 2 = s.rd Reg.SAF_TG_STATUS_ALIVE % 65536 ∧
      leAt f 12 4 = s.rd Reg.SYS_EPOCH_EPOCH % 2 ^ 32 ∧ leAt f 16 4 = 0 ∧
      256 * leAt f 20 1 + leAt f 21 1 = crc16 ((f.drop 2).take 18)))

/-- R299, R301, R302: a test pulse drives the channel whose turn it is low, and skips the turn of one that is driven low; at its end a channel that read
low in it and high after it, with the others at their levels, has passed; any other fails its output, which is held low with FS068 or FS069,
as two samples that differ from the driven level do. No output is driven whose condition has ceased to hold; one that falls under its test
pauses its tests, and they resume in the turn of its other channel.
R388: Egress is entered where it is requested, Boot ended 2 ms ago or more, and no mode above it holds: the Test latch and every force bit clear,
RUN is set where it reads 0, and COMMIT is set. Where it may not be entered, or has been, nothing happens. -/
def Obligations.OutputTestsAndEgress : Prop :=
  (∀ (s : State), s.Ready →
    (∀ o, o < 2 → s.noteOutputs.on (soutFld o) = true → s.noteOutputs.outHolds o = true) ∧
    (s.on Reg.SAF_OUT_PULSE_EN = false ∨ s.saf.testing ≠ none ∨ s.mode.phase ≠ .running → exec .outputTestPulse s = .next s) ∧
    (s.on Reg.SAF_OUT_PULSE_EN = true → s.saf.testing = none → s.mode.phase = .running →
      (∀ (c : Nat) (o : Fin 2), (∀ q : Fin 2, s.saf.resumeAt[q] = none) → c = s.saf.nextTest → c < 4 → o.val = c / 2 →
        (s.on (soutFld o) = false ∨ s.saf.paused[o] ≠ none →
          exec .outputTestPulse s = .next { s with saf := { s.saf with nextTest := (c + 1) % 4 } }) ∧
        (s.on (soutFld o) = true → s.saf.paused[o] = none →
          ∃ t, exec .outputTestPulse s = .next t ∧ t.saf = { s.saf with nextTest := (c + 1) % 4, testing := some c } ∧
            t.on Reg.SAF_OUT_TESTING = true ∧ t.bitOf Reg.SAF_OUT_READBACK c = false ∧ t.on (soutFld o) = true)) ∧
      (∀ (c d : Nat) (o : Fin 2), (∀ q : Fin 2, q < o → s.saf.resumeAt[q] = none) → s.saf.resumeAt[o] = some d → d ≤ s.now →
        s.saf.paused[o] = some c → c / 2 = o.val → s.on (soutFld o) = true →
        ∃ t, exec .outputTestPulse s = .next t ∧ t.saf.testing = some c ∧ t.saf.paused[o] = none ∧ t.saf.resumeAt[o] = none)) ∧
    (∀ (o : Fin 2) (c : Nat), s.saf.testing = some c → c / 2 = o.val →
      (s.dropOut o).on (soutFld o) = false ∧ (s.dropOut o).saf.paused[o] = some (2 * o.val + (1 - c % 2)) ∧ (s.dropOut o).on Reg.SAF_OUT_PAUSED = true) ∧
    (∀ low high others : Bool,
      (s.saf.testing = none → exec (.outputTestEnd low high others) s = .next s) ∧
      (∀ c, s.saf.testing = some c → c < 4 →
        ∃ t, exec (.outputTestEnd low high others) s = .next t ∧ t.saf.testing = none ∧ t.on Reg.SAF_OUT_TESTING = false ∧
          (low = true → others = true → high = true ∨ s.on (soutFld (c / 2)) = false → t.flt = s.flt ∧ t.on (soutFld (c / 2)) = s.on (soutFld (c / 2)) ∧
            t.bitOf Reg.SAF_OUT_READBACK c = (s.on (soutFld (c / 2)) && high)) ∧
          (low = false ∨ others = false ∨ high = false ∧ s.on (soutFld (c / 2)) = true →
            t.on (failFld (c / 2)) = true ∧ t.on (soutFld (c / 2)) = false ∧ t.sticky (68 + c / 2) = true ∧ t.on Reg.SAF_EVENT_OUT_FAIL = true))) ∧
    (∀ first second : BitVec 4, ∃ t, exec (.outputReadbackError first second) s = .next t ∧
      ((∀ c, c < 4 → s.saf.testing = some c ∨ first.getLsbD c = s.on (soutFld (c / 2)) ∨ second.getLsbD c = s.on (soutFld (c / 2))) →
        t.flt = s.flt ∧ t.rd Reg.SAF_OUT_READBACK = second.toNat ∧ s.SameRegs t [Reg.SAF_OUT_READBACK]) ∧
      (∀ c, c < 4 → s.saf.testing ≠ some c → first.getLsbD c ≠ s.on (soutFld (c / 2)) → second.getLsbD c ≠ s.on (soutFld (c / 2)) →
        s.on (failFld (c / 2)) = false →
        t.on (failFld (c / 2)) = true ∧ t.on (soutFld (c / 2)) = false ∧ t.sticky (68 + c / 2) = true))) ∧
  (∀ s : State, s.Ready →
    (s.mode.egress = true ∨ s.mayEnterEgress = false → exec .egressEnter s = .next s) ∧
    (s.mode.egress = false → s.on Reg.SAF_EGRESS_REQUESTED = true → s.mode.phase = .running → s.mode.bootEnd + 2000000 ≤ s.now →
      s.mode.safeDark = false → s.modeOf ≠ .shadow →
      ∃ t, exec .egressEnter s = .next t ∧ { t with regs := s.regs, mode := s.mode, seq := s.seq } = s ∧
        s.SameRegs t ([Reg.SYS_MODE_TEST, Reg.SEQ_CTRL_RUN, Reg.SEQ_COMMIT_COMMIT] ++ (List.range 6).map Reg.FLT_FORCE_FORCE) ∧
        t.mode.egress = true ∧ t.mode.egressSetRun = !s.on Reg.SEQ_CTRL_RUN ∧ t.on Reg.SYS_MODE_TEST = false ∧ t.on Reg.SEQ_CTRL_RUN = true ∧
        t.on Reg.SEQ_COMMIT_COMMIT = true ∧ (∀ n, n < 192 → t.forced n = false) ∧ t.seq.run = s.seq.run ∧
        (s.seq.state = .stopped → s.on Reg.SEQ_CTRL_RUN = false → t.seq.runAt = s.now)))

/-! ## Faults (R245-R258, R363) -/

/-- R249, R250, R252, R253, R254, R255, R257: a raise sets the sticky and live bits, counts, and takes every selected action: the interrupt, the
NMI, the reset of the source's block, which stands over its interrupt, HEALTH driven low, the request of a chip reset; a light-class raise fences its
reach or its chamber, or asks for Degraded, where it is lasting, and else nothing. No other source's bits change, but that a link that its block
reset takes down makes FS032 or FS042 live. -/
def Obligations.RaisesReact : Prop :=
  ∀ (s : State) (n : Nat) (locus : Option Nat) (t : State), n < 192 → t = s.raise n locus →
    t.sticky n = true ∧ t.live n = true ∧ t.rd (Reg.FLT_REACT_COUNT n) = min 65535 (s.rd (Reg.FLT_REACT_COUNT n) + 1) ∧
    Sparse.get t.flt.lastRaise 0 n = s.now ∧
    (∀ m, m < 192 → m ≠ n → t.sticky m = s.sticky m) ∧
    (∀ m, m < 192 → m ≠ n → (m ≠ 32 ∨ s.on (Reg.FLT_REACT_BR n) = false ∨ blockOf n ≠ some .hostLink) →
      (m ≠ 42 ∨ s.on (Reg.FLT_REACT_BR n) = false ∨ blockOf n ≠ some .peerLink) → t.live m = s.live m) ∧
    (s.on (Reg.FLT_REACT_INT n) = true → Src.light n = true ∨ s.on (Reg.FLT_REACT_BR n) = false ∨ blockOf n = none → t.mgmt.intPending = true) ∧
    (Src.light n = false → s.on (Reg.FLT_REACT_BR n) = true → blockOf n ≠ none → t.mgmt.intPending = s.mgmt.intPending) ∧
    (Src.light n = false →
      (s.on (Reg.FLT_REACT_NMI n) = true → t.mgmt.nmiPending = true) ∧
      (s.on (Reg.FLT_REACT_HD n) = true → t.healthHigh = false ∧ n ∈ t.flt.healthLow) ∧
      (s.on (Reg.FLT_REACT_CR n) = true → ∃ m, m ≤ n ∧ t.flt.crReq = some m) ∧
      (s.on (Reg.FLT_REACT_CR n) = false → t.flt.crReq = s.flt.crReq) ∧
      (s.on (Reg.FLT_REACT_BR n) = true → ∀ b, blockOf n = some b → b ∈ t.flt.inReset) ∧
      (s.on (Reg.FLT_REACT_BR n) = false ∨ blockOf n = none → t.flt.inReset = s.flt.inReset) ∧
      t.rd Reg.FLT_FENCE_REACH = s.rd Reg.FLT_FENCE_REACH) ∧
    (Src.light n = true →
      (s.lastingRaise n locus = false → t.rd Reg.FLT_FENCE_REACH = s.rd Reg.FLT_FENCE_REACH ∧ t.flt.degrade = s.flt.degrade ∧ t.ch = s.ch) ∧
      (s.lastingRaise n locus = true → s.on (Reg.FLT_REACT_DEGRADE n) = true → t.flt.degrade = true) ∧
      (∀ k : Fin 16, s.lastingRaise n locus = true → locus = some k.val →
        (s.rd (Reg.FLT_REACT_LEVEL n) = 1 → t.bitOf Reg.FLT_FENCE_REACH k = true ∧ t.ch = s.ch) ∧
        (s.rd (Reg.FLT_REACT_LEVEL n) = 2 → Src.chamberLocus n = true →
          t.bitOf Reg.FLT_FENCE_REACH k = true ∧ t.bitOf Reg.FLT_FENCE_CHAMBER k = true ∧
          (t.chAt k).halted = true ∧ (t.chAt k).running = false ∧ (t.chAt k).barges = [] ∧ (t.chAt k).store = (s.chAt k).store)))

/-- R250, R257, R258: FLT_CLEAR clears the sticky bits written 1 whose live and force bits are 0, and nothing else; FLT_FORCE lands in Test, in
Maintenance and at boot level, where each bit that rises raises its source without its live bit, and is discarded elsewhere with cause 5
and FS186; a control-class event source's live bit falls; the escalation timer raises FS005 and, with EN set, the chip resets with FLT_RESET
naming source 5.
R252, R270, R363: a block whose reset ends is ready again: a link that LNK_CTRL enables leaves DISABLED for DETECT; the security engine has
repeated its known-answer tests, a failure raises FS020 and the second in a row disables it for the epoch. A block not in reset stays as
it is. -/
def Obligations.FaultCommandsAndBlockResets : Prop :=
  (∀ (s : State) (who : Requester) (word : Fin 6) (v : W32), s.Ready →
    (s.MayWrite who (0xD160 + 4 * word.val) →
      ∃ t, exec (.fltClear who word v) s = .next t ∧ s.OnlyRegs t [Reg.FLT_STICKY_STICKY word] ∧
        ∀ i, i < 32 → t.sticky (32 * word.val + i) =
          (s.sticky (32 * word.val + i) && !(v.getLsbD i && !s.live (32 * word.val + i) && !s.forced (32 * word.val + i)))) ∧
    (s.MayWrite who (0xD140 + 4 * word.val) →
      ((s.bootLevel = true ∨ s.modeOf = .test ∨ s.modeOf = .maintenance) →
        ∃ t, exec (.fltForce who word v) s = .next t ∧ t.rd (Reg.FLT_FORCE_FORCE word) = v.toNat ∧
          (∀ i, i < 32 → v.getLsbD i = true → s.forced (32 * word.val + i) = false → t.sticky (32 * word.val + i) = true) ∧
          (∀ i, i < 32 → v.getLsbD i = false ∨ s.forced (32 * word.val + i) = true → t.sticky (32 * word.val + i) = s.sticky (32 * word.val + i)) ∧
          (∀ m, m < 192 → m ≠ 32 → m ≠ 42 → t.live m = s.live m)) ∧
      (s.bootLevel = false → s.modeOf ≠ .test → s.modeOf ≠ .maintenance →
        ∃ t, exec (.fltForce who word v) s = .next t ∧ t.sticky 186 = true ∧ t.rd Reg.RIF_DISCARD_CAUSE = 5 ∧
          t.rd (Reg.FLT_FORCE_FORCE word) = s.rd (Reg.FLT_FORCE_FORCE word) ∧
          (∀ m, m < 192 → m ≠ 186 → t.sticky m = s.sticky m))) ∧
    (∀ n : Fin 192, ((Src.info n).kind = .event ∧ Src.light n = false →
        ∃ t, exec (.liveBitExpire n) s = .next t ∧ s.OnlyRegs t [Reg.FLT_LIVE_LIVE (n.val / 32)] ∧ t.live n = false ∧
          ∀ m, m < 192 → m ≠ n.val → t.live m = s.live m) ∧
      ((Src.info n).kind ≠ .event ∨ Src.light n = true → exec (.liveBitExpire n) s = .next s)) ∧
    (s.flt.escalateAt = none → exec .escalationTimeout s = .next s) ∧
    (s.flt.escalateAt ≠ none →
      ∃ t, exec .escalationTimeout s = .next t ∧ t.sticky 5 = true ∧ t.on Reg.FLT_NMI_OVERDUE = true ∧
        (s.on Reg.FLT_ESCALATE_EN = true → s.flt.crReq = none →
          t.settle.mode.phase = .reset ∧ t.settle.on Reg.FLT_RESET_VALID = true ∧ t.settle.rd Reg.FLT_RESET_SOURCE = 5 ∧
            t.settle.rd Reg.SYS_RESET_CAUSE = 2) ∧
        (s.on Reg.FLT_ESCALATE_EN = false → s.on (Reg.FLT_REACT_CR 5) = false → t.flt.crReq = s.flt.crReq))) ∧
  (∀ (s : State) (b : Block) (ok : Bool), s.Ready →
    (b ∉ s.flt.inReset → exec (.blockResetDone b ok) s = .next s) ∧
    (b ∈ s.flt.inReset →
      ∃ t, exec (.blockResetDone b ok) s = .next t ∧ (∀ c, c ≠ b → c ∈ s.flt.inReset → c ∈ t.flt.inReset) ∧
        (b = .nand ∨ b = .safety ∨ b = .pairing ∨ b = .crc → b ∉ t.flt.inReset ∧ { t with flt := s.flt } = s) ∧
        (b = .security → ok = true → b ∉ t.flt.inReset ∧ t.sec.katFails = 0 ∧ t.sec.engineOff = s.sec.engineOff ∧ t.regs = s.regs) ∧
        (b = .security → ok = false → t.sec.katFails = s.sec.katFails + 1 ∧ t.sticky 20 = true ∧ t.on Reg.SEC_EVENT_ENTROPY = true ∧
          (1 ≤ s.sec.katFails → t.sec.engineOff = true)) ∧
        (∀ l : LinkId, b = (match l with | .host => Block.hostLink | .peer => Block.peerLink) →
          b ∉ t.flt.inReset ∧
          (s.on (Reg.LNK_CTRL_EN l.num) = true → s.rd (Reg.LNK_STATUS_STATE l.num) = 0 → s.linksEnabled l = true → t.rd (Reg.LNK_STATUS_STATE l.num) = 1) ∧
          (s.on (Reg.LNK_CTRL_EN l.num) = false → t.rd (Reg.LNK_STATUS_STATE l.num) = s.rd (Reg.LNK_STATUS_STATE l.num)))))

/-! ## Resets, start-up, the service button and the TAP (R347-R352, R362, R363, R386-R398, R438) -/

/-- R386, R395, R396, R438: power-up, RESET_N recognised low and a supply outside its window hold the device in Reset: a cold reset, with its cause in
SYS_RESET, the sticky bits, counts and FLT_RESET cleared, the sequencer stopped and the array dark; OTP and the queue stay. A fitted device is
the first power-up's. A device held in Reset executes nothing but these inputs and the start of Boot, and Boot does not start while
RESET_N is low or the supply is out of its window. -/
def Obligations.ResetInputs : Prop :=
  ∀ (s : State), s.settle = s →
    (∀ (i : Instr) (cause : Nat) (bad : PowerSense), inWindows bad = false →
        (i = .powerUp none ∧ cause = 0 ∨ i = .resetN true ∧ cause = 1 ∨ i = .powerOnDetect bad ∧ cause = 0) →
      ∃ t, exec i s = .next t ∧ t.mode.phase = .reset ∧ t.rd Reg.SYS_RESET_CAUSE = cause ∧ t.pending = s.pending ∧ t.sec.otp = s.sec.otp ∧
        t.nand.files = s.nand.files ∧ (∀ n, n < 192 → t.sticky n = false ∧ t.rd (Reg.FLT_REACT_COUNT n) = 0) ∧ t.on Reg.FLT_RESET_VALID = false ∧
        t.seq.state = .stopped ∧ t.lights = false ∧ t.healthHigh = false ∧
        (∀ o, o < 2 → t.on (soutFld o) = false) ∧ (∀ l : LinkId, t.rd (Reg.LNK_STATUS_STATE l.num) = 0) ∧
        (i = .resetN true → t.mode.resetLow = true) ∧ (i = .powerOnDetect bad → t.mode.badPower = true)) ∧
    (∀ x : Fitted, s.sec.otp = [] → s.nand.files = [] → ∃ t, exec (.powerUp (some x)) s = .next t ∧ t.mode.phase = .reset ∧
      t.sec.otp = cellsFrom 0 x.otp ∧ t.nand.idRecord = x.idRecord ∧ t.nand.files.length = x.files.length) ∧
    exec (.resetN false) s = .next { s with mode := { s.mode with resetLow := false } } ∧
    (∀ good : PowerSense, inWindows good = true → exec (.powerOnDetect good) s = .next { s with mode := { s.mode with badPower := false } }) ∧
    (∀ p : PowerSense, inWindows p = true ↔ 700 ≤ p.core ∧ p.core ≤ 800 ∧ 840 ≤ p.srds ∧ p.srds ≤ 960 ∧ 1620 ≤ p.a18 ∧ p.a18 ≤ 1980 ∧
      1620 ≤ p.io18 ∧ p.io18 ≤ 1980 ∧ 2970 ≤ p.io33 ∧ p.io33 ≤ 3630 ∧ ∃ f, p.refclk = some f ∧ 75000 ≤ f ∧ f ≤ 125000) ∧
    (∀ io, s.mode.resetLow = true ∨ s.mode.badPower = true → exec (.bootStart io) s = .next s) ∧
    (s.mode.phase = .reset →
      ∀ i : Instr, (∀ x, i ≠ .powerUp x) → (∀ b, i ≠ .resetN b) → (∀ b, i ≠ .powerOnDetect b) → (∀ io, i ≠ .bootStart io) → exec i s = .next s)

/-- R344, R347, R348, R349, R352: the boot sequence of a device that waits for it: a failed step 1 raises FS006 and stops the cores; otherwise the slot
that PREFER names is tried first and then the other; the image that passes is reported, loaded and entered at its BOOT_ENTRY, the second with
FALLBACK and FS008; with none, recovery, with FS009 live. The watchdog makes a warm reset of cause 5 that marks the slot; the DONE write
drops BOOT_PHASE and continues at RUN_ENTRY, and at firmware level it is refused with FS181.
R293, R390, R392: Boot ends at firmware level and not before: the mode is no longer Boot, every pair that is not OFF is in START and demands, an
unprovisioned device enters Provision, and a provisioned one without a verified trim package Safe-Dark with cause 3. -/
def Obligations.Boot : Prop :=
  (∀ (s : State), s.settle = s →
    (∀ (io : BootIO) (u : State), s.bootWaits = true → s.mode.resetLow = false → s.mode.badPower = false →
      (io.romOk = false → ∃ t, exec (.bootStart io) s = .next t ∧ t.mode.phase = .boot ∧ t.mgmt.stopped = true ∧ t.sticky 6 = true ∧ t.healthHigh = false) ∧
      (io.romOk = true → u = (State.bootStep2 { s with mode := { s.mode with phase := .boot, seen := 0x11 } } io).bindPart io.part →
        ∀ a b : Nat, (a, b) = (if io.preferOk = true ∧ u.nand.prefer = 1 then (1, 0) else (0, 1)) →
          (∀ img, u.slotCode io a = 0 → u.firmware a = some img → ∃ t, exec (.bootStart io) s = .next t ∧ t.mode.phase = .boot ∧
            t.rd Reg.SEC_BOOT_STATUS_IMAGE = a ∧ t.sec.jumped = some a ∧ t.mgmt.pc = BitVec.ofNat 32 (0x6100000 + img.le 0x10 4) ∧
            t.sec.runEntry = 0x6100000 + img.le 0x14 4 ∧ t.on Reg.SEC_BOOT_STATUS_FALLBACK = u.on Reg.SEC_BOOT_STATUS_FALLBACK) ∧
          (∀ img, u.slotCode io a ≠ 0 → u.slotCode io b = 0 → u.firmware b = some img → ∃ t, exec (.bootStart io) s = .next t ∧
            t.rd Reg.SEC_BOOT_STATUS_IMAGE = b ∧ t.sec.jumped = some b ∧ t.mgmt.pc = BitVec.ofNat 32 (0x6100000 + img.le 0x10 4) ∧
            t.on Reg.SEC_BOOT_STATUS_FALLBACK = true ∧ t.sticky 8 = true ∧
            t.rd (if a = 0 then Reg.SEC_BOOT_STATUS_REASON_A else Reg.SEC_BOOT_STATUS_REASON_B) = u.slotCode io a % 16) ∧
          (u.slotCode io a ≠ 0 → u.slotCode io b ≠ 0 → ∃ t, exec (.bootStart io) s = .next t ∧ t.on Reg.SEC_BOOT_STATUS_RECOVERY = true ∧
            t.live 9 = true ∧ t.mode.phase = .boot ∧ t.sec.jumped = u.sec.jumped))) ∧
    (s.mode.phase ≠ .reset →
      (s.sec.jumped = none ∨ s.bootLevel = false → exec .bootWatchdog s = .next s) ∧
      (∀ i, s.sec.jumped = some i → i < 2 → s.bootLevel = true → ∃ t, exec .bootWatchdog s = .next t ∧ t.mode.phase = .reset ∧
        t.rd Reg.SYS_RESET_CAUSE = 5 ∧ t.bitOf Reg.SEC_BOOT_STATUS_MARKED i = true ∧ (∀ n, n < 192 → t.sticky n = s.sticky n) ∧
        t.rd Reg.SYS_EPOCH_EPOCH = (s.rd Reg.SYS_EPOCH_EPOCH + 1) % 2 ^ 32 ∧ t.on Reg.FLT_RESET_VALID = false) ∧
      (s.MayWrite .mgmt 0xB080 →
        (s.bootLevel = true → ∃ t, exec .bootDone s = .next t ∧ t.bootLevel = false ∧ t.mgmt.pc = BitVec.ofNat 32 s.sec.runEntry) ∧
        (s.bootLevel = false → ∃ t, exec .bootDone s = .next t ∧ t.bootLevel = false ∧ t.sticky 181 = true ∧ t.mgmt.pc = s.mgmt.pc ∧ t.sec = s.sec)))) ∧
  (∀ (s : State) (index : Fin 23), s.Ready →
    (s.mode.phase ≠ .boot ∨ s.bootLevel = true → exec (.bootEnd index) s = .next s) ∧
    (s.mode.phase = .boot → s.bootLevel = false →
      ∃ t, exec (.bootEnd index) s = .next t ∧ t.mode.phase = .running ∧ t.mode.bootEnd = s.now ∧ t.now = s.now ∧
        (∀ n : Fin 4, t.rd (inState n) = if s.rd (Reg.SAF_IN_CFG_MODE n) = 0 then 5 else 0) ∧
        (∀ n : Fin 4, s.rd (Reg.SAF_IN_CFG_MODE n) ≠ 0 → t.on Reg.SAF_EGRESS_REQUESTED = true) ∧
        (s.provisioned = false → t.on Reg.SYS_MODE_PROVISION = true) ∧
        (s.provisioned = true → s.on Reg.SEC_STATUS_TRIM_OK = false → s.mode.safeDark = false → t.mode.safeDark = true ∧ t.rd Reg.SYS_MODE_SD_CAUSE = 3)))

/-- R398: a press of 50 ms to 4,999 ms is a warm chip reset of cause 3, one of 5,000 ms to 9,999 ms sets the Maintenance latch and clears RUN, any other
only reports itself, as does one during which Egress held; 10 s make the button stuck, 1 s of high level frees it, and a stuck one is ignored but
for its press's own duration.
R362, R363: FS013 is live from a failed health test to the tests' passing, counted in FAILURES; while it is, no challenge is made. SEC_CHAL makes one
where none exists. A token is accepted only with SEC_POLICY.DEBUG_TOKENS: otherwise, as with any that does not check, FS019, and the
challenge is spent. EXTEST is selected only with debug open or unprovisioned, and then HEALTH is low and the array dark. -/
def Obligations.ServiceButtonAndTap : Prop :=
  (∀ (s : State) (ms : Nat), s.Ready → s.mode.phase = .running →
    (s.on Reg.SYS_SERVICE_STUCK = true → exec .serviceStuck s = .next s ∧
      (s.on Reg.SYS_SERVICE_PRESSED = false → exec (.servicePress ms) s = .next s) ∧
      (s.on Reg.SYS_SERVICE_PRESSED = true → ∃ t, exec (.servicePress ms) s = .next t ∧
        s.OnlyRegs t [Reg.SYS_SERVICE_PRESSED, Reg.SYS_SERVICE_LAST_MS] ∧ t.on Reg.SYS_SERVICE_PRESSED = false ∧
        t.rd Reg.SYS_SERVICE_LAST_MS = min 65535 ms)) ∧
    (s.on Reg.SYS_SERVICE_STUCK = false →
      (s.egressWithin ms = true ∨ ms < 50 ∨ 10000 ≤ ms → ∃ t, exec (.servicePress ms) s = .next t ∧
        s.OnlyRegs t [Reg.SYS_SERVICE_PRESSED, Reg.SYS_SERVICE_LAST_MS, Reg.SYS_SERVICE_LAST_ACTION] ∧
        t.rd Reg.SYS_SERVICE_LAST_MS = min 65535 ms ∧ t.rd Reg.SYS_SERVICE_LAST_ACTION = 0) ∧
      (s.egressWithin ms = false → s.mode.bootEnd + ms * 1000000 ≤ s.now →
        (50 ≤ ms → ms < 5000 → ∃ t, exec (.servicePress ms) s = .next t ∧ t.mode.phase = .reset ∧ t.rd Reg.SYS_RESET_CAUSE = 3 ∧
          (∀ n, n < 192 → t.sticky n = s.sticky n) ∧ t.rd Reg.SYS_EPOCH_EPOCH = (s.rd Reg.SYS_EPOCH_EPOCH + 1) % 2 ^ 32) ∧
        (5000 ≤ ms → ms < 10000 → s.modeOf ≠ .safeDark → s.modeOf ≠ .provision → ∃ t, exec (.servicePress ms) s = .next t ∧
          t.on Reg.SYS_MODE_MAINT = true ∧ t.on Reg.SEQ_CTRL_RUN = false ∧ t.rd Reg.SYS_SERVICE_LAST_ACTION = 2 ∧
          t.rd Reg.SYS_SERVICE_LAST_MS = ms ∧ t.seq.state = s.seq.state)) ∧
      (s.egressWithin 10000 = true → exec .serviceStuck s = .next s) ∧
      (s.egressWithin 10000 = false → ∃ t, exec .serviceStuck s = .next t ∧
        s.OnlyRegs t [Reg.SYS_SERVICE_STUCK, Reg.SYS_MODE_EVENT_SERVICE, Reg.SYS_SERVICE_PRESSED, Reg.SYS_SERVICE_LAST_ACTION] ∧
        t.on Reg.SYS_SERVICE_STUCK = true ∧ t.on Reg.SYS_MODE_EVENT_SERVICE = true)) ∧
    (∃ t, exec .serviceStuckClear s = .next t ∧ s.OnlyRegs t [Reg.SYS_SERVICE_STUCK, Reg.SYS_SERVICE_PRESSED] ∧ t.on Reg.SYS_SERVICE_STUCK = false)) ∧
  (∀ (s : State), s.Ready →
    (∃ t, exec .entropyHealthFail s = .next t ∧ t.live 13 = true ∧ t.entropyOk = false ∧
      t.rd Reg.SEC_ENTROPY_FAILURES = min 65535 (s.rd Reg.SEC_ENTROPY_FAILURES + 1)) ∧
    (∃ t, exec .entropyHealthRestored s = .next t ∧ t.live 13 = false ∧ t.sec = { s.sec with entropyFail := false } ∧
      s.SameRegs t [Reg.FLT_LIVE_LIVE 0]) ∧
    (s.sec.challenge ≠ none ∨ s.entropyOk = false → exec .secChal s = .next s) ∧
    (s.sec.challenge = none → s.entropyOk = true → ∃ c : List Byte, c.length = 32 ∧
      exec .secChal s = .next { s with fresh := s.fresh + 1, sec := { s.sec with challenge := some c } }) ∧
    (∀ token : List Byte,
      (s.on Reg.SEC_POLICY_DEBUG_TOKENS = false ∨ s.debugOk token = false →
        ∃ t, exec (.secToken token) s = .next t ∧ t.sec.scope = s.sec.scope ∧ t.sec.challenge = none ∧ t.sticky 19 = true) ∧
      (s.on Reg.SEC_POLICY_DEBUG_TOKENS = true → s.debugOk token = true →
        ∃ t, exec (.secToken token) s = .next t ∧ t.sec.scope = max s.sec.scope (leAt token 53 1) ∧ t.sec.challenge = none ∧
          t.sticky 19 = s.sticky 19)) ∧
    exec (.extest false) s = .next { s with sec := { s.sec with extest := false } } ∧
    (s.sec.scope = 0 → s.provisioned = true → exec (.extest true) s = .next s) ∧
    (s.sec.scope ≠ 0 ∨ s.provisioned = false →
      ∃ t, exec (.extest true) s = .next t ∧ t = { s with sec := { s.sec with extest := true } } ∧ t.healthHigh = false ∧ t.lights = false))

/-! ## Register access (R17, R23-R37, R123, R139-R144, R172, R226, R270, R332, R380, R389, R390, R397, R404-R418) -/

/-- R403, R404, R406, R407, R408, R409, R410, R414: a word write gives every RW field of a register of the GLY_, TRM_, CEIL_ and WEIR_ blocks its
clamped part, leaves RO and RC fields, and at firmware level leaves a BT field, with FS181 where the value differs; a narrow write raises
FS182, one of an unlisted offset FS185, and neither lands. A word read clears the RC fields it returns, latches a high word, and changes
nothing else; a narrow one changes nothing. An alias read clears its own RC bit alone; an alias write changes its own bit alone. -/
def Obligations.RegisterAccess : Prop :=
  ∀ (s : State) (who : Requester) (off : BitVec 16) (data : List Byte) (fs : List Fld), s.Ready → Reg.fieldsAt off.toNat = some fs → off.toNat % 4 = 0 →
    (off.toNat / 0x1000 = 4 ∨ off.toNat / 0x1000 = 5 → data.length = 4 → s.reaches who true (regBase + off.toNat) 4 = true →
      ∃ t, exec (.registerWrite who (regAt off) data) s = .next t ∧ t.bas = s.bas ∧ t.act = s.act ∧ t.trim = s.trim ∧
        ∀ f ∈ fs,
          (f.ty = .rw → t.rd f = f.clamp.apply (leAt data 0 4 / 2 ^ f.lo % 2 ^ f.w)) ∧
          (f.ty = .ro ∨ f.ty = .rc → t.rd f = s.rd f) ∧
          (f.ty = .bt → s.bootLevel = true → t.rd f = f.clamp.apply (leAt data 0 4 / 2 ^ f.lo % 2 ^ f.w)) ∧
          (f.ty = .bt → s.bootLevel = false → t.rd f = s.rd f ∧
            (leAt data 0 4 / 2 ^ f.lo % 2 ^ f.w ≠ s.rd f → t.sticky 181 = true ∧ t.rd Reg.RIF_DISCARD_CAUSE = 4))) ∧
    (data.length = 1 ∨ data.length = 2 → s.reaches who true (regBase + off.toNat) data.length = true →
      ∃ t, exec (.registerWrite who (regAt off) data) s = .next t ∧ t.sticky 182 = true ∧ t.rd Reg.RIF_DISCARD_CAUSE = 0 ∧
        t.rd Reg.RIF_DISCARD_REQUESTER = requesterCode who ∧ (who = .mgmt → t.sticky 7 = true) ∧ t.act = s.act ∧ t.seq = s.seq) ∧
    (∀ o : BitVec 16, Reg.fieldsAt o.toNat = none → o.toNat % 4 = 0 → data.length = 4 → s.reaches who true (regBase + o.toNat) 4 = true →
      ∃ t, exec (.registerWrite who (regAt o) data) s = .next t ∧ t.sticky 185 = true ∧ t.rd Reg.RIF_DISCARD_CAUSE = 3 ∧ (who = .mgmt → t.sticky 7 = true) ∧
        t.act = s.act ∧ t.seq = s.seq) ∧
    (s.reaches who false (regBase + off.toNat) 4 = true →
      ∃ t, exec (.registerReadClear who ⟨regAt off, 4⟩ []) s = .next t ∧ { t with regs := s.regs } = s ∧
        s.SameRegs t (fs.filter (fun f => f.ty = .rc) ++
          [Reg.SYS_TIME_HI_TIME, Reg.SEQ_SLUICE_COUNT_HI_COUNT, Reg.SEQ_SLUICE_TIME_HI_TIME, Reg.CAL_LAST_TIME_HI_TIME]) ∧
        (∀ f ∈ fs, f.ty = .rc → t.rd f = 0) ∧
        (off.toNat = 0x1020 → t.rd Reg.SEQ_SLUICE_COUNT_HI_COUNT = s.seq.sluices / 2 ^ 32 % 2 ^ 32)) ∧
    (s.reaches who false (regBase + off.toNat) 1 = true → exec (.registerReadClear who ⟨regAt off, 1⟩ []) s = .next s) ∧
    (∀ (a : BitVec 21) (b : Nat) (f : Fld) (v : W32), a.toNat % 4 = 0 → aliasOf a.toNat = (off.toNat, b) → fieldOfBit off.toNat b = some f →
      (s.reaches who false (aliasBase + a.toNat) 4 = true →
        (f.ty = .rc → ∃ t, exec (.bitAliasRead who a) s = .next t ∧ s.OnlyRegs t [f] ∧ t.bitOf f (b - f.lo) = false ∧
          ∀ i, i < f.w → i ≠ b - f.lo → t.bitOf f i = s.bitOf f i) ∧
        (f.ty ≠ .rc → exec (.bitAliasRead who a) s = .next s)) ∧
      (off.toNat / 0x1000 = 4 ∨ off.toNat / 0x1000 = 5 → s.reaches who true (aliasBase + a.toNat) 4 = true →
        ∃ t, exec (.bitAliasWrite who a v) s = .next t ∧ t.act = s.act ∧
          (f.ty = .rw → f.w = 1 → f.clamp = .none → t.on f = v.getLsbD 0 ∧ s.SameRegs t [f]) ∧
          (f.ty = .ro ∨ f.ty = .rc → t.regs = s.regs)))

/-- R17, R23, R31, R33, R37, R123: COMMIT reads 1 from its write, and one after tick −4 stays for the next sluice; while the first sluice since
STOPPED is awaited, its landing is noted with what stood before it; SEQ_RATE clamps F and then S while
STOPPED, and is refused with FS184 in any other state; a lock-number load stands as value and LOAD; RUN is set where the slot may run or the
sequencer runs still, else it reads 0 with REFUSED and FS109; clearing it gives up a start; a reach reset is requested where none is in
progress, and aborts the reach's calibration. -/
def Obligations.SequencerRequests : Prop :=
  ∀ (s : State) (who : Requester), s.Ready →
    (s.MayWrite who 0x1004 → ∃ t, exec (.commit who) s = .next t ∧ t.on Reg.SEQ_COMMIT_COMMIT = true ∧ s.SameRegs t [Reg.SEQ_COMMIT_COMMIT] ∧
      { t with regs := s.regs } = { s with seq := { s.seq with
        snap := s.seq.snap.map (fun x => { x with again := true })
        recent := if s.seq.first = true then s.seq.recent.filter (fun x => s.within x.time s.now 4) ++
          [{ time := s.now, before := s.takeSnap, commit := true, load := false }] else s.seq.recent } }) ∧
    (s.MayWrite who 0x1008 → ∀ (f : BitVec 8) (sc : BitVec 6),
      (s.seq.state = .stopped → ∀ F, F = clampNat 48 240 f.toNat → ∃ t, exec (.seqRateWrite who f sc) s = .next t ∧ t.F = F ∧
        t.S = clampNat (ceilDiv 120000000 (F * 67584) - 1) (140000000 / (F * 67584) - 1) sc.toNat ∧
        s.OnlyRegs t [Reg.SEQ_RATE_F_NOM, Reg.SEQ_RATE_S]) ∧
      (s.seq.state ≠ .stopped → ∃ t, exec (.seqRateWrite who f sc) s = .next t ∧ t.F = s.F ∧ t.S = s.S ∧ t.sticky 184 = true ∧
        t.rd Reg.RIF_DISCARD_CAUSE = 2)) ∧
    (s.reaches who true (regBase + 0x1034) 8 = true → ∀ v : W32, ∃ t, exec (.lockLoad who v) s = .next t ∧
      t.rd Reg.SEQ_LOCK_NUMBER_SET_VALUE = v.toNat ∧ t.on Reg.SEQ_LOCK_LOAD_LOAD = true ∧
      s.SameRegs t [Reg.SEQ_LOCK_NUMBER_SET_VALUE, Reg.SEQ_LOCK_LOAD_LOAD] ∧ t.act = s.act ∧ t.bas = s.bas) ∧
    (s.MayWrite who 0x1000 →
      (s.on Reg.SEQ_CTRL_RUN = false → s.seq.state = .stopped → s.slotPermits s.startSlot = true →
        ∃ t, exec (.runSet who) s = .next t ∧ t.on Reg.SEQ_CTRL_RUN = true ∧ t.seq.runAt = s.now ∧ t.seq.next = none ∧ t.seq.first = true ∧
          t.seq.state = .stopped ∧ s.SameRegs t [Reg.SEQ_CTRL_RUN, Reg.SEQ_CTRL_SYNC_EDGE, Reg.SEQ_CTRL_FREE_LIGHT]) ∧
      (s.on Reg.SEQ_CTRL_RUN = false → s.seq.state = .stopped → s.slotPermits s.startSlot = false →
        ∃ t, exec (.runSet who) s = .next t ∧ t.on Reg.SEQ_CTRL_RUN = false ∧ t.on Reg.SYS_FLIGHT_STATUS_REFUSED = true ∧ t.sticky 109 = true ∧
          t.seq = s.seq) ∧
      (s.seq.state ≠ .stopped → ∃ t, exec (.runSet who) s = .next t ∧ t.on Reg.SEQ_CTRL_RUN = true ∧ t.seq = s.seq) ∧
      (∃ t, exec (.runClear who) s = .next t ∧ t.on Reg.SEQ_CTRL_RUN = false ∧ t.seq.state = s.seq.state ∧ t.seq.run = s.seq.run ∧
        (s.seq.state = .stopped → t.seq.next = none ∧ t.seq.snap = none) ∧ (s.seq.state ≠ .stopped → t.seq = s.seq))) ∧
    (s.MayWrite who 0x0040 → ∀ m : BitVec 16, ∃ t, exec (.reachReset who m) s = .next t ∧ { t with reach := s.reach, cal := s.cal } = s ∧
      (∀ r : ReachId, t.reachAt r = { s.reachAt r with
        reset := if m.getLsbD r.val = true ∧ (s.reachAt r).reset = .none then .requested else (s.reachAt r).reset }) ∧
      (∀ c, s.cal.run = some c → c.abort = none → t.cal.run = some { c with abort := if m.getLsbD c.reach then some 6 else none }))

/-- R139, R140, R143, R144: READY, CANCEL, RELEASE and RETIRE act as their table says, the first failing condition giving the result and FS116; between
tick −4 of a sluice and the sluice they are held. A placement of a FREE berth is clamped and refused where it overlaps another, a format of one
is clamped; neither changes a berth that is not FREE. -/
def Obligations.BerthCommands : Prop :=
  ∀ (s : State) (who : Requester) (b target : Fin 64), s.Ready →
    (s.MayWrite who 0x3000 →
      (∀ (i : Instr) (w : Nat), s.seq.snap ≠ none →
        (i = .ready who b target ∧ w = 0x10000 + target.val * 256 + b.val ∨ i = .cancel who b ∧ w = 0x20000 + b.val ∨
          i = .release who b ∧ w = 0x40000 + b.val ∨ i = .retire who b ∧ w = 0x80000 + b.val) →
        exec i s = .next { s with seq := { s.seq with heldCmds := s.seq.heldCmds ++ [w] } }) ∧
      (∀ (i : Instr) (r : Nat) (y : Berth), s.seq.snap = none →
        (i = .ready who b target ∧
           ((s.berthAt b).state ≠ .host ∧ r = 1 ∧ y = s.berthAt b ∨
            (s.berthAt b).state = .host ∧ s.berthSize b < s.berthLayer b ∧ r = 4 ∧ y = s.berthAt b ∨
            (s.berthAt b).state = .host ∧ s.berthLayer b ≤ s.berthSize b ∧ s.berthCovered b = false ∧ r = 2 ∧ y = s.berthAt b ∨
            (s.berthAt b).state = .host ∧ s.berthLayer b ≤ s.berthSize b ∧ s.berthCovered b = true ∧
              (∃ o : Fin 64, o ≠ b ∧ (s.berthAt o).state = .ready ∧ (s.berthAt o).home = target.val) ∧ r = 3 ∧ y = s.berthAt b ∨
            (s.berthAt b).state = .host ∧ s.berthLayer b ≤ s.berthSize b ∧ s.berthCovered b = true ∧
              (∀ o : Fin 64, o ≠ b → (s.berthAt o).state = .ready → (s.berthAt o).home ≠ target.val) ∧ r = 0 ∧
              y = { s.berthAt b with state := .ready, home := target, flagged := false }) ∨
         i = .cancel who b ∧
           ((s.berthAt b).state = .ready ∧ r = 0 ∧ y = { s.berthAt b with state := .host, home := 0, flagged := false } ∨
            (s.berthAt b).state = .live ∧ (s.berthAt b).retireMark = true ∧ r = 0 ∧ y = { s.berthAt b with retireMark := false } ∨
            (s.berthAt b).state ≠ .ready ∧ ((s.berthAt b).state ≠ .live ∨ (s.berthAt b).retireMark = false) ∧ r = 1 ∧ y = s.berthAt b) ∨
         i = .release who b ∧
           ((s.berthAt b).state = .host ∧ r = 0 ∧ y = { s.berthAt b with state := .free, covered := [] } ∨
            (s.berthAt b).state = .free ∧ r = 0 ∧ y = s.berthAt b ∨
            (s.berthAt b).state ≠ .host ∧ (s.berthAt b).state ≠ .free ∧ r = 1 ∧ y = s.berthAt b) ∨
         i = .retire who b ∧
           ((s.berthAt b).state = .live ∧ r = 0 ∧ y = { s.berthAt b with retireMark := true } ∨
            (s.berthAt b).state ≠ .live ∧ r = 1 ∧ y = s.berthAt b)) →
        ∃ t, exec i s = .next t ∧ t.berthAt b = y ∧ (∀ o : Fin 64, o ≠ b → t.berthAt o = s.berthAt o) ∧ t.bas.mem = s.bas.mem ∧
          t.rd Reg.BAS_BERTH_RESULT_RESULT = r ∧ t.rd Reg.BAS_BERTH_RESULT_BERTH = b.val ∧ (r ≠ 0 → t.sticky 116 = true) ∧ (r = 0 → t.flt = s.flt))) ∧
    (s.MayWrite who (0x3100 + 16 * b.val) → ∀ (base : BitVec 15) (size : BitVec 16) (n r : Nat), n = min size.toNat (32768 - base.toNat) →
      ((s.berthAt b).state ≠ .free ∧ r = 7 ∨
       (s.berthAt b).state = .free ∧ r = 6 ∧ (∃ o : Fin 64, o ≠ b ∧ overlaps base.toNat n (s.rd (Reg.BAS_BERTH_PLACE_BASE o)) (s.rd (Reg.BAS_BERTH_PLACE_SIZE o)) = true) ∨
       (s.berthAt b).state = .free ∧ r = 0 ∧ (∀ o : Fin 64, o ≠ b → overlaps base.toNat n (s.rd (Reg.BAS_BERTH_PLACE_BASE o)) (s.rd (Reg.BAS_BERTH_PLACE_SIZE o)) = false)) →
      ∃ t, exec (.berthPlace who b base size) s = .next t ∧ t.bas = s.bas ∧ t.rd Reg.BAS_BERTH_RESULT_RESULT = r ∧ (r ≠ 0 → t.sticky 116 = true) ∧
        t.rd (Reg.BAS_BERTH_PLACE_BASE b) = (if r = 0 then base.toNat else s.rd (Reg.BAS_BERTH_PLACE_BASE b)) ∧
        t.rd (Reg.BAS_BERTH_PLACE_SIZE b) = (if r = 0 then n else s.rd (Reg.BAS_BERTH_PLACE_SIZE b))) ∧
    (s.MayWrite who (0x3104 + 16 * b.val) → ∀ (format : BitVec 3) (res : BitVec 2) (r : Nat),
      ((s.berthAt b).state ≠ .free ∧ r = 7 ∨ (s.berthAt b).state = .free ∧ r = 0) →
      ∃ t, exec (.berthFmt who b format res) s = .next t ∧ t.bas = s.bas ∧ t.rd Reg.BAS_BERTH_RESULT_RESULT = r ∧ (r ≠ 0 → t.sticky 116 = true) ∧
        t.rd (Reg.BAS_BERTH_FMT_FORMAT b) = (if r = 0 then min format.toNat 6 else s.rd (Reg.BAS_BERTH_FMT_FORMAT b)) ∧
        t.rd (Reg.BAS_BERTH_FMT_RES b) = (if r = 0 then (if format = 5#3 then 0 else res.toNat) else s.rd (Reg.BAS_BERTH_FMT_RES b)))

/-- R226, R270, R332, R380, R389, R390, R397: SYS_MODE_CTRL makes a warm reset of cause 4, sets the Safe-Dark latch with cause 4 where none
stands, clears it where its cause allows, a running sequencer lighting again only with a later sluice, and else sets REFUSED, and accepts RESUME
only without fences and with FS114 and FS138 not live. CAL_CMD queues its reaches in ascending order but for those queued or running; PEER_CTRL
asks for a resynchronisation; a link is enabled, disabled and retrained; a checkpoint begins, or waits for the write window, unless one is in
progress. -/
def Obligations.ModeAndUnitRequests : Prop :=
  ∀ (s : State) (who : Requester), s.Ready →
    (s.MayWrite who 0x0024 →
      (∃ t, exec (.chipReset who) s = .next t ∧ t.mode.phase = .reset ∧ t.rd Reg.SYS_RESET_CAUSE = 4 ∧ (∀ n, n < 192 → t.sticky n = s.sticky n) ∧
        t.rd Reg.SYS_EPOCH_EPOCH = (s.rd Reg.SYS_EPOCH_EPOCH + 1) % 2 ^ 32 ∧ t.sec.otp = s.sec.otp) ∧
      (s.mode.safeDark = true → exec (.safeDark who) s = .next s) ∧
      (s.mode.safeDark = false → ∃ t, exec (.safeDark who) s = .next t ∧ t.mode = { s.mode with safeDark := true } ∧
        t.rd Reg.SYS_MODE_SD_CAUSE = 4 ∧ s.SameRegs t [Reg.SYS_MODE_SD_CAUSE] ∧ t.lights = false) ∧
      (s.mode.safeDark = false → exec (.clearSafeDark who) s = .next s) ∧
      (s.mode.safeDark = true → ∀ c, c = s.rd Reg.SYS_MODE_SD_CAUSE →
        (c = 4 ∨ c = 1 ∧ (∀ v ∈ s.thm.outs, v < 1600) ∧ (∀ v ∈ s.thm.readings, v < 1600) →
          ∃ t, exec (.clearSafeDark who) s = .next t ∧ t.mode = { s.mode with safeDark := false, relight := b2n s.running } ∧
            t.rd Reg.SYS_MODE_SD_CAUSE = 0 ∧ t.live 145 = false ∧ (s.running = true → t.lights = false)) ∧
        (c = 2 ∨ c = 3 ∨ c = 1 ∧ (∃ v ∈ s.thm.outs, 1600 ≤ v) → ∃ t, exec (.clearSafeDark who) s = .next t ∧ s.OnlyRegs t [Reg.SYS_MODE_EVENT_REFUSED] ∧
          t.on Reg.SYS_MODE_EVENT_REFUSED = true)) ∧
      (s.rd Reg.FLT_FENCE_REACH = 0 → s.rd Reg.FLT_FENCE_CHAMBER = 0 → s.live 114 = false → s.live 138 = false →
        exec (.resume who) s = .next { s with mode := { s.mode with resume := true } }) ∧
      (s.rd Reg.FLT_FENCE_REACH ≠ 0 ∨ s.live 114 = true ∨ s.live 138 = true → ∃ t, exec (.resume who) s = .next t ∧
        s.OnlyRegs t [Reg.SYS_MODE_EVENT_REFUSED] ∧ t.on Reg.SYS_MODE_EVENT_REFUSED = true)) ∧
    (s.MayWrite who 0x7004 → ∀ m : BitVec 16, ∃ t, exec (.calCmd who m) s = .next t ∧ { t with regs := s.regs, cal := s.cal } = s ∧ t.cal.run = s.cal.run ∧
      t.cal.queue = s.cal.queue ++ (List.range 16).filter (fun r => m.getLsbD r && !s.cal.queue.contains r && s.calReach != some r)) ∧
    (s.MayWrite who 0x9004 → (s.resyncing = true → exec (.peerCtrlResync who) s = .next s) ∧
      (s.resyncing = false → exec (.peerCtrlResync who) s = .next { s with peer := { s.peer with wanted := true } })) ∧
    (∀ l : LinkId, s.MayWrite who (0x8000 + 256 * l.num) →
      (∃ t, exec (.linkEnable who l false) s = .next t ∧ t.rd (Reg.LNK_STATUS_STATE l.num) = 0 ∧ t.on (Reg.LNK_CTRL_EN l.num) = false) ∧
      (∃ t, exec (.linkEnable who l true) s = .next t ∧ t.on (Reg.LNK_CTRL_EN l.num) = true ∧
        (s.rd (Reg.LNK_STATUS_STATE l.num) = 0 → s.linksEnabled l = true → s.flt.inReset = [] → t.rd (Reg.LNK_STATUS_STATE l.num) = 1)) ∧
      (s.rd (Reg.LNK_CTRL_EN l.num) = 1 → s.linkUp l = true → s.on (Reg.FLT_REACT_BR (l.source 32)) = false → ∃ t, exec (.retrain who l) s = .next t ∧ t.rd (Reg.LNK_STATUS_STATE l.num) = 7 ∧
        (t.linkAt l).only25 = false)) ∧
    (s.MayWrite who 0xC000 →
      ((s.nand.jobs.any (fun j => j.kind = .checkpoint)) = true ∨ s.nandReady = false → ∃ t, exec (.nfcCheckpoint who) s = .next t ∧ t.nand = s.nand) ∧
      ((s.nand.jobs.any (fun j => j.kind = .checkpoint)) = false → s.nandReady = true → s.nandWindow = true →
        ∃ t, exec (.nfcCheckpoint who) s = .next t ∧ t.nand = { s.nand with jobs := s.nand.jobs ++ [s.checkpointJob] } ∧ t.on Reg.NFC_STATUS_CKPT_BUSY = true) ∧
      ((s.nand.jobs.any (fun j => j.kind = .checkpoint)) = false → s.nandReady = true → s.nandWindow = false →
        s.nand.deferred.any (fun j => j.kind = .checkpoint) = false → s.nand.deferred.length < 64 → s.nand.staged ≤ 1048576 →
        s.live 166 = true ∨ s.on (Reg.FLT_REACT_BR 166) = false →
        ∃ t, exec (.nfcCheckpoint who) s = .next t ∧ t.nand = { s.nand with deferred := s.nand.deferred ++ [s.checkpointJob] }))

/-- R171, R172, R416, R417, R418: an aligned word of the user plane that is not refused lands in the trim store, byte by byte; any other write lands
nothing, with its cause and offset in TRM_REFUSE and FS132. A sweep reports each block's CRC and the whole, counts, and is latched where a
COMMIT is pending, compared where EN is 1 and HOLD 0: a second mismatch in a row makes FS180 live, a match ends it. -/
def Obligations.TrimStoreAndConfigurationCrc : Prop :=
  ∀ (s : State) (who : Requester), s.Ready →
    (∀ (off : BitVec 23) (data : List Byte),
      (∀ c, off.toNat % 4 ≠ 0 ∧ c = 3 ∨ off.toNat % 4 = 0 ∧ data.length = 4 ∧ s.trimRefusal off.toNat = some c →
        ∃ t, exec (.trimStoreWrite off data) s = .next t ∧ t.trim = s.trim ∧ t.sticky 132 = true ∧ t.rd Reg.TRM_REFUSE_CAUSE = c ∧
          t.rd Reg.TRM_REFUSE_OFFSET = off.toNat) ∧
      (off.toNat % 4 = 0 → data.length = 4 → s.trimRefusal off.toNat = none →
        ∃ t, exec (.trimStoreWrite off data) s = .next t ∧ t.regs = s.regs ∧
          (∀ i, i < 4 → t.ts (off.toNat + i) = leAt data i 1 % trimMask (off.toNat + i)) ∧
          (∀ a, a < off.toNat ∨ off.toNat + 4 ≤ a → t.ts a = s.ts a) ∧ off.toNat / 8 ∉ t.trim.failed)) ∧
    (s.MayWrite who 0xE000 →
      (∃ t, exec (.crcCommit who) s = .next t ∧ t.rif.latch = true ∧ t.on Reg.RIF_CRC_STATUS_PENDING = true) ∧
      (∀ on : Bool, ∃ t, exec (.crcHold who on) s = .next t ∧ t.on Reg.RIF_CRC_CTRL_HOLD = on ∧ (on = true → t.rif.holdSweeps = 0)) ∧
      (∃ t, exec (.crcEn who) s = .next t ∧ t.on Reg.RIF_CRC_CTRL_EN = true)) ∧
    (s.on Reg.RIF_CRC_CTRL_HOLD = true → 16384 ≤ s.rif.holdSweeps →
      exec .holdExpire s = .next (State.put { s with rif := { s.rif with holdSweeps := 0 } } Reg.RIF_CRC_CTRL_HOLD 0)) ∧
    (s.on Reg.RIF_CRC_CTRL_HOLD = false ∨ s.rif.holdSweeps < 16384 → exec .holdExpire s = .next s) ∧
    (∀ crc, crc = crc32c ((List.range 16).flatMap s.cfgBytes) →
      ∃ t, exec .crcSweep s = .next t ∧ t.rd Reg.RIF_CRC_LIVE_CRC = crc % 2 ^ 32 ∧ t.rd Reg.RIF_CRC_SWEEPS_COUNT = (s.rd Reg.RIF_CRC_SWEEPS_COUNT + 1) % 2 ^ 32 ∧
        (∀ b, b < 16 → t.rd (Reg.RIF_BLOCK_CRC_CRC b) = crc32c (s.cfgBytes b) % 2 ^ 32) ∧
        (s.rif.latch = true → t.rd Reg.RIF_CRC_REF_CRC = crc % 2 ^ 32 ∧ t.rif.latch = false ∧ t.on Reg.RIF_CRC_STATUS_PENDING = false ∧ t.flt = s.flt) ∧
        (s.rif.latch = false → s.on Reg.RIF_CRC_CTRL_EN = true → s.on Reg.RIF_CRC_CTRL_HOLD = false →
          (crc = s.rd Reg.RIF_CRC_REF_CRC → t.on Reg.RIF_CRC_STATUS_MISMATCH = false ∧ t.live 180 = false ∧ t.rif.lastMismatch = some false) ∧
          (crc ≠ s.rd Reg.RIF_CRC_REF_CRC → t.on Reg.RIF_CRC_STATUS_MISMATCH = true ∧ t.rif.lastMismatch = some true ∧
            (s.rif.lastMismatch = some true → t.live 180 = true) ∧ (s.rif.lastMismatch ≠ some true → t.live 180 = s.live 180))) ∧
        (s.rif.latch = false → s.on Reg.RIF_CRC_CTRL_EN = false ∨ s.on Reg.RIF_CRC_CTRL_HOLD = true → t.rif.lastMismatch = none ∧ t.flt = s.flt))

/-- R423, R424, R427: a backward write of TAIL, CPL_READ or WHF_TELEM_READ is ignored and a forward one clamped; the device starts a command that is
placed, whose completion has room, and with none executing on its pair: it executes from then on, or completes with SEQUENCE, OPCODE, DENIED or
ARGUMENT. A telemetry record is written at its slot, the count of those lost rising where it overwrites one not yet read. -/
def Obligations.WharfPointers : Prop :=
  ∀ (s : State) (who : Requester) (p : Pair) (v : W32), s.Ready →
    (s.MayWrite who (0xF000 + 32 * p.num) → ∀ d room, d = seqSub v.toNat (s.rd (Reg.WHF_CMD_TAIL_SEQ p.num)) → room = s.rd (Reg.WHF_CPL_READ_SEQ p.num) →
      (2 ^ 31 ≤ d → exec (.whfCmdTail who p v) s = .next s) ∧
      (d < 2 ^ 31 → ∃ t, exec (.whfCmdTail who p v) s = .next t ∧ s.OnlyRegs t [Reg.WHF_CMD_TAIL_SEQ p.num] ∧
        t.rd (Reg.WHF_CMD_TAIL_SEQ p.num) = if seqSub v.toNat room ≤ p.slots then v.toNat else (room + p.slots) % 2 ^ 32)) ∧
    (s.MayWrite who (0xF00C + 32 * p.num) → ∀ d next, d = seqSub v.toNat (s.rd (Reg.WHF_CPL_READ_SEQ p.num)) → next = s.rd (Reg.WHF_CPL_NEXT_SEQ p.num) →
      (2 ^ 31 ≤ d → exec (.whfCplRead who p v) s = .next s) ∧
      (d < 2 ^ 31 → ∃ t, exec (.whfCplRead who p v) s = .next t ∧ s.OnlyRegs t [Reg.WHF_CPL_READ_SEQ p.num] ∧
        t.rd (Reg.WHF_CPL_READ_SEQ p.num) = if d ≤ seqSub next (s.rd (Reg.WHF_CPL_READ_SEQ p.num)) then v.toNat else next % 2 ^ 32)) ∧
    (s.MayWrite who 0xF048 → ∀ d next, d = seqSub v.toNat (s.rd Reg.WHF_TELEM_READ_SEQ) → next = s.rd Reg.WHF_TELEM_NEXT_SEQ →
      (2 ^ 31 ≤ d → exec (.whfTelemRead who v) s = .next s) ∧
      (d < 2 ^ 31 → ∃ t, exec (.whfTelemRead who v) s = .next t ∧ s.OnlyRegs t [Reg.WHF_TELEM_READ_SEQ] ∧
        t.rd Reg.WHF_TELEM_READ_SEQ = if d ≤ seqSub next (s.rd Reg.WHF_TELEM_READ_SEQ) then v.toNat else next % 2 ^ 32)) ∧
    (s.mayStart p = false ∨ s.wharfServed = false → exec (.commandStart p) s = .next s) ∧
    (s.mayStart p = true → s.wharfServed = true → ∀ q slot op, q = s.rd (Reg.WHF_CMD_NEXT_SEQ p.num) → slot = p.cmdRing + q % p.slots * 64 →
      op = leAt (s.bas.bytes (slot + 4) 2) 0 2 →
      ∃ t, exec (.commandStart p) s = .next t ∧ t.rd (Reg.WHF_CMD_NEXT_SEQ p.num) = (q + 1) % 2 ^ 32 ∧ t.rd (Reg.WHF_STATUS_OPCODE p.num) = op ∧
        (leAt (s.bas.bytes slot 4) 0 4 ≠ q → t.pairBusy p = false ∧ t.rd (Reg.WHF_STATUS_LAST_STATUS p.num) = 9) ∧
        (leAt (s.bas.bytes slot 4) 0 4 = q →
          (op ∉ openOpcodes → op ∉ sessionOpcodes → t.pairBusy p = false ∧ t.rd (Reg.WHF_STATUS_LAST_STATUS p.num) = 10) ∧
          (op ∈ sessionOpcodes → p = .openPair ∨ s.sec.host = none → t.pairBusy p = false ∧ t.rd (Reg.WHF_STATUS_LAST_STATUS p.num) = 3) ∧
          (op ∈ openOpcodes ∨ op ∈ sessionOpcodes ∧ p = .session ∧ s.sec.host ≠ none → s.recovery = false →
            (leAt (s.bas.bytes (slot + 6) 2) 0 2 ≠ 0 → t.pairBusy p = false ∧ t.rd (Reg.WHF_STATUS_LAST_STATUS p.num) = 11) ∧
            (leAt (s.bas.bytes (slot + 6) 2) 0 2 = 0 → t.executing p op = true ∧ t.rd (Reg.WHF_EXEC_SEQ p.num) = q % 2 ^ 32 ∧
              t.bas = { s.bas with failed := s.bas.failed.filter (· ≠ .nand) })))) ∧
    (s.mode.phase ≠ .running ∨ s.on Reg.WHF_TELEM_CFG_EN = false → exec .telemetryRecord s = .next s) ∧
    (s.mode.phase = .running → s.on Reg.WHF_TELEM_CFG_EN = true → ∀ q, q = s.rd Reg.WHF_TELEM_NEXT_SEQ →
      (s.cycling = true → s.seq.sluices ≠ s.rif.telemSluices → s.seq.sluices < s.rif.telemSluices + s.rd Reg.WHF_TELEM_CFG_PERIOD →
        exec .telemetryRecord s = .next s) ∧
      (s.cycling = false → s.now < s.rif.telemAt + 1000000000 → exec .telemetryRecord s = .next s) ∧
      (s.cycling = true ∧ s.seq.sluices ≠ s.rif.telemSluices ∧ s.rif.telemSluices + s.rd Reg.WHF_TELEM_CFG_PERIOD ≤ s.seq.sluices ∨
          (s.cycling = false ∨ s.seq.sluices = s.rif.telemSluices) ∧ s.rif.telemAt + 1000000000 ≤ s.now →
      ∃ t, exec .telemetryRecord s = .next t ∧ t.rd Reg.WHF_TELEM_NEXT_SEQ = (q + 1) % 2 ^ 32 ∧ t.on Reg.WHF_EVENT_TELEM = true ∧
        t.rif.telemAt = s.now ∧ t.rif.telemSluices = s.seq.sluices ∧
        t.rd Reg.WHF_TELEM_LOST_COUNT = (if 1024 ≤ seqSub q (s.rd Reg.WHF_TELEM_READ_SEQ) then min (2 ^ 32 - 1) (s.rd Reg.WHF_TELEM_LOST_COUNT + 1)
          else s.rd Reg.WHF_TELEM_LOST_COUNT) ∧
        ∃ bs : List Byte, bs.length = 64 ∧ leAt bs 0 4 = q % 2 ^ 32 ∧ leAt bs 4 4 = s.rd Reg.SYS_EPOCH_EPOCH % 2 ^ 32 ∧ leAt bs 16 4 = s.seq.sluices % 2 ^ 32 ∧
          leAt bs 40 4 = s.fltTop % 2 ^ 32 ∧ t.bas = s.bas.write (0x1FF0000 + q % 1024 * 64) bs))

/-! ## The wharf commands (R337, R342, R346, R352, R355-R362, R422-R426) -/

/-- R252, R363, R423, R424, R425: a command's row does nothing where its pair is not executing that command, and completes with RESET while the block
that serves it is in reset, with ERROR while the security engine that serves it is disabled, and with ARGUMENT where an argument byte beyond its
own is not 0. A completion is an entry of 32 bytes in the pair's ring; CPL_NEXT moves on, the pair is free, the failures are counted. -/
def Obligations.WharfCompletions : Prop :=
  (∀ (s : State) (i : Instr) (p : Pair) (op : Nat), s.Ready → wharfCommand i = some (p, op) →
    (s.executing p op = false → exec i s = .next s) ∧
    (s.executing p op = true →
      (s.servingReset op → exec i s = .next (s.status p 4)) ∧
      (¬ s.servingReset op →
        (s.sec.engineOff = true → securityServed op = true → exec i s = .next (s.status p 2)) ∧
        (s.sec.engineOff = false ∨ securityServed op = false → allZero ((s.args p).drop (s.argsUsed op)) = false →
          exec i s = .next (s.fails p 11 0 (if op = 0x16 then [15] else [])))))) ∧
  (∀ (s t : State) (p : Pair) (code detail length q n : Nat) (result : List Byte), code < 256 → t = s.complete p code detail length result →
    q = s.rd (Reg.WHF_EXEC_SEQ p.num) → n = s.rd (Reg.WHF_FAILED_COUNT p.num) →
    t.Ended p code ∧ t.rd (Reg.WHF_CPL_NEXT_SEQ p.num) = (s.rd (Reg.WHF_CPL_NEXT_SEQ p.num) + 1) % 2 ^ 32 ∧
    t.rd (Reg.WHF_FAILED_COUNT p.num) = (if code = 0 ∨ code = 6 then n else min (2 ^ 32 - 1) (n + 1)) ∧
    (code = 9 → t.on Reg.WHF_EVENT_SEQUENCE = true) ∧
    t.on (if p = .openPair then Reg.WHF_EVENT_CPL_OPEN else Reg.WHF_EVENT_CPL_SESSION) = true ∧
    t.bas = s.bas.write (p.cplRing + q % p.slots * 32)
      (leBytes q 4 ++ leBytes (s.rd (Reg.WHF_STATUS_OPCODE p.num)) 2 ++ leBytes code 1 ++ [0#8] ++ leBytes detail 4 ++ leBytes length 4 ++
        (result ++ List.replicate 16 0#8).take 16) ∧
    { t with regs := s.regs, bas := s.bas, rif := s.rif } = s ∧
    s.SameRegs t [Reg.WHF_CPL_NEXT_SEQ p.num, Reg.WHF_STATUS_BUSY p.num, Reg.WHF_STATUS_LAST_STATUS p.num, Reg.WHF_FAILED_COUNT p.num,
      Reg.WHF_EVENT_SEQUENCE, Reg.WHF_EVENT_CPL_OPEN, Reg.WHF_EVENT_CPL_SESSION, Reg.RIF_MSG_COUNT_COUNT])

/-- R337, R355, R361, R363: GET_IDENTITY returns the identity record, ERROR where there is none; CHALLENGE a fresh 32 B challenge, which replaces the
current one; QUOTE the quote over the nonce with its signature, NO_IDENTITY where K0 is empty. An output that its reference cannot take is
an ARGUMENT error. The digest of the key table in a quote, and the challenge, are free values (log entry 27). -/
def Obligations.IdentityChallengeQuote : Prop :=
  ∀ (s : State) (p : Pair), s.Ready →
    (s.Serves p 0x01 →
      (s.nand.part = none ∨ s.nand.identity = [] → exec (.getIdentity p) s = .next (s.status p 2)) ∧
      (s.nand.part ≠ none → s.nand.identity ≠ [] →
        (s.canOutput p 0 s.nand.identity.length = false → exec (.getIdentity p) s = .next (s.status p 11)) ∧
        (∀ a len, s.dataRef p 0 = some (a, len) → s.nand.identity.length ≤ len →
          exec (.getIdentity p) s = .next ((s.basWrite a s.nand.identity).complete p 0 0 s.nand.identity.length [])))) ∧
    (s.Serves p 0x02 →
      (s.canOutput p 0 32 = false → exec (.challenge p) s = .next (s.status p 11)) ∧
      (s.canOutput p 0 32 = true → s.entropyOk = false → exec (.challenge p) s = .next (s.status p 8)) ∧
      (∀ a len, s.dataRef p 0 = some (a, len) → 32 ≤ len → s.entropyOk = true → ∃ c : List Byte, c.length = 32 ∧
        exec (.challenge p) s =
          .next ((State.basWrite { s with fresh := s.fresh + 1, sec := { s.sec with challenge := some c } } a c).complete p 0 0 32 []))) ∧
    (s.Serves p 0x03 →
      (s.canOutput p 32 256 = false → exec (.quote p) s = .next (s.status p 11)) ∧
      (s.canOutput p 32 256 = true → s.sec.idKey = none → exec (.quote p) s = .next (s.status p 7)) ∧
      (∀ a len k, s.dataRef p 32 = some (a, len) → 256 ≤ len → s.sec.idKey = some k → ∃ keys n, keys.length = 32 ∧
        ∀ body bytes, body = s.quoteBody ((s.args p).take 32) keys → bytes = body ++ Config.ecdsaSign k (Config.sha256 body) n → bytes.length ≤ len →
          exec (.quote p) s = .next ((State.basWrite { s with fresh := s.fresh + 2 } a bytes).complete p 0 0 bytes.length [])))

/-- R357, R358: SESSION_HELLO with a certificate that the key table would take and that has PERM.HOST answers REPLY, and the handshake goes on;
SESSION_FINISH with its key's signature over TH2 derives the keys, replaces a session that exists and completes with DONE. A failure at
either ends the handshake with DENIED and FS017. SESSION_CLOSE ends the session at its completion. -/
def Obligations.HostSession : Prop :=
  ∀ (s : State) (p : Pair), s.Ready →
    (∀ hello, s.Serves p 0x10 → s.Input p 0 hello →
      (s.canOutput p 8 336 = false → exec (.sessionHello p) s = .next (s.status p 11)) ∧
      (s.canOutput p 8 336 = true → s.sec.idKey = none → exec (.sessionHello p) s = .next (s.status p 7)) ∧
      (s.canOutput p 8 336 = true → s.sec.idKey ≠ none → s.entropyOk = false → exec (.sessionHello p) s = .next (s.status p 8)) ∧
      (∀ k i c, s.canOutput p 8 336 = true → s.sec.idKey = some k → s.entropyOk = true → s.certOk (hello.drop 80) = some (i, c) → hello.length = 240 →
        c.perm.testBit permHost = true → ∃ nd : List Byte, nd.length = 16 ∧ ∀ body reply : List Byte,
          body = Config.ephemeral s.fresh ++ nd ++ s.nand.identity →
          reply = body ++ Config.ecdsaSign k (Config.sha256 (hello ++ body)) (s.fresh + 2) →
          ∀ h : Handshake, h = { hello := hello, reply := reply, key := c.key, shared := Config.ecdh s.fresh (hello.take 64), own := 0 } →
            exec (.sessionHello p) s =
              .next (State.output { s with fresh := s.fresh + 3, sec := { s.sec with hostHs := some h } } p 8 reply)) ∧
      (s.canOutput p 8 336 = true → s.sec.idKey ≠ none → s.entropyOk = true →
        s.certOk (hello.drop 80) = none ∨ hello.length ≠ 240 ∨ (∀ i c, s.certOk (hello.drop 80) = some (i, c) → c.perm.testBit permHost = false) →
        ∃ t, exec (.sessionHello p) s = .next t ∧ t.sec.hostHs = none ∧ t.sticky 17 = true ∧ t.Ended p 3)) ∧
    (∀ sig, s.Serves p 0x11 → s.Input p 0 sig →
      (∀ h, s.sec.hostHs = some h → sig.length = 64 → Config.ecdsaVerifies h.key h.th2 sig = true →
        ∃ t, exec (.sessionFinish p) s = .next t ∧ t.Ended p 0 ∧ t.sec.hostHs = none ∧ t.sec.hostKey = h.key ∧
          t.sec.host = some (sessionKeys h.shared h.salt (labelHost ++ h.th2) false) ∧ t.on Reg.SEC_STATUS_HOST_SESSION = true ∧
          t.on Reg.SEC_EVENT_SESSION = true ∧ t.on (Reg.LNK_STATUS_SESSION 0) = true ∧
          (s.sec.host ≠ none → t.on (Reg.LNK_EVENT_SESSION_END 0) = true) ∧ t.flt = s.flt) ∧
      ((∀ h, s.sec.hostHs = some h → sig.length ≠ 64 ∨ Config.ecdsaVerifies h.key h.th2 sig = false) →
        ∃ t, exec (.sessionFinish p) s = .next t ∧ t.sec.hostHs = none ∧ t.sticky 17 = true ∧ t.Ended p 3)) ∧
    (s.Serves .session 0x12 → s.sec.host ≠ none →
      ∃ t, exec .sessionClose s = .next t ∧ t.Ended .session 0 ∧ t.sec = { s.sec with host := none, hostKey := [] } ∧
        t.on Reg.SEC_STATUS_HOST_SESSION = false ∧ t.on (Reg.LNK_STATUS_SESSION 0) = false ∧ t.on (Reg.LNK_EVENT_SESSION_END 0) = true)

/-- R276, R358, R359: PEER_MSG carries the handshake of the pair: HELLO from the initiator, REPLY, FINISH and DONE, each only where the twin's
identity record verifies and names the serial that the pairing record gives; the keys of the peer session are derived with the label QSL-PEER, by
the initiator as it answers the REPLY, from when on it accepts what the responder encrypts. Without a
pairing or a running peer link, with a bad signature or at the wrong end it is DENIED with FS017. The messages' lengths and the empty
first input are the model's (log entry 24). -/
def Obligations.PeerSession : Prop :=
  ∀ (s : State) (m : List Byte), s.Ready → s.Serves .session 0x13 → s.Input .session 0 m →
    (s.canOutput .session 8 336 = false → exec .peerMsg s = .next (s.status .session 11)) ∧
    (s.canOutput .session 8 336 = true →
      (s.sec.idKey = none → exec .peerMsg s = .next (s.status .session 7)) ∧
      (s.sec.idKey ≠ none → s.entropyOk = false → exec .peerMsg s = .next (s.status .session 8)) ∧
      (∀ k, s.sec.idKey = some k → s.entropyOk = true →
        (s.peerMaySet = true →
          (m = [] → s.peerInitiator = true → ∃ nonce : List Byte, nonce.length = 16 ∧ ∀ (hello : List Byte) (h : Handshake),
            hello = Config.ephemeral s.fresh ++ nonce ++ s.nand.identity →
            h = { hello := hello, reply := [], key := [], shared := [], own := s.fresh } →
            exec .peerMsg s =
              .next (State.output { s with fresh := s.fresh + 2, sec := { s.sec with peerHs := some h, peerKeys := none } } .session 8 hello)) ∧
          (∀ twin, m.length = 272 → s.peerInitiator = false → s.identityOk (m.drop 80) s.twinSerial = some twin →
            ∃ nd : List Byte, nd.length = 16 ∧ ∀ body reply, body = Config.ephemeral s.fresh ++ nd ++ s.nand.identity →
              reply = body ++ Config.ecdsaSign k (Config.sha256 (m ++ body)) (s.fresh + 2) →
              ∀ h : Handshake, h = { hello := m, reply := reply, key := twin, shared := Config.ecdh s.fresh (m.take 64), own := 0 } →
                exec .peerMsg s =
                  .next (State.output { s with fresh := s.fresh + 3, sec := { s.sec with peerHs := some h } } .session 8 reply)) ∧
          (∀ h twin, m.length = 336 → s.peerInitiator = true → s.sec.peerHs = some h → h.reply = [] →
            s.identityOk ((m.drop 80).take 192) s.twinSerial = some twin →
            Config.ecdsaVerifies twin (Config.sha256 (h.hello ++ m.take 272)) (m.drop 272) = true →
            ∀ h' keys, h' = { h with reply := m, key := twin, shared := Config.ecdh h.own (m.take 64) } →
              keys = sessionKeys h'.shared h'.salt (labelPeer ++ h'.th2) true →
              ∃ u : State, u.sec = { s.sec with peerHs := some h', peerKeys := some keys } ∧ { u with sec := s.sec, link := s.link, fresh := s.fresh } = s ∧
                u.fresh = s.fresh + 1 ∧ u.linkAt .host = s.linkAt .host ∧
                u.linkAt .peer = (if s.sec.peer = none then { s.linkAt .peer with rxCount := 0 } else s.linkAt .peer) ∧
                exec .peerMsg s = .next (u.output .session 8 (Config.ecdsaSign k h'.th2 s.fresh))) ∧
          (∀ h, s.sec.peerHs = some h → h.reply ≠ [] →
            m.length = 64 ∧ s.peerInitiator = false ∧ Config.ecdsaVerifies h.key h.th2 m = true ∨ m = [0#8] ∧ s.peerInitiator = true →
            ∃ t, exec .peerMsg s = .next t ∧ t.sec.peerHs = none ∧ t.Ended .session 0 ∧ t.on Reg.SEC_STATUS_PEER_SESSION = true ∧
              t.on (Reg.LNK_STATUS_SESSION 1) = true ∧ t.flt = s.flt ∧
              t.sec.peer = some (sessionKeys h.shared h.salt (labelPeer ++ h.th2) s.peerInitiator))) ∧
        (s.peerMaySet = false ∨ m.length ∉ [0, 1, 64, 272, 336] ∨ m.length ∈ [0, 1, 336] ∧ s.peerInitiator = false ∨
            m.length ∈ [64, 272] ∧ s.peerInitiator = true ∨ m.length ∈ [1, 64, 336] ∧ s.sec.peerHs = none ∨
            m.length = 272 ∧ s.identityOk (m.drop 80) s.twinSerial = none ∨
            m.length = 336 ∧ s.identityOk ((m.drop 80).take 192) s.twinSerial = none ∨
            (∃ h, m.length = 64 ∧ s.sec.peerHs = some h ∧ Config.ecdsaVerifies h.key h.th2 m = false) →
          ∃ t, exec .peerMsg s = .next t ∧ t.sec.peerHs = none ∧ t.sticky 17 = true ∧ t.Ended .session 3)))

/-- R342, R359, R360: PAIR_SET and CERT_SET install a record that checks and has a higher VERSION than the one held; one that does not check is an ERROR
with FS016, one of no higher VERSION is DENIED (log entry 13). A certificate with PERM 0 empties its entry, and the host session ends when its
key has left the table. TG_KEY_SET loads K6 where the signer may sign telegram keys; refused, it raises FS015 and leaves K6. -/
def Obligations.KeysInstalled : Prop :=
  ∀ (s : State) (bs : List Byte), s.Ready → s.Input .session 0 bs →
    (s.Serves .session 0x14 →
      (s.pairingOk bs = false → ∃ t, exec .pairSet s = .next t ∧ t.sec.pairing = s.sec.pairing ∧ t.sticky 16 = true ∧ t.Ended .session 2) ∧
      (∀ q, s.pairingOk bs = true → s.sec.pairing = some q → leAt bs 36 4 ≤ leAt q 36 4 → exec .pairSet s = .next (s.status .session 3)) ∧
      (s.pairingOk bs = true → (∀ q, s.sec.pairing = some q → leAt q 36 4 < leAt bs 36 4) →
        exec .pairSet s = .next (State.status { s with sec := { s.sec with pairing := some bs } } .session 0))) ∧
    (s.Serves .session 0x15 →
      (s.certOk bs = none → ∃ t, exec .certSet s = .next t ∧ t.sec.deleg = s.sec.deleg ∧ t.sticky 16 = true ∧ t.Ended .session 2) ∧
      (∀ i c, s.certOk bs = some (i, c) →
        (∀ d, s.delegated i = some d → c.version ≤ d.version → exec .certSet s = .next (s.status .session 3)) ∧
        ((∀ d, s.delegated i = some d → d.version < c.version) →
          ∃ t, exec .certSet s = .next t ∧ t.Ended .session 0 ∧
            (∀ j : Fin 16, t.sec.deleg[j] = if j.val = i then (if c.perm = 0 then none else some c) else s.sec.deleg[j]) ∧
            (s.hostKeyHeld = true → (∀ (j : Fin 16) (d : Cert), t.sec.deleg[j] = some d → d.key ≠ s.sec.hostKey) → t.sec.host = none) ∧
            (s.hostKeyHeld = false → s.on (Reg.FLT_REACT_BR 18) = false → t.sec.host = s.sec.host)))) ∧
    (s.Serves .session 0x16 →
      (bs.length ≠ 97 → exec .tgKeySet s = .next (s.fails .session 11 0 [15])) ∧
      (bs.length = 97 → s.sec.k1 = false → exec .tgKeySet s = .next (s.status .session 7)) ∧
      (bs.length = 97 → s.sec.k1 = true → s.entropyOk = false → exec .tgKeySet s = .next (s.status .session 8)) ∧
      (bs.length = 97 → s.sec.k1 = true → s.entropyOk = true →
        (∀ k, (s.signer (leAt bs 32 1) permTelegram).1 = some k → sigOk k (bs.take 32 ++ s.serial) (bs.drop 33) = true →
          exec .tgKeySet s = .next (State.status { s with fresh := s.fresh + 1, sec := { s.sec with tgKey := some (bs.take 32) } } .session 0)) ∧
        ((∀ k, (s.signer (leAt bs 32 1) permTelegram).1 = some k → sigOk k (bs.take 32 ++ s.serial) (bs.drop 33) = false) →
          ∃ t, exec .tgKeySet s = .next t ∧ t.sec.tgKey = s.sec.tgKey ∧ t.sticky 15 = true ∧ t.Ended .session 3)))

/-- R242, R339, R355, R356, R362: INSTALL_ROOT programs the lowest free slot's hash and WRITTEN, REVOKE_ROOT a usable slot's REVOKED while another is
usable, both in Provision and inside the OTP's temperature window, with FS021, and an installed key goes into a new BACKUP generation; a command
whose conditions fail is DENIED and changes no OTP bit, and a bit that does not take is FS014 and an ERROR. That programming which the die
temperature aborts ends with TEMPERATURE is the model's choice (log entry 13). PROVISION_END is a warm reset of cause 4. REPROVISION sets the
latch on a valid token where the policy allows it; DEBUG_UNLOCK opens debug at the token's scope; both spend the challenge. -/
def Obligations.Provisioning : Prop :=
  ∀ (s : State) (p : Pair) (bs : List Byte), s.Ready →
    (∀ otp : OtpRun, s.Serves p 0x20 → s.Input p 0 bs →
      (bs.length ≠ 128 → exec (.installRoot p otp) s = .next (s.status p 11)) ∧
      (bs.length = 128 →
        (s.modeOf ≠ .provision ∨ s.freeOwnerSlot = none ∨ s.sec.challenge = none ∨
            (∀ c, s.sec.challenge = some c → sigOk (bs.take 64) (bs.take 64 ++ s.serial ++ c) (bs.drop 64) = false) →
          exec (.installRoot p otp) s = .next (s.status p 3)) ∧
        (∀ i c, s.modeOf = .provision → s.freeOwnerSlot = some i → s.sec.challenge = some c →
            sigOk (bs.take 64) (bs.take 64 ++ s.serial ++ c) (bs.drop 64) = true →
          (s.on Reg.THM_STATUS_OTP_OK = false → exec (.installRoot p otp) s = .next (s.status p 5)) ∧
          (s.on Reg.THM_STATUS_OTP_OK = true → ∀ ones, ones = onesOf (0x60 + 32 * i) (Config.sha256 (bs.take 64)) ++ [(0xE0 + i) * 8] →
            (otp = .takes → ∃ t, exec (.installRoot p otp) s = .next t ∧ t.sec.otp = ones.foldl otpSet s.sec.otp ∧ t.slotWritten i = true ∧
              t.sec.roots[i]? = some (some (bs.take 64)) ∧ t.sec.challenge = none ∧ t.sticky 21 = true ∧ t.on Reg.SEC_EVENT_PROVISION = true ∧
              t.Ended p 0 ∧ t.rd Reg.SEC_STATUS_WRITTEN = slotMask t.slotWritten ∧
              (s.nandReady = true → 8 ≤ s.nand.free.length → s.nandWindow = true →
                t.nand = { s.nand with jobs := s.nand.jobs ++ [NJob.backup none] })) ∧
            (∀ k, otp = .fails k ∨ otp = .aborts k → k < ones.length → ∃ t, exec (.installRoot p otp) s = .next t ∧
              t.sec.otp = (ones.take k).foldl otpSet s.sec.otp ∧ t.sec.roots = s.sec.roots ∧ t.nand = s.nand ∧
              (otp = .fails k → t.sticky 14 = true ∧ t.Ended p 2) ∧ (otp = .aborts k → t.sticky 14 = s.sticky 14 ∧ t.Ended p 5)))))) ∧
    (∀ (otp : OtpRun) (i : Nat), s.Serves p 0x21 → i = s.arg p 0 1 →
      (4 ≤ i → exec (.revokeRoot p otp) s = .next (s.status p 11)) ∧
      (i < 4 → s.modeOf ≠ .provision ∨ s.slotUsable i = false ∨ (∀ j, j < 4 → j ≠ i → s.slotUsable j = false) →
        exec (.revokeRoot p otp) s = .next (s.status p 3)) ∧
      (∀ j, i < 4 → j < 4 → j ≠ i → s.modeOf = .provision → s.slotUsable i = true → s.slotUsable j = true →
        (s.on Reg.THM_STATUS_OTP_OK = false → exec (.revokeRoot p otp) s = .next (s.status p 5)) ∧
        (s.on Reg.THM_STATUS_OTP_OK = true → otp = .takes → ∃ t, exec (.revokeRoot p otp) s = .next t ∧
          t.sec.otp = otpSet s.sec.otp ((0xE0 + i) * 8 + 1) ∧ t.slotUsable i = false ∧ t.slotUsable j = true ∧ t.sticky 21 = true ∧ t.Ended p 0) ∧
        (s.on Reg.THM_STATUS_OTP_OK = true → otp = .fails 0 ∨ otp = .aborts 0 → ∃ t, exec (.revokeRoot p otp) s = .next t ∧
          t.sec.otp = s.sec.otp ∧ (otp = .fails 0 → t.sticky 14 = true ∧ t.Ended p 2) ∧ (otp = .aborts 0 → t.Ended p 5)))) ∧
    (s.Serves p 0x22 →
      (s.modeOf ≠ .provision ∨ s.firmwarePasses 0 s.rollback = false ∧ s.firmwarePasses 1 s.rollback = false →
        exec (.provisionEnd p) s = .next (s.status p 3)) ∧
      (s.modeOf = .provision → s.firmwarePasses 0 s.rollback = true ∨ s.firmwarePasses 1 s.rollback = true →
        ∃ t, exec (.provisionEnd p) s = .next t ∧ t.mode.phase = .reset ∧ t.rd Reg.SYS_RESET_CAUSE = 4 ∧ t.sec.otp = s.sec.otp ∧
          t.rd Reg.SYS_EPOCH_EPOCH = (s.rd Reg.SYS_EPOCH_EPOCH + 1) % 2 ^ 32 ∧ t.pending = s.pending)) ∧
    (s.Serves p 0x23 → s.Input p 0 bs →
      (s.on Reg.SEC_POLICY_REPROVISION = false → exec (.reprovision p) s = .next (s.status p 3)) ∧
      (s.on Reg.SEC_POLICY_REPROVISION = true → s.reprovisionOk bs = true →
        exec (.reprovision p) s = .next (State.status (State.put { s with sec := { s.sec with challenge := none } } Reg.SYS_MODE_PROVISION 1) p 0)) ∧
      (s.on Reg.SEC_POLICY_REPROVISION = true → s.reprovisionOk bs = false → ∃ t, exec (.reprovision p) s = .next t ∧
        t.sec.challenge = none ∧ t.sticky 16 = true ∧ t.Ended p 3 ∧ t.rd Reg.SYS_MODE_PROVISION = s.rd Reg.SYS_MODE_PROVISION)) ∧
    (s.Serves p 0x24 → s.Input p 0 bs →
      (s.on Reg.SEC_POLICY_DEBUG_TOKENS = true → s.debugOk bs = true → ∃ t, exec (.debugUnlock p) s = .next t ∧
        t.sec.scope = max s.sec.scope (leAt bs 53 1) ∧ t.sec.challenge = none ∧ t.Ended p 0) ∧
      (s.on Reg.SEC_POLICY_DEBUG_TOKENS = false ∨ s.debugOk bs = false → ∃ t, exec (.debugUnlock p) s = .next t ∧
        t.sec.scope = s.sec.scope ∧ t.sec.challenge = none ∧ t.sticky 19 = true ∧ t.Ended p 3))

/-- R137, R340, R341, R345, R346, R352: RECOVER_WRITE is a command of recovery: it takes a chunk, and with the last one checks the image and
writes it to slot A; IMAGE_WRITE checks an image and writes it to the slot not booted. An image that fails raises FS016 (FS010 too where check 5
alone fails), FS015 where it names a held key outside its list, and nothing is written; the check's
code stands in REASON_A or REASON_B and in DETAIL. A copy that has met a lasting error is an ERROR. COMMIT_SVN programs the rollback bits up to
the running SVN where both slots pass. -/
def Obligations.FirmwareImages : Prop :=
  ∀ (s : State) (p : Pair), s.Ready →
    (s.Serves p 0x25 →
      (s.recovery = false → exec (.recoverWrite p) s = .next (s.status p 3)) ∧
      (∀ chunk off total, s.recovery = true → s.Input p 0 chunk → off = s.arg p 8 4 → total = s.arg p 12 4 →
        (total < off + chunk.length ∨ 458752 < total → exec (.recoverWrite p) s = .next (s.status p 11)) ∧
        (off + chunk.length ≤ total → total ≤ 458752 → ∃ img : Blob, img.len = total ∧
          (∀ i, img.byte i = if off ≤ i ∧ i < off + chunk.length then chunk.getD (i - off) 0#8
            else if s.sec.recover.len = total then s.sec.recover.byte i else 0#8) ∧
          ∀ s', s' = { s with sec := { s.sec with recover := img } } →
            (off + chunk.length ≠ total → exec (.recoverWrite p) s = .next (s'.status p 0)) ∧
            (off + chunk.length = total → s.imageCheck img s.rollback = 0 →
              exec (.recoverWrite p) s = .next ((s'.put Reg.SEC_BOOT_STATUS_REASON_A 0).writeFile 1 0 img (some p))) ∧
            (∀ code, off + chunk.length = total → code = s.imageCheck img s.rollback → code ≠ 0 → ∃ t, exec (.recoverWrite p) s = .next t ∧
              t.nand = s.nand ∧ t.sticky 16 = true ∧ (code = 5 → t.sticky 10 = true) ∧ t.rd Reg.SEC_BOOT_STATUS_REASON_A = code % 16 ∧
              (s.firmwareMisused img code = true → t.sticky 15 = true) ∧ t.Ended p 2)))) ∧
    (s.Serves .session 0x30 →
      (64 ≤ s.arg .session 0 1 → exec .imageWrite s = .next (s.status .session 11)) ∧
      (s.arg .session 0 1 < 64 → s.berthRef (s.arg .session 0 1) = none → exec .imageWrite s = .next (s.status .session 3)) ∧
      (∀ b n, s.berthRef (s.arg .session 0 1) = some b → n = s.arg .session 1 4 →
        (s.berthSize b < n → exec .imageWrite s = .next (s.status .session 11)) ∧
        (n ≤ s.berthSize b → SvcReq.nand ∈ s.bas.failed → ∃ t, exec .imageWrite s = .next t ∧ t.nand = s.nand ∧ SvcReq.nand ∉ t.bas.failed ∧
          t.Ended .session 2) ∧
        (n ≤ s.berthSize b → SvcReq.nand ∉ s.bas.failed → ∀ img code, img = (s.berthInput b).take n → code = s.imageCheck img s.rollback →
          ∀ part reason, (part, reason) = (if s.rd Reg.SEC_BOOT_STATUS_IMAGE = 0 then (2, Reg.SEC_BOOT_STATUS_REASON_B)
            else (1, Reg.SEC_BOOT_STATUS_REASON_A)) →
          (code = 0 → exec .imageWrite s = .next ((s.put reason 0).writeFile part 0 img (some .session))) ∧
          (code ≠ 0 → ∃ t, exec .imageWrite s = .next t ∧ t.nand = s.nand ∧ t.sticky 16 = true ∧ (code = 5 → t.sticky 10 = true) ∧
            t.rd reason = code % 16 ∧ (s.firmwareMisused img code = true → t.sticky 15 = true) ∧ t.Ended .session 2)))) ∧
    (∀ (otp : OtpRun) (v : Nat), s.Serves .session 0x31 → v = s.rd Reg.SEC_SVN_RUNNING →
      (s.firmwarePasses 0 (max v s.rollback) = false ∨ s.firmwarePasses 1 (max v s.rollback) = false →
        exec (.commitSvn otp) s = .next (s.status .session 3)) ∧
      (s.firmwarePasses 0 (max v s.rollback) = true → s.firmwarePasses 1 (max v s.rollback) = true →
        (s.on Reg.THM_STATUS_OTP_OK = false → exec (.commitSvn otp) s = .next (s.status .session 5)) ∧
        (s.on Reg.THM_STATUS_OTP_OK = true → otp = .takes → ∃ t, exec (.commitSvn otp) s = .next t ∧ t.Ended .session 0 ∧
          (∀ i, (t.sec.otp.byte (0x100 + i / 8)).getLsbD (i % 8) = (decide (i < v) || (s.sec.otp.byte (0x100 + i / 8)).getLsbD (i % 8))) ∧
          (∀ a, a < 0x100 → t.sec.otp.byte a = s.sec.otp.byte a))))

/-! ## Flights, libraries, ceilings and storage over the wharf (R118, R120, R131, R152, R180, R372, R380-R382, R388, R389, R393, R426) -/

/-- R118, R120, R137, R152, R341, R388, R426: FLIGHT_LOAD copies the image that its source names into the slot's mooring and checks what stands there:
where every check passes the slot holds that flight, and the command is DONE; else the slot is invalid, with the reason in SYS_FLIGHT_STATUS and
FS108, as it is where the image cannot be read; the other slots stay. LIBRARY_LOAD installs a library that checks, and leaves the cache of
another, with FS119. The two STORE commands write a file only where its image checks. Slot E, file 0 and LIBRARY_LOAD are for Maintenance; the
slot of the running flight is BUSY. -/
def Obligations.FlightsAndLibraries : Prop :=
  ∀ (s : State) (a b c : Nat) (img : Blob), s.Ready → a = s.arg .session 0 1 → b = s.arg .session 1 1 → c = s.arg .session 2 1 →
    (s.Serves .session 0x40 →
      (3 ≤ a ∨ 2 ≤ b ∨ b = 0 ∧ 23 ≤ c → exec .flightLoad s = .next (s.status .session 11)) ∧
      (∀ i : Fin 3, a = i.val → b < 2 → (b = 0 → c < 23) →
        (s.slotRuns i = true → exec .flightLoad s = .next (s.status .session 1)) ∧
        (s.slotRuns i = false → i = 2 → s.modeOf ≠ .maintenance → exec .flightLoad s = .next (s.status .session 3)) ∧
        (s.slotRuns i = false → (i = 2 → s.modeOf = .maintenance) →
          (b = 1 → 64 ≤ c → exec .flightLoad s = .next (s.status .session 11)) ∧
          (b = 1 → c < 64 → s.berthRef c = none → exec .flightLoad s = .next (s.status .session 3)) ∧
          (b = 0 ∧ (s.readFile 6 c).2 = none ∨ b = 1 ∧ s.berthRef c ≠ none ∧ SvcReq.nand ∈ s.bas.failed →
            ∃ t, exec .flightLoad s = .next t ∧ t.seq.slots[i] = none ∧ (∀ j : Fin 3, j ≠ i → t.seq.slots[j] = s.seq.slots[j]) ∧ t.Ended .session 2) ∧
          (s.Names b 6 c img → ∀ n got r, n = min (min img.len (img.le 0x0C 4)) 4194304 →
            got = Blob.mk img.len ((s.bas.fill (FSlotBase i) n (img.cells.slice 0 n)).blob (FSlotBase i) n).cells → r = s.flightCheck got (i = 2) →
            ∃ t, exec .flightLoad s = .next t ∧ t.rd Reg.SYS_FLIGHT_STATUS_REASON = r % 16 ∧ t.rd Reg.SYS_FLIGHT_STATUS_CHECKED_SLOT = i.val ∧
              (∀ j : Fin 3, j ≠ i → t.seq.slots[j] = s.seq.slots[j]) ∧ t.seq.run = s.seq.run ∧
              (r = 0 → t.seq.slots[i] = some (parseFlight got) ∧ t.Ended .session 0 ∧ t.flt = s.flt ∧
                t.sec.digests[i.castSucc] = Config.sha256 (got.bytes 0 ((parseFlight got).imageSize - 128)) ∧
                (i = 2 → s.mode.egress = true → t.on Reg.SEQ_COMMIT_COMMIT = true)) ∧
              (r ≠ 0 → t.seq.slots[i] = none ∧ t.sticky 108 = true ∧ (r = 2 → s.keyMisused got (got.le 0x0C 4) = true → t.sticky 15 = true) ∧
                t.Ended .session 2))))) ∧
    (s.Serves .session 0x41 →
      (23 ≤ b → exec .flightStore s = .next (s.status .session 11)) ∧
      (b = 0 → s.modeOf ≠ .maintenance → exec .flightStore s = .next (s.status .session 3)) ∧
      (b < 23 → (b = 0 → s.modeOf = .maintenance) →
        (64 ≤ a → exec .flightStore s = .next (s.status .session 11)) ∧
        (a < 64 → s.berthRef a = none → exec .flightStore s = .next (s.status .session 3)) ∧
        (s.Names 1 6 a img → ∀ file, file = img.take (img.le 0x0C 4) →
          (s.flightCheck img (b = 0) = 0 → s.TakesFile 6 b file.len = true → ∃ t, exec .flightStore s = .next t ∧ s.Storing t (NJob.ofFile 6 b file (some .session))) ∧
          (s.flightCheck img (b = 0) = 0 → s.LacksRoom 6 b file.len = true → exec .flightStore s = .next (s.status .session 2)) ∧
          (s.flightCheck img (b = 0) ≠ 0 → ∃ t, exec .flightStore s = .next t ∧ t.nand = s.nand ∧ t.sticky 108 = true ∧ t.Ended .session 2)))) ∧
    (s.Serves .session 0x42 →
      (2 ≤ a → exec .libraryLoad s = .next (s.status .session 11)) ∧
      (a < 2 → s.modeOf ≠ .maintenance → exec .libraryLoad s = .next (s.status .session 3)) ∧
      (a < 2 → s.modeOf = .maintenance → s.Names a 5 b img →
        (s.libCheck img = 0 → ∃ t, exec .libraryLoad s = .next t ∧ t.Ended .session 0 ∧ t.flt = s.flt ∧ t.on Reg.GLY_EVENT_LIB_DONE = true ∧
          t.rd Reg.GLY_LIB_STATUS_REASON = 0 ∧ t.on Reg.GLY_LIB_STATUS_LOADED = true ∧ t.rd Reg.GLY_LIB_ID_LIB_ID = img.le 8 4 ∧
          t = (((s.put Reg.GLY_LIB_STATUS_REASON 0).flag Reg.GLY_EVENT_LIB_DONE).libInstall img).status .session 0 ∧
          (Memory.wf s.bas.mem = true → Memory.wf img.cells = true → ∀ k, k < img.le 0x10 4 → (0x1C08000 + k) / 512 ∉ s.bas.fenced →
            t.bas.byte (0x1C08000 + k) = img.byte (0x8040 + k))) ∧
        (∀ r, r = s.libCheck img → r ≠ 0 → ∃ t, exec .libraryLoad s = .next t ∧ t.rd Reg.GLY_LIB_STATUS_REASON = r ∧
          t.rd Reg.GLY_LIB_ID_LIB_ID = s.rd Reg.GLY_LIB_ID_LIB_ID ∧ (∀ k, 0x1C00000 ≤ k → k < 0x1E00000 → t.bas.byte k = s.bas.byte k) ∧
          t.sticky 119 = true ∧ t.Ended .session 2))) ∧
    (s.Serves .session 0x43 →
      (64 ≤ a → exec .libraryStore s = .next (s.status .session 11)) ∧
      (a < 64 → s.berthRef a = none → exec .libraryStore s = .next (s.status .session 3)) ∧
      (s.Names 1 5 a img → ∀ file, file = img.take (img.le 0x0C 4) →
        (s.libCheck img = 0 → s.TakesFile 5 0 file.len = true → ∃ t, exec .libraryStore s = .next t ∧ s.Storing t (NJob.ofFile 5 0 file (some .session))) ∧
        (s.libCheck img = 0 → s.LacksRoom 5 0 file.len = true → exec .libraryStore s = .next (s.status .session 2)) ∧
        (s.libCheck img ≠ 0 → ∃ t, exec .libraryStore s = .next t ∧ t.nand = s.nand ∧ t.sticky 119 = true ∧ t.Ended .session 2)))

/-- R131, R137, R180, R372, R425, R426: CEIL_STORE copies a RAW berth into a stored ceiling set, CEIL_LOAD a stored set into a plane that is not busy;
FILE_READ puts a file into a RAW berth, and a FREE berth becomes HOST. Values out of range are ARGUMENT, a berth that is not RAW and FREE or HOST
and the BOOT and JOURNAL partitions are DENIED, a busy plane BUSY. Where the stored sets lie is the model's choice (log entry 13). -/
def Obligations.CeilingsAndFiles : Prop :=
  ∀ (s : State) (a b : Nat), s.Ready → a = s.arg .session 0 1 → b = s.arg .session 1 1 →
    (s.Serves .session 0x44 →
      (3 ≤ b ∨ 64 ≤ a → exec .ceilStore s = .next (s.status .session 11)) ∧
      (b < 3 → a < 64 → s.berthRef a = none → exec .ceilStore s = .next (s.status .session 3)) ∧
      (∀ x, b < 3 → a < 64 → s.berthRef a = some x →
        (s.berthSize x < 135168 → exec .ceilStore s = .next (s.status .session 11)) ∧
        (135168 ≤ s.berthSize x → SvcReq.nand ∈ s.bas.failed → ∃ t, exec .ceilStore s = .next t ∧ t.Ended .session 2 ∧
          ∀ k, k < 135168 → t.bas.byte (ceilSet b + k) = s.bas.byte (ceilSet b + k)) ∧
        (135168 ≤ s.berthSize x → SvcReq.nand ∉ s.bas.failed → ∀ t, t = s.basFill (ceilSet b) 135168 (s.berthInput x).cells →
          exec .ceilStore s = .next (t.status .session 0) ∧
          (∀ k, k < 135168 → (ceilSet b + k) / 512 ∉ s.bas.fenced → Memory.wf s.bas.mem = true →
            t.bas.byte (ceilSet b + k) = s.bas.byte (s.berthBase x + k)) ∧
          (∀ k, k < ceilSet b ∨ ceilSet b + 135168 ≤ k → t.bas.byte k = s.bas.byte k)))) ∧
    (s.Serves .session 0x45 →
      (3 ≤ a ∨ 2 ≤ b → exec .ceilLoad s = .next (s.status .session 11)) ∧
      (a < 3 → b < 2 → s.ceilBusy b = true → exec .ceilLoad s = .next (s.status .session 1)) ∧
      (a < 3 → b < 2 → s.ceilBusy b = false → exec .ceilLoad s = .next ((s.ceilTake a b).status .session 0) ∧
        (∀ k, k < 135168 → Memory.wf s.bas.mem = true → (s.ceilTake a b).ts (ceilBase b + k) = (s.bas.byte (ceilSet a + k)).toNat) ∧
        (∀ k, k < ceilBase b ∨ ceilBase b + 135168 ≤ k → (s.ceilTake a b).ts k = s.ts k))) ∧
    (s.Serves .session 0x50 →
      (10 < a ∨ 0 < a ∧ a < 10 ∧ (filesOf a ≤ b ∨ copiesOf a b ≤ s.arg .session 2 1) → exec .fileRead s = .next (s.status .session 11)) ∧
      (a = 0 ∨ a = 10 → exec .fileRead s = .next (s.status .session 3)) ∧
      (0 < a → a < 10 → b < filesOf a → s.arg .session 2 1 < copiesOf a b → ∀ d, d = s.arg .session 3 1 →
        (64 ≤ d → exec .fileRead s = .next (s.status .session 11)) ∧
        (d < 64 → s.berthRef d = none → exec .fileRead s = .next (s.status .session 3)) ∧
        (∀ x, d < 64 → s.berthRef d = some x →
          (s.nandReady = false → exec .fileRead s = .next (s.status .session 2)) ∧
          (s.nandReady = true →
            (s.nand.file a b = none → a ≠ 8 → exec .fileRead s = .next (s.status .session 2)) ∧
            (s.readFile a b = (s.raise 169, none) → a ≠ 8 → ∃ t, exec .fileRead s = .next t ∧ t.sticky 169 = true ∧ t.Ended .session 2) ∧
            (∀ img, s.readFile a b = (s, some img) → a ≠ 8 → a ≠ 9 → img.len ≤ s.berthSize x →
              exec .fileRead s = .next ((s.berthOutput x img).complete .session 0 0 img.len []) ∧ ((s.berthOutput x img).berthAt x).state = .host) ∧
            (∀ img, s.readFile a b = (s, some img) → a ≠ 8 → a ≠ 9 → s.berthSize x < img.len → exec .fileRead s = .next (s.status .session 11)) ∧
            (a = 8 → ∃ t, exec .fileRead s = .next t ∧ t.Ended .session 0 ∧ t.fresh = s.fresh + 2)))))

/-- R380, R381, R382, R393: SYNC completes when the deferral queue is empty, with TEMPERATURE when the window closes on it, and waits otherwise; BACKUP
issues a BACKUP generation, SHUTDOWN a checkpoint that it waits for, START_SET the start record in a new generation: in progress while the
window is open, ERROR where the storage is not ready or has fewer than 8 free blocks (R375; a checkpoint needs none). A START_SET value out of
range is an ARGUMENT error (log entry 13).
R226, R332, R388, R389: CALIBRATE queues the reaches of its mask that are neither queued nor in calibration, in ascending order; RESYNC is
PEER_CTRL.RESYNC; MAINT_ENTER sets the latch and clears RUN unless Egress holds, the light staying as it is to the next sluice, TEST_ENTER does so
from Idle and Maintenance; the EXIT commands clear theirs. -/
def Obligations.StorageAndModeCommands : Prop :=
  (∀ (s : State), s.Ready →
    (s.Serves .session 0x52 →
      (s.nand.deferred = [] → exec .sync s = .next (s.status .session 0)) ∧
      (s.nand.deferred ≠ [] → s.nandWindow = true → exec .sync s = .next s) ∧
      (s.nand.deferred ≠ [] → s.nandWindow = false → exec .sync s = .next (s.status .session 5))) ∧
    (s.Serves .session 0x53 →
      (s.nandReady = false ∨ s.nand.free.length < 8 → exec .backup s = .next (s.status .session 2)) ∧
      (s.nandReady = true → 8 ≤ s.nand.free.length →
        (s.nandWindow = true →
          exec .backup s = .next { s with nand := { s.nand with jobs := s.nand.jobs ++ [NJob.backup (some .session)] } }) ∧
        (s.nandWindow = false → s.nand.deferred.any (fun d => d.kind = .backup) = true → exec .backup s = .next (s.status .session 6)) ∧
        (s.nandWindow = false → s.nand.deferred.any (fun d => d.kind = .backup) = false →
          (64 ≤ s.nand.deferred.length ∨ 1048576 < s.nand.staged → exec .backup s = .next (s.status .session 5)) ∧
          (s.nand.deferred.length < 64 → s.nand.staged ≤ 1048576 → s.live 166 = true ∨ s.on (Reg.FLT_REACT_BR 166) = false →
            ∃ t, exec .backup s = .next t ∧ t.nand = { s.nand with deferred := s.nand.deferred ++ [NJob.backup none] } ∧ t.Ended .session 6)))) ∧
    (s.Serves .session 0x54 →
      (s.nand.jobs.any (fun j => j.kind = .checkpoint) = true →
        exec .shutdown s = .next { s with nand := { s.nand with ckptPairs := s.nand.ckptPairs ++ [.session] } }) ∧
      (s.nand.jobs.any (fun j => j.kind = .checkpoint) = false →
        (s.nandReady = false → exec .shutdown s = .next (s.status .session 2)) ∧
        (s.nandReady = true → s.nandWindow = false → s.nand.deferred.any (fun d => d.kind = .checkpoint) = true →
          exec .shutdown s = .next (s.status .session 6)) ∧
        (s.nandReady = true → s.nandWindow = true → ∃ t, exec .shutdown s = .next t ∧ s.SameRegs t [Reg.NFC_STATUS_CKPT_BUSY] ∧
          t.on Reg.NFC_STATUS_CKPT_BUSY = true ∧ { t with regs := s.regs, nand := s.nand } = s ∧
          t.nand = { s.nand with jobs := s.nand.jobs ++ [s.checkpointJob], ckptPairs := s.nand.ckptPairs ++ [.session] }))) ∧
    (s.Serves .session 0x55 → ∀ f sc slot auto budget : Nat, f = s.arg .session 0 1 → sc = s.arg .session 1 1 → slot = s.arg .session 2 1 →
        budget = s.arg .session 3 2 → auto = s.arg .session 5 1 →
      (clampRate f sc ≠ (f, sc) ∨ 2 ≤ slot ∨ 2 ≤ auto → exec .startSet s = .next (s.status .session 11)) ∧
      (clampRate f sc = (f, sc) → slot < 2 → auto < 2 →
        (s.nandReady = false ∨ s.nand.free.length < 8 → exec .startSet s = .next (s.status .session 2)) ∧
        (s.nandReady = true → 8 ≤ s.nand.free.length → s.nandWindow = true →
          exec .startSet s = .next { s with nand := { s.nand with
            start := some { f := f, sc := sc, slot := slot, budget := budget, auto := auto = 1 },
            jobs := s.nand.jobs ++ [NJob.backup (some .session)] } })))) ∧
  (∀ (s : State), s.Ready →
    (s.Serves .session 0x60 → ∃ t, exec .calibrate s = .next t ∧ t.Ended .session 0 ∧
      (∀ r : Nat, r ∈ t.cal.queue ↔ r ∈ s.cal.queue ∨ r < 16 ∧ (s.arg .session 0 2).testBit r = true ∧ s.calReach ≠ some r) ∧
      (∃ added : List Nat, t.cal.queue = s.cal.queue ++ added ∧ added.Pairwise (· < ·))) ∧
    (s.Serves .session 0x61 →
      (s.resyncing = true → exec .resync s = .next (s.status .session 0)) ∧
      (s.resyncing = false → exec .resync s = .next (State.status { s with peer := { s.peer with wanted := true } } .session 0))) ∧
    (s.Serves .session 0x70 →
      (s.mode.egress = true → exec .maintEnter s = .next (s.status .session 3)) ∧
      (s.mode.egress = false → ∃ t, exec .maintEnter s = .next t ∧ t.Ended .session 0 ∧ t.on Reg.SYS_MODE_MAINT = true ∧
        t.on Reg.SEQ_CTRL_RUN = false ∧ t.seq.state = s.seq.state ∧ t.lights = s.lights)) ∧
    (s.Serves .session 0x71 → exec .maintExit s = .next ((s.put Reg.SYS_MODE_MAINT 0).status .session 0)) ∧
    (s.Serves .session 0x72 →
      (s.modeOf ≠ .idle → s.modeOf ≠ .maintenance → exec .testEnter s = .next (s.status .session 3)) ∧
      (s.modeOf = .idle ∨ s.modeOf = .maintenance → ∃ t, exec .testEnter s = .next t ∧ t.Ended .session 0 ∧ t.on Reg.SYS_MODE_TEST = true ∧
        t.on Reg.SEQ_CTRL_RUN = false ∧ t.seq.state = s.seq.state)) ∧
    (s.Serves .session 0x73 → exec .testExit s = .next ((s.put Reg.SYS_MODE_TEST 0).status .session 0)))

/-! ## NAND storage (R366-R385) -/

/-- R242, R346, R369, R372, R373, R374, R375, R380: no program ends that began outside the window; each page of the write in front that programs
moves it on, with its metadata in its spare area, into a free block where it has none for the page; with its last page the new version commits in
a journal page that holds the records made since the one before, the old blocks are released, a firmware slot's boot map is written anew, and the
command that waits is DONE; the second copy of a two-copy file follows the first; a checkpoint moves the rotation on. A page that fails retires
its block with FS164 and its pages are programmed again. -/
def Obligations.PagePrograms : Prop :=
  ∀ (s : State) (j : NJob) (rest : List NJob), s.Ready → s.NandHolds →
    (∀ ok, s.nand.jobs = [] ∨ s.mayEnd = false → exec (.nandProgramDone ok) s = .next s) ∧
    (s.mayEnd = true ↔ s.on Reg.THM_STATUS_NAND_OK = true ∨ s.nand.underway = true) ∧
    (s.mayEnd = true → s.nand.jobs = j :: rest → j.page + 1 < j.pages →
      (j.page / s.nand.ppb < j.blocks.length →
        (∀ b, j.kind ≠ .checkpoint → j.blocks.getLast? = some b → ∃ t m, exec (.nandProgramDone true) s = .next t ∧
          t.nand = { s.nand.setBlock b { s.nand.block b with pages := (s.nand.block b).pages ++ [m] } with
            jobs := { j with page := j.page + 1 } :: rest, underway := false } ∧
          m.ptime = s.now / 1000000000 ∧ (0 < j.page % s.nand.ppb → m.erases = 0) ∧ (j.page % s.nand.ppb = 0 → m.erases = (s.nand.block b).erases) ∧
          ((∀ old dest counted, j.kind ≠ .move old dest counted) → m.part = j.part ∧ m.copy = j.done.length ∧ m.file = j.idx ∧ m.page = j.page ∧
            (j.done = [] → m.version = ((s.nand.file j.part j.idx).map NFile.version).getD 0 + 1))) ∧
        (∀ b, j.blocks.getLast? = some b → ∃ t, exec (.nandProgramDone false) s = .next t ∧ (t.nand.block b).bad = true ∧ t.sticky 164 = true ∧
          t.sticky 162 = true ∧ t.on Reg.NFC_LAST_VALID = true ∧ t.rd Reg.NFC_LAST_KIND = 3 ∧ t.nand.files = s.nand.files ∧
          t.nand.jobs = { j with blocks := j.blocks.dropLast, page := j.page / s.nand.ppb * s.nand.ppb } :: rest)) ∧
      (j.blocks.length ≤ j.page / s.nand.ppb → s.nand.free.length < 8 → j.kind = .file ∨ j.kind = .backup →
        ∀ ok, ∃ t, exec (.nandProgramDone ok) s = .next t ∧ t.nand.jobs = rest ∧ t.nand.files = s.nand.files ∧ ∀ p, j.pair = some p → t.Ended p 2) ∧
      (∀ b, j.blocks.length ≤ j.page / s.nand.ppb → (∀ old dest counted, j.kind ≠ .move old dest counted) → s.nand.pick = some b →
        8 ≤ s.nand.free.length ∨ j.kind = .checkpoint →
        ∃ t, exec (.nandProgramDone true) s = .next t ∧ (t.nand.block b).owner = some (j.part, j.idx, j.done.length) ∧ b ∈ s.nand.free ∧
          t.nand.files = s.nand.files ∧ t.nand.jobs.map NJob.blocks = (j.blocks ++ [b]) :: rest.map NJob.blocks ∧
          t.nand.jobs.map NJob.page = (j.page + 1) :: rest.map NJob.page)) ∧
    (s.mayEnd = true → s.nand.jobs = j :: rest → j.page + 1 = j.pages → j.blocks ≠ [] →
      (∃ t, exec (.nandProgramDone false) s = .next t ∧ t.sticky 164 = true ∧ t.nand = { s.nand with underway := false }) ∧
      (j.kind = .file → s.recovery = false →
        (j.done.length + 1 < j.copies → ∃ t, exec (.nandProgramDone true) s = .next t ∧
          t.nand.jobs = { j with done := j.done ++ [j.blocks], blocks := [], page := 0 } :: rest) ∧
        (∀ f, s.nand.file j.part j.idx = some f → j.done = [] → ∃ t f', exec (.nandProgramDone true) s = .next t ∧
          t.nand.file j.part j.idx = some f' ∧ f'.version = f.version + 1 ∧ f'.blob = j.blob ∧ f'.lost = [] ∧ f'.copies = [j.blocks]) ∧
        (s.nand.file j.part j.idx = none → j.done = [] → ∃ t f', exec (.nandProgramDone true) s = .next t ∧
          t.nand.file j.part j.idx = some f' ∧ f'.version = 1 ∧ f'.blob = j.blob) ∧
        (j.copies ≤ j.done.length + 1 → ∃ t, exec (.nandProgramDone true) s = .next t ∧ t.nand.jobs = rest ∧
          (s.nand.journal.length + 1 < 1024 → ∃ v date, t.nand.journal = s.nand.journal ++
            [{ seq := s.nand.journalSeq, date := date, records := s.nand.records ++ [.commit j.part j.idx j.done.length v j.blocks] }] ∧ t.nand.records = [] ∧
            t.nand.erasing = s.nand.erasing ++ j.old.filter (fun b => !(s.nand.block b).bad)) ∧
          (∀ p, j.pair = some p → t.Ended p 0) ∧ (j.part = 1 ∨ j.part = 2 → t.nand.prefer = j.part - 1 ∧ t.nand.bootSeq = s.nand.bootSeq + 1 ∧
            ∃ a c, t.nand.boot.getLast? = some (a, c) ∧ c.seq = s.nand.bootSeq + 1 ∧ c.prefer = j.part - 1))) ∧
      (j.kind = .checkpoint → j.copies = 1 → j.done = [] → ∃ t, exec (.nandProgramDone true) s = .next t ∧
        t.nand.nextSlot = (s.nand.nextSlot + 1) % 4 ∧ t.nand.ckptAt = some (s.now / 1000000000) ∧ t.on Reg.NFC_STATUS_CKPT_BUSY = false ∧
        t.on Reg.NFC_EVENT_CHECKPOINT = true ∧ t.rd Reg.NFC_CKPT_AGE_SECONDS = 0))

/-- R242, R368, R374, R375, R385: an erase that completes counts, and the block joins the pool; one that fails retires it with FS165; the next journal
page will record either. A timeout raises
FS168: the write in front begins again once, and on its second timeout is given up with ERROR; where FS168 resets the block, the write that is tried
again stays, without the command that waited for it, which completed with RESET. -/
def Obligations.ErasesAndTimeouts : Prop :=
  ∀ (s : State), s.Ready →
    (∀ ok, s.nand.erasing = [] ∨ s.mayEnd = false → exec (.nandEraseDone ok) s = .next s) ∧
    (∀ b rest, s.mayEnd = true → s.nand.erasing = b :: rest → s.NandHolds →
      (∃ t, exec (.nandEraseDone true) s = .next t ∧ t.nand.erasing = rest ∧ t.nand.files = s.nand.files ∧
        t.nand.block b = { s.nand.block b with erases := (s.nand.block b).erases + 1, reads := 0, kept := 0, owner := none,
                                                pages := [] } ∧
        t.nand.records = s.nand.records ++ [.erased b] ∧ (∀ c, c ≠ b → t.nand.block c = s.nand.block c)) ∧
      (∃ t, exec (.nandEraseDone false) s = .next t ∧ t.nand.erasing = rest.filter (· ≠ b) ∧ (t.nand.block b).bad = true ∧ t.nand.files = s.nand.files ∧
        t.nand.records = s.nand.records ++ [.retired b] ∧ t.sticky 165 = true ∧ t.sticky 162 = true ∧ t.rd Reg.NFC_LAST_KIND = 4 ∧
        t.rd Reg.NFC_RETIRED_COUNT_COUNT = min (2 ^ 32 - 1) (s.rd Reg.NFC_RETIRED_COUNT_COUNT + 1))) ∧
    (s.nand.part = none → exec .nandTimeout s = .next s) ∧
    (s.nand.part ≠ none → ∃ t, exec .nandTimeout s = .next t ∧ t.sticky 168 = true ∧ t.on Reg.NFC_LAST_VALID = true ∧ t.rd Reg.NFC_LAST_KIND = 5 ∧
      t.nand.files = s.nand.files ∧
      (∀ j rest, s.nand.jobs = j :: rest →
        (s.on (Reg.FLT_REACT_BR 168) = false ∨ Block.nand ∈ s.flt.inReset →
          (j.retried = false → t.nand.jobs = { j with blocks := [], page := 0, retried := true } :: rest) ∧
          (j.retried = true → t.nand.jobs = rest ∧ ∀ p, j.pair = some p → t.Ended p 2)) ∧
        (s.on (Reg.FLT_REACT_BR 168) = true → Block.nand ∉ s.flt.inReset → Block.nand ∈ t.flt.inReset ∧
          (j.retried = false → t.nand.jobs = [{ j with blocks := [], page := 0, retried := true, pair := none }]) ∧
          (∀ p, s.pairBusy p = true → nandServed (s.rd (Reg.WHF_STATUS_OPCODE p.num)) = true → (∀ j ∈ s.nand.jobs, j.pair ≠ some p) →
            j.retried = false ∨ p ∉ s.nand.ckptPairs → t.Ended p 4))))

/-- R370, R372, R375, R377, R379: a sector read is counted, and at RD_LIMIT_K thousand, or with REFRESH_BITS corrected bits, its block joins the refresh
queue; one that decodes at a read-retry level is FS160 and a refresh; one that decodes at none is FS161, retires the block, and is lost to a
file of one copy with FS169; a page that nothing has been programmed in raises nothing with up to 8 zero bits. A refresh moves the next queued
block; it waits while its twin is being moved. -/
def Obligations.ReadsAndRefresh : Prop :=
  ∀ (s : State), s.Ready →
    (∀ (b page corrected : Nat) (sector : Fin 4) (level : Option Nat),
      (s.nand.total ≤ b ∨ s.nand.ppb ≤ page → exec (.nandReadSector b page sector corrected level) s = .next s) ∧
      (s.NandHolds → b < s.nand.total → page < s.nand.ppb →
        (s.nand.erasedAt b page sector = true → corrected ≤ 8 → ∃ t, exec (.nandReadSector b page sector corrected level) s = .next t ∧
          t.nand.block b = { s.nand.block b with reads := (s.nand.block b).reads + 1 } ∧ t.nand.files = s.nand.files ∧
          (∀ n, 160 ≤ n → n < 170 → t.sticky n = s.sticky n) ∧ t.rd Reg.NFC_RETRY_COUNT_COUNT = s.rd Reg.NFC_RETRY_COUNT_COUNT ∧
          ((s.nand.block b).reads + 1 < s.rd Reg.NFC_SCRUB_CFG_RD_LIMIT_K * 1000 → t.nand.refresh = s.nand.refresh)) ∧
        (s.nand.erasedAt b page sector = false ∨ 8 < corrected → corrected ≤ 24 ∨ level ≠ none →
          ∃ t, exec (.nandReadSector b page sector corrected level) s = .next t ∧ t.nand.block b = { s.nand.block b with reads := (s.nand.block b).reads + 1 } ∧ t.nand.files = s.nand.files ∧
          ((s.nand.block b).owner ≠ none → 24 < corrected ∨ s.rd Reg.NFC_CFG_REFRESH_BITS ≤ corrected ∨
            s.rd Reg.NFC_SCRUB_CFG_RD_LIMIT_K * 1000 ≤ (s.nand.block b).reads + 1 → b ∈ t.nand.refresh) ∧
          (24 < corrected → t.sticky 160 = true ∧ t.rd Reg.NFC_LAST_KIND = 1 ∧
            t.rd Reg.NFC_RETRY_COUNT_COUNT = min (2 ^ 32 - 1) (s.rd Reg.NFC_RETRY_COUNT_COUNT + 1)) ∧
          (corrected < s.rd Reg.NFC_CFG_REFRESH_BITS → corrected ≤ 24 →
            (s.nand.block b).reads + 1 < s.rd Reg.NFC_SCRUB_CFG_RD_LIMIT_K * 1000 → t.nand.refresh = s.nand.refresh)) ∧
        (24 < corrected → level = none → ∃ t, exec (.nandReadSector b page sector corrected level) s = .next t ∧
          .retired b ∈ t.nand.records ∧ t.sticky 161 = true ∧ t.sticky 162 = true ∧ (t.nand.block b).bad = true ∧ t.rd Reg.NFC_LAST_KIND = 2 ∧
          t.rd Reg.NFC_UNCORR_COUNT_COUNT = min (2 ^ 32 - 1) (s.rd Reg.NFC_UNCORR_COUNT_COUNT + 1) ∧
          (∀ f rest, s.nand.filesIn b = f :: rest → f.copies.length < 2 → t.sticky 169 = true)))) ∧
    (s.nand.refresh = [] → exec .refresh s = .next s) ∧
    (∀ b rest, s.nand.refresh = b :: rest →
      (s.nand.movingTwin b = true ∨ s.mayMove = false → exec .refresh s = .next s) ∧
      (s.nand.movingTwin b = false → s.nandReady = true → s.nandWindow = true →
        exec .refresh s = .next { s with nand := { s.nand with jobs := s.nand.jobs ++ [NJob.moveOf s.nand b none true], refresh := rest } }))

/-- R376, R378, R380, R382: the checkpoint timer starts a checkpoint, which one in progress takes in; the scrub reads the blocks in use in address
order, but for those being moved, and a pass ends with the last; a spread of more than 1,000 erases moves the file of the lowest-count block to the
free block with the highest, at most once an hour; with the window open the deferred writes run, FS166 ends, and a SYNC completes. -/
def Obligations.StorageUpkeep : Prop :=
  ∀ (s : State), s.Ready →
    (s.nand.jobs.any (fun j => j.kind = .checkpoint) = true ∨ s.nandReady = false → ∃ t, exec .checkpointTimer s = .next t ∧ t.nand = s.nand) ∧
    (s.nand.jobs.any (fun j => j.kind = .checkpoint) = false → s.nandReady = true → s.nandWindow = true →
      ∃ t, exec .checkpointTimer s = .next t ∧ t.nand = { s.nand with jobs := s.nand.jobs ++ [s.checkpointJob] } ∧ t.on Reg.NFC_STATUS_CKPT_BUSY = true ∧
        { t with regs := s.regs, nand := s.nand } = s ∧ s.SameRegs t [Reg.NFC_STATUS_CKPT_BUSY]) ∧
    (s.on Reg.NFC_CTRL_SCRUB_EN = false ∨ s.nandReady = false → exec .nandScrubStep s = .next s) ∧
    (s.on Reg.NFC_CTRL_SCRUB_EN = true → s.nandReady = true → ∀ (walk : Nat → Prop) (b : Nat),
      (∀ c, walk c ↔ (c ∈ s.nand.inUse ∨ c ∈ s.nand.bootBlocks) ∧ ∀ j ∈ s.nand.jobs, ∀ dest counted, j.kind ≠ .move c dest counted) →
      walk b → s.nand.scrubNext ≤ b → (∀ c, walk c → s.nand.scrubNext ≤ c → b ≤ c) → b < 65536 →
      ∃ t, exec .nandScrubStep s = .next t ∧ t.rd Reg.NFC_SCRUB_STATUS_BLOCK = b % max 1 s.nand.perCe ∧
        ((∃ c, walk c ∧ b < c) → t.nand = { s.nand with scrubNext := b + 1 } ∧ s.SameRegs t [Reg.NFC_SCRUB_STATUS_BLOCK]) ∧
        ((∀ c, walk c → c ≤ b) → t.nand = { s.nand with scrubNext := 0 } ∧ t.on Reg.NFC_EVENT_PASS = true ∧ t.on Reg.NFC_STATUS_FAST = false ∧
          t.rd Reg.NFC_SCRUB_STATUS_PASSES = (s.rd Reg.NFC_SCRUB_STATUS_PASSES + 1) % 65536)) ∧
    (s.on Reg.NFC_CTRL_SCRUB_EN = true → s.nandReady = true → (∀ c, s.nand.scrubNext ≤ c → c ∉ s.nand.inUse ∧ c ∉ s.nand.bootBlocks) →
      ∃ t, exec .nandScrubStep s = .next t ∧ t.nand = { s.nand with scrubNext := 0 } ∧ t.on Reg.NFC_EVENT_PASS = true ∧
        t.rd Reg.NFC_SCRUB_STATUS_PASSES = (s.rd Reg.NFC_SCRUB_STATUS_PASSES + 1) % 65536) ∧
    (∀ b d, s.nand.extreme true s.nand.inUse = some b → s.nand.extreme false s.nand.free = some d →
      ((∀ c ∈ s.nand.inUse, (s.nand.block c).erases ≤ (s.nand.block b).erases + 1000) ∨ (∃ m, s.nand.movedAt = some m ∧ s.now / 1000000000 < m + 3600) →
        exec .wearLevelMove s = .next s) ∧
      ((∃ c ∈ s.nand.inUse, (s.nand.block b).erases + 1000 < (s.nand.block c).erases) → (∀ m, s.nand.movedAt = some m → m + 3600 ≤ s.now / 1000000000) →
        s.nandReady = true → s.nandWindow = true → (∀ c ∈ s.nand.inUse, (s.nand.block b).erases ≤ (s.nand.block c).erases) ∧
          (∀ c ∈ s.nand.free, (s.nand.block c).erases ≤ (s.nand.block d).erases) ∧
          ∀ js, js = s.nand.jobs ++ [NJob.moveOf s.nand b (some d) false] →
            exec .wearLevelMove s = .next { s with nand := { s.nand with movedAt := some (s.now / 1000000000), jobs := js } })) ∧
    (s.nandWindow = false → s.executing .session 0x52 = false → exec .deferralResume s = .next s) ∧
    (s.nandWindow = true → ∃ t, exec .deferralResume s = .next t ∧ t.nand = { s.nand with jobs := s.nand.jobs ++ s.nand.deferred, deferred := [] } ∧
      t.live 166 = false ∧ t.rd Reg.NFC_STATUS_QUEUED = 0 ∧ t.on Reg.NFC_STATUS_DEFERRED = false ∧
      (s.executing .session 0x52 = true → t.Ended .session 0))

/-! ## Two rules, whole (R72, R86) -/

/-- R72: LI writes the zero-extended imm16, LUI in the cores the upper half alone, so that the two build any 32-bit constant. Neither has a predicate:
bits 10:0 and the source-b field are the immediate. -/
def Obligations.LoadImmediates : Prop :=
  (∀ (s : State) (c : ChamberId) (f : Fields), s.Ready → s.Issues c → f.a = 0#5 →
    exec (.li (.chamber c) f) s = .next (s.scalarIssue c (fun x => x.scalarLater 1 0 f.d (f.b ++ f.pred ++ f.minor)))) ∧
  (∀ (s : State) (f : Fields), s.Ready → s.CoreRuns → f.a = 0#5 → ∀ imm16 : W16, imm16 = f.b ++ f.pred ++ f.minor →
    (∃ t, exec (.li .mgmt f) s = .next t ∧ t = s.coreStep (fun m => (m.wrote f.d (imm16.setWidth 32)).advanced) ∧
      (f.d ≠ 0#5 → t.mgmt.value f.d = imm16.setWidth 32)) ∧
    (∃ t, exec (.lui .mgmt f) s = .next t ∧ t = s.coreStep (fun m => (m.wrote f.d (imm16 ++ (m.value f.d).setWidth 16)).advanced) ∧
      (f.d ≠ 0#5 → (t.mgmt.value f.d).toNat / 65536 = imm16.toNat ∧ (t.mgmt.value f.d).setWidth 16 = (s.mgmt.value f.d).setWidth 16))) ∧
  (∀ (s t u : State) (f g : Fields) (v : W32), s.Ready → s.CoreRuns → t.Ready → t.CoreRuns → f.a = 0#5 → g.a = 0#5 → f.d ≠ 0#5 → g.d = f.d →
    v.setWidth 16 = f.b ++ f.pred ++ f.minor → v.extractLsb' 16 16 = g.b ++ g.pred ++ g.minor →
    exec (.li .mgmt f) s = .next t → exec (.lui .mgmt g) t = .next u → u.mgmt.value f.d = v)

/-- R86: CLAMP with an even vb writes, two cycles later and in the lanes that the predicate enables, va held between the bounds of vb and vb + 1 under
the type, and the upper bound where they cross; with an odd vb it is illegal. -/
def Obligations.Clamp : Prop :=
  ∀ (s : State) (c : ChamberId) (f : Fields) (ty : Nat), s.Ready → s.Issues c → f.minor.toNat % 64 = 0x0D → ty = f.minor.toNat / 64 →
    (f.b.toNat % 2 = 0 → ∃ v : Nat → Nat, exec (.clamp (.chamber c) f) s = .next (s.vectorIssue c (fun x => x.vectorLater 2 f.d f.pred v)) ∧
      ∀ i a lo hi, i < 32 → a = lane ((s.chAt c).vector f.a) i → lo = lane ((s.chAt c).vector f.b) i → hi = lane ((s.chAt c).vector (f.b + 1#5)) i →
        (v i = a ∨ v i = lo ∨ v i = hi) ∧ laneVal ty (v i) = min (max (laneVal ty a) (laneVal ty lo)) (laneVal ty hi) ∧
        (laneVal ty hi < laneVal ty lo → v i = hi)) ∧
    (f.b.toNat % 2 = 1 → ∃ t, exec (.clamp (.chamber c) f) s = .next t ∧ (t.chAt c).halted = true ∧ t.rd (Reg.CHM_BREACH_SOURCE c) = 102 ∧
      t.sticky 102 = true)

/-! ## The block as a whole -/

/-- The command at the front of the queue runs on the state with the queue's rest; on an empty queue device time goes on by one nanosecond, the
model's choice (log entry 4). -/
def Obligations.StepRunsTheFrontCommand : Prop :=
  (∀ (c : Instr) (rest : List Instr) (s : State), s.pending = c :: rest → step s = exec c { s with pending := rest }) ∧
  (∀ s : State, s.pending = [] → step s = .next { s with now := s.now + 1 })

/-- R23, R59, R130, R253, R402: the state after reset: every register field at its reset value, the cores at 0x0600_0000 with interrupts off, the
sequencer STOPPED and dark, HEALTH low, the basin and the queue empty, no flight valid, no session and no fault, and every memory canonical. -/
def Obligations.ResetState : Prop :=
  (∀ f : Fld, State.reset.rd f = f.reset) ∧ State.reset.mgmt.pc = 0x06000000#32 ∧ State.reset.mgmt.ie = false ∧
  State.reset.seq.state = .stopped ∧ State.reset.lights = false ∧ State.reset.healthHigh = false ∧ State.reset.pending = [] ∧
  (∀ a, State.reset.bas.byte a = 0#8) ∧ (∀ i : Fin 3, State.reset.seq.slots[i] = none) ∧ State.reset.sec.host = none ∧ State.reset.sec.peer = none ∧
  (∀ n, n < 192 → State.reset.sticky n = false ∧ State.reset.live n = false) ∧
  Memory.wf State.reset.bas.mem = true ∧ Memory.wf State.reset.mgmt.sram = true ∧ Memory.wf State.reset.sec.otp = true

/-- Every command answers a next state, whatever the state, and leaves the commands that wait as they are. -/
def Obligations.EveryCommandCompletes : Prop :=
  ∀ (i : Instr) (s : State), ∃ t, exec i s = .next t ∧ t.pending = s.pending

/-- R338: no step takes a bit of OTP back from 1 to 0. -/
def Obligations.OtpNeverFalls : Prop :=
  ∀ s t : State, step s = .next t → ∀ a i, (s.sec.otp.byte a).getLsbD i = true → (t.sec.otp.byte a).getLsbD i = true

/-- The canonical form of the basin, of the management SRAM and of OTP is kept by every step, device time and the counter of free
values do not go back, and a step takes exactly the front command from the queue. -/
def Obligations.EveryStepKeeps : Prop :=
  ∀ s t : State, step s = .next t →
    s.now ≤ t.now ∧ s.fresh ≤ t.fresh ∧ t.pending = s.pending.tail ∧
    (Memory.wf s.bas.mem = true → Memory.wf t.bas.mem = true) ∧ (Memory.wf s.mgmt.sram = true → Memory.wf t.mgmt.sram = true) ∧
    (Memory.wf s.sec.otp = true → Memory.wf t.sec.otp = true)
end

