-- ==== Sys2Proof/Laws/Exec.lean ====
section
/-!
SUPPORT. How a command reaches its meaning: the settled device (`Ready`), and the issue of a chamber's and of the cores' instructions.
-/
namespace Sys2Proof.Machine

/-- On a settled device that is not held in Reset a command is its effect. -/
theorem State.command_ready {s : State} (h : s.Ready) (f : State → State) : s.command f = .next (f s) := by
  unfold State.command
  rw [h.1]
  simp [h.2]

theorem State.anyPhase_settled {s : State} (h : s.settle = s) (f : State → State) : s.anyPhase f = .next (f s) := by
  unfold State.anyPhase
  rw [h]

@[simp] theorem State.chAt_setCh (s : State) (c : ChamberId) (x : Chamber) : (s.setCh c x).chAt c = x := by
  simp [State.chAt, State.setCh]

theorem State.chAt_setCh_other (s : State) {c d : ChamberId} (x : Chamber) (h : c ≠ d) : (s.setCh c x).chAt d = s.chAt d := by
  simp only [State.chAt, State.setCh, Fin.getElem_fin]
  exact Vector.getElem_set_ne _ _ (fun e => h (Fin.ext e))

@[simp] theorem State.setCh_setCh (s : State) (c : ChamberId) (x y : Chamber) : (s.setCh c x).setCh c y = s.setCh c y := by
  simp [State.setCh]

@[simp] theorem State.setCh_chAt (s : State) (c : ChamberId) : s.setCh c (s.chAt c) = s := by
  simp [State.setCh, State.chAt]

/-- Which slots of a bundle have issued does not bear on its legality. -/
theorem State.pcIllegal_setCh (s : State) (c : ChamberId) (x : Chamber) (hp : x.pc = (s.chAt c).pc) (hr : x.running = (s.chAt c).running) :
    (s.setCh c x).pcIllegal c = s.pcIllegal c := by
  simp only [State.pcIllegal, State.chAt_setCh, hp, hr]
  rfl

/-- With no bundle open there is none to close. -/
theorem State.closeBundle_none {s : State} {c : ChamberId} (h1 : (s.chAt c).scalarUsed = false) (h2 : (s.chAt c).vectorUsed = false) :
    s.closeBundle c = s := by
  simp only [State.closeBundle, h1, h2]
  rfl

/-- A scalar-slot instruction of a chamber that issues: the bundle opens and the instruction acts. -/
theorem State.issueScalar_issues {s : State} {c : ChamberId} (h : s.Issues c) (f : State → State) :
    s.issueScalar c f = f (s.setCh c { s.chAt c with scalarUsed := true }) := by
  obtain ⟨h1, h2, h3, h4, h5, h6⟩ := h
  have h7 : (s.setCh c { s.chAt c with scalarUsed := true }).pcIllegal c = false := (s.pcIllegal_setCh c { s.chAt c with scalarUsed := true } rfl rfl).trans h6
  simp only [State.issueScalar, State.closeBundle_none h3 h4]
  rw [if_neg (by simp [h1, h2]), if_neg (by simp [h5]), if_neg (by simp only [h7]; decide)]

/-- A vector-slot instruction of a chamber that issues. -/
theorem State.issueVector_issues {s : State} {c : ChamberId} (h : s.Issues c) (f : State → State) :
    s.issueVector c f = f (s.setCh c { s.chAt c with vectorUsed := true }) := by
  obtain ⟨h1, h2, h3, h4, h5, h6⟩ := h
  have h7 : (s.setCh c { s.chAt c with vectorUsed := true }).pcIllegal c = false := (s.pcIllegal_setCh c { s.chAt c with vectorUsed := true } rfl rfl).trans h6
  have hv : (if (s.chAt c).vectorUsed = true then s.closeBundle c else s) = s := by rw [h4]; rfl
  simp only [State.issueVector, hv]
  rw [if_neg (by simp [h1, h2]), if_neg (by simp [h3]), if_neg (by simp [h5]), if_neg (by simp only [h7]; decide)]

/-- A scalar-slot instruction whose effect on any state with the bundle open is `g` on the chamber. -/
theorem State.issueScalar_to {s : State} {c : ChamberId} (h : s.Issues c) {f : State → State} {g : Chamber → Chamber}
    (hf : ∀ t : State, t.chAt c = { s.chAt c with scalarUsed := true } → (∀ y, t.setCh c y = s.setCh c y) → f t = t.setCh c (g (t.chAt c))) :
    s.issueScalar c f = s.scalarIssue c g := by
  rw [State.issueScalar_issues h, hf _ (State.chAt_setCh s c _) (fun y => State.setCh_setCh s c _ y), State.setCh_setCh, State.chAt_setCh]
  rfl

/-- The same of a vector-slot instruction. -/
theorem State.issueVector_to {s : State} {c : ChamberId} (h : s.Issues c) {f : State → State} {g : Chamber → Chamber}
    (hf : ∀ t : State, t.chAt c = { s.chAt c with vectorUsed := true } → (∀ y, t.setCh c y = s.setCh c y) → f t = t.setCh c (g (t.chAt c))) :
    s.issueVector c f = s.vectorIssue c g := by
  rw [State.issueVector_issues h, hf _ (State.chAt_setCh s c _) (fun y => State.setCh_setCh s c _ y), State.setCh_setCh, State.chAt_setCh]
  rfl

/-- An access to lines none of which is pending. -/
theorem State.touch_clear {s : State} {c : ChamberId} {ls : List Nat} (h : (s.chAt c).Clear ls) : s.touch c ls = s := by
  unfold State.touch
  rw [if_neg]
  simp only [List.any_eq_true, List.contains_iff_mem, not_exists, not_and]
  exact fun x hx => h x hx

/-- A scalar result sent to its register. -/
theorem State.sendScalar_eq (s : State) (c : ChamberId) (lat slot : Nat) (d : BitVec 5) (v : Nat) :
    s.sendScalar c lat slot d v = s.setCh c ((s.chAt c).scalarLater lat slot d (BitVec.ofNat 16 v)) := by
  unfold State.sendScalar Chamber.scalarLater
  split
  · simp
  · rfl

theorem State.sendVec_eq (s : State) (c : ChamberId) (lat : Nat) (d : BitVec 5) (pr : BitVec 3) (v : Nat → Nat) :
    s.sendVec c lat 1 d ((s.chAt c).predicate pr) (mkVec v) = s.setCh c ((s.chAt c).vectorLater lat d pr v) := rfl

theorem State.sendPred_eq (s : State) (c : ChamberId) (lat : Nat) (d : BitVec 3) (pr : BitVec 3) (v : Nat → Bool) :
    s.sendPred c lat d ((s.chAt c).predicate pr) (mkPred v) = s.setCh c ((s.chAt c).predLater lat d pr v) := by
  unfold State.sendPred Chamber.predLater
  split
  · simp
  · rfl

/-- The grant of an address does not depend on whether the cores wait. -/
theorem State.permits_setMgmt (s : State) (m : Mgmt) (hb : m.protBase = s.mgmt.protBase) (hl : m.protLimit = s.mgmt.protLimit) (a g : Nat) :
    (s.setMgmt m).permits a g = s.permits a g := by
  simp only [State.permits, State.setMgmt, Mgmt.region, hb, hl]
  rfl

/-- An instruction of the cores when they run. -/
theorem State.issueMgmt_runs {s : State} (h : s.CoreRuns) (f : State → State) :
    s.issueMgmt f = f (s.setMgmt { s.mgmt with waiting := false }) := by
  obtain ⟨h1, h2, h3⟩ := h
  have h4 := (s.permits_setMgmt { s.mgmt with waiting := false } rfl rfl s.mgmt.pc.toNat 0).trans h3
  simp only [State.issueMgmt]
  rw [if_neg (by simp [h1]), if_neg (by rcases h2 with h | h | h <;> simp [h])]
  exact if_pos h4

/-- A register of the cores as a number and as its bits. -/
theorem Mgmt.reg_eq (m : Mgmt) (r : BitVec 5) : m.reg r = (m.value r).toNat := by
  unfold Mgmt.reg Mgmt.value
  split <;> rfl

theorem Mgmt.setReg_eq (m : Mgmt) (r : BitVec 5) (v : Nat) : m.setReg r v = m.wrote r (BitVec.ofNat 32 v) := rfl

/-- A result that will land later. -/
theorem State.send_eq (s : State) (c : ChamberId) (lat slot : Nat) (l : Landing) : s.send c lat slot l = s.setCh c ((s.chAt c).later lat slot l) := rfl

end Sys2Proof.Machine
end

