-- ==== Sys2Proof/Laws/Sparse.lean ====
section
/-!
SUPPORT. Sparse contents and byte memories: read after write, writes elsewhere, and that every operation keeps the canonical form.
-/
namespace Sys2Proof.Machine

variable {α : Type}

@[simp] theorem Sparse.get_nil (d : α) (k : Nat) : Sparse.get [] d k = d := rfl

theorem Sparse.get_cons (c : Nat × α) (l : Sparse α) (d : α) (k : Nat) :
    Sparse.get (c :: l) d k = if c.1 = k then c.2 else Sparse.get l d k := rfl

@[simp] theorem Sparse.get_erase_self (l : Sparse α) (d : α) (k : Nat) : Sparse.get (Sparse.erase l k) d k = d := by
  induction l with
  | nil => rfl
  | cons c l ih =>
    obtain ⟨j, v⟩ := c
    by_cases h : j = k
    · simp [Sparse.erase, h, ih]
    · simp [Sparse.erase, h, Sparse.get, ih]

theorem Sparse.get_erase_other (l : Sparse α) (d : α) {j k : Nat} (h : j ≠ k) : Sparse.get (Sparse.erase l j) d k = Sparse.get l d k := by
  induction l with
  | nil => rfl
  | cons c l ih =>
    obtain ⟨i, v⟩ := c
    by_cases hi : i = j
    · have : i ≠ k := by omega
      simp [Sparse.erase, hi, ih, Sparse.get, h]
    · rw [Sparse.erase, if_neg hi, Sparse.get, Sparse.get, ih]

@[simp] theorem Sparse.get_insert_self (l : Sparse α) (d : α) (k : Nat) (v : α) : Sparse.get (Sparse.insert l k v) d k = v := by
  induction l with
  | nil => simp [Sparse.insert, Sparse.get]
  | cons c l ih =>
    obtain ⟨i, u⟩ := c
    unfold Sparse.insert
    split
    · simp [Sparse.get]
    · split
      · simp [Sparse.get]
      · simp [Sparse.get, *]

theorem Sparse.get_insert_other (l : Sparse α) (d : α) {j k : Nat} (v : α) (h : j ≠ k) :
    Sparse.get (Sparse.insert l j v) d k = Sparse.get l d k := by
  induction l with
  | nil => simp [Sparse.insert, Sparse.get, h]
  | cons c l ih =>
    obtain ⟨i, u⟩ := c
    unfold Sparse.insert
    split
    · have : i ≠ k := by omega
      simp [Sparse.get, h, this]
    · split
      · simp [Sparse.get, h]
      · simp [Sparse.get, ih]

/-- What was written is read. -/
@[simp] theorem Sparse.get_set_self [DecidableEq α] (l : Sparse α) (d : α) (k : Nat) (v : α) : Sparse.get (Sparse.set l d k v) d k = v := by
  unfold Sparse.set
  split
  · simp [*]
  · simp

/-- A write leaves every other key alone, whatever an unlisted key reads as there. -/
theorem Sparse.get_set_other [DecidableEq α] (l : Sparse α) (d e : α) {j k : Nat} (v : α) (h : j ≠ k) :
    Sparse.get (Sparse.set l d j v) e k = Sparse.get l e k := by
  unfold Sparse.set
  split
  · exact Sparse.get_erase_other l e h
  · exact Sparse.get_insert_other l e v h

/-! ## The canonical form -/

theorem Sparse.rising_mono {l : Sparse α} {a b : Nat} (h : Sparse.rising b l = true) (hab : a ≤ b) : Sparse.rising a l = true := by
  cases l with
  | nil => rfl
  | cons c l =>
    simp only [Sparse.rising, Bool.and_eq_true, decide_eq_true_eq] at *
    exact ⟨by omega, h.2⟩

theorem Sparse.rising_erase {l : Sparse α} {a : Nat} (k : Nat) (h : Sparse.rising a l = true) : Sparse.rising a (Sparse.erase l k) = true := by
  induction l generalizing a with
  | nil => rfl
  | cons c l ih =>
    obtain ⟨j, v⟩ := c
    simp only [Sparse.rising, Bool.and_eq_true, decide_eq_true_eq] at h
    unfold Sparse.erase
    split
    · exact Sparse.rising_mono (ih h.2) (by omega)
    · simp only [Sparse.rising, Bool.and_eq_true, decide_eq_true_eq]
      exact ⟨h.1, ih h.2⟩

theorem Sparse.rising_insert {l : Sparse α} {a k : Nat} (v : α) (h : Sparse.rising a l = true) (hk : a ≤ k) :
    Sparse.rising a (Sparse.insert l k v) = true := by
  induction l generalizing a with
  | nil => simp [Sparse.insert, Sparse.rising, hk]
  | cons c l ih =>
    obtain ⟨j, u⟩ := c
    simp only [Sparse.rising, Bool.and_eq_true, decide_eq_true_eq] at h
    unfold Sparse.insert
    split
    · subst_vars
      simp only [Sparse.rising, Bool.and_eq_true, decide_eq_true_eq]
      exact h
    · split
      · simp only [Sparse.rising, Bool.and_eq_true, decide_eq_true_eq]
        exact ⟨hk, by omega, h.2⟩
      · simp only [Sparse.rising, Bool.and_eq_true, decide_eq_true_eq]
        exact ⟨h.1, ih h.2 (by omega)⟩

theorem Sparse.all_erase {l : Sparse α} {p : Nat × α → Bool} (k : Nat) (h : l.all p = true) : (Sparse.erase l k).all p = true := by
  induction l with
  | nil => rfl
  | cons c l ih =>
    obtain ⟨j, v⟩ := c
    simp only [List.all_cons, Bool.and_eq_true] at h
    unfold Sparse.erase
    split
    · exact ih h.2
    · simp [h.1, ih h.2]

theorem Sparse.all_insert {l : Sparse α} {p : Nat × α → Bool} {k : Nat} {v : α} (h : l.all p = true) (hv : p (k, v) = true) :
    (Sparse.insert l k v).all p = true := by
  induction l with
  | nil => simp [Sparse.insert, hv]
  | cons c l ih =>
    obtain ⟨j, u⟩ := c
    simp only [List.all_cons, Bool.and_eq_true] at h
    unfold Sparse.insert
    split
    · simp only [List.all_cons, hv, h.2, Bool.and_self]
    · split
      · simp only [List.all_cons, hv, h.1, h.2, Bool.and_self]
      · simp only [List.all_cons, h.1, ih h.2, Bool.and_self]

/-- A write with the default of its key keeps the canonical form. -/
theorem Sparse.wf_set [DecidableEq α] {d : Nat → α} {l : Sparse α} (k : Nat) (v : α) (h : Sparse.wf d l = true) :
    Sparse.wf d (Sparse.set l (d k) k v) = true := by
  simp only [Sparse.wf, Bool.and_eq_true] at *
  unfold Sparse.set
  split
  · exact ⟨Sparse.rising_erase k h.1, Sparse.all_erase k h.2⟩
  · exact ⟨Sparse.rising_insert v h.1 (Nat.zero_le _), Sparse.all_insert h.2 (by simpa using ‹_›)⟩

theorem Sparse.rising_filter {l : Sparse α} {a : Nat} (p : Nat × α → Bool) (h : Sparse.rising a l = true) :
    Sparse.rising a (l.filter p) = true := by
  induction l generalizing a with
  | nil => rfl
  | cons c l ih =>
    obtain ⟨j, v⟩ := c
    simp only [Sparse.rising, Bool.and_eq_true, decide_eq_true_eq] at h
    simp only [List.filter_cons]
    split
    · simp only [Sparse.rising, Bool.and_eq_true, decide_eq_true_eq]
      exact ⟨h.1, ih h.2⟩
    · exact Sparse.rising_mono (ih h.2) (by omega)

/-- Leaving entries out keeps the canonical form. -/
theorem Sparse.wf_filter [DecidableEq α] {d : Nat → α} {l : Sparse α} (p : Nat × α → Bool) (h : Sparse.wf d l = true) :
    Sparse.wf d (l.filter p) = true := by
  simp only [Sparse.wf, Bool.and_eq_true] at *
  refine ⟨Sparse.rising_filter p h.1, ?_⟩
  rw [List.all_eq_true] at *
  intro c hc
  exact h.2 c (List.mem_filter.1 hc).1

/-! ## Byte memories -/

/-- A byte written is read. -/
@[simp] theorem Memory.byte_setByte_self (m : Memory) (a : Nat) (b : Byte) : (m.setByte a b).byte a = b := Sparse.get_set_self m 0#8 a b

/-- The write of a byte leaves every other byte alone. -/
theorem Memory.byte_setByte_other (m : Memory) {a c : Nat} (b : Byte) (h : a ≠ c) : (m.setByte a b).byte c = m.byte c :=
  Sparse.get_set_other m 0#8 0#8 b h

/-- The write of a byte keeps the canonical form. -/
theorem Memory.wf_setByte {m : Memory} (a : Nat) (b : Byte) (h : m.wf = true) : (m.setByte a b).wf = true :=
  Sparse.wf_set (d := fun _ => 0#8) a b h

/-- The write of a list of bytes keeps the canonical form. -/
theorem Memory.wf_writeBytes {m : Memory} (a : Nat) (bs : List Byte) (h : m.wf = true) : (m.writeBytes a bs).wf = true := by
  induction bs generalizing m a with
  | nil => exact h
  | cons b bs ih => exact ih (a + 1) (Memory.wf_setByte a b h)

/-- Clearing a range keeps the canonical form. -/
theorem Memory.wf_clearRange {m : Memory} (lo hi : Nat) (h : m.wf = true) : (m.clearRange lo hi).wf = true :=
  Sparse.wf_filter _ h

/-- A list of bytes written leaves every byte outside its range alone. -/
theorem Memory.byte_writeBytes_other (m : Memory) {a c : Nat} (bs : List Byte) (h : c < a ∨ a + bs.length ≤ c) :
    (m.writeBytes a bs).byte c = m.byte c := by
  induction bs generalizing m a with
  | nil => rfl
  | cons b bs ih =>
    simp only [List.length_cons] at h
    unfold Memory.writeBytes
    rw [ih (m.setByte a b) (by omega), Memory.byte_setByte_other m b (by omega)]

/-- A list of bytes written is read at its range. -/
theorem Memory.byte_writeBytes_in (m : Memory) (a : Nat) (bs : List Byte) (i : Nat) (h : i < bs.length) :
    (m.writeBytes a bs).byte (a + i) = bs[i] := by
  induction bs generalizing m a i with
  | nil => simp at h
  | cons b bs ih =>
    unfold Memory.writeBytes
    cases i with
    | zero => rw [Memory.byte_writeBytes_other _ bs (by omega)]; simp
    | succ i =>
      have := ih (m.setByte a b) (a + 1) i (by simpa using h)
      rw [show a + (i + 1) = a + 1 + i by omega, this]; simp

end Sys2Proof.Machine
end

