-- ==== Sys2Proof/Laws/Keeps.lean ====
section
/-!
SUPPORT. What no function of the model undoes: the queue, device time, the count of free values, the bits of OTP, and the canonical form of
the basin and the SRAM. The files Keeps* have one lemma per function of the model, State.kp_<name>.
-/
namespace Sys2Proof.Machine
/-- What no function of the model undoes, from a state r to a later one: the queue, device time, the free-value counter, the bits of OTP,
and the canonical form of the memories. -/
structure State.Keeps (r s : State) : Prop where
  pending : s.pending = r.pending
  now : r.now ≤ s.now
  fresh : r.fresh ≤ s.fresh
  otp : ∀ a, r.sec.otp.byte a &&& s.sec.otp.byte a = r.sec.otp.byte a
  otpWf : r.sec.otp.wf = true → s.sec.otp.wf = true
  basin : r.bas.mem.wf = true → s.bas.mem.wf = true
  sram : r.mgmt.sram.wf = true → s.mgmt.sram.wf = true

theorem State.Keeps.refl (s : State) : s.Keeps s :=
  ⟨rfl, Nat.le_refl _, Nat.le_refl _, fun _ => BitVec.and_self, id, id, id⟩
theorem State.Keeps.of_fst {α : Type} {r t : State} {p : State × α} {a : α} (e : p = (t, a)) (h : r.Keeps p.1) : r.Keeps t := by rw [e] at h; exact h
theorem State.Keeps.foldl {α : Type} {r : State} {f : State → α → State} (hf : ∀ s a, r.Keeps s → r.Keeps (f s a)) : ∀ (l : List α) (s : State), r.Keeps s → r.Keeps (l.foldl f s)
  | [], _, h => h
  | a :: l, s, h => State.Keeps.foldl hf l (f s a) (hf s a h)
theorem State.Keeps.foldl1 {α β : Type} {r : State} {f : State × β → α → State × β} (hf : ∀ p a, r.Keeps p.1 → r.Keeps (f p a).1) :
    ∀ (l : List α) (p : State × β), r.Keeps p.1 → r.Keeps (l.foldl f p).1
  | [], _, h => h
  | a :: l, p, h => State.Keeps.foldl1 hf l (f p a) (hf p a h)
theorem State.Keeps.later {r s : State} (h : r.Keeps s) (t : Nat) : r.Keeps { s with now := max s.now t } :=
  ⟨h.pending, Nat.le_trans h.now (Nat.le_max_left ..), h.fresh, h.otp, h.otpWf, h.basin, h.sram⟩
theorem Memory.rising_canon (lo hi : Nat) (m : Memory) : Sparse.rising lo (Memory.canon lo hi m) = true := by
  induction m generalizing lo with
  | nil => rfl
  | cons c r ih =>
    unfold Memory.canon
    split
    · simp only [Sparse.rising, Bool.and_eq_true, decide_eq_true_eq]
      exact ⟨by omega, ih (c.1 + 1)⟩
    · exact ih lo

theorem Memory.mem_canon {lo hi : Nat} {m : Memory} {c : Host.Cell} (h : c ∈ Memory.canon lo hi m) : c.1 < hi ∧ c.2 ≠ 0#8 := by
  induction m generalizing lo with
  | nil => simp [Memory.canon] at h
  | cons d r ih =>
    unfold Memory.canon at h
    split at h
    · rcases List.mem_cons.1 h with rfl | h
      · exact ⟨by omega, by simp_all⟩
      · exact ih h
    · exact ih h

theorem Sparse.rising_append {α : Type} {l m : Sparse α} {a b : Nat} (hl : Sparse.rising a l = true) (hb : ∀ c ∈ l, c.1 < b)
    (hm : Sparse.rising b m = true) (hab : a ≤ b) : Sparse.rising a (l ++ m) = true := by
  induction l generalizing a with
  | nil => exact Sparse.rising_mono hm hab
  | cons c l ih =>
    obtain ⟨j, v⟩ := c
    simp only [Sparse.rising, Bool.and_eq_true, decide_eq_true_eq, List.cons_append] at hl ⊢
    have := hb (j, v) (List.mem_cons_self ..)
    exact ⟨hl.1, ih hl.2 (fun c hc => hb c (List.mem_cons_of_mem _ hc)) this⟩

theorem Sparse.rising_from {α : Type} {l : Sparse α} {a b : Nat} (hl : Sparse.rising a l = true) (hb : ∀ c ∈ l, b ≤ c.1) : Sparse.rising b l = true := by
  cases l with
  | nil => rfl
  | cons c l =>
    obtain ⟨j, v⟩ := c
    simp only [Sparse.rising, Bool.and_eq_true, decide_eq_true_eq] at hl ⊢
    exact ⟨hb (j, v) (List.mem_cons_self ..), hl.2⟩

/-- A run of bytes put into a memory keeps the canonical form, whatever the list of cells. -/
theorem Memory.wf_splice {m : Memory} (lo n : Nat) (cells : Memory) (h : m.wf = true) : (m.splice lo n cells).wf = true := by
  simp only [Memory.wf, Sparse.wf, Bool.and_eq_true] at *
  unfold Memory.splice
  refine ⟨?_, ?_⟩
  · refine Sparse.rising_append (b := lo + n) (Sparse.rising_append (b := lo) (Sparse.rising_filter _ h.1) ?_ (Memory.rising_canon _ _ _) (Nat.zero_le _)) ?_
      (Sparse.rising_from (Sparse.rising_filter _ h.1) ?_) (Nat.zero_le _)
    · intro c hc; simpa using (List.mem_filter.1 hc).2
    · intro c hc
      rcases List.mem_append.1 hc with hc | hc
      · have : c.1 < lo := by simpa using (List.mem_filter.1 hc).2
        omega
      · exact (Memory.mem_canon hc).1
    · intro c hc; simpa using (List.mem_filter.1 hc).2
  · rw [List.all_eq_true] at *
    intro c hc
    rcases List.mem_append.1 hc with hc | hc
    · rcases List.mem_append.1 hc with hc | hc
      · exact h.2 c (List.mem_filter.1 hc).1
      · simpa using (Memory.mem_canon hc).2
    · exact h.2 c (List.mem_filter.1 hc).1

theorem Memory.wf_cellsFrom (bs : List Byte) (i : Nat) : Sparse.rising i (cellsFrom i bs) = true ∧ ∀ c ∈ cellsFrom i bs, c.2 ≠ 0#8 := by
  induction bs generalizing i with
  | nil => exact ⟨rfl, by simp [cellsFrom]⟩
  | cons b bs ih =>
    unfold cellsFrom
    split
    · exact ⟨Sparse.rising_mono (ih (i + 1)).1 (Nat.le_succ i), (ih (i + 1)).2⟩
    · refine ⟨?_, ?_⟩
      · simp only [Sparse.rising, Nat.le_refl, decide_true, Bool.true_and]
        exact (ih (i + 1)).1
      · intro c hc
        rcases List.mem_cons.1 hc with rfl | hc
        · assumption
        · exact (ih (i + 1)).2 c hc

theorem Basin.wf_setByte {b : Basin} (a : Nat) (v : Byte) (h : b.mem.wf = true) : (b.setByte a v).mem.wf = true := by
  unfold Basin.setByte
  split
  · exact h
  · exact Memory.wf_setByte a v h

theorem Basin.wf_write {b : Basin} (a : Nat) (vs : List Byte) (h : b.mem.wf = true) : (b.write a vs).mem.wf = true := by
  induction vs generalizing b a with
  | nil => exact h
  | cons v vs ih => exact ih (a + 1) (Basin.wf_setByte a v h)

theorem Basin.wf_fill {b : Basin} (lo n : Nat) (cells : Memory) (h : b.mem.wf = true) : (b.fill lo n cells).mem.wf = true :=
  Memory.wf_splice _ _ _ h

theorem Mgmt.setReg_sram (m : Mgmt) (r : BitVec 5) (v : Nat) : (m.setReg r v).sram = m.sram := by
  unfold Mgmt.setReg
  split <;> rfl

/-- A bit programmed stays, and no bit falls. -/
theorem otpSet_keeps (otp : Memory) (b a : Nat) : otp.byte a &&& (otpSet otp b).byte a = otp.byte a := by
  unfold otpSet
  by_cases h : b / 8 = a
  · rw [h, Memory.byte_setByte_self]
    apply BitVec.eq_of_getLsbD_eq
    intro i _
    simp [BitVec.getLsbD_and, BitVec.getLsbD_or]
    tauto
  · rw [Memory.byte_setByte_other _ _ h]
    exact BitVec.and_self

theorem otpSets_keep (bs : List Nat) (otp : Memory) (a : Nat) : otp.byte a &&& (bs.foldl otpSet otp).byte a = otp.byte a := by
  induction bs generalizing otp with
  | nil => exact BitVec.and_self
  | cons b bs ih =>
    have h1 := otpSet_keeps otp b a
    have h2 := ih (otpSet otp b)
    simp only [List.foldl_cons]
    rw [← h1, BitVec.and_assoc, h2, h1]

theorem otpSets_wf (bs : List Nat) (otp : Memory) (h : otp.wf = true) : (bs.foldl otpSet otp).wf = true := by
  induction bs generalizing otp with
  | nil => exact h
  | cons b bs ih => exact ih _ (Memory.wf_setByte _ _ h)

end Sys2Proof.Machine
end

