-- ==== Sys2Proof/Laws/KeepsOps.lean ====
section
/-!
SUPPORT. State.Keeps of every function of the model: the shared operations and settling.
-/
namespace Sys2Proof.Machine

theorem State.kp_put {r s : State} (h : r.Keeps s) (x1 : Fld) (x2 : Nat) : r.Keeps (State.put s x1 x2) := by
  unfold State.put
  repeat' (first
    | with_reducible assumption
    | intro _
    | split
    | lift_lets
    | (with_reducible refine State.Keeps.of_fst (by assumption) ?_)
    | (with_reducible apply State.Keeps.foldl)
    | (with_reducible exact State.Keeps.later (by assumption) _)
    | (with_reducible apply State.Keeps.foldl1)
    | (with_reducible constructor <;> dsimp only <;> first | refine State.Keeps.pending ?_ | refine State.Keeps.now ?_ | refine State.Keeps.fresh ?_ | refine State.Keeps.otp ?_ | refine State.Keeps.otpWf ?_ | refine State.Keeps.basin ?_ | refine State.Keeps.sram ?_))

theorem State.kp_putBit {r s : State} (h : r.Keeps s) (x1 : Fld) (x2 : Nat) (x3 : Bool) : r.Keeps (State.putBit s x1 x2 x3) := by
  unfold State.putBit
  repeat' (first
    | with_reducible assumption
    | intro _
    | split
    | lift_lets
    | (with_reducible refine State.Keeps.of_fst (by assumption) ?_)
    | (with_reducible apply State.kp_put))

theorem State.kp_setLive {r s : State} (h : r.Keeps s) (x1 : Nat) (x2 : Bool) : r.Keeps (State.setLive s x1 x2) := by
  unfold State.setLive
  repeat' (first
    | with_reducible assumption
    | intro _
    | split
    | lift_lets
    | (with_reducible refine State.Keeps.of_fst (by assumption) ?_)
    | (with_reducible apply State.kp_putBit))

theorem State.kp_escalate {r s : State} (h : r.Keeps s) (x1 : Nat) : r.Keeps (State.escalate s x1) := by
  unfold State.escalate
  repeat' (first
    | with_reducible assumption
    | intro _
    | split
    | lift_lets
    | (with_reducible refine State.Keeps.of_fst (by assumption) ?_)
    | (with_reducible apply State.kp_put)
    | (with_reducible apply State.Keeps.foldl)
    | (with_reducible exact State.Keeps.later (by assumption) _)
    | (with_reducible apply State.Keeps.foldl1)
    | (with_reducible constructor <;> dsimp only <;> first | refine State.Keeps.pending ?_ | refine State.Keeps.now ?_ | refine State.Keeps.fresh ?_ | refine State.Keeps.otp ?_ | refine State.Keeps.otpWf ?_ | refine State.Keeps.basin ?_ | refine State.Keeps.sram ?_))

theorem State.kp_flag {r s : State} (h : r.Keeps s) (x1 : Fld) : r.Keeps (State.flag s x1) := by
  unfold State.flag
  repeat' (first
    | with_reducible assumption
    | intro _
    | split
    | lift_lets
    | (with_reducible refine State.Keeps.of_fst (by assumption) ?_)
    | (with_reducible apply State.kp_put))

theorem State.kp_inc {r s : State} (h : r.Keeps s) (x1 : Fld) (x2 : optParam Nat 1) : r.Keeps (State.inc s x1 x2) := by
  unfold State.inc
  repeat' (first
    | with_reducible assumption
    | intro _
    | split
    | lift_lets
    | (with_reducible refine State.Keeps.of_fst (by assumption) ?_)
    | (with_reducible apply State.kp_put))

theorem State.kp_sendMsg {r s : State} (h : r.Keeps s) (x1 : Nat) (x2 : Nat) (x3 : List Byte) : r.Keeps (State.sendMsg s x1 x2 x3) := by
  unfold State.sendMsg
  repeat' (first
    | with_reducible assumption
    | intro _
    | split
    | lift_lets
    | (with_reducible refine State.Keeps.of_fst (by assumption) ?_)
    | (with_reducible apply State.kp_inc)
    | (with_reducible apply State.Keeps.foldl)
    | (with_reducible exact State.Keeps.later (by assumption) _)
    | (with_reducible apply State.Keeps.foldl1)
    | (with_reducible constructor <;> dsimp only <;> first | refine State.Keeps.pending ?_ | refine State.Keeps.now ?_ | refine State.Keeps.fresh ?_ | refine State.Keeps.otp ?_ | refine State.Keeps.otpWf ?_ | refine State.Keeps.basin ?_ | refine State.Keeps.sram ?_))

theorem State.kp_signalFault {r s : State} (h : r.Keeps s) (x1 : Nat) : r.Keeps (State.signalFault s x1) := by
  unfold State.signalFault
  repeat' (first
    | with_reducible assumption
    | (intro t; (have ht : r.Keeps t := ?_); clear_value t; (try (rotate_left; unfold t)))
    | intro _
    | split
    | lift_lets
    | (with_reducible refine State.Keeps.of_fst (by assumption) ?_)
    | (with_reducible apply State.kp_flag)
    | (with_reducible apply State.kp_sendMsg))

theorem State.kp_recordRaise {r s : State} (h : r.Keeps s) (x1 : Nat) (x2 : Option Nat) : r.Keeps (State.recordRaise s x1 x2) := by
  unfold State.recordRaise
  repeat' (first
    | with_reducible assumption
    | (intro t; (have ht : r.Keeps t := ?_); clear_value t; (try (rotate_left; unfold t)))
    | intro _
    | split
    | lift_lets
    | (with_reducible refine State.Keeps.of_fst (by assumption) ?_)
    | (with_reducible apply State.kp_inc)
    | (with_reducible apply State.kp_putBit)
    | (with_reducible apply State.Keeps.foldl)
    | (with_reducible exact State.Keeps.later (by assumption) _)
    | (with_reducible apply State.Keeps.foldl1)
    | (with_reducible constructor <;> dsimp only <;> first | refine State.Keeps.pending ?_ | refine State.Keeps.now ?_ | refine State.Keeps.fresh ?_ | refine State.Keeps.otp ?_ | refine State.Keeps.otpWf ?_ | refine State.Keeps.basin ?_ | refine State.Keeps.sram ?_))

theorem State.kp_issueInt {r s : State} (h : r.Keeps s) : r.Keeps (State.issueInt s) := by
  unfold State.issueInt
  repeat' (first
    | with_reducible assumption
    | intro _
    | split
    | lift_lets
    | (with_reducible refine State.Keeps.of_fst (by assumption) ?_)
    | (with_reducible apply State.Keeps.foldl)
    | (with_reducible exact State.Keeps.later (by assumption) _)
    | (with_reducible apply State.Keeps.foldl1)
    | (with_reducible constructor <;> dsimp only <;> first | refine State.Keeps.pending ?_ | refine State.Keeps.now ?_ | refine State.Keeps.fresh ?_ | refine State.Keeps.otp ?_ | refine State.Keeps.otpWf ?_ | refine State.Keeps.basin ?_ | refine State.Keeps.sram ?_))

theorem State.kp_setCh {r s : State} (h : r.Keeps s) (x1 : ChamberId) (x2 : Chamber) : r.Keeps (State.setCh s x1 x2) := by
  unfold State.setCh
  repeat' (first
    | with_reducible assumption
    | intro _
    | split
    | lift_lets
    | (with_reducible refine State.Keeps.of_fst (by assumption) ?_)
    | (with_reducible apply State.Keeps.foldl)
    | (with_reducible exact State.Keeps.later (by assumption) _)
    | (with_reducible apply State.Keeps.foldl1)
    | (with_reducible constructor <;> dsimp only <;> first | refine State.Keeps.pending ?_ | refine State.Keeps.now ?_ | refine State.Keeps.fresh ?_ | refine State.Keeps.otp ?_ | refine State.Keeps.otpWf ?_ | refine State.Keeps.basin ?_ | refine State.Keeps.sram ?_))

theorem State.kp_fenceChamber {r s : State} (h : r.Keeps s) (x1 : Nat) : r.Keeps (State.fenceChamber s x1) := by
  unfold State.fenceChamber
  repeat' (first
    | with_reducible assumption
    | (intro t; (have ht : r.Keeps t := ?_); clear_value t; (try (rotate_left; unfold t)))
    | intro _
    | split
    | lift_lets
    | (with_reducible refine State.Keeps.of_fst (by assumption) ?_)
    | (with_reducible apply State.kp_putBit)
    | (with_reducible apply State.kp_setCh))

theorem State.kp_lightReaction {r s : State} (h : r.Keeps s) (x1 : Nat) (x2 : Option Nat) : r.Keeps (State.lightReaction s x1 x2) := by
  unfold State.lightReaction
  repeat' (first
    | with_reducible assumption
    | (intro t; (have ht : r.Keeps t := ?_); clear_value t; (try (rotate_left; unfold t)))
    | intro _
    | split
    | lift_lets
    | (with_reducible refine State.Keeps.of_fst (by assumption) ?_)
    | (with_reducible apply State.kp_issueInt)
    | (with_reducible apply State.kp_putBit)
    | (with_reducible apply State.kp_fenceChamber)
    | (with_reducible apply State.Keeps.foldl)
    | (with_reducible exact State.Keeps.later (by assumption) _)
    | (with_reducible apply State.Keeps.foldl1)
    | (with_reducible constructor <;> dsimp only <;> first | refine State.Keeps.pending ?_ | refine State.Keeps.now ?_ | refine State.Keeps.fresh ?_ | refine State.Keeps.otp ?_ | refine State.Keeps.otpWf ?_ | refine State.Keeps.basin ?_ | refine State.Keeps.sram ?_))

theorem State.kp_issueNmi {r s : State} (h : r.Keeps s) : r.Keeps (State.issueNmi s) := by
  unfold State.issueNmi
  repeat' (first
    | with_reducible assumption
    | intro _
    | split
    | lift_lets
    | (with_reducible refine State.Keeps.of_fst (by assumption) ?_)
    | (with_reducible apply State.Keeps.foldl)
    | (with_reducible exact State.Keeps.later (by assumption) _)
    | (with_reducible apply State.Keeps.foldl1)
    | (with_reducible constructor <;> dsimp only <;> first | refine State.Keeps.pending ?_ | refine State.Keeps.now ?_ | refine State.Keeps.fresh ?_ | refine State.Keeps.otp ?_ | refine State.Keeps.otpWf ?_ | refine State.Keeps.basin ?_ | refine State.Keeps.sram ?_))

theorem State.kp_endPeer {r s : State} (h : r.Keeps s) : r.Keeps (State.endPeer s) := by
  unfold State.endPeer
  repeat' (first
    | with_reducible assumption
    | (intro t; (have ht : r.Keeps t := ?_); clear_value t; (try (rotate_left; unfold t)))
    | intro _
    | split
    | lift_lets
    | (with_reducible refine State.Keeps.of_fst (by assumption) ?_)
    | (with_reducible apply State.kp_flag)
    | (with_reducible apply State.kp_put)
    | (with_reducible apply State.Keeps.foldl)
    | (with_reducible exact State.Keeps.later (by assumption) _)
    | (with_reducible apply State.Keeps.foldl1)
    | (with_reducible constructor <;> dsimp only <;> first | refine State.Keeps.pending ?_ | refine State.Keeps.now ?_ | refine State.Keeps.fresh ?_ | refine State.Keeps.otp ?_ | refine State.Keeps.otpWf ?_ | refine State.Keeps.basin ?_ | refine State.Keeps.sram ?_))

theorem State.kp_endHost {r s : State} (h : r.Keeps s) : r.Keeps (State.endHost s) := by
  unfold State.endHost
  repeat' (first
    | with_reducible assumption
    | (intro t; (have ht : r.Keeps t := ?_); clear_value t; (try (rotate_left; unfold t)))
    | intro _
    | split
    | lift_lets
    | (with_reducible refine State.Keeps.of_fst (by assumption) ?_)
    | (with_reducible apply State.kp_flag)
    | (with_reducible apply State.kp_put)
    | (with_reducible apply State.Keeps.foldl)
    | (with_reducible exact State.Keeps.later (by assumption) _)
    | (with_reducible apply State.Keeps.foldl1)
    | (with_reducible constructor <;> dsimp only <;> first | refine State.Keeps.pending ?_ | refine State.Keeps.now ?_ | refine State.Keeps.fresh ?_ | refine State.Keeps.otp ?_ | refine State.Keeps.otpWf ?_ | refine State.Keeps.basin ?_ | refine State.Keeps.sram ?_))

theorem State.kp_basWrite {r s : State} (h : r.Keeps s) (a : Nat) (vs : List Byte) : r.Keeps (s.basWrite a vs) :=
  ⟨h.pending, h.now, h.fresh, h.otp, h.otpWf, fun w => Basin.wf_write a vs (h.basin w), h.sram⟩

theorem State.kp_incMod {r s : State} (h : r.Keeps s) (x1 : Fld) (x2 : optParam Nat 1) : r.Keeps (State.incMod s x1 x2) := by
  unfold State.incMod
  repeat' (first
    | with_reducible assumption
    | intro _
    | split
    | lift_lets
    | (with_reducible refine State.Keeps.of_fst (by assumption) ?_)
    | (with_reducible apply State.kp_put))

theorem State.kp_complete {r s : State} (h : r.Keeps s) (x1 : Pair) (x2 : Nat) (x3 : Nat) (x4 : Nat) (x5 : List Byte) : r.Keeps (State.complete s x1 x2 x3 x4 x5) := by
  unfold State.complete
  repeat' (first
    | with_reducible assumption
    | (intro t; (have ht : r.Keeps t := ?_); clear_value t; (try (rotate_left; unfold t)))
    | intro _
    | split
    | lift_lets
    | (with_reducible refine State.Keeps.of_fst (by assumption) ?_)
    | (with_reducible apply State.kp_basWrite)
    | (with_reducible apply State.kp_put)
    | (with_reducible apply State.kp_incMod)
    | (with_reducible apply State.kp_inc)
    | (with_reducible apply State.kp_flag)
    | (with_reducible apply State.kp_sendMsg))

theorem State.kp_status {r s : State} (h : r.Keeps s) (x1 : Pair) (x2 : Nat) : r.Keeps (State.status s x1 x2) := by
  unfold State.status
  repeat' (first
    | with_reducible assumption
    | intro _
    | split
    | lift_lets
    | (with_reducible refine State.Keeps.of_fst (by assumption) ?_)
    | (with_reducible apply State.kp_complete))

theorem State.kp_resetCommands {r s : State} (h : r.Keeps s) (x1 : Nat → Bool) : r.Keeps (State.resetCommands s x1) := by
  unfold State.resetCommands
  repeat' (first
    | with_reducible assumption
    | intro _
    | split
    | lift_lets
    | (with_reducible refine State.Keeps.of_fst (by assumption) ?_)
    | (with_reducible apply State.kp_status)
    | (with_reducible apply State.Keeps.foldl))

theorem State.kp_blockClear {r s : State} (h : r.Keeps s) (x1 : Block) : r.Keeps (State.blockClear s x1) := by
  unfold State.blockClear
  repeat' (first
    | with_reducible assumption
    | (intro t; (have ht : r.Keeps t := ?_); clear_value t; (try (rotate_left; unfold t)))
    | intro _
    | split
    | lift_lets
    | (with_reducible refine State.Keeps.of_fst (by assumption) ?_)
    | (with_reducible apply State.kp_flag)
    | (with_reducible apply State.kp_put)
    | (with_reducible apply State.kp_endPeer)
    | (with_reducible apply State.kp_endHost)
    | (with_reducible apply State.kp_resetCommands)
    | (with_reducible apply State.Keeps.foldl)
    | (with_reducible exact State.Keeps.later (by assumption) _)
    | (with_reducible apply State.Keeps.foldl1)
    | (with_reducible constructor <;> dsimp only <;> first | refine State.Keeps.pending ?_ | refine State.Keeps.now ?_ | refine State.Keeps.fresh ?_ | refine State.Keeps.otp ?_ | refine State.Keeps.otpWf ?_ | refine State.Keeps.basin ?_ | refine State.Keeps.sram ?_))

theorem State.kp_blockReset {r s : State} (h : r.Keeps s) (x1 : Block) : r.Keeps (State.blockReset s x1) := by
  unfold State.blockReset
  repeat' (first
    | with_reducible assumption
    | intro _
    | split
    | lift_lets
    | (with_reducible refine State.Keeps.of_fst (by assumption) ?_)
    | (with_reducible apply State.kp_blockClear)
    | (with_reducible apply State.Keeps.foldl)
    | (with_reducible exact State.Keeps.later (by assumption) _)
    | (with_reducible apply State.Keeps.foldl1)
    | (with_reducible constructor <;> dsimp only <;> first | refine State.Keeps.pending ?_ | refine State.Keeps.now ?_ | refine State.Keeps.fresh ?_ | refine State.Keeps.otp ?_ | refine State.Keeps.otpWf ?_ | refine State.Keeps.basin ?_ | refine State.Keeps.sram ?_))

theorem State.kp_dropHealth {r s : State} (h : r.Keeps s) (x1 : Nat) : r.Keeps (State.dropHealth s x1) := by
  unfold State.dropHealth
  repeat' (first
    | with_reducible assumption
    | intro _
    | split
    | lift_lets
    | (with_reducible refine State.Keeps.of_fst (by assumption) ?_)
    | (with_reducible apply State.Keeps.foldl)
    | (with_reducible exact State.Keeps.later (by assumption) _)
    | (with_reducible apply State.Keeps.foldl1)
    | (with_reducible constructor <;> dsimp only <;> first | refine State.Keeps.pending ?_ | refine State.Keeps.now ?_ | refine State.Keeps.fresh ?_ | refine State.Keeps.otp ?_ | refine State.Keeps.otpWf ?_ | refine State.Keeps.basin ?_ | refine State.Keeps.sram ?_))

theorem State.kp_requestReset {r s : State} (h : r.Keeps s) (x1 : Nat) : r.Keeps (State.requestReset s x1) := by
  unfold State.requestReset
  repeat' (first
    | with_reducible assumption
    | intro _
    | split
    | lift_lets
    | (with_reducible refine State.Keeps.of_fst (by assumption) ?_)
    | (with_reducible apply State.Keeps.foldl)
    | (with_reducible exact State.Keeps.later (by assumption) _)
    | (with_reducible apply State.Keeps.foldl1)
    | (with_reducible constructor <;> dsimp only <;> first | refine State.Keeps.pending ?_ | refine State.Keeps.now ?_ | refine State.Keeps.fresh ?_ | refine State.Keeps.otp ?_ | refine State.Keeps.otpWf ?_ | refine State.Keeps.basin ?_ | refine State.Keeps.sram ?_))

theorem State.kp_controlReaction {r s : State} (h : r.Keeps s) (x1 : Nat) : r.Keeps (State.controlReaction s x1) := by
  unfold State.controlReaction
  repeat' (first
    | with_reducible assumption
    | (intro t; (have ht : r.Keeps t := ?_); clear_value t; (try (rotate_left; unfold t)))
    | intro _
    | split
    | lift_lets
    | (with_reducible refine State.Keeps.of_fst (by assumption) ?_)
    | (with_reducible apply State.kp_issueInt)
    | (with_reducible apply State.kp_issueNmi)
    | (with_reducible apply State.kp_blockReset)
    | (with_reducible apply State.kp_dropHealth)
    | (with_reducible apply State.kp_requestReset))

theorem State.kp_raiseAt {r s : State} (h : r.Keeps s) (x1 : Nat) (x2 : Option Nat) : r.Keeps (State.raiseAt s x1 x2) := by
  unfold State.raiseAt
  repeat' (first
    | with_reducible assumption
    | (intro t; (have ht : r.Keeps t := ?_); clear_value t; (try (rotate_left; unfold t)))
    | intro _
    | split
    | lift_lets
    | (with_reducible refine State.Keeps.of_fst (by assumption) ?_)
    | (with_reducible apply State.kp_escalate)
    | (with_reducible apply State.kp_signalFault)
    | (with_reducible apply State.kp_recordRaise)
    | (with_reducible apply State.kp_lightReaction)
    | (with_reducible apply State.kp_controlReaction))

theorem State.kp_raise {r s : State} (h : r.Keeps s) (x1 : Nat) (x2 : optParam (Option Nat) Option.none) : r.Keeps (State.raise s x1 x2) := by
  unfold State.raise
  repeat' (first
    | with_reducible assumption
    | (intro t; (have ht : r.Keeps t := ?_); clear_value t; (try (rotate_left; unfold t)))
    | intro _
    | split
    | lift_lets
    | (with_reducible refine State.Keeps.of_fst (by assumption) ?_)
    | (with_reducible apply State.kp_setLive)
    | (with_reducible apply State.kp_raiseAt)
    | (with_reducible apply State.Keeps.foldl)
    | (with_reducible exact State.Keeps.later (by assumption) _)
    | (with_reducible apply State.Keeps.foldl1)
    | (with_reducible constructor <;> dsimp only <;> first | refine State.Keeps.pending ?_ | refine State.Keeps.now ?_ | refine State.Keeps.fresh ?_ | refine State.Keeps.otp ?_ | refine State.Keeps.otpWf ?_ | refine State.Keeps.basin ?_ | refine State.Keeps.sram ?_))

theorem State.kp_discard {r s : State} (h : r.Keeps s) (x1 : Requester) (x2 : Bool) (x3 : Nat) (x4 : List Nat) : r.Keeps (State.discard s x1 x2 x3 x4) := by
  unfold State.discard
  repeat' (first
    | with_reducible assumption
    | (intro t; (have ht : r.Keeps t := ?_); clear_value t; (try (rotate_left; unfold t)))
    | intro _
    | split
    | lift_lets
    | (with_reducible refine State.Keeps.of_fst (by assumption) ?_)
    | (with_reducible apply State.kp_raise)
    | (with_reducible apply State.kp_inc)
    | (with_reducible apply State.kp_put)
    | (with_reducible apply State.kp_flag)
    | (with_reducible apply State.Keeps.foldl))

theorem State.kp_landing {r s : State} (h : r.Keeps s) (x1 : Bool) (x2 : Bool) : r.Keeps (State.landing s x1 x2) := by
  unfold State.landing
  repeat' (first
    | with_reducible assumption
    | intro _
    | split
    | lift_lets
    | (with_reducible refine State.Keeps.of_fst (by assumption) ?_)
    | (with_reducible apply State.Keeps.foldl)
    | (with_reducible exact State.Keeps.later (by assumption) _)
    | (with_reducible apply State.Keeps.foldl1)
    | (with_reducible constructor <;> dsimp only <;> first | refine State.Keeps.pending ?_ | refine State.Keeps.now ?_ | refine State.Keeps.fresh ?_ | refine State.Keeps.otp ?_ | refine State.Keeps.otpWf ?_ | refine State.Keeps.basin ?_ | refine State.Keeps.sram ?_))

theorem State.kp_setBerth {r s : State} (h : r.Keeps s) (x1 : Fin 64) (x2 : Berth) : r.Keeps (State.setBerth s x1 x2) := by
  unfold State.setBerth
  repeat' (first
    | with_reducible assumption
    | intro _
    | split
    | lift_lets
    | (with_reducible refine State.Keeps.of_fst (by assumption) ?_)
    | (with_reducible apply State.Keeps.foldl)
    | (with_reducible exact State.Keeps.later (by assumption) _)
    | (with_reducible apply State.Keeps.foldl1)
    | (with_reducible constructor <;> dsimp only <;> first | refine State.Keeps.pending ?_ | refine State.Keeps.now ?_ | refine State.Keeps.fresh ?_ | refine State.Keeps.otp ?_ | refine State.Keeps.otpWf ?_ | refine State.Keeps.basin ?_ | refine State.Keeps.sram ?_))

theorem State.kp_setLink {r s : State} (h : r.Keeps s) (x1 : LinkId) (x2 : Link) : r.Keeps (State.setLink s x1 x2) := by
  unfold State.setLink
  repeat' (first
    | with_reducible assumption
    | intro _
    | split
    | lift_lets
    | (with_reducible refine State.Keeps.of_fst (by assumption) ?_)
    | (with_reducible apply State.Keeps.foldl)
    | (with_reducible exact State.Keeps.later (by assumption) _)
    | (with_reducible apply State.Keeps.foldl1)
    | (with_reducible constructor <;> dsimp only <;> first | refine State.Keeps.pending ?_ | refine State.Keeps.now ?_ | refine State.Keeps.fresh ?_ | refine State.Keeps.otp ?_ | refine State.Keeps.otpWf ?_ | refine State.Keeps.basin ?_ | refine State.Keeps.sram ?_))

theorem State.kp_eyeStart {r s : State} (h : r.Keeps s) (x1 : Fin 6) : r.Keeps (State.eyeStart s x1) := by
  unfold State.eyeStart
  repeat' (first
    | with_reducible assumption
    | (intro t; (have ht : r.Keeps t := ?_); clear_value t; (try (rotate_left; unfold t)))
    | intro _
    | split
    | lift_lets
    | (with_reducible refine State.Keeps.of_fst (by assumption) ?_)
    | (with_reducible apply State.kp_setLink)
    | (with_reducible apply State.kp_put))

theorem State.kp_eyeFinish {r s : State} (h : r.Keeps s) (x1 : Fin 6) (x2 : Nat) (x3 : Nat) (x4 : Bool) : r.Keeps (State.eyeFinish s x1 x2 x3 x4) := by
  unfold State.eyeFinish
  repeat' (first
    | with_reducible assumption
    | (intro t; (have ht : r.Keeps t := ?_); clear_value t; (try (rotate_left; unfold t)))
    | intro _
    | split
    | lift_lets
    | (with_reducible refine State.Keeps.of_fst (by assumption) ?_)
    | (with_reducible apply State.kp_put))

theorem State.kp_eyeStop {r s : State} (h : r.Keeps s) (x1 : Fin 6) : r.Keeps (State.eyeStop s x1) := by
  unfold State.eyeStop
  repeat' (first
    | with_reducible assumption
    | intro _
    | split
    | lift_lets
    | (with_reducible refine State.Keeps.of_fst (by assumption) ?_)
    | (with_reducible apply State.kp_eyeFinish))

theorem State.kp_setPeer {r s : State} (h : r.Keeps s) (x1 : Peer) : r.Keeps (State.setPeer s x1) := by
  unfold State.setPeer
  repeat' (first
    | with_reducible assumption
    | intro _
    | split
    | lift_lets
    | (with_reducible refine State.Keeps.of_fst (by assumption) ?_)
    | (with_reducible apply State.Keeps.foldl)
    | (with_reducible exact State.Keeps.later (by assumption) _)
    | (with_reducible apply State.Keeps.foldl1)
    | (with_reducible constructor <;> dsimp only <;> first | refine State.Keeps.pending ?_ | refine State.Keeps.now ?_ | refine State.Keeps.fresh ?_ | refine State.Keeps.otp ?_ | refine State.Keeps.otpWf ?_ | refine State.Keeps.basin ?_ | refine State.Keeps.sram ?_))

theorem State.kp_condition {r s : State} (h : r.Keeps s) (x1 : Nat) (x2 : Bool) (x3 : optParam (Option Nat) Option.none) : r.Keeps (State.condition s x1 x2 x3) := by
  unfold State.condition
  repeat' (first
    | with_reducible assumption
    | intro _
    | split
    | lift_lets
    | (with_reducible refine State.Keeps.of_fst (by assumption) ?_)
    | (with_reducible apply State.kp_raise)
    | (with_reducible apply State.kp_setLive))

theorem State.kp_setSaf {r s : State} (h : r.Keeps s) (x1 : Safety) : r.Keeps (State.setSaf s x1) := by
  unfold State.setSaf
  repeat' (first
    | with_reducible assumption
    | intro _
    | split
    | lift_lets
    | (with_reducible refine State.Keeps.of_fst (by assumption) ?_)
    | (with_reducible apply State.Keeps.foldl)
    | (with_reducible exact State.Keeps.later (by assumption) _)
    | (with_reducible apply State.Keeps.foldl1)
    | (with_reducible constructor <;> dsimp only <;> first | refine State.Keeps.pending ?_ | refine State.Keeps.now ?_ | refine State.Keeps.fresh ?_ | refine State.Keeps.otp ?_ | refine State.Keeps.otpWf ?_ | refine State.Keeps.basin ?_ | refine State.Keeps.sram ?_))

theorem State.kp_rebirth {r s : State} (h : r.Keeps s) : r.Keeps s.rebirth :=
  ⟨h.pending, h.now, h.fresh, h.otp, h.otpWf, fun _ => rfl, fun _ => rfl⟩

theorem State.kp_keep {r s : State} (h : r.Keeps s) (x0 : State) (x1 : List Fld) : r.Keeps (State.keep x0 x1 s) := by
  unfold State.keep
  repeat' (first
    | with_reducible assumption
    | intro _
    | split
    | lift_lets
    | (with_reducible refine State.Keeps.of_fst (by assumption) ?_)
    | (with_reducible apply State.kp_put)
    | (with_reducible apply State.Keeps.foldl))

theorem State.kp_warmReset {r s : State} (h : r.Keeps s) (x1 : Nat) (x2 : Option Nat) : r.Keeps (State.warmReset s x1 x2) := by
  unfold State.warmReset
  repeat' (first
    | with_reducible assumption
    | (intro t; (have ht : r.Keeps t := ?_); clear_value t; (try (rotate_left; unfold t)))
    | intro _
    | split
    | lift_lets
    | (with_reducible refine State.Keeps.of_fst (by assumption) ?_)
    | (with_reducible apply State.kp_rebirth)
    | (with_reducible apply State.kp_put)
    | (with_reducible apply State.kp_keep)
    | (with_reducible apply State.Keeps.foldl)
    | (with_reducible exact State.Keeps.later (by assumption) _)
    | (with_reducible apply State.Keeps.foldl1)
    | (with_reducible constructor <;> dsimp only <;> first | refine State.Keeps.pending ?_ | refine State.Keeps.now ?_ | refine State.Keeps.fresh ?_ | refine State.Keeps.otp ?_ | refine State.Keeps.otpWf ?_ | refine State.Keeps.basin ?_ | refine State.Keeps.sram ?_))

theorem State.kp_setReach {r s : State} (h : r.Keeps s) (x1 : ReachId) (x2 : Reach) : r.Keeps (State.setReach s x1 x2) := by
  unfold State.setReach
  repeat' (first
    | with_reducible assumption
    | intro _
    | split
    | lift_lets
    | (with_reducible refine State.Keeps.of_fst (by assumption) ?_)
    | (with_reducible apply State.Keeps.foldl)
    | (with_reducible exact State.Keeps.later (by assumption) _)
    | (with_reducible apply State.Keeps.foldl1)
    | (with_reducible constructor <;> dsimp only <;> first | refine State.Keeps.pending ?_ | refine State.Keeps.now ?_ | refine State.Keeps.fresh ?_ | refine State.Keeps.otp ?_ | refine State.Keeps.otpWf ?_ | refine State.Keeps.basin ?_ | refine State.Keeps.sram ?_))

theorem State.kp_noteLight {r s : State} (h : r.Keeps s) : r.Keeps (State.noteLight s) := by
  unfold State.noteLight
  repeat' (first
    | with_reducible assumption
    | intro _
    | split
    | lift_lets
    | (with_reducible refine State.Keeps.of_fst (by assumption) ?_)
    | (with_reducible apply State.Keeps.foldl)
    | (with_reducible exact State.Keeps.later (by assumption) _)
    | (with_reducible apply State.Keeps.foldl1)
    | (with_reducible constructor <;> dsimp only <;> first | refine State.Keeps.pending ?_ | refine State.Keeps.now ?_ | refine State.Keeps.fresh ?_ | refine State.Keeps.otp ?_ | refine State.Keeps.otpWf ?_ | refine State.Keeps.basin ?_ | refine State.Keeps.sram ?_))

theorem State.kp_numberPacket {r s : State} (h : r.Keeps s) (x1 : LinkId) (x2 : OutPacket) : r.Keeps (State.numberPacket s x1 x2) := by
  unfold State.numberPacket
  repeat' (first
    | with_reducible assumption
    | (intro t; (have ht : r.Keeps t := ?_); clear_value t; (try (rotate_left; unfold t)))
    | intro _
    | split
    | lift_lets
    | (with_reducible refine State.Keeps.of_fst (by assumption) ?_)
    | (with_reducible apply State.kp_put)
    | (with_reducible apply State.kp_setLink))

theorem State.kp_fillReplay {r s : State} (h : r.Keeps s) (l : LinkId) (ps : List OutPacket) : r.Keeps (s.fillReplay l ps) := by
  induction ps generalizing s with
  | nil => exact State.kp_setLink h l _
  | cons p ps ih =>
    unfold State.fillReplay
    dsimp only
    split
    · exact ih (State.kp_numberPacket h l p)
    · exact State.kp_setLink h l _

theorem State.kp_pumpLink {r s : State} (h : r.Keeps s) (x1 : LinkId) : r.Keeps (State.pumpLink s x1) := by
  unfold State.pumpLink
  repeat' (first
    | with_reducible assumption
    | (intro t; (have ht : r.Keeps t := ?_); clear_value t; (try (rotate_left; unfold t)))
    | intro _
    | split
    | lift_lets
    | (with_reducible refine State.Keeps.of_fst (by assumption) ?_)
    | (with_reducible apply State.kp_fillReplay)
    | (with_reducible apply State.kp_setLink))

theorem State.kp_post {r s : State} (h : r.Keeps s) (x1 : LinkId) (x2 : OutPacket) : r.Keeps (State.post s x1 x2) := by
  unfold State.post
  repeat' (first
    | with_reducible assumption
    | intro _
    | split
    | lift_lets
    | (with_reducible refine State.Keeps.of_fst (by assumption) ?_)
    | (with_reducible apply State.kp_setLink))

theorem State.kp_postPeer {r s : State} (h : r.Keeps s) (x1 : Nat) (x2 : List Byte) : r.Keeps (State.postPeer s x1 x2) := by
  unfold State.postPeer
  repeat' (first
    | with_reducible assumption
    | intro _
    | split
    | lift_lets
    | (with_reducible refine State.Keeps.of_fst (by assumption) ?_)
    | (with_reducible apply State.kp_post))

theorem State.kp_sendXctl {r s : State} (h : r.Keeps s) (x1 : Nat) (x2 : List Byte) : r.Keeps (State.sendXctl s x1 x2) := by
  unfold State.sendXctl
  repeat' (first
    | with_reducible assumption
    | intro _
    | split
    | lift_lets
    | (with_reducible refine State.Keeps.of_fst (by assumption) ?_)
    | (with_reducible apply State.kp_postPeer))

theorem State.kp_sendXfer {r s : State} (h : r.Keeps s) (x1 : Nat) (x2 : Nat) : r.Keeps (State.sendXfer s x1 x2) := by
  unfold State.sendXfer
  repeat' (first
    | with_reducible assumption
    | (intro t; (have ht : r.Keeps t := ?_); clear_value t; (try (rotate_left; unfold t)))
    | intro _
    | split
    | lift_lets
    | (with_reducible refine State.Keeps.of_fst (by assumption) ?_)
    | (with_reducible apply State.kp_setPeer)
    | (with_reducible apply State.kp_post))

theorem State.kp_copyStep {r s : State} (h : r.Keeps s) (x1 : CopyItem) (x2 : List CopyItem) : r.Keeps (State.copyStep s x1 x2) := by
  unfold State.copyStep
  repeat' (first
    | with_reducible assumption
    | intro _
    | split
    | lift_lets
    | (with_reducible refine State.Keeps.of_fst (by assumption) ?_)
    | (with_reducible apply State.kp_setPeer)
    | (with_reducible apply State.kp_sendXctl)
    | (with_reducible apply State.kp_sendXfer))

theorem State.kp_copyGoesOn {r s : State} (h : r.Keeps s) (n : Nat) : r.Keeps (State.copyGoesOn n s) := by
  induction n generalizing s with
  | zero => exact h
  | succ n ih =>
    unfold State.copyGoesOn
    split
    · exact h
    · split
      · exact State.kp_setPeer h _
      · split
        · exact h
        · exact ih (State.kp_pumpLink (State.kp_copyStep h _ _) _)

theorem State.kp_sendCopy {r s : State} (h : r.Keeps s) : r.Keeps (State.sendCopy s) := by
  unfold State.sendCopy
  repeat' (first
    | with_reducible assumption
    | intro _
    | split
    | lift_lets
    | (with_reducible refine State.Keeps.of_fst (by assumption) ?_)
    | (with_reducible apply State.kp_copyGoesOn))

theorem State.kp_takeMsgs {r s : State} (h : r.Keeps s) : r.Keeps (State.takeMsgs s) := by
  unfold State.takeMsgs
  repeat' (first
    | with_reducible assumption
    | intro _
    | split
    | lift_lets
    | (with_reducible refine State.Keeps.of_fst (by assumption) ?_)
    | (with_reducible apply State.kp_setLink)
    | (with_reducible apply State.Keeps.foldl)
    | (with_reducible exact State.Keeps.later (by assumption) _)
    | (with_reducible apply State.Keeps.foldl1)
    | (with_reducible constructor <;> dsimp only <;> first | refine State.Keeps.pending ?_ | refine State.Keeps.now ?_ | refine State.Keeps.fresh ?_ | refine State.Keeps.otp ?_ | refine State.Keeps.otpWf ?_ | refine State.Keeps.basin ?_ | refine State.Keeps.sram ?_))

theorem State.kp_pump {r s : State} (h : r.Keeps s) : r.Keeps (State.pump s) := by
  unfold State.pump
  repeat' (first
    | with_reducible assumption
    | intro _
    | split
    | lift_lets
    | (with_reducible refine State.Keeps.of_fst (by assumption) ?_)
    | (with_reducible apply State.kp_pumpLink)
    | (with_reducible apply State.kp_takeMsgs))

theorem State.kp_noteSummary {r s : State} (h : r.Keeps s) : r.Keeps (State.noteSummary s) := by
  unfold State.noteSummary
  repeat' (first
    | with_reducible assumption
    | (intro t; (have ht : r.Keeps t := ?_); clear_value t; (try (rotate_left; unfold t)))
    | intro _
    | split
    | lift_lets
    | (with_reducible refine State.Keeps.of_fst (by assumption) ?_)
    | (with_reducible apply State.kp_sendMsg)
    | (with_reducible apply State.Keeps.foldl)
    | (with_reducible exact State.Keeps.later (by assumption) _)
    | (with_reducible apply State.Keeps.foldl1)
    | (with_reducible constructor <;> dsimp only <;> first | refine State.Keeps.pending ?_ | refine State.Keeps.now ?_ | refine State.Keeps.fresh ?_ | refine State.Keeps.otp ?_ | refine State.Keeps.otpWf ?_ | refine State.Keeps.basin ?_ | refine State.Keeps.sram ?_))

theorem State.kp_noteHealth {r s : State} (h : r.Keeps s) : r.Keeps (State.noteHealth s) := by
  unfold State.noteHealth
  repeat' (first
    | with_reducible assumption
    | intro _
    | split
    | lift_lets
    | (with_reducible refine State.Keeps.of_fst (by assumption) ?_)
    | (with_reducible apply State.Keeps.foldl)
    | (with_reducible exact State.Keeps.later (by assumption) _)
    | (with_reducible apply State.Keeps.foldl1)
    | (with_reducible constructor <;> dsimp only <;> first | refine State.Keeps.pending ?_ | refine State.Keeps.now ?_ | refine State.Keeps.fresh ?_ | refine State.Keeps.otp ?_ | refine State.Keeps.otpWf ?_ | refine State.Keeps.basin ?_ | refine State.Keeps.sram ?_))

theorem State.kp_clearForces {r s : State} (h : r.Keeps s) : r.Keeps (State.clearForces s) := by
  unfold State.clearForces
  repeat' (first
    | with_reducible assumption
    | intro _
    | split
    | lift_lets
    | (with_reducible refine State.Keeps.of_fst (by assumption) ?_)
    | (with_reducible apply State.kp_put)
    | (with_reducible apply State.Keeps.foldl))

theorem State.kp_noteMode {r s : State} (h : r.Keeps s) : r.Keeps (State.noteMode s) := by
  unfold State.noteMode
  repeat' (first
    | with_reducible assumption
    | (intro t; (have ht : r.Keeps t := ?_); clear_value t; (try (rotate_left; unfold t)))
    | intro _
    | split
    | lift_lets
    | (with_reducible refine State.Keeps.of_fst (by assumption) ?_)
    | (with_reducible apply State.kp_clearForces)
    | (with_reducible apply State.kp_flag)
    | (with_reducible apply State.Keeps.foldl)
    | (with_reducible exact State.Keeps.later (by assumption) _)
    | (with_reducible apply State.Keeps.foldl1)
    | (with_reducible constructor <;> dsimp only <;> first | refine State.Keeps.pending ?_ | refine State.Keeps.now ?_ | refine State.Keeps.fresh ?_ | refine State.Keeps.otp ?_ | refine State.Keeps.otpWf ?_ | refine State.Keeps.basin ?_ | refine State.Keeps.sram ?_))

theorem State.kp_driveOut {r s : State} (h : r.Keeps s) (x1 : Nat) (x2 : Bool) : r.Keeps (State.driveOut s x1 x2) := by
  unfold State.driveOut
  repeat' (first
    | with_reducible assumption
    | intro _
    | split
    | lift_lets
    | (with_reducible refine State.Keeps.of_fst (by assumption) ?_)
    | (with_reducible apply State.kp_putBit)
    | (with_reducible apply State.kp_put))

theorem State.kp_notePaused {r s : State} (h : r.Keeps s) : r.Keeps (State.notePaused s) := by
  unfold State.notePaused
  repeat' (first
    | with_reducible assumption
    | intro _
    | split
    | lift_lets
    | (with_reducible refine State.Keeps.of_fst (by assumption) ?_)
    | (with_reducible apply State.kp_put))

theorem State.kp_dropOut {r s : State} (h : r.Keeps s) (x1 : Fin 2) : r.Keeps (State.dropOut s x1) := by
  unfold State.dropOut
  repeat' (first
    | with_reducible assumption
    | (intro t; (have ht : r.Keeps t := ?_); clear_value t; (try (rotate_left; unfold t)))
    | intro _
    | split
    | lift_lets
    | (with_reducible refine State.Keeps.of_fst (by assumption) ?_)
    | (with_reducible apply State.kp_driveOut)
    | (with_reducible apply State.kp_notePaused)
    | (with_reducible apply State.kp_setSaf))

theorem State.kp_noteOutputs {r s : State} (h : r.Keeps s) : r.Keeps (State.noteOutputs s) := by
  unfold State.noteOutputs
  repeat' (first
    | with_reducible assumption
    | intro _
    | split
    | lift_lets
    | (with_reducible refine State.Keeps.of_fst (by assumption) ?_)
    | (with_reducible apply State.kp_dropOut)
    | (with_reducible apply State.Keeps.foldl))

theorem State.kp_noteVerified {r s : State} (h : r.Keeps s) : r.Keeps (State.noteVerified s) := by
  unfold State.noteVerified
  repeat' (first
    | with_reducible assumption
    | intro _
    | split
    | lift_lets
    | (with_reducible refine State.Keeps.of_fst (by assumption) ?_)
    | (with_reducible apply State.kp_condition))

theorem State.kp_holdSnap {r s : State} (h : r.Keeps s) : r.Keeps (State.holdSnap s) := by
  unfold State.holdSnap
  repeat' (first
    | with_reducible assumption
    | intro _
    | split
    | lift_lets
    | (with_reducible refine State.Keeps.of_fst (by assumption) ?_)
    | (with_reducible apply State.Keeps.foldl)
    | (with_reducible exact State.Keeps.later (by assumption) _)
    | (with_reducible apply State.Keeps.foldl1)
    | (with_reducible constructor <;> dsimp only <;> first | refine State.Keeps.pending ?_ | refine State.Keeps.now ?_ | refine State.Keeps.fresh ?_ | refine State.Keeps.otp ?_ | refine State.Keeps.otpWf ?_ | refine State.Keeps.basin ?_ | refine State.Keeps.sram ?_))

theorem State.kp_eyeAbort {r s : State} (h : r.Keeps s) (x1 : Fin 6) : r.Keeps (State.eyeAbort s x1) := by
  unfold State.eyeAbort
  repeat' (first
    | with_reducible assumption
    | intro _
    | split
    | lift_lets
    | (with_reducible refine State.Keeps.of_fst (by assumption) ?_)
    | (with_reducible apply State.kp_eyeFinish))

theorem State.kp_noteEyes {r s : State} (h : r.Keeps s) : r.Keeps (State.noteEyes s) := by
  unfold State.noteEyes
  repeat' (first
    | with_reducible assumption
    | intro _
    | split
    | lift_lets
    | (with_reducible refine State.Keeps.of_fst (by assumption) ?_)
    | (with_reducible apply State.kp_eyeAbort)
    | (with_reducible apply State.Keeps.foldl))

theorem State.kp_loseTwinLock {r s : State} (h : r.Keeps s) : r.Keeps (State.loseTwinLock s) := by
  unfold State.loseTwinLock
  repeat' (first
    | with_reducible assumption
    | intro _
    | split
    | lift_lets
    | (with_reducible refine State.Keeps.of_fst (by assumption) ?_)
    | (with_reducible apply State.kp_condition)
    | (with_reducible apply State.kp_flag)
    | (with_reducible apply State.kp_put))

theorem State.kp_noteLinks {r s : State} (h : r.Keeps s) : r.Keeps (State.noteLinks s) := by
  unfold State.noteLinks
  repeat' (first
    | with_reducible assumption
    | (intro t; (have ht : r.Keeps t := ?_); clear_value t; (try (rotate_left; unfold t)))
    | intro _
    | split
    | lift_lets
    | (with_reducible refine State.Keeps.of_fst (by assumption) ?_)
    | (with_reducible apply State.kp_raise)
    | (with_reducible apply State.kp_loseTwinLock))

theorem State.kp_settle {r s : State} (h : r.Keeps s) : r.Keeps (State.settle s) := by
  unfold State.settle
  repeat' (first
    | with_reducible assumption
    | (intro t; (have ht : r.Keeps t := ?_); clear_value t; (try (rotate_left; unfold t)))
    | intro _
    | split
    | lift_lets
    | (with_reducible refine State.Keeps.of_fst (by assumption) ?_)
    | (with_reducible apply State.kp_warmReset)
    | (with_reducible apply State.kp_sendCopy)
    | (with_reducible apply State.kp_pump)
    | (with_reducible apply State.kp_noteSummary)
    | (with_reducible apply State.kp_noteHealth)
    | (with_reducible apply State.kp_noteMode)
    | (with_reducible apply State.kp_noteOutputs)
    | (with_reducible apply State.kp_noteVerified)
    | (with_reducible apply State.kp_noteLight)
    | (with_reducible apply State.kp_holdSnap)
    | (with_reducible apply State.kp_noteEyes)
    | (with_reducible apply State.kp_noteLinks))

theorem State.kp_basFill {r s : State} (h : r.Keeps s) (lo n : Nat) (cells : Memory) : r.Keeps (s.basFill lo n cells) :=
  ⟨h.pending, h.now, h.fresh, h.otp, h.otpWf, fun w => Basin.wf_fill lo n cells (h.basin w), h.sram⟩

theorem State.kp_raiseOnce {r s : State} (h : r.Keeps s) (x1 : Nat) (x2 : Option Nat) (x3 : Nat) : r.Keeps (State.raiseOnce s x1 x2 x3) := by
  unfold State.raiseOnce
  repeat' (first
    | with_reducible assumption
    | intro _
    | split
    | lift_lets
    | (with_reducible refine State.Keeps.of_fst (by assumption) ?_)
    | (with_reducible apply State.kp_raise)
    | (with_reducible apply State.Keeps.foldl)
    | (with_reducible exact State.Keeps.later (by assumption) _)
    | (with_reducible apply State.Keeps.foldl1)
    | (with_reducible constructor <;> dsimp only <;> first | refine State.Keeps.pending ?_ | refine State.Keeps.now ?_ | refine State.Keeps.fresh ?_ | refine State.Keeps.otp ?_ | refine State.Keeps.otpWf ?_ | refine State.Keeps.basin ?_ | refine State.Keeps.sram ?_))

theorem State.kp_draw {r s : State} (h : r.Keeps s) : r.Keeps s.draw :=
  ⟨h.pending, h.now, Nat.le_succ_of_le h.fresh, h.otp, h.otpWf, h.basin, h.sram⟩

theorem State.kp_putAct {r s : State} (h : r.Keeps s) (x1 : Fld) (x2 : Nat) : r.Keeps (State.putAct s x1 x2) := by
  unfold State.putAct
  repeat' (first
    | with_reducible assumption
    | intro _
    | split
    | lift_lets
    | (with_reducible refine State.Keeps.of_fst (by assumption) ?_)
    | (with_reducible apply State.Keeps.foldl)
    | (with_reducible exact State.Keeps.later (by assumption) _)
    | (with_reducible apply State.Keeps.foldl1)
    | (with_reducible constructor <;> dsimp only <;> first | refine State.Keeps.pending ?_ | refine State.Keeps.now ?_ | refine State.Keeps.fresh ?_ | refine State.Keeps.otp ?_ | refine State.Keeps.otpWf ?_ | refine State.Keeps.basin ?_ | refine State.Keeps.sram ?_))

theorem State.kp_setSync {r s : State} (h : r.Keeps s) (x1 : SyncState) : r.Keeps (State.setSync s x1) := by
  unfold State.setSync
  repeat' (first
    | with_reducible assumption
    | intro _
    | split
    | lift_lets
    | (with_reducible refine State.Keeps.of_fst (by assumption) ?_)
    | (with_reducible apply State.kp_flag)
    | (with_reducible apply State.Keeps.foldl)
    | (with_reducible exact State.Keeps.later (by assumption) _)
    | (with_reducible apply State.Keeps.foldl1)
    | (with_reducible constructor <;> dsimp only <;> first | refine State.Keeps.pending ?_ | refine State.Keeps.now ?_ | refine State.Keeps.fresh ?_ | refine State.Keeps.otp ?_ | refine State.Keeps.otpWf ?_ | refine State.Keeps.basin ?_ | refine State.Keeps.sram ?_))

theorem State.kp_raiseOutputs {r s : State} (h : r.Keeps s) : r.Keeps (State.raiseOutputs s) := by
  unfold State.raiseOutputs
  repeat' (first
    | with_reducible assumption
    | (intro t; (have ht : r.Keeps t := ?_); clear_value t; (try (rotate_left; unfold t)))
    | intro _
    | split
    | lift_lets
    | (with_reducible refine State.Keeps.of_fst (by assumption) ?_)
    | (with_reducible apply State.kp_driveOut)
    | (with_reducible apply State.kp_setSaf)
    | (with_reducible apply State.Keeps.foldl))

theorem State.kp_endSession {r s : State} (h : r.Keeps s) (x1 : LinkId) : r.Keeps (State.endSession s x1) := by
  unfold State.endSession
  repeat' (first
    | with_reducible assumption
    | intro _
    | split
    | lift_lets
    | (with_reducible refine State.Keeps.of_fst (by assumption) ?_)
    | (with_reducible apply State.kp_endHost)
    | (with_reducible apply State.kp_endPeer))

theorem State.kp_failOut {r s : State} (h : r.Keeps s) (x1 : Nat) : r.Keeps (State.failOut s x1) := by
  unfold State.failOut
  repeat' (first
    | with_reducible assumption
    | (intro t; (have ht : r.Keeps t := ?_); clear_value t; (try (rotate_left; unfold t)))
    | intro _
    | split
    | lift_lets
    | (with_reducible refine State.Keeps.of_fst (by assumption) ?_)
    | (with_reducible apply State.kp_flag)
    | (with_reducible apply State.kp_put)
    | (with_reducible apply State.kp_driveOut)
    | (with_reducible apply State.kp_raise))

theorem State.kp_postCpl {r s : State} (h : r.Keeps s) (x1 : Nat) (x2 : Nat) (x3 : Nat) (x4 : List Byte) : r.Keeps (State.postCpl s x1 x2 x3 x4) := by
  unfold State.postCpl
  repeat' (first
    | with_reducible assumption
    | intro _
    | split
    | lift_lets
    | (with_reducible refine State.Keeps.of_fst (by assumption) ?_)
    | (with_reducible apply State.kp_post))

theorem State.kp_eyeEnd {r s : State} (h : r.Keeps s) (x1 : Fin 6) (x2 : Nat) : r.Keeps (State.eyeEnd s x1 x2) := by
  unfold State.eyeEnd
  repeat' (first
    | with_reducible assumption
    | intro _
    | split
    | lift_lets
    | (with_reducible refine State.Keeps.of_fst (by assumption) ?_)
    | (with_reducible apply State.kp_eyeFinish))

end Sys2Proof.Machine
end

