-- ==== Sys2Proof/Laws/KeepsChamber.lean ====
section
/-!
SUPPORT. State.Keeps of every function of the model: the chambers, the basin and the trim memory.
-/
namespace Sys2Proof.Machine

theorem State.kp_berthResult {r s : State} (h : r.Keeps s) (x1 : Fin 64) (x2 : Nat) : r.Keeps (State.berthResult s x1 x2) := by
  unfold State.berthResult
  repeat' (first
    | with_reducible assumption
    | (intro t; (have ht : r.Keeps t := ?_); clear_value t; (try (rotate_left; unfold t)))
    | intro _
    | split
    | lift_lets
    | (with_reducible refine State.Keeps.of_fst (by assumption) ?_)
    | (with_reducible apply State.kp_put)
    | (with_reducible apply State.kp_raise))

theorem State.kp_berthReady {r s : State} (h : r.Keeps s) (x1 : Fin 64) (x2 : Fin 64) : r.Keeps (State.berthReady s x1 x2) := by
  unfold State.berthReady
  repeat' (first
    | with_reducible assumption
    | intro _
    | split
    | lift_lets
    | (with_reducible refine State.Keeps.of_fst (by assumption) ?_)
    | (with_reducible apply State.kp_berthResult)
    | (with_reducible apply State.kp_setBerth))

theorem State.kp_berthCancel {r s : State} (h : r.Keeps s) (x1 : Fin 64) : r.Keeps (State.berthCancel s x1) := by
  unfold State.berthCancel
  repeat' (first
    | with_reducible assumption
    | intro _
    | split
    | lift_lets
    | (with_reducible refine State.Keeps.of_fst (by assumption) ?_)
    | (with_reducible apply State.kp_berthResult)
    | (with_reducible apply State.kp_setBerth))

theorem State.kp_berthRelease {r s : State} (h : r.Keeps s) (x1 : Fin 64) : r.Keeps (State.berthRelease s x1) := by
  unfold State.berthRelease
  repeat' (first
    | with_reducible assumption
    | intro _
    | split
    | lift_lets
    | (with_reducible refine State.Keeps.of_fst (by assumption) ?_)
    | (with_reducible apply State.kp_berthResult)
    | (with_reducible apply State.kp_setBerth))

theorem State.kp_berthRetire {r s : State} (h : r.Keeps s) (x1 : Fin 64) : r.Keeps (State.berthRetire s x1) := by
  unfold State.berthRetire
  repeat' (first
    | with_reducible assumption
    | intro _
    | split
    | lift_lets
    | (with_reducible refine State.Keeps.of_fst (by assumption) ?_)
    | (with_reducible apply State.kp_berthResult)
    | (with_reducible apply State.kp_setBerth))

theorem State.kp_applyBerthCmd {r s : State} (h : r.Keeps s) (x1 : Nat) : r.Keeps (State.applyBerthCmd s x1) := by
  unfold State.applyBerthCmd
  repeat' (first
    | with_reducible assumption
    | (intro t; (have ht : r.Keeps t := ?_); clear_value t; (try (rotate_left; unfold t)))
    | intro _
    | split
    | lift_lets
    | (with_reducible refine State.Keeps.of_fst (by assumption) ?_)
    | (with_reducible apply State.kp_put)
    | (with_reducible apply State.kp_berthReady)
    | (with_reducible apply State.kp_berthCancel)
    | (with_reducible apply State.kp_berthRelease)
    | (with_reducible apply State.kp_berthRetire)
    | (with_reducible apply State.kp_berthResult))

theorem State.kp_berthCmd {r s : State} (h : r.Keeps s) (x1 : Nat) : r.Keeps (State.berthCmd s x1) := by
  unfold State.berthCmd
  repeat' (first
    | with_reducible assumption
    | intro _
    | split
    | lift_lets
    | (with_reducible refine State.Keeps.of_fst (by assumption) ?_)
    | (with_reducible apply State.kp_applyBerthCmd)
    | (with_reducible apply State.Keeps.foldl)
    | (with_reducible exact State.Keeps.later (by assumption) _)
    | (with_reducible apply State.Keeps.foldl1)
    | (with_reducible constructor <;> dsimp only <;> first | refine State.Keeps.pending ?_ | refine State.Keeps.now ?_ | refine State.Keeps.fresh ?_ | refine State.Keeps.otp ?_ | refine State.Keeps.otpWf ?_ | refine State.Keeps.basin ?_ | refine State.Keeps.sram ?_))

theorem State.kp_berthPlace {r s : State} (h : r.Keeps s) (x1 : Fin 64) (x2 : Nat) (x3 : Nat) : r.Keeps (State.berthPlace s x1 x2 x3) := by
  unfold State.berthPlace
  repeat' (first
    | with_reducible assumption
    | intro _
    | split
    | lift_lets
    | (with_reducible refine State.Keeps.of_fst (by assumption) ?_)
    | (with_reducible apply State.kp_berthResult)
    | (with_reducible apply State.kp_put))

theorem State.kp_berthFmt {r s : State} (h : r.Keeps s) (x1 : Fin 64) (x2 : Nat) (x3 : Nat) : r.Keeps (State.berthFmt s x1 x2 x3) := by
  unfold State.berthFmt
  repeat' (first
    | with_reducible assumption
    | intro _
    | split
    | lift_lets
    | (with_reducible refine State.Keeps.of_fst (by assumption) ?_)
    | (with_reducible apply State.kp_berthResult)
    | (with_reducible apply State.kp_put))

theorem State.kp_noteWear {r s : State} (h : r.Keeps s) : r.Keeps (State.noteWear s) := by
  unfold State.noteWear
  repeat' (first
    | with_reducible assumption
    | (intro t; (have ht : r.Keeps t := ?_); clear_value t; (try (rotate_left; unfold t)))
    | intro _
    | split
    | lift_lets
    | (with_reducible refine State.Keeps.of_fst (by assumption) ?_)
    | (with_reducible apply State.kp_put)
    | (with_reducible apply State.kp_raise))

theorem State.kp_ledgerRestore {r s : State} (h : r.Keeps s) (x1 : Memory) : r.Keeps (State.ledgerRestore s x1) := by
  unfold State.ledgerRestore
  repeat' (first
    | with_reducible assumption
    | (intro t; (have ht : r.Keeps t := ?_); clear_value t; (try (rotate_left; unfold t)))
    | intro _
    | split
    | lift_lets
    | (with_reducible refine State.Keeps.of_fst (by assumption) ?_)
    | (with_reducible apply State.kp_put)
    | (with_reducible apply State.kp_noteWear)
    | (with_reducible apply State.Keeps.foldl)
    | (with_reducible exact State.Keeps.later (by assumption) _)
    | (with_reducible apply State.Keeps.foldl1)
    | (with_reducible constructor <;> dsimp only <;> first | refine State.Keeps.pending ?_ | refine State.Keeps.now ?_ | refine State.Keeps.fresh ?_ | refine State.Keeps.otp ?_ | refine State.Keeps.otpWf ?_ | refine State.Keeps.basin ?_ | refine State.Keeps.sram ?_))

theorem State.kp_poolRefuse {r s : State} (h : r.Keeps s) (x1 : List (Fin 64)) (x2 : Nat) : r.Keeps (State.poolRefuse s x1 x2) := by
  unfold State.poolRefuse
  repeat' (first
    | with_reducible assumption
    | (intro t; (have ht : r.Keeps t := ?_); clear_value t; (try (rotate_left; unfold t)))
    | intro _
    | split
    | lift_lets
    | (with_reducible refine State.Keeps.of_fst (by assumption) ?_)
    | (with_reducible apply State.kp_put)
    | (with_reducible apply State.kp_flag)
    | (with_reducible apply State.kp_raise)
    | (with_reducible apply State.kp_inc))

theorem State.kp_poolWrite {r s : State} (h : r.Keeps s) (a : Nat) (data : List Byte) : r.Keeps (s.poolWrite a data).1 := by
  unfold State.poolWrite
  extract_lets n touched
  have hp (l : List (Fin 64)) (k : Nat) : r.Keeps (s.poolRefuse l k) := State.kp_poolRefuse h l k
  clear_value n touched
  dsimp only
  repeat' (first
    | with_reducible assumption
    | split
    | with_reducible apply hp
    | with_reducible apply State.kp_basWrite
    | with_reducible apply State.kp_setBerth)

theorem State.kp_trimRefuse {r s : State} (h : r.Keeps s) (x1 : Nat) (x2 : Nat) : r.Keeps (State.trimRefuse s x1 x2) := by
  unfold State.trimRefuse
  repeat' (first
    | with_reducible assumption
    | intro _
    | split
    | lift_lets
    | (with_reducible refine State.Keeps.of_fst (by assumption) ?_)
    | (with_reducible apply State.kp_raise)
    | (with_reducible apply State.kp_put)
    | (with_reducible apply State.kp_flag))

theorem State.kp_tsSet {r s : State} (h : r.Keeps s) (x1 : Nat) (x2 : Nat) : r.Keeps (State.tsSet s x1 x2) := by
  unfold State.tsSet
  repeat' (first
    | with_reducible assumption
    | intro _
    | split
    | lift_lets
    | (with_reducible refine State.Keeps.of_fst (by assumption) ?_)
    | (with_reducible apply State.Keeps.foldl)
    | (with_reducible exact State.Keeps.later (by assumption) _)
    | (with_reducible apply State.Keeps.foldl1)
    | (with_reducible constructor <;> dsimp only <;> first | refine State.Keeps.pending ?_ | refine State.Keeps.now ?_ | refine State.Keeps.fresh ?_ | refine State.Keeps.otp ?_ | refine State.Keeps.otpWf ?_ | refine State.Keeps.basin ?_ | refine State.Keeps.sram ?_))

theorem State.kp_trimLand {r s : State} (h : r.Keeps s) (x1 : Nat) (x2 : List Byte) : r.Keeps (State.trimLand s x1 x2) := by
  unfold State.trimLand
  repeat' (first
    | with_reducible assumption
    | (intro t; (have ht : r.Keeps t := ?_); clear_value t; (try (rotate_left; unfold t)))
    | intro _
    | split
    | lift_lets
    | (with_reducible refine State.Keeps.of_fst (by assumption) ?_)
    | (with_reducible apply State.kp_tsSet)
    | (with_reducible apply State.Keeps.foldl)
    | (with_reducible exact State.Keeps.later (by assumption) _)
    | (with_reducible apply State.Keeps.foldl1)
    | (with_reducible constructor <;> dsimp only <;> first | refine State.Keeps.pending ?_ | refine State.Keeps.now ?_ | refine State.Keeps.fresh ?_ | refine State.Keeps.otp ?_ | refine State.Keeps.otpWf ?_ | refine State.Keeps.basin ?_ | refine State.Keeps.sram ?_))

theorem State.kp_trimWords {r s : State} (h : r.Keeps s) (off : Nat) (bs : List Byte) (n : Nat) : r.Keeps (s.trimWords off bs n).1 := by
  induction n generalizing s off bs with
  | zero => exact h
  | succ n ih =>
    unfold State.trimWords
    split
    · exact ih (State.kp_trimRefuse h off _) _ _
    · exact ih (State.kp_trimLand h off _) _ _

theorem State.kp_trimWrite {r s : State} (h : r.Keeps s) (x1 : Nat) (x2 : List Byte) : r.Keeps (State.trimWrite s x1 x2).1 := by
  unfold State.trimWrite
  repeat' (first
    | with_reducible assumption
    | intro _
    | split
    | lift_lets
    | (with_reducible refine State.Keeps.of_fst (by assumption) ?_)
    | (with_reducible apply State.kp_trimRefuse)
    | (with_reducible apply State.kp_trimWords))

theorem State.kp_captureEdge {r s : State} (h : r.Keeps s) : r.Keeps (State.captureEdge s) := by
  unfold State.captureEdge
  repeat' (first
    | with_reducible assumption
    | (intro t; (have ht : r.Keeps t := ?_); clear_value t; (try (rotate_left; unfold t)))
    | intro _
    | split
    | lift_lets
    | (with_reducible refine State.Keeps.of_fst (by assumption) ?_)
    | (with_reducible apply State.kp_put)
    | (with_reducible apply State.Keeps.foldl)
    | (with_reducible exact State.Keeps.later (by assumption) _)
    | (with_reducible apply State.Keeps.foldl1)
    | (with_reducible constructor <;> dsimp only <;> first | refine State.Keeps.pending ?_ | refine State.Keeps.now ?_ | refine State.Keeps.fresh ?_ | refine State.Keeps.otp ?_ | refine State.Keeps.otpWf ?_ | refine State.Keeps.basin ?_ | refine State.Keeps.sram ?_))

theorem State.kp_breachAt {r s : State} (h : r.Keeps s) (x1 : ChamberId) (x2 : Nat) (x3 : Nat) : r.Keeps (State.breachAt s x1 x2 x3) := by
  unfold State.breachAt
  repeat' (first
    | with_reducible assumption
    | (intro t; (have ht : r.Keeps t := ?_); clear_value t; (try (rotate_left; unfold t)))
    | intro _
    | split
    | lift_lets
    | (with_reducible refine State.Keeps.of_fst (by assumption) ?_)
    | (with_reducible apply State.kp_put)
    | (with_reducible apply State.kp_flag)
    | (with_reducible apply State.kp_raiseOnce))

theorem State.kp_breach {r s : State} (h : r.Keeps s) (x1 : ChamberId) (x2 : Nat) : r.Keeps (State.breach s x1 x2) := by
  unfold State.breach
  repeat' (first
    | with_reducible assumption
    | intro _
    | split
    | lift_lets
    | (with_reducible refine State.Keeps.of_fst (by assumption) ?_)
    | (with_reducible apply State.kp_breachAt))

theorem State.kp_illegal {r s : State} (h : r.Keeps s) (x1 : ChamberId) : r.Keeps (State.illegal s x1) := by
  unfold State.illegal
  repeat' (first
    | with_reducible assumption
    | intro _
    | split
    | lift_lets
    | (with_reducible refine State.Keeps.of_fst (by assumption) ?_)
    | (with_reducible apply State.kp_breach)
    | (with_reducible apply State.kp_setCh))

theorem State.kp_send {r s : State} (h : r.Keeps s) (x1 : ChamberId) (x2 : Nat) (x3 : Nat) (x4 : Landing) : r.Keeps (State.send s x1 x2 x3 x4) := by
  unfold State.send
  repeat' (first
    | with_reducible assumption
    | intro _
    | split
    | lift_lets
    | (with_reducible refine State.Keeps.of_fst (by assumption) ?_)
    | (with_reducible apply State.kp_setCh))

theorem State.kp_sendScalar {r s : State} (h : r.Keeps s) (x1 : ChamberId) (x2 : Nat) (x3 : Nat) (x4 : BitVec 5) (x5 : Nat) : r.Keeps (State.sendScalar s x1 x2 x3 x4 x5) := by
  unfold State.sendScalar
  repeat' (first
    | with_reducible assumption
    | intro _
    | split
    | lift_lets
    | (with_reducible refine State.Keeps.of_fst (by assumption) ?_)
    | (with_reducible apply State.kp_send))

theorem State.kp_vVext {r s : State} (h : r.Keeps s) (x1 : ChamberId) (x2 : Fields) : r.Keeps (State.vVext s x1 x2) := by
  unfold State.vVext
  repeat' (first
    | with_reducible assumption
    | intro _
    | split
    | lift_lets
    | (with_reducible refine State.Keeps.of_fst (by assumption) ?_)
    | (with_reducible apply State.kp_illegal)
    | (with_reducible apply State.kp_sendScalar))

theorem State.kp_resolveLayers {r s : State} (h : r.Keeps s) : r.Keeps (State.resolveLayers s) := by
  unfold State.resolveLayers
  repeat' (first
    | with_reducible assumption
    | intro _
    | split
    | lift_lets
    | (with_reducible refine State.Keeps.of_fst (by assumption) ?_)
    | (with_reducible apply State.Keeps.foldl)
    | (with_reducible exact State.Keeps.later (by assumption) _)
    | (with_reducible apply State.Keeps.foldl1)
    | (with_reducible constructor <;> dsimp only <;> first | refine State.Keeps.pending ?_ | refine State.Keeps.now ?_ | refine State.Keeps.fresh ?_ | refine State.Keeps.otp ?_ | refine State.Keeps.otpWf ?_ | refine State.Keeps.basin ?_ | refine State.Keeps.sram ?_))

theorem State.kp_queueBack {r s : State} (h : r.Keeps s) (x1 : Nat) (x2 : Nat) : r.Keeps (State.queueBack s x1 x2) := by
  unfold State.queueBack
  repeat' (first
    | with_reducible assumption
    | intro _
    | split
    | lift_lets
    | (with_reducible refine State.Keeps.of_fst (by assumption) ?_)
    | (with_reducible apply State.Keeps.foldl)
    | (with_reducible exact State.Keeps.later (by assumption) _)
    | (with_reducible apply State.Keeps.foldl1)
    | (with_reducible constructor <;> dsimp only <;> first | refine State.Keeps.pending ?_ | refine State.Keeps.now ?_ | refine State.Keeps.fresh ?_ | refine State.Keeps.otp ?_ | refine State.Keeps.otpWf ?_ | refine State.Keeps.basin ?_ | refine State.Keeps.sram ?_))

theorem State.kp_eccRecord {r s : State} (h : r.Keeps s) (x1 : Nat) (x2 : Option Nat) (x3 : Nat) (x4 : Nat) : r.Keeps (State.eccRecord s x1 x2 x3 x4) := by
  unfold State.eccRecord
  repeat' (first
    | with_reducible assumption
    | (intro t; (have ht : r.Keeps t := ?_); clear_value t; (try (rotate_left; unfold t)))
    | intro _
    | split
    | lift_lets
    | (with_reducible refine State.Keeps.of_fst (by assumption) ?_)
    | (with_reducible apply State.kp_put)
    | (with_reducible apply State.kp_flag))

theorem State.kp_eccCorrected {r s : State} (h : r.Keeps s) (x1 : Option Nat) (x2 : Nat) (x3 : Nat) : r.Keeps (State.eccCorrected s x1 x2 x3) := by
  unfold State.eccCorrected
  repeat' (first
    | with_reducible assumption
    | (intro t; (have ht : r.Keeps t := ?_); clear_value t; (try (rotate_left; unfold t)))
    | intro _
    | split
    | lift_lets
    | (with_reducible refine State.Keeps.of_fst (by assumption) ?_)
    | (with_reducible apply State.kp_queueBack)
    | (with_reducible apply State.kp_eccRecord)
    | (with_reducible apply State.kp_inc)
    | (with_reducible apply State.kp_raise)
    | (with_reducible apply State.Keeps.foldl)
    | (with_reducible exact State.Keeps.later (by assumption) _)
    | (with_reducible apply State.Keeps.foldl1)
    | (with_reducible constructor <;> dsimp only <;> first | refine State.Keeps.pending ?_ | refine State.Keeps.now ?_ | refine State.Keeps.fresh ?_ | refine State.Keeps.otp ?_ | refine State.Keeps.otpWf ?_ | refine State.Keeps.basin ?_ | refine State.Keeps.sram ?_))

theorem State.kp_invalidateSlot {r s : State} (h : r.Keeps s) (x1 : Fin 3) : r.Keeps (State.invalidateSlot s x1) := by
  unfold State.invalidateSlot
  repeat' (first
    | with_reducible assumption
    | (intro t; (have ht : r.Keeps t := ?_); clear_value t; (try (rotate_left; unfold t)))
    | intro _
    | split
    | lift_lets
    | (with_reducible refine State.Keeps.of_fst (by assumption) ?_)
    | (with_reducible apply State.kp_put)
    | (with_reducible apply State.Keeps.foldl)
    | (with_reducible exact State.Keeps.later (by assumption) _)
    | (with_reducible apply State.Keeps.foldl1)
    | (with_reducible constructor <;> dsimp only <;> first | refine State.Keeps.pending ?_ | refine State.Keeps.now ?_ | refine State.Keeps.fresh ?_ | refine State.Keeps.otp ?_ | refine State.Keeps.otpWf ?_ | refine State.Keeps.basin ?_ | refine State.Keeps.sram ?_))

theorem State.kp_fenceLine {r s : State} (h : r.Keeps s) (x1 : Nat) : r.Keeps (State.fenceLine s x1) := by
  unfold State.fenceLine
  repeat' (first
    | with_reducible assumption
    | (intro t; (have ht : r.Keeps t := ?_); clear_value t; (try (rotate_left; unfold t)))
    | intro _
    | split
    | lift_lets
    | (with_reducible refine State.Keeps.of_fst (by assumption) ?_)
    | (with_reducible apply State.kp_flag)
    | (with_reducible apply State.kp_invalidateSlot)
    | (with_reducible apply State.Keeps.foldl)
    | (with_reducible exact State.Keeps.later (by assumption) _)
    | (with_reducible apply State.Keeps.foldl1)
    | (with_reducible constructor <;> dsimp only <;> first | refine State.Keeps.pending ?_ | refine State.Keeps.now ?_ | refine State.Keeps.fresh ?_ | refine State.Keeps.otp ?_ | refine State.Keeps.otpWf ?_ | refine State.Keeps.basin ?_ | refine State.Keeps.sram ?_))

theorem State.kp_eccOutcome {r s : State} (h : r.Keeps s) (x1 : Ecc) (x2 : Option Nat) (x3 : Nat) (x4 : Nat) (x5 : optParam (Option Nat) Option.none) : r.Keeps (State.eccOutcome s x1 x2 x3 x4 x5) := by
  unfold State.eccOutcome
  repeat' (first
    | with_reducible assumption
    | intro _
    | split
    | lift_lets
    | (with_reducible refine State.Keeps.of_fst (by assumption) ?_)
    | (with_reducible apply State.kp_raiseOnce)
    | (with_reducible apply State.kp_raise)
    | (with_reducible apply State.kp_eccCorrected)
    | (with_reducible apply State.kp_queueBack)
    | (with_reducible apply State.kp_eccRecord)
    | (with_reducible apply State.kp_inc)
    | (with_reducible apply State.kp_fenceLine))

theorem State.kp_ledgerGroup {r s : State} (h : r.Keeps s) (x1 : Bool) : r.Keeps (State.ledgerGroup s x1) := by
  unfold State.ledgerGroup
  repeat' (first
    | with_reducible assumption
    | (intro t; (have ht : r.Keeps t := ?_); clear_value t; (try (rotate_left; unfold t)))
    | intro _
    | split
    | lift_lets
    | (with_reducible refine State.Keeps.of_fst (by assumption) ?_)
    | (with_reducible apply State.kp_put)
    | (with_reducible apply State.Keeps.foldl)
    | (with_reducible exact State.Keeps.later (by assumption) _)
    | (with_reducible apply State.Keeps.foldl1)
    | (with_reducible constructor <;> dsimp only <;> first | refine State.Keeps.pending ?_ | refine State.Keeps.now ?_ | refine State.Keeps.fresh ?_ | refine State.Keeps.otp ?_ | refine State.Keeps.otpWf ?_ | refine State.Keeps.basin ?_ | refine State.Keeps.sram ?_))

theorem State.kp_notePred {r s : State} (h : r.Keeps s) (x1 : Nat) : r.Keeps (State.notePred s x1) := by
  unfold State.notePred
  repeat' (first
    | with_reducible assumption
    | intro _
    | split
    | lift_lets
    | (with_reducible refine State.Keeps.of_fst (by assumption) ?_)
    | (with_reducible apply State.kp_put)
    | (with_reducible apply State.Keeps.foldl))

theorem State.kp_weirStep {r s : State} (h : r.Keeps s) (x1 : Nat) : r.Keeps (State.weirStep s x1) := by
  unfold State.weirStep
  repeat' (first
    | with_reducible assumption
    | (intro t; (have ht : r.Keeps t := ?_); clear_value t; (try (rotate_left; unfold t)))
    | intro _
    | split
    | lift_lets
    | (with_reducible refine State.Keeps.of_fst (by assumption) ?_)
    | (with_reducible apply State.kp_put)
    | (with_reducible apply State.kp_flag)
    | (with_reducible apply State.kp_notePred)
    | (with_reducible apply State.Keeps.foldl)
    | (with_reducible exact State.Keeps.later (by assumption) _)
    | (with_reducible apply State.Keeps.foldl1)
    | (with_reducible constructor <;> dsimp only <;> first | refine State.Keeps.pending ?_ | refine State.Keeps.now ?_ | refine State.Keeps.fresh ?_ | refine State.Keeps.otp ?_ | refine State.Keeps.otpWf ?_ | refine State.Keeps.basin ?_ | refine State.Keeps.sram ?_))

theorem State.kp_closeFormat {r s : State} (h : r.Keeps s) : r.Keeps (State.closeFormat s) := by
  unfold State.closeFormat
  repeat' (first
    | with_reducible assumption
    | (intro t; (have ht : r.Keeps t := ?_); clear_value t; (try (rotate_left; unfold t)))
    | intro _
    | split
    | lift_lets
    | (with_reducible refine State.Keeps.of_fst (by assumption) ?_)
    | (with_reducible apply State.kp_put)
    | (with_reducible apply State.kp_raise)
    | (with_reducible apply State.Keeps.foldl)
    | (with_reducible exact State.Keeps.later (by assumption) _)
    | (with_reducible apply State.Keeps.foldl1)
    | (with_reducible constructor <;> dsimp only <;> first | refine State.Keeps.pending ?_ | refine State.Keeps.now ?_ | refine State.Keeps.fresh ?_ | refine State.Keeps.otp ?_ | refine State.Keeps.otpWf ?_ | refine State.Keeps.basin ?_ | refine State.Keeps.sram ?_))

theorem State.kp_weirCheck {r s : State} (h : r.Keeps s) (x1 : Nat) : r.Keeps (State.weirCheck s x1) := by
  unfold State.weirCheck
  repeat' (first
    | with_reducible assumption
    | (intro t; (have ht : r.Keeps t := ?_); clear_value t; (try (rotate_left; unfold t)))
    | intro _
    | split
    | lift_lets
    | (with_reducible refine State.Keeps.of_fst (by assumption) ?_)
    | (with_reducible apply State.kp_put)
    | (with_reducible apply State.kp_raise)
    | (with_reducible apply State.kp_flag)
    | (with_reducible apply State.Keeps.foldl)
    | (with_reducible exact State.Keeps.later (by assumption) _)
    | (with_reducible apply State.Keeps.foldl1)
    | (with_reducible constructor <;> dsimp only <;> first | refine State.Keeps.pending ?_ | refine State.Keeps.now ?_ | refine State.Keeps.fresh ?_ | refine State.Keeps.otp ?_ | refine State.Keeps.otpWf ?_ | refine State.Keeps.basin ?_ | refine State.Keeps.sram ?_))

theorem State.kp_mapSpares {r s : State} (h : r.Keeps s) : r.Keeps s.mapSpares := by
  unfold State.mapSpares
  refine State.Keeps.foldl (fun s line h => ?_) _ _ h
  dsimp only
  split
  · with_reducible apply State.kp_put
    with_reducible apply State.kp_put
    exact ⟨h.pending, h.now, h.fresh, h.otp, h.otpWf, fun w => Memory.wf_clearRange _ _ (h.basin w), h.sram⟩
  · exact State.kp_condition h _ _ _

theorem State.kp_landDue {r s : State} (h : r.Keeps s) (x1 : ChamberId) : r.Keeps (State.landDue s x1) := by
  unfold State.landDue
  repeat' (first
    | with_reducible assumption
    | (intro t; (have ht : r.Keeps t := ?_); clear_value t; (try (rotate_left; unfold t)))
    | intro _
    | split
    | lift_lets
    | (with_reducible refine State.Keeps.of_fst (by assumption) ?_)
    | (with_reducible apply State.kp_setCh)
    | (with_reducible apply State.kp_breach))

theorem State.kp_closeBundle {r s : State} (h : r.Keeps s) (x1 : ChamberId) : r.Keeps (State.closeBundle s x1) := by
  unfold State.closeBundle
  repeat' (first
    | with_reducible assumption
    | intro _
    | split
    | lift_lets
    | (with_reducible refine State.Keeps.of_fst (by assumption) ?_)
    | (with_reducible apply State.kp_landDue)
    | (with_reducible apply State.kp_setCh))

theorem State.kp_issueScalar {r s : State} (h : r.Keeps s) (x1 : ChamberId) (x2 : State → State) (h2 : ∀ (a0 : State), r.Keeps a0 → r.Keeps (x2 a0)) : r.Keeps (State.issueScalar s x1 x2) := by
  unfold State.issueScalar
  repeat' (first
    | with_reducible assumption
    | (intro t; (have ht : r.Keeps t := ?_); clear_value t; (try (rotate_left; unfold t)))
    | intro _
    | split
    | lift_lets
    | (with_reducible refine State.Keeps.of_fst (by assumption) ?_)
    | (with_reducible apply State.kp_closeBundle)
    | (with_reducible apply State.kp_setCh)
    | (with_reducible apply State.kp_illegal)
    | apply h2)

theorem State.kp_issueVector {r s : State} (h : r.Keeps s) (x1 : ChamberId) (x2 : State → State) (h2 : ∀ (a0 : State), r.Keeps a0 → r.Keeps (x2 a0)) : r.Keeps (State.issueVector s x1 x2) := by
  unfold State.issueVector
  repeat' (first
    | with_reducible assumption
    | (intro t; (have ht : r.Keeps t := ?_); clear_value t; (try (rotate_left; unfold t)))
    | intro _
    | split
    | lift_lets
    | (with_reducible refine State.Keeps.of_fst (by assumption) ?_)
    | (with_reducible apply State.kp_closeBundle)
    | (with_reducible apply State.kp_setCh)
    | (with_reducible apply State.kp_illegal)
    | apply h2)

theorem State.kp_sendVec {r s : State} (h : r.Keeps s) (x1 : ChamberId) (x2 : Nat) (x3 : Nat) (x4 : BitVec 5) (x5 : PredW) (x6 : VecW) : r.Keeps (State.sendVec s x1 x2 x3 x4 x5 x6) := by
  unfold State.sendVec
  repeat' (first
    | with_reducible assumption
    | intro _
    | split
    | lift_lets
    | (with_reducible refine State.Keeps.of_fst (by assumption) ?_)
    | (with_reducible apply State.kp_send))

theorem State.kp_vMulOp {r s : State} (h : r.Keeps s) (x1 : ChamberId) (x2 : Nat) (x3 : Fields) : r.Keeps (State.vMulOp s x1 x2 x3) := by
  unfold State.vMulOp
  repeat' (first
    | with_reducible assumption
    | intro _
    | split
    | lift_lets
    | (with_reducible refine State.Keeps.of_fst (by assumption) ?_)
    | (with_reducible apply State.kp_sendVec)
    | (with_reducible apply State.kp_illegal)
    | (with_reducible apply State.kp_send))

theorem State.kp_trimEcc {r s : State} (h : r.Keeps s) (x1 : Nat) (x2 : Nat) (x3 : Ecc) (x4 : Option Nat) : r.Keeps (State.trimEcc s x1 x2 x3 x4) := by
  unfold State.trimEcc
  repeat' (first
    | with_reducible assumption
    | intro _
    | split
    | lift_lets
    | (with_reducible refine State.Keeps.of_fst (by assumption) ?_)
    | (with_reducible apply State.kp_put)
    | (with_reducible apply State.kp_flag)
    | (with_reducible apply State.kp_raise)
    | (with_reducible apply State.kp_inc)
    | (with_reducible apply State.Keeps.foldl)
    | (with_reducible exact State.Keeps.later (by assumption) _)
    | (with_reducible apply State.Keeps.foldl1)
    | (with_reducible constructor <;> dsimp only <;> first | refine State.Keeps.pending ?_ | refine State.Keeps.now ?_ | refine State.Keeps.fresh ?_ | refine State.Keeps.otp ?_ | refine State.Keeps.otpWf ?_ | refine State.Keeps.basin ?_ | refine State.Keeps.sram ?_))

theorem State.kp_vRdctx {r s : State} (h : r.Keeps s) (x1 : ChamberId) (x2 : Fields) : r.Keeps (State.vRdctx s x1 x2) := by
  unfold State.vRdctx
  repeat' (first
    | with_reducible assumption
    | intro _
    | split
    | lift_lets
    | (with_reducible refine State.Keeps.of_fst (by assumption) ?_)
    | (with_reducible apply State.kp_illegal)
    | (with_reducible apply State.kp_sendScalar))

theorem State.kp_vScalarImm {r s : State} (h : r.Keeps s) (x1 : ChamberId) (x2 : ImmOp) (x3 : Fields) : r.Keeps (State.vScalarImm s x1 x2 x3) := by
  unfold State.vScalarImm
  repeat' (first
    | with_reducible assumption
    | intro _
    | split
    | lift_lets
    | (with_reducible refine State.Keeps.of_fst (by assumption) ?_)
    | (with_reducible apply State.kp_sendScalar))

theorem State.kp_vBargeIssue {r s : State} (h : r.Keeps s) (x1 : ChamberId) (x2 : Fields) : r.Keeps (State.vBargeIssue s x1 x2) := by
  unfold State.vBargeIssue
  repeat' (first
    | with_reducible assumption
    | intro _
    | split
    | lift_lets
    | (with_reducible refine State.Keeps.of_fst (by assumption) ?_)
    | (with_reducible apply State.kp_illegal)
    | (with_reducible apply State.kp_breach)
    | (with_reducible apply State.kp_setCh)
    | (with_reducible apply State.Keeps.foldl)
    | (with_reducible exact State.Keeps.later (by assumption) _)
    | (with_reducible apply State.Keeps.foldl1)
    | (with_reducible constructor <;> dsimp only <;> first | refine State.Keeps.pending ?_ | refine State.Keeps.now ?_ | refine State.Keeps.fresh ?_ | refine State.Keeps.otp ?_ | refine State.Keeps.otpWf ?_ | refine State.Keeps.basin ?_ | refine State.Keeps.sram ?_))

theorem State.kp_stackFault {r s : State} (h : r.Keeps s) (x1 : ChamberId) : r.Keeps (State.stackFault s x1) := by
  unfold State.stackFault
  repeat' (first
    | with_reducible assumption
    | intro _
    | split
    | lift_lets
    | (with_reducible refine State.Keeps.of_fst (by assumption) ?_)
    | (with_reducible apply State.kp_breach)
    | (with_reducible apply State.kp_setCh))

theorem State.kp_vLoop {r s : State} (h : r.Keeps s) (x1 : ChamberId) (x2 : BitVec 12) (x3 : BitVec 16) : r.Keeps (State.vLoop s x1 x2 x3) := by
  unfold State.vLoop
  repeat' (first
    | with_reducible assumption
    | intro _
    | split
    | lift_lets
    | (with_reducible refine State.Keeps.of_fst (by assumption) ?_)
    | (with_reducible apply State.kp_illegal)
    | (with_reducible apply State.kp_stackFault)
    | (with_reducible apply State.kp_setCh))

theorem State.kp_touch {r s : State} (h : r.Keeps s) (x1 : ChamberId) (x2 : List Nat) : r.Keeps (State.touch s x1 x2) := by
  unfold State.touch
  repeat' (first
    | with_reducible assumption
    | intro _
    | split
    | lift_lets
    | (with_reducible refine State.Keeps.of_fst (by assumption) ?_)
    | (with_reducible apply State.kp_breach))

theorem State.kp_vCover {r s : State} (h : r.Keeps s) (x1 : ChamberId) (x2 : Fields) : r.Keeps (State.vCover s x1 x2) := by
  unfold State.vCover
  repeat' (first
    | with_reducible assumption
    | (intro t; (have ht : r.Keeps t := ?_); clear_value t; (try (rotate_left; unfold t)))
    | intro _
    | split
    | lift_lets
    | (with_reducible refine State.Keeps.of_fst (by assumption) ?_)
    | (with_reducible apply State.kp_illegal)
    | (with_reducible apply State.kp_touch)
    | (with_reducible apply State.kp_sendVec))

theorem State.kp_vLut16 {r s : State} (h : r.Keeps s) (x1 : ChamberId) (x2 : Fields) : r.Keeps (State.vLut16 s x1 x2) := by
  unfold State.vLut16
  repeat' (first
    | with_reducible assumption
    | (intro t; (have ht : r.Keeps t := ?_); clear_value t; (try (rotate_left; unfold t)))
    | intro _
    | split
    | lift_lets
    | (with_reducible refine State.Keeps.of_fst (by assumption) ?_)
    | (with_reducible apply State.kp_illegal)
    | (with_reducible apply State.kp_touch)
    | (with_reducible apply State.kp_sendVec))

theorem State.kp_vLi {r s : State} (h : r.Keeps s) (x1 : ChamberId) (x2 : Fields) : r.Keeps (State.vLi s x1 x2) := by
  unfold State.vLi
  repeat' (first
    | with_reducible assumption
    | intro _
    | split
    | lift_lets
    | (with_reducible refine State.Keeps.of_fst (by assumption) ?_)
    | (with_reducible apply State.kp_illegal)
    | (with_reducible apply State.kp_sendScalar))

theorem State.kp_transferTo {r s : State} (h : r.Keeps s) (x1 : ChamberId) (x2 : Nat) : r.Keeps (State.transferTo s x1 x2) := by
  unfold State.transferTo
  repeat' (first
    | with_reducible assumption
    | intro _
    | split
    | lift_lets
    | (with_reducible refine State.Keeps.of_fst (by assumption) ?_)
    | (with_reducible apply State.kp_setCh))

theorem State.kp_vRet {r s : State} (h : r.Keeps s) (x1 : ChamberId) (x2 : Fields) : r.Keeps (State.vRet s x1 x2) := by
  unfold State.vRet
  repeat' (first
    | with_reducible assumption
    | intro _
    | split
    | lift_lets
    | (with_reducible refine State.Keeps.of_fst (by assumption) ?_)
    | (with_reducible apply State.kp_illegal)
    | (with_reducible apply State.kp_stackFault)
    | (with_reducible apply State.kp_transferTo)
    | (with_reducible apply State.kp_setCh))

theorem State.kp_ledgerAdd {r s : State} (h : r.Keeps s) (x1 : Nat) (x2 : List (Prod Nat Ecc)) : r.Keeps (State.ledgerAdd s x1 x2) := by
  unfold State.ledgerAdd
  repeat' (first
    | with_reducible assumption
    | (intro t; (have ht : r.Keeps t := ?_); clear_value t; (try (rotate_left; unfold t)))
    | intro _
    | split
    | lift_lets
    | (with_reducible refine State.Keeps.of_fst (by assumption) ?_)
    | (with_reducible apply State.kp_trimEcc)
    | (with_reducible apply State.kp_noteWear)
    | (with_reducible apply State.kp_tsSet)
    | (with_reducible apply State.Keeps.foldl)
    | (with_reducible exact State.Keeps.later (by assumption) _)
    | (with_reducible apply State.Keeps.foldl1)
    | (with_reducible constructor <;> dsimp only <;> first | refine State.Keeps.pending ?_ | refine State.Keeps.now ?_ | refine State.Keeps.fresh ?_ | refine State.Keeps.otp ?_ | refine State.Keeps.otpWf ?_ | refine State.Keeps.basin ?_ | refine State.Keeps.sram ?_))

theorem State.kp_ledgerUpdate {r s : State} (h : r.Keeps s) (x1 : Nat) (x2 : Ecc) (x3 : List (Prod Nat Ecc)) : r.Keeps (State.ledgerUpdate s x1 x2 x3) := by
  unfold State.ledgerUpdate
  repeat' (first
    | with_reducible assumption
    | (intro t; (have ht : r.Keeps t := ?_); clear_value t; (try (rotate_left; unfold t)))
    | intro _
    | split
    | lift_lets
    | (with_reducible refine State.Keeps.of_fst (by assumption) ?_)
    | (with_reducible apply State.kp_trimEcc)
    | (with_reducible apply State.kp_ledgerAdd)
    | (with_reducible apply State.Keeps.foldl)
    | (with_reducible exact State.Keeps.later (by assumption) _)
    | (with_reducible apply State.Keeps.foldl1)
    | (with_reducible constructor <;> dsimp only <;> first | refine State.Keeps.pending ?_ | refine State.Keeps.now ?_ | refine State.Keeps.fresh ?_ | refine State.Keeps.otp ?_ | refine State.Keeps.otpWf ?_ | refine State.Keeps.basin ?_ | refine State.Keeps.sram ?_))

theorem State.kp_vHalt {r s : State} (h : r.Keeps s) (x1 : ChamberId) (x2 : Fields) : r.Keeps (State.vHalt s x1 x2) := by
  unfold State.vHalt
  repeat' (first
    | with_reducible assumption
    | (intro t; (have ht : r.Keeps t := ?_); clear_value t; (try (rotate_left; unfold t)))
    | intro _
    | split
    | lift_lets
    | (with_reducible refine State.Keeps.of_fst (by assumption) ?_)
    | (with_reducible apply State.kp_illegal)
    | (with_reducible apply State.kp_setCh)
    | (with_reducible apply State.kp_breach))

theorem State.kp_landTo {r s : State} (h : r.Keeps s) (c : ChamberId) (t n : Nat) : r.Keeps (s.landTo c t n) := by
  induction n generalizing s with
  | zero => exact State.kp_setCh h c _
  | succ n ih =>
    unfold State.landTo
    split
    · split
      · exact ih (State.kp_landDue (State.kp_setCh h c _) c)
      · exact State.kp_setCh h c _
    · exact State.kp_setCh h c _

theorem State.kp_vJump {r s : State} (h : r.Keeps s) (x1 : ChamberId) (x2 : Fields) : r.Keeps (State.vJump s x1 x2) := by
  unfold State.vJump
  repeat' (first
    | with_reducible assumption
    | intro _
    | split
    | lift_lets
    | (with_reducible refine State.Keeps.of_fst (by assumption) ?_)
    | (with_reducible apply State.kp_illegal)
    | (with_reducible apply State.kp_transferTo))

theorem State.kp_transferFails {r s : State} (h : r.Keeps s) (x1 : SvcReq) (x2 : Ecc) : r.Keeps (State.transferFails s x1 x2) := by
  unfold State.transferFails
  repeat' (first
    | with_reducible assumption
    | intro _
    | split
    | lift_lets
    | (with_reducible refine State.Keeps.of_fst (by assumption) ?_)
    | (with_reducible apply State.Keeps.foldl)
    | (with_reducible exact State.Keeps.later (by assumption) _)
    | (with_reducible apply State.Keeps.foldl1)
    | (with_reducible constructor <;> dsimp only <;> first | refine State.Keeps.pending ?_ | refine State.Keeps.now ?_ | refine State.Keeps.fresh ?_ | refine State.Keeps.otp ?_ | refine State.Keeps.otpWf ?_ | refine State.Keeps.basin ?_ | refine State.Keeps.sram ?_))

theorem State.kp_vCall {r s : State} (h : r.Keeps s) (x1 : ChamberId) (x2 : Fields) : r.Keeps (State.vCall s x1 x2) := by
  unfold State.vCall
  repeat' (first
    | with_reducible assumption
    | intro _
    | split
    | lift_lets
    | (with_reducible refine State.Keeps.of_fst (by assumption) ?_)
    | (with_reducible apply State.kp_illegal)
    | (with_reducible apply State.kp_stackFault)
    | (with_reducible apply State.kp_transferTo)
    | (with_reducible apply State.kp_setCh))

theorem State.kp_vBlend {r s : State} (h : r.Keeps s) (x1 : ChamberId) (x2 : Fields) : r.Keeps (State.vBlend s x1 x2) := by
  unfold State.vBlend
  repeat' (first
    | with_reducible assumption
    | intro _
    | split
    | lift_lets
    | (with_reducible refine State.Keeps.of_fst (by assumption) ?_)
    | (with_reducible apply State.kp_illegal)
    | (with_reducible apply State.kp_sendVec))

theorem State.kp_startStall {r s : State} (h : r.Keeps s) (x1 : Nat) : r.Keeps (State.startStall s x1) := by
  unfold State.startStall
  repeat' (first
    | with_reducible assumption
    | intro _
    | split
    | lift_lets
    | (with_reducible refine State.Keeps.of_fst (by assumption) ?_)
    | (with_reducible apply State.Keeps.foldl)
    | (with_reducible exact State.Keeps.later (by assumption) _)
    | (with_reducible apply State.Keeps.foldl1)
    | (with_reducible constructor <;> dsimp only <;> first | refine State.Keeps.pending ?_ | refine State.Keeps.now ?_ | refine State.Keeps.fresh ?_ | refine State.Keeps.otp ?_ | refine State.Keeps.otpWf ?_ | refine State.Keeps.basin ?_ | refine State.Keeps.sram ?_))

theorem State.kp_stallFence {r s : State} (h : r.Keeps s) (x1 : Nat) : r.Keeps (State.stallFence s x1) := by
  unfold State.stallFence
  repeat' (first
    | with_reducible assumption
    | intro _
    | split
    | lift_lets
    | (with_reducible refine State.Keeps.of_fst (by assumption) ?_)
    | (with_reducible apply State.Keeps.foldl)
    | (with_reducible exact State.Keeps.later (by assumption) _)
    | (with_reducible apply State.Keeps.foldl1)
    | (with_reducible constructor <;> dsimp only <;> first | refine State.Keeps.pending ?_ | refine State.Keeps.now ?_ | refine State.Keeps.fresh ?_ | refine State.Keeps.otp ?_ | refine State.Keeps.otpWf ?_ | refine State.Keeps.basin ?_ | refine State.Keeps.sram ?_))

theorem State.kp_beatRead {r s : State} (h : r.Keeps s) (x1 : ChamberId) (x2 : Barge) (x3 : Nat) (x4 : Nat) (x5 : Nat) (x6 : Ecc) : r.Keeps (State.beatRead s x1 x2 x3 x4 x5 x6).1 := by
  unfold State.beatRead
  repeat' (first
    | with_reducible assumption
    | (intro t; (have ht : r.Keeps t := ?_); clear_value t; (try (rotate_left; unfold t)))
    | intro _
    | split
    | lift_lets
    | (with_reducible refine State.Keeps.of_fst (by assumption) ?_)
    | (with_reducible apply State.kp_eccOutcome)
    | (with_reducible apply State.kp_startStall)
    | (with_reducible apply State.kp_stallFence))

theorem State.kp_vVbcast {r s : State} (h : r.Keeps s) (x1 : ChamberId) (x2 : Fields) : r.Keeps (State.vVbcast s x1 x2) := by
  unfold State.vVbcast
  repeat' (first
    | with_reducible assumption
    | intro _
    | split
    | lift_lets
    | (with_reducible refine State.Keeps.of_fst (by assumption) ?_)
    | (with_reducible apply State.kp_illegal)
    | (with_reducible apply State.kp_sendVec))

theorem State.kp_serviceWrite {r s : State} (h : r.Keeps s) (x1 : SvcReq) (x2 : Nat) (x3 : BitVec 128) : r.Keeps (State.serviceWrite s x1 x2 x3) := by
  unfold State.serviceWrite
  repeat' (first
    | with_reducible assumption
    | intro _
    | split
    | lift_lets
    | (with_reducible refine State.Keeps.of_fst (by assumption) ?_)
    | (with_reducible apply State.kp_poolWrite)
    | (with_reducible apply State.kp_basWrite)
    | (with_reducible apply State.Keeps.foldl)
    | (with_reducible exact State.Keeps.later (by assumption) _)
    | (with_reducible apply State.Keeps.foldl1)
    | (with_reducible constructor <;> dsimp only <;> first | refine State.Keeps.pending ?_ | refine State.Keeps.now ?_ | refine State.Keeps.fresh ?_ | refine State.Keeps.otp ?_ | refine State.Keeps.otpWf ?_ | refine State.Keeps.basin ?_ | refine State.Keeps.sram ?_))

theorem State.kp_serviceAccess {r s : State} (h : r.Keeps s) (x1 : Fin 32) (x2 : List SvcAccess) : r.Keeps (State.serviceAccess s x1 x2) := by
  unfold State.serviceAccess
  repeat' (first
    | with_reducible assumption
    | (intro t; (have ht : r.Keeps t := ?_); clear_value t; (try (rotate_left; unfold t)))
    | intro _
    | split
    | lift_lets
    | (with_reducible refine State.Keeps.of_fst (by assumption) ?_)
    | (with_reducible apply State.kp_serviceWrite)
    | (with_reducible apply State.kp_transferFails)
    | (with_reducible apply State.kp_eccOutcome)
    | (with_reducible apply State.Keeps.foldl)
    | (with_reducible exact State.Keeps.later (by assumption) _)
    | (with_reducible apply State.Keeps.foldl1)
    | (with_reducible constructor <;> dsimp only <;> first | refine State.Keeps.pending ?_ | refine State.Keeps.now ?_ | refine State.Keeps.fresh ?_ | refine State.Keeps.otp ?_ | refine State.Keeps.otpWf ?_ | refine State.Keeps.basin ?_ | refine State.Keeps.sram ?_))

theorem State.kp_vSample {r s : State} (h : r.Keeps s) (x1 : ChamberId) (x2 : Fields) : r.Keeps (State.vSample s x1 x2) := by
  unfold State.vSample
  repeat' (first
    | with_reducible assumption
    | (intro t; (have ht : r.Keeps t := ?_); clear_value t; (try (rotate_left; unfold t)))
    | intro _
    | split
    | lift_lets
    | (with_reducible refine State.Keeps.of_fst (by assumption) ?_)
    | (with_reducible apply State.kp_illegal)
    | (with_reducible apply State.kp_touch)
    | (with_reducible apply State.kp_sendVec))

theorem State.kp_vStoreLine {r s : State} (h : r.Keeps s) (x1 : ChamberId) (x2 : Fields) : r.Keeps (State.vStoreLine s x1 x2) := by
  unfold State.vStoreLine
  repeat' (first
    | with_reducible assumption
    | (intro t; (have ht : r.Keeps t := ?_); clear_value t; (try (rotate_left; unfold t)))
    | intro _
    | split
    | lift_lets
    | (with_reducible refine State.Keeps.of_fst (by assumption) ?_)
    | (with_reducible apply State.kp_illegal)
    | (with_reducible apply State.kp_touch)
    | (with_reducible apply State.kp_send))

theorem State.kp_vLoadScalar {r s : State} (h : r.Keeps s) (x1 : ChamberId) (x2 : Fields) : r.Keeps (State.vLoadScalar s x1 x2) := by
  unfold State.vLoadScalar
  repeat' (first
    | with_reducible assumption
    | (intro t; (have ht : r.Keeps t := ?_); clear_value t; (try (rotate_left; unfold t)))
    | intro _
    | split
    | lift_lets
    | (with_reducible refine State.Keeps.of_fst (by assumption) ?_)
    | (with_reducible apply State.kp_illegal)
    | (with_reducible apply State.kp_touch)
    | (with_reducible apply State.kp_sendScalar))

theorem State.kp_formatSegment {r s : State} (h : r.Keeps s) (x1 : ReachId) (x2 : Nat) : r.Keeps (State.formatSegment s x1 x2) := by
  unfold State.formatSegment
  repeat' (first
    | with_reducible assumption
    | (intro t; (have ht : r.Keeps t := ?_); clear_value t; (try (rotate_left; unfold t)))
    | intro _
    | split
    | lift_lets
    | (with_reducible refine State.Keeps.of_fst (by assumption) ?_)
    | (with_reducible apply State.kp_setReach)
    | (with_reducible apply State.Keeps.foldl)
    | (with_reducible exact State.Keeps.later (by assumption) _)
    | (with_reducible apply State.Keeps.foldl1)
    | (with_reducible constructor <;> dsimp only <;> first | refine State.Keeps.pending ?_ | refine State.Keeps.now ?_ | refine State.Keeps.fresh ?_ | refine State.Keeps.otp ?_ | refine State.Keeps.otpWf ?_ | refine State.Keeps.basin ?_ | refine State.Keeps.sram ?_))

theorem State.kp_trimFormat {r s : State} (h : r.Keeps s) (x1 : ReachId) (x2 : List (Prod Nat Ecc)) : r.Keeps (State.trimFormat s x1 x2) := by
  unfold State.trimFormat
  repeat' (first
    | with_reducible assumption
    | intro _
    | split
    | lift_lets
    | (with_reducible refine State.Keeps.of_fst (by assumption) ?_)
    | (with_reducible apply State.kp_formatSegment)
    | (with_reducible apply State.kp_trimEcc)
    | (with_reducible apply State.Keeps.foldl))

theorem State.kp_vScalarOp {r s : State} (h : r.Keeps s) (x1 : ChamberId) (x2 : Fields) : r.Keeps (State.vScalarOp s x1 x2) := by
  unfold State.vScalarOp
  repeat' (first
    | with_reducible assumption
    | intro _
    | split
    | lift_lets
    | (with_reducible refine State.Keeps.of_fst (by assumption) ?_)
    | (with_reducible apply State.kp_illegal)
    | (with_reducible apply State.kp_sendScalar))

theorem State.kp_vStoreScalar {r s : State} (h : r.Keeps s) (x1 : ChamberId) (x2 : Fields) : r.Keeps (State.vStoreScalar s x1 x2) := by
  unfold State.vStoreScalar
  repeat' (first
    | with_reducible assumption
    | (intro t; (have ht : r.Keeps t := ?_); clear_value t; (try (rotate_left; unfold t)))
    | intro _
    | split
    | lift_lets
    | (with_reducible refine State.Keeps.of_fst (by assumption) ?_)
    | (with_reducible apply State.kp_illegal)
    | (with_reducible apply State.kp_touch)
    | (with_reducible apply State.kp_send))

theorem State.kp_vLoadLine {r s : State} (h : r.Keeps s) (x1 : ChamberId) (x2 : Fields) : r.Keeps (State.vLoadLine s x1 x2) := by
  unfold State.vLoadLine
  repeat' (first
    | with_reducible assumption
    | (intro t; (have ht : r.Keeps t := ?_); clear_value t; (try (rotate_left; unfold t)))
    | intro _
    | split
    | lift_lets
    | (with_reducible refine State.Keeps.of_fst (by assumption) ?_)
    | (with_reducible apply State.kp_illegal)
    | (with_reducible apply State.kp_touch)
    | (with_reducible apply State.kp_sendVec))

theorem State.kp_vClamp {r s : State} (h : r.Keeps s) (x1 : ChamberId) (x2 : Fields) : r.Keeps (State.vClamp s x1 x2) := by
  unfold State.vClamp
  repeat' (first
    | with_reducible assumption
    | intro _
    | split
    | lift_lets
    | (with_reducible refine State.Keeps.of_fst (by assumption) ?_)
    | (with_reducible apply State.kp_illegal)
    | (with_reducible apply State.kp_sendVec))

theorem State.kp_vMinmax {r s : State} (h : r.Keeps s) (x1 : ChamberId) (x2 : Fields) : r.Keeps (State.vMinmax s x1 x2) := by
  unfold State.vMinmax
  repeat' (first
    | with_reducible assumption
    | intro _
    | split
    | lift_lets
    | (with_reducible refine State.Keeps.of_fst (by assumption) ?_)
    | (with_reducible apply State.kp_illegal)
    | (with_reducible apply State.kp_sendVec))

theorem State.kp_sendPred {r s : State} (h : r.Keeps s) (x1 : ChamberId) (x2 : Nat) (x3 : BitVec 3) (x4 : PredW) (x5 : PredW) : r.Keeps (State.sendPred s x1 x2 x3 x4 x5) := by
  unfold State.sendPred
  repeat' (first
    | with_reducible assumption
    | intro _
    | split
    | lift_lets
    | (with_reducible refine State.Keeps.of_fst (by assumption) ?_)
    | (with_reducible apply State.kp_send))

theorem State.kp_vPredOp {r s : State} (h : r.Keeps s) (c : ChamberId) (f : Fields) : r.Keeps (s.vPredOp c f) := by
  unfold State.vPredOp
  extract_lets x op a b
  clear_value x op a b
  split
  · exact State.kp_illegal h _
  · split
    · exact State.kp_sendPred h _ _ _ _ _
    · exact State.kp_sendPred h _ _ _ _ _
    · exact State.kp_sendPred h _ _ _ _ _
    · exact State.kp_illegal h _

theorem State.kp_vVectorOp {r s : State} (h : r.Keeps s) (x1 : ChamberId) (x2 : Fields) : r.Keeps (State.vVectorOp s x1 x2) := by
  unfold State.vVectorOp
  repeat' (first
    | with_reducible assumption
    | intro _
    | split
    | lift_lets
    | (with_reducible refine State.Keeps.of_fst (by assumption) ?_)
    | (with_reducible apply State.kp_vVbcast)
    | (with_reducible apply State.kp_vVext)
    | (with_reducible apply State.kp_vClamp)
    | (with_reducible apply State.kp_vMinmax)
    | (with_reducible apply State.kp_vPredOp)
    | (with_reducible apply State.kp_sendVec)
    | (with_reducible apply State.kp_illegal)
    | (with_reducible apply State.kp_sendPred))

theorem State.kp_vHealth {r s : State} (h : r.Keeps s) (x1 : ChamberId) (x2 : Fields) : r.Keeps (State.vHealth s x1 x2) := by
  unfold State.vHealth
  repeat' (first
    | with_reducible assumption
    | intro _
    | split
    | lift_lets
    | (with_reducible refine State.Keeps.of_fst (by assumption) ?_)
    | (with_reducible apply State.kp_illegal)
    | (with_reducible apply State.kp_sendPred))

theorem State.kp_vReqPut {r s : State} (h : r.Keeps s) (x1 : ChamberId) (x2 : Fields) : r.Keeps (State.vReqPut s x1 x2) := by
  unfold State.vReqPut
  repeat' (first
    | with_reducible assumption
    | (intro t; (have ht : r.Keeps t := ?_); clear_value t; (try (rotate_left; unfold t)))
    | intro _
    | split
    | lift_lets
    | (with_reducible refine State.Keeps.of_fst (by assumption) ?_)
    | (with_reducible apply State.kp_illegal)
    | (with_reducible apply State.kp_setReach)
    | (with_reducible apply State.kp_breach))

theorem State.kp_bargeBeat {r s : State} (h : r.Keeps s) (x1 : ChamberId) (x2 : Fin 8) (x3 : Ecc) : r.Keeps (State.bargeBeat s x1 x2 x3) := by
  unfold State.bargeBeat
  repeat' (first
    | with_reducible assumption
    | intro _
    | split
    | lift_lets
    | (with_reducible refine State.Keeps.of_fst (by assumption) ?_)
    | (with_reducible apply State.kp_setCh)
    | (with_reducible apply State.kp_breachAt)
    | (with_reducible apply State.kp_beatRead))

theorem State.kp_scrubStep {r s : State} (h : r.Keeps s) (x1 : List (Prod (Fin 32) Ecc)) : r.Keeps (State.scrubStep s x1) := by
  unfold State.scrubStep
  repeat' (first
    | with_reducible assumption
    | (intro t; (have ht : r.Keeps t := ?_); clear_value t; (try (rotate_left; unfold t)))
    | intro _
    | split
    | lift_lets
    | (with_reducible refine State.Keeps.of_fst (by assumption) ?_)
    | (with_reducible apply State.kp_eccOutcome)
    | (with_reducible apply State.kp_incMod)
    | (with_reducible apply State.kp_put)
    | (with_reducible apply State.Keeps.foldl)
    | (with_reducible exact State.Keeps.later (by assumption) _)
    | (with_reducible apply State.Keeps.foldl1)
    | (with_reducible constructor <;> dsimp only <;> first | refine State.Keeps.pending ?_ | refine State.Keeps.now ?_ | refine State.Keeps.fresh ?_ | refine State.Keeps.otp ?_ | refine State.Keeps.otpWf ?_ | refine State.Keeps.basin ?_ | refine State.Keeps.sram ?_))

end Sys2Proof.Machine
end

