-- ==== Sys2Proof/Laws/KeepsDisplay.lean ====
section
/-!
SUPPORT. State.Keeps of every function of the model: modes, calibration, drive and the sequencer.
-/
namespace Sys2Proof.Machine

theorem State.kp_calQueue {r s : State} (h : r.Keeps s) (x1 : List Nat) : r.Keeps (State.calQueue s x1) := by
  unfold State.calQueue
  repeat' (first
    | with_reducible assumption
    | intro _
    | split
    | lift_lets
    | (with_reducible refine State.Keeps.of_fst (by assumption) ?_)
    | (with_reducible apply State.kp_putBit)
    | (with_reducible apply State.Keeps.foldl)
    | (with_reducible exact State.Keeps.later (by assumption) _)
    | (with_reducible apply State.Keeps.foldl1)
    | (with_reducible constructor <;> dsimp only <;> first | refine State.Keeps.pending ?_ | refine State.Keeps.now ?_ | refine State.Keeps.fresh ?_ | refine State.Keeps.otp ?_ | refine State.Keeps.otpWf ?_ | refine State.Keeps.basin ?_ | refine State.Keeps.sram ?_))

theorem State.kp_commitBit {r s : State} (h : r.Keeps s) : r.Keeps (State.commitBit s) := by
  unfold State.commitBit
  repeat' (first
    | with_reducible assumption
    | (intro t; (have ht : r.Keeps t := ?_); clear_value t; (try (rotate_left; unfold t)))
    | intro _
    | split
    | lift_lets
    | (with_reducible refine State.Keeps.of_fst (by assumption) ?_)
    | (with_reducible apply State.kp_put)
    | (with_reducible apply State.Keeps.foldl)
    | (with_reducible exact State.Keeps.later (by assumption) _)
    | (with_reducible apply State.Keeps.foldl1)
    | (with_reducible constructor <;> dsimp only <;> first | refine State.Keeps.pending ?_ | refine State.Keeps.now ?_ | refine State.Keeps.fresh ?_ | refine State.Keeps.otp ?_ | refine State.Keeps.otpWf ?_ | refine State.Keeps.basin ?_ | refine State.Keeps.sram ?_))

theorem State.kp_setCommit {r s : State} (h : r.Keeps s) : r.Keeps (State.setCommit s) := by
  unfold State.setCommit
  repeat' (first
    | with_reducible assumption
    | intro _
    | split
    | lift_lets
    | (with_reducible refine State.Keeps.of_fst (by assumption) ?_)
    | (with_reducible apply State.kp_commitBit)
    | (with_reducible apply State.kp_landing))

theorem State.kp_resume {r s : State} (h : r.Keeps s) : r.Keeps (State.resume s) := by
  unfold State.resume
  repeat' (first
    | with_reducible assumption
    | intro _
    | split
    | lift_lets
    | (with_reducible refine State.Keeps.of_fst (by assumption) ?_)
    | (with_reducible apply State.kp_flag)
    | (with_reducible apply State.Keeps.foldl)
    | (with_reducible exact State.Keeps.later (by assumption) _)
    | (with_reducible apply State.Keeps.foldl1)
    | (with_reducible constructor <;> dsimp only <;> first | refine State.Keeps.pending ?_ | refine State.Keeps.now ?_ | refine State.Keeps.fresh ?_ | refine State.Keeps.otp ?_ | refine State.Keeps.otpWf ?_ | refine State.Keeps.basin ?_ | refine State.Keeps.sram ?_))

theorem State.kp_clearSafeDark {r s : State} (h : r.Keeps s) : r.Keeps (State.clearSafeDark s) := by
  unfold State.clearSafeDark
  repeat' (first
    | with_reducible assumption
    | intro _
    | split
    | lift_lets
    | (with_reducible refine State.Keeps.of_fst (by assumption) ?_)
    | (with_reducible apply State.kp_condition)
    | (with_reducible apply State.kp_put)
    | (with_reducible apply State.kp_flag)
    | (with_reducible apply State.Keeps.foldl)
    | (with_reducible exact State.Keeps.later (by assumption) _)
    | (with_reducible apply State.Keeps.foldl1)
    | (with_reducible constructor <;> dsimp only <;> first | refine State.Keeps.pending ?_ | refine State.Keeps.now ?_ | refine State.Keeps.fresh ?_ | refine State.Keeps.otp ?_ | refine State.Keeps.otpWf ?_ | refine State.Keeps.basin ?_ | refine State.Keeps.sram ?_))

theorem State.kp_enterSafeDark {r s : State} (h : r.Keeps s) (x1 : Nat) : r.Keeps (State.enterSafeDark s x1) := by
  unfold State.enterSafeDark
  repeat' (first
    | with_reducible assumption
    | intro _
    | split
    | lift_lets
    | (with_reducible refine State.Keeps.of_fst (by assumption) ?_)
    | (with_reducible apply State.kp_put)
    | (with_reducible apply State.Keeps.foldl)
    | (with_reducible exact State.Keeps.later (by assumption) _)
    | (with_reducible apply State.Keeps.foldl1)
    | (with_reducible constructor <;> dsimp only <;> first | refine State.Keeps.pending ?_ | refine State.Keeps.now ?_ | refine State.Keeps.fresh ?_ | refine State.Keeps.otp ?_ | refine State.Keeps.otpWf ?_ | refine State.Keeps.basin ?_ | refine State.Keeps.sram ?_))

theorem State.kp_calAbort {r s : State} (h : r.Keeps s) (x1 : Nat) : r.Keeps (State.calAbort s x1) := by
  unfold State.calAbort
  repeat' (first
    | with_reducible assumption
    | intro _
    | split
    | lift_lets
    | (with_reducible refine State.Keeps.of_fst (by assumption) ?_)
    | (with_reducible apply State.Keeps.foldl)
    | (with_reducible exact State.Keeps.later (by assumption) _)
    | (with_reducible apply State.Keeps.foldl1)
    | (with_reducible constructor <;> dsimp only <;> first | refine State.Keeps.pending ?_ | refine State.Keeps.now ?_ | refine State.Keeps.fresh ?_ | refine State.Keeps.otp ?_ | refine State.Keeps.otpWf ?_ | refine State.Keeps.basin ?_ | refine State.Keeps.sram ?_))

theorem State.kp_calReset {r s : State} (h : r.Keeps s) (x1 : Nat) : r.Keeps (State.calReset s x1) := by
  unfold State.calReset
  repeat' (first
    | with_reducible assumption
    | intro _
    | split
    | lift_lets
    | (with_reducible refine State.Keeps.of_fst (by assumption) ?_)
    | (with_reducible apply State.kp_calAbort))

theorem State.kp_reachReset {r s : State} (h : r.Keeps s) (x1 : Nat) : r.Keeps (State.reachReset s x1) := by
  unfold State.reachReset
  repeat' (first
    | with_reducible assumption
    | (intro t; (have ht : r.Keeps t := ?_); clear_value t; (try (rotate_left; unfold t)))
    | intro _
    | split
    | lift_lets
    | (with_reducible refine State.Keeps.of_fst (by assumption) ?_)
    | (with_reducible apply State.kp_calReset)
    | (with_reducible apply State.kp_setReach)
    | (with_reducible apply State.Keeps.foldl))

theorem State.kp_setRun {r s : State} (h : r.Keeps s) : r.Keeps (State.setRun s) := by
  unfold State.setRun
  repeat' (first
    | with_reducible assumption
    | (intro t; (have ht : r.Keeps t := ?_); clear_value t; (try (rotate_left; unfold t)))
    | intro _
    | split
    | lift_lets
    | (with_reducible refine State.Keeps.of_fst (by assumption) ?_)
    | (with_reducible apply State.kp_put)
    | (with_reducible apply State.Keeps.foldl)
    | (with_reducible exact State.Keeps.later (by assumption) _)
    | (with_reducible apply State.Keeps.foldl1)
    | (with_reducible constructor <;> dsimp only <;> first | refine State.Keeps.pending ?_ | refine State.Keeps.now ?_ | refine State.Keeps.fresh ?_ | refine State.Keeps.otp ?_ | refine State.Keeps.otpWf ?_ | refine State.Keeps.basin ?_ | refine State.Keeps.sram ?_))

theorem State.kp_runWrite {r s : State} (h : r.Keeps s) : r.Keeps (State.runWrite s) := by
  unfold State.runWrite
  repeat' (first
    | with_reducible assumption
    | intro _
    | split
    | lift_lets
    | (with_reducible refine State.Keeps.of_fst (by assumption) ?_)
    | (with_reducible apply State.kp_setRun)
    | (with_reducible apply State.kp_raise)
    | (with_reducible apply State.kp_flag)
    | (with_reducible apply State.kp_put))

theorem State.kp_clearRun {r s : State} (h : r.Keeps s) : r.Keeps (State.clearRun s) := by
  unfold State.clearRun
  repeat' (first
    | with_reducible assumption
    | (intro t; (have ht : r.Keeps t := ?_); clear_value t; (try (rotate_left; unfold t)))
    | intro _
    | split
    | lift_lets
    | (with_reducible refine State.Keeps.of_fst (by assumption) ?_)
    | (with_reducible apply State.kp_put)
    | (with_reducible apply State.Keeps.foldl)
    | (with_reducible exact State.Keeps.later (by assumption) _)
    | (with_reducible apply State.Keeps.foldl1)
    | (with_reducible constructor <;> dsimp only <;> first | refine State.Keeps.pending ?_ | refine State.Keeps.now ?_ | refine State.Keeps.fresh ?_ | refine State.Keeps.otp ?_ | refine State.Keeps.otpWf ?_ | refine State.Keeps.basin ?_ | refine State.Keeps.sram ?_))

theorem State.kp_setRate {r s : State} (h : r.Keeps s) (x1 : Nat) (x2 : Nat) : r.Keeps (State.setRate s x1 x2) := by
  unfold State.setRate
  repeat' (first
    | with_reducible assumption
    | intro _
    | split
    | lift_lets
    | (with_reducible refine State.Keeps.of_fst (by assumption) ?_)
    | (with_reducible apply State.kp_put))

theorem State.kp_setLockLoad {r s : State} (h : r.Keeps s) : r.Keeps (State.setLockLoad s) := by
  unfold State.setLockLoad
  repeat' (first
    | with_reducible assumption
    | (intro t; (have ht : r.Keeps t := ?_); clear_value t; (try (rotate_left; unfold t)))
    | intro _
    | split
    | lift_lets
    | (with_reducible refine State.Keeps.of_fst (by assumption) ?_)
    | (with_reducible apply State.kp_put)
    | (with_reducible apply State.kp_landing)
    | (with_reducible apply State.Keeps.foldl)
    | (with_reducible exact State.Keeps.later (by assumption) _)
    | (with_reducible apply State.Keeps.foldl1)
    | (with_reducible constructor <;> dsimp only <;> first | refine State.Keeps.pending ?_ | refine State.Keeps.now ?_ | refine State.Keeps.fresh ?_ | refine State.Keeps.otp ?_ | refine State.Keeps.otpWf ?_ | refine State.Keeps.basin ?_ | refine State.Keeps.sram ?_))

theorem State.kp_degradeAtSluice {r s : State} (h : r.Keeps s) : r.Keeps (State.degradeAtSluice s) := by
  unfold State.degradeAtSluice
  repeat' (first
    | with_reducible assumption
    | (intro t; (have ht : r.Keeps t := ?_); clear_value t; (try (rotate_left; unfold t)))
    | intro _
    | split
    | lift_lets
    | (with_reducible refine State.Keeps.of_fst (by assumption) ?_)
    | (with_reducible apply State.kp_put)
    | (with_reducible apply State.Keeps.foldl)
    | (with_reducible exact State.Keeps.later (by assumption) _)
    | (with_reducible apply State.Keeps.foldl1)
    | (with_reducible constructor <;> dsimp only <;> first | refine State.Keeps.pending ?_ | refine State.Keeps.now ?_ | refine State.Keeps.fresh ?_ | refine State.Keeps.otp ?_ | refine State.Keeps.otpWf ?_ | refine State.Keeps.basin ?_ | refine State.Keeps.sram ?_))

theorem State.kp_calReference {r s : State} (h : r.Keeps s) (x1 : SlotMeas) : r.Keeps (State.calReference s x1) := by
  unfold State.calReference
  repeat' (first
    | with_reducible assumption
    | (intro t; (have ht : r.Keeps t := ?_); clear_value t; (try (rotate_left; unfold t)))
    | intro _
    | split
    | lift_lets
    | (with_reducible refine State.Keeps.of_fst (by assumption) ?_)
    | (with_reducible apply State.kp_put))

theorem State.kp_calMeasure {r s : State} (h : r.Keeps s) (x1 : SlotMeas) (x2 : Bool) : r.Keeps (State.calMeasure s x1 x2) := by
  unfold State.calMeasure
  repeat' (first
    | with_reducible assumption
    | (intro t; (have ht : r.Keeps t := ?_); clear_value t; (try (rotate_left; unfold t)))
    | intro _
    | split
    | lift_lets
    | (with_reducible refine State.Keeps.of_fst (by assumption) ?_)
    | (with_reducible apply State.kp_calAbort)
    | (with_reducible apply State.kp_calReference)
    | (with_reducible apply State.Keeps.foldl)
    | (with_reducible exact State.Keeps.later (by assumption) _)
    | (with_reducible apply State.Keeps.foldl1)
    | (with_reducible constructor <;> dsimp only <;> first | refine State.Keeps.pending ?_ | refine State.Keeps.now ?_ | refine State.Keeps.fresh ?_ | refine State.Keeps.otp ?_ | refine State.Keeps.otpWf ?_ | refine State.Keeps.basin ?_ | refine State.Keeps.sram ?_))

theorem State.kp_setDiag {r s : State} (h : r.Keeps s) (x1 : Diag) : r.Keeps (State.setDiag s x1) := by
  unfold State.setDiag
  repeat' (first
    | with_reducible assumption
    | intro _
    | split
    | lift_lets
    | (with_reducible refine State.Keeps.of_fst (by assumption) ?_)
    | (with_reducible apply State.Keeps.foldl)
    | (with_reducible exact State.Keeps.later (by assumption) _)
    | (with_reducible apply State.Keeps.foldl1)
    | (with_reducible constructor <;> dsimp only <;> first | refine State.Keeps.pending ?_ | refine State.Keeps.now ?_ | refine State.Keeps.fresh ?_ | refine State.Keeps.otp ?_ | refine State.Keeps.otpWf ?_ | refine State.Keeps.basin ?_ | refine State.Keeps.sram ?_))

theorem State.kp_measureSlot {r s : State} (h : r.Keeps s) (x1 : ReachId) (x2 : SlotMeas) (x3 : Bool) : r.Keeps (State.measureSlot s x1 x2 x3) := by
  unfold State.measureSlot
  repeat' (first
    | with_reducible assumption
    | intro _
    | split
    | lift_lets
    | (with_reducible refine State.Keeps.of_fst (by assumption) ?_)
    | (with_reducible apply State.kp_calMeasure)
    | (with_reducible apply State.kp_calReference)
    | (with_reducible apply State.kp_setDiag))

theorem State.kp_noteSweepDone {r s : State} (h : r.Keeps s) : r.Keeps (State.noteSweepDone s) := by
  unfold State.noteSweepDone
  repeat' (first
    | with_reducible assumption
    | intro _
    | split
    | lift_lets
    | (with_reducible refine State.Keeps.of_fst (by assumption) ?_)
    | (with_reducible apply State.kp_flag)
    | (with_reducible apply State.kp_put))

theorem State.kp_calStartup {r s : State} (h : r.Keeps s) : r.Keeps (State.calStartup s) := by
  unfold State.calStartup
  repeat' (first
    | with_reducible assumption
    | intro _
    | split
    | lift_lets
    | (with_reducible refine State.Keeps.of_fst (by assumption) ?_)
    | (with_reducible apply State.kp_calQueue)
    | (with_reducible apply State.Keeps.foldl)
    | (with_reducible exact State.Keeps.later (by assumption) _)
    | (with_reducible apply State.Keeps.foldl1)
    | (with_reducible constructor <;> dsimp only <;> first | refine State.Keeps.pending ?_ | refine State.Keeps.now ?_ | refine State.Keeps.fresh ?_ | refine State.Keeps.otp ?_ | refine State.Keeps.otpWf ?_ | refine State.Keeps.basin ?_ | refine State.Keeps.sram ?_))

theorem State.kp_setColumnGain {r s : State} (h : r.Keeps s) (x1 : Nat) (x2 : Nat) (x3 : Nat) : r.Keeps (State.setColumnGain s x1 x2 x3) := by
  unfold State.setColumnGain
  repeat' (first
    | with_reducible assumption
    | (intro t; (have ht : r.Keeps t := ?_); clear_value t; (try (rotate_left; unfold t)))
    | intro _
    | split
    | lift_lets
    | (with_reducible refine State.Keeps.of_fst (by assumption) ?_)
    | (with_reducible apply State.kp_tsSet)
    | (with_reducible apply State.Keeps.foldl)
    | (with_reducible exact State.Keeps.later (by assumption) _)
    | (with_reducible apply State.Keeps.foldl1)
    | (with_reducible constructor <;> dsimp only <;> first | refine State.Keeps.pending ?_ | refine State.Keeps.now ?_ | refine State.Keeps.fresh ?_ | refine State.Keeps.otp ?_ | refine State.Keeps.otpWf ?_ | refine State.Keeps.basin ?_ | refine State.Keeps.sram ?_))

theorem State.kp_calReport {r s : State} (h : r.Keeps s) (x1 : CalRun) (x2 : Nat) (x3 : Nat) : r.Keeps (State.calReport s x1 x2 x3) := by
  unfold State.calReport
  repeat' (first
    | with_reducible assumption
    | (intro t; (have ht : r.Keeps t := ?_); clear_value t; (try (rotate_left; unfold t)))
    | intro _
    | split
    | lift_lets
    | (with_reducible refine State.Keeps.of_fst (by assumption) ?_)
    | (with_reducible apply State.kp_put)
    | (with_reducible apply State.kp_draw)
    | (with_reducible apply State.kp_inc)
    | (with_reducible apply State.kp_incMod))

theorem State.kp_calInstall_from {r s : State} (h : r.Keeps s) (x : CalRun) (good : List Nat) (n total : Nat) :
    r.Keeps (State.flag { (good.foldl (fun s n => s.setColumnGain x.reach n (x.gain n)) s).calReport x n total with
      cal := { ((good.foldl (fun s n => s.setColumnGain x.reach n (x.gain n)) s).calReport x n total).cal with
        lastTime := ((good.foldl (fun s n => s.setColumnGain x.reach n (x.gain n)) s).calReport x n total).seq.sluiceTime } } Reg.CAL_EVENT_DONE) := by
  apply State.kp_flag
  have ht : r.Keeps ((good.foldl (fun s n => s.setColumnGain x.reach n (x.gain n)) s).calReport x n total) :=
    State.kp_calReport (State.Keeps.foldl (fun _ _ h => State.kp_setColumnGain h _ _ _) _ _ h) _ _ _
  exact ⟨ht.pending, ht.now, ht.fresh, ht.otp, ht.otpWf, ht.basin, ht.sram⟩

theorem State.kp_calInstall {r s : State} (h : r.Keeps s) (x : CalRun) : r.Keeps (s.calInstall x) :=
  State.kp_calInstall_from h _ _ _ _

theorem State.kp_takeLocalMap {r s : State} (h : r.Keeps s) : r.Keeps (State.takeLocalMap s) := by
  unfold State.takeLocalMap
  repeat' (first
    | with_reducible assumption
    | intro _
    | split
    | lift_lets
    | (with_reducible refine State.Keeps.of_fst (by assumption) ?_)
    | (with_reducible apply State.kp_put)
    | (with_reducible apply State.kp_setDiag))

theorem State.kp_openDiag {r s : State} (h : r.Keeps s) (x1 : Bool) : r.Keeps (State.openDiag s x1) := by
  unfold State.openDiag
  repeat' (first
    | with_reducible assumption
    | (intro t; (have ht : r.Keeps t := ?_); clear_value t; (try (rotate_left; unfold t)))
    | intro _
    | split
    | lift_lets
    | (with_reducible refine State.Keeps.of_fst (by assumption) ?_)
    | (with_reducible apply State.kp_setDiag)
    | (with_reducible apply State.kp_put))

theorem State.kp_latchFences {r s : State} (h : r.Keeps s) : r.Keeps (State.latchFences s) := by
  unfold State.latchFences
  repeat' (first
    | with_reducible assumption
    | intro _
    | split
    | lift_lets
    | (with_reducible refine State.Keeps.of_fst (by assumption) ?_)
    | (with_reducible apply State.Keeps.foldl)
    | (with_reducible exact State.Keeps.later (by assumption) _)
    | (with_reducible apply State.Keeps.foldl1)
    | (with_reducible constructor <;> dsimp only <;> first | refine State.Keeps.pending ?_ | refine State.Keeps.now ?_ | refine State.Keeps.fresh ?_ | refine State.Keeps.otp ?_ | refine State.Keeps.otpWf ?_ | refine State.Keeps.basin ?_ | refine State.Keeps.sram ?_))

theorem State.kp_judgePhase {r s : State} (h : r.Keeps s) (x1 : Int) : r.Keeps (State.judgePhase s x1) := by
  unfold State.judgePhase
  repeat' (first
    | with_reducible assumption
    | (intro t; (have ht : r.Keeps t := ?_); clear_value t; (try (rotate_left; unfold t)))
    | intro _
    | split
    | lift_lets
    | (with_reducible refine State.Keeps.of_fst (by assumption) ?_)
    | (with_reducible apply State.kp_put)
    | (with_reducible apply State.kp_setSync))

theorem State.kp_aim {r s : State} (h : r.Keeps s) : r.Keeps (State.aim s) := by
  unfold State.aim
  repeat' (first
    | with_reducible assumption
    | intro _
    | split
    | lift_lets
    | (with_reducible refine State.Keeps.of_fst (by assumption) ?_)
    | (with_reducible apply State.Keeps.foldl)
    | (with_reducible exact State.Keeps.later (by assumption) _)
    | (with_reducible apply State.Keeps.foldl1)
    | (with_reducible constructor <;> dsimp only <;> first | refine State.Keeps.pending ?_ | refine State.Keeps.now ?_ | refine State.Keeps.fresh ?_ | refine State.Keeps.otp ?_ | refine State.Keeps.otpWf ?_ | refine State.Keeps.basin ?_ | refine State.Keeps.sram ?_))

theorem State.kp_leaveEgress {r s : State} (h : r.Keeps s) : r.Keeps (State.leaveEgress s) := by
  unfold State.leaveEgress
  repeat' (first
    | with_reducible assumption
    | (intro t; (have ht : r.Keeps t := ?_); clear_value t; (try (rotate_left; unfold t)))
    | intro _
    | split
    | lift_lets
    | (with_reducible refine State.Keeps.of_fst (by assumption) ?_)
    | (with_reducible apply State.kp_landing)
    | (with_reducible apply State.kp_commitBit)
    | (with_reducible apply State.kp_clearRun)
    | (with_reducible apply State.Keeps.foldl)
    | (with_reducible exact State.Keeps.later (by assumption) _)
    | (with_reducible apply State.Keeps.foldl1)
    | (with_reducible constructor <;> dsimp only <;> first | refine State.Keeps.pending ?_ | refine State.Keeps.now ?_ | refine State.Keeps.fresh ?_ | refine State.Keeps.otp ?_ | refine State.Keeps.otpWf ?_ | refine State.Keeps.basin ?_ | refine State.Keeps.sram ?_))

theorem State.kp_egressAtSluice {r s : State} (h : r.Keeps s) : r.Keeps (State.egressAtSluice s) := by
  unfold State.egressAtSluice
  repeat' (first
    | with_reducible assumption
    | intro _
    | split
    | lift_lets
    | (with_reducible refine State.Keeps.of_fst (by assumption) ?_)
    | (with_reducible apply State.kp_leaveEgress)
    | (with_reducible apply State.Keeps.foldl)
    | (with_reducible exact State.Keeps.later (by assumption) _)
    | (with_reducible apply State.Keeps.foldl1)
    | (with_reducible constructor <;> dsimp only <;> first | refine State.Keeps.pending ?_ | refine State.Keeps.now ?_ | refine State.Keeps.fresh ?_ | refine State.Keeps.otp ?_ | refine State.Keeps.otpWf ?_ | refine State.Keeps.basin ?_ | refine State.Keeps.sram ?_))

theorem State.kp_calEndAborted {r s : State} (h : r.Keeps s) (x1 : CalRun) (x2 : Nat) : r.Keeps (State.calEndAborted s x1 x2) := by
  unfold State.calEndAborted
  repeat' (first
    | with_reducible assumption
    | (intro t; (have ht : r.Keeps t := ?_); clear_value t; (try (rotate_left; unfold t)))
    | intro _
    | split
    | lift_lets
    | (with_reducible refine State.Keeps.of_fst (by assumption) ?_)
    | (with_reducible apply State.kp_inc)
    | (with_reducible apply State.kp_put)
    | (with_reducible apply State.kp_raise)
    | (with_reducible apply State.kp_flag)
    | (with_reducible apply State.Keeps.foldl)
    | (with_reducible exact State.Keeps.later (by assumption) _)
    | (with_reducible apply State.Keeps.foldl1)
    | (with_reducible constructor <;> dsimp only <;> first | refine State.Keeps.pending ?_ | refine State.Keeps.now ?_ | refine State.Keeps.fresh ?_ | refine State.Keeps.otp ?_ | refine State.Keeps.otpWf ?_ | refine State.Keeps.basin ?_ | refine State.Keeps.sram ?_))

theorem State.kp_calJudge {r s : State} (h : r.Keeps s) : r.Keeps (s.calJudge).1 := by
  unfold State.calJudge
  dsimp only
  repeat' (first
    | with_reducible assumption
    | split
    | (with_reducible apply State.kp_calEndAborted) | (with_reducible apply State.kp_put)
    | (with_reducible constructor <;> dsimp only <;> first | refine State.Keeps.pending ?_ | refine State.Keeps.now ?_ | refine State.Keeps.fresh ?_ | refine State.Keeps.otp ?_ | refine State.Keeps.otpWf ?_ | refine State.Keeps.basin ?_ | refine State.Keeps.sram ?_))

theorem State.kp_calStart {r s : State} (h : r.Keeps s) : r.Keeps (State.calStart s) := by
  unfold State.calStart
  repeat' (first
    | with_reducible assumption
    | (intro t; (have ht : r.Keeps t := ?_); clear_value t; (try (rotate_left; unfold t)))
    | intro _
    | split
    | lift_lets
    | (with_reducible refine State.Keeps.of_fst (by assumption) ?_)
    | (with_reducible apply State.kp_put)
    | (with_reducible apply State.kp_putBit)
    | (with_reducible apply State.Keeps.foldl)
    | (with_reducible exact State.Keeps.later (by assumption) _)
    | (with_reducible apply State.Keeps.foldl1)
    | (with_reducible constructor <;> dsimp only <;> first | refine State.Keeps.pending ?_ | refine State.Keeps.now ?_ | refine State.Keeps.fresh ?_ | refine State.Keeps.otp ?_ | refine State.Keeps.otpWf ?_ | refine State.Keeps.basin ?_ | refine State.Keeps.sram ?_))

theorem State.kp_serviceClear {r s : State} (h : r.Keeps s) : r.Keeps (State.serviceClear s) := by
  unfold State.serviceClear
  repeat' (first
    | with_reducible assumption
    | intro _
    | split
    | lift_lets
    | (with_reducible refine State.Keeps.of_fst (by assumption) ?_)
    | (with_reducible apply State.kp_put))

theorem State.kp_setMaint {r s : State} (h : r.Keeps s) : r.Keeps (State.setMaint s) := by
  unfold State.setMaint
  repeat' (first
    | with_reducible assumption
    | intro _
    | split
    | lift_lets
    | (with_reducible refine State.Keeps.of_fst (by assumption) ?_)
    | (with_reducible apply State.kp_clearRun)
    | (with_reducible apply State.kp_put)
    | (with_reducible apply State.Keeps.foldl)
    | (with_reducible exact State.Keeps.later (by assumption) _)
    | (with_reducible apply State.Keeps.foldl1)
    | (with_reducible constructor <;> dsimp only <;> first | refine State.Keeps.pending ?_ | refine State.Keeps.now ?_ | refine State.Keeps.fresh ?_ | refine State.Keeps.otp ?_ | refine State.Keeps.otpWf ?_ | refine State.Keeps.basin ?_ | refine State.Keeps.sram ?_))

theorem State.kp_servicePress {r s : State} (h : r.Keeps s) (ms : Nat) : r.Keeps (s.servicePress ms) := by
  unfold State.servicePress
  split
  · exact h
  · split
    · split
      · exact State.kp_put (State.kp_put h _ _) _ _
      · exact h
    · extract_lets a t
      have ht : r.Keeps t := State.kp_put (State.kp_put (State.kp_put h _ _) _ _) _ _
      clear_value a t
      split
      · exact State.kp_warmReset ht _ _
      · exact State.kp_setMaint ht
      · exact ht

theorem State.kp_noteFlap {r s : State} (h : r.Keeps s) (x1 : Nat) : r.Keeps (State.noteFlap s x1).1 := by
  unfold State.noteFlap
  repeat' (first
    | with_reducible assumption
    | intro _
    | split
    | lift_lets
    | (with_reducible refine State.Keeps.of_fst (by assumption) ?_)
    | (with_reducible apply State.kp_setDiag))

theorem State.kp_setSuspects {r s : State} (h : r.Keeps s) (x1 : List Suspect) : r.Keeps (State.setSuspects s x1) := by
  unfold State.setSuspects
  repeat' (first
    | with_reducible assumption
    | intro _
    | split
    | lift_lets
    | (with_reducible refine State.Keeps.of_fst (by assumption) ?_)
    | (with_reducible apply State.kp_put)
    | (with_reducible apply State.kp_setDiag))

theorem State.kp_defect {r s : State} (h : r.Keeps s) (x1 : Suspect) (x2 : Nat) : r.Keeps (State.defect s x1 x2) := by
  unfold State.defect
  repeat' (first
    | with_reducible assumption
    | (intro t; (have ht : r.Keeps t := ?_); clear_value t; (try (rotate_left; unfold t)))
    | intro _
    | split
    | lift_lets
    | (with_reducible refine State.Keeps.of_fst (by assumption) ?_)
    | (with_reducible apply State.kp_setSuspects)
    | (with_reducible apply State.kp_setDiag)
    | (with_reducible apply State.kp_condition)
    | (with_reducible apply State.kp_flag)
    | (with_reducible apply State.kp_inc))

theorem State.kp_passRetest {r s : State} (h : r.Keeps s) (x1 : Suspect) : r.Keeps (State.passRetest s x1).1 := by
  unfold State.passRetest
  repeat' (first
    | with_reducible assumption
    | (intro t; (have ht : r.Keeps t := ?_); clear_value t; (try (rotate_left; unfold t)))
    | intro _
    | split
    | lift_lets
    | (with_reducible refine State.Keeps.of_fst (by assumption) ?_)
    | (with_reducible apply State.kp_noteFlap)
    | (with_reducible apply State.kp_defect)
    | (with_reducible apply State.kp_setSuspects)
    | (with_reducible apply State.kp_flag)
    | (with_reducible apply State.kp_inc))

theorem State.kp_noteSwept {r s : State} (h : r.Keeps s) (x1 : ReachId) (x2 : Nat) (x3 : List Nat) : r.Keeps (State.noteSwept s x1 x2 x3) := by
  unfold State.noteSwept
  repeat' (first
    | with_reducible assumption
    | intro _
    | split
    | lift_lets
    | (with_reducible refine State.Keeps.of_fst (by assumption) ?_)
    | (with_reducible apply State.kp_noteSweepDone)
    | (with_reducible apply State.kp_setDiag))

theorem State.kp_noteSuppressed {r s : State} (h : r.Keeps s) (x1 : ReachId) (x2 : Nat) : r.Keeps (State.noteSuppressed s x1 x2) := by
  unfold State.noteSuppressed
  repeat' (first
    | with_reducible assumption
    | intro _
    | split
    | lift_lets
    | (with_reducible refine State.Keeps.of_fst (by assumption) ?_)
    | (with_reducible apply State.kp_setDiag))

theorem State.kp_sendStream {r s : State} (h : r.Keeps s) (x1 : List Byte) (x2 : Bool) : r.Keeps (State.sendStream s x1 x2) := by
  unfold State.sendStream
  repeat' (first
    | with_reducible assumption
    | intro _
    | split
    | lift_lets
    | (with_reducible refine State.Keeps.of_fst (by assumption) ?_)
    | (with_reducible apply State.kp_put)
    | (with_reducible apply State.Keeps.foldl)
    | (with_reducible exact State.Keeps.later (by assumption) _)
    | (with_reducible apply State.Keeps.foldl1)
    | (with_reducible constructor <;> dsimp only <;> first | refine State.Keeps.pending ?_ | refine State.Keeps.now ?_ | refine State.Keeps.fresh ?_ | refine State.Keeps.otp ?_ | refine State.Keeps.otpWf ?_ | refine State.Keeps.basin ?_ | refine State.Keeps.sram ?_))

theorem State.kp_painterZero {r s : State} (h : r.Keeps s) : r.Keeps (State.painterZero s) := by
  unfold State.painterZero
  repeat' (first
    | with_reducible assumption
    | intro _
    | split
    | lift_lets
    | (with_reducible refine State.Keeps.of_fst (by assumption) ?_)
    | (with_reducible apply State.kp_sendStream)
    | (with_reducible apply State.Keeps.foldl)
    | (with_reducible exact State.Keeps.later (by assumption) _)
    | (with_reducible apply State.Keeps.foldl1)
    | (with_reducible constructor <;> dsimp only <;> first | refine State.Keeps.pending ?_ | refine State.Keeps.now ?_ | refine State.Keeps.fresh ?_ | refine State.Keeps.otp ?_ | refine State.Keeps.otpWf ?_ | refine State.Keeps.basin ?_ | refine State.Keeps.sram ?_))

theorem State.kp_painterEnd {r s : State} (h : r.Keeps s) : r.Keeps (State.painterEnd s) := by
  unfold State.painterEnd
  repeat' (first
    | with_reducible assumption
    | (intro t; (have ht : r.Keeps t := ?_); clear_value t; (try (rotate_left; unfold t)))
    | intro _
    | split
    | lift_lets
    | (with_reducible refine State.Keeps.of_fst (by assumption) ?_)
    | (with_reducible apply State.kp_flag)
    | (with_reducible apply State.kp_inc)
    | (with_reducible apply State.kp_put)
    | (with_reducible apply State.Keeps.foldl)
    | (with_reducible exact State.Keeps.later (by assumption) _)
    | (with_reducible apply State.Keeps.foldl1)
    | (with_reducible constructor <;> dsimp only <;> first | refine State.Keeps.pending ?_ | refine State.Keeps.now ?_ | refine State.Keeps.fresh ?_ | refine State.Keeps.otp ?_ | refine State.Keeps.otpWf ?_ | refine State.Keeps.basin ?_ | refine State.Keeps.sram ?_))

theorem State.kp_calSlots {r s : State} (h : r.Keeps s) : r.Keeps (State.calSlots s) := by
  unfold State.calSlots
  repeat' (first
    | with_reducible assumption
    | intro _
    | split
    | lift_lets
    | (with_reducible refine State.Keeps.of_fst (by assumption) ?_)
    | (with_reducible apply State.kp_calAbort))

theorem State.kp_verdicts {r s : State} (h : r.Keeps s) (x1 : ReachId) (x2 : List Suspect) (x3 : List Nat) : r.Keeps (State.verdicts s x1 x2 x3).1 := by
  unfold State.verdicts
  repeat' (first
    | with_reducible assumption
    | intro _
    | split
    | lift_lets
    | (with_reducible refine State.Keeps.of_fst (by assumption) ?_)
    | (with_reducible apply State.kp_defect)
    | (with_reducible apply State.kp_passRetest)
    | (with_reducible apply State.kp_raise)
    | (with_reducible apply State.Keeps.foldl)
    | (with_reducible exact State.Keeps.later (by assumption) _)
    | (with_reducible apply State.Keeps.foldl1))

theorem State.kp_checkAll {r s : State} (h : r.Keeps s) (x1 : State → ReachId → RowSlot → Prod State Bool) (h1 : ∀ (a0 : State) (a1 : ReachId) (a2 : RowSlot), r.Keeps a0 → r.Keeps (x1 a0 a1 a2).1) : r.Keeps (State.checkAll s x1) := by
  unfold State.checkAll
  repeat' (first
    | with_reducible assumption
    | intro _
    | split
    | lift_lets
    | (with_reducible refine State.Keeps.of_fst (by assumption) ?_)
    | (with_reducible apply State.kp_raise)
    | apply h1
    | (with_reducible apply State.Keeps.foldl)
    | (with_reducible exact State.Keeps.later (by assumption) _)
    | (with_reducible apply State.Keeps.foldl1))

theorem State.kp_suspect {r s : State} (h : r.Keeps s) (x1 : Nat) (x2 : Nat) (x3 : Bool) : r.Keeps (State.suspect s x1 x2 x3) := by
  unfold State.suspect
  repeat' (first
    | with_reducible assumption
    | intro _
    | split
    | lift_lets
    | (with_reducible refine State.Keeps.of_fst (by assumption) ?_)
    | (with_reducible apply State.kp_setSuspects))

theorem State.kp_rowEvent {r s : State} (h : r.Keeps s) (x1 : ReachId) (x2 : RowSlot) (x3 : Nat) : r.Keeps (State.rowEvent s x1 x2 x3) := by
  unfold State.rowEvent
  repeat' (first
    | with_reducible assumption
    | (intro t; (have ht : r.Keeps t := ?_); clear_value t; (try (rotate_left; unfold t)))
    | intro _
    | split
    | lift_lets
    | (with_reducible refine State.Keeps.of_fst (by assumption) ?_)
    | (with_reducible apply State.kp_setDiag)
    | (with_reducible apply State.kp_flag)
    | (with_reducible apply State.kp_inc)
    | (with_reducible apply State.kp_putBit)
    | (with_reducible apply State.kp_setSuspects)
    | (with_reducible apply State.kp_suspect)
    | (with_reducible apply State.kp_raise)
    | (with_reducible apply State.Keeps.foldl))

theorem State.kp_checkReach {r s : State} (h : r.Keeps s) (x1 : ReachId) (x2 : RowSlot) (x3 : Nat) (x4 : List Nat) : r.Keeps (State.checkReach s x1 x2 x3 x4).1 := by
  unfold State.checkReach
  repeat' (first
    | with_reducible assumption
    | intro _
    | split
    | lift_lets
    | (with_reducible refine State.Keeps.of_fst (by assumption) ?_)
    | (with_reducible apply State.kp_rowEvent)
    | (with_reducible apply State.kp_verdicts)
    | (with_reducible apply State.kp_suspect)
    | (with_reducible apply State.kp_setDiag)
    | (with_reducible apply State.Keeps.foldl))

theorem State.kp_shortCheck {r s : State} (h : r.Keeps s) (x1 : List SinkFlag) : r.Keeps (State.shortCheck s x1) := by
  unfold State.shortCheck
  repeat' (first
    | with_reducible assumption
    | intro _
    | split
    | lift_lets
    | (with_reducible refine State.Keeps.of_fst (by assumption) ?_)
    | (with_reducible apply State.kp_checkAll)
    | (with_reducible apply State.kp_checkReach))

theorem State.kp_reaim {r s : State} (h : r.Keeps s) : r.Keeps (State.reaim s) := by
  unfold State.reaim
  repeat' (first
    | with_reducible assumption
    | intro _
    | split
    | lift_lets
    | (with_reducible refine State.Keeps.of_fst (by assumption) ?_)
    | (with_reducible apply State.kp_aim))

theorem State.kp_takeTarget {r s : State} (h : r.Keeps s) (x1 : Nat) : r.Keeps (State.takeTarget s x1) := by
  unfold State.takeTarget
  repeat' (first
    | with_reducible assumption
    | (intro t; (have ht : r.Keeps t := ?_); clear_value t; (try (rotate_left; unfold t)))
    | intro _
    | split
    | lift_lets
    | (with_reducible refine State.Keeps.of_fst (by assumption) ?_)
    | (with_reducible apply State.kp_condition)
    | (with_reducible apply State.kp_setSync)
    | (with_reducible apply State.kp_reaim)
    | (with_reducible apply State.kp_put)
    | (with_reducible apply State.kp_judgePhase)
    | (with_reducible apply State.Keeps.foldl)
    | (with_reducible exact State.Keeps.later (by assumption) _)
    | (with_reducible apply State.Keeps.foldl1)
    | (with_reducible constructor <;> dsimp only <;> first | refine State.Keeps.pending ?_ | refine State.Keeps.now ?_ | refine State.Keeps.fresh ?_ | refine State.Keeps.otp ?_ | refine State.Keeps.otpWf ?_ | refine State.Keeps.basin ?_ | refine State.Keeps.sram ?_))

theorem State.kp_calTemperature {r s : State} (h : r.Keeps s) : r.Keeps (State.calTemperature s) := by
  unfold State.calTemperature
  repeat' (first
    | with_reducible assumption
    | intro _
    | split
    | lift_lets
    | (with_reducible refine State.Keeps.of_fst (by assumption) ?_)
    | (with_reducible apply State.kp_calQueue))

theorem State.kp_noteVled {r s : State} (h : r.Keeps s) (x1 : Nat) : r.Keeps (State.noteVled s x1) := by
  unfold State.noteVled
  repeat' (first
    | with_reducible assumption
    | intro _
    | split
    | lift_lets
    | (with_reducible refine State.Keeps.of_fst (by assumption) ?_)
    | (with_reducible apply State.kp_setDiag))

theorem State.kp_rowSlot {r s : State} (h : r.Keeps s) (x1 : Nat) (x2 : List SlotMeas) : r.Keeps (State.rowSlot s x1 x2) := by
  unfold State.rowSlot
  repeat' (first
    | with_reducible assumption
    | (intro t; (have ht : r.Keeps t := ?_); clear_value t; (try (rotate_left; unfold t)))
    | intro _
    | split
    | lift_lets
    | (with_reducible refine State.Keeps.of_fst (by assumption) ?_)
    | (with_reducible apply State.kp_noteVled)
    | (with_reducible apply State.kp_setDiag)
    | (with_reducible apply State.kp_calSlots)
    | (with_reducible apply State.kp_raise)
    | (with_reducible apply State.kp_noteSuppressed)
    | (with_reducible apply State.kp_measureSlot)
    | (with_reducible apply State.Keeps.foldl))

theorem State.kp_setTest {r s : State} (h : r.Keeps s) : r.Keeps (State.setTest s) := by
  unfold State.setTest
  repeat' (first
    | with_reducible assumption
    | intro _
    | split
    | lift_lets
    | (with_reducible refine State.Keeps.of_fst (by assumption) ?_)
    | (with_reducible apply State.kp_clearRun)
    | (with_reducible apply State.kp_put))

theorem State.kp_rowOvercurrent {r s : State} (h : r.Keeps s) (x1 : ReachId) : r.Keeps (State.rowOvercurrent s x1) := by
  unfold State.rowOvercurrent
  repeat' (first
    | with_reducible assumption
    | (intro t; (have ht : r.Keeps t := ?_); clear_value t; (try (rotate_left; unfold t)))
    | intro _
    | split
    | lift_lets
    | (with_reducible refine State.Keeps.of_fst (by assumption) ?_)
    | (with_reducible apply State.kp_setDiag)
    | (with_reducible apply State.kp_put)
    | (with_reducible apply State.kp_flag)
    | (with_reducible apply State.kp_raise)
    | (with_reducible apply State.kp_inc))

theorem State.kp_holdoverExpire {r s : State} (h : r.Keeps s) : r.Keeps (State.holdoverExpire s) := by
  unfold State.holdoverExpire
  repeat' (first
    | with_reducible assumption
    | intro _
    | split
    | lift_lets
    | (with_reducible refine State.Keeps.of_fst (by assumption) ?_)
    | (with_reducible apply State.kp_condition)
    | (with_reducible apply State.kp_setSync))

theorem State.kp_freeStart_at {r s : State} (h : r.Keeps s) (t : Nat) (x : Option Nat) :
    r.Keeps { s with now := max s.now t, seq := { s.seq with next := x } } :=
  ⟨h.pending, Nat.le_trans h.now (Nat.le_max_left ..), h.fresh, h.otp, h.otpWf, h.basin, h.sram⟩

theorem State.kp_freeStart {r s : State} (h : r.Keeps s) : r.Keeps s.freeStart := by
  unfold State.freeStart
  split
  · exact State.kp_setSync (State.kp_freeStart_at h _ _) _
  · exact h

theorem State.kp_holdOver {r s : State} (h : r.Keeps s) : r.Keeps (State.holdOver s) := by
  unfold State.holdOver
  repeat' (first
    | with_reducible assumption
    | intro _
    | split
    | lift_lets
    | (with_reducible refine State.Keeps.of_fst (by assumption) ?_)
    | (with_reducible apply State.kp_setSync)
    | (with_reducible apply State.Keeps.foldl)
    | (with_reducible exact State.Keeps.later (by assumption) _)
    | (with_reducible apply State.Keeps.foldl1)
    | (with_reducible constructor <;> dsimp only <;> first | refine State.Keeps.pending ?_ | refine State.Keeps.now ?_ | refine State.Keeps.fresh ?_ | refine State.Keeps.otp ?_ | refine State.Keeps.otpWf ?_ | refine State.Keeps.basin ?_ | refine State.Keeps.sram ?_))

theorem State.kp_openReach {r s : State} (h : r.Keeps s) (x1 : ReachId) (x2 : RowSlot) (x3 : List SinkFlag) : r.Keeps (State.openReach s x1 x2 x3).1 := by
  unfold State.openReach
  repeat' (first
    | with_reducible assumption
    | (intro t; (have ht : r.Keeps t := ?_); clear_value t; (try (rotate_left; unfold t)))
    | intro _
    | split
    | lift_lets
    | (with_reducible refine State.Keeps.of_fst (by assumption) ?_)
    | (with_reducible apply State.kp_checkReach)
    | (with_reducible apply State.kp_setDiag)
    | (with_reducible apply State.kp_noteSwept))

theorem State.kp_openCheck {r s : State} (h : r.Keeps s) (x1 : List SinkFlag) : r.Keeps (State.openCheck s x1) := by
  unfold State.openCheck
  repeat' (first
    | with_reducible assumption
    | intro _
    | split
    | lift_lets
    | (with_reducible refine State.Keeps.of_fst (by assumption) ?_)
    | (with_reducible apply State.kp_checkAll)
    | (with_reducible apply State.kp_openReach))

theorem State.kp_enterEgress {r s : State} (h : r.Keeps s) : r.Keeps (State.enterEgress s) := by
  unfold State.enterEgress
  repeat' (first
    | with_reducible assumption
    | (intro t; (have ht : r.Keeps t := ?_); clear_value t; (try (rotate_left; unfold t)))
    | intro _
    | split
    | lift_lets
    | (with_reducible refine State.Keeps.of_fst (by assumption) ?_)
    | (with_reducible apply State.kp_clearForces)
    | (with_reducible apply State.kp_put)
    | (with_reducible apply State.kp_landing)
    | (with_reducible apply State.kp_setRun)
    | (with_reducible apply State.kp_commitBit)
    | (with_reducible apply State.Keeps.foldl)
    | (with_reducible exact State.Keeps.later (by assumption) _)
    | (with_reducible apply State.Keeps.foldl1)
    | (with_reducible constructor <;> dsimp only <;> first | refine State.Keeps.pending ?_ | refine State.Keeps.now ?_ | refine State.Keeps.fresh ?_ | refine State.Keeps.otp ?_ | refine State.Keeps.otpWf ?_ | refine State.Keeps.basin ?_ | refine State.Keeps.sram ?_))

theorem State.kp_validEdge {r s : State} (h : r.Keeps s) (x1 : Nat) (x2 : Bool) : r.Keeps (State.validEdge s x1 x2) := by
  unfold State.validEdge
  repeat' (first
    | with_reducible assumption
    | (intro t; (have ht : r.Keeps t := ?_); clear_value t; (try (rotate_left; unfold t)))
    | intro _
    | split
    | lift_lets
    | (with_reducible refine State.Keeps.of_fst (by assumption) ?_)
    | (with_reducible apply State.kp_setSync)
    | (with_reducible apply State.kp_takeTarget)
    | (with_reducible apply State.Keeps.foldl)
    | (with_reducible exact State.Keeps.later (by assumption) _)
    | (with_reducible apply State.Keeps.foldl1)
    | (with_reducible constructor <;> dsimp only <;> first | refine State.Keeps.pending ?_ | refine State.Keeps.now ?_ | refine State.Keeps.fresh ?_ | refine State.Keeps.otp ?_ | refine State.Keeps.otpWf ?_ | refine State.Keeps.basin ?_ | refine State.Keeps.sram ?_))

theorem State.kp_edge {r s : State} (h : r.Keeps s) (at_ : Option Nat) : r.Keeps { s with seq := { s.seq with lastEdge := at_ } } :=
  ⟨h.pending, h.now, h.fresh, h.otp, h.otpWf, h.basin, h.sram⟩

theorem State.kp_frameSyncEdge {r s : State} (h : r.Keeps s) (at_ : Nat) (rising : Bool) : r.Keeps (s.frameSyncEdge at_ rising) := by
  unfold State.frameSyncEdge
  have ht := State.Keeps.later h at_
  revert ht
  generalize ({ s with now := max s.now at_ } : State) = t
  intro ht
  dsimp only
  split
  · exact ht
  · have hu := State.kp_edge ht (some t.now)
    revert hu
    generalize ({ t with seq := { t.seq with lastEdge := some t.now } } : State) = u
    intro hu
    split
    · exact hu
    · split
      · exact State.kp_raise (State.kp_inc hu _ _) _ _
      · exact State.kp_validEdge (State.kp_captureEdge (State.kp_put hu _ _)) _ _

theorem State.kp_edgeTimeout {r s : State} (h : r.Keeps s) : r.Keeps (State.edgeTimeout s) := by
  unfold State.edgeTimeout
  repeat' (first
    | with_reducible assumption
    | intro _
    | split
    | lift_lets
    | (with_reducible refine State.Keeps.of_fst (by assumption) ?_)
    | (with_reducible apply State.kp_holdOver)
    | (with_reducible apply State.Keeps.foldl)
    | (with_reducible exact State.Keeps.later (by assumption) _))

theorem State.kp_painterFault {r s : State} (h : r.Keeps s) : r.Keeps (State.painterFault s) := by
  unfold State.painterFault
  repeat' (first
    | with_reducible assumption
    | intro _
    | split
    | lift_lets
    | (with_reducible refine State.Keeps.of_fst (by assumption) ?_)
    | (with_reducible apply State.kp_raise)
    | (with_reducible apply State.kp_flag))

theorem State.kp_painterStream {r s : State} (h : r.Keeps s) : r.Keeps s.painterStream := by
  unfold State.painterStream
  extract_lets live
  clear_value live
  split
  · exact State.kp_painterFault h
  · dsimp only
    with_reducible apply State.kp_sendStream
    split
    · exact State.kp_painterFault (State.kp_flag h _)
    · exact h

theorem State.kp_painterStart {r s : State} (h : r.Keeps s) : r.Keeps (State.painterStart s) := by
  unfold State.painterStart
  repeat' (first
    | with_reducible assumption
    | intro _
    | split
    | lift_lets
    | (with_reducible refine State.Keeps.of_fst (by assumption) ?_)
    | (with_reducible apply State.kp_flag)
    | (with_reducible apply State.kp_inc)
    | (with_reducible apply State.kp_painterStream))

theorem State.kp_serviceStuck {r s : State} (h : r.Keeps s) : r.Keeps (State.serviceStuck s) := by
  unfold State.serviceStuck
  repeat' (first
    | with_reducible assumption
    | (intro t; (have ht : r.Keeps t := ?_); clear_value t; (try (rotate_left; unfold t)))
    | intro _
    | split
    | lift_lets
    | (with_reducible refine State.Keeps.of_fst (by assumption) ?_)
    | (with_reducible apply State.kp_flag)
    | (with_reducible apply State.kp_put))

end Sys2Proof.Machine
end

