-- ==== Sys2Proof/Laws/KeepsLink.lean ====
section
/-!
SUPPORT. State.Keeps of every function of the model: the link, packets, trust and flights.
-/
namespace Sys2Proof.Machine

theorem State.kp_writeTail {r s : State} (h : r.Keeps s) (x1 : Pair) (x2 : Nat) : r.Keeps (State.writeTail s x1 x2) := by
  unfold State.writeTail
  repeat' (first
    | with_reducible assumption
    | intro _
    | split
    | lift_lets
    | (with_reducible refine State.Keeps.of_fst (by assumption) ?_)
    | (with_reducible apply State.kp_put))

theorem State.kp_writeCplRead {r s : State} (h : r.Keeps s) (x1 : Pair) (x2 : Nat) : r.Keeps (State.writeCplRead s x1 x2) := by
  unfold State.writeCplRead
  repeat' (first
    | with_reducible assumption
    | intro _
    | split
    | lift_lets
    | (with_reducible refine State.Keeps.of_fst (by assumption) ?_)
    | (with_reducible apply State.kp_put))

theorem State.kp_writeTelemRead {r s : State} (h : r.Keeps s) (x1 : Nat) : r.Keeps (State.writeTelemRead s x1) := by
  unfold State.writeTelemRead
  repeat' (first
    | with_reducible assumption
    | intro _
    | split
    | lift_lets
    | (with_reducible refine State.Keeps.of_fst (by assumption) ?_)
    | (with_reducible apply State.kp_put))

theorem State.kp_clearRateLimit {r s : State} (h : r.Keeps s) (x1 : LinkId) : r.Keeps (State.clearRateLimit s x1) := by
  unfold State.clearRateLimit
  repeat' (first
    | with_reducible assumption
    | intro _
    | split
    | lift_lets
    | (with_reducible refine State.Keeps.of_fst (by assumption) ?_)
    | (with_reducible apply State.kp_setLink))

theorem State.kp_setLinkState {r s : State} (h : r.Keeps s) (x1 : LinkId) (x2 : Nat) : r.Keeps (State.setLinkState s x1 x2) := by
  unfold State.setLinkState
  repeat' (first
    | with_reducible assumption
    | (intro t; (have ht : r.Keeps t := ?_); clear_value t; (try (rotate_left; unfold t)))
    | intro _
    | split
    | lift_lets
    | (with_reducible refine State.Keeps.of_fst (by assumption) ?_)
    | (with_reducible apply State.kp_flag)
    | (with_reducible apply State.kp_put)
    | (with_reducible apply State.kp_setLive)
    | (with_reducible apply State.kp_raise))

theorem State.kp_toDetect {r s : State} (h : r.Keeps s) (x1 : LinkId) : r.Keeps (State.toDetect s x1) := by
  unfold State.toDetect
  repeat' (first
    | with_reducible assumption
    | intro _
    | split
    | lift_lets
    | (with_reducible refine State.Keeps.of_fst (by assumption) ?_)
    | (with_reducible apply State.kp_setLinkState)
    | (with_reducible apply State.kp_setLink))

theorem State.kp_linkSwitch {r s : State} (h : r.Keeps s) (x1 : LinkId) (x2 : Bool) : r.Keeps (State.linkSwitch s x1 x2) := by
  unfold State.linkSwitch
  repeat' (first
    | with_reducible assumption
    | intro _
    | split
    | lift_lets
    | (with_reducible refine State.Keeps.of_fst (by assumption) ?_)
    | (with_reducible apply State.kp_setLinkState)
    | (with_reducible apply State.kp_setLink)
    | (with_reducible apply State.kp_toDetect))

theorem State.kp_restartLanes {r s : State} (h : r.Keeps s) (x1 : LinkId) (x2 : LinkStage) (x3 : Bool) : r.Keeps (State.restartLanes s x1 x2 x3) := by
  unfold State.restartLanes
  repeat' (first
    | with_reducible assumption
    | intro _
    | split
    | lift_lets
    | (with_reducible refine State.Keeps.of_fst (by assumption) ?_)
    | (with_reducible apply State.kp_setLink))

theorem State.kp_toRecover {r s : State} (h : r.Keeps s) (x1 : LinkId) : r.Keeps (State.toRecover s x1) := by
  unfold State.toRecover
  repeat' (first
    | with_reducible assumption
    | (intro t; (have ht : r.Keeps t := ?_); clear_value t; (try (rotate_left; unfold t)))
    | intro _
    | split
    | lift_lets
    | (with_reducible refine State.Keeps.of_fst (by assumption) ?_)
    | (with_reducible apply State.kp_restartLanes)
    | (with_reducible apply State.kp_setLinkState)
    | (with_reducible apply State.kp_setLink))

theorem State.kp_chkEnable {r s : State} (h : r.Keeps s) (x1 : Nat) : r.Keeps (State.chkEnable s x1) := by
  unfold State.chkEnable
  repeat' (first
    | with_reducible assumption
    | (intro t; (have ht : r.Keeps t := ?_); clear_value t; (try (rotate_left; unfold t)))
    | intro _
    | split
    | lift_lets
    | (with_reducible refine State.Keeps.of_fst (by assumption) ?_)
    | (with_reducible apply State.kp_put)
    | (with_reducible apply State.kp_setSaf))

theorem State.kp_noteKeys {r s : State} (h : r.Keeps s) : r.Keeps (State.noteKeys s) := by
  unfold State.noteKeys
  repeat' (first
    | with_reducible assumption
    | (intro t; (have ht : r.Keeps t := ?_); clear_value t; (try (rotate_left; unfold t)))
    | intro _
    | split
    | lift_lets
    | (with_reducible refine State.Keeps.of_fst (by assumption) ?_)
    | (with_reducible apply State.kp_put)
    | (with_reducible apply State.kp_flag)
    | (with_reducible apply State.kp_condition))

theorem State.kp_rebuildKeys {r s : State} (h : r.Keeps s) : r.Keeps (State.rebuildKeys s) := by
  unfold State.rebuildKeys
  repeat' (first
    | with_reducible assumption
    | intro _
    | split
    | lift_lets
    | (with_reducible refine State.Keeps.of_fst (by assumption) ?_)
    | (with_reducible apply State.kp_noteKeys)
    | (with_reducible apply State.Keeps.foldl)
    | (with_reducible exact State.Keeps.later (by assumption) _)
    | (with_reducible apply State.Keeps.foldl1)
    | (with_reducible constructor <;> dsimp only <;> first | refine State.Keeps.pending ?_ | refine State.Keeps.now ?_ | refine State.Keeps.fresh ?_ | refine State.Keeps.otp ?_ | refine State.Keeps.otpWf ?_ | refine State.Keeps.basin ?_ | refine State.Keeps.sram ?_))

theorem State.kp_chkFail {r s : State} (h : r.Keeps s) (x1 : Nat) : r.Keeps (State.chkFail s x1) := by
  unfold State.chkFail
  repeat' (first
    | with_reducible assumption
    | intro _
    | split
    | lift_lets
    | (with_reducible refine State.Keeps.of_fst (by assumption) ?_)
    | (with_reducible apply State.kp_raise)
    | (with_reducible apply State.kp_flag))

theorem State.kp_chkAlive {r s : State} (h : r.Keeps s) (x1 : Nat) (x2 : List Byte) : r.Keeps (State.chkAlive s x1 x2) := by
  unfold State.chkAlive
  repeat' (first
    | with_reducible assumption
    | (intro t; (have ht : r.Keeps t := ?_); clear_value t; (try (rotate_left; unfold t)))
    | intro _
    | split
    | lift_lets
    | (with_reducible refine State.Keeps.of_fst (by assumption) ?_)
    | (with_reducible apply State.kp_chkFail)
    | (with_reducible apply State.kp_put))

theorem State.kp_chkRecord {r s : State} (h : r.Keeps s) (x1 : Nat) (x2 : List Byte) (x3 : Option Nat) : r.Keeps (State.chkRecord s x1 x2 x3) := by
  unfold State.chkRecord
  repeat' (first
    | with_reducible assumption
    | (intro t; (have ht : r.Keeps t := ?_); clear_value t; (try (rotate_left; unfold t)))
    | intro _
    | split
    | lift_lets
    | (with_reducible refine State.Keeps.of_fst (by assumption) ?_)
    | (with_reducible apply State.kp_put)
    | (with_reducible apply State.kp_inc)
    | (with_reducible apply State.kp_chkFail)
    | (with_reducible apply State.kp_chkAlive))

theorem State.kp_chkSnoop {r s : State} (h : r.Keeps s) (x1 : Nat) (x2 : Nat) (x3 : List Byte) : r.Keeps (State.chkSnoop s x1 x2 x3) := by
  unfold State.chkSnoop
  repeat' (first
    | with_reducible assumption
    | intro _
    | split
    | lift_lets
    | (with_reducible refine State.Keeps.of_fst (by assumption) ?_)
    | (with_reducible apply State.kp_chkRecord)
    | (with_reducible apply State.Keeps.foldl))

theorem State.kp_slackLane {r s : State} (h : r.Keeps s) (x1 : LinkId) (x2 : SlackLane) : r.Keeps (State.slackLane s x1 x2) := by
  unfold State.slackLane
  repeat' (first
    | with_reducible assumption
    | (intro t; (have ht : r.Keeps t := ?_); clear_value t; (try (rotate_left; unfold t)))
    | intro _
    | split
    | lift_lets
    | (with_reducible refine State.Keeps.of_fst (by assumption) ?_)
    | (with_reducible apply State.kp_inc)
    | (with_reducible apply State.kp_setLink))

theorem State.kp_fenceLane {r s : State} (h : r.Keeps s) (x1 : LinkId) (x2 : Fin 4) (x3 : Bool) : r.Keeps (State.fenceLane s x1 x2 x3) := by
  unfold State.fenceLane
  repeat' (first
    | with_reducible assumption
    | (intro t; (have ht : r.Keeps t := ?_); clear_value t; (try (rotate_left; unfold t)))
    | intro _
    | split
    | lift_lets
    | (with_reducible refine State.Keeps.of_fst (by assumption) ?_)
    | (with_reducible apply State.kp_flag)
    | (with_reducible apply State.kp_setLink)
    | (with_reducible apply State.kp_putBit)
    | (with_reducible apply State.kp_put)
    | (with_reducible apply State.kp_condition))

theorem State.kp_fenceOutside {r s : State} (h : r.Keeps s) (x1 : LinkId) (x2 : Nat) : r.Keeps (State.fenceOutside s x1 x2) := by
  unfold State.fenceOutside
  repeat' (first
    | with_reducible assumption
    | intro _
    | split
    | lift_lets
    | (with_reducible refine State.Keeps.of_fst (by assumption) ?_)
    | (with_reducible apply State.kp_fenceLane)
    | (with_reducible apply State.Keeps.foldl))

theorem State.kp_restartSlacks {r s : State} (h : r.Keeps s) (x1 : LinkId) (x2 : Fin 4) : r.Keeps (State.restartSlacks s x1 x2) := by
  unfold State.restartSlacks
  repeat' (first
    | with_reducible assumption
    | intro _
    | split
    | lift_lets
    | (with_reducible refine State.Keeps.of_fst (by assumption) ?_)
    | (with_reducible apply State.kp_setLink))

theorem State.kp_loseLane {r s : State} (h : r.Keeps s) (x1 : LinkId) (x2 : Fin 4) : r.Keeps (State.loseLane s x1 x2) := by
  unfold State.loseLane
  repeat' (first
    | with_reducible assumption
    | (intro t; (have ht : r.Keeps t := ?_); clear_value t; (try (rotate_left; unfold t)))
    | intro _
    | split
    | lift_lets
    | (with_reducible refine State.Keeps.of_fst (by assumption) ?_)
    | (with_reducible apply State.kp_restartSlacks)
    | (with_reducible apply State.kp_put)
    | (with_reducible apply State.kp_setLink)
    | (with_reducible apply State.kp_fenceLane)
    | (with_reducible apply State.kp_toRecover)
    | (with_reducible apply State.kp_setLinkState)
    | (with_reducible apply State.kp_fenceOutside))

theorem State.kp_slackSet {r s : State} (h : r.Keeps s) (x1 : LinkId) (x2 : List SlackLane) : r.Keeps (State.slackSet s x1 x2) := by
  unfold State.slackSet
  repeat' (first
    | with_reducible assumption
    | (intro t; (have ht : r.Keeps t := ?_); clear_value t; (try (rotate_left; unfold t)))
    | intro _
    | split
    | lift_lets
    | (with_reducible refine State.Keeps.of_fst (by assumption) ?_)
    | (with_reducible apply State.kp_slackLane)
    | (with_reducible apply State.kp_fenceLane)
    | (with_reducible apply State.kp_put)
    | (with_reducible apply State.kp_fenceOutside)
    | (with_reducible apply State.kp_setLink)
    | (with_reducible apply State.kp_setLinkState)
    | (with_reducible apply State.kp_loseLane)
    | (with_reducible apply State.Keeps.foldl))

theorem State.kp_raises {r s : State} (h : r.Keeps s) (x1 : List Nat) : r.Keeps (State.raises s x1) := by
  unfold State.raises
  repeat' (first
    | with_reducible assumption
    | intro _
    | split
    | lift_lets
    | (with_reducible refine State.Keeps.of_fst (by assumption) ?_)
    | (with_reducible apply State.kp_raise)
    | (with_reducible apply State.Keeps.foldl))

theorem State.kp_fails {r s : State} (h : r.Keeps s) (x1 : Pair) (x2 : Nat) (x3 : Nat) (x4 : List Nat) : r.Keeps (State.fails s x1 x2 x3 x4) := by
  unfold State.fails
  repeat' (first
    | with_reducible assumption
    | intro _
    | split
    | lift_lets
    | (with_reducible refine State.Keeps.of_fst (by assumption) ?_)
    | (with_reducible apply State.kp_raises)
    | (with_reducible apply State.kp_complete))

theorem State.kp_refused {r s : State} (h : r.Keeps s) (x1 : Pair) (x2 : Nat) : r.Keeps (State.refused s x1 x2) := by
  unfold State.refused
  repeat' (first
    | with_reducible assumption
    | intro _
    | split
    | lift_lets
    | (with_reducible refine State.Keeps.of_fst (by assumption) ?_)
    | (with_reducible apply State.kp_fails))

theorem State.kp_serve {r s : State} (h : r.Keeps s) (x1 : Pair) (x2 : Nat) (x3 : Nat) (x4 : State → State) (h4 : ∀ (a0 : State), r.Keeps a0 → r.Keeps (x4 a0)) : r.Keeps (State.serve s x1 x2 x3 x4) := by
  unfold State.serve
  repeat' (first
    | with_reducible assumption
    | intro _
    | split
    | lift_lets
    | (with_reducible refine State.Keeps.of_fst (by assumption) ?_)
    | (with_reducible apply State.kp_status)
    | (with_reducible apply State.kp_refused)
    | apply h4)

theorem State.kp_clearFailed {r s : State} (h : r.Keeps s) : r.Keeps (State.clearFailed s) := by
  unfold State.clearFailed
  repeat' (first
    | with_reducible assumption
    | intro _
    | split
    | lift_lets
    | (with_reducible refine State.Keeps.of_fst (by assumption) ?_)
    | (with_reducible apply State.Keeps.foldl)
    | (with_reducible exact State.Keeps.later (by assumption) _)
    | (with_reducible apply State.Keeps.foldl1)
    | (with_reducible constructor <;> dsimp only <;> first | refine State.Keeps.pending ?_ | refine State.Keeps.now ?_ | refine State.Keeps.fresh ?_ | refine State.Keeps.otp ?_ | refine State.Keeps.otpWf ?_ | refine State.Keeps.basin ?_ | refine State.Keeps.sram ?_))

theorem State.kp_copyBerth {r s : State} (h : r.Keeps s) (x1 : Fin 64) (x2 : State → Blob → State) (h2 : ∀ (a0 : State) (a1 : Blob), r.Keeps a0 → r.Keeps (x2 a0 a1)) (x3 : State → State) (h3 : ∀ (a0 : State), r.Keeps a0 → r.Keeps (x3 a0)) : r.Keeps (State.copyBerth s x1 x2 x3) := by
  unfold State.copyBerth
  repeat' (first
    | with_reducible assumption
    | intro _
    | split
    | lift_lets
    | (with_reducible refine State.Keeps.of_fst (by assumption) ?_)
    | (with_reducible apply State.kp_clearFailed)
    | apply h2
    | apply h3)

theorem State.kp_output {r s : State} (h : r.Keeps s) (x1 : Pair) (x2 : Nat) (x3 : List Byte) : r.Keeps (State.output s x1 x2 x3) := by
  unfold State.output
  repeat' (first
    | with_reducible assumption
    | intro _
    | split
    | lift_lets
    | (with_reducible refine State.Keeps.of_fst (by assumption) ?_)
    | (with_reducible apply State.kp_status)
    | (with_reducible apply State.kp_complete)
    | (with_reducible apply State.kp_basWrite))

theorem State.kp_withInput {r s : State} (h : r.Keeps s) (x1 : Pair) (x2 : Nat) (x3 : State → List Byte → State) (h3 : ∀ (a0 : State) (a1 : List Byte), r.Keeps a0 → r.Keeps (x3 a0 a1)) : r.Keeps (State.withInput s x1 x2 x3) := by
  unfold State.withInput
  repeat' (first
    | with_reducible assumption
    | intro _
    | split
    | lift_lets
    | (with_reducible refine State.Keeps.of_fst (by assumption) ?_)
    | (with_reducible apply State.kp_refused)
    | apply h3)

theorem State.kp_meshScan {r s : State} (h : r.Keeps s) (x1 : Fin 3) : r.Keeps (State.meshScan s x1) := by
  unfold State.meshScan
  repeat' (first
    | with_reducible assumption
    | (intro t; (have ht : r.Keeps t := ?_); clear_value t; (try (rotate_left; unfold t)))
    | intro _
    | split
    | lift_lets
    | (with_reducible refine State.Keeps.of_fst (by assumption) ?_)
    | (with_reducible apply State.kp_put))

theorem State.kp_liveChanged {r s : State} (h : r.Keeps s) (x1 : Nat) : r.Keeps (State.liveChanged s x1) := by
  unfold State.liveChanged
  repeat' (first
    | with_reducible assumption
    | intro _
    | split
    | lift_lets
    | (with_reducible refine State.Keeps.of_fst (by assumption) ?_)
    | (with_reducible apply State.Keeps.foldl)
    | (with_reducible exact State.Keeps.later (by assumption) _)
    | (with_reducible apply State.Keeps.foldl1)
    | (with_reducible constructor <;> dsimp only <;> first | refine State.Keeps.pending ?_ | refine State.Keeps.now ?_ | refine State.Keeps.fresh ?_ | refine State.Keeps.otp ?_ | refine State.Keeps.otpWf ?_ | refine State.Keeps.basin ?_ | refine State.Keeps.sram ?_))

theorem State.kp_noteLayer {r s : State} (h : r.Keeps s) (x1 : Nat) : r.Keeps (State.noteLayer s x1) := by
  unfold State.noteLayer
  repeat' (first
    | with_reducible assumption
    | (intro t; (have ht : r.Keeps t := ?_); clear_value t; (try (rotate_left; unfold t)))
    | intro _
    | split
    | lift_lets
    | (with_reducible refine State.Keeps.of_fst (by assumption) ?_)
    | (with_reducible apply State.kp_put)
    | (with_reducible apply State.Keeps.foldl))

theorem State.kp_noteLayers {r s : State} (h : r.Keeps s) : r.Keeps (State.noteLayers s) := by
  unfold State.noteLayers
  repeat' (first
    | with_reducible assumption
    | intro _
    | split
    | lift_lets
    | (with_reducible refine State.Keeps.of_fst (by assumption) ?_)
    | (with_reducible apply State.kp_noteLayer)
    | (with_reducible apply State.Keeps.foldl))

theorem State.kp_stageSet {r s : State} (h : r.Keeps s) (x1 : List Nat) (x2 : Option Nat) (x3 : Nat) : r.Keeps (State.stageSet s x1 x2 x3).1 := by
  unfold State.stageSet
  repeat' (first
    | with_reducible assumption
    | intro _
    | split
    | lift_lets
    | (with_reducible refine State.Keeps.of_fst (by assumption) ?_)
    | (with_reducible apply State.kp_basFill))

theorem State.kp_stage {r s : State} (h : r.Keeps s) (x1 : Nat) (x2 : List (Prod Nat Ecc)) : r.Keeps (State.stage s x1 x2) := by
  unfold State.stage
  repeat' (first
    | with_reducible assumption
    | (intro t; (have ht : r.Keeps t := ?_); clear_value t; (try (rotate_left; unfold t)))
    | intro _
    | split
    | lift_lets
    | (with_reducible refine State.Keeps.of_fst (by assumption) ?_)
    | (with_reducible apply State.kp_eccOutcome)
    | (with_reducible apply State.kp_stageSet)
    | (with_reducible apply State.kp_put)
    | (with_reducible apply State.kp_flag)
    | (with_reducible apply State.kp_raise)
    | (with_reducible apply State.Keeps.foldl)
    | (with_reducible exact State.Keeps.later (by assumption) _)
    | (with_reducible apply State.Keeps.foldl1)
    | (with_reducible constructor <;> dsimp only <;> first | refine State.Keeps.pending ?_ | refine State.Keeps.now ?_ | refine State.Keeps.fresh ?_ | refine State.Keeps.otp ?_ | refine State.Keeps.otpWf ?_ | refine State.Keeps.basin ?_ | refine State.Keeps.sram ?_))

theorem State.kp_chkStart {r s : State} (h : r.Keeps s) (x1 : List Nat) : r.Keeps (State.chkStart s x1) := by
  unfold State.chkStart
  repeat' (first
    | with_reducible assumption
    | intro _
    | split
    | lift_lets
    | (with_reducible refine State.Keeps.of_fst (by assumption) ?_)
    | (with_reducible apply State.kp_setSaf))

theorem State.kp_chkRequest {r s : State} (h : r.Keeps s) (x1 : ReachId) : r.Keeps (State.chkRequest s x1) := by
  unfold State.chkRequest
  repeat' (first
    | with_reducible assumption
    | intro _
    | split
    | lift_lets
    | (with_reducible refine State.Keeps.of_fst (by assumption) ?_)
    | (with_reducible apply State.kp_chkRecord)
    | (with_reducible apply State.kp_draw)
    | (with_reducible apply State.Keeps.foldl))

theorem State.kp_chkSluice {r s : State} (h : r.Keeps s) : r.Keeps (State.chkSluice s) := by
  unfold State.chkSluice
  repeat' (first
    | with_reducible assumption
    | intro _
    | split
    | lift_lets
    | (with_reducible refine State.Keeps.of_fst (by assumption) ?_)
    | (with_reducible apply State.kp_chkStart)
    | (with_reducible apply State.kp_chkRequest)
    | (with_reducible apply State.Keeps.foldl))

theorem State.kp_unfenceInside {r s : State} (h : r.Keeps s) (x1 : LinkId) (x2 : Nat) : r.Keeps (State.unfenceInside s x1 x2) := by
  unfold State.unfenceInside
  repeat' (first
    | with_reducible assumption
    | intro _
    | split
    | lift_lets
    | (with_reducible refine State.Keeps.of_fst (by assumption) ?_)
    | (with_reducible apply State.kp_fenceLane)
    | (with_reducible apply State.Keeps.foldl))

theorem State.kp_detectPoll {r s : State} (h : r.Keeps s) (x1 : LinkId) (x2 : Nat) : r.Keeps (State.detectPoll s x1 x2) := by
  unfold State.detectPoll
  repeat' (first
    | with_reducible assumption
    | (intro t; (have ht : r.Keeps t := ?_); clear_value t; (try (rotate_left; unfold t)))
    | intro _
    | split
    | lift_lets
    | (with_reducible refine State.Keeps.of_fst (by assumption) ?_)
    | (with_reducible apply State.kp_setLink)
    | (with_reducible apply State.kp_put)
    | (with_reducible apply State.kp_unfenceInside)
    | (with_reducible apply State.kp_setLinkState)
    | (with_reducible apply State.kp_restartLanes))

theorem State.kp_berthOutput {r s : State} (h : r.Keeps s) (x1 : Fin 64) (x2 : Blob) : r.Keeps (State.berthOutput s x1 x2) := by
  unfold State.berthOutput
  repeat' (first
    | with_reducible assumption
    | (intro t; (have ht : r.Keeps t := ?_); clear_value t; (try (rotate_left; unfold t)))
    | intro _
    | split
    | lift_lets
    | (with_reducible refine State.Keeps.of_fst (by assumption) ?_)
    | (with_reducible apply State.kp_setBerth)
    | (with_reducible apply State.kp_basFill))

theorem State.kp_resendAll {r s : State} (h : r.Keeps s) (x1 : LinkId) : r.Keeps (State.resendAll s x1) := by
  unfold State.resendAll
  repeat' (first
    | with_reducible assumption
    | (intro t; (have ht : r.Keeps t := ?_); clear_value t; (try (rotate_left; unfold t)))
    | intro _
    | split
    | lift_lets
    | (with_reducible refine State.Keeps.of_fst (by assumption) ?_)
    | (with_reducible apply State.kp_inc)
    | (with_reducible apply State.kp_setLink))

theorem State.kp_replayFails {r s : State} (h : r.Keeps s) (x1 : LinkId) : r.Keeps (State.replayFails s x1) := by
  unfold State.replayFails
  repeat' (first
    | with_reducible assumption
    | intro _
    | split
    | lift_lets
    | (with_reducible refine State.Keeps.of_fst (by assumption) ?_)
    | (with_reducible apply State.kp_toRecover)
    | (with_reducible apply State.kp_flag)
    | (with_reducible apply State.kp_raise))

theorem State.kp_replay {r s : State} (h : r.Keeps s) (x1 : LinkId) : r.Keeps (State.replay s x1) := by
  unfold State.replay
  repeat' (first
    | with_reducible assumption
    | intro _
    | split
    | lift_lets
    | (with_reducible refine State.Keeps.of_fst (by assumption) ?_)
    | (with_reducible apply State.kp_replayFails)
    | (with_reducible apply State.kp_resendAll))

theorem State.kp_acknowledge {r s : State} (h : r.Keeps s) (x1 : LinkId) : r.Keeps (State.acknowledge s x1) := by
  unfold State.acknowledge
  repeat' (first
    | with_reducible assumption
    | intro _
    | split
    | lift_lets
    | (with_reducible refine State.Keeps.of_fst (by assumption) ?_)
    | (with_reducible apply State.kp_setLink))

theorem State.kp_sendNak {r s : State} (h : r.Keeps s) (x1 : LinkId) : r.Keeps (State.sendNak s x1) := by
  unfold State.sendNak
  repeat' (first
    | with_reducible assumption
    | (intro t; (have ht : r.Keeps t := ?_); clear_value t; (try (rotate_left; unfold t)))
    | intro _
    | split
    | lift_lets
    | (with_reducible refine State.Keeps.of_fst (by assumption) ?_)
    | (with_reducible apply State.kp_inc)
    | (with_reducible apply State.kp_acknowledge)
    | (with_reducible apply State.kp_setLink))

theorem State.kp_discardArrival {r s : State} (h : r.Keeps s) (x1 : LinkId) (x2 : Nat) (x3 : Bool) : r.Keeps (State.discardArrival s x1 x2 x3) := by
  unfold State.discardArrival
  repeat' (first
    | with_reducible assumption
    | (intro t; (have ht : r.Keeps t := ?_); clear_value t; (try (rotate_left; unfold t)))
    | intro _
    | split
    | lift_lets
    | (with_reducible refine State.Keeps.of_fst (by assumption) ?_)
    | (with_reducible apply State.kp_sendNak)
    | (with_reducible apply State.kp_raise)
    | (with_reducible apply State.kp_replayFails))

theorem State.kp_authFails {r s : State} (h : r.Keeps s) (x1 : LinkId) : r.Keeps (State.authFails s x1) := by
  unfold State.authFails
  repeat' (first
    | with_reducible assumption
    | (intro t; (have ht : r.Keeps t := ?_); clear_value t; (try (rotate_left; unfold t)))
    | intro _
    | split
    | lift_lets
    | (with_reducible refine State.Keeps.of_fst (by assumption) ?_)
    | (with_reducible apply State.kp_discardArrival)
    | (with_reducible apply State.kp_setLink)
    | (with_reducible apply State.kp_endSession))

theorem State.kp_landPacket {r s : State} (h : r.Keeps s) (x1 : LinkId) (x2 : RxPacket) (x3 : Bool) : r.Keeps (State.landPacket s x1 x2 x3) := by
  unfold State.landPacket
  repeat' (first
    | with_reducible assumption
    | (intro t; (have ht : r.Keeps t := ?_); clear_value t; (try (rotate_left; unfold t)))
    | intro _
    | split
    | lift_lets
    | (with_reducible refine State.Keeps.of_fst (by assumption) ?_)
    | (with_reducible apply State.kp_put)
    | (with_reducible apply State.kp_inc)
    | (with_reducible apply State.kp_setLink)
    | (with_reducible apply State.kp_acknowledge))

theorem State.kp_receive {r s : State} (h : r.Keeps s) (x1 : LinkId) (x2 : RxPacket) (x3 : Nat) (x4 : Nat) (x5 : Nat) (x6 : Bool) (x7 : Bool) (x8 : State → List Byte → State) (h8 : ∀ (a0 : State) (a1 : List Byte), r.Keeps a0 → r.Keeps (x8 a0 a1)) : r.Keeps (State.receive s x1 x2 x3 x4 x5 x6 x7 x8) := by
  unfold State.receive
  repeat' (first
    | with_reducible assumption
    | intro _
    | split
    | lift_lets
    | (with_reducible refine State.Keeps.of_fst (by assumption) ?_)
    | (with_reducible apply State.kp_discardArrival)
    | (with_reducible apply State.kp_acknowledge)
    | (with_reducible apply State.kp_authFails)
    | (with_reducible apply State.kp_landPacket)
    | apply h8)

theorem State.kp_libCopied {r s : State} (h : r.Keeps s) : r.Keeps (State.libCopied s) := by
  unfold State.libCopied
  repeat' (first
    | with_reducible assumption
    | (intro t; (have ht : r.Keeps t := ?_); clear_value t; (try (rotate_left; unfold t)))
    | intro _
    | split
    | lift_lets
    | (with_reducible refine State.Keeps.of_fst (by assumption) ?_)
    | (with_reducible apply State.kp_put)
    | (with_reducible apply State.kp_draw))

theorem State.kp_hostFinish {r s : State} (h : r.Keeps s) (x1 : List Byte) : r.Keeps (State.hostFinish s x1).1 := by
  unfold State.hostFinish
  repeat' (first
    | with_reducible assumption
    | (intro t; (have ht : r.Keeps t := ?_); clear_value t; (try (rotate_left; unfold t)))
    | intro _
    | split
    | lift_lets
    | (with_reducible refine State.Keeps.of_fst (by assumption) ?_)
    | (with_reducible apply State.kp_endHost)
    | (with_reducible apply State.kp_flag)
    | (with_reducible apply State.kp_put)
    | (with_reducible apply State.Keeps.foldl)
    | (with_reducible exact State.Keeps.later (by assumption) _)
    | (with_reducible apply State.Keeps.foldl1)
    | (with_reducible constructor <;> dsimp only <;> first | refine State.Keeps.pending ?_ | refine State.Keeps.now ?_ | refine State.Keeps.fresh ?_ | refine State.Keeps.otp ?_ | refine State.Keeps.otpWf ?_ | refine State.Keeps.basin ?_ | refine State.Keeps.sram ?_))

theorem State.kp_flightFails {r s : State} (h : r.Keeps s) (x1 : Blob) (x2 : Nat) : r.Keeps (State.flightFails s x1 x2) := by
  unfold State.flightFails
  repeat' (first
    | with_reducible assumption
    | (intro t; (have ht : r.Keeps t := ?_); clear_value t; (try (rotate_left; unfold t)))
    | intro _
    | split
    | lift_lets
    | (with_reducible refine State.Keeps.of_fst (by assumption) ?_)
    | (with_reducible apply State.kp_raise))

theorem State.kp_clearChallenge {r s : State} (h : r.Keeps s) : r.Keeps (State.clearChallenge s) := by
  unfold State.clearChallenge
  repeat' (first
    | with_reducible assumption
    | intro _
    | split
    | lift_lets
    | (with_reducible refine State.Keeps.of_fst (by assumption) ?_)
    | (with_reducible apply State.Keeps.foldl)
    | (with_reducible exact State.Keeps.later (by assumption) _)
    | (with_reducible apply State.Keeps.foldl1)
    | (with_reducible constructor <;> dsimp only <;> first | refine State.Keeps.pending ?_ | refine State.Keeps.now ?_ | refine State.Keeps.fresh ?_ | refine State.Keeps.otp ?_ | refine State.Keeps.otpWf ?_ | refine State.Keeps.basin ?_ | refine State.Keeps.sram ?_))

theorem State.kp_chkDrive {r s : State} (h : r.Keeps s) (x1 : ReachId) : r.Keeps (State.chkDrive s x1) := by
  unfold State.chkDrive
  repeat' (first
    | with_reducible assumption
    | intro _
    | split
    | lift_lets
    | (with_reducible refine State.Keeps.of_fst (by assumption) ?_)
    | (with_reducible apply State.kp_chkRecord)
    | (with_reducible apply State.Keeps.foldl))

theorem State.kp_otpProgram {r s : State} (h : r.Keeps s) (bits : List Nat) (run : OtpRun) : r.Keeps (s.otpProgram bits run).1 := by
  unfold State.otpProgram
  extract_lets take src t
  have ht : r.Keeps t := by
    refine ⟨h.pending, h.now, h.fresh, fun a => ?_, fun w => otpSets_wf _ _ (h.otpWf w), h.basin, h.sram⟩
    have h1 := h.otp a
    have h2 := otpSets_keep take s.sec.otp a
    show r.sec.otp.byte a &&& (take.foldl otpSet s.sec.otp).byte a = r.sec.otp.byte a
    rw [← h1, BitVec.and_assoc, h2, h1]
  clear_value t
  split
  · exact ht
  · split
    · exact ht
    · exact ht

theorem State.kp_random {r s : State} (h : r.Keeps s) (x1 : Nat) : r.Keeps (State.random s x1).1 := by
  unfold State.random
  repeat' (first
    | with_reducible assumption
    | intro _
    | split
    | lift_lets
    | (with_reducible refine State.Keeps.of_fst (by assumption) ?_)
    | (with_reducible apply State.kp_draw))

theorem State.kp_startCommand {r s : State} (h : r.Keeps s) (x1 : Pair) : r.Keeps (State.startCommand s x1) := by
  unfold State.startCommand
  repeat' (first
    | with_reducible assumption
    | (intro t; (have ht : r.Keeps t := ?_); clear_value t; (try (rotate_left; unfold t)))
    | intro _
    | split
    | lift_lets
    | (with_reducible refine State.Keeps.of_fst (by assumption) ?_)
    | (with_reducible apply State.kp_put)
    | (with_reducible apply State.kp_clearFailed)
    | (with_reducible apply State.kp_status)
    | (with_reducible apply State.kp_refused))

theorem State.kp_newChallenge {r s : State} (h : r.Keeps s) : r.Keeps (State.newChallenge s).1 := by
  unfold State.newChallenge
  repeat' (first
    | with_reducible assumption
    | intro _
    | split
    | lift_lets
    | (with_reducible refine State.Keeps.of_fst (by assumption) ?_)
    | (with_reducible apply State.kp_random)
    | (with_reducible apply State.Keeps.foldl)
    | (with_reducible exact State.Keeps.later (by assumption) _)
    | (with_reducible apply State.Keeps.foldl1)
    | (with_reducible constructor <;> dsimp only <;> first | refine State.Keeps.pending ?_ | refine State.Keeps.now ?_ | refine State.Keeps.fresh ?_ | refine State.Keeps.otp ?_ | refine State.Keeps.otpWf ?_ | refine State.Keeps.basin ?_ | refine State.Keeps.sram ?_))

theorem State.kp_restartHold {r s : State} (h : r.Keeps s) (x1 : LinkId) (x2 : Nat) (x3 : Nat) : r.Keeps (State.restartHold s x1 x2 x3) := by
  unfold State.restartHold
  repeat' (first
    | with_reducible assumption
    | intro _
    | split
    | lift_lets
    | (with_reducible refine State.Keeps.of_fst (by assumption) ?_)
    | (with_reducible apply State.kp_setLink))

theorem State.kp_widthSet {r s : State} (h : r.Keeps s) (x1 : LinkId) (x2 : Nat) : r.Keeps (State.widthSet s x1 x2) := by
  unfold State.widthSet
  repeat' (first
    | with_reducible assumption
    | (intro t; (have ht : r.Keeps t := ?_); clear_value t; (try (rotate_left; unfold t)))
    | intro _
    | split
    | lift_lets
    | (with_reducible refine State.Keeps.of_fst (by assumption) ?_)
    | (with_reducible apply State.kp_setLink)
    | (with_reducible apply State.kp_toRecover)
    | (with_reducible apply State.kp_fenceOutside)
    | (with_reducible apply State.kp_restartHold)
    | (with_reducible apply State.kp_put)
    | (with_reducible apply State.kp_unfenceInside)
    | (with_reducible apply State.kp_setLinkState))

theorem State.kp_widthArrives {r s : State} (h : r.Keeps s) (x1 : LinkId) (x2 : Byte) (x3 : Byte) : r.Keeps (State.widthArrives s x1 x2 x3) := by
  unfold State.widthArrives
  repeat' (first
    | with_reducible assumption
    | intro _
    | split
    | lift_lets
    | (with_reducible refine State.Keeps.of_fst (by assumption) ?_)
    | (with_reducible apply State.kp_widthSet))

theorem State.kp_trainCompletes {r s : State} (h : r.Keeps s) (x1 : LinkId) : r.Keeps (State.trainCompletes s x1) := by
  unfold State.trainCompletes
  repeat' (first
    | with_reducible assumption
    | (intro t; (have ht : r.Keeps t := ?_); clear_value t; (try (rotate_left; unfold t)))
    | intro _
    | split
    | lift_lets
    | (with_reducible refine State.Keeps.of_fst (by assumption) ?_)
    | (with_reducible apply State.kp_restartLanes)
    | (with_reducible apply State.kp_put)
    | (with_reducible apply State.kp_fenceOutside)
    | (with_reducible apply State.kp_setLink)
    | (with_reducible apply State.kp_setLinkState))

theorem State.kp_bringUpFails {r s : State} (h : r.Keeps s) (x1 : LinkId) (x2 : Bool) : r.Keeps (State.bringUpFails s x1 x2) := by
  unfold State.bringUpFails
  repeat' (first
    | with_reducible assumption
    | (intro t; (have ht : r.Keeps t := ?_); clear_value t; (try (rotate_left; unfold t)))
    | intro _
    | split
    | lift_lets
    | (with_reducible refine State.Keeps.of_fst (by assumption) ?_)
    | (with_reducible apply State.kp_setLink)
    | (with_reducible apply State.kp_raise)
    | (with_reducible apply State.kp_toDetect))

theorem State.kp_trainTimeout {r s : State} (h : r.Keeps s) (x1 : LinkId) : r.Keeps (State.trainTimeout s x1) := by
  unfold State.trainTimeout
  repeat' (first
    | with_reducible assumption
    | intro _
    | split
    | lift_lets
    | (with_reducible refine State.Keeps.of_fst (by assumption) ?_)
    | (with_reducible apply State.kp_trainCompletes)
    | (with_reducible apply State.kp_bringUpFails))

theorem State.kp_openDebug {r s : State} (h : r.Keeps s) (x1 : List Byte) : r.Keeps (State.openDebug s x1) := by
  unfold State.openDebug
  repeat' (first
    | with_reducible assumption
    | (intro t; (have ht : r.Keeps t := ?_); clear_value t; (try (rotate_left; unfold t)))
    | intro _
    | split
    | lift_lets
    | (with_reducible refine State.Keeps.of_fst (by assumption) ?_)
    | (with_reducible apply State.kp_clearChallenge)
    | (with_reducible apply State.Keeps.foldl)
    | (with_reducible exact State.Keeps.later (by assumption) _)
    | (with_reducible apply State.Keeps.foldl1)
    | (with_reducible constructor <;> dsimp only <;> first | refine State.Keeps.pending ?_ | refine State.Keeps.now ?_ | refine State.Keeps.fresh ?_ | refine State.Keeps.otp ?_ | refine State.Keeps.otpWf ?_ | refine State.Keeps.basin ?_ | refine State.Keeps.sram ?_))

theorem State.kp_refuseDebug {r s : State} (h : r.Keeps s) : r.Keeps (State.refuseDebug s) := by
  unfold State.refuseDebug
  repeat' (first
    | with_reducible assumption
    | intro _
    | split
    | lift_lets
    | (with_reducible refine State.Keeps.of_fst (by assumption) ?_)
    | (with_reducible apply State.kp_flag)
    | (with_reducible apply State.kp_clearChallenge))

theorem State.kp_freshNumbers {r s : State} (h : r.Keeps s) (x1 : LinkId) (x2 : List Byte) : r.Keeps (State.freshNumbers s x1 x2) := by
  unfold State.freshNumbers
  repeat' (first
    | with_reducible assumption
    | (intro t; (have ht : r.Keeps t := ?_); clear_value t; (try (rotate_left; unfold t)))
    | intro _
    | split
    | lift_lets
    | (with_reducible refine State.Keeps.of_fst (by assumption) ?_)
    | (with_reducible apply State.kp_endSession)
    | (with_reducible apply State.kp_setLink)
    | (with_reducible apply State.kp_inc)
    | (with_reducible apply State.kp_put))

theorem State.kp_linkRuns {r s : State} (h : r.Keeps s) (x1 : LinkId) (x2 : List Byte) : r.Keeps (State.linkRuns s x1 x2) := by
  unfold State.linkRuns
  repeat' (first
    | with_reducible assumption
    | (intro t; (have ht : r.Keeps t := ?_); clear_value t; (try (rotate_left; unfold t)))
    | intro _
    | split
    | lift_lets
    | (with_reducible refine State.Keeps.of_fst (by assumption) ?_)
    | (with_reducible apply State.kp_freshNumbers)
    | (with_reducible apply State.kp_resendAll)
    | (with_reducible apply State.kp_put)
    | (with_reducible apply State.kp_setLink)
    | (with_reducible apply State.kp_setLinkState))

theorem State.kp_exchangeDone {r s : State} (h : r.Keeps s) (x1 : LinkId) : r.Keeps (State.exchangeDone s x1) := by
  unfold State.exchangeDone
  repeat' (first
    | with_reducible assumption
    | intro _
    | split
    | lift_lets
    | (with_reducible refine State.Keeps.of_fst (by assumption) ?_)
    | (with_reducible apply State.kp_linkRuns))

theorem State.kp_takeCaps {r s : State} (h : r.Keeps s) (x1 : LinkId) (x2 : List Byte) (x3 : Nat) : r.Keeps (State.takeCaps s x1 x2 x3) := by
  unfold State.takeCaps
  repeat' (first
    | with_reducible assumption
    | (intro t; (have ht : r.Keeps t := ?_); clear_value t; (try (rotate_left; unfold t)))
    | intro _
    | split
    | lift_lets
    | (with_reducible refine State.Keeps.of_fst (by assumption) ?_)
    | (with_reducible apply State.kp_raise)
    | (with_reducible apply State.kp_toDetect)
    | (with_reducible apply State.kp_setLink)
    | (with_reducible apply State.kp_put)
    | (with_reducible apply State.kp_exchangeDone))

theorem State.kp_offerLane {r s : State} (h : r.Keeps s) (x1 : LinkId) (x2 : Fin 4) : r.Keeps (State.offerLane s x1 x2) := by
  unfold State.offerLane
  repeat' (first
    | with_reducible assumption
    | intro _
    | split
    | lift_lets
    | (with_reducible refine State.Keeps.of_fst (by assumption) ?_)
    | (with_reducible apply State.kp_setLink))

theorem State.kp_flightLoad {r s : State} (h : r.Keeps s) (x1 : Fin 3) (x2 : Blob) : r.Keeps (State.flightLoad s x1 x2).1 := by
  unfold State.flightLoad
  repeat' (first
    | with_reducible assumption
    | (intro t; (have ht : r.Keeps t := ?_); clear_value t; (try (rotate_left; unfold t)))
    | intro _
    | split
    | lift_lets
    | (with_reducible refine State.Keeps.of_fst (by assumption) ?_)
    | (with_reducible apply State.kp_invalidateSlot)
    | (with_reducible apply State.kp_basFill)
    | (with_reducible apply State.kp_put)
    | (with_reducible apply State.kp_meshScan)
    | (with_reducible apply State.kp_setCommit)
    | (with_reducible apply State.kp_flightFails)
    | (with_reducible apply State.Keeps.foldl)
    | (with_reducible exact State.Keeps.later (by assumption) _)
    | (with_reducible apply State.Keeps.foldl1)
    | (with_reducible constructor <;> dsimp only <;> first | refine State.Keeps.pending ?_ | refine State.Keeps.now ?_ | refine State.Keeps.fresh ?_ | refine State.Keeps.otp ?_ | refine State.Keeps.otpWf ?_ | refine State.Keeps.basin ?_ | refine State.Keeps.sram ?_))

theorem State.kp_recoverTrained {r s : State} (h : r.Keeps s) (x1 : LinkId) : r.Keeps (State.recoverTrained s x1) := by
  unfold State.recoverTrained
  repeat' (first
    | with_reducible assumption
    | intro _
    | split
    | lift_lets
    | (with_reducible refine State.Keeps.of_fst (by assumption) ?_)
    | (with_reducible apply State.kp_setLink))

theorem State.kp_trainingSet {r s : State} (h : r.Keeps s) (x1 : LinkId) (x2 : Fin 4) (x3 : Bool) (x4 : Nat) (x5 : Nat) (x6 : Nat) (x7 : Nat) : r.Keeps (State.trainingSet s x1 x2 x3 x4 x5 x6 x7) := by
  unfold State.trainingSet
  repeat' (first
    | with_reducible assumption
    | (intro t; (have ht : r.Keeps t := ?_); clear_value t; (try (rotate_left; unfold t)))
    | intro _
    | split
    | lift_lets
    | (with_reducible refine State.Keeps.of_fst (by assumption) ?_)
    | (with_reducible apply State.kp_setLink)
    | (with_reducible apply State.kp_put)
    | (with_reducible apply State.kp_toRecover)
    | (with_reducible apply State.kp_trainCompletes)
    | (with_reducible apply State.kp_recoverTrained))

theorem State.kp_libFails {r s : State} (h : r.Keeps s) (x1 : Blob) (x2 : Nat) : r.Keeps (State.libFails s x1 x2) := by
  unfold State.libFails
  repeat' (first
    | with_reducible assumption
    | (intro t; (have ht : r.Keeps t := ?_); clear_value t; (try (rotate_left; unfold t)))
    | intro _
    | split
    | lift_lets
    | (with_reducible refine State.Keeps.of_fst (by assumption) ?_)
    | (with_reducible apply State.kp_raise))

theorem State.kp_replyTo {r s : State} (h : r.Keeps s) (x1 : List Byte) (x2 : List Byte) : r.Keeps (State.replyTo s x1 x2).1 := by
  unfold State.replyTo
  repeat' (first
    | with_reducible assumption
    | intro _
    | split
    | lift_lets
    | (with_reducible refine State.Keeps.of_fst (by assumption) ?_)
    | (with_reducible apply State.kp_random)
    | (with_reducible apply State.kp_draw))

theorem State.kp_hostHello {r s : State} (h : r.Keeps s) (x1 : List Byte) : r.Keeps (State.hostHello s x1).1 := by
  unfold State.hostHello
  repeat' (first
    | with_reducible assumption
    | intro _
    | split
    | lift_lets
    | (with_reducible refine State.Keeps.of_fst (by assumption) ?_)
    | (with_reducible apply State.kp_replyTo)
    | (with_reducible apply State.Keeps.foldl)
    | (with_reducible exact State.Keeps.later (by assumption) _)
    | (with_reducible apply State.Keeps.foldl1)
    | (with_reducible constructor <;> dsimp only <;> first | refine State.Keeps.pending ?_ | refine State.Keeps.now ?_ | refine State.Keeps.fresh ?_ | refine State.Keeps.otp ?_ | refine State.Keeps.otpWf ?_ | refine State.Keeps.basin ?_ | refine State.Keeps.sram ?_))

theorem State.kp_packetTimeout {r s : State} (h : r.Keeps s) (x1 : LinkId) : r.Keeps (State.packetTimeout s x1) := by
  unfold State.packetTimeout
  repeat' (first
    | with_reducible assumption
    | intro _
    | split
    | lift_lets
    | (with_reducible refine State.Keeps.of_fst (by assumption) ?_)
    | (with_reducible apply State.kp_discardArrival))

theorem State.kp_libInstall {r s : State} (h : r.Keeps s) (x1 : Blob) : r.Keeps (State.libInstall s x1) := by
  unfold State.libInstall
  repeat' (first
    | with_reducible assumption
    | (intro t; (have ht : r.Keeps t := ?_); clear_value t; (try (rotate_left; unfold t)))
    | intro _
    | split
    | lift_lets
    | (with_reducible refine State.Keeps.of_fst (by assumption) ?_)
    | (with_reducible apply State.kp_basFill)
    | (with_reducible apply State.kp_put)
    | (with_reducible apply State.Keeps.foldl)
    | (with_reducible exact State.Keeps.later (by assumption) _)
    | (with_reducible apply State.Keeps.foldl1)
    | (with_reducible constructor <;> dsimp only <;> first | refine State.Keeps.pending ?_ | refine State.Keeps.now ?_ | refine State.Keeps.fresh ?_ | refine State.Keeps.otp ?_ | refine State.Keeps.otpWf ?_ | refine State.Keeps.basin ?_ | refine State.Keeps.sram ?_))

theorem State.kp_libLoad {r s : State} (h : r.Keeps s) (x1 : Blob) : r.Keeps (State.libLoad s x1).1 := by
  unfold State.libLoad
  repeat' (first
    | with_reducible assumption
    | (intro t; (have ht : r.Keeps t := ?_); clear_value t; (try (rotate_left; unfold t)))
    | intro _
    | split
    | lift_lets
    | (with_reducible refine State.Keeps.of_fst (by assumption) ?_)
    | (with_reducible apply State.kp_flag)
    | (with_reducible apply State.kp_put)
    | (with_reducible apply State.kp_libInstall)
    | (with_reducible apply State.kp_libFails))

theorem State.kp_lockTimeout {r s : State} (h : r.Keeps s) (x1 : LinkId) : r.Keeps (State.lockTimeout s x1) := by
  unfold State.lockTimeout
  repeat' (first
    | with_reducible assumption
    | intro _
    | split
    | lift_lets
    | (with_reducible refine State.Keeps.of_fst (by assumption) ?_)
    | (with_reducible apply State.kp_bringUpFails))

theorem State.kp_recoverTimeout {r s : State} (h : r.Keeps s) (x1 : LinkId) : r.Keeps (State.recoverTimeout s x1) := by
  unfold State.recoverTimeout
  repeat' (first
    | with_reducible assumption
    | intro _
    | split
    | lift_lets
    | (with_reducible refine State.Keeps.of_fst (by assumption) ?_)
    | (with_reducible apply State.kp_toDetect))

theorem State.kp_sendCaps {r s : State} (h : r.Keeps s) (x1 : LinkId) : r.Keeps (State.sendCaps s x1) := by
  unfold State.sendCaps
  repeat' (first
    | with_reducible assumption
    | intro _
    | split
    | lift_lets
    | (with_reducible refine State.Keeps.of_fst (by assumption) ?_)
    | (with_reducible apply State.kp_exchangeDone)
    | (with_reducible apply State.kp_setLink))

theorem State.kp_exchangeTimeout {r s : State} (h : r.Keeps s) (x1 : LinkId) : r.Keeps (State.exchangeTimeout s x1) := by
  unfold State.exchangeTimeout
  repeat' (first
    | with_reducible assumption
    | intro _
    | split
    | lift_lets
    | (with_reducible refine State.Keeps.of_fst (by assumption) ?_)
    | (with_reducible apply State.kp_bringUpFails))

theorem State.kp_takeAck {r s : State} (h : r.Keeps s) (x1 : LinkId) (x2 : Nat) (x3 : Nat) : r.Keeps (State.takeAck s x1 x2 x3) := by
  unfold State.takeAck
  repeat' (first
    | with_reducible assumption
    | (intro t; (have ht : r.Keeps t := ?_); clear_value t; (try (rotate_left; unfold t)))
    | intro _
    | split
    | lift_lets
    | (with_reducible refine State.Keeps.of_fst (by assumption) ?_)
    | (with_reducible apply State.kp_inc)
    | (with_reducible apply State.kp_setLink))

theorem State.kp_takeNak {r s : State} (h : r.Keeps s) (x1 : LinkId) (x2 : Nat) (x3 : Nat) : r.Keeps (State.takeNak s x1 x2 x3) := by
  unfold State.takeNak
  repeat' (first
    | with_reducible assumption
    | intro _
    | split
    | lift_lets
    | (with_reducible refine State.Keeps.of_fst (by assumption) ?_)
    | (with_reducible apply State.kp_replay)
    | (with_reducible apply State.kp_takeAck))

theorem State.kp_elasticFails {r s : State} (h : r.Keeps s) (x1 : LinkId) (x2 : Fin 4) : r.Keeps (State.elasticFails s x1 x2) := by
  unfold State.elasticFails
  repeat' (first
    | with_reducible assumption
    | (intro t; (have ht : r.Keeps t := ?_); clear_value t; (try (rotate_left; unfold t)))
    | intro _
    | split
    | lift_lets
    | (with_reducible refine State.Keeps.of_fst (by assumption) ?_)
    | (with_reducible apply State.kp_restartSlacks)
    | (with_reducible apply State.kp_inc)
    | (with_reducible apply State.kp_discardArrival)
    | (with_reducible apply State.kp_raise))

end Sys2Proof.Machine
end

