-- ==== Sys2Proof/Laws/KeepsPair.lean ====
section
/-!
SUPPORT. State.Keeps of every function of the model: pairing, the thermal model, the safety logic and locks.
-/
namespace Sys2Proof.Machine

theorem State.kp_resyncRequest {r s : State} (h : r.Keeps s) : r.Keeps (State.resyncRequest s) := by
  unfold State.resyncRequest
  repeat' (first
    | with_reducible assumption
    | intro _
    | split
    | lift_lets
    | (with_reducible refine State.Keeps.of_fst (by assumption) ?_)
    | (with_reducible apply State.kp_setPeer))

theorem State.kp_noteEgress {r s : State} (h : r.Keeps s) : r.Keeps (State.noteEgress s) := by
  unfold State.noteEgress
  repeat' (first
    | with_reducible assumption
    | (intro t; (have ht : r.Keeps t := ?_); clear_value t; (try (rotate_left; unfold t)))
    | intro _
    | split
    | lift_lets
    | (with_reducible refine State.Keeps.of_fst (by assumption) ?_)
    | (with_reducible apply State.kp_put)
    | (with_reducible apply State.kp_flag)
    | (with_reducible apply State.kp_setCommit)
    | (with_reducible apply State.Keeps.foldl)
    | (with_reducible exact State.Keeps.later (by assumption) _)
    | (with_reducible apply State.Keeps.foldl1)
    | (with_reducible constructor <;> dsimp only <;> first | refine State.Keeps.pending ?_ | refine State.Keeps.now ?_ | refine State.Keeps.fresh ?_ | refine State.Keeps.otp ?_ | refine State.Keeps.otpWf ?_ | refine State.Keeps.basin ?_ | refine State.Keeps.sram ?_))

theorem State.kp_setPair {r s : State} (h : r.Keeps s) (x1 : Nat) (x2 : Nat) : r.Keeps (State.setPair s x1 x2) := by
  unfold State.setPair
  repeat' (first
    | with_reducible assumption
    | (intro t; (have ht : r.Keeps t := ?_); clear_value t; (try (rotate_left; unfold t)))
    | intro _
    | split
    | lift_lets
    | (with_reducible refine State.Keeps.of_fst (by assumption) ?_)
    | (with_reducible apply State.kp_put)
    | (with_reducible apply State.kp_flag)
    | (with_reducible apply State.kp_condition))

theorem State.kp_rearmPair {r s : State} (h : r.Keeps s) (x1 : Fin 4) : r.Keeps (State.rearmPair s x1) := by
  unfold State.rearmPair
  repeat' (first
    | with_reducible assumption
    | intro _
    | split
    | lift_lets
    | (with_reducible refine State.Keeps.of_fst (by assumption) ?_)
    | (with_reducible apply State.kp_noteEgress)
    | (with_reducible apply State.kp_setPair))

theorem State.kp_rearm {r s : State} (h : r.Keeps s) (x1 : Nat) : r.Keeps (State.rearm s x1) := by
  unfold State.rearm
  repeat' (first
    | with_reducible assumption
    | intro _
    | split
    | lift_lets
    | (with_reducible refine State.Keeps.of_fst (by assumption) ?_)
    | (with_reducible apply State.kp_rearmPair)
    | (with_reducible apply State.Keeps.foldl))

theorem State.kp_sendRecord {r s : State} (h : r.Keeps s) (x1 : Bool) (x2 : Nat) : r.Keeps (State.sendRecord s x1 x2) := by
  unfold State.sendRecord
  repeat' (first
    | with_reducible assumption
    | intro _
    | split
    | lift_lets
    | (with_reducible refine State.Keeps.of_fst (by assumption) ?_)
    | (with_reducible apply State.kp_postPeer)
    | (with_reducible apply State.kp_setPeer))

theorem State.kp_resyncEnds {r s : State} (h : r.Keeps s) (x1 : Bool) : r.Keeps (State.resyncEnds s x1) := by
  unfold State.resyncEnds
  repeat' (first
    | with_reducible assumption
    | (intro t; (have ht : r.Keeps t := ?_); clear_value t; (try (rotate_left; unfold t)))
    | intro _
    | split
    | lift_lets
    | (with_reducible refine State.Keeps.of_fst (by assumption) ?_)
    | (with_reducible apply State.kp_flag)
    | (with_reducible apply State.kp_put)
    | (with_reducible apply State.kp_raise))

theorem State.kp_takeRole {r s : State} (h : r.Keeps s) (x1 : Nat) : r.Keeps (State.takeRole s x1) := by
  unfold State.takeRole
  repeat' (first
    | with_reducible assumption
    | (intro t; (have ht : r.Keeps t := ?_); clear_value t; (try (rotate_left; unfold t)))
    | intro _
    | split
    | lift_lets
    | (with_reducible refine State.Keeps.of_fst (by assumption) ?_)
    | (with_reducible apply State.kp_setPeer)
    | (with_reducible apply State.kp_flag)
    | (with_reducible apply State.kp_inc)
    | (with_reducible apply State.kp_put)
    | (with_reducible apply State.kp_resyncEnds))

theorem State.kp_sendSeal {r s : State} (h : r.Keeps s) (x1 : HealthMap) : r.Keeps (State.sendSeal s x1) := by
  unfold State.sendSeal
  repeat' (first
    | with_reducible assumption
    | (intro t; (have ht : r.Keeps t := ?_); clear_value t; (try (rotate_left; unfold t)))
    | intro _
    | split
    | lift_lets
    | (with_reducible refine State.Keeps.of_fst (by assumption) ?_)
    | (with_reducible apply State.kp_postPeer)
    | (with_reducible apply State.kp_setPeer))

theorem State.kp_sendRuns {r s : State} (h : r.Keeps s) (x1 : HealthMap) (x2 : List (Prod Nat Nat)) : r.Keeps (State.sendRuns s x1 x2) := by
  unfold State.sendRuns
  repeat' (first
    | with_reducible assumption
    | (intro t; (have ht : r.Keeps t := ?_); clear_value t; (try (rotate_left; unfold t)))
    | intro _
    | split
    | lift_lets
    | (with_reducible refine State.Keeps.of_fst (by assumption) ?_)
    | (with_reducible apply State.kp_postPeer)
    | (with_reducible apply State.kp_setPeer)
    | (with_reducible apply State.Keeps.foldl))

theorem State.kp_sendWholeMap {r s : State} (h : r.Keeps s) (x1 : HealthMap) : r.Keeps (State.sendWholeMap s x1) := by
  unfold State.sendWholeMap
  repeat' (first
    | with_reducible assumption
    | intro _
    | split
    | lift_lets
    | (with_reducible refine State.Keeps.of_fst (by assumption) ?_)
    | (with_reducible apply State.kp_sendRuns))

theorem State.kp_sendMapChanges {r s : State} (h : r.Keeps s) (x1 : HealthMap) : r.Keeps (State.sendMapChanges s x1) := by
  unfold State.sendMapChanges
  repeat' (first
    | with_reducible assumption
    | intro _
    | split
    | lift_lets
    | (with_reducible refine State.Keeps.of_fst (by assumption) ?_)
    | (with_reducible apply State.kp_sendRuns))

theorem State.kp_sendSluiceMap {r s : State} (h : r.Keeps s) : r.Keeps (State.sendSluiceMap s) := by
  unfold State.sendSluiceMap
  repeat' (first
    | with_reducible assumption
    | intro _
    | split
    | lift_lets
    | (with_reducible refine State.Keeps.of_fst (by assumption) ?_)
    | (with_reducible apply State.kp_sendWholeMap)
    | (with_reducible apply State.kp_setPeer)
    | (with_reducible apply State.kp_sendMapChanges))

theorem State.kp_echoRequest {r s : State} (h : r.Keeps s) : r.Keeps (State.echoRequest s) := by
  unfold State.echoRequest
  repeat' (first
    | with_reducible assumption
    | (intro t; (have ht : r.Keeps t := ?_); clear_value t; (try (rotate_left; unfold t)))
    | intro _
    | split
    | lift_lets
    | (with_reducible refine State.Keeps.of_fst (by assumption) ?_)
    | (with_reducible apply State.kp_setPeer)
    | (with_reducible apply State.kp_post))

theorem State.kp_sendFcrc {r s : State} (h : r.Keeps s) : r.Keeps (State.sendFcrc s) := by
  unfold State.sendFcrc
  repeat' (first
    | with_reducible assumption
    | intro _
    | split
    | lift_lets
    | (with_reducible refine State.Keeps.of_fst (by assumption) ?_)
    | (with_reducible apply State.kp_postPeer))

theorem State.kp_setBand {r s : State} (h : r.Keeps s) (x1 : Nat) (x2 : Nat) : r.Keeps (State.setBand s x1 x2) := by
  unfold State.setBand
  repeat' (first
    | with_reducible assumption
    | (intro t; (have ht : r.Keeps t := ?_); clear_value t; (try (rotate_left; unfold t)))
    | intro _
    | split
    | lift_lets
    | (with_reducible refine State.Keeps.of_fst (by assumption) ?_)
    | (with_reducible apply State.kp_put)
    | (with_reducible apply State.kp_flag))

theorem State.kp_arrayMean {r s : State} (h : r.Keeps s) : r.Keeps (State.arrayMean s).1 := by
  unfold State.arrayMean
  repeat' (first
    | with_reducible assumption
    | intro _
    | split
    | lift_lets
    | (with_reducible refine State.Keeps.of_fst (by assumption) ?_)
    | (with_reducible apply State.kp_draw))

theorem State.kp_setThm {r s : State} (h : r.Keeps s) (x1 : Thermal) : r.Keeps (State.setThm s x1) := by
  unfold State.setThm
  repeat' (first
    | with_reducible assumption
    | intro _
    | split
    | lift_lets
    | (with_reducible refine State.Keeps.of_fst (by assumption) ?_)
    | (with_reducible apply State.Keeps.foldl)
    | (with_reducible exact State.Keeps.later (by assumption) _)
    | (with_reducible apply State.Keeps.foldl1)
    | (with_reducible constructor <;> dsimp only <;> first | refine State.Keeps.pending ?_ | refine State.Keeps.now ?_ | refine State.Keeps.fresh ?_ | refine State.Keeps.otp ?_ | refine State.Keeps.otpWf ?_ | refine State.Keeps.basin ?_ | refine State.Keeps.sram ?_))

theorem State.kp_startModel {r s : State} (h : r.Keeps s) : r.Keeps (State.startModel s) := by
  unfold State.startModel
  repeat' (first
    | with_reducible assumption
    | intro _
    | split
    | lift_lets
    | (with_reducible refine State.Keeps.of_fst (by assumption) ?_)
    | (with_reducible apply State.kp_arrayMean)
    | (with_reducible apply State.kp_setThm))

theorem State.kp_bandsAtSluice {r s : State} (h : r.Keeps s) : r.Keeps (State.bandsAtSluice s) := by
  unfold State.bandsAtSluice
  repeat' (first
    | with_reducible assumption
    | (intro t; (have ht : r.Keeps t := ?_); clear_value t; (try (rotate_left; unfold t)))
    | intro _
    | split
    | lift_lets
    | (with_reducible refine State.Keeps.of_fst (by assumption) ?_)
    | (with_reducible apply State.kp_setBand)
    | (with_reducible apply State.kp_arrayMean)
    | (with_reducible apply State.kp_setThm)
    | (with_reducible apply State.Keeps.foldl)
    | (with_reducible exact State.Keeps.later (by assumption) _)
    | (with_reducible apply State.Keeps.foldl1)
    | (with_reducible constructor <;> dsimp only <;> first | refine State.Keeps.pending ?_ | refine State.Keeps.now ?_ | refine State.Keeps.fresh ?_ | refine State.Keeps.otp ?_ | refine State.Keeps.otpWf ?_ | refine State.Keeps.basin ?_ | refine State.Keeps.sram ?_))

theorem State.kp_budgetAtSluice {r s : State} (h : r.Keeps s) : r.Keeps (State.budgetAtSluice s) := by
  unfold State.budgetAtSluice
  repeat' (first
    | with_reducible assumption
    | (intro t; (have ht : r.Keeps t := ?_); clear_value t; (try (rotate_left; unfold t)))
    | intro _
    | split
    | lift_lets
    | (with_reducible refine State.Keeps.of_fst (by assumption) ?_)
    | (with_reducible apply State.kp_setThm)
    | (with_reducible apply State.kp_condition)
    | (with_reducible apply State.kp_flag)
    | (with_reducible apply State.kp_put))

theorem State.kp_verifyGlyphs {r s : State} (h : r.Keeps s) : r.Keeps (State.verifyGlyphs s) := by
  unfold State.verifyGlyphs
  repeat' (first
    | with_reducible assumption
    | intro _
    | split
    | lift_lets
    | (with_reducible refine State.Keeps.of_fst (by assumption) ?_)
    | (with_reducible apply State.kp_setSaf))

theorem State.kp_safetySluice {r s : State} (h : r.Keeps s) (x1 : Bool) : r.Keeps (State.safetySluice s x1) := by
  unfold State.safetySluice
  repeat' (first
    | with_reducible assumption
    | (intro t; (have ht : r.Keeps t := ?_); clear_value t; (try (rotate_left; unfold t)))
    | intro _
    | split
    | lift_lets
    | (with_reducible refine State.Keeps.of_fst (by assumption) ?_)
    | (with_reducible apply State.kp_noteVerified)
    | (with_reducible apply State.kp_setSaf)
    | (with_reducible apply State.kp_verifyGlyphs))

theorem State.kp_noteAligned {r s : State} (h : r.Keeps s) : r.Keeps (State.noteAligned s) := by
  unfold State.noteAligned
  repeat' (first
    | with_reducible assumption
    | intro _
    | split
    | lift_lets
    | (with_reducible refine State.Keeps.of_fst (by assumption) ?_)
    | (with_reducible apply State.kp_condition))

theorem State.kp_resyncAtSluice {r s : State} (h : r.Keeps s) : r.Keeps (State.resyncAtSluice s) := by
  unfold State.resyncAtSluice
  repeat' (first
    | with_reducible assumption
    | (intro t; (have ht : r.Keeps t := ?_); clear_value t; (try (rotate_left; unfold t)))
    | intro _
    | split
    | lift_lets
    | (with_reducible refine State.Keeps.of_fst (by assumption) ?_)
    | (with_reducible apply State.kp_setPeer)
    | (with_reducible apply State.kp_put)
    | (with_reducible apply State.kp_resyncEnds))

theorem State.kp_breakRun {r s : State} (h : r.Keeps s) : r.Keeps (State.breakRun s) := by
  unfold State.breakRun
  repeat' (first
    | with_reducible assumption
    | intro _
    | split
    | lift_lets
    | (with_reducible refine State.Keeps.of_fst (by assumption) ?_)
    | (with_reducible apply State.kp_put))

theorem State.kp_forgetTwin {r s : State} (h : r.Keeps s) : r.Keeps (State.forgetTwin s) := by
  unfold State.forgetTwin
  repeat' (first
    | with_reducible assumption
    | intro _
    | split
    | lift_lets
    | (with_reducible refine State.Keeps.of_fst (by assumption) ?_)
    | (with_reducible apply State.kp_setPeer)
    | (with_reducible apply State.kp_breakRun))

theorem State.kp_judgeTwin {r s : State} (h : r.Keeps s) : r.Keeps (State.judgeTwin s) := by
  unfold State.judgeTwin
  repeat' (first
    | with_reducible assumption
    | (intro t; (have ht : r.Keeps t := ?_); clear_value t; (try (rotate_left; unfold t)))
    | intro _
    | split
    | lift_lets
    | (with_reducible refine State.Keeps.of_fst (by assumption) ?_)
    | (with_reducible apply State.kp_setPeer)
    | (with_reducible apply State.kp_breakRun)
    | (with_reducible apply State.kp_put)
    | (with_reducible apply State.kp_loseTwinLock))

theorem State.kp_frameCrcs {r s : State} (h : r.Keeps s) : r.Keeps s.frameCrcs.1 := by
  unfold State.frameCrcs
  refine State.Keeps.foldl1 (fun p a h => ?_) _ _ h
  dsimp only
  split
  · exact h
  · exact State.kp_draw h

theorem State.kp_takeHeat {r s : State} (h : r.Keeps s) (x1 : List ReachCurrent) : r.Keeps (State.takeHeat s x1) := by
  unfold State.takeHeat
  repeat' (first
    | with_reducible assumption
    | (intro t; (have ht : r.Keeps t := ?_); clear_value t; (try (rotate_left; unfold t)))
    | intro _
    | split
    | lift_lets
    | (with_reducible refine State.Keeps.of_fst (by assumption) ?_)
    | (with_reducible apply State.kp_setThm)
    | (with_reducible apply State.kp_put)
    | (with_reducible apply State.Keeps.foldl))

theorem State.kp_loseSensor {r s : State} (h : r.Keeps s) (x1 : Nat) : r.Keeps (State.loseSensor s x1) := by
  unfold State.loseSensor
  repeat' (first
    | with_reducible assumption
    | (intro t; (have ht : r.Keeps t := ?_); clear_value t; (try (rotate_left; unfold t)))
    | intro _
    | split
    | lift_lets
    | (with_reducible refine State.Keeps.of_fst (by assumption) ?_)
    | (with_reducible apply State.kp_flag)
    | (with_reducible apply State.kp_putBit)
    | (with_reducible apply State.kp_setThm)
    | (with_reducible apply State.kp_condition))

theorem State.kp_noteBound {r s : State} (h : r.Keeps s) (x1 : Nat) (x2 : Int) : r.Keeps (State.noteBound s x1 x2) := by
  unfold State.noteBound
  repeat' (first
    | with_reducible assumption
    | intro _
    | split
    | lift_lets
    | (with_reducible refine State.Keeps.of_fst (by assumption) ?_)
    | (with_reducible apply State.kp_setThm))

theorem State.kp_takeSample {r s : State} (h : r.Keeps s) (x1 : Nat) (x2 : Int) : r.Keeps (State.takeSample s x1 x2) := by
  unfold State.takeSample
  repeat' (first
    | with_reducible assumption
    | (intro t; (have ht : r.Keeps t := ?_); clear_value t; (try (rotate_left; unfold t)))
    | intro _
    | split
    | lift_lets
    | (with_reducible refine State.Keeps.of_fst (by assumption) ?_)
    | (with_reducible apply State.kp_put)
    | (with_reducible apply State.kp_setThm)
    | (with_reducible apply State.kp_noteBound))

theorem State.kp_sampleOne {r s : State} (h : r.Keeps s) (x1 : Nat) (x2 : SensorSample) : r.Keeps (State.sampleOne s x1 x2) := by
  unfold State.sampleOne
  repeat' (first
    | with_reducible assumption
    | (intro t; (have ht : r.Keeps t := ?_); clear_value t; (try (rotate_left; unfold t)))
    | intro _
    | split
    | lift_lets
    | (with_reducible refine State.Keeps.of_fst (by assumption) ?_)
    | (with_reducible apply State.kp_loseSensor)
    | (with_reducible apply State.kp_setThm)
    | (with_reducible apply State.kp_inc)
    | (with_reducible apply State.kp_takeSample))

theorem State.kp_noteLimit {r s : State} (h : r.Keeps s) : r.Keeps (State.noteLimit s) := by
  unfold State.noteLimit
  repeat' (first
    | with_reducible assumption
    | intro _
    | split
    | lift_lets
    | (with_reducible refine State.Keeps.of_fst (by assumption) ?_)
    | (with_reducible apply State.kp_condition)
    | (with_reducible apply State.kp_enterSafeDark)
    | (with_reducible apply State.kp_put))

theorem State.kp_noteFast {r s : State} (h : r.Keeps s) : r.Keeps (State.noteFast s) := by
  unfold State.noteFast
  repeat' (first
    | with_reducible assumption
    | intro _
    | split
    | lift_lets
    | (with_reducible refine State.Keeps.of_fst (by assumption) ?_)
    | (with_reducible apply State.kp_put)
    | (with_reducible apply State.kp_setThm))

theorem State.kp_noteWindows {r s : State} (h : r.Keeps s) : r.Keeps (State.noteWindows s) := by
  unfold State.noteWindows
  repeat' (first
    | with_reducible assumption
    | (intro t; (have ht : r.Keeps t := ?_); clear_value t; (try (rotate_left; unfold t)))
    | intro _
    | split
    | lift_lets
    | (with_reducible refine State.Keeps.of_fst (by assumption) ?_)
    | (with_reducible apply State.kp_put))

theorem State.kp_sensorSample {r s : State} (h : r.Keeps s) (x1 : List SensorSample) : r.Keeps (State.sensorSample s x1) := by
  unfold State.sensorSample
  repeat' (first
    | with_reducible assumption
    | (intro t; (have ht : r.Keeps t := ?_); clear_value t; (try (rotate_left; unfold t)))
    | intro _
    | split
    | lift_lets
    | (with_reducible refine State.Keeps.of_fst (by assumption) ?_)
    | (with_reducible apply State.kp_sampleOne)
    | (with_reducible apply State.kp_raise)
    | (with_reducible apply State.kp_noteLimit)
    | (with_reducible apply State.kp_noteFast)
    | (with_reducible apply State.kp_noteWindows)
    | (with_reducible apply State.Keeps.foldl))

theorem State.kp_tgReject {r s : State} (h : r.Keeps s) (x1 : Nat) (x2 : Nat) (x3 : Nat) (x4 : Nat) : r.Keeps (State.tgReject s x1 x2 x3 x4) := by
  unfold State.tgReject
  repeat' (first
    | with_reducible assumption
    | (intro t; (have ht : r.Keeps t := ?_); clear_value t; (try (rotate_left; unfold t)))
    | intro _
    | split
    | lift_lets
    | (with_reducible refine State.Keeps.of_fst (by assumption) ?_)
    | (with_reducible apply State.kp_put)
    | (with_reducible apply State.kp_flag)
    | (with_reducible apply State.kp_inc)
    | (with_reducible apply State.kp_raise))

theorem State.kp_setHeld {r s : State} (h : r.Keeps s) (x1 : Bool) (x2 : Option (Prod Nat (List Byte))) : r.Keeps (State.setHeld s x1 x2) := by
  unfold State.setHeld
  repeat' (first
    | with_reducible assumption
    | intro _
    | split
    | lift_lets
    | (with_reducible refine State.Keeps.of_fst (by assumption) ?_)
    | (with_reducible apply State.kp_setSaf))

theorem State.kp_tgUnmatched {r s : State} (h : r.Keeps s) (x1 : Bool) : r.Keeps (State.tgUnmatched s x1) := by
  unfold State.tgUnmatched
  repeat' (first
    | with_reducible assumption
    | intro _
    | split
    | lift_lets
    | (with_reducible refine State.Keeps.of_fst (by assumption) ?_)
    | (with_reducible apply State.kp_tgReject)
    | (with_reducible apply State.kp_setHeld))

theorem State.kp_thermalTrip {r s : State} (h : r.Keeps s) : r.Keeps (State.thermalTrip s) := by
  unfold State.thermalTrip
  repeat' (first
    | with_reducible assumption
    | intro _
    | split
    | lift_lets
    | (with_reducible refine State.Keeps.of_fst (by assumption) ?_)
    | (with_reducible apply State.kp_condition)
    | (with_reducible apply State.kp_enterSafeDark)
    | (with_reducible apply State.kp_put))

theorem State.kp_stallEnd {r s : State} (h : r.Keeps s) : r.Keeps (State.stallEnd s) := by
  unfold State.stallEnd
  repeat' (first
    | with_reducible assumption
    | intro _
    | split
    | lift_lets
    | (with_reducible refine State.Keeps.of_fst (by assumption) ?_)
    | (with_reducible apply State.Keeps.foldl)
    | (with_reducible exact State.Keeps.later (by assumption) _)
    | (with_reducible apply State.Keeps.foldl1)
    | (with_reducible constructor <;> dsimp only <;> first | refine State.Keeps.pending ?_ | refine State.Keeps.now ?_ | refine State.Keeps.fresh ?_ | refine State.Keeps.otp ?_ | refine State.Keeps.otpWf ?_ | refine State.Keeps.basin ?_ | refine State.Keeps.sram ?_))

theorem State.kp_bandUpdate {r s : State} (h : r.Keeps s) (x1 : Nat) : r.Keeps (State.bandUpdate s x1) := by
  unfold State.bandUpdate
  repeat' (first
    | with_reducible assumption
    | (intro t; (have ht : r.Keeps t := ?_); clear_value t; (try (rotate_left; unfold t)))
    | intro _
    | split
    | lift_lets
    | (with_reducible refine State.Keeps.of_fst (by assumption) ?_)
    | (with_reducible apply State.kp_setThm)
    | (with_reducible apply State.kp_put))

theorem State.kp_towpathStatus {r s : State} (h : r.Keeps s) : r.Keeps (State.towpathStatus s) := by
  unfold State.towpathStatus
  repeat' (first
    | with_reducible assumption
    | intro _
    | split
    | lift_lets
    | (with_reducible refine State.Keeps.of_fst (by assumption) ?_)
    | (with_reducible apply State.kp_setSaf))

theorem State.kp_copiedSlot {r s : State} (h : r.Keeps s) (x1 : Fin 3) : r.Keeps (State.copiedSlot s x1) := by
  unfold State.copiedSlot
  repeat' (first
    | with_reducible assumption
    | (intro t; (have ht : r.Keeps t := ?_); clear_value t; (try (rotate_left; unfold t)))
    | intro _
    | split
    | lift_lets
    | (with_reducible refine State.Keeps.of_fst (by assumption) ?_)
    | (with_reducible apply State.kp_meshScan)
    | (with_reducible apply State.Keeps.foldl)
    | (with_reducible exact State.Keeps.later (by assumption) _)
    | (with_reducible apply State.Keeps.foldl1)
    | (with_reducible constructor <;> dsimp only <;> first | refine State.Keeps.pending ?_ | refine State.Keeps.now ?_ | refine State.Keeps.fresh ?_ | refine State.Keeps.otp ?_ | refine State.Keeps.otpWf ?_ | refine State.Keeps.basin ?_ | refine State.Keeps.sram ?_))

theorem State.kp_towpathError {r s : State} (h : r.Keeps s) : r.Keeps (State.towpathError s) := by
  unfold State.towpathError
  repeat' (first
    | with_reducible assumption
    | intro _
    | split
    | lift_lets
    | (with_reducible refine State.Keeps.of_fst (by assumption) ?_)
    | (with_reducible apply State.kp_raise)
    | (with_reducible apply State.kp_inc))

theorem State.kp_tgAccept {r s : State} (h : r.Keeps s) (x1 : List Byte) : r.Keeps (State.tgAccept s x1) := by
  unfold State.tgAccept
  repeat' (first
    | with_reducible assumption
    | (intro t; (have ht : r.Keeps t := ?_); clear_value t; (try (rotate_left; unfold t)))
    | intro _
    | split
    | lift_lets
    | (with_reducible refine State.Keeps.of_fst (by assumption) ?_)
    | (with_reducible apply State.kp_inc)
    | (with_reducible apply State.kp_put)
    | (with_reducible apply State.kp_condition)
    | (with_reducible apply State.kp_noteEgress))

theorem State.kp_tgPair {r s : State} (h : r.Keeps s) (x1 : List Byte) : r.Keeps (State.tgPair s x1) := by
  unfold State.tgPair
  repeat' (first
    | with_reducible assumption
    | intro _
    | split
    | lift_lets
    | (with_reducible refine State.Keeps.of_fst (by assumption) ?_)
    | (with_reducible apply State.kp_tgReject)
    | (with_reducible apply State.kp_tgAccept)
    | (with_reducible apply State.kp_raise))

theorem State.kp_tgMatch {r s : State} (h : r.Keeps s) : r.Keeps (State.tgMatch s) := by
  unfold State.tgMatch
  repeat' (first
    | with_reducible assumption
    | (intro t; (have ht : r.Keeps t := ?_); clear_value t; (try (rotate_left; unfold t)))
    | intro _
    | split
    | lift_lets
    | (with_reducible refine State.Keeps.of_fst (by assumption) ?_)
    | (with_reducible apply State.kp_setSaf)
    | (with_reducible apply State.kp_tgPair)
    | (with_reducible apply State.kp_tgReject))

theorem State.kp_tgCopy {r s : State} (h : r.Keeps s) (x1 : Bool) (x2 : List Byte) : r.Keeps (State.tgCopy s x1 x2) := by
  unfold State.tgCopy
  repeat' (first
    | with_reducible assumption
    | intro _
    | split
    | lift_lets
    | (with_reducible refine State.Keeps.of_fst (by assumption) ?_)
    | (with_reducible apply State.kp_tgReject)
    | (with_reducible apply State.kp_tgMatch)
    | (with_reducible apply State.kp_setHeld)
    | (with_reducible apply State.kp_tgUnmatched))

theorem State.kp_towpathReceive {r s : State} (h : r.Keeps s) (x1 : Bool) (x2 : List Byte) : r.Keeps (State.towpathReceive s x1 x2) := by
  unfold State.towpathReceive
  repeat' (first
    | with_reducible assumption
    | intro _
    | split
    | lift_lets
    | (with_reducible refine State.Keeps.of_fst (by assumption) ?_)
    | (with_reducible apply State.kp_towpathError)
    | (with_reducible apply State.kp_tgCopy)
    | (with_reducible apply State.kp_chkSnoop)
    | (with_reducible apply State.kp_setSaf))

theorem State.kp_takeBerth_live {r s : State} (h : r.Keeps s) (c : Prop) [Decidable c] (k : Nat) : r.Keeps (if c then s.liveChanged k else s) := by
  split
  · exact State.kp_liveChanged h k
  · exact h

theorem State.kp_takeBerth {r s : State} (h : r.Keeps s) (bs : List Byte) : r.Keeps (s.takeBerth bs) := by
  unfold State.takeBerth
  extract_lets _ _ _
  split
  · exact State.kp_resyncEnds h _
  · exact State.kp_setBerth (State.kp_takeBerth_live (State.kp_setPeer (State.kp_put (State.kp_put (State.kp_put (State.kp_put h _ _) _ _) _ _) _ _) _) _ _) _ _

theorem State.kp_freeUncopied {r s : State} (h : r.Keeps s) : r.Keeps (State.freeUncopied s) := by
  unfold State.freeUncopied
  repeat' (first
    | with_reducible assumption
    | (intro t; (have ht : r.Keeps t := ?_); clear_value t; (try (rotate_left; unfold t)))
    | intro _
    | split
    | lift_lets
    | (with_reducible refine State.Keeps.of_fst (by assumption) ?_)
    | (with_reducible apply State.kp_liveChanged)
    | (with_reducible apply State.kp_setBerth)
    | (with_reducible apply State.Keeps.foldl))

theorem State.kp_copyEnds {r s : State} (h : r.Keeps s) (x1 : List Byte) : r.Keeps (State.copyEnds s x1) := by
  unfold State.copyEnds
  repeat' (first
    | with_reducible assumption
    | (intro t; (have ht : r.Keeps t := ?_); clear_value t; (try (rotate_left; unfold t)))
    | intro _
    | split
    | lift_lets
    | (with_reducible refine State.Keeps.of_fst (by assumption) ?_)
    | (with_reducible apply State.kp_freeUncopied)
    | (with_reducible apply State.kp_copiedSlot)
    | (with_reducible apply State.kp_invalidateSlot)
    | (with_reducible apply State.kp_put)
    | (with_reducible apply State.kp_setPeer)
    | (with_reducible apply State.kp_libCopied)
    | (with_reducible apply State.kp_resyncEnds)
    | (with_reducible apply State.Keeps.foldl))

theorem State.kp_takeXctl {r s : State} (h : r.Keeps s) (bs : List Byte) : r.Keeps (s.takeXctl bs) := by
  unfold State.takeXctl
  split
  · exact h
  · split
    · exact State.Keeps.foldl (fun _ _ h => State.kp_invalidateSlot h _) _ _ (State.kp_setPeer h _)
    · exact State.kp_takeBerth h _
    · exact State.kp_setPeer h _
    · split
      · exact h
      · exact State.kp_copyEnds h _
    · exact h

theorem State.kp_landXfer {r s : State} (h : r.Keeps s) (x1 : Nat) (x2 : List Byte) : r.Keeps (State.landXfer s x1 x2) := by
  unfold State.landXfer
  repeat' (first
    | with_reducible assumption
    | intro _
    | split
    | lift_lets
    | (with_reducible refine State.Keeps.of_fst (by assumption) ?_)
    | (with_reducible apply State.kp_basWrite)
    | (with_reducible apply State.kp_poolWrite))

theorem State.kp_takeXfer {r s : State} (h : r.Keeps s) (x1 : Nat) (x2 : List Byte) : r.Keeps (State.takeXfer s x1 x2) := by
  unfold State.takeXfer
  repeat' (first
    | with_reducible assumption
    | (intro t; (have ht : r.Keeps t := ?_); clear_value t; (try (rotate_left; unfold t)))
    | intro _
    | split
    | lift_lets
    | (with_reducible refine State.Keeps.of_fst (by assumption) ?_)
    | (with_reducible apply State.kp_setPeer)
    | (with_reducible apply State.kp_put)
    | (with_reducible apply State.kp_landXfer))

theorem State.kp_landUpTo {r s : State} (h : r.Keeps s) (x1 : ChamberId) (x2 : Nat) : r.Keeps (State.landUpTo s x1 x2) := by
  unfold State.landUpTo
  repeat' (first
    | with_reducible assumption
    | intro _
    | split
    | lift_lets
    | (with_reducible refine State.Keeps.of_fst (by assumption) ?_)
    | (with_reducible apply State.kp_landTo))

theorem State.kp_runTo {r s : State} (h : r.Keeps s) (x1 : ChamberId) (x2 : Nat) : r.Keeps (State.runTo s x1 x2) := by
  unfold State.runTo
  repeat' (first
    | with_reducible assumption
    | (intro t; (have ht : r.Keeps t := ?_); clear_value t; (try (rotate_left; unfold t)))
    | intro _
    | split
    | lift_lets
    | (with_reducible refine State.Keeps.of_fst (by assumption) ?_)
    | (with_reducible apply State.kp_closeBundle)
    | (with_reducible apply State.kp_landUpTo))

theorem State.kp_substitute {r s : State} (h : r.Keeps s) : r.Keeps (State.substitute s) := by
  unfold State.substitute
  repeat' (first
    | with_reducible assumption
    | (intro t; (have ht : r.Keeps t := ?_); clear_value t; (try (rotate_left; unfold t)))
    | intro _
    | split
    | lift_lets
    | (with_reducible refine State.Keeps.of_fst (by assumption) ?_)
    | (with_reducible apply State.kp_put)
    | (with_reducible apply State.kp_setThm)
    | (with_reducible apply State.Keeps.foldl))

theorem State.kp_gainTwinLock {r s : State} (h : r.Keeps s) : r.Keeps (State.gainTwinLock s) := by
  unfold State.gainTwinLock
  repeat' (first
    | with_reducible assumption
    | (intro t; (have ht : r.Keeps t := ?_); clear_value t; (try (rotate_left; unfold t)))
    | intro _
    | split
    | lift_lets
    | (with_reducible refine State.Keeps.of_fst (by assumption) ?_)
    | (with_reducible apply State.kp_condition)
    | (with_reducible apply State.kp_flag)
    | (with_reducible apply State.kp_put)
    | (with_reducible apply State.kp_resyncEnds))

theorem State.kp_matched {r s : State} (h : r.Keeps s) : r.Keeps (State.matched s) := by
  unfold State.matched
  repeat' (first
    | with_reducible assumption
    | (intro t; (have ht : r.Keeps t := ?_); clear_value t; (try (rotate_left; unfold t)))
    | intro _
    | split
    | lift_lets
    | (with_reducible refine State.Keeps.of_fst (by assumption) ?_)
    | (with_reducible apply State.kp_put)
    | (with_reducible apply State.kp_resyncEnds)
    | (with_reducible apply State.kp_gainTwinLock))

theorem State.kp_compareFrames {r s : State} (h : r.Keeps s) (x1 : Nat) (x2 : Nat) (x3 : List Nat) : r.Keeps (State.compareFrames s x1 x2 x3) := by
  unfold State.compareFrames
  repeat' (first
    | with_reducible assumption
    | (intro t; (have ht : r.Keeps t := ?_); clear_value t; (try (rotate_left; unfold t)))
    | intro _
    | split
    | lift_lets
    | (with_reducible refine State.Keeps.of_fst (by assumption) ?_)
    | (with_reducible apply State.kp_put)
    | (with_reducible apply State.kp_raise)
    | (with_reducible apply State.kp_flag)
    | (with_reducible apply State.kp_inc)
    | (with_reducible apply State.kp_setPeer)
    | (with_reducible apply State.kp_matched)
    | (with_reducible apply State.kp_loseTwinLock)
    | (with_reducible apply State.Keeps.foldl))

theorem State.kp_testEnd {r s : State} (h : r.Keeps s) (x1 : Bool) (x2 : Bool) (x3 : Bool) : r.Keeps (State.testEnd s x1 x2 x3) := by
  unfold State.testEnd
  repeat' (first
    | with_reducible assumption
    | (intro t; (have ht : r.Keeps t := ?_); clear_value t; (try (rotate_left; unfold t)))
    | intro _
    | split
    | lift_lets
    | (with_reducible refine State.Keeps.of_fst (by assumption) ?_)
    | (with_reducible apply State.kp_put)
    | (with_reducible apply State.kp_setSaf)
    | (with_reducible apply State.kp_putBit)
    | (with_reducible apply State.kp_failOut))

theorem State.kp_startPairs {r s : State} (h : r.Keeps s) : r.Keeps (State.startPairs s) := by
  unfold State.startPairs
  repeat' (first
    | with_reducible assumption
    | (intro t; (have ht : r.Keeps t := ?_); clear_value t; (try (rotate_left; unfold t)))
    | intro _
    | split
    | lift_lets
    | (with_reducible refine State.Keeps.of_fst (by assumption) ?_)
    | (with_reducible apply State.kp_put)
    | (with_reducible apply State.kp_noteEgress)
    | (with_reducible apply State.Keeps.foldl))

theorem State.kp_recognised {r s : State} (h : r.Keeps s) (x1 : Fin 4) (x2 : Bool) (x3 : Bool) (x4 : Nat) : r.Keeps (State.recognised s x1 x2 x3 x4) := by
  unfold State.recognised
  repeat' (first
    | with_reducible assumption
    | (intro t; (have ht : r.Keeps t := ?_); clear_value t; (try (rotate_left; unfold t)))
    | intro _
    | split
    | lift_lets
    | (with_reducible refine State.Keeps.of_fst (by assumption) ?_)
    | (with_reducible apply State.kp_put)
    | (with_reducible apply State.kp_setSaf)
    | (with_reducible apply State.kp_noteEgress)
    | (with_reducible apply State.kp_setPair))

theorem State.kp_safetyPattern_three {r s : State} (h : r.Keeps s) (n : Fin 4) (a b : Bool) (l : List (Nat × Bool × Bool)) :
    r.Keeps (match l with
      | [_, y, z] => if y.2 = (a, b) ∧ z.2 = (a, b) then s.recognised n a b z.1 else s
      | _ => s) := by
  split
  · split
    · exact State.kp_recognised h _ _ _ _
    · exact h
  · exact h

theorem State.kp_safetyPattern {r s : State} (h : r.Keeps s) (n : Fin 4) (a b : Bool) : r.Keeps (s.safetyPattern n a b) := by
  unfold State.safetyPattern
  split
  · exact h
  · exact State.kp_safetyPattern_three (State.kp_setSaf h _) _ _ _ _

theorem State.kp_roleRecognised {r s : State} (h : r.Keeps s) (x1 : Nat) : r.Keeps (State.roleRecognised s x1) := by
  unfold State.roleRecognised
  repeat' (first
    | with_reducible assumption
    | (intro t; (have ht : r.Keeps t := ?_); clear_value t; (try (rotate_left; unfold t)))
    | intro _
    | split
    | lift_lets
    | (with_reducible refine State.Keeps.of_fst (by assumption) ?_)
    | (with_reducible apply State.kp_put)
    | (with_reducible apply State.kp_setPeer)
    | (with_reducible apply State.kp_raise)
    | (with_reducible apply State.kp_clearSafeDark))

theorem State.kp_bargeRepMissed {r s : State} (h : r.Keeps s) (x1 : ChamberId) (x2 : Nat) : r.Keeps (State.bargeRepMissed s x1 x2) := by
  unfold State.bargeRepMissed
  repeat' (first
    | with_reducible assumption
    | (intro t; (have ht : r.Keeps t := ?_); clear_value t; (try (rotate_left; unfold t)))
    | intro _
    | split
    | lift_lets
    | (with_reducible refine State.Keeps.of_fst (by assumption) ?_)
    | (with_reducible apply State.kp_runTo)
    | (with_reducible apply State.kp_breach)
    | (with_reducible apply State.kp_setCh))

theorem State.kp_runModel {r s : State} (h : r.Keeps s) : r.Keeps (State.runModel s) := by
  unfold State.runModel
  repeat' (first
    | with_reducible assumption
    | (intro t; (have ht : r.Keeps t := ?_); clear_value t; (try (rotate_left; unfold t)))
    | intro _
    | split
    | lift_lets
    | (with_reducible refine State.Keeps.of_fst (by assumption) ?_)
    | (with_reducible apply State.kp_draw)
    | (with_reducible apply State.kp_setThm))

theorem State.kp_noteExcess {r s : State} (h : r.Keeps s) : r.Keeps (State.noteExcess s) := by
  unfold State.noteExcess
  repeat' (first
    | with_reducible assumption
    | (intro t; (have ht : r.Keeps t := ?_); clear_value t; (try (rotate_left; unfold t)))
    | intro _
    | split
    | lift_lets
    | (with_reducible refine State.Keeps.of_fst (by assumption) ?_)
    | (with_reducible apply State.kp_setThm)
    | (with_reducible apply State.kp_put))

theorem State.kp_noteRates {r s : State} (h : r.Keeps s) : r.Keeps (State.noteRates s) := by
  unfold State.noteRates
  repeat' (first
    | with_reducible assumption
    | (intro t; (have ht : r.Keeps t := ?_); clear_value t; (try (rotate_left; unfold t)))
    | intro _
    | split
    | lift_lets
    | (with_reducible refine State.Keeps.of_fst (by assumption) ?_)
    | (with_reducible apply State.kp_setThm)
    | (with_reducible apply State.kp_put))

theorem State.kp_snapshot {r s : State} (h : r.Keeps s) : r.Keeps (State.snapshot s) := by
  unfold State.snapshot
  repeat' (first
    | with_reducible assumption
    | intro _
    | split
    | lift_lets
    | (with_reducible refine State.Keeps.of_fst (by assumption) ?_)
    | (with_reducible apply State.kp_setThm))

theorem State.kp_thermalUpdate {r s : State} (h : r.Keeps s) : r.Keeps (State.thermalUpdate s) := by
  unfold State.thermalUpdate
  repeat' (first
    | with_reducible assumption
    | (intro t; (have ht : r.Keeps t := ?_); clear_value t; (try (rotate_left; unfold t)))
    | intro _
    | split
    | lift_lets
    | (with_reducible refine State.Keeps.of_fst (by assumption) ?_)
    | (with_reducible apply State.kp_substitute)
    | (with_reducible apply State.kp_runModel)
    | (with_reducible apply State.kp_startModel)
    | (with_reducible apply State.kp_setThm)
    | (with_reducible apply State.kp_noteFast)
    | (with_reducible apply State.kp_noteExcess)
    | (with_reducible apply State.kp_noteRates)
    | (with_reducible apply State.kp_snapshot)
    | (with_reducible apply State.kp_bandUpdate)
    | (with_reducible apply State.kp_noteLimit)
    | (with_reducible apply State.kp_calTemperature)
    | (with_reducible apply State.Keeps.foldl))

theorem State.kp_resultLand {r s : State} (h : r.Keeps s) (x1 : ChamberId) : r.Keeps (State.resultLand s x1) := by
  unfold State.resultLand
  repeat' (first
    | with_reducible assumption
    | intro _
    | split
    | lift_lets
    | (with_reducible refine State.Keeps.of_fst (by assumption) ?_)
    | (with_reducible apply State.kp_closeBundle)
    | (with_reducible apply State.kp_landUpTo))

theorem State.kp_tgTimesOut {r s : State} (h : r.Keeps s) : r.Keeps (State.tgTimesOut s) := by
  unfold State.tgTimesOut
  repeat' (first
    | with_reducible assumption
    | intro _
    | split
    | lift_lets
    | (with_reducible refine State.Keeps.of_fst (by assumption) ?_)
    | (with_reducible apply State.kp_noteEgress)
    | (with_reducible apply State.kp_condition)
    | (with_reducible apply State.kp_put))

theorem State.kp_resumeTests {r s : State} (h : r.Keeps s) : r.Keeps (State.resumeTests s) := by
  unfold State.resumeTests
  repeat' (first
    | with_reducible assumption
    | intro _
    | split
    | lift_lets
    | (with_reducible refine State.Keeps.of_fst (by assumption) ?_)
    | (with_reducible apply State.kp_notePaused)
    | (with_reducible apply State.kp_setSaf))

theorem State.kp_testPulse {r s : State} (h : r.Keeps s) : r.Keeps (State.testPulse s) := by
  unfold State.testPulse
  repeat' (first
    | with_reducible assumption
    | (intro t; (have ht : r.Keeps t := ?_); clear_value t; (try (rotate_left; unfold t)))
    | intro _
    | split
    | lift_lets
    | (with_reducible refine State.Keeps.of_fst (by assumption) ?_)
    | (with_reducible apply State.kp_resumeTests)
    | (with_reducible apply State.kp_setSaf)
    | (with_reducible apply State.kp_putBit)
    | (with_reducible apply State.kp_put))

theorem State.kp_readback {r s : State} (h : r.Keeps s) (x1 : Nat) (x2 : Nat) : r.Keeps (State.readback s x1 x2) := by
  unfold State.readback
  repeat' (first
    | with_reducible assumption
    | (intro t; (have ht : r.Keeps t := ?_); clear_value t; (try (rotate_left; unfold t)))
    | intro _
    | split
    | lift_lets
    | (with_reducible refine State.Keeps.of_fst (by assumption) ?_)
    | (with_reducible apply State.kp_put)
    | (with_reducible apply State.kp_failOut)
    | (with_reducible apply State.Keeps.foldl))

theorem State.kp_lockLengthExpire {r s : State} (h : r.Keeps s) (x1 : ChamberId) : r.Keeps (State.lockLengthExpire s x1) := by
  unfold State.lockLengthExpire
  repeat' (first
    | with_reducible assumption
    | (intro t; (have ht : r.Keeps t := ?_); clear_value t; (try (rotate_left; unfold t)))
    | intro _
    | split
    | lift_lets
    | (with_reducible refine State.Keeps.of_fst (by assumption) ?_)
    | (with_reducible apply State.kp_runTo)
    | (with_reducible apply State.kp_breach)
    | (with_reducible apply State.kp_setCh))

theorem State.kp_startLock {r s : State} (h : r.Keeps s) (x1 : ChamberId) (x2 : Nat) (x3 : LockEntry) : r.Keeps (State.startLock s x1 x2 x3) := by
  unfold State.startLock
  repeat' (first
    | with_reducible assumption
    | (intro t; (have ht : r.Keeps t := ?_); clear_value t; (try (rotate_left; unfold t)))
    | intro _
    | split
    | lift_lets
    | (with_reducible refine State.Keeps.of_fst (by assumption) ?_)
    | (with_reducible apply State.kp_lockLengthExpire)
    | (with_reducible apply State.kp_runTo)
    | (with_reducible apply State.kp_setCh))

theorem State.kp_lockStart {r s : State} (h : r.Keeps s) (x1 : Nat) : r.Keeps (State.lockStart s x1) := by
  unfold State.lockStart
  repeat' (first
    | with_reducible assumption
    | intro _
    | split
    | lift_lets
    | (with_reducible refine State.Keeps.of_fst (by assumption) ?_)
    | (with_reducible apply State.kp_startLock)
    | (with_reducible apply State.Keeps.foldl))

theorem State.kp_alignStart {r s : State} (h : r.Keeps s) (x1 : TwinRecord) : r.Keeps (State.alignStart s x1) := by
  unfold State.alignStart
  repeat' (first
    | with_reducible assumption
    | intro _
    | split
    | lift_lets
    | (with_reducible refine State.Keeps.of_fst (by assumption) ?_)
    | (with_reducible apply State.Keeps.foldl)
    | (with_reducible exact State.Keeps.later (by assumption) _)
    | (with_reducible apply State.Keeps.foldl1)
    | (with_reducible constructor <;> dsimp only <;> first | refine State.Keeps.pending ?_ | refine State.Keeps.now ?_ | refine State.Keeps.fresh ?_ | refine State.Keeps.otp ?_ | refine State.Keeps.otpWf ?_ | refine State.Keeps.basin ?_ | refine State.Keeps.sram ?_))

theorem State.kp_copyStart {r s : State} (h : r.Keeps s) (x1 : TwinRecord) : r.Keeps (State.copyStart s x1) := by
  unfold State.copyStart
  repeat' (first
    | with_reducible assumption
    | intro _
    | split
    | lift_lets
    | (with_reducible refine State.Keeps.of_fst (by assumption) ?_)
    | (with_reducible apply State.kp_setPeer))

theorem State.kp_takeRecord {r s : State} (h : r.Keeps s) (x1 : TwinRecord) (x2 : Int) : r.Keeps (State.takeRecord s x1 x2) := by
  unfold State.takeRecord
  repeat' (first
    | with_reducible assumption
    | (intro t; (have ht : r.Keeps t := ?_); clear_value t; (try (rotate_left; unfold t)))
    | intro _
    | split
    | lift_lets
    | (with_reducible refine State.Keeps.of_fst (by assumption) ?_)
    | (with_reducible apply State.kp_setPeer)
    | (with_reducible apply State.kp_put))

theorem State.kp_steerByTwin {r s : State} (h : r.Keeps s) : r.Keeps (s.steerByTwin) := by
  unfold State.steerByTwin
  dsimp only
  repeat' (first
    | with_reducible assumption
    | split
    | (with_reducible apply State.kp_reaim) | (with_reducible apply State.kp_put) | (with_reducible apply State.kp_condition) | (with_reducible apply State.kp_setSync) | (with_reducible apply State.kp_judgePhase)
    | (with_reducible constructor <;> dsimp only <;> first | refine State.Keeps.pending ?_ | refine State.Keeps.now ?_ | refine State.Keeps.fresh ?_ | refine State.Keeps.otp ?_ | refine State.Keeps.otpWf ?_ | refine State.Keeps.basin ?_ | refine State.Keeps.sram ?_))

theorem State.kp_echo {r s : State} (h : r.Keeps s) (x1 : List Byte) (x2 : Nat) : r.Keeps (State.echo s x1 x2) := by
  unfold State.echo
  repeat' (first
    | with_reducible assumption
    | (intro t; (have ht : r.Keeps t := ?_); clear_value t; (try (rotate_left; unfold t)))
    | intro _
    | split
    | lift_lets
    | (with_reducible refine State.Keeps.of_fst (by assumption) ?_)
    | (with_reducible apply State.kp_post)
    | (with_reducible apply State.kp_setPeer)
    | (with_reducible apply State.kp_put))

theorem State.kp_discrepancy {r s : State} (h : r.Keeps s) (x1 : Fin 4) : r.Keeps (State.discrepancy s x1) := by
  unfold State.discrepancy
  repeat' (first
    | with_reducible assumption
    | intro _
    | split
    | lift_lets
    | (with_reducible refine State.Keeps.of_fst (by assumption) ?_)
    | (with_reducible apply State.kp_noteEgress)
    | (with_reducible apply State.kp_setPair))

end Sys2Proof.Machine
end

