-- ==== Sys2Proof/Laws/KeepsSluice.lean ====
section
/-!
SUPPORT. State.Keeps of every function of the model: the sluice and the NAND.
-/
namespace Sys2Proof.Machine

theorem State.kp_setNand {r s : State} (h : r.Keeps s) (x1 : Nand) : r.Keeps (State.setNand s x1) := by
  unfold State.setNand
  repeat' (first
    | with_reducible assumption
    | intro _
    | split
    | lift_lets
    | (with_reducible refine State.Keeps.of_fst (by assumption) ?_)
    | (with_reducible apply State.Keeps.foldl)
    | (with_reducible exact State.Keeps.later (by assumption) _)
    | (with_reducible apply State.Keeps.foldl1)
    | (with_reducible constructor <;> dsimp only <;> first | refine State.Keeps.pending ?_ | refine State.Keeps.now ?_ | refine State.Keeps.fresh ?_ | refine State.Keeps.otp ?_ | refine State.Keeps.otpWf ?_ | refine State.Keeps.basin ?_ | refine State.Keeps.sram ?_))

theorem State.kp_statusOf {r s : State} (h : r.Keeps s) (x1 : Option Pair) (x2 : Nat) : r.Keeps (State.statusOf s x1 x2) := by
  unfold State.statusOf
  repeat' (first
    | with_reducible assumption
    | intro _
    | split
    | lift_lets
    | (with_reducible refine State.Keeps.of_fst (by assumption) ?_)
    | (with_reducible apply State.kp_status))

theorem State.kp_noteDeferral {r s : State} (h : r.Keeps s) : r.Keeps (State.noteDeferral s) := by
  unfold State.noteDeferral
  repeat' (first
    | with_reducible assumption
    | (intro t; (have ht : r.Keeps t := ?_); clear_value t; (try (rotate_left; unfold t)))
    | intro _
    | split
    | lift_lets
    | (with_reducible refine State.Keeps.of_fst (by assumption) ?_)
    | (with_reducible apply State.kp_put)
    | (with_reducible apply State.kp_condition))

theorem State.kp_issueWrite {r s : State} (h : r.Keeps s) (x1 : NJob) : r.Keeps (State.issueWrite s x1) := by
  unfold State.issueWrite
  repeat' (first
    | with_reducible assumption
    | intro _
    | split
    | lift_lets
    | (with_reducible refine State.Keeps.of_fst (by assumption) ?_)
    | (with_reducible apply State.kp_statusOf)
    | (with_reducible apply State.kp_noteDeferral)
    | (with_reducible apply State.kp_setNand))

theorem State.kp_checkpoint {r s : State} (h : r.Keeps s) (x1 : Option Pair) : r.Keeps (State.checkpoint s x1) := by
  unfold State.checkpoint
  repeat' (first
    | with_reducible assumption
    | intro _
    | split
    | lift_lets
    | (with_reducible refine State.Keeps.of_fst (by assumption) ?_)
    | (with_reducible apply State.kp_setNand)
    | (with_reducible apply State.kp_put)
    | (with_reducible apply State.kp_issueWrite))

theorem State.kp_takeLockNumber {r s : State} (h : r.Keeps s) (x1 : Snap) (x2 : Bool) (x3 : Option TwinRecord) : r.Keeps (State.takeLockNumber s x1 x2 x3) := by
  unfold State.takeLockNumber
  repeat' (first
    | with_reducible assumption
    | (intro t; (have ht : r.Keeps t := ?_); clear_value t; (try (rotate_left; unfold t)))
    | intro _
    | split
    | lift_lets
    | (with_reducible refine State.Keeps.of_fst (by assumption) ?_)
    | (with_reducible apply State.kp_put))

theorem State.kp_transfer {r s : State} (h : r.Keeps s) (x1 : Snap) : r.Keeps (State.transfer s x1) := by
  unfold State.transfer
  repeat' (first
    | with_reducible assumption
    | intro _
    | split
    | lift_lets
    | (with_reducible refine State.Keeps.of_fst (by assumption) ?_)
    | (with_reducible apply State.kp_putAct)
    | (with_reducible apply State.Keeps.foldl))

theorem State.kp_loadPrograms {r s : State} (h : r.Keeps s) (x1 : Fin 3) (x2 : Flight) : r.Keeps (State.loadPrograms s x1 x2) := by
  unfold State.loadPrograms
  repeat' (first
    | with_reducible assumption
    | intro _
    | split
    | lift_lets
    | (with_reducible refine State.Keeps.of_fst (by assumption) ?_)
    | (with_reducible apply State.kp_setCh)
    | (with_reducible apply State.Keeps.foldl))

theorem State.kp_switchTo {r s : State} (h : r.Keeps s) (x1 : Nat) : r.Keeps (State.switchTo s x1) := by
  unfold State.switchTo
  repeat' (first
    | with_reducible assumption
    | intro _
    | split
    | lift_lets
    | (with_reducible refine State.Keeps.of_fst (by assumption) ?_)
    | (with_reducible apply State.kp_put)
    | (with_reducible apply State.kp_loadPrograms)
    | (with_reducible apply State.Keeps.foldl)
    | (with_reducible exact State.Keeps.later (by assumption) _)
    | (with_reducible apply State.Keeps.foldl1)
    | (with_reducible constructor <;> dsimp only <;> first | refine State.Keeps.pending ?_ | refine State.Keeps.now ?_ | refine State.Keeps.fresh ?_ | refine State.Keeps.otp ?_ | refine State.Keeps.otpWf ?_ | refine State.Keeps.basin ?_ | refine State.Keeps.sram ?_))

theorem State.trySlot_keeps {r s t : State} (h : r.Keeps s) {k : Nat} (e : s.trySlot k = some t) : r.Keeps t := by
  unfold State.trySlot at e
  split at e
  · injection e with e; exact e ▸ h
  · split at e
    · injection e with e; exact e ▸ State.kp_switchTo h _
    · cases e

theorem State.kp_trySlot {r s d : State} (h : r.Keeps s) (k : Nat) (hd : r.Keeps d) : r.Keeps ((s.trySlot k).getD d) := by
  cases e : s.trySlot k with
  | none => exact hd
  | some t => exact State.trySlot_keeps h e

theorem State.kp_refuseSwitch {r s : State} (h : r.Keeps s) : r.Keeps (State.refuseSwitch s) := by
  unfold State.refuseSwitch
  repeat' (first
    | with_reducible assumption
    | intro _
    | split
    | lift_lets
    | (with_reducible refine State.Keeps.of_fst (by assumption) ?_)
    | (with_reducible apply State.kp_raise)
    | (with_reducible apply State.kp_flag))

theorem State.kp_noFlight {r s : State} (h : r.Keeps s) : r.Keeps (State.noFlight s) := by
  unfold State.noFlight
  repeat' (first
    | with_reducible assumption
    | intro _
    | split
    | lift_lets
    | (with_reducible refine State.Keeps.of_fst (by assumption) ?_)
    | (with_reducible apply State.kp_put)
    | (with_reducible apply State.Keeps.foldl)
    | (with_reducible exact State.Keeps.later (by assumption) _)
    | (with_reducible apply State.Keeps.foldl1)
    | (with_reducible constructor <;> dsimp only <;> first | refine State.Keeps.pending ?_ | refine State.Keeps.now ?_ | refine State.Keeps.fresh ?_ | refine State.Keeps.otp ?_ | refine State.Keeps.otpWf ?_ | refine State.Keeps.basin ?_ | refine State.Keeps.sram ?_))

theorem State.kp_leaveEgressFlight {r s : State} (h : r.Keeps s) : r.Keeps (State.leaveEgressFlight s) := by
  unfold State.leaveEgressFlight
  repeat' (first
    | with_reducible assumption
    | intro _
    | split
    | lift_lets
    | (with_reducible refine State.Keeps.of_fst (by assumption) ?_)
    | (with_reducible apply State.kp_trySlot)
    | (with_reducible apply State.kp_noFlight))

theorem State.kp_commitSlot {r s : State} (h : r.Keeps s) (x : Snap) : r.Keeps (s.commitSlot x) := by
  unfold State.commitSlot
  dsimp only
  split
  · exact State.kp_trySlot (State.kp_putAct h _ _) _ (State.kp_refuseSwitch (State.kp_putAct h _ _))
  · split
    · rename_i e
      exact State.kp_putAct (State.trySlot_keeps h e) _ _
    · exact State.kp_refuseSwitch (State.kp_leaveEgressFlight h)

theorem State.kp_switchFlight {r s : State} (h : r.Keeps s) (x1 : Snap) (x2 : Bool) (x3 : Bool) (x4 : Option TwinRecord) : r.Keeps (State.switchFlight s x1 x2 x3 x4) := by
  unfold State.switchFlight
  repeat' (first
    | with_reducible assumption
    | (intro t; (have ht : r.Keeps t := ?_); clear_value t; (try (rotate_left; unfold t)))
    | intro _
    | split
    | lift_lets
    | (with_reducible refine State.Keeps.of_fst (by assumption) ?_)
    | (with_reducible apply State.kp_putAct)
    | (with_reducible apply State.kp_trySlot)
    | (with_reducible apply State.kp_refuseSwitch)
    | (with_reducible apply State.kp_noFlight)
    | (with_reducible apply State.kp_commitSlot))

theorem State.kp_freeRetired {r s : State} (h : r.Keeps s) : r.Keeps (State.freeRetired s) := by
  unfold State.freeRetired
  repeat' (first
    | with_reducible assumption
    | intro _
    | split
    | lift_lets
    | (with_reducible refine State.Keeps.of_fst (by assumption) ?_)
    | (with_reducible apply State.kp_flag)
    | (with_reducible apply State.kp_setBerth)
    | (with_reducible apply State.Keeps.foldl))

theorem State.kp_noteMismatch {r s : State} (h : r.Keeps s) (x1 : Fin 64) : r.Keeps (State.noteMismatch s x1) := by
  unfold State.noteMismatch
  repeat' (first
    | with_reducible assumption
    | intro _
    | split
    | lift_lets
    | (with_reducible refine State.Keeps.of_fst (by assumption) ?_)
    | (with_reducible apply State.kp_setBerth))

theorem State.kp_noteMatches {r s : State} (h : r.Keeps s) : r.Keeps (State.noteMatches s) := by
  unfold State.noteMatches
  repeat' (first
    | with_reducible assumption
    | intro _
    | split
    | lift_lets
    | (with_reducible refine State.Keeps.of_fst (by assumption) ?_)
    | (with_reducible apply State.kp_setBerth)
    | (with_reducible apply State.kp_noteMismatch)
    | (with_reducible apply State.Keeps.foldl))

theorem State.kp_goLive {r s : State} (h : r.Keeps s) (x1 : Fin 64) : r.Keeps (State.goLive s x1) := by
  unfold State.goLive
  repeat' (first
    | with_reducible assumption
    | (intro t; (have ht : r.Keeps t := ?_); clear_value t; (try (rotate_left; unfold t)))
    | intro _
    | split
    | lift_lets
    | (with_reducible refine State.Keeps.of_fst (by assumption) ?_)
    | (with_reducible apply State.kp_setBerth)
    | (with_reducible apply State.kp_liveChanged))

theorem State.kp_commitBerths {r s : State} (h : r.Keeps s) : r.Keeps (State.commitBerths s) := by
  unfold State.commitBerths
  repeat' (first
    | with_reducible assumption
    | (intro t; (have ht : r.Keeps t := ?_); clear_value t; (try (rotate_left; unfold t)))
    | intro _
    | split
    | lift_lets
    | (with_reducible refine State.Keeps.of_fst (by assumption) ?_)
    | (with_reducible apply State.kp_goLive)
    | (with_reducible apply State.kp_noteMismatch)
    | (with_reducible apply State.kp_liveChanged)
    | (with_reducible apply State.kp_setBerth)
    | (with_reducible apply State.Keeps.foldl))

theorem State.kp_tellMismatch {r s : State} (h : r.Keeps s) (x1 : State) : r.Keeps (State.tellMismatch s x1) := by
  unfold State.tellMismatch
  repeat' (first
    | with_reducible assumption
    | intro _
    | split
    | lift_lets
    | (with_reducible refine State.Keeps.of_fst (by assumption) ?_)
    | (with_reducible apply State.kp_raise))

theorem State.kp_berthsAtSluice {r s : State} (h : r.Keeps s) (x1 : Bool) : r.Keeps (State.berthsAtSluice s x1) := by
  unfold State.berthsAtSluice
  repeat' (first
    | with_reducible assumption
    | (intro t; (have ht : r.Keeps t := ?_); clear_value t; (try (rotate_left; unfold t)))
    | intro _
    | split
    | lift_lets
    | (with_reducible refine State.Keeps.of_fst (by assumption) ?_)
    | (with_reducible apply State.kp_freeRetired)
    | (with_reducible apply State.kp_noteMatches)
    | (with_reducible apply State.kp_commitBerths)
    | (with_reducible apply State.kp_resolveLayers)
    | (with_reducible apply State.kp_tellMismatch))

theorem State.kp_judgeRelax {r s : State} (h : r.Keeps s) : r.Keeps (State.judgeRelax s) := by
  unfold State.judgeRelax
  repeat' (first
    | with_reducible assumption
    | intro _
    | split
    | lift_lets
    | (with_reducible refine State.Keeps.of_fst (by assumption) ?_)
    | (with_reducible apply State.Keeps.foldl)
    | (with_reducible exact State.Keeps.later (by assumption) _)
    | (with_reducible apply State.Keeps.foldl1)
    | (with_reducible constructor <;> dsimp only <;> first | refine State.Keeps.pending ?_ | refine State.Keeps.now ?_ | refine State.Keeps.fresh ?_ | refine State.Keeps.otp ?_ | refine State.Keeps.otpWf ?_ | refine State.Keeps.basin ?_ | refine State.Keeps.sram ?_))

theorem State.kp_stepReset {r s : State} (h : r.Keeps s) (x1 : ReachId) : r.Keeps (State.stepReset s x1) := by
  unfold State.stepReset
  repeat' (first
    | with_reducible assumption
    | (intro t; (have ht : r.Keeps t := ?_); clear_value t; (try (rotate_left; unfold t)))
    | intro _
    | split
    | lift_lets
    | (with_reducible refine State.Keeps.of_fst (by assumption) ?_)
    | (with_reducible apply State.kp_setReach)
    | (with_reducible apply State.kp_putBit))

theorem State.kp_swapReach {r s : State} (h : r.Keeps s) (x1 : SluiceWork) (x2 : ReachId) : r.Keeps (State.swapReach s x1 x2) := by
  unfold State.swapReach
  repeat' (first
    | with_reducible assumption
    | intro _
    | split
    | lift_lets
    | (with_reducible refine State.Keeps.of_fst (by assumption) ?_)
    | (with_reducible apply State.kp_putBit)
    | (with_reducible apply State.kp_setReach)
    | (with_reducible apply State.kp_raise)
    | (with_reducible apply State.kp_inc))

theorem State.kp_swapBanks {r s : State} (h : r.Keeps s) (x1 : SluiceWork) : r.Keeps (State.swapBanks s x1) := by
  unfold State.swapBanks
  repeat' (first
    | with_reducible assumption
    | (intro t; (have ht : r.Keeps t := ?_); clear_value t; (try (rotate_left; unfold t)))
    | intro _
    | split
    | lift_lets
    | (with_reducible refine State.Keeps.of_fst (by assumption) ?_)
    | (with_reducible apply State.kp_stepReset)
    | (with_reducible apply State.kp_put)
    | (with_reducible apply State.kp_noteSweepDone)
    | (with_reducible apply State.kp_calStartup)
    | (with_reducible apply State.kp_swapReach)
    | (with_reducible apply State.Keeps.foldl))

theorem State.kp_heldCommands {r s : State} (h : r.Keeps s) : r.Keeps (State.heldCommands s) := by
  unfold State.heldCommands
  repeat' (first
    | with_reducible assumption
    | intro _
    | split
    | lift_lets
    | (with_reducible refine State.Keeps.of_fst (by assumption) ?_)
    | (with_reducible apply State.kp_applyBerthCmd)
    | (with_reducible apply State.Keeps.foldl)
    | (with_reducible exact State.Keeps.later (by assumption) _)
    | (with_reducible apply State.Keeps.foldl1)
    | (with_reducible constructor <;> dsimp only <;> first | refine State.Keeps.pending ?_ | refine State.Keeps.now ?_ | refine State.Keeps.fresh ?_ | refine State.Keeps.otp ?_ | refine State.Keeps.otpWf ?_ | refine State.Keeps.basin ?_ | refine State.Keeps.sram ?_))

theorem State.kp_sluiceCommit {r s : State} (h : r.Keeps s) (x1 : SluiceWork) (x2 : Snap) (x3 : Option TwinRecord) : r.Keeps (State.sluiceCommit s x1 x2 x3).1 := by
  unfold State.sluiceCommit
  repeat' (first
    | with_reducible assumption
    | (intro t; (have ht : r.Keeps t := ?_); clear_value t; (try (rotate_left; unfold t)))
    | intro _
    | split
    | lift_lets
    | (with_reducible refine State.Keeps.of_fst (by assumption) ?_)
    | (with_reducible apply State.kp_put)
    | (with_reducible apply State.kp_takeLockNumber)
    | (with_reducible apply State.kp_transfer)
    | (with_reducible apply State.kp_switchFlight)
    | (with_reducible apply State.kp_berthsAtSluice)
    | (with_reducible apply State.kp_judgeRelax)
    | (with_reducible apply State.kp_noteLayers)
    | (with_reducible apply State.kp_stage)
    | (with_reducible apply State.kp_loseTwinLock)
    | (with_reducible apply State.kp_sendRecord)
    | (with_reducible apply State.kp_takeRole)
    | (with_reducible apply State.kp_sendSeal)
    | (with_reducible apply State.kp_sendSluiceMap)
    | (with_reducible apply State.kp_echoRequest)
    | (with_reducible apply State.kp_sendFcrc)
    | (with_reducible apply State.kp_ledgerGroup)
    | (with_reducible apply State.kp_swapBanks)
    | (with_reducible apply State.kp_bandsAtSluice)
    | (with_reducible apply State.kp_budgetAtSluice)
    | (with_reducible apply State.kp_calInstall)
    | (with_reducible apply State.kp_heldCommands))

theorem State.kp_activateMap {r s : State} (h : r.Keeps s) (x1 : SluiceWork) : r.Keeps (State.activateMap s x1) := by
  unfold State.activateMap
  repeat' (first
    | with_reducible assumption
    | (intro t; (have ht : r.Keeps t := ?_); clear_value t; (try (rotate_left; unfold t)))
    | intro _
    | split
    | lift_lets
    | (with_reducible refine State.Keeps.of_fst (by assumption) ?_)
    | (with_reducible apply State.kp_put)
    | (with_reducible apply State.kp_inc)
    | (with_reducible apply State.kp_setPeer)
    | (with_reducible apply State.kp_raise)
    | (with_reducible apply State.Keeps.foldl)
    | (with_reducible exact State.Keeps.later (by assumption) _)
    | (with_reducible apply State.Keeps.foldl1)
    | (with_reducible constructor <;> dsimp only <;> first | refine State.Keeps.pending ?_ | refine State.Keeps.now ?_ | refine State.Keeps.fresh ?_ | refine State.Keeps.otp ?_ | refine State.Keeps.otpWf ?_ | refine State.Keeps.basin ?_ | refine State.Keeps.sram ?_))

theorem State.kp_noteDual {r s : State} (h : r.Keeps s) : r.Keeps (State.noteDual s) := by
  unfold State.noteDual
  repeat' (first
    | with_reducible assumption
    | intro _
    | split
    | lift_lets
    | (with_reducible refine State.Keeps.of_fst (by assumption) ?_)
    | (with_reducible apply State.kp_condition)
    | (with_reducible apply State.kp_put))

theorem State.kp_sluiceEvents {r s : State} (h : r.Keeps s) (x1 : Bool) : r.Keeps (State.sluiceEvents s x1) := by
  unfold State.sluiceEvents
  repeat' (first
    | with_reducible assumption
    | (intro t; (have ht : r.Keeps t := ?_); clear_value t; (try (rotate_left; unfold t)))
    | intro _
    | split
    | lift_lets
    | (with_reducible refine State.Keeps.of_fst (by assumption) ?_)
    | (with_reducible apply State.kp_flag)
    | (with_reducible apply State.Keeps.foldl)
    | (with_reducible exact State.Keeps.later (by assumption) _)
    | (with_reducible apply State.Keeps.foldl1)
    | (with_reducible constructor <;> dsimp only <;> first | refine State.Keeps.pending ?_ | refine State.Keeps.now ?_ | refine State.Keeps.fresh ?_ | refine State.Keeps.otp ?_ | refine State.Keeps.otpWf ?_ | refine State.Keeps.basin ?_ | refine State.Keeps.sram ?_))

theorem State.kp_sluiceLight {r s : State} (h : r.Keeps s) (x1 : SluiceWork) : r.Keeps (State.sluiceLight s x1) := by
  unfold State.sluiceLight
  repeat' (first
    | with_reducible assumption
    | (intro t; (have ht : r.Keeps t := ?_); clear_value t; (try (rotate_left; unfold t)))
    | intro _
    | split
    | lift_lets
    | (with_reducible refine State.Keeps.of_fst (by assumption) ?_)
    | (with_reducible apply State.kp_safetySluice)
    | (with_reducible apply State.kp_activateMap)
    | (with_reducible apply State.kp_weirStep)
    | (with_reducible apply State.kp_noteDual)
    | (with_reducible apply State.kp_noteAligned)
    | (with_reducible apply State.kp_setPeer)
    | (with_reducible apply State.kp_sluiceEvents))

theorem State.kp_sluiceGoesOn {r s : State} (h : r.Keeps s) (x1 : SluiceWork) (x2 : Bool) : r.Keeps (State.sluiceGoesOn s x1 x2) := by
  unfold State.sluiceGoesOn
  repeat' (first
    | with_reducible assumption
    | intro _
    | split
    | lift_lets
    | (with_reducible refine State.Keeps.of_fst (by assumption) ?_)
    | (with_reducible apply State.kp_setPeer)
    | (with_reducible apply State.kp_sluiceCommit)
    | (with_reducible apply State.kp_sluiceLight)
    | (with_reducible apply State.Keeps.foldl)
    | (with_reducible exact State.Keeps.later (by assumption) _)
    | (with_reducible apply State.Keeps.foldl1)
    | (with_reducible constructor <;> dsimp only <;> first | refine State.Keeps.pending ?_ | refine State.Keeps.now ?_ | refine State.Keeps.fresh ?_ | refine State.Keeps.otp ?_ | refine State.Keeps.otpWf ?_ | refine State.Keeps.basin ?_ | refine State.Keeps.sram ?_))

theorem State.kp_sluiceResume {r s : State} (h : r.Keeps s) : r.Keeps (State.sluiceResume s) := by
  unfold State.sluiceResume
  repeat' (first
    | with_reducible assumption
    | intro _
    | split
    | lift_lets
    | (with_reducible refine State.Keeps.of_fst (by assumption) ?_)
    | (with_reducible apply State.kp_sluiceGoesOn))

theorem State.kp_sluiceForce {r s : State} (h : r.Keeps s) : r.Keeps (State.sluiceForce s) := by
  unfold State.sluiceForce
  repeat' (first
    | with_reducible assumption
    | intro _
    | split
    | lift_lets
    | (with_reducible refine State.Keeps.of_fst (by assumption) ?_)
    | (with_reducible apply State.kp_sluiceGoesOn))

theorem State.kp_rollFaults {r s : State} (h : r.Keeps s) : r.Keeps (State.rollFaults s) := by
  unfold State.rollFaults
  repeat' (first
    | with_reducible assumption
    | (intro t; (have ht : r.Keeps t := ?_); clear_value t; (try (rotate_left; unfold t)))
    | intro _
    | split
    | lift_lets
    | (with_reducible refine State.Keeps.of_fst (by assumption) ?_)
    | (with_reducible apply State.kp_setLive)
    | (with_reducible apply State.Keeps.foldl)
    | (with_reducible exact State.Keeps.later (by assumption) _)
    | (with_reducible apply State.Keeps.foldl1)
    | (with_reducible constructor <;> dsimp only <;> first | refine State.Keeps.pending ?_ | refine State.Keeps.now ?_ | refine State.Keeps.fresh ?_ | refine State.Keeps.otp ?_ | refine State.Keeps.otpWf ?_ | refine State.Keeps.basin ?_ | refine State.Keeps.sram ?_))

theorem State.kp_marginCheck {r s : State} (h : r.Keeps s) : r.Keeps (State.marginCheck s) := by
  unfold State.marginCheck
  repeat' (first
    | with_reducible assumption
    | intro _
    | split
    | lift_lets
    | (with_reducible refine State.Keeps.of_fst (by assumption) ?_)
    | (with_reducible apply State.kp_breachAt)
    | (with_reducible apply State.Keeps.foldl))

theorem State.kp_closeReports {r s : State} (h : r.Keeps s) : r.Keeps (State.closeReports s) := by
  unfold State.closeReports
  repeat' (first
    | with_reducible assumption
    | (intro t; (have ht : r.Keeps t := ?_); clear_value t; (try (rotate_left; unfold t)))
    | intro _
    | split
    | lift_lets
    | (with_reducible refine State.Keeps.of_fst (by assumption) ?_)
    | (with_reducible apply State.kp_put)
    | (with_reducible apply State.Keeps.foldl)
    | (with_reducible exact State.Keeps.later (by assumption) _)
    | (with_reducible apply State.Keeps.foldl1)
    | (with_reducible constructor <;> dsimp only <;> first | refine State.Keeps.pending ?_ | refine State.Keeps.now ?_ | refine State.Keeps.fresh ?_ | refine State.Keeps.otp ?_ | refine State.Keeps.otpWf ?_ | refine State.Keeps.basin ?_ | refine State.Keeps.sram ?_))

theorem State.kp_closeCycle {r s : State} (h : r.Keeps s) (x1 : List ReachCurrent) : r.Keeps (State.closeCycle s x1) := by
  unfold State.closeCycle
  repeat' (first
    | with_reducible assumption
    | (intro t; (have ht : r.Keeps t := ?_); clear_value t; (try (rotate_left; unfold t)))
    | intro _
    | split
    | lift_lets
    | (with_reducible refine State.Keeps.of_fst (by assumption) ?_)
    | (with_reducible apply State.kp_chkSluice)
    | (with_reducible apply State.kp_closeFormat)
    | (with_reducible apply State.kp_marginCheck)
    | (with_reducible apply State.kp_frameCrcs)
    | (with_reducible apply State.kp_setPeer)
    | (with_reducible apply State.kp_closeReports)
    | (with_reducible apply State.kp_weirCheck)
    | (with_reducible apply State.kp_takeHeat))

theorem State.kp_clearPorts {r s : State} (h : r.Keeps s) : r.Keeps (State.clearPorts s) := by
  unfold State.clearPorts
  repeat' (first
    | with_reducible assumption
    | intro _
    | split
    | lift_lets
    | (with_reducible refine State.Keeps.of_fst (by assumption) ?_)
    | (with_reducible apply State.kp_setReach)
    | (with_reducible apply State.Keeps.foldl))

theorem State.kp_clearChambers {r s : State} (h : r.Keeps s) : r.Keeps (State.clearChambers s) := by
  unfold State.clearChambers
  repeat' (first
    | with_reducible assumption
    | (intro t; (have ht : r.Keeps t := ?_); clear_value t; (try (rotate_left; unfold t)))
    | intro _
    | split
    | lift_lets
    | (with_reducible refine State.Keeps.of_fst (by assumption) ?_)
    | (with_reducible apply State.kp_setCh)
    | (with_reducible apply State.Keeps.foldl)
    | (with_reducible exact State.Keeps.later (by assumption) _)
    | (with_reducible apply State.Keeps.foldl1)
    | (with_reducible constructor <;> dsimp only <;> first | refine State.Keeps.pending ?_ | refine State.Keeps.now ?_ | refine State.Keeps.fresh ?_ | refine State.Keeps.otp ?_ | refine State.Keeps.otpWf ?_ | refine State.Keeps.basin ?_ | refine State.Keeps.sram ?_))

theorem State.kp_dusk {r s : State} (h : r.Keeps s) (x1 : Bool) : r.Keeps (State.dusk s x1) := by
  unfold State.dusk
  repeat' (first
    | with_reducible assumption
    | intro _
    | split
    | lift_lets
    | (with_reducible refine State.Keeps.of_fst (by assumption) ?_)
    | (with_reducible apply State.Keeps.foldl)
    | (with_reducible exact State.Keeps.later (by assumption) _)
    | (with_reducible apply State.Keeps.foldl1)
    | (with_reducible constructor <;> dsimp only <;> first | refine State.Keeps.pending ?_ | refine State.Keeps.now ?_ | refine State.Keeps.fresh ?_ | refine State.Keeps.otp ?_ | refine State.Keeps.otpWf ?_ | refine State.Keeps.basin ?_ | refine State.Keeps.sram ?_))

theorem State.kp_stopHere {r s : State} (h : r.Keeps s) : r.Keeps (State.stopHere s) := by
  unfold State.stopHere
  repeat' (first
    | with_reducible assumption
    | (intro t; (have ht : r.Keeps t := ?_); clear_value t; (try (rotate_left; unfold t)))
    | intro _
    | split
    | lift_lets
    | (with_reducible refine State.Keeps.of_fst (by assumption) ?_)
    | (with_reducible apply State.kp_put)
    | (with_reducible apply State.kp_condition)
    | (with_reducible apply State.kp_setSync)
    | (with_reducible apply State.Keeps.foldl)
    | (with_reducible exact State.Keeps.later (by assumption) _)
    | (with_reducible apply State.Keeps.foldl1)
    | (with_reducible constructor <;> dsimp only <;> first | refine State.Keeps.pending ?_ | refine State.Keeps.now ?_ | refine State.Keeps.fresh ?_ | refine State.Keeps.otp ?_ | refine State.Keeps.otpWf ?_ | refine State.Keeps.basin ?_ | refine State.Keeps.sram ?_))

theorem State.kp_opened {r s : State} (h : r.Keeps s) (a b c : Nat) :
    r.Keeps { s with seq := { s.seq with sluices := a, sluiceTime := b, opened := c, next := none, first := false, recent := [] } } :=
  ⟨h.pending, h.now, h.fresh, h.otp, h.otpWf, h.basin, h.sram⟩

theorem State.kp_openFirst {r s : State} (h : r.Keeps s) (first : Bool) :
    r.Keeps (if first && s.seq.state == .stopped then s.setSync (if s.seq.target.isSome then .locked else .free) else s) := by
  split
  · exact State.kp_setSync h _
  · exact h

theorem State.kp_openPend {r s : State} (h : r.Keeps s) (t : Nat) :
    r.Keeps (match s.seq.pend with
      | some g => State.judgePhase { s with seq := { s.seq with pend := none } } ((t : Int) - g)
      | none => s) := by
  split
  · apply State.kp_judgePhase
    exact ⟨h.pending, h.now, h.fresh, h.otp, h.otpWf, h.basin, h.sram⟩
  · exact h

theorem State.kp_openHold {r s : State} (h : r.Keeps s) :
    r.Keeps (if s.seq.state = .holdover then { s with seq := { s.seq with holdLcs := s.seq.holdLcs + 1 } } else s) := by
  split
  · exact ⟨h.pending, h.now, h.fresh, h.otp, h.otpWf, h.basin, h.sram⟩
  · exact h

theorem State.kp_openEnd {r s : State} (h : r.Keeps s) (stopping : Bool) : r.Keeps (if stopping then s.stopHere else s.aim) := by
  split
  · exact State.kp_stopHere h
  · exact State.kp_aim h

theorem State.kp_openCycle {r s : State} (h : r.Keeps s) (t : Nat) (first stopping : Bool) : r.Keeps (s.openCycle t first stopping) :=
  State.kp_openEnd (State.kp_openHold (State.kp_openPend (State.kp_openFirst (State.kp_opened (State.kp_dusk h _) _ _ _) first) t)) stopping

theorem State.kp_sluiceTick {r s : State} (h : r.Keeps s) (x1 : Nat) (x2 : List (Prod Nat Ecc)) (x3 : List ReachCurrent) : r.Keeps (State.sluiceTick s x1 x2 x3).1 := by
  unfold State.sluiceTick
  repeat' (first
    | with_reducible assumption
    | (intro t; (have ht : r.Keeps t := ?_); clear_value t; (try (rotate_left; unfold t)))
    | intro _
    | split
    | lift_lets
    | (with_reducible refine State.Keeps.of_fst (by assumption) ?_)
    | (with_reducible apply State.kp_takeLocalMap)
    | (with_reducible apply State.kp_degradeAtSluice)
    | (with_reducible apply State.kp_rollFaults)
    | (with_reducible apply State.kp_resyncAtSluice)
    | (with_reducible apply State.kp_forgetTwin)
    | (with_reducible apply State.kp_judgeTwin)
    | (with_reducible apply State.kp_setThm)
    | (with_reducible apply State.kp_closeCycle)
    | (with_reducible apply State.kp_mapSpares)
    | (with_reducible apply State.kp_clearPorts)
    | (with_reducible apply State.kp_clearChambers)
    | (with_reducible apply State.kp_openDiag)
    | (with_reducible apply State.kp_latchFences)
    | (with_reducible apply State.kp_openCycle)
    | (with_reducible apply State.kp_egressAtSluice)
    | (with_reducible apply State.kp_put)
    | (with_reducible apply State.kp_calJudge)
    | (with_reducible apply State.kp_calStart)
    | (with_reducible apply State.Keeps.foldl)
    | (with_reducible exact State.Keeps.later (by assumption) _)
    | (with_reducible apply State.Keeps.foldl1)
    | (with_reducible constructor <;> dsimp only <;> first | refine State.Keeps.pending ?_ | refine State.Keeps.now ?_ | refine State.Keeps.fresh ?_ | refine State.Keeps.otp ?_ | refine State.Keeps.otpWf ?_ | refine State.Keeps.basin ?_ | refine State.Keeps.sram ?_))

theorem State.kp_sluice {r s : State} (h : r.Keeps s) (x1 : List (Prod Nat Ecc)) (x2 : List ReachCurrent) : r.Keeps (State.sluice s x1 x2) := by
  unfold State.sluice
  repeat' (first
    | with_reducible assumption
    | (intro t; (have ht : r.Keeps t := ?_); clear_value t; (try (rotate_left; unfold t)))
    | intro _
    | split
    | lift_lets
    | (with_reducible refine State.Keeps.of_fst (by assumption) ?_)
    | (with_reducible apply State.kp_sluiceForce)
    | (with_reducible apply State.kp_sluiceTick)
    | (with_reducible apply State.kp_sluiceGoesOn))

theorem State.kp_localMapSend {r s : State} (h : r.Keeps s) : r.Keeps (State.localMapSend s) := by
  unfold State.localMapSend
  repeat' (first
    | with_reducible assumption
    | intro _
    | split
    | lift_lets
    | (with_reducible refine State.Keeps.of_fst (by assumption) ?_)
    | (with_reducible apply State.kp_sendMapChanges))

theorem State.kp_answerWaiting {r s : State} (h : r.Keeps s) (x1 : Nat) : r.Keeps (State.answerWaiting s x1) := by
  unfold State.answerWaiting
  repeat' (first
    | with_reducible assumption
    | intro _
    | split
    | lift_lets
    | (with_reducible refine State.Keeps.of_fst (by assumption) ?_)
    | (with_reducible apply State.kp_status)
    | (with_reducible apply State.kp_setNand)
    | (with_reducible apply State.Keeps.foldl))

theorem State.kp_attachBackup {r s : State} (h : r.Keeps s) : r.Keeps (State.attachBackup s) := by
  unfold State.attachBackup
  repeat' (first
    | with_reducible assumption
    | (intro t; (have ht : r.Keeps t := ?_); clear_value t; (try (rotate_left; unfold t)))
    | intro _
    | split
    | lift_lets
    | (with_reducible refine State.Keeps.of_fst (by assumption) ?_)
    | (with_reducible apply State.kp_answerWaiting)
    | (with_reducible apply State.kp_setNand)
    | (with_reducible apply State.kp_issueWrite))

theorem State.kp_nandError {r s : State} (h : r.Keeps s) (x1 : Nat) (x2 : Nat) (x3 : Nat) : r.Keeps (State.nandError s x1 x2 x3) := by
  unfold State.nandError
  repeat' (first
    | with_reducible assumption
    | (intro t; (have ht : r.Keeps t := ?_); clear_value t; (try (rotate_left; unfold t)))
    | intro _
    | split
    | lift_lets
    | (with_reducible refine State.Keeps.of_fst (by assumption) ?_)
    | (with_reducible apply State.kp_put)
    | (with_reducible apply State.kp_flag))

theorem State.kp_giveUp {r s : State} (h : r.Keeps s) (x1 : NJob) : r.Keeps (State.giveUp s x1) := by
  unfold State.giveUp
  repeat' (first
    | with_reducible assumption
    | (intro t; (have ht : r.Keeps t := ?_); clear_value t; (try (rotate_left; unfold t)))
    | intro _
    | split
    | lift_lets
    | (with_reducible refine State.Keeps.of_fst (by assumption) ?_)
    | (with_reducible apply State.kp_setNand)
    | (with_reducible apply State.kp_statusOf)
    | (with_reducible apply State.kp_put)
    | (with_reducible apply State.kp_answerWaiting))

theorem State.kp_noteCheckpoint {r s : State} (h : r.Keeps s) : r.Keeps (State.noteCheckpoint s) := by
  unfold State.noteCheckpoint
  repeat' (first
    | with_reducible assumption
    | intro _
    | split
    | lift_lets
    | (with_reducible refine State.Keeps.of_fst (by assumption) ?_)
    | (with_reducible apply State.kp_put))

theorem State.kp_nandTimeout {r s : State} (h : r.Keeps s) : r.Keeps (s.nandTimeout) := by
  unfold State.nandTimeout
  dsimp only
  repeat' (first
    | with_reducible assumption
    | split
    | (with_reducible apply State.kp_setNand) | (with_reducible apply State.kp_raise) | (with_reducible apply State.kp_giveUp) | (with_reducible apply State.kp_noteCheckpoint) | (with_reducible apply State.kp_nandError))

theorem State.kp_writeFile {r s : State} (h : r.Keeps s) (x1 : Nat) (x2 : Nat) (x3 : Blob) (x4 : Option Pair) : r.Keeps (State.writeFile s x1 x2 x3 x4) := by
  unfold State.writeFile
  repeat' (first
    | with_reducible assumption
    | (intro t; (have ht : r.Keeps t := ?_); clear_value t; (try (rotate_left; unfold t)))
    | intro _
    | split
    | lift_lets
    | (with_reducible refine State.Keeps.of_fst (by assumption) ?_)
    | (with_reducible apply State.kp_issueWrite)
    | (with_reducible apply State.kp_noteDeferral)
    | (with_reducible apply State.kp_setNand))

theorem State.kp_takeBlock {r s : State} (h : r.Keeps s) (x1 : NJob) (x2 : Nat) : r.Keeps (State.takeBlock s x1 x2).1 := by
  unfold State.takeBlock
  repeat' (first
    | with_reducible assumption
    | intro _
    | split
    | lift_lets
    | (with_reducible refine State.Keeps.of_fst (by assumption) ?_)
    | (with_reducible apply State.kp_setNand))

theorem State.kp_noteBlocks {r s : State} (h : r.Keeps s) : r.Keeps (State.noteBlocks s) := by
  unfold State.noteBlocks
  repeat' (first
    | with_reducible assumption
    | (intro t; (have ht : r.Keeps t := ?_); clear_value t; (try (rotate_left; unfold t)))
    | intro _
    | split
    | lift_lets
    | (with_reducible refine State.Keeps.of_fst (by assumption) ?_)
    | (with_reducible apply State.kp_put)
    | (with_reducible apply State.kp_flag)
    | (with_reducible apply State.kp_condition))

theorem State.kp_journalPage {r s : State} (h : r.Keeps s) (x1 : List JRecord) : r.Keeps (State.journalPage s x1) := by
  unfold State.journalPage
  repeat' (first
    | with_reducible assumption
    | intro _
    | split
    | lift_lets
    | (with_reducible refine State.Keeps.of_fst (by assumption) ?_)
    | (with_reducible apply State.kp_setNand))

theorem State.kp_noteCkptAge {r s : State} (h : r.Keeps s) : r.Keeps (State.noteCkptAge s) := by
  unfold State.noteCkptAge
  repeat' (first
    | with_reducible assumption
    | intro _
    | split
    | lift_lets
    | (with_reducible refine State.Keeps.of_fst (by assumption) ?_)
    | (with_reducible apply State.kp_put))

theorem State.kp_finishJob {r s : State} (h : r.Keeps s) (x1 : NJob) : r.Keeps (State.finishJob s x1) := by
  unfold State.finishJob
  repeat' (first
    | with_reducible assumption
    | (intro t; (have ht : r.Keeps t := ?_); clear_value t; (try (rotate_left; unfold t)))
    | intro _
    | split
    | lift_lets
    | (with_reducible refine State.Keeps.of_fst (by assumption) ?_)
    | (with_reducible apply State.kp_setNand)
    | (with_reducible apply State.kp_statusOf)
    | (with_reducible apply State.kp_warmReset)
    | (with_reducible apply State.kp_put)
    | (with_reducible apply State.kp_noteCkptAge)
    | (with_reducible apply State.kp_flag)
    | (with_reducible apply State.kp_attachBackup)
    | (with_reducible apply State.kp_answerWaiting)
    | (with_reducible apply State.kp_inc))

theorem State.kp_commitJob {r s : State} (h : r.Keeps s) (x1 : NJob) : r.Keeps (State.commitJob s x1) := by
  unfold State.commitJob
  repeat' (first
    | with_reducible assumption
    | (intro t; (have ht : r.Keeps t := ?_); clear_value t; (try (rotate_left; unfold t)))
    | intro _
    | split
    | lift_lets
    | (with_reducible refine State.Keeps.of_fst (by assumption) ?_)
    | (with_reducible apply State.kp_journalPage)
    | (with_reducible apply State.kp_setNand)
    | (with_reducible apply State.kp_finishJob))

theorem State.kp_programPage {r s : State} (h : r.Keeps s) (x1 : NJob) : r.Keeps (State.programPage s x1) := by
  unfold State.programPage
  repeat' (first
    | with_reducible assumption
    | intro _
    | split
    | lift_lets
    | (with_reducible refine State.Keeps.of_fst (by assumption) ?_)
    | (with_reducible apply State.kp_setNand))

theorem State.kp_pageOn {r s : State} (h : r.Keeps s) (j : NJob) (rest : List NJob) :
    r.Keeps (if j.page + 1 = j.pages then s.commitJob j
      else State.setNand (s.programPage j) { (s.programPage j).nand with jobs := { j with page := j.page + 1 } :: rest }) := by
  split
  · exact State.kp_commitJob h _
  · exact State.kp_setNand (State.kp_programPage h _) _

theorem State.kp_pageDone {r s : State} (h : r.Keeps s) (j : NJob) (rest : List NJob) : r.Keeps (s.pageDone j rest) :=
  State.kp_pageOn h _ rest

theorem State.kp_retireBlock {r s : State} (h : r.Keeps s) (x1 : Nat) : r.Keeps (State.retireBlock s x1) := by
  unfold State.retireBlock
  repeat' (first
    | with_reducible assumption
    | intro _
    | split
    | lift_lets
    | (with_reducible refine State.Keeps.of_fst (by assumption) ?_)
    | (with_reducible apply State.kp_raise)
    | (with_reducible apply State.kp_flag)
    | (with_reducible apply State.kp_inc)
    | (with_reducible apply State.kp_setNand))

theorem State.kp_pageFailed {r s : State} (h : r.Keeps s) (x1 : NJob) (x2 : List NJob) : r.Keeps (State.pageFailed s x1 x2) := by
  unfold State.pageFailed
  repeat' (first
    | with_reducible assumption
    | (intro t; (have ht : r.Keeps t := ?_); clear_value t; (try (rotate_left; unfold t)))
    | intro _
    | split
    | lift_lets
    | (with_reducible refine State.Keeps.of_fst (by assumption) ?_)
    | (with_reducible apply State.kp_raise)
    | (with_reducible apply State.kp_nandError)
    | (with_reducible apply State.kp_setNand)
    | (with_reducible apply State.kp_retireBlock))

theorem State.kp_paged {r s : State} (h : r.Keeps s) (ok : Bool) (j : NJob) (rest : List NJob) :
    r.Keeps (if ok then s.pageDone j rest else s.pageFailed j rest).noteBlocks := by
  apply State.kp_noteBlocks
  split
  · exact State.kp_pageDone h _ _
  · exact State.kp_pageFailed h _ _

theorem State.kp_programDone {r s : State} (h : r.Keeps s) (ok : Bool) : r.Keeps (s.programDone ok) := by
  unfold State.programDone
  split
  · exact h
  · split
    · split
      · exact State.kp_paged (State.kp_takeBlock h _ _) _ _ _
      · exact State.kp_noteBlocks (State.kp_giveUp h _)
    · exact State.kp_paged h _ _ _

theorem State.kp_fromTwin {r s : State} (h : r.Keeps s) (x1 : RxPacket) (x2 : Nat) (x3 : Nat) (x4 : Bool) (x5 : State → List Byte → State) (h5 : ∀ (a0 : State) (a1 : List Byte), r.Keeps a0 → r.Keeps (x5 a0 a1)) : r.Keeps (State.fromTwin s x1 x2 x3 x4 x5) := by
  unfold State.fromTwin
  repeat' (first
    | with_reducible assumption
    | intro _
    | split
    | lift_lets
    | (with_reducible refine State.Keeps.of_fst (by assumption) ?_)
    | (with_reducible apply State.kp_receive)
    | apply h5)

theorem State.kp_rxXctl {r s : State} (h : r.Keeps s) (x1 : RxPacket) : r.Keeps (State.rxXctl s x1) := by
  unfold State.rxXctl
  repeat' (first
    | with_reducible assumption
    | intro _
    | split
    | lift_lets
    | (with_reducible refine State.Keeps.of_fst (by assumption) ?_)
    | (with_reducible apply State.kp_fromTwin)
    | (with_reducible apply State.kp_takeXctl))

theorem State.kp_rxXfer {r s : State} (h : r.Keeps s) (x1 : RxPacket) (x2 : Nat) : r.Keeps (State.rxXfer s x1 x2) := by
  unfold State.rxXfer
  repeat' (first
    | with_reducible assumption
    | intro _
    | split
    | lift_lets
    | (with_reducible refine State.Keeps.of_fst (by assumption) ?_)
    | (with_reducible apply State.kp_fromTwin)
    | (with_reducible apply State.kp_takeXfer))

theorem State.kp_resumeDeferred {r s : State} (h : r.Keeps s) : r.Keeps (State.resumeDeferred s) := by
  unfold State.resumeDeferred
  repeat' (first
    | with_reducible assumption
    | intro _
    | split
    | lift_lets
    | (with_reducible refine State.Keeps.of_fst (by assumption) ?_)
    | (with_reducible apply State.kp_noteDeferral)
    | (with_reducible apply State.kp_noteCheckpoint)
    | (with_reducible apply State.kp_setNand))

theorem State.kp_rxFcrc {r s : State} (h : r.Keeps s) (x1 : RxPacket) : r.Keeps (State.rxFcrc s x1) := by
  unfold State.rxFcrc
  repeat' (first
    | with_reducible assumption
    | (intro t; (have ht : r.Keeps t := ?_); clear_value t; (try (rotate_left; unfold t)))
    | intro _
    | split
    | lift_lets
    | (with_reducible refine State.Keeps.of_fst (by assumption) ?_)
    | (with_reducible apply State.kp_fromTwin)
    | (with_reducible apply State.kp_setPeer)
    | (with_reducible apply State.kp_compareFrames))

theorem State.kp_eraseDone {r s : State} (h : r.Keeps s) (x1 : Bool) : r.Keeps (State.eraseDone s x1) := by
  unfold State.eraseDone
  repeat' (first
    | with_reducible assumption
    | (intro t; (have ht : r.Keeps t := ?_); clear_value t; (try (rotate_left; unfold t)))
    | intro _
    | split
    | lift_lets
    | (with_reducible refine State.Keeps.of_fst (by assumption) ?_)
    | (with_reducible apply State.kp_setNand)
    | (with_reducible apply State.kp_retireBlock)
    | (with_reducible apply State.kp_raise)
    | (with_reducible apply State.kp_nandError)
    | (with_reducible apply State.kp_noteBlocks))

theorem State.kp_passDone {r s : State} (h : r.Keeps s) : r.Keeps (State.passDone s) := by
  unfold State.passDone
  repeat' (first
    | with_reducible assumption
    | intro _
    | split
    | lift_lets
    | (with_reducible refine State.Keeps.of_fst (by assumption) ?_)
    | (with_reducible apply State.kp_put)
    | (with_reducible apply State.kp_flag)
    | (with_reducible apply State.kp_incMod)
    | (with_reducible apply State.kp_setNand))

theorem State.kp_scrubBlock {r s : State} (h : r.Keeps s) : r.Keeps (State.scrubBlock s) := by
  unfold State.scrubBlock
  repeat' (first
    | with_reducible assumption
    | intro _
    | split
    | lift_lets
    | (with_reducible refine State.Keeps.of_fst (by assumption) ?_)
    | (with_reducible apply State.kp_put)
    | (with_reducible apply State.kp_passDone)
    | (with_reducible apply State.kp_setNand)
    | (with_reducible apply State.Keeps.foldl)
    | (with_reducible exact State.Keeps.later (by assumption) _)
    | (with_reducible apply State.Keeps.foldl1)
    | (with_reducible constructor <;> dsimp only <;> first | refine State.Keeps.pending ?_ | refine State.Keeps.now ?_ | refine State.Keeps.fresh ?_ | refine State.Keeps.otp ?_ | refine State.Keeps.otpWf ?_ | refine State.Keeps.basin ?_ | refine State.Keeps.sram ?_))

theorem State.kp_readFile {r s : State} (h : r.Keeps s) (x1 : Nat) (x2 : Nat) : r.Keeps (State.readFile s x1 x2).1 := by
  unfold State.readFile
  repeat' (first
    | with_reducible assumption
    | intro _
    | split
    | lift_lets
    | (with_reducible refine State.Keeps.of_fst (by assumption) ?_)
    | (with_reducible apply State.kp_raise))

theorem State.kp_loseSector {r s : State} (h : r.Keeps s) (x1 : NFile) (x2 : Nat) (x3 : Nat) (x4 : Nat) : r.Keeps (State.loseSector s x1 x2 x3 x4) := by
  unfold State.loseSector
  repeat' (first
    | with_reducible assumption
    | (intro t; (have ht : r.Keeps t := ?_); clear_value t; (try (rotate_left; unfold t)))
    | intro _
    | split
    | lift_lets
    | (with_reducible refine State.Keeps.of_fst (by assumption) ?_)
    | (with_reducible apply State.kp_raise)
    | (with_reducible apply State.kp_setNand)
    | (with_reducible apply State.kp_journalPage))

theorem State.kp_queueRefresh {r s : State} (h : r.Keeps s) (x1 : Nat) : r.Keeps (State.queueRefresh s x1) := by
  unfold State.queueRefresh
  repeat' (first
    | with_reducible assumption
    | intro _
    | split
    | lift_lets
    | (with_reducible refine State.Keeps.of_fst (by assumption) ?_)
    | (with_reducible apply State.kp_setNand))

theorem State.kp_countRead {r s : State} (h : r.Keeps s) (x1 : Nat) : r.Keeps (State.countRead s x1) := by
  unfold State.countRead
  repeat' (first
    | with_reducible assumption
    | (intro t; (have ht : r.Keeps t := ?_); clear_value t; (try (rotate_left; unfold t)))
    | intro _
    | split
    | lift_lets
    | (with_reducible refine State.Keeps.of_fst (by assumption) ?_)
    | (with_reducible apply State.kp_setNand)
    | (with_reducible apply State.kp_queueRefresh))

theorem State.kp_lastingSector {r s : State} (h : r.Keeps s) (x1 : Nat) (x2 : Nat) (x3 : Nat) : r.Keeps (State.lastingSector s x1 x2 x3) := by
  unfold State.lastingSector
  repeat' (first
    | with_reducible assumption
    | (intro t; (have ht : r.Keeps t := ?_); clear_value t; (try (rotate_left; unfold t)))
    | intro _
    | split
    | lift_lets
    | (with_reducible refine State.Keeps.of_fst (by assumption) ?_)
    | (with_reducible apply State.kp_raise)
    | (with_reducible apply State.kp_inc)
    | (with_reducible apply State.kp_nandError)
    | (with_reducible apply State.kp_loseSector)
    | (with_reducible apply State.kp_noteBlocks)
    | (with_reducible apply State.kp_retireBlock))

theorem State.kp_readSector {r s : State} (h : r.Keeps s) (x1 : Nat) (x2 : Nat) (x3 : Nat) (x4 : Nat) (x5 : Option Nat) : r.Keeps (State.readSector s x1 x2 x3 x4 x5) := by
  unfold State.readSector
  repeat' (first
    | with_reducible assumption
    | (intro t; (have ht : r.Keeps t := ?_); clear_value t; (try (rotate_left; unfold t)))
    | intro _
    | split
    | lift_lets
    | (with_reducible refine State.Keeps.of_fst (by assumption) ?_)
    | (with_reducible apply State.kp_countRead)
    | (with_reducible apply State.kp_queueRefresh)
    | (with_reducible apply State.kp_raise)
    | (with_reducible apply State.kp_inc)
    | (with_reducible apply State.kp_nandError)
    | (with_reducible apply State.kp_lastingSector))

theorem State.kp_startRefresh {r s : State} (h : r.Keeps s) : r.Keeps (State.startRefresh s) := by
  unfold State.startRefresh
  repeat' (first
    | with_reducible assumption
    | (intro t; (have ht : r.Keeps t := ?_); clear_value t; (try (rotate_left; unfold t)))
    | intro _
    | split
    | lift_lets
    | (with_reducible refine State.Keeps.of_fst (by assumption) ?_)
    | (with_reducible apply State.kp_issueWrite)
    | (with_reducible apply State.kp_setNand))

theorem State.kp_wearLevel {r s : State} (h : r.Keeps s) : r.Keeps (State.wearLevel s) := by
  unfold State.wearLevel
  repeat' (first
    | with_reducible assumption
    | intro _
    | split
    | lift_lets
    | (with_reducible refine State.Keeps.of_fst (by assumption) ?_)
    | (with_reducible apply State.kp_issueWrite)
    | (with_reducible apply State.kp_setNand))

theorem State.kp_rxRecord {r s : State} (h : r.Keeps s) (x1 : RxPacket) (x2 : Int) : r.Keeps (State.rxRecord s x1 x2) := by
  unfold State.rxRecord
  repeat' (first
    | with_reducible assumption
    | (intro t; (have ht : r.Keeps t := ?_); clear_value t; (try (rotate_left; unfold t)))
    | intro _
    | split
    | lift_lets
    | (with_reducible refine State.Keeps.of_fst (by assumption) ?_)
    | (with_reducible apply State.kp_fromTwin)
    | (with_reducible apply State.kp_sluiceResume)
    | (with_reducible apply State.kp_alignStart)
    | (with_reducible apply State.kp_copyStart)
    | (with_reducible apply State.kp_takeRecord)
    | (with_reducible apply State.kp_steerByTwin)
    | (with_reducible apply State.kp_noteAligned))

theorem State.kp_rxMap {r s : State} (h : r.Keeps s) (x1 : RxPacket) : r.Keeps (State.rxMap s x1) := by
  unfold State.rxMap
  repeat' (first
    | with_reducible assumption
    | intro _
    | split
    | lift_lets
    | (with_reducible refine State.Keeps.of_fst (by assumption) ?_)
    | (with_reducible apply State.kp_fromTwin)
    | (with_reducible apply State.kp_setPeer))

theorem State.kp_rxSeal {r s : State} (h : r.Keeps s) (x1 : RxPacket) : r.Keeps (State.rxSeal s x1) := by
  unfold State.rxSeal
  repeat' (first
    | with_reducible assumption
    | intro _
    | split
    | lift_lets
    | (with_reducible refine State.Keeps.of_fst (by assumption) ?_)
    | (with_reducible apply State.kp_fromTwin)
    | (with_reducible apply State.kp_sluiceResume)
    | (with_reducible apply State.kp_setPeer))

theorem State.kp_rxEcho {r s : State} (h : r.Keeps s) (x1 : RxPacket) (x2 : Nat) : r.Keeps (State.rxEcho s x1 x2) := by
  unfold State.rxEcho
  repeat' (first
    | with_reducible assumption
    | intro _
    | split
    | lift_lets
    | (with_reducible refine State.Keeps.of_fst (by assumption) ?_)
    | (with_reducible apply State.kp_receive)
    | (with_reducible apply State.kp_echo))

end Sys2Proof.Machine
end

