-- ==== Sys2Proof/Laws/KeepsRegs.lean ====
section
/-!
SUPPORT. State.Keeps of every function of the model: the management cores, registers and the host.
-/
namespace Sys2Proof.Machine

theorem State.kp_setMgmt {r s : State} (h : r.Keeps s) {m : Mgmt} (hm : s.mgmt.sram.wf = true → m.sram.wf = true) : r.Keeps (s.setMgmt m) :=
  ⟨h.pending, h.now, h.fresh, h.otp, h.otpWf, h.basin, fun w => hm (h.sram w)⟩

theorem State.kp_doubleTrap {r s : State} (h : r.Keeps s) : r.Keeps (State.doubleTrap s) := by
  unfold State.doubleTrap
  repeat' (first
    | with_reducible assumption
    | (intro t; (have ht : r.Keeps t := ?_); clear_value t; (try (rotate_left; unfold t)))
    | intro _
    | split
    | lift_lets
    | (with_reducible refine State.Keeps.of_fst (by assumption) ?_)
    | (with_reducible apply State.kp_raise)
    | (with_reducible apply State.kp_setMgmt))

theorem State.kp_trapAt {r s : State} (h : r.Keeps s) (x1 : Nat) (x2 : Nat) (x3 : W32) : r.Keeps (State.trapAt s x1 x2 x3) := by
  unfold State.trapAt
  repeat' (first
    | with_reducible assumption
    | intro _
    | split
    | lift_lets
    | (with_reducible refine State.Keeps.of_fst (by assumption) ?_)
    | (with_reducible apply State.kp_doubleTrap)
    | (with_reducible apply State.kp_setMgmt))

theorem State.kp_trap {r s : State} (h : r.Keeps s) (x1 : Nat) (x2 : Nat) : r.Keeps (State.trap s x1 x2) := by
  unfold State.trap
  repeat' (first
    | with_reducible assumption
    | intro _
    | split
    | lift_lets
    | (with_reducible refine State.Keeps.of_fst (by assumption) ?_)
    | (with_reducible apply State.kp_trapAt))

theorem State.kp_gateRefuses {r s : State} (h : r.Keeps s) (x1 : Requester) (x2 : Bool) (x3 : Nat) (x4 : Nat) : r.Keeps (State.gateRefuses s x1 x2 x3 x4) := by
  unfold State.gateRefuses
  repeat' (first
    | with_reducible assumption
    | intro _
    | split
    | lift_lets
    | (with_reducible refine State.Keeps.of_fst (by assumption) ?_)
    | (with_reducible apply State.kp_raise)
    | (with_reducible apply State.kp_trap))

theorem State.kp_writeField {r s : State} (h : r.Keeps s) (x0 : State) (x2 : Nat) (x3 : Fld) : r.Keeps (State.writeField x0 s x2 x3) := by
  unfold State.writeField
  repeat' (first
    | with_reducible assumption
    | intro _
    | split
    | lift_lets
    | (with_reducible refine State.Keeps.of_fst (by assumption) ?_)
    | (with_reducible apply State.kp_put))

theorem State.kp_lockWl {r s : State} (h : r.Keeps s) (x1 : Nat) (x2 : List Fld) : r.Keeps (State.lockWl s x1 x2) := by
  unfold State.lockWl
  repeat' (first
    | with_reducible assumption
    | intro _
    | split
    | lift_lets
    | (with_reducible refine State.Keeps.of_fst (by assumption) ?_)
    | (with_reducible apply State.Keeps.foldl)
    | (with_reducible exact State.Keeps.later (by assumption) _)
    | (with_reducible apply State.Keeps.foldl1)
    | (with_reducible constructor <;> dsimp only <;> first | refine State.Keeps.pending ?_ | refine State.Keeps.now ?_ | refine State.Keeps.fresh ?_ | refine State.Keeps.otp ?_ | refine State.Keeps.otpWf ?_ | refine State.Keeps.basin ?_ | refine State.Keeps.sram ?_))

theorem State.kp_faultForce {r s : State} (h : r.Keeps s) (x1 : Nat) (x2 : Nat) : r.Keeps (State.faultForce s x1 x2) := by
  unfold State.faultForce
  repeat' (first
    | with_reducible assumption
    | (intro t; (have ht : r.Keeps t := ?_); clear_value t; (try (rotate_left; unfold t)))
    | intro _
    | split
    | lift_lets
    | (with_reducible refine State.Keeps.of_fst (by assumption) ?_)
    | (with_reducible apply State.kp_put)
    | (with_reducible apply State.kp_raiseAt)
    | (with_reducible apply State.Keeps.foldl))

theorem State.kp_faultClear {r s : State} (h : r.Keeps s) (x1 : Nat) (x2 : Nat) : r.Keeps (State.faultClear s x1 x2) := by
  unfold State.faultClear
  repeat' (first
    | with_reducible assumption
    | intro _
    | split
    | lift_lets
    | (with_reducible refine State.Keeps.of_fst (by assumption) ?_)
    | (with_reducible apply State.kp_putBit)
    | (with_reducible apply State.Keeps.foldl))

theorem State.kp_rifWrite {r s : State} (h : r.Keeps s) (x1 : Nat) (x2 : Nat) (x3 : Nat) : r.Keeps (State.rifWrite s x1 x2 x3) := by
  unfold State.rifWrite
  repeat' (first
    | with_reducible assumption
    | (intro t; (have ht : r.Keeps t := ?_); clear_value t; (try (rotate_left; unfold t)))
    | intro _
    | split
    | lift_lets
    | (with_reducible refine State.Keeps.of_fst (by assumption) ?_)
    | (with_reducible apply State.kp_faultForce)
    | (with_reducible apply State.kp_faultClear)
    | (with_reducible apply State.kp_put)
    | (with_reducible apply State.kp_writeTail)
    | (with_reducible apply State.kp_writeCplRead)
    | (with_reducible apply State.kp_writeTelemRead)
    | (with_reducible apply State.Keeps.foldl)
    | (with_reducible exact State.Keeps.later (by assumption) _)
    | (with_reducible apply State.Keeps.foldl1)
    | (with_reducible constructor <;> dsimp only <;> first | refine State.Keeps.pending ?_ | refine State.Keeps.now ?_ | refine State.Keeps.fresh ?_ | refine State.Keeps.otp ?_ | refine State.Keeps.otpWf ?_ | refine State.Keeps.basin ?_ | refine State.Keeps.sram ?_))

theorem State.kp_restoreLedger {r s : State} (h : r.Keeps s) : r.Keeps (State.restoreLedger s) := by
  unfold State.restoreLedger
  repeat' (first
    | with_reducible assumption
    | (intro t; (have ht : r.Keeps t := ?_); clear_value t; (try (rotate_left; unfold t)))
    | intro _
    | split
    | lift_lets
    | (with_reducible refine State.Keeps.of_fst (by assumption) ?_)
    | (with_reducible apply State.kp_raise)
    | (with_reducible apply State.kp_ledgerRestore))

theorem State.kp_restorePlane {r s : State} (h : r.Keeps s) : r.Keeps (State.restorePlane s) := by
  unfold State.restorePlane
  repeat' (first
    | with_reducible assumption
    | intro _
    | split
    | lift_lets
    | (with_reducible refine State.Keeps.of_fst (by assumption) ?_)
    | (with_reducible apply State.Keeps.foldl)
    | (with_reducible exact State.Keeps.later (by assumption) _)
    | (with_reducible apply State.Keeps.foldl1)
    | (with_reducible constructor <;> dsimp only <;> first | refine State.Keeps.pending ?_ | refine State.Keeps.now ?_ | refine State.Keeps.fresh ?_ | refine State.Keeps.otp ?_ | refine State.Keeps.otpWf ?_ | refine State.Keeps.basin ?_ | refine State.Keeps.sram ?_))

theorem State.kp_readBackup {r s : State} (h : r.Keeps s) : r.Keeps (State.readBackup s) := by
  unfold State.readBackup
  repeat' (first
    | with_reducible assumption
    | intro _
    | split
    | lift_lets
    | (with_reducible refine State.Keeps.of_fst (by assumption) ?_)
    | (with_reducible apply State.kp_raise)
    | (with_reducible apply State.kp_setNand))

theorem State.kp_bootDone {r s : State} (h : r.Keeps s) : r.Keeps (State.bootDone s) := by
  unfold State.bootDone
  repeat' (first
    | with_reducible assumption
    | (intro t; (have ht : r.Keeps t := ?_); clear_value t; (try (rotate_left; unfold t)))
    | intro _
    | split
    | lift_lets
    | (with_reducible refine State.Keeps.of_fst (by assumption) ?_)
    | (with_reducible apply State.kp_restoreLedger)
    | (with_reducible apply State.kp_restorePlane)
    | (with_reducible apply State.kp_readBackup)
    | (with_reducible apply State.kp_put)
    | (with_reducible apply State.kp_rebuildKeys)
    | (with_reducible apply State.kp_setMgmt)
    | (with_reducible apply State.kp_linkSwitch)
    | (with_reducible apply State.Keeps.foldl))

theorem State.kp_blockWrite {r s : State} (h : r.Keeps s) (x0 : State) (x2 : Nat) (x3 : Nat) (x4 : Nat) : r.Keeps (State.blockWrite x0 s x2 x3 x4) := by
  unfold State.blockWrite
  repeat' (first
    | with_reducible assumption
    | (intro t; (have ht : r.Keeps t := ?_); clear_value t; (try (rotate_left; unfold t)))
    | intro _
    | split
    | lift_lets
    | (with_reducible refine State.Keeps.of_fst (by assumption) ?_)
    | (with_reducible apply State.kp_berthCmd)
    | (with_reducible apply State.kp_berthPlace)
    | (with_reducible apply State.kp_berthFmt)
    | (with_reducible apply State.kp_put)
    | (with_reducible apply State.kp_calQueue)
    | (with_reducible apply State.kp_clearRateLimit)
    | (with_reducible apply State.kp_linkSwitch)
    | (with_reducible apply State.kp_toRecover)
    | (with_reducible apply State.kp_eyeStart)
    | (with_reducible apply State.kp_eyeStop)
    | (with_reducible apply State.kp_resyncRequest)
    | (with_reducible apply State.kp_rearm)
    | (with_reducible apply State.kp_chkEnable)
    | (with_reducible apply State.kp_bootDone)
    | (with_reducible apply State.kp_checkpoint))

theorem State.kp_sysWrite {r s : State} (h : r.Keeps s) (x1 : Nat) (x2 : Nat) (x3 : Nat) : r.Keeps (State.sysWrite s x1 x2 x3) := by
  unfold State.sysWrite
  repeat' (first
    | with_reducible assumption
    | (intro t; (have ht : r.Keeps t := ?_); clear_value t; (try (rotate_left; unfold t)))
    | intro _
    | split
    | lift_lets
    | (with_reducible refine State.Keeps.of_fst (by assumption) ?_)
    | (with_reducible apply State.kp_resume)
    | (with_reducible apply State.kp_clearSafeDark)
    | (with_reducible apply State.kp_enterSafeDark)
    | (with_reducible apply State.kp_warmReset)
    | (with_reducible apply State.kp_reachReset)
    | (with_reducible apply State.kp_runWrite)
    | (with_reducible apply State.kp_clearRun)
    | (with_reducible apply State.kp_setCommit)
    | (with_reducible apply State.kp_setRate)
    | (with_reducible apply State.kp_setLockLoad))

theorem State.kp_writeWord {r s : State} (h : r.Keeps s) (x1 : Requester) (x2 : Nat) (x3 : Nat) (x4 : Nat) (x5 : Nat) : r.Keeps (State.writeWord s x1 x2 x3 x4 x5) := by
  unfold State.writeWord
  repeat' (first
    | with_reducible assumption
    | (intro t; (have ht : r.Keeps t := ?_); clear_value t; (try (rotate_left; unfold t)))
    | intro _
    | split
    | lift_lets
    | (with_reducible refine State.Keeps.of_fst (by assumption) ?_)
    | (with_reducible apply State.kp_discard)
    | (with_reducible apply State.kp_landing)
    | (with_reducible apply State.kp_writeField)
    | (with_reducible apply State.kp_lockWl)
    | (with_reducible apply State.kp_rifWrite)
    | (with_reducible apply State.kp_blockWrite)
    | (with_reducible apply State.kp_sysWrite)
    | (with_reducible apply State.Keeps.foldl))

theorem State.kp_readAlias {r s : State} (h : r.Keeps s) (x1 : Nat) : r.Keeps (State.readAlias s x1).1 := by
  unfold State.readAlias
  repeat' (first
    | with_reducible assumption
    | intro _
    | split
    | lift_lets
    | (with_reducible refine State.Keeps.of_fst (by assumption) ?_)
    | (with_reducible apply State.kp_putBit))

theorem State.kp_writeAlias {r s : State} (h : r.Keeps s) (x1 : Requester) (x2 : Nat) (x3 : Nat) (x4 : Nat) : r.Keeps (State.writeAlias s x1 x2 x3 x4) := by
  unfold State.writeAlias
  repeat' (first
    | with_reducible assumption
    | intro _
    | split
    | lift_lets
    | (with_reducible refine State.Keeps.of_fst (by assumption) ?_)
    | (with_reducible apply State.kp_writeWord))

theorem State.kp_busWriteWord {r s : State} (h : r.Keeps s) (x1 : Requester) (x2 : Nat) (x3 : Nat) : r.Keeps (State.busWriteWord s x1 x2 x3) := by
  unfold State.busWriteWord
  repeat' (first
    | with_reducible assumption
    | intro _
    | split
    | lift_lets
    | (with_reducible refine State.Keeps.of_fst (by assumption) ?_)
    | (with_reducible apply State.kp_writeWord)
    | (with_reducible apply State.kp_writeAlias))

theorem State.kp_busWriteWords {r s : State} (h : r.Keeps s) (who : Requester) (addr : Nat) (data : List Byte) (n : Nat) :
    r.Keeps (s.busWriteWords who addr data n) := by
  induction n generalizing s addr data with
  | zero => exact h
  | succ n ih =>
    unfold State.busWriteWords
    split
    · exact h
    · exact ih (State.kp_busWriteWord h who addr _) _ _

theorem State.kp_busWrite {r s : State} (h : r.Keeps s) (x1 : Requester) (x2 : Nat) (x3 : List Byte) : r.Keeps (State.busWrite s x1 x2 x3) := by
  unfold State.busWrite
  repeat' (first
    | with_reducible assumption
    | intro _
    | split
    | lift_lets
    | (with_reducible refine State.Keeps.of_fst (by assumption) ?_)
    | (with_reducible apply State.kp_busWriteWords)
    | (with_reducible apply State.kp_discard))

theorem State.kp_coreBusWrite {r s : State} (h : r.Keeps s) (x1 : Nat) (x2 : List Byte) : r.Keeps (State.coreBusWrite s x1 x2) := by
  unfold State.coreBusWrite
  repeat' (first
    | with_reducible assumption
    | (intro t; (have ht : r.Keeps t := ?_); clear_value t; (try (rotate_left; unfold t)))
    | intro _
    | split
    | lift_lets
    | (with_reducible refine State.Keeps.of_fst (by assumption) ?_)
    | (with_reducible apply State.kp_busWrite)
    | (with_reducible apply State.kp_raise)
    | (with_reducible apply State.kp_trap))

theorem State.kp_regWrite {r s : State} (h : r.Keeps s) (x1 : Requester) (x2 : Nat) (x3 : List Byte) : r.Keeps (State.regWrite s x1 x2 x3) := by
  unfold State.regWrite
  repeat' (first
    | with_reducible assumption
    | intro _
    | split
    | lift_lets
    | (with_reducible refine State.Keeps.of_fst (by assumption) ?_)
    | (with_reducible apply State.kp_gateRefuses)
    | (with_reducible apply State.kp_coreBusWrite)
    | (with_reducible apply State.kp_busWrite))

theorem State.kp_debugWrite_arms {r s u1 u2 u3 : State} (c : Bool) (q : Option Region) (h : r.Keeps s) (h1 : r.Keeps u1) (h2 : r.Keeps u2)
    (h3 : r.Keeps u3) :
    r.Keeps (if c then s else match q with
      | some .basin => u1
      | some .trim => u2
      | some .sram => u3
      | _ => s) := by
  split
  · exact h
  · split <;> assumption

theorem State.kp_poolOr {r s : State} (h : r.Keeps s) (c : Prop) [Decidable c] (a : Nat) (data : List Byte) :
    r.Keeps (if c then (s.poolWrite a data).1 else s.basWrite a data) := by
  split
  · exact State.kp_poolWrite h _ _
  · exact State.kp_basWrite h _ _

theorem State.kp_debugWrite {r s : State} (h : r.Keeps s) (a : Nat) (data : List Byte) : r.Keeps (s.debugWrite a data) :=
  State.kp_debugWrite_arms _ _ h (State.kp_poolOr h _ _ _) (State.kp_trimWrite h _ _) (State.kp_setMgmt h (fun w => Memory.wf_writeBytes _ _ w))

theorem State.kp_portWrite {r s : State} (h : r.Keeps s) (x1 : Requester) (x2 : Nat) (x3 : List Byte) : r.Keeps (State.portWrite s x1 x2 x3) := by
  unfold State.portWrite
  repeat' (first
    | with_reducible assumption
    | intro _
    | split
    | lift_lets
    | (with_reducible refine State.Keeps.of_fst (by assumption) ?_)
    | (with_reducible apply State.kp_regWrite)
    | (with_reducible apply State.kp_debugWrite))

theorem State.kp_hostBasin {r s : State} (h : r.Keeps s) (x1 : Nat) (x2 : List Byte) : r.Keeps (State.hostBasin s x1 x2).1 := by
  unfold State.hostBasin
  repeat' (first
    | with_reducible assumption
    | intro _
    | split
    | lift_lets
    | (with_reducible refine State.Keeps.of_fst (by assumption) ?_)
    | (with_reducible apply State.kp_poolWrite)
    | (with_reducible apply State.kp_chkSnoop)
    | (with_reducible apply State.kp_basWrite))

theorem State.kp_trimPut {r s : State} (h : r.Keeps s) (x1 : Nat) (x2 : List Byte) : r.Keeps (State.trimPut s x1 x2).1 := by
  unfold State.trimPut
  repeat' (first
    | with_reducible assumption
    | intro _
    | split
    | lift_lets
    | (with_reducible refine State.Keeps.of_fst (by assumption) ?_)
    | (with_reducible apply State.kp_trimWrite))

theorem State.kp_hostPut_arms {r s u2 : State} {u3 u4 : State × Nat} (q : Option Region) (h : r.Keeps s)
    (h2 : r.Keeps u2) (h3 : r.Keeps u3.1) (h4 : r.Keeps u4.1) :
    r.Keeps (match q with
        | some .basin => u3
        | some .trim => u4
        | some .regs => (u2, cplDone)
        | some .alias_ => (u2, cplDone)
        | _ => (s, cplError)).1 := by
  split
  · exact h3
  · exact h4
  · exact h2
  · exact h2
  · exact h

theorem State.kp_hostPut {r s : State} (h : r.Keeps s) (q : Option Region) (a : Nat) (data : List Byte) : r.Keeps (s.hostPut q a data).1 :=
  State.kp_hostPut_arms q h (State.kp_busWrite h _ _ _) (State.kp_hostBasin h _ _) (State.kp_trimPut h _ _)

theorem State.kp_mIllegal {r s : State} (h : r.Keeps s) (x1 : Nat) (x2 : Fields) : r.Keeps (State.mIllegal s x1 x2) := by
  unfold State.mIllegal
  repeat' (first
    | with_reducible assumption
    | intro _
    | split
    | lift_lets
    | (with_reducible refine State.Keeps.of_fst (by assumption) ?_)
    | (with_reducible apply State.kp_trap))

theorem State.kp_mPred {r s : State} (h : r.Keeps s) (x1 : Nat) (x2 : Fields) (x3 : State → State) (h3 : ∀ (a0 : State), r.Keeps a0 → r.Keeps (x3 a0)) : r.Keeps (State.mPred s x1 x2 x3) := by
  unfold State.mPred
  repeat' (first
    | with_reducible assumption
    | intro _
    | split
    | lift_lets
    | (with_reducible refine State.Keeps.of_fst (by assumption) ?_)
    | (with_reducible apply State.kp_mIllegal)
    | apply h3)

theorem State.kp_nextPc {r s : State} (h : r.Keeps s) : r.Keeps (State.nextPc s) := by
  unfold State.nextPc
  repeat' (first
    | with_reducible assumption
    | intro _
    | split
    | lift_lets
    | (with_reducible refine State.Keeps.of_fst (by assumption) ?_)
    | (with_reducible apply State.kp_setMgmt))

theorem State.kp_coreAccess {r s : State} (h : r.Keeps s) (x1 : Nat) (x2 : Fields) (x3 : Nat) (x4 : Nat) (x5 : Nat) (x6 : MgmtIO) (x7 : State → Nat → State) (h7 : ∀ (a0 : State) (a1 : Nat), r.Keeps a0 → r.Keeps (x7 a0 a1)) : r.Keeps (State.coreAccess s x1 x2 x3 x4 x5 x6 x7) := by
  unfold State.coreAccess
  repeat' (first
    | with_reducible assumption
    | intro _
    | split
    | lift_lets
    | (with_reducible refine State.Keeps.of_fst (by assumption) ?_)
    | (with_reducible apply State.kp_mPred)
    | (with_reducible apply State.kp_trap)
    | (with_reducible apply State.kp_raise)
    | (with_reducible apply State.kp_nextPc)
    | apply h7)

theorem State.kp_mJalr {r s : State} (h : r.Keeps s) (f : Fields) : r.Keeps (s.mJalr f) := by
  unfold State.mJalr
  exact State.kp_mPred h _ _ _ (fun t ht => State.kp_setMgmt ht (fun w => (congrArg Memory.wf (Mgmt.setReg_sram ..)).trans w))

theorem State.kp_issueMgmt {r s : State} (h : r.Keeps s) (x1 : State → State) (h1 : ∀ (a0 : State), r.Keeps a0 → r.Keeps (x1 a0)) : r.Keeps (State.issueMgmt s x1) := by
  unfold State.issueMgmt
  repeat' (first
    | with_reducible assumption
    | (intro t; (have ht : r.Keeps t := ?_); clear_value t; (try (rotate_left; unfold t)))
    | intro _
    | split
    | lift_lets
    | (with_reducible refine State.Keeps.of_fst (by assumption) ?_)
    | (with_reducible apply State.kp_setMgmt)
    | (with_reducible apply State.kp_raise)
    | (with_reducible apply State.kp_trap)
    | apply h1)

theorem State.kp_trapOpen {r s : State} (h : r.Keeps s) (x1 : Nat) : r.Keeps (State.trapOpen s x1) := by
  unfold State.trapOpen
  repeat' (first
    | with_reducible assumption
    | intro _
    | split
    | lift_lets
    | (with_reducible refine State.Keeps.of_fst (by assumption) ?_)
    | (with_reducible apply State.kp_trap)
    | (with_reducible apply State.kp_draw))

theorem State.kp_mCwwBy {r s : State} (h : r.Keeps s) (x1 : Fields) (x2 : State → State) (h2 : ∀ (a0 : State), r.Keeps a0 → r.Keeps (x2 a0)) : r.Keeps (State.mCwwBy s x1 x2) := by
  unfold State.mCwwBy
  repeat' (first
    | with_reducible assumption
    | intro _
    | split
    | lift_lets
    | (with_reducible refine State.Keeps.of_fst (by assumption) ?_)
    | (with_reducible apply State.kp_mPred)
    | (with_reducible apply State.kp_mIllegal)
    | (with_reducible apply State.kp_trapOpen)
    | (with_reducible apply State.kp_nextPc)
    | apply h2)

theorem State.kp_nmiAck {r s : State} (h : r.Keeps s) : r.Keeps (State.nmiAck s) := by
  unfold State.nmiAck
  repeat' (first
    | with_reducible assumption
    | intro _
    | split
    | lift_lets
    | (with_reducible refine State.Keeps.of_fst (by assumption) ?_)
    | (with_reducible apply State.kp_put)
    | (with_reducible apply State.Keeps.foldl)
    | (with_reducible exact State.Keeps.later (by assumption) _)
    | (with_reducible apply State.Keeps.foldl1)
    | (with_reducible constructor <;> dsimp only <;> first | refine State.Keeps.pending ?_ | refine State.Keeps.now ?_ | refine State.Keeps.fresh ?_ | refine State.Keeps.otp ?_ | refine State.Keeps.otpWf ?_ | refine State.Keeps.basin ?_ | refine State.Keeps.sram ?_))

theorem State.kp_cwWrite {r s : State} (h : r.Keeps s) (x1 : Nat) (x2 : Nat) : r.Keeps (State.cwWrite s x1 x2) := by
  unfold State.cwWrite
  repeat' (first
    | with_reducible assumption
    | intro _
    | split
    | lift_lets
    | (with_reducible refine State.Keeps.of_fst (by assumption) ?_)
    | (with_reducible apply State.kp_setMgmt)
    | (with_reducible apply State.kp_nmiAck))

theorem State.kp_mCww {r s : State} (h : r.Keeps s) (x1 : Fields) : r.Keeps (State.mCww s x1) := by
  unfold State.mCww
  repeat' (first
    | with_reducible assumption
    | intro _
    | split
    | lift_lets
    | (with_reducible refine State.Keeps.of_fst (by assumption) ?_)
    | (with_reducible apply State.kp_mCwwBy)
    | (with_reducible apply State.kp_cwWrite))

theorem State.kp_clearRc {r s : State} (h : r.Keeps s) (x1 : Nat) : r.Keeps (State.clearRc s x1) := by
  unfold State.clearRc
  repeat' (first
    | with_reducible assumption
    | intro _
    | split
    | lift_lets
    | (with_reducible refine State.Keeps.of_fst (by assumption) ?_)
    | (with_reducible apply State.kp_put)
    | (with_reducible apply State.Keeps.foldl))

theorem State.kp_latchHigh {r s : State} (h : r.Keeps s) (x1 : Nat) : r.Keeps (State.latchHigh s x1) := by
  unfold State.latchHigh
  repeat' (first
    | with_reducible assumption
    | intro _
    | split
    | lift_lets
    | (with_reducible refine State.Keeps.of_fst (by assumption) ?_)
    | (with_reducible apply State.kp_put))

theorem State.kp_readWord {r s : State} (h : r.Keeps s) (x1 : Nat) : r.Keeps (State.readWord s x1).1 := by
  unfold State.readWord
  repeat' (first
    | with_reducible assumption
    | intro _
    | split
    | lift_lets
    | (with_reducible refine State.Keeps.of_fst (by assumption) ?_)
    | (with_reducible apply State.kp_clearRc)
    | (with_reducible apply State.kp_latchHigh))

theorem State.kp_busReadWord {r s : State} (h : r.Keeps s) (x1 : Nat) : r.Keeps (State.busReadWord s x1).1 := by
  unfold State.busReadWord
  repeat' (first
    | with_reducible assumption
    | intro _
    | split
    | lift_lets
    | (with_reducible refine State.Keeps.of_fst (by assumption) ?_)
    | (with_reducible apply State.kp_readWord)
    | (with_reducible apply State.kp_readAlias))

theorem State.kp_busReadWords {r s : State} (h : r.Keeps s) (addr n : Nat) : r.Keeps (s.busReadWords addr n).1 := by
  induction n generalizing s addr with
  | zero => exact h
  | succ n ih => exact ih (State.kp_busReadWord h addr) (addr + 4)

theorem State.kp_busRead {r s : State} (h : r.Keeps s) (x1 : Requester) (x2 : Nat) (x3 : Nat) : r.Keeps (State.busRead s x1 x2 x3).1 := by
  unfold State.busRead
  repeat' (first
    | with_reducible assumption
    | intro _
    | split
    | lift_lets
    | (with_reducible refine State.Keeps.of_fst (by assumption) ?_)
    | (with_reducible apply State.kp_busReadWords)
    | (with_reducible apply State.kp_busReadWord)
    | (with_reducible apply State.kp_discard))

theorem State.kp_readUnit {r s : State} (h : r.Keeps s) (x1 : Region) (x2 : Ecc) (x3 : Nat) : r.Keeps (State.readUnit s x1 x2 x3) := by
  unfold State.readUnit
  repeat' (first
    | with_reducible assumption
    | intro _
    | split
    | lift_lets
    | (with_reducible refine State.Keeps.of_fst (by assumption) ?_)
    | (with_reducible apply State.kp_eccOutcome)
    | (with_reducible apply State.kp_trimEcc))

theorem State.kp_mapRead {r s : State} (h : r.Keeps s) (x1 : Region) (x2 : Nat) (x3 : Nat) (x4 : List (Prod Nat Ecc)) : r.Keeps (State.mapRead s x1 x2 x3 x4).1 := by
  unfold State.mapRead
  repeat' (first
    | with_reducible assumption
    | (intro t; (have ht : r.Keeps t := ?_); clear_value t; (try (rotate_left; unfold t)))
    | intro _
    | split
    | lift_lets
    | (with_reducible refine State.Keeps.of_fst (by assumption) ?_)
    | (with_reducible apply State.kp_readUnit)
    | (with_reducible apply State.kp_draw)
    | (with_reducible apply State.Keeps.foldl))

theorem State.kp_hostRead {r s : State} (h : r.Keeps s) (x1 : Nat) (x2 : Nat) (x3 : List (Prod Nat Ecc)) : r.Keeps (State.hostRead s x1 x2 x3).1 := by
  unfold State.hostRead
  repeat' (first
    | with_reducible assumption
    | intro _
    | split
    | lift_lets
    | (with_reducible refine State.Keeps.of_fst (by assumption) ?_)
    | (with_reducible apply State.kp_raise)
    | (with_reducible apply State.kp_busRead)
    | (with_reducible apply State.kp_mapRead))

theorem State.kp_mResult {r s : State} (h : r.Keeps s) (x1 : BitVec 5) (x2 : Nat) : r.Keeps (State.mResult s x1 x2) := by
  unfold State.mResult
  repeat' (first
    | with_reducible assumption
    | intro _
    | split
    | lift_lets
    | (with_reducible refine State.Keeps.of_fst (by assumption) ?_)
    | (with_reducible apply State.kp_nextPc)
    | (with_reducible apply State.kp_setMgmt)
    | (with_reducible apply State.Keeps.foldl)
    | (with_reducible exact State.Keeps.later (by assumption) _)
    | (simp only [Mgmt.setReg_sram]; assumption))

theorem State.kp_loadSram {r s : State} (h : r.Keeps s) (x1 : LoadOp) (x2 : BitVec 5) (x3 : Nat) (x4 : Ecc) : r.Keeps (State.loadSram s x1 x2 x3 x4) := by
  unfold State.loadSram
  repeat' (first
    | with_reducible assumption
    | intro _
    | split
    | lift_lets
    | (with_reducible refine State.Keeps.of_fst (by assumption) ?_)
    | (with_reducible apply State.kp_mResult)
    | (with_reducible apply State.kp_raise)
    | (with_reducible apply State.kp_trap))

theorem State.kp_mBranch {r s : State} (h : r.Keeps s) (x1 : BranchOp) (x2 : Fields) : r.Keeps (State.mBranch s x1 x2) := by
  unfold State.mBranch
  repeat' (first
    | with_reducible assumption
    | intro _
    | split
    | lift_lets
    | (with_reducible refine State.Keeps.of_fst (by assumption) ?_)
    | (with_reducible apply State.kp_mIllegal)
    | (with_reducible apply State.kp_setMgmt)
    | (with_reducible apply State.kp_nextPc))

theorem State.kp_mCwwDropped {r s : State} (h : r.Keeps s) (x1 : Fields) : r.Keeps (State.mCwwDropped s x1) := by
  unfold State.mCwwDropped
  repeat' (first
    | with_reducible assumption
    | intro _
    | split
    | lift_lets
    | (with_reducible refine State.Keeps.of_fst (by assumption) ?_)
    | (with_reducible apply State.kp_mCwwBy))

theorem State.kp_mScalarImm {r s : State} (h : r.Keeps s) (x1 : ImmOp) (x2 : Fields) : r.Keeps (State.mScalarImm s x1 x2) := by
  unfold State.mScalarImm
  repeat' (first
    | with_reducible assumption
    | intro _
    | split
    | lift_lets
    | (with_reducible refine State.Keeps.of_fst (by assumption) ?_)
    | (with_reducible apply State.kp_mPred)
    | (with_reducible apply State.kp_mResult))

theorem State.kp_mSystem {r s : State} (h : r.Keeps s) (x1 : Fields) (x2 : State → State) (h2 : ∀ (a0 : State), r.Keeps a0 → r.Keeps (x2 a0)) : r.Keeps (State.mSystem s x1 x2) := by
  unfold State.mSystem
  repeat' (first
    | with_reducible assumption
    | intro _
    | split
    | lift_lets
    | (with_reducible refine State.Keeps.of_fst (by assumption) ?_)
    | (with_reducible apply State.kp_mIllegal)
    | apply h2)

theorem State.kp_takeNmi {r s : State} (h : r.Keeps s) : r.Keeps (State.takeNmi s) := by
  unfold State.takeNmi
  repeat' (first
    | with_reducible assumption
    | intro _
    | split
    | lift_lets
    | (with_reducible refine State.Keeps.of_fst (by assumption) ?_)
    | (with_reducible apply State.kp_setMgmt))

theorem State.kp_mRetn {r s : State} (h : r.Keeps s) (x1 : Fields) : r.Keeps (State.mRetn s x1) := by
  unfold State.mRetn
  repeat' (first
    | with_reducible assumption
    | (intro t; (have ht : r.Keeps t := ?_); clear_value t; (try (rotate_left; unfold t)))
    | intro _
    | split
    | lift_lets
    | (with_reducible refine State.Keeps.of_fst (by assumption) ?_)
    | (with_reducible apply State.kp_mSystem)
    | (with_reducible apply State.kp_setMgmt)
    | (with_reducible apply State.kp_takeNmi)
    | (with_reducible apply State.kp_mIllegal))

theorem State.kp_crcCompare {r s : State} (h : r.Keeps s) (x1 : Nat) : r.Keeps (State.crcCompare s x1) := by
  unfold State.crcCompare
  repeat' (first
    | with_reducible assumption
    | (intro t; (have ht : r.Keeps t := ?_); clear_value t; (try (rotate_left; unfold t)))
    | intro _
    | split
    | lift_lets
    | (with_reducible refine State.Keeps.of_fst (by assumption) ?_)
    | (with_reducible apply State.kp_inc)
    | (with_reducible apply State.kp_put)
    | (with_reducible apply State.kp_condition)
    | (with_reducible apply State.Keeps.foldl)
    | (with_reducible exact State.Keeps.later (by assumption) _)
    | (with_reducible apply State.Keeps.foldl1)
    | (with_reducible constructor <;> dsimp only <;> first | refine State.Keeps.pending ?_ | refine State.Keeps.now ?_ | refine State.Keeps.fresh ?_ | refine State.Keeps.otp ?_ | refine State.Keeps.otpWf ?_ | refine State.Keeps.basin ?_ | refine State.Keeps.sram ?_))

theorem State.kp_useSweep {r s : State} (h : r.Keeps s) (x1 : Nat) : r.Keeps (State.useSweep s x1) := by
  unfold State.useSweep
  repeat' (first
    | with_reducible assumption
    | intro _
    | split
    | lift_lets
    | (with_reducible refine State.Keeps.of_fst (by assumption) ?_)
    | (with_reducible apply State.kp_put)
    | (with_reducible apply State.kp_crcCompare)
    | (with_reducible apply State.Keeps.foldl)
    | (with_reducible exact State.Keeps.later (by assumption) _)
    | (with_reducible apply State.Keeps.foldl1)
    | (with_reducible constructor <;> dsimp only <;> first | refine State.Keeps.pending ?_ | refine State.Keeps.now ?_ | refine State.Keeps.fresh ?_ | refine State.Keeps.otp ?_ | refine State.Keeps.otpWf ?_ | refine State.Keeps.basin ?_ | refine State.Keeps.sram ?_))

theorem State.kp_debugRead {r s : State} (h : r.Keeps s) (x1 : Nat) (x2 : Nat) (x3 : List (Prod Nat Ecc)) : r.Keeps (State.debugRead s x1 x2 x3) := by
  unfold State.debugRead
  repeat' (first
    | with_reducible assumption
    | intro _
    | split
    | lift_lets
    | (with_reducible refine State.Keeps.of_fst (by assumption) ?_)
    | (with_reducible apply State.kp_mapRead))

theorem State.kp_afterWrite {r s : State} (h : r.Keeps s) (x1 : W32) : r.Keeps (State.afterWrite s x1) := by
  unfold State.afterWrite
  repeat' (first
    | with_reducible assumption
    | intro _
    | split
    | lift_lets
    | (with_reducible refine State.Keeps.of_fst (by assumption) ?_)
    | (with_reducible apply State.kp_nextPc))

theorem State.kp_vNop {r s : State} (h : r.Keeps s) (x1 : ChamberId) (x2 : W32) : r.Keeps (State.vNop s x1 x2) := by
  unfold State.vNop
  repeat' (first
    | with_reducible assumption
    | intro _
    | split
    | lift_lets
    | (with_reducible refine State.Keeps.of_fst (by assumption) ?_)
    | (with_reducible apply State.kp_illegal))

theorem State.kp_takeInt {r s : State} (h : r.Keeps s) : r.Keeps (State.takeInt s) := by
  unfold State.takeInt
  repeat' (first
    | with_reducible assumption
    | intro _
    | split
    | lift_lets
    | (with_reducible refine State.Keeps.of_fst (by assumption) ?_)
    | (with_reducible apply State.kp_trapOpen)
    | (with_reducible apply State.kp_setMgmt))

theorem State.kp_mFence {r s : State} (h : r.Keeps s) (x1 : Fields) : r.Keeps (State.mFence s x1) := by
  unfold State.mFence
  repeat' (first
    | with_reducible assumption
    | intro _
    | split
    | lift_lets
    | (with_reducible refine State.Keeps.of_fst (by assumption) ?_)
    | (with_reducible apply State.kp_mSystem)
    | (with_reducible apply State.kp_nextPc))

theorem State.kp_mWfi {r s : State} (h : r.Keeps s) (x1 : Fields) : r.Keeps (State.mWfi s x1) := by
  unfold State.mWfi
  repeat' (first
    | with_reducible assumption
    | intro _
    | split
    | lift_lets
    | (with_reducible refine State.Keeps.of_fst (by assumption) ?_)
    | (with_reducible apply State.kp_mSystem)
    | (with_reducible apply State.kp_nextPc)
    | (with_reducible apply State.kp_setMgmt))

theorem State.kp_mTrap {r s : State} (h : r.Keeps s) (x1 : Fields) : r.Keeps (State.mTrap s x1) := by
  unfold State.mTrap
  repeat' (first
    | with_reducible assumption
    | intro _
    | split
    | lift_lets
    | (with_reducible refine State.Keeps.of_fst (by assumption) ?_)
    | (with_reducible apply State.kp_mIllegal)
    | (with_reducible apply State.kp_trap))

theorem State.kp_coreDiscard {r s : State} (h : r.Keeps s) (x1 : Nat) : r.Keeps (State.coreDiscard s x1) := by
  unfold State.coreDiscard
  repeat' (first
    | with_reducible assumption
    | intro _
    | split
    | lift_lets
    | (with_reducible refine State.Keeps.of_fst (by assumption) ?_)
    | (with_reducible apply State.kp_raise)
    | (with_reducible apply State.kp_trap))

theorem State.kp_storeAt {r s : State} (h : r.Keeps s) (a : Nat) (data : List Byte) : r.Keeps (s.storeAt a data) := by
  unfold State.storeAt
  split
  · with_reducible apply State.kp_nextPc
    split
    · exact State.kp_poolWrite h _ _
    · exact State.kp_basWrite h _ _
  · with_reducible apply State.kp_nextPc
    exact State.kp_trimWrite h _ _
  · with_reducible apply State.kp_nextPc
    exact State.kp_setMgmt h (fun w => Memory.wf_writeBytes _ _ w)
  · split
    · exact State.kp_coreBusWrite h _ _
    · with_reducible apply State.kp_afterWrite
      exact State.kp_busWrite h _ _ _
  · split
    · exact State.kp_coreBusWrite h _ _
    · with_reducible apply State.kp_afterWrite
      exact State.kp_busWrite h _ _ _
  · exact State.kp_coreDiscard h _

theorem State.kp_mStore {r s : State} (h : r.Keeps s) (x1 : StoreOp) (x2 : Fields) (x3 : MgmtIO) : r.Keeps (State.mStore s x1 x2 x3) := by
  unfold State.mStore
  repeat' (first
    | with_reducible assumption
    | intro _
    | split
    | lift_lets
    | (with_reducible refine State.Keeps.of_fst (by assumption) ?_)
    | (with_reducible apply State.kp_coreAccess)
    | (with_reducible apply State.kp_storeAt))

theorem State.kp_hostWrite {r s : State} (h : r.Keeps s) (x1 : Nat) (x2 : List Byte) : r.Keeps (State.hostWrite s x1 x2).1 := by
  unfold State.hostWrite
  repeat' (first
    | with_reducible assumption
    | intro _
    | split
    | lift_lets
    | (with_reducible refine State.Keeps.of_fst (by assumption) ?_)
    | (with_reducible apply State.kp_raise)
    | (with_reducible apply State.kp_hostPut))

theorem State.kp_mJal {r s : State} (h : r.Keeps s) (f : Fields) : r.Keeps (s.mJal f) := by
  unfold State.mJal
  split
  · exact State.kp_mIllegal h _ _
  · exact State.kp_setMgmt h (fun w => (congrArg Memory.wf (Mgmt.setReg_sram ..)).trans w)

theorem State.kp_rxSafe {r s : State} (h : r.Keeps s) (x1 : RxPacket) : r.Keeps (State.rxSafe s x1) := by
  unfold State.rxSafe
  repeat' (first
    | with_reducible assumption
    | intro _
    | split
    | lift_lets
    | (with_reducible refine State.Keeps.of_fst (by assumption) ?_)
    | (with_reducible apply State.kp_receive)
    | (with_reducible apply State.kp_tgCopy))

theorem State.kp_mLui {r s : State} (h : r.Keeps s) (x1 : Fields) : r.Keeps (State.mLui s x1) := by
  unfold State.mLui
  repeat' (first
    | with_reducible assumption
    | intro _
    | split
    | lift_lets
    | (with_reducible refine State.Keeps.of_fst (by assumption) ?_)
    | (with_reducible apply State.kp_mResult)
    | (with_reducible apply State.kp_mIllegal))

theorem State.kp_noteSweep {r s : State} (h : r.Keeps s) (x1 : List Nat) (x2 : Nat) : r.Keeps (State.noteSweep s x1 x2) := by
  unfold State.noteSweep
  repeat' (first
    | with_reducible assumption
    | (intro t; (have ht : r.Keeps t := ?_); clear_value t; (try (rotate_left; unfold t)))
    | intro _
    | split
    | lift_lets
    | (with_reducible refine State.Keeps.of_fst (by assumption) ?_)
    | (with_reducible apply State.kp_put)
    | (with_reducible apply State.kp_incMod)
    | (with_reducible apply State.Keeps.foldl)
    | (with_reducible exact State.Keeps.later (by assumption) _)
    | (with_reducible apply State.Keeps.foldl1)
    | (with_reducible constructor <;> dsimp only <;> first | refine State.Keeps.pending ?_ | refine State.Keeps.now ?_ | refine State.Keeps.fresh ?_ | refine State.Keeps.otp ?_ | refine State.Keeps.otpWf ?_ | refine State.Keeps.basin ?_ | refine State.Keeps.sram ?_))

theorem State.kp_puts {r s : State} (h : r.Keeps s) (x1 : List (Prod Fld Nat)) : r.Keeps (State.puts s x1) := by
  unfold State.puts
  repeat' (first
    | with_reducible assumption
    | intro _
    | split
    | lift_lets
    | (with_reducible refine State.Keeps.of_fst (by assumption) ?_)
    | (with_reducible apply State.kp_put)
    | (with_reducible apply State.Keeps.foldl))

theorem State.kp_mLi {r s : State} (h : r.Keeps s) (x1 : Fields) : r.Keeps (State.mLi s x1) := by
  unfold State.mLi
  repeat' (first
    | with_reducible assumption
    | intro _
    | split
    | lift_lets
    | (with_reducible refine State.Keeps.of_fst (by assumption) ?_)
    | (with_reducible apply State.kp_mResult)
    | (with_reducible apply State.kp_mIllegal))

theorem State.kp_crcSweep {r s : State} (h : r.Keeps s) : r.Keeps s.crcSweep :=
  State.kp_useSweep (State.kp_noteSweep h _ _) _

theorem State.kp_regRead {r s : State} (h : r.Keeps s) (x1 : Requester) (x2 : Nat) (x3 : Nat) : r.Keeps (State.regRead s x1 x2 x3) := by
  unfold State.regRead
  repeat' (first
    | with_reducible assumption
    | intro _
    | split
    | lift_lets
    | (with_reducible refine State.Keeps.of_fst (by assumption) ?_)
    | (with_reducible apply State.kp_busRead)
    | (with_reducible apply State.kp_gateRefuses))

theorem State.kp_portRead {r s : State} (h : r.Keeps s) (x1 : Requester) (x2 : Nat) (x3 : Nat) (x4 : List (Prod Nat Ecc)) : r.Keeps (State.portRead s x1 x2 x3 x4) := by
  unfold State.portRead
  repeat' (first
    | with_reducible assumption
    | intro _
    | split
    | lift_lets
    | (with_reducible refine State.Keeps.of_fst (by assumption) ?_)
    | (with_reducible apply State.kp_regRead)
    | (with_reducible apply State.kp_debugRead))

theorem State.kp_cwLatch {r s : State} (h : r.Keeps s) (x1 : Nat) : r.Keeps (State.cwLatch s x1) := by
  unfold State.cwLatch
  repeat' (first
    | with_reducible assumption
    | intro _
    | split
    | lift_lets
    | (with_reducible refine State.Keeps.of_fst (by assumption) ?_)
    | (with_reducible apply State.kp_setMgmt))

theorem State.kp_answer {r s : State} (h : r.Keeps s) (x1 : Nat) (x2 : Nat) (x3 : Nat) (x4 : List Byte) : r.Keeps (State.answer s x1 x2 x3 x4) := by
  unfold State.answer
  repeat' (first
    | with_reducible assumption
    | intro _
    | split
    | lift_lets
    | (with_reducible refine State.Keeps.of_fst (by assumption) ?_)
    | (with_reducible apply State.kp_postCpl))

theorem State.kp_rxWr {r s : State} (h : r.Keeps s) (x1 : RxPacket) (x2 : Nat) : r.Keeps (State.rxWr s x1 x2) := by
  unfold State.rxWr
  repeat' (first
    | with_reducible assumption
    | intro _
    | split
    | lift_lets
    | (with_reducible refine State.Keeps.of_fst (by assumption) ?_)
    | (with_reducible apply State.kp_receive)
    | (with_reducible apply State.kp_hostWrite)
    | (with_reducible apply State.kp_answer))

theorem State.kp_holdExpire {r s : State} (h : r.Keeps s) : r.Keeps (State.holdExpire s) := by
  unfold State.holdExpire
  repeat' (first
    | with_reducible assumption
    | intro _
    | split
    | lift_lets
    | (with_reducible refine State.Keeps.of_fst (by assumption) ?_)
    | (with_reducible apply State.kp_put)
    | (with_reducible apply State.Keeps.foldl)
    | (with_reducible exact State.Keeps.later (by assumption) _)
    | (with_reducible apply State.Keeps.foldl1)
    | (with_reducible constructor <;> dsimp only <;> first | refine State.Keeps.pending ?_ | refine State.Keeps.now ?_ | refine State.Keeps.fresh ?_ | refine State.Keeps.otp ?_ | refine State.Keeps.otpWf ?_ | refine State.Keeps.basin ?_ | refine State.Keeps.sram ?_))

theorem State.kp_loadAt {r s : State} (h : r.Keeps s) (x1 : LoadOp) (x2 : BitVec 5) (x3 : Nat) (x4 : Ecc) : r.Keeps (State.loadAt s x1 x2 x3 x4) := by
  unfold State.loadAt
  repeat' (first
    | with_reducible assumption
    | intro _
    | split
    | lift_lets
    | (with_reducible refine State.Keeps.of_fst (by assumption) ?_)
    | (with_reducible apply State.kp_loadSram)
    | (with_reducible apply State.kp_busRead)
    | (with_reducible apply State.kp_mResult)
    | (with_reducible apply State.kp_mapRead)
    | (with_reducible apply State.kp_raise)
    | (with_reducible apply State.kp_trap)
    | (with_reducible apply State.kp_setMgmt)
    | (with_reducible apply State.Keeps.foldl)
    | (with_reducible exact State.Keeps.later (by assumption) _)
    | (simp only [Mgmt.setReg_sram]; assumption))

theorem State.kp_rxRd {r s : State} (h : r.Keeps s) (x1 : RxPacket) (x2 : Nat) (x3 : Nat) (x4 : List (Prod Nat Ecc)) : r.Keeps (State.rxRd s x1 x2 x3 x4) := by
  unfold State.rxRd
  repeat' (first
    | with_reducible assumption
    | intro _
    | split
    | lift_lets
    | (with_reducible refine State.Keeps.of_fst (by assumption) ?_)
    | (with_reducible apply State.kp_receive)
    | (with_reducible apply State.kp_hostRead)
    | (with_reducible apply State.kp_answer))

theorem State.kp_mNop {r s : State} (h : r.Keeps s) (x1 : W32) : r.Keeps (State.mNop s x1) := by
  unfold State.mNop
  repeat' (first
    | with_reducible assumption
    | intro _
    | split
    | lift_lets
    | (with_reducible refine State.Keeps.of_fst (by assumption) ?_)
    | (with_reducible apply State.kp_nextPc)
    | (with_reducible apply State.kp_mIllegal))

theorem State.kp_mScalarOp {r s : State} (h : r.Keeps s) (x1 : Fields) : r.Keeps (State.mScalarOp s x1) := by
  unfold State.mScalarOp
  repeat' (first
    | with_reducible assumption
    | intro _
    | split
    | lift_lets
    | (with_reducible refine State.Keeps.of_fst (by assumption) ?_)
    | (with_reducible apply State.kp_mPred)
    | (with_reducible apply State.kp_mIllegal)
    | (with_reducible apply State.kp_mResult))

theorem State.kp_mLoad {r s : State} (h : r.Keeps s) (x1 : LoadOp) (x2 : Fields) (x3 : MgmtIO) : r.Keeps (State.mLoad s x1 x2 x3) := by
  unfold State.mLoad
  repeat' (first
    | with_reducible assumption
    | intro _
    | split
    | lift_lets
    | (with_reducible refine State.Keeps.of_fst (by assumption) ?_)
    | (with_reducible apply State.kp_coreAccess)
    | (with_reducible apply State.kp_loadAt))

theorem State.kp_mCwr {r s : State} (h : r.Keeps s) (x1 : Fields) : r.Keeps (State.mCwr s x1) := by
  unfold State.mCwr
  repeat' (first
    | with_reducible assumption
    | intro _
    | split
    | lift_lets
    | (with_reducible refine State.Keeps.of_fst (by assumption) ?_)
    | (with_reducible apply State.kp_mPred)
    | (with_reducible apply State.kp_mIllegal)
    | (with_reducible apply State.kp_mResult)
    | (with_reducible apply State.kp_cwLatch))

theorem State.kp_mRett {r s : State} (h : r.Keeps s) (x1 : Fields) : r.Keeps (State.mRett s x1) := by
  unfold State.mRett
  repeat' (first
    | with_reducible assumption
    | intro _
    | split
    | lift_lets
    | (with_reducible refine State.Keeps.of_fst (by assumption) ?_)
    | (with_reducible apply State.kp_mSystem)
    | (with_reducible apply State.kp_setMgmt)
    | (with_reducible apply State.kp_mIllegal))

theorem State.kp_noteOffTime {r s : State} (h : r.Keeps s) (x1 : Int) : r.Keeps (State.noteOffTime s x1) := by
  unfold State.noteOffTime
  repeat' (first
    | with_reducible assumption
    | intro _
    | split
    | lift_lets
    | (with_reducible refine State.Keeps.of_fst (by assumption) ?_)
    | (with_reducible apply State.kp_put))

theorem State.kp_applyTime {r s : State} (h : r.Keeps s) (x1 : List Byte) : r.Keeps (State.applyTime s x1) := by
  unfold State.applyTime
  repeat' (first
    | with_reducible assumption
    | (intro t; (have ht : r.Keeps t := ?_); clear_value t; (try (rotate_left; unfold t)))
    | intro _
    | split
    | lift_lets
    | (with_reducible refine State.Keeps.of_fst (by assumption) ?_)
    | (with_reducible apply State.kp_noteOffTime)
    | (with_reducible apply State.kp_put)
    | (with_reducible apply State.kp_raise)
    | (with_reducible apply State.Keeps.foldl)
    | (with_reducible exact State.Keeps.later (by assumption) _)
    | (with_reducible apply State.Keeps.foldl1)
    | (with_reducible constructor <;> dsimp only <;> first | refine State.Keeps.pending ?_ | refine State.Keeps.now ?_ | refine State.Keeps.fresh ?_ | refine State.Keeps.otp ?_ | refine State.Keeps.otpWf ?_ | refine State.Keeps.basin ?_ | refine State.Keeps.sram ?_))

theorem State.kp_rxTime {r s : State} (h : r.Keeps s) (x1 : RxPacket) : r.Keeps (State.rxTime s x1) := by
  unfold State.rxTime
  repeat' (first
    | with_reducible assumption
    | intro _
    | split
    | lift_lets
    | (with_reducible refine State.Keeps.of_fst (by assumption) ?_)
    | (with_reducible apply State.kp_receive)
    | (with_reducible apply State.kp_applyTime))

end Sys2Proof.Machine
end

