-- ==== Sys2Proof/Laws/KeepsCommands.lean ====
section
/-!
SUPPORT. State.Keeps of every function of the model: boot, issue and the wharf.
-/
namespace Sys2Proof.Machine

theorem State.kp_writeReg {r s : State} (h : r.Keeps s) (x1 : Requester) (x2 : Nat) (x3 : Nat) : r.Keeps (State.writeReg s x1 x2 x3) := by
  unfold State.writeReg
  repeat' (first
    | with_reducible assumption
    | intro _
    | split
    | lift_lets
    | (with_reducible refine State.Keeps.of_fst (by assumption) ?_)
    | (with_reducible apply State.kp_regWrite))

theorem State.kp_withBerth {r s : State} (h : r.Keeps s) (x1 : Nat) (x2 : Fin 64 → State) (h2 : ∀ (a0 : Fin 64), r.Keeps (x2 a0)) : r.Keeps (State.withBerth s x1 x2) := by
  unfold State.withBerth
  repeat' (first
    | with_reducible assumption
    | intro _
    | split
    | lift_lets
    | (with_reducible refine State.Keeps.of_fst (by assumption) ?_)
    | (with_reducible apply State.kp_status)
    | apply h2)

theorem State.kp_lostCopy {r s : State} (h : r.Keeps s) : r.Keeps (State.lostCopy s) := by
  unfold State.lostCopy
  repeat' (first
    | with_reducible assumption
    | intro _
    | split
    | lift_lets
    | (with_reducible refine State.Keeps.of_fst (by assumption) ?_)
    | (with_reducible apply State.kp_status))

theorem State.kp_cmdCeilStore {r s : State} (h : r.Keeps s) : r.Keeps (State.cmdCeilStore s) := by
  unfold State.cmdCeilStore
  repeat' (first
    | with_reducible assumption
    | intro _
    | split
    | lift_lets
    | (with_reducible refine State.Keeps.of_fst (by assumption) ?_)
    | (with_reducible apply State.kp_serve)
    | (with_reducible apply State.kp_status)
    | (with_reducible apply State.kp_withBerth)
    | (with_reducible apply State.kp_copyBerth)
    | (with_reducible apply State.kp_basFill)
    | (with_reducible apply State.kp_lostCopy))

theorem State.kp_cmdTgKeySet {r s : State} (h : r.Keeps s) : r.Keeps (State.cmdTgKeySet s) := by
  unfold State.cmdTgKeySet
  repeat' (first
    | with_reducible assumption
    | intro _
    | split
    | lift_lets
    | (with_reducible refine State.Keeps.of_fst (by assumption) ?_)
    | (with_reducible apply State.kp_serve)
    | (with_reducible apply State.kp_withInput)
    | (with_reducible apply State.kp_refused)
    | (with_reducible apply State.kp_status)
    | (with_reducible apply State.kp_draw)
    | (with_reducible apply State.Keeps.foldl)
    | (with_reducible exact State.Keeps.later (by assumption) _)
    | (with_reducible apply State.Keeps.foldl1)
    | (with_reducible constructor <;> dsimp only <;> first | refine State.Keeps.pending ?_ | refine State.Keeps.now ?_ | refine State.Keeps.fresh ?_ | refine State.Keeps.otp ?_ | refine State.Keeps.otpWf ?_ | refine State.Keeps.basin ?_ | refine State.Keeps.sram ?_))

theorem Mgmt.leading_sram (old new : Mgmt) : (old.leading new).sram = old.sram := rfl

theorem State.kp_lockSplit {r s : State} (h : r.Keeps s) (m : State → State) : r.Keeps (s.lockSplit m) := by
  unfold State.lockSplit
  exact State.kp_raise (State.kp_setMgmt h (fun w => (congrArg Memory.wf (Mgmt.leading_sram ..)).trans w)) _ _

theorem State.kp_common {r s : State} (h : r.Keeps s) (x1 : Engine) (x2 : State → ChamberId → State) (h2 : ∀ (a0 : State) (a1 : ChamberId), r.Keeps a0 → r.Keeps (x2 a0 a1)) (x3 : State → State) (h3 : ∀ (a0 : State), r.Keeps a0 → r.Keeps (x3 a0)) : r.Keeps (State.common s x1 x2 x3) := by
  unfold State.common
  repeat' (first
    | with_reducible assumption
    | intro _
    | split
    | lift_lets
    | (with_reducible refine State.Keeps.of_fst (by assumption) ?_)
    | (with_reducible apply State.kp_issueScalar)
    | (with_reducible apply State.kp_issueMgmt)
    | (with_reducible apply State.kp_lockSplit)
    | apply h2)

theorem State.kp_vectorOnly {r s : State} (h : r.Keeps s) (x1 : Engine) (x2 : Nat) (x3 : Fields) (x4 : State → ChamberId → State) (h4 : ∀ (a0 : State) (a1 : ChamberId), r.Keeps a0 → r.Keeps (x4 a0 a1)) : r.Keeps (State.vectorOnly s x1 x2 x3 x4) := by
  unfold State.vectorOnly
  repeat' (first
    | with_reducible assumption
    | intro _
    | split
    | lift_lets
    | (with_reducible refine State.Keeps.of_fst (by assumption) ?_)
    | (with_reducible apply State.kp_issueVector)
    | (with_reducible apply State.kp_issueMgmt)
    | (with_reducible apply State.kp_mIllegal)
    | (with_reducible apply State.kp_lockSplit)
    | apply h4)

theorem State.kp_chMinor {r s : State} (h : r.Keeps s) (x1 : ChamberId) (x2 : Bool) (x3 : State → State) (h3 : ∀ (a0 : State), r.Keeps a0 → r.Keeps (x3 a0)) : r.Keeps (State.chMinor s x1 x2 x3) := by
  unfold State.chMinor
  repeat' (first
    | with_reducible assumption
    | intro _
    | split
    | lift_lets
    | (with_reducible refine State.Keeps.of_fst (by assumption) ?_)
    | (with_reducible apply State.kp_illegal)
    | apply h3)

theorem State.kp_coreOnly {r s : State} (h : r.Keeps s) (x1 : Engine) (x2 : State → State) (h2 : ∀ (a0 : State), r.Keeps a0 → r.Keeps (x2 a0)) : r.Keeps (State.coreOnly s x1 x2) := by
  unfold State.coreOnly
  repeat' (first
    | with_reducible assumption
    | intro _
    | split
    | lift_lets
    | (with_reducible refine State.Keeps.of_fst (by assumption) ?_)
    | (with_reducible apply State.kp_issueScalar)
    | (with_reducible apply State.kp_illegal)
    | (with_reducible apply State.kp_issueMgmt)
    | (with_reducible apply State.kp_lockSplit))

theorem State.kp_cmdMaintExit {r s : State} (h : r.Keeps s) : r.Keeps (State.cmdMaintExit s) := by
  unfold State.cmdMaintExit
  repeat' (first
    | with_reducible assumption
    | intro _
    | split
    | lift_lets
    | (with_reducible refine State.Keeps.of_fst (by assumption) ?_)
    | (with_reducible apply State.kp_serve)
    | (with_reducible apply State.kp_status)
    | (with_reducible apply State.kp_put))

theorem State.kp_cmdClose {r s : State} (h : r.Keeps s) : r.Keeps (State.cmdClose s) := by
  unfold State.cmdClose
  repeat' (first
    | with_reducible assumption
    | intro _
    | split
    | lift_lets
    | (with_reducible refine State.Keeps.of_fst (by assumption) ?_)
    | (with_reducible apply State.kp_serve)
    | (with_reducible apply State.kp_endHost)
    | (with_reducible apply State.kp_status))

theorem State.kp_entropyPasses {r s : State} (h : r.Keeps s) : r.Keeps (State.entropyPasses s) := by
  unfold State.entropyPasses
  repeat' (first
    | with_reducible assumption
    | intro _
    | split
    | lift_lets
    | (with_reducible refine State.Keeps.of_fst (by assumption) ?_)
    | (with_reducible apply State.kp_setLive)
    | (with_reducible apply State.Keeps.foldl)
    | (with_reducible exact State.Keeps.later (by assumption) _)
    | (with_reducible apply State.Keeps.foldl1)
    | (with_reducible constructor <;> dsimp only <;> first | refine State.Keeps.pending ?_ | refine State.Keeps.now ?_ | refine State.Keeps.fresh ?_ | refine State.Keeps.otp ?_ | refine State.Keeps.otpWf ?_ | refine State.Keeps.basin ?_ | refine State.Keeps.sram ?_))

theorem State.kp_timeoutRow {r s : State} (h : r.Keeps s) : r.Keeps (State.timeoutRow s) := by
  unfold State.timeoutRow
  repeat' (first
    | with_reducible assumption
    | intro _
    | split
    | lift_lets
    | (with_reducible refine State.Keeps.of_fst (by assumption) ?_)
    | (with_reducible apply State.kp_nandTimeout))

theorem State.kp_noteHostKey {r s : State} (h : r.Keeps s) (x1 : Bool) : r.Keeps (State.noteHostKey s x1) := by
  unfold State.noteHostKey
  repeat' (first
    | with_reducible assumption
    | intro _
    | split
    | lift_lets
    | (with_reducible refine State.Keeps.of_fst (by assumption) ?_)
    | (with_reducible apply State.kp_endHost))

theorem State.kp_cmdCertSet {r s : State} (h : r.Keeps s) : r.Keeps (State.cmdCertSet s) := by
  unfold State.cmdCertSet
  repeat' (first
    | with_reducible assumption
    | (intro t; (have ht : r.Keeps t := ?_); clear_value t; (try (rotate_left; unfold t)))
    | intro _
    | split
    | lift_lets
    | (with_reducible refine State.Keeps.of_fst (by assumption) ?_)
    | (with_reducible apply State.kp_serve)
    | (with_reducible apply State.kp_withInput)
    | (with_reducible apply State.kp_fails)
    | (with_reducible apply State.kp_status)
    | (with_reducible apply State.kp_noteHostKey)
    | (with_reducible apply State.kp_noteKeys)
    | (with_reducible apply State.Keeps.foldl)
    | (with_reducible exact State.Keeps.later (by assumption) _)
    | (with_reducible apply State.Keeps.foldl1)
    | (with_reducible constructor <;> dsimp only <;> first | refine State.Keeps.pending ?_ | refine State.Keeps.now ?_ | refine State.Keeps.fresh ?_ | refine State.Keeps.otp ?_ | refine State.Keeps.otpWf ?_ | refine State.Keeps.basin ?_ | refine State.Keeps.sram ?_))

theorem State.kp_cmdIdentity {r s : State} (h : r.Keeps s) (x1 : Pair) : r.Keeps (State.cmdIdentity s x1) := by
  unfold State.cmdIdentity
  repeat' (first
    | with_reducible assumption
    | intro _
    | split
    | lift_lets
    | (with_reducible refine State.Keeps.of_fst (by assumption) ?_)
    | (with_reducible apply State.kp_serve)
    | (with_reducible apply State.kp_status)
    | (with_reducible apply State.kp_output))

theorem State.kp_noteSync {r s : State} (h : r.Keeps s) : r.Keeps (State.noteSync s) := by
  unfold State.noteSync
  repeat' (first
    | with_reducible assumption
    | intro _
    | split
    | lift_lets
    | (with_reducible refine State.Keeps.of_fst (by assumption) ?_)
    | (with_reducible apply State.kp_status))

theorem State.kp_cmdSync {r s : State} (h : r.Keeps s) : r.Keeps (State.cmdSync s) := by
  unfold State.cmdSync
  repeat' (first
    | with_reducible assumption
    | intro _
    | split
    | lift_lets
    | (with_reducible refine State.Keeps.of_fst (by assumption) ?_)
    | (with_reducible apply State.kp_serve)
    | (with_reducible apply State.kp_noteSync))

theorem State.kp_scalarOnly {r s : State} (h : r.Keeps s) (x1 : Engine) (x2 : Nat) (x3 : Fields) (x4 : State → ChamberId → State) (h4 : ∀ (a0 : State) (a1 : ChamberId), r.Keeps a0 → r.Keeps (x4 a0 a1)) : r.Keeps (State.scalarOnly s x1 x2 x3 x4) := by
  unfold State.scalarOnly
  repeat' (first
    | with_reducible assumption
    | intro _
    | split
    | lift_lets
    | (with_reducible refine State.Keeps.of_fst (by assumption) ?_)
    | (with_reducible apply State.kp_issueScalar)
    | (with_reducible apply State.kp_issueMgmt)
    | (with_reducible apply State.kp_mIllegal)
    | (with_reducible apply State.kp_lockSplit)
    | apply h4)

theorem State.kp_opEnded {r s : State} (h : r.Keeps s) : r.Keeps (State.opEnded s) := by
  unfold State.opEnded
  repeat' (first
    | with_reducible assumption
    | intro _
    | split
    | lift_lets
    | (with_reducible refine State.Keeps.of_fst (by assumption) ?_)
    | (with_reducible apply State.kp_setNand))

theorem State.kp_chkStream {r s : State} (h : r.Keeps s) : r.Keeps (State.chkStream s) := by
  unfold State.chkStream
  repeat' (first
    | with_reducible assumption
    | intro _
    | split
    | lift_lets
    | (with_reducible refine State.Keeps.of_fst (by assumption) ?_)
    | (with_reducible apply State.kp_chkStart)
    | (with_reducible apply State.kp_chkSnoop))

theorem State.kp_relights {r s : State} (h : r.Keeps s) : r.Keeps (State.relights s) := by
  unfold State.relights
  repeat' (first
    | with_reducible assumption
    | intro _
    | split
    | lift_lets
    | (with_reducible refine State.Keeps.of_fst (by assumption) ?_)
    | (with_reducible apply State.Keeps.foldl)
    | (with_reducible exact State.Keeps.later (by assumption) _)
    | (with_reducible apply State.Keeps.foldl1)
    | (with_reducible constructor <;> dsimp only <;> first | refine State.Keeps.pending ?_ | refine State.Keeps.now ?_ | refine State.Keeps.fresh ?_ | refine State.Keeps.otp ?_ | refine State.Keeps.otpWf ?_ | refine State.Keeps.basin ?_ | refine State.Keeps.sram ?_))

theorem State.kp_entropyEvent {r s : State} (h : r.Keeps s) (x1 : Nat) : r.Keeps (State.entropyEvent s x1) := by
  unfold State.entropyEvent
  repeat' (first
    | with_reducible assumption
    | intro _
    | split
    | lift_lets
    | (with_reducible refine State.Keeps.of_fst (by assumption) ?_)
    | (with_reducible apply State.kp_flag)
    | (with_reducible apply State.kp_raise))

theorem State.kp_knownAnswers {r s : State} (h : r.Keeps s) (x1 : Bool) : r.Keeps (State.knownAnswers s x1) := by
  unfold State.knownAnswers
  repeat' (first
    | with_reducible assumption
    | intro _
    | split
    | lift_lets
    | (with_reducible refine State.Keeps.of_fst (by assumption) ?_)
    | (with_reducible apply State.kp_entropyEvent)
    | (with_reducible apply State.Keeps.foldl)
    | (with_reducible exact State.Keeps.later (by assumption) _)
    | (with_reducible apply State.Keeps.foldl1)
    | (with_reducible constructor <;> dsimp only <;> first | refine State.Keeps.pending ?_ | refine State.Keeps.now ?_ | refine State.Keeps.fresh ?_ | refine State.Keeps.otp ?_ | refine State.Keeps.otpWf ?_ | refine State.Keeps.basin ?_ | refine State.Keeps.sram ?_))

theorem State.kp_entropyFails {r s : State} (h : r.Keeps s) : r.Keeps (State.entropyFails s) := by
  unfold State.entropyFails
  repeat' (first
    | with_reducible assumption
    | (intro t; (have ht : r.Keeps t := ?_); clear_value t; (try (rotate_left; unfold t)))
    | intro _
    | split
    | lift_lets
    | (with_reducible refine State.Keeps.of_fst (by assumption) ?_)
    | (with_reducible apply State.kp_inc)
    | (with_reducible apply State.kp_entropyEvent)
    | (with_reducible apply State.Keeps.foldl)
    | (with_reducible exact State.Keeps.later (by assumption) _)
    | (with_reducible apply State.Keeps.foldl1)
    | (with_reducible constructor <;> dsimp only <;> first | refine State.Keeps.pending ?_ | refine State.Keeps.now ?_ | refine State.Keeps.fresh ?_ | refine State.Keeps.otp ?_ | refine State.Keeps.otpWf ?_ | refine State.Keeps.basin ?_ | refine State.Keeps.sram ?_))

theorem State.kp_putBytes {r s : State} (h : r.Keeps s) (x1 : Nat → Fld) (x2 : Nat) (x3 : List Byte) : r.Keeps (State.putBytes s x1 x2 x3) := by
  unfold State.putBytes
  repeat' (first
    | with_reducible assumption
    | intro _
    | split
    | lift_lets
    | (with_reducible refine State.Keeps.of_fst (by assumption) ?_)
    | (with_reducible apply State.kp_put)
    | (with_reducible apply State.Keeps.foldl))

theorem State.kp_bootStep2 {r s : State} (h : r.Keeps s) (x1 : BootIO) : r.Keeps (State.bootStep2 s x1) := by
  unfold State.bootStep2
  repeat' (first
    | with_reducible assumption
    | (intro t; (have ht : r.Keeps t := ?_); clear_value t; (try (rotate_left; unfold t)))
    | intro _
    | split
    | lift_lets
    | (with_reducible refine State.Keeps.of_fst (by assumption) ?_)
    | (with_reducible apply State.kp_raise)
    | (with_reducible apply State.kp_knownAnswers)
    | (with_reducible apply State.kp_entropyFails)
    | (with_reducible apply State.kp_put)
    | (with_reducible apply State.kp_draw)
    | (with_reducible apply State.kp_noteKeys)
    | (with_reducible apply State.kp_putBytes)
    | (with_reducible apply State.Keeps.foldl)
    | (with_reducible exact State.Keeps.later (by assumption) _)
    | (with_reducible apply State.Keeps.foldl1)
    | (with_reducible constructor <;> dsimp only <;> first | refine State.Keeps.pending ?_ | refine State.Keeps.now ?_ | refine State.Keeps.fresh ?_ | refine State.Keeps.otp ?_ | refine State.Keeps.otpWf ?_ | refine State.Keeps.basin ?_ | refine State.Keeps.sram ?_))

theorem State.kp_liveExpires {r s : State} (h : r.Keeps s) (x1 : Nat) : r.Keeps (State.liveExpires s x1) := by
  unfold State.liveExpires
  repeat' (first
    | with_reducible assumption
    | intro _
    | split
    | lift_lets
    | (with_reducible refine State.Keeps.of_fst (by assumption) ?_)
    | (with_reducible apply State.kp_setLive))

theorem State.kp_cmdResync {r s : State} (h : r.Keeps s) : r.Keeps (State.cmdResync s) := by
  unfold State.cmdResync
  repeat' (first
    | with_reducible assumption
    | intro _
    | split
    | lift_lets
    | (with_reducible refine State.Keeps.of_fst (by assumption) ?_)
    | (with_reducible apply State.kp_serve)
    | (with_reducible apply State.kp_status)
    | (with_reducible apply State.kp_resyncRequest))

theorem State.kp_noteWindow {r s : State} (h : r.Keeps s) (x1 : Bool) : r.Keeps (State.noteWindow s x1) := by
  unfold State.noteWindow
  repeat' (first
    | with_reducible assumption
    | (intro t; (have ht : r.Keeps t := ?_); clear_value t; (try (rotate_left; unfold t)))
    | intro _
    | split
    | lift_lets
    | (with_reducible refine State.Keeps.of_fst (by assumption) ?_)
    | (with_reducible apply State.kp_setNand)
    | (with_reducible apply State.kp_noteSync)
    | (with_reducible apply State.kp_noteDeferral))

theorem State.kp_linkSession {r s : State} (h : r.Keeps s) (x1 : LinkId) (x2 : Nat) : r.Keeps (State.linkSession s x1 x2) := by
  unfold State.linkSession
  repeat' (first
    | with_reducible assumption
    | intro _
    | split
    | lift_lets
    | (with_reducible refine State.Keeps.of_fst (by assumption) ?_)
    | (with_reducible apply State.kp_put)
    | (with_reducible apply State.kp_setLink))

theorem State.kp_cmdFinish {r s : State} (h : r.Keeps s) (x1 : Pair) : r.Keeps (State.cmdFinish s x1) := by
  unfold State.cmdFinish
  repeat' (first
    | with_reducible assumption
    | intro _
    | split
    | lift_lets
    | (with_reducible refine State.Keeps.of_fst (by assumption) ?_)
    | (with_reducible apply State.kp_serve)
    | (with_reducible apply State.kp_withInput)
    | (with_reducible apply State.kp_hostFinish)
    | (with_reducible apply State.kp_status)
    | (with_reducible apply State.kp_linkSession)
    | (with_reducible apply State.kp_fails))

theorem State.kp_telemetryRecord {r s : State} (h : r.Keeps s) : r.Keeps (s.telemetryRecord) := by
  have lost (b : Prop) [Decidable b] : r.Keeps (if b then s.inc Reg.WHF_TELEM_LOST_COUNT else s) := by
    split
    · exact State.kp_inc h _
    · exact h
  have dated {t : State} (k : r.Keeps t) (x : Rif) : r.Keeps { t with rif := x } := ⟨k.pending, k.now, k.fresh, k.otp, k.otpWf, k.basin, k.sram⟩
  unfold State.telemetryRecord
  split
  · exact h
  · exact State.kp_flag (State.kp_incMod (State.kp_basWrite (dated (lost _) _) _ _) _) _

theorem Memory.wf_canon (lo hi : Nat) (m : Memory) : (Memory.canon lo hi m).wf = true := by
  simp only [Memory.wf, Sparse.wf, Bool.and_eq_true, List.all_eq_true]
  exact ⟨Sparse.rising_mono (Memory.rising_canon lo _ _) (Nat.zero_le _), fun c hc => by simpa using (Memory.mem_canon hc).2⟩

theorem State.kp_loadPackage {r s : State} (h : r.Keeps s) (io : BootIO) : r.Keeps (s.loadPackage io) := by
  unfold State.loadPackage
  split
  · exact State.kp_raise h _ _
  · extract_lets s1 src s2
    have h1 : r.Keeps s1 := State.Keeps.foldl (fun _ _ h => State.kp_tsSet h _ _) _ _ h
    clear_value s1
    have h2 : r.Keeps s2 := State.kp_setMgmt h1 (fun _ => Memory.wf_canon _ _ _)
    clear_value s2
    exact State.kp_put (State.kp_putBytes h2 _ _ _) _ _

theorem State.kp_rowSlotAll {r s : State} (h : r.Keeps s) (x1 : Nat) (x2 : List SlotMeas) : r.Keeps (State.rowSlotAll s x1 x2) := by
  unfold State.rowSlotAll
  repeat' (first
    | with_reducible assumption
    | (intro t; (have ht : r.Keeps t := ?_); clear_value t; (try (rotate_left; unfold t)))
    | intro _
    | split
    | lift_lets
    | (with_reducible refine State.Keeps.of_fst (by assumption) ?_)
    | (with_reducible apply State.kp_chkDrive)
    | (with_reducible apply State.kp_relights)
    | (with_reducible apply State.kp_rowSlot)
    | (with_reducible apply State.kp_raiseOutputs)
    | (with_reducible apply State.Keeps.foldl))

theorem State.kp_cmdTestEnter {r s : State} (h : r.Keeps s) : r.Keeps (State.cmdTestEnter s) := by
  unfold State.cmdTestEnter
  repeat' (first
    | with_reducible assumption
    | intro _
    | split
    | lift_lets
    | (with_reducible refine State.Keeps.of_fst (by assumption) ?_)
    | (with_reducible apply State.kp_serve)
    | (with_reducible apply State.kp_status)
    | (with_reducible apply State.kp_setTest))

theorem State.kp_checked {r s : State} (h : r.Keeps s) (x1 : Nat) : r.Keeps (State.checked s x1) := by
  unfold State.checked
  repeat' (first
    | with_reducible assumption
    | intro _
    | split
    | lift_lets
    | (with_reducible refine State.Keeps.of_fst (by assumption) ?_)
    | (with_reducible apply State.kp_status)
    | (with_reducible apply State.kp_complete))

theorem State.kp_writeBits {r s : State} (h : r.Keeps s) (x1 : Requester) (x2 : Nat) (x3 : Nat) (x4 : Nat) : r.Keeps (State.writeBits s x1 x2 x3 x4) := by
  unfold State.writeBits
  repeat' (first
    | with_reducible assumption
    | intro _
    | split
    | lift_lets
    | (with_reducible refine State.Keeps.of_fst (by assumption) ?_)
    | (with_reducible apply State.kp_writeReg))

theorem State.kp_noteCode {r s : State} (h : r.Keeps s) (x1 : Nat) (x2 : Nat) (x3 : Option Blob) : r.Keeps (State.noteCode s x1 x2 x3) := by
  unfold State.noteCode
  repeat' (first
    | with_reducible assumption
    | (intro t; (have ht : r.Keeps t := ?_); clear_value t; (try (rotate_left; unfold t)))
    | intro _
    | split
    | lift_lets
    | (with_reducible refine State.Keeps.of_fst (by assumption) ?_)
    | (with_reducible apply State.kp_put)
    | (with_reducible apply State.kp_raise))

theorem State.kp_writeImage {r s : State} (h : r.Keeps s) (x1 : Pair) (x2 : Nat) (x3 : Blob) : r.Keeps (State.writeImage s x1 x2 x3) := by
  unfold State.writeImage
  repeat' (first
    | with_reducible assumption
    | intro _
    | split
    | lift_lets
    | (with_reducible refine State.Keeps.of_fst (by assumption) ?_)
    | (with_reducible apply State.kp_writeFile)
    | (with_reducible apply State.kp_noteCode)
    | (with_reducible apply State.kp_fails))

theorem State.kp_cmdImageWrite {r s : State} (h : r.Keeps s) : r.Keeps (State.cmdImageWrite s) := by
  unfold State.cmdImageWrite
  repeat' (first
    | with_reducible assumption
    | intro _
    | split
    | lift_lets
    | (with_reducible refine State.Keeps.of_fst (by assumption) ?_)
    | (with_reducible apply State.kp_serve)
    | (with_reducible apply State.kp_status)
    | (with_reducible apply State.kp_copyBerth)
    | (with_reducible apply State.kp_writeImage))

theorem State.kp_cmdStartSet {r s : State} (h : r.Keeps s) : r.Keeps (State.cmdStartSet s) := by
  unfold State.cmdStartSet
  repeat' (first
    | with_reducible assumption
    | (intro t; (have ht : r.Keeps t := ?_); clear_value t; (try (rotate_left; unfold t)))
    | intro _
    | split
    | lift_lets
    | (with_reducible refine State.Keeps.of_fst (by assumption) ?_)
    | (with_reducible apply State.kp_serve)
    | (with_reducible apply State.kp_status)
    | (with_reducible apply State.kp_setNand)
    | (with_reducible apply State.kp_issueWrite))

theorem State.kp_mMinor {r s : State} (h : r.Keeps s) (x1 : Fields) (x2 : Nat) (x3 : State → State) (h3 : ∀ (a0 : State), r.Keeps a0 → r.Keeps (x3 a0)) : r.Keeps (State.mMinor s x1 x2 x3) := by
  unfold State.mMinor
  repeat' (first
    | with_reducible assumption
    | intro _
    | split
    | lift_lets
    | (with_reducible refine State.Keeps.of_fst (by assumption) ?_)
    | (with_reducible apply State.kp_mIllegal)
    | apply h3)

theorem State.kp_escalationExpires {r s : State} (h : r.Keeps s) : r.Keeps (State.escalationExpires s) := by
  unfold State.escalationExpires
  repeat' (first
    | with_reducible assumption
    | (intro t; (have ht : r.Keeps t := ?_); clear_value t; (try (rotate_left; unfold t)))
    | intro _
    | split
    | lift_lets
    | (with_reducible refine State.Keeps.of_fst (by assumption) ?_)
    | (with_reducible apply State.kp_raise)
    | (with_reducible apply State.kp_flag)
    | (with_reducible apply State.kp_put)
    | (with_reducible apply State.kp_requestReset)
    | (with_reducible apply State.Keeps.foldl)
    | (with_reducible exact State.Keeps.later (by assumption) _)
    | (with_reducible apply State.Keeps.foldl1)
    | (with_reducible constructor <;> dsimp only <;> first | refine State.Keeps.pending ?_ | refine State.Keeps.now ?_ | refine State.Keeps.fresh ?_ | refine State.Keeps.otp ?_ | refine State.Keeps.otpWf ?_ | refine State.Keeps.basin ?_ | refine State.Keeps.sram ?_))

theorem State.kp_coldReset {r s : State} (h : r.Keeps s) (x1 : Nat) : r.Keeps (State.coldReset s x1) := by
  unfold State.coldReset
  repeat' (first
    | with_reducible assumption
    | intro _
    | split
    | lift_lets
    | (with_reducible refine State.Keeps.of_fst (by assumption) ?_)
    | (with_reducible apply State.kp_put)
    | (with_reducible apply State.kp_rebirth))

theorem State.kp_inOtpWindow {r s : State} (h : r.Keeps s) (x1 : Pair) (x2 : State → State) (h2 : ∀ (a0 : State), r.Keeps a0 → r.Keeps (x2 a0)) : r.Keeps (State.inOtpWindow s x1 x2) := by
  unfold State.inOtpWindow
  repeat' (first
    | with_reducible assumption
    | intro _
    | split
    | lift_lets
    | (with_reducible refine State.Keeps.of_fst (by assumption) ?_)
    | (with_reducible apply State.kp_status)
    | apply h2)

theorem State.kp_otpDone {r s : State} (h : r.Keeps s) (x1 : Pair) (x2 : Bool) (x3 : Nat) : r.Keeps (State.otpDone s x1 x2 x3) := by
  unfold State.otpDone
  repeat' (first
    | with_reducible assumption
    | (intro t; (have ht : r.Keeps t := ?_); clear_value t; (try (rotate_left; unfold t)))
    | intro _
    | split
    | lift_lets
    | (with_reducible refine State.Keeps.of_fst (by assumption) ?_)
    | (with_reducible apply State.kp_fails)
    | (with_reducible apply State.kp_flag)
    | (with_reducible apply State.kp_raise)
    | (with_reducible apply State.kp_noteKeys))

theorem State.kp_cmdInstallRoot {r s : State} (h : r.Keeps s) (x1 : Pair) (x2 : OtpRun) : r.Keeps (State.cmdInstallRoot s x1 x2) := by
  unfold State.cmdInstallRoot
  repeat' (first
    | with_reducible assumption
    | intro _
    | split
    | lift_lets
    | (with_reducible refine State.Keeps.of_fst (by assumption) ?_)
    | (with_reducible apply State.kp_serve)
    | (with_reducible apply State.kp_withInput)
    | (with_reducible apply State.kp_status)
    | (with_reducible apply State.kp_inOtpWindow)
    | (with_reducible apply State.kp_otpProgram)
    | (with_reducible apply State.kp_clearChallenge)
    | (with_reducible apply State.kp_otpDone)
    | (with_reducible apply State.kp_issueWrite)
    | (with_reducible apply State.Keeps.foldl)
    | (with_reducible exact State.Keeps.later (by assumption) _)
    | (with_reducible apply State.Keeps.foldl1)
    | (with_reducible constructor <;> dsimp only <;> first | refine State.Keeps.pending ?_ | refine State.Keeps.now ?_ | refine State.Keeps.fresh ?_ | refine State.Keeps.otp ?_ | refine State.Keeps.otpWf ?_ | refine State.Keeps.basin ?_ | refine State.Keeps.sram ?_))

theorem State.kp_cmdRevokeRoot {r s : State} (h : r.Keeps s) (x1 : Pair) (x2 : OtpRun) : r.Keeps (State.cmdRevokeRoot s x1 x2) := by
  unfold State.cmdRevokeRoot
  repeat' (first
    | with_reducible assumption
    | intro _
    | split
    | lift_lets
    | (with_reducible refine State.Keeps.of_fst (by assumption) ?_)
    | (with_reducible apply State.kp_serve)
    | (with_reducible apply State.kp_status)
    | (with_reducible apply State.kp_inOtpWindow)
    | (with_reducible apply State.kp_otpProgram)
    | (with_reducible apply State.kp_otpDone))

theorem State.kp_jump {r s : State} (h : r.Keeps s) (i : Nat) (fallback : Bool) (img : Blob) : r.Keeps (s.jump i fallback img) := by
  unfold State.jump
  extract_lets s1 s2 s3
  have h3 : r.Keeps s3 := by
    have h2 : r.Keeps s2 := State.kp_putBytes (State.kp_put (State.kp_put h _ _) _ _) _ _ _
    unfold s3
    clear_value s2
    split
    · exact State.kp_raise (State.kp_put h2 _ _) _ _
    · exact h2
  clear_value s3
  exact ⟨h3.pending, h3.now, h3.fresh, h3.otp, h3.otpWf, h3.basin, fun w => Memory.wf_splice _ _ _ (h3.sram w)⟩

theorem State.kp_enterRecovery {r s : State} (h : r.Keeps s) : r.Keeps (State.enterRecovery s) := by
  unfold State.enterRecovery
  repeat' (first
    | with_reducible assumption
    | (intro t; (have ht : r.Keeps t := ?_); clear_value t; (try (rotate_left; unfold t)))
    | intro _
    | split
    | lift_lets
    | (with_reducible refine State.Keeps.of_fst (by assumption) ?_)
    | (with_reducible apply State.kp_condition)
    | (with_reducible apply State.kp_put)
    | (with_reducible apply State.kp_linkSwitch))

theorem State.kp_selectImage {r s : State} (h : r.Keeps s) (io : BootIO) : r.Keeps (s.selectImage io) := by
  unfold State.selectImage
  generalize s.trySlots io = ab
  obtain ⟨a, b⟩ := ab
  dsimp -zeta only
  extract_lets ca s1 cb s2
  have h1 : r.Keeps s1 := State.kp_noteCode h _ _ _
  have h2 : r.Keeps s2 := State.kp_noteCode h1 _ _ _
  clear_value s1 s2
  split
  · exact State.kp_jump (State.kp_loadPackage h1 _) _ _ _
  · split
    · exact State.kp_jump (State.kp_loadPackage h2 _) _ _ _
    · exact State.kp_enterRecovery h2

theorem State.kp_cmdChallenge {r s : State} (h : r.Keeps s) (x1 : Pair) : r.Keeps (State.cmdChallenge s x1) := by
  unfold State.cmdChallenge
  repeat' (first
    | with_reducible assumption
    | intro _
    | split
    | lift_lets
    | (with_reducible refine State.Keeps.of_fst (by assumption) ?_)
    | (with_reducible apply State.kp_serve)
    | (with_reducible apply State.kp_status)
    | (with_reducible apply State.kp_newChallenge)
    | (with_reducible apply State.kp_output))

theorem State.kp_replayJournal {r s : State} (h : r.Keeps s) : r.Keeps (State.replayJournal s) := by
  unfold State.replayJournal
  repeat' (first
    | with_reducible assumption
    | (intro t; (have ht : r.Keeps t := ?_); clear_value t; (try (rotate_left; unfold t)))
    | intro _
    | split
    | lift_lets
    | (with_reducible refine State.Keeps.of_fst (by assumption) ?_)
    | (with_reducible apply State.kp_raise)
    | (with_reducible apply State.kp_setNand)
    | (with_reducible apply State.kp_noteCkptAge)
    | (with_reducible apply State.kp_noteBlocks)
    | (with_reducible apply State.kp_put))

theorem State.kp_cmdShutdown {r s : State} (h : r.Keeps s) : r.Keeps (State.cmdShutdown s) := by
  unfold State.cmdShutdown
  repeat' (first
    | with_reducible assumption
    | intro _
    | split
    | lift_lets
    | (with_reducible refine State.Keeps.of_fst (by assumption) ?_)
    | (with_reducible apply State.kp_serve)
    | (with_reducible apply State.kp_checkpoint))

theorem State.kp_tapToken {r s : State} (h : r.Keeps s) (x1 : List Byte) : r.Keeps (State.tapToken s x1) := by
  unfold State.tapToken
  repeat' (first
    | with_reducible assumption
    | intro _
    | split
    | lift_lets
    | (with_reducible refine State.Keeps.of_fst (by assumption) ?_)
    | (with_reducible apply State.kp_noteKeys)
    | (with_reducible apply State.kp_openDebug)
    | (with_reducible apply State.kp_raises)
    | (with_reducible apply State.kp_refuseDebug))

theorem State.kp_cmdFlightStore {r s : State} (h : r.Keeps s) : r.Keeps (State.cmdFlightStore s) := by
  unfold State.cmdFlightStore
  repeat' (first
    | with_reducible assumption
    | intro _
    | split
    | lift_lets
    | (with_reducible refine State.Keeps.of_fst (by assumption) ?_)
    | (with_reducible apply State.kp_serve)
    | (with_reducible apply State.kp_status)
    | (with_reducible apply State.kp_withBerth)
    | (with_reducible apply State.kp_copyBerth)
    | (with_reducible apply State.kp_writeFile)
    | (with_reducible apply State.kp_checked)
    | (with_reducible apply State.kp_flightFails)
    | (with_reducible apply State.kp_lostCopy))

theorem State.kp_peerHello {r s : State} (h : r.Keeps s) : r.Keeps (State.peerHello s).1 := by
  unfold State.peerHello
  repeat' (first
    | with_reducible assumption
    | intro _
    | split
    | lift_lets
    | (with_reducible refine State.Keeps.of_fst (by assumption) ?_)
    | (with_reducible apply State.kp_random)
    | (with_reducible apply State.kp_draw)
    | (with_reducible apply State.Keeps.foldl)
    | (with_reducible exact State.Keeps.later (by assumption) _)
    | (with_reducible apply State.Keeps.foldl1)
    | (with_reducible constructor <;> dsimp only <;> first | refine State.Keeps.pending ?_ | refine State.Keeps.now ?_ | refine State.Keeps.fresh ?_ | refine State.Keeps.otp ?_ | refine State.Keeps.otpWf ?_ | refine State.Keeps.basin ?_ | refine State.Keeps.sram ?_))

theorem State.kp_cmdCommitSvn {r s : State} (h : r.Keeps s) (x1 : OtpRun) : r.Keeps (State.cmdCommitSvn s x1) := by
  unfold State.cmdCommitSvn
  repeat' (first
    | with_reducible assumption
    | intro _
    | split
    | lift_lets
    | (with_reducible refine State.Keeps.of_fst (by assumption) ?_)
    | (with_reducible apply State.kp_serve)
    | (with_reducible apply State.kp_inOtpWindow)
    | (with_reducible apply State.kp_otpProgram)
    | (with_reducible apply State.kp_otpDone)
    | (with_reducible apply State.kp_status))

theorem State.kp_cmdPairSet {r s : State} (h : r.Keeps s) : r.Keeps (State.cmdPairSet s) := by
  unfold State.cmdPairSet
  repeat' (first
    | with_reducible assumption
    | intro _
    | split
    | lift_lets
    | (with_reducible refine State.Keeps.of_fst (by assumption) ?_)
    | (with_reducible apply State.kp_serve)
    | (with_reducible apply State.kp_withInput)
    | (with_reducible apply State.kp_fails)
    | (with_reducible apply State.kp_status)
    | (with_reducible apply State.Keeps.foldl)
    | (with_reducible exact State.Keeps.later (by assumption) _)
    | (with_reducible apply State.Keeps.foldl1)
    | (with_reducible constructor <;> dsimp only <;> first | refine State.Keeps.pending ?_ | refine State.Keeps.now ?_ | refine State.Keeps.fresh ?_ | refine State.Keeps.otp ?_ | refine State.Keeps.otpWf ?_ | refine State.Keeps.basin ?_ | refine State.Keeps.sram ?_))

theorem State.kp_cmdProvisionEnd {r s : State} (h : r.Keeps s) (x1 : Pair) : r.Keeps (State.cmdProvisionEnd s x1) := by
  unfold State.cmdProvisionEnd
  repeat' (first
    | with_reducible assumption
    | intro _
    | split
    | lift_lets
    | (with_reducible refine State.Keeps.of_fst (by assumption) ?_)
    | (with_reducible apply State.kp_serve)
    | (with_reducible apply State.kp_warmReset)
    | (with_reducible apply State.kp_status))

theorem State.kp_withImage {r s : State} (h : r.Keeps s) (x1 : Nat) (x2 : Nat) (x3 : Nat) (x4 : State → Blob → State) (h4 : ∀ (a0 : State) (a1 : Blob), r.Keeps a0 → r.Keeps (x4 a0 a1)) (x5 : State → State) (h5 : ∀ (a0 : State), r.Keeps a0 → r.Keeps (x5 a0)) : r.Keeps (State.withImage s x1 x2 x3 x4 x5) := by
  unfold State.withImage
  repeat' (first
    | with_reducible assumption
    | intro _
    | split
    | lift_lets
    | (with_reducible refine State.Keeps.of_fst (by assumption) ?_)
    | (with_reducible apply State.kp_withBerth)
    | (with_reducible apply State.kp_copyBerth)
    | (with_reducible apply State.kp_readFile)
    | apply h4
    | apply h5)

theorem State.kp_cmdFlightLoad {r s : State} (h : r.Keeps s) : r.Keeps (State.cmdFlightLoad s) := by
  unfold State.cmdFlightLoad
  repeat' (first
    | with_reducible assumption
    | intro _
    | split
    | lift_lets
    | (with_reducible refine State.Keeps.of_fst (by assumption) ?_)
    | (with_reducible apply State.kp_serve)
    | (with_reducible apply State.kp_status)
    | (with_reducible apply State.kp_withImage)
    | (with_reducible apply State.kp_flightLoad)
    | (with_reducible apply State.kp_checked)
    | (with_reducible apply State.kp_lostCopy)
    | (with_reducible apply State.kp_invalidateSlot))

theorem State.kp_blockErase {r s : State} (h : r.Keeps s) (x1 : Bool) : r.Keeps (State.blockErase s x1) := by
  unfold State.blockErase
  repeat' (first
    | with_reducible assumption
    | intro _
    | split
    | lift_lets
    | (with_reducible refine State.Keeps.of_fst (by assumption) ?_)
    | (with_reducible apply State.kp_eraseDone)
    | (with_reducible apply State.kp_opEnded))

theorem State.kp_cmdCalibrate {r s : State} (h : r.Keeps s) : r.Keeps (State.cmdCalibrate s) := by
  unfold State.cmdCalibrate
  repeat' (first
    | with_reducible assumption
    | intro _
    | split
    | lift_lets
    | (with_reducible refine State.Keeps.of_fst (by assumption) ?_)
    | (with_reducible apply State.kp_serve)
    | (with_reducible apply State.kp_status)
    | (with_reducible apply State.kp_calQueue))

theorem State.kp_cmdLibraryStore {r s : State} (h : r.Keeps s) : r.Keeps (State.cmdLibraryStore s) := by
  unfold State.cmdLibraryStore
  repeat' (first
    | with_reducible assumption
    | intro _
    | split
    | lift_lets
    | (with_reducible refine State.Keeps.of_fst (by assumption) ?_)
    | (with_reducible apply State.kp_serve)
    | (with_reducible apply State.kp_withBerth)
    | (with_reducible apply State.kp_copyBerth)
    | (with_reducible apply State.kp_writeFile)
    | (with_reducible apply State.kp_checked)
    | (with_reducible apply State.kp_libFails)
    | (with_reducible apply State.kp_lostCopy))

theorem State.kp_bootWatchdog {r s : State} (h : r.Keeps s) : r.Keeps (State.bootWatchdog s) := by
  unfold State.bootWatchdog
  repeat' (first
    | with_reducible assumption
    | intro _
    | split
    | lift_lets
    | (with_reducible refine State.Keeps.of_fst (by assumption) ?_)
    | (with_reducible apply State.kp_warmReset))

theorem State.kp_bindPart {r s : State} (h : r.Keeps s) (x1 : Option FoundPart) : r.Keeps (State.bindPart s x1) := by
  unfold State.bindPart
  repeat' (first
    | with_reducible assumption
    | (intro t; (have ht : r.Keeps t := ?_); clear_value t; (try (rotate_left; unfold t)))
    | intro _
    | split
    | lift_lets
    | (with_reducible refine State.Keeps.of_fst (by assumption) ?_)
    | (with_reducible apply State.kp_put)
    | (with_reducible apply State.kp_setNand))

theorem State.kp_bootStart {r s : State} (h : r.Keeps s) (x1 : BootIO) : r.Keeps (State.bootStart s x1) := by
  unfold State.bootStart
  repeat' (first
    | with_reducible assumption
    | (intro t; (have ht : r.Keeps t := ?_); clear_value t; (try (rotate_left; unfold t)))
    | intro _
    | split
    | lift_lets
    | (with_reducible refine State.Keeps.of_fst (by assumption) ?_)
    | (with_reducible apply State.kp_raise)
    | (with_reducible apply State.kp_setMgmt)
    | (with_reducible apply State.kp_selectImage)
    | (with_reducible apply State.kp_bindPart)
    | (with_reducible apply State.kp_bootStep2)
    | (with_reducible apply State.Keeps.foldl)
    | (with_reducible exact State.Keeps.later (by assumption) _)
    | (with_reducible apply State.Keeps.foldl1)
    | (with_reducible constructor <;> dsimp only <;> first | refine State.Keeps.pending ?_ | refine State.Keeps.now ?_ | refine State.Keeps.fresh ?_ | refine State.Keeps.otp ?_ | refine State.Keeps.otpWf ?_ | refine State.Keeps.basin ?_ | refine State.Keeps.sram ?_))

theorem State.kp_fileContent {r s : State} (h : r.Keeps s) (x1 : Nat) (x2 : Nat) (x3 : Nat) : r.Keeps (State.fileContent s x1 x2 x3).1 := by
  unfold State.fileContent
  repeat' (first
    | with_reducible assumption
    | (intro t; (have ht : r.Keeps t := ?_); clear_value t; (try (rotate_left; unfold t)))
    | intro _
    | split
    | lift_lets
    | (with_reducible refine State.Keeps.of_fst (by assumption) ?_)
    | (with_reducible apply State.kp_readFile)
    | (with_reducible apply State.kp_draw))

theorem State.kp_cmdHello {r s : State} (h : r.Keeps s) (x1 : Pair) : r.Keeps (State.cmdHello s x1) := by
  unfold State.cmdHello
  repeat' (first
    | with_reducible assumption
    | intro _
    | split
    | lift_lets
    | (with_reducible refine State.Keeps.of_fst (by assumption) ?_)
    | (with_reducible apply State.kp_serve)
    | (with_reducible apply State.kp_status)
    | (with_reducible apply State.kp_withInput)
    | (with_reducible apply State.kp_hostHello)
    | (with_reducible apply State.kp_output)
    | (with_reducible apply State.kp_fails))

theorem State.kp_peerRefuses {r s : State} (h : r.Keeps s) : r.Keeps (State.peerRefuses s).1 := by
  unfold State.peerRefuses
  repeat' (first
    | with_reducible assumption
    | intro _
    | split
    | lift_lets
    | (with_reducible refine State.Keeps.of_fst (by assumption) ?_)
    | (with_reducible apply State.Keeps.foldl)
    | (with_reducible exact State.Keeps.later (by assumption) _)
    | (with_reducible apply State.Keeps.foldl1)
    | (with_reducible constructor <;> dsimp only <;> first | refine State.Keeps.pending ?_ | refine State.Keeps.now ?_ | refine State.Keeps.fresh ?_ | refine State.Keeps.otp ?_ | refine State.Keeps.otpWf ?_ | refine State.Keeps.basin ?_ | refine State.Keeps.sram ?_))

theorem State.kp_cmdBackup {r s : State} (h : r.Keeps s) : r.Keeps (State.cmdBackup s) := by
  unfold State.cmdBackup
  repeat' (first
    | with_reducible assumption
    | intro _
    | split
    | lift_lets
    | (with_reducible refine State.Keeps.of_fst (by assumption) ?_)
    | (with_reducible apply State.kp_serve)
    | (with_reducible apply State.kp_issueWrite))

theorem State.kp_tapExtest {r s : State} (h : r.Keeps s) (x1 : Bool) : r.Keeps (State.tapExtest s x1) := by
  unfold State.tapExtest
  repeat' (first
    | with_reducible assumption
    | intro _
    | split
    | lift_lets
    | (with_reducible refine State.Keeps.of_fst (by assumption) ?_)
    | (with_reducible apply State.Keeps.foldl)
    | (with_reducible exact State.Keeps.later (by assumption) _)
    | (with_reducible apply State.Keeps.foldl1)
    | (with_reducible constructor <;> dsimp only <;> first | refine State.Keeps.pending ?_ | refine State.Keeps.now ?_ | refine State.Keeps.fresh ?_ | refine State.Keeps.otp ?_ | refine State.Keeps.otpWf ?_ | refine State.Keeps.basin ?_ | refine State.Keeps.sram ?_))

theorem State.kp_bootLoads {r s : State} (h : r.Keeps s) : r.Keeps (State.bootLoads s) := by
  unfold State.bootLoads
  repeat' (first
    | with_reducible assumption
    | (intro t; (have ht : r.Keeps t := ?_); clear_value t; (try (rotate_left; unfold t)))
    | intro _
    | split
    | lift_lets
    | (with_reducible refine State.Keeps.of_fst (by assumption) ?_)
    | (with_reducible apply State.kp_readFile)
    | (with_reducible apply State.kp_libLoad)
    | (with_reducible apply State.kp_flightLoad))

theorem State.kp_tapChallenge {r s : State} (h : r.Keeps s) : r.Keeps (State.tapChallenge s) := by
  unfold State.tapChallenge
  repeat' (first
    | with_reducible assumption
    | intro _
    | split
    | lift_lets
    | (with_reducible refine State.Keeps.of_fst (by assumption) ?_)
    | (with_reducible apply State.kp_newChallenge))

theorem State.kp_ceilTake {r s : State} (h : r.Keeps s) (x1 : Nat) (x2 : Nat) : r.Keeps (State.ceilTake s x1 x2) := by
  unfold State.ceilTake
  repeat' (first
    | with_reducible assumption
    | intro _
    | split
    | lift_lets
    | (with_reducible refine State.Keeps.of_fst (by assumption) ?_)
    | (with_reducible apply State.Keeps.foldl)
    | (with_reducible exact State.Keeps.later (by assumption) _)
    | (with_reducible apply State.Keeps.foldl1)
    | (with_reducible constructor <;> dsimp only <;> first | refine State.Keeps.pending ?_ | refine State.Keeps.now ?_ | refine State.Keeps.fresh ?_ | refine State.Keeps.otp ?_ | refine State.Keeps.otpWf ?_ | refine State.Keeps.basin ?_ | refine State.Keeps.sram ?_))

theorem State.kp_fit {r s : State} (h : r.Keeps s) (x : Fitted) : r.Keeps (s.fit x) := by
  unfold State.fit
  split
  · exact h
  · rename_i he
    have e : s.sec.otp = [] := by
      simp only [Bool.or_eq_true, Bool.not_eq_true', not_or, Bool.not_eq_false, List.isEmpty_iff] at he
      exact he.1
    refine ⟨h.pending, h.now, h.fresh, fun a => ?_, fun _ => ?_, h.basin, h.sram⟩
    · have h1 := h.otp a
      rw [e] at h1
      have h0 : r.sec.otp.byte a = 0#8 := by rw [← h1]; exact BitVec.and_zero
      rw [h0]; exact BitVec.zero_and
    · simp only [Memory.wf, Sparse.wf, Bool.and_eq_true, List.all_eq_true]
      exact ⟨(Memory.wf_cellsFrom x.otp 0).1, fun c hc => by simpa using (Memory.wf_cellsFrom x.otp 0).2 c hc⟩

theorem State.kp_powerUp {r s : State} (h : r.Keeps s) (x1 : Option Fitted) : r.Keeps (State.powerUp s x1) := by
  unfold State.powerUp
  repeat' (first
    | with_reducible assumption
    | intro _
    | split
    | lift_lets
    | (with_reducible refine State.Keeps.of_fst (by assumption) ?_)
    | (with_reducible apply State.kp_coldReset)
    | (with_reducible apply State.kp_fit))

theorem State.kp_resetN {r s : State} (h : r.Keeps s) (x1 : Bool) : r.Keeps (State.resetN s x1) := by
  unfold State.resetN
  repeat' (first
    | with_reducible assumption
    | intro _
    | split
    | lift_lets
    | (with_reducible refine State.Keeps.of_fst (by assumption) ?_)
    | (with_reducible apply State.kp_coldReset)
    | (with_reducible apply State.Keeps.foldl)
    | (with_reducible exact State.Keeps.later (by assumption) _)
    | (with_reducible apply State.Keeps.foldl1)
    | (with_reducible constructor <;> dsimp only <;> first | refine State.Keeps.pending ?_ | refine State.Keeps.now ?_ | refine State.Keeps.fresh ?_ | refine State.Keeps.otp ?_ | refine State.Keeps.otpWf ?_ | refine State.Keeps.basin ?_ | refine State.Keeps.sram ?_))

theorem State.kp_powerDetect {r s : State} (h : r.Keeps s) (x1 : PowerSense) : r.Keeps (State.powerDetect s x1) := by
  unfold State.powerDetect
  repeat' (first
    | with_reducible assumption
    | intro _
    | split
    | lift_lets
    | (with_reducible refine State.Keeps.of_fst (by assumption) ?_)
    | (with_reducible apply State.kp_coldReset)
    | (with_reducible apply State.Keeps.foldl)
    | (with_reducible exact State.Keeps.later (by assumption) _)
    | (with_reducible apply State.Keeps.foldl1)
    | (with_reducible constructor <;> dsimp only <;> first | refine State.Keeps.pending ?_ | refine State.Keeps.now ?_ | refine State.Keeps.fresh ?_ | refine State.Keeps.otp ?_ | refine State.Keeps.otpWf ?_ | refine State.Keeps.basin ?_ | refine State.Keeps.sram ?_))

theorem State.kp_applyStart {r s : State} (h : r.Keeps s) (x1 : Nat) : r.Keeps (State.applyStart s x1) := by
  unfold State.applyStart
  repeat' (first
    | with_reducible assumption
    | (intro t; (have ht : r.Keeps t := ?_); clear_value t; (try (rotate_left; unfold t)))
    | intro _
    | split
    | lift_lets
    | (with_reducible refine State.Keeps.of_fst (by assumption) ?_)
    | (with_reducible apply State.kp_setRate)
    | (with_reducible apply State.kp_put)
    | (with_reducible apply State.kp_readFile)
    | (with_reducible apply State.kp_flightLoad)
    | (with_reducible apply State.kp_setCommit)
    | (with_reducible apply State.kp_runWrite))

theorem State.kp_bootEnd {r s : State} (h : r.Keeps s) (x1 : Nat) : r.Keeps (State.bootEnd s x1) := by
  unfold State.bootEnd
  repeat' (first
    | with_reducible assumption
    | (intro t; (have ht : r.Keeps t := ?_); clear_value t; (try (rotate_left; unfold t)))
    | intro _
    | split
    | lift_lets
    | (with_reducible refine State.Keeps.of_fst (by assumption) ?_)
    | (with_reducible apply State.kp_put)
    | (with_reducible apply State.kp_bootLoads)
    | (with_reducible apply State.kp_replayJournal)
    | (with_reducible apply State.kp_enterSafeDark)
    | (with_reducible apply State.kp_applyStart)
    | (with_reducible apply State.kp_startPairs)
    | (with_reducible apply State.Keeps.foldl)
    | (with_reducible exact State.Keeps.later (by assumption) _)
    | (with_reducible apply State.Keeps.foldl1)
    | (with_reducible constructor <;> dsimp only <;> first | refine State.Keeps.pending ?_ | refine State.Keeps.now ?_ | refine State.Keeps.fresh ?_ | refine State.Keeps.otp ?_ | refine State.Keeps.otpWf ?_ | refine State.Keeps.basin ?_ | refine State.Keeps.sram ?_))

theorem State.kp_cmdQuote {r s : State} (h : r.Keeps s) (x1 : Pair) : r.Keeps (State.cmdQuote s x1) := by
  unfold State.cmdQuote
  repeat' (first
    | with_reducible assumption
    | (intro t; (have ht : r.Keeps t := ?_); clear_value t; (try (rotate_left; unfold t)))
    | intro _
    | split
    | lift_lets
    | (with_reducible refine State.Keeps.of_fst (by assumption) ?_)
    | (with_reducible apply State.kp_serve)
    | (with_reducible apply State.kp_status)
    | (with_reducible apply State.kp_draw)
    | (with_reducible apply State.kp_output))

theorem State.kp_peerReply {r s : State} (h : r.Keeps s) (x1 : List Byte) : r.Keeps (State.peerReply s x1).1 := by
  unfold State.peerReply
  repeat' (first
    | with_reducible assumption
    | intro _
    | split
    | lift_lets
    | (with_reducible refine State.Keeps.of_fst (by assumption) ?_)
    | (with_reducible apply State.kp_replyTo)
    | (with_reducible apply State.kp_peerRefuses)
    | (with_reducible apply State.Keeps.foldl)
    | (with_reducible exact State.Keeps.later (by assumption) _)
    | (with_reducible apply State.Keeps.foldl1)
    | (with_reducible constructor <;> dsimp only <;> first | refine State.Keeps.pending ?_ | refine State.Keeps.now ?_ | refine State.Keeps.fresh ?_ | refine State.Keeps.otp ?_ | refine State.Keeps.otpWf ?_ | refine State.Keeps.basin ?_ | refine State.Keeps.sram ?_))

theorem State.kp_peerFinish {r s : State} (h : r.Keeps s) (x1 : List Byte) : r.Keeps (State.peerFinish s x1).1 := by
  unfold State.peerFinish
  repeat' (first
    | with_reducible assumption
    | (intro t; (have ht : r.Keeps t := ?_); clear_value t; (try (rotate_left; unfold t)))
    | intro _
    | split
    | lift_lets
    | (with_reducible refine State.Keeps.of_fst (by assumption) ?_)
    | (with_reducible apply State.kp_draw)
    | (with_reducible apply State.kp_peerRefuses)
    | (with_reducible apply State.Keeps.foldl)
    | (with_reducible exact State.Keeps.later (by assumption) _)
    | (with_reducible apply State.Keeps.foldl1)
    | (with_reducible constructor <;> dsimp only <;> first | refine State.Keeps.pending ?_ | refine State.Keeps.now ?_ | refine State.Keeps.fresh ?_ | refine State.Keeps.otp ?_ | refine State.Keeps.otpWf ?_ | refine State.Keeps.basin ?_ | refine State.Keeps.sram ?_))

theorem State.kp_peerBegins {r s : State} (h : r.Keeps s) (x1 : Handshake) (x2 : Bool) : r.Keeps (State.peerBegins s x1 x2) := by
  unfold State.peerBegins
  repeat' (first
    | with_reducible assumption
    | (intro t; (have ht : r.Keeps t := ?_); clear_value t; (try (rotate_left; unfold t)))
    | intro _
    | split
    | lift_lets
    | (with_reducible refine State.Keeps.of_fst (by assumption) ?_)
    | (with_reducible apply State.kp_endPeer)
    | (with_reducible apply State.kp_linkSession)
    | (with_reducible apply State.kp_put)
    | (with_reducible apply State.Keeps.foldl)
    | (with_reducible exact State.Keeps.later (by assumption) _)
    | (with_reducible apply State.Keeps.foldl1)
    | (with_reducible constructor <;> dsimp only <;> first | refine State.Keeps.pending ?_ | refine State.Keeps.now ?_ | refine State.Keeps.fresh ?_ | refine State.Keeps.otp ?_ | refine State.Keeps.otpWf ?_ | refine State.Keeps.basin ?_ | refine State.Keeps.sram ?_))

theorem State.kp_peerDone {r s : State} (h : r.Keeps s) (x1 : List Byte) : r.Keeps (State.peerDone s x1).1 := by
  unfold State.peerDone
  repeat' (first
    | with_reducible assumption
    | intro _
    | split
    | lift_lets
    | (with_reducible refine State.Keeps.of_fst (by assumption) ?_)
    | (with_reducible apply State.kp_peerBegins)
    | (with_reducible apply State.kp_peerRefuses))

theorem State.kp_peerStep {r s : State} (h : r.Keeps s) (x1 : List Byte) : r.Keeps (State.peerStep s x1).1 := by
  unfold State.peerStep
  repeat' (first
    | with_reducible assumption
    | intro _
    | split
    | lift_lets
    | (with_reducible refine State.Keeps.of_fst (by assumption) ?_)
    | (with_reducible apply State.kp_peerRefuses)
    | (with_reducible apply State.kp_peerHello)
    | (with_reducible apply State.kp_peerReply)
    | (with_reducible apply State.kp_peerFinish)
    | (with_reducible apply State.kp_peerDone)
    | (with_reducible apply State.kp_peerBegins))

theorem State.kp_cmdPeerMsg {r s : State} (h : r.Keeps s) : r.Keeps (State.cmdPeerMsg s) := by
  unfold State.cmdPeerMsg
  repeat' (first
    | with_reducible assumption
    | intro _
    | split
    | lift_lets
    | (with_reducible refine State.Keeps.of_fst (by assumption) ?_)
    | (with_reducible apply State.kp_serve)
    | (with_reducible apply State.kp_status)
    | (with_reducible apply State.kp_withInput)
    | (with_reducible apply State.kp_peerStep)
    | (with_reducible apply State.kp_output)
    | (with_reducible apply State.kp_fails))

theorem State.kp_cmdReprovision {r s : State} (h : r.Keeps s) (x1 : Pair) : r.Keeps (State.cmdReprovision s x1) := by
  unfold State.cmdReprovision
  repeat' (first
    | with_reducible assumption
    | intro _
    | split
    | lift_lets
    | (with_reducible refine State.Keeps.of_fst (by assumption) ?_)
    | (with_reducible apply State.kp_serve)
    | (with_reducible apply State.kp_withInput)
    | (with_reducible apply State.kp_status)
    | (with_reducible apply State.kp_put)
    | (with_reducible apply State.kp_clearChallenge)
    | (with_reducible apply State.kp_fails))

theorem State.kp_cmdDebugUnlock {r s : State} (h : r.Keeps s) (x1 : Pair) : r.Keeps (State.cmdDebugUnlock s x1) := by
  unfold State.cmdDebugUnlock
  repeat' (first
    | with_reducible assumption
    | intro _
    | split
    | lift_lets
    | (with_reducible refine State.Keeps.of_fst (by assumption) ?_)
    | (with_reducible apply State.kp_serve)
    | (with_reducible apply State.kp_withInput)
    | (with_reducible apply State.kp_noteKeys)
    | (with_reducible apply State.kp_status)
    | (with_reducible apply State.kp_openDebug)
    | (with_reducible apply State.kp_fails)
    | (with_reducible apply State.kp_refuseDebug))

theorem State.kp_cmdRecoverWrite {r s : State} (h : r.Keeps s) (p : Pair) : r.Keeps (s.cmdRecoverWrite p) := by
  unfold State.cmdRecoverWrite
  refine State.kp_serve h _ _ _ _ (fun s h => ?_)
  split
  · exact State.kp_status h _ _
  · refine State.kp_withInput h _ _ _ (fun s chunk h => ?_)
    have hu (x : Blob) : r.Keeps { s with sec := { s.sec with recover := x } } := ⟨h.pending, h.now, h.fresh, h.otp, h.otpWf, h.basin, h.sram⟩
    dsimp only
    split
    · exact State.kp_status h _ _
    · generalize (Blob.mk _ _) = img
      have hu := hu img
      generalize ({ s with sec := { s.sec with recover := img } } : State) = u at *
      split
      · exact State.kp_status hu _ _
      · exact State.kp_writeImage hu _ _ _

theorem State.kp_cmdLibraryLoad {r s : State} (h : r.Keeps s) : r.Keeps (State.cmdLibraryLoad s) := by
  unfold State.cmdLibraryLoad
  repeat' (first
    | with_reducible assumption
    | intro _
    | split
    | lift_lets
    | (with_reducible refine State.Keeps.of_fst (by assumption) ?_)
    | (with_reducible apply State.kp_serve)
    | (with_reducible apply State.kp_status)
    | (with_reducible apply State.kp_withImage)
    | (with_reducible apply State.kp_libLoad)
    | (with_reducible apply State.kp_checked)
    | (with_reducible apply State.kp_lostCopy))

theorem State.kp_cmdCeilLoad {r s : State} (h : r.Keeps s) : r.Keeps (State.cmdCeilLoad s) := by
  unfold State.cmdCeilLoad
  repeat' (first
    | with_reducible assumption
    | intro _
    | split
    | lift_lets
    | (with_reducible refine State.Keeps.of_fst (by assumption) ?_)
    | (with_reducible apply State.kp_serve)
    | (with_reducible apply State.kp_status)
    | (with_reducible apply State.kp_ceilTake))

theorem State.kp_cmdFileRead {r s : State} (h : r.Keeps s) : r.Keeps (State.cmdFileRead s) := by
  unfold State.cmdFileRead
  repeat' (first
    | with_reducible assumption
    | intro _
    | split
    | lift_lets
    | (with_reducible refine State.Keeps.of_fst (by assumption) ?_)
    | (with_reducible apply State.kp_serve)
    | (with_reducible apply State.kp_status)
    | (with_reducible apply State.kp_withBerth)
    | (with_reducible apply State.kp_fileContent)
    | (with_reducible apply State.kp_readFile)
    | (with_reducible apply State.kp_complete)
    | (with_reducible apply State.kp_berthOutput))

theorem State.kp_cmdMaintEnter {r s : State} (h : r.Keeps s) : r.Keeps (State.cmdMaintEnter s) := by
  unfold State.cmdMaintEnter
  repeat' (first
    | with_reducible assumption
    | intro _
    | split
    | lift_lets
    | (with_reducible refine State.Keeps.of_fst (by assumption) ?_)
    | (with_reducible apply State.kp_serve)
    | (with_reducible apply State.kp_status)
    | (with_reducible apply State.kp_setMaint))

theorem State.kp_cmdTestExit {r s : State} (h : r.Keeps s) : r.Keeps (State.cmdTestExit s) := by
  unfold State.cmdTestExit
  repeat' (first
    | with_reducible assumption
    | intro _
    | split
    | lift_lets
    | (with_reducible refine State.Keeps.of_fst (by assumption) ?_)
    | (with_reducible apply State.kp_serve)
    | (with_reducible apply State.kp_status)
    | (with_reducible apply State.kp_put))

theorem State.kp_chkSectorFree {r s : State} (h : r.Keeps s) (x1 : Nat) : r.Keeps (State.chkSectorFree s x1) := by
  unfold State.chkSectorFree
  repeat' (first
    | with_reducible assumption
    | intro _
    | split
    | lift_lets
    | (with_reducible refine State.Keeps.of_fst (by assumption) ?_)
    | (with_reducible apply State.kp_chkRecord)
    | (with_reducible apply State.kp_draw)
    | (with_reducible apply State.Keeps.foldl))

theorem State.kp_chkSector {r s : State} (h : r.Keeps s) (x1 : Nat) (x2 : Option (List Byte)) : r.Keeps (State.chkSector s x1 x2) := by
  unfold State.chkSector
  repeat' (first
    | with_reducible assumption
    | intro _
    | split
    | lift_lets
    | (with_reducible refine State.Keeps.of_fst (by assumption) ?_)
    | (with_reducible apply State.kp_chkSnoop)
    | (with_reducible apply State.kp_chkSectorFree))

theorem State.kp_sectorRead {r s : State} (h : r.Keeps s) (x1 : Nat) (x2 : Nat) (x3 : Nat) (x4 : Nat) (x5 : Option Nat) : r.Keeps (State.sectorRead s x1 x2 x3 x4 x5) := by
  unfold State.sectorRead
  repeat' (first
    | with_reducible assumption
    | (intro t; (have ht : r.Keeps t := ?_); clear_value t; (try (rotate_left; unfold t)))
    | intro _
    | split
    | lift_lets
    | (with_reducible refine State.Keeps.of_fst (by assumption) ?_)
    | (with_reducible apply State.kp_chkSector)
    | (with_reducible apply State.kp_countRead)
    | (with_reducible apply State.kp_readSector))

theorem State.kp_pageProgram {r s : State} (h : r.Keeps s) (x1 : Bool) : r.Keeps (State.pageProgram s x1) := by
  unfold State.pageProgram
  repeat' (first
    | with_reducible assumption
    | intro _
    | split
    | lift_lets
    | (with_reducible refine State.Keeps.of_fst (by assumption) ?_)
    | (with_reducible apply State.kp_programDone)
    | (with_reducible apply State.kp_chkSector)
    | (with_reducible apply State.kp_opEnded)
    | (with_reducible apply State.Keeps.foldl))

theorem State.kp_deferralRow {r s : State} (h : r.Keeps s) : r.Keeps (State.deferralRow s) := by
  unfold State.deferralRow
  repeat' (first
    | with_reducible assumption
    | intro _
    | split
    | lift_lets
    | (with_reducible refine State.Keeps.of_fst (by assumption) ?_)
    | (with_reducible apply State.kp_noteSync)
    | (with_reducible apply State.kp_resumeDeferred))

theorem State.kp_blockReady {r s : State} (h : r.Keeps s) (x1 : Block) (x2 : Bool) : r.Keeps (State.blockReady s x1 x2) := by
  unfold State.blockReady
  repeat' (first
    | with_reducible assumption
    | (intro t; (have ht : r.Keeps t := ?_); clear_value t; (try (rotate_left; unfold t)))
    | intro _
    | split
    | lift_lets
    | (with_reducible refine State.Keeps.of_fst (by assumption) ?_)
    | (with_reducible apply State.kp_linkSwitch)
    | (with_reducible apply State.kp_knownAnswers)
    | (with_reducible apply State.Keeps.foldl)
    | (with_reducible exact State.Keeps.later (by assumption) _)
    | (with_reducible apply State.Keeps.foldl1)
    | (with_reducible constructor <;> dsimp only <;> first | refine State.Keeps.pending ?_ | refine State.Keeps.now ?_ | refine State.Keeps.fresh ?_ | refine State.Keeps.otp ?_ | refine State.Keeps.otpWf ?_ | refine State.Keeps.basin ?_ | refine State.Keeps.sram ?_))

end Sys2Proof.Machine
end

