-- ==== Sys2Proof/Laws/State.lean ====
section
/-!
SUPPORT. What the small updates of the state leave as it was: one lemma for each update and each field, all by rfl, and the reading of a register
field after a write of it or of another.
-/
namespace Sys2Proof.Machine

/-! ## Register fields -/

@[simp] theorem State.rd_put_self (s : State) (f : Fld) (v : Nat) : (s.put f v).rd f = v % 2 ^ f.w := Sparse.get_set_self _ _ _ _

theorem State.rd_put_other (s : State) {f g : Fld} (v : Nat) (h : f.key ≠ g.key) : (s.put f v).rd g = s.rd g :=
  Sparse.get_set_other _ _ _ _ h

/-- A value that fits the field reads back. -/
theorem State.rd_put_fits (s : State) {f : Fld} {v : Nat} (h : v < 2 ^ f.w) : (s.put f v).rd f = v :=
  (s.rd_put_self f v).trans (Nat.mod_eq_of_lt h)

@[simp] theorem State.actv_putAct_self (s : State) (f : Fld) (v : Nat) : (s.putAct f v).actv f = v % 2 ^ f.w := Sparse.get_set_self _ _ _ _

theorem State.actv_putAct_other (s : State) {f g : Fld} (v : Nat) (h : f.key ≠ g.key) : (s.putAct f v).actv g = s.actv g :=
  Sparse.get_set_other _ _ _ _ h

theorem State.rd_inc_other (s : State) {f g : Fld} (n : Nat) (h : f.key ≠ g.key) : (s.inc f n).rd g = s.rd g := s.rd_put_other _ h
theorem State.rd_incMod_other (s : State) {f g : Fld} (n : Nat) (h : f.key ≠ g.key) : (s.incMod f n).rd g = s.rd g := s.rd_put_other _ h
theorem State.rd_flag_other (s : State) {f g : Fld} (h : f.key ≠ g.key) : (s.flag f).rd g = s.rd g := s.rd_put_other _ h
theorem State.rd_putBit_other (s : State) {f g : Fld} (i : Nat) (b : Bool) (h : f.key ≠ g.key) : (s.putBit f i b).rd g = s.rd g := s.rd_put_other _ h

/-- Two writes of one field: the second stands. -/
theorem State.rd_put_put (s : State) (f : Fld) (v w : Nat) : ((s.put f v).put f w).rd f = w % 2 ^ f.w := State.rd_put_self _ f w

/-! ## Units -/

@[simp] theorem State.reachAt_setReach (s : State) (r : ReachId) (x : Reach) : (s.setReach r x).reachAt r = x := by
  simp [State.reachAt, State.setReach]

theorem State.reachAt_setReach_other (s : State) {r q : ReachId} (x : Reach) (h : r ≠ q) : (s.setReach r x).reachAt q = s.reachAt q := by
  simp only [State.reachAt, State.setReach, Fin.getElem_fin]
  exact Vector.getElem_set_ne _ _ (fun e => h (Fin.ext e))

@[simp] theorem State.berthAt_setBerth (s : State) (b : Fin 64) (x : Berth) : (s.setBerth b x).berthAt b = x := by
  simp [State.berthAt, State.setBerth]

theorem State.berthAt_setBerth_other (s : State) {b c : Fin 64} (x : Berth) (h : b ≠ c) : (s.setBerth b x).berthAt c = s.berthAt c := by
  simp only [State.berthAt, State.setBerth, Fin.getElem_fin]
  exact Vector.getElem_set_ne _ _ (fun e => h (Fin.ext e))

/-! ## Fields of the state -/

@[simp] theorem State.pending_put (s : State) (f : Fld) (v : Nat) : (s.put f v).pending = s.pending := rfl
@[simp] theorem State.now_put (s : State) (f : Fld) (v : Nat) : (s.put f v).now = s.now := rfl
@[simp] theorem State.fresh_put (s : State) (f : Fld) (v : Nat) : (s.put f v).fresh = s.fresh := rfl
@[simp] theorem State.act_put (s : State) (f : Fld) (v : Nat) : (s.put f v).act = s.act := rfl
@[simp] theorem State.ch_put (s : State) (f : Fld) (v : Nat) : (s.put f v).ch = s.ch := rfl
@[simp] theorem State.mgmt_put (s : State) (f : Fld) (v : Nat) : (s.put f v).mgmt = s.mgmt := rfl
@[simp] theorem State.seq_put (s : State) (f : Fld) (v : Nat) : (s.put f v).seq = s.seq := rfl
@[simp] theorem State.bas_put (s : State) (f : Fld) (v : Nat) : (s.put f v).bas = s.bas := rfl
@[simp] theorem State.reach_put (s : State) (f : Fld) (v : Nat) : (s.put f v).reach = s.reach := rfl
@[simp] theorem State.flt_put (s : State) (f : Fld) (v : Nat) : (s.put f v).flt = s.flt := rfl
@[simp] theorem State.mode_put (s : State) (f : Fld) (v : Nat) : (s.put f v).mode = s.mode := rfl
@[simp] theorem State.rif_put (s : State) (f : Fld) (v : Nat) : (s.put f v).rif = s.rif := rfl
@[simp] theorem State.pairMap_put (s : State) (f : Fld) (v : Nat) : (s.put f v).pairMap = s.pairMap := rfl
@[simp] theorem State.nand_put (s : State) (f : Fld) (v : Nat) : (s.put f v).nand = s.nand := rfl
@[simp] theorem State.sec_put (s : State) (f : Fld) (v : Nat) : (s.put f v).sec = s.sec := rfl
@[simp] theorem State.liveSince_put (s : State) (f : Fld) (v : Nat) : (s.put f v).liveSince = s.liveSince := rfl
@[simp] theorem State.trim_put (s : State) (f : Fld) (v : Nat) : (s.put f v).trim = s.trim := rfl
@[simp] theorem State.diag_put (s : State) (f : Fld) (v : Nat) : (s.put f v).diag = s.diag := rfl
@[simp] theorem State.pnt_put (s : State) (f : Fld) (v : Nat) : (s.put f v).pnt = s.pnt := rfl
@[simp] theorem State.cal_put (s : State) (f : Fld) (v : Nat) : (s.put f v).cal = s.cal := rfl
@[simp] theorem State.thm_put (s : State) (f : Fld) (v : Nat) : (s.put f v).thm = s.thm := rfl
@[simp] theorem State.clk_put (s : State) (f : Fld) (v : Nat) : (s.put f v).clk = s.clk := rfl
@[simp] theorem State.link_put (s : State) (f : Fld) (v : Nat) : (s.put f v).link = s.link := rfl
@[simp] theorem State.saf_put (s : State) (f : Fld) (v : Nat) : (s.put f v).saf = s.saf := rfl
@[simp] theorem State.peer_put (s : State) (f : Fld) (v : Nat) : (s.put f v).peer = s.peer := rfl
@[simp] theorem State.actv_put (s : State) (f : Fld) (v : Nat) (g : Fld) : (s.put f v).actv g = s.actv g := rfl

@[simp] theorem State.pending_putAct (s : State) (f : Fld) (v : Nat) : (s.putAct f v).pending = s.pending := rfl
@[simp] theorem State.now_putAct (s : State) (f : Fld) (v : Nat) : (s.putAct f v).now = s.now := rfl
@[simp] theorem State.fresh_putAct (s : State) (f : Fld) (v : Nat) : (s.putAct f v).fresh = s.fresh := rfl
@[simp] theorem State.regs_putAct (s : State) (f : Fld) (v : Nat) : (s.putAct f v).regs = s.regs := rfl
@[simp] theorem State.ch_putAct (s : State) (f : Fld) (v : Nat) : (s.putAct f v).ch = s.ch := rfl
@[simp] theorem State.mgmt_putAct (s : State) (f : Fld) (v : Nat) : (s.putAct f v).mgmt = s.mgmt := rfl
@[simp] theorem State.seq_putAct (s : State) (f : Fld) (v : Nat) : (s.putAct f v).seq = s.seq := rfl
@[simp] theorem State.bas_putAct (s : State) (f : Fld) (v : Nat) : (s.putAct f v).bas = s.bas := rfl
@[simp] theorem State.reach_putAct (s : State) (f : Fld) (v : Nat) : (s.putAct f v).reach = s.reach := rfl
@[simp] theorem State.flt_putAct (s : State) (f : Fld) (v : Nat) : (s.putAct f v).flt = s.flt := rfl
@[simp] theorem State.mode_putAct (s : State) (f : Fld) (v : Nat) : (s.putAct f v).mode = s.mode := rfl
@[simp] theorem State.rif_putAct (s : State) (f : Fld) (v : Nat) : (s.putAct f v).rif = s.rif := rfl
@[simp] theorem State.pairMap_putAct (s : State) (f : Fld) (v : Nat) : (s.putAct f v).pairMap = s.pairMap := rfl
@[simp] theorem State.nand_putAct (s : State) (f : Fld) (v : Nat) : (s.putAct f v).nand = s.nand := rfl
@[simp] theorem State.sec_putAct (s : State) (f : Fld) (v : Nat) : (s.putAct f v).sec = s.sec := rfl
@[simp] theorem State.liveSince_putAct (s : State) (f : Fld) (v : Nat) : (s.putAct f v).liveSince = s.liveSince := rfl
@[simp] theorem State.trim_putAct (s : State) (f : Fld) (v : Nat) : (s.putAct f v).trim = s.trim := rfl
@[simp] theorem State.diag_putAct (s : State) (f : Fld) (v : Nat) : (s.putAct f v).diag = s.diag := rfl
@[simp] theorem State.pnt_putAct (s : State) (f : Fld) (v : Nat) : (s.putAct f v).pnt = s.pnt := rfl
@[simp] theorem State.cal_putAct (s : State) (f : Fld) (v : Nat) : (s.putAct f v).cal = s.cal := rfl
@[simp] theorem State.thm_putAct (s : State) (f : Fld) (v : Nat) : (s.putAct f v).thm = s.thm := rfl
@[simp] theorem State.clk_putAct (s : State) (f : Fld) (v : Nat) : (s.putAct f v).clk = s.clk := rfl
@[simp] theorem State.link_putAct (s : State) (f : Fld) (v : Nat) : (s.putAct f v).link = s.link := rfl
@[simp] theorem State.saf_putAct (s : State) (f : Fld) (v : Nat) : (s.putAct f v).saf = s.saf := rfl
@[simp] theorem State.peer_putAct (s : State) (f : Fld) (v : Nat) : (s.putAct f v).peer = s.peer := rfl
@[simp] theorem State.rd_putAct (s : State) (f : Fld) (v : Nat) (g : Fld) : (s.putAct f v).rd g = s.rd g := rfl

@[simp] theorem State.pending_inc (s : State) (f : Fld) (n : Nat) : (s.inc f n).pending = s.pending := rfl
@[simp] theorem State.now_inc (s : State) (f : Fld) (n : Nat) : (s.inc f n).now = s.now := rfl
@[simp] theorem State.fresh_inc (s : State) (f : Fld) (n : Nat) : (s.inc f n).fresh = s.fresh := rfl
@[simp] theorem State.act_inc (s : State) (f : Fld) (n : Nat) : (s.inc f n).act = s.act := rfl
@[simp] theorem State.ch_inc (s : State) (f : Fld) (n : Nat) : (s.inc f n).ch = s.ch := rfl
@[simp] theorem State.mgmt_inc (s : State) (f : Fld) (n : Nat) : (s.inc f n).mgmt = s.mgmt := rfl
@[simp] theorem State.seq_inc (s : State) (f : Fld) (n : Nat) : (s.inc f n).seq = s.seq := rfl
@[simp] theorem State.bas_inc (s : State) (f : Fld) (n : Nat) : (s.inc f n).bas = s.bas := rfl
@[simp] theorem State.reach_inc (s : State) (f : Fld) (n : Nat) : (s.inc f n).reach = s.reach := rfl
@[simp] theorem State.flt_inc (s : State) (f : Fld) (n : Nat) : (s.inc f n).flt = s.flt := rfl
@[simp] theorem State.mode_inc (s : State) (f : Fld) (n : Nat) : (s.inc f n).mode = s.mode := rfl
@[simp] theorem State.rif_inc (s : State) (f : Fld) (n : Nat) : (s.inc f n).rif = s.rif := rfl
@[simp] theorem State.pairMap_inc (s : State) (f : Fld) (n : Nat) : (s.inc f n).pairMap = s.pairMap := rfl
@[simp] theorem State.nand_inc (s : State) (f : Fld) (n : Nat) : (s.inc f n).nand = s.nand := rfl
@[simp] theorem State.sec_inc (s : State) (f : Fld) (n : Nat) : (s.inc f n).sec = s.sec := rfl
@[simp] theorem State.liveSince_inc (s : State) (f : Fld) (n : Nat) : (s.inc f n).liveSince = s.liveSince := rfl
@[simp] theorem State.trim_inc (s : State) (f : Fld) (n : Nat) : (s.inc f n).trim = s.trim := rfl
@[simp] theorem State.diag_inc (s : State) (f : Fld) (n : Nat) : (s.inc f n).diag = s.diag := rfl
@[simp] theorem State.pnt_inc (s : State) (f : Fld) (n : Nat) : (s.inc f n).pnt = s.pnt := rfl
@[simp] theorem State.cal_inc (s : State) (f : Fld) (n : Nat) : (s.inc f n).cal = s.cal := rfl
@[simp] theorem State.thm_inc (s : State) (f : Fld) (n : Nat) : (s.inc f n).thm = s.thm := rfl
@[simp] theorem State.clk_inc (s : State) (f : Fld) (n : Nat) : (s.inc f n).clk = s.clk := rfl
@[simp] theorem State.link_inc (s : State) (f : Fld) (n : Nat) : (s.inc f n).link = s.link := rfl
@[simp] theorem State.saf_inc (s : State) (f : Fld) (n : Nat) : (s.inc f n).saf = s.saf := rfl
@[simp] theorem State.peer_inc (s : State) (f : Fld) (n : Nat) : (s.inc f n).peer = s.peer := rfl
@[simp] theorem State.actv_inc (s : State) (f : Fld) (n : Nat) (g : Fld) : (s.inc f n).actv g = s.actv g := rfl

@[simp] theorem State.pending_incMod (s : State) (f : Fld) (n : Nat) : (s.incMod f n).pending = s.pending := rfl
@[simp] theorem State.now_incMod (s : State) (f : Fld) (n : Nat) : (s.incMod f n).now = s.now := rfl
@[simp] theorem State.fresh_incMod (s : State) (f : Fld) (n : Nat) : (s.incMod f n).fresh = s.fresh := rfl
@[simp] theorem State.act_incMod (s : State) (f : Fld) (n : Nat) : (s.incMod f n).act = s.act := rfl
@[simp] theorem State.ch_incMod (s : State) (f : Fld) (n : Nat) : (s.incMod f n).ch = s.ch := rfl
@[simp] theorem State.mgmt_incMod (s : State) (f : Fld) (n : Nat) : (s.incMod f n).mgmt = s.mgmt := rfl
@[simp] theorem State.seq_incMod (s : State) (f : Fld) (n : Nat) : (s.incMod f n).seq = s.seq := rfl
@[simp] theorem State.bas_incMod (s : State) (f : Fld) (n : Nat) : (s.incMod f n).bas = s.bas := rfl
@[simp] theorem State.reach_incMod (s : State) (f : Fld) (n : Nat) : (s.incMod f n).reach = s.reach := rfl
@[simp] theorem State.flt_incMod (s : State) (f : Fld) (n : Nat) : (s.incMod f n).flt = s.flt := rfl
@[simp] theorem State.mode_incMod (s : State) (f : Fld) (n : Nat) : (s.incMod f n).mode = s.mode := rfl
@[simp] theorem State.rif_incMod (s : State) (f : Fld) (n : Nat) : (s.incMod f n).rif = s.rif := rfl
@[simp] theorem State.pairMap_incMod (s : State) (f : Fld) (n : Nat) : (s.incMod f n).pairMap = s.pairMap := rfl
@[simp] theorem State.nand_incMod (s : State) (f : Fld) (n : Nat) : (s.incMod f n).nand = s.nand := rfl
@[simp] theorem State.sec_incMod (s : State) (f : Fld) (n : Nat) : (s.incMod f n).sec = s.sec := rfl
@[simp] theorem State.liveSince_incMod (s : State) (f : Fld) (n : Nat) : (s.incMod f n).liveSince = s.liveSince := rfl
@[simp] theorem State.trim_incMod (s : State) (f : Fld) (n : Nat) : (s.incMod f n).trim = s.trim := rfl
@[simp] theorem State.diag_incMod (s : State) (f : Fld) (n : Nat) : (s.incMod f n).diag = s.diag := rfl
@[simp] theorem State.pnt_incMod (s : State) (f : Fld) (n : Nat) : (s.incMod f n).pnt = s.pnt := rfl
@[simp] theorem State.cal_incMod (s : State) (f : Fld) (n : Nat) : (s.incMod f n).cal = s.cal := rfl
@[simp] theorem State.thm_incMod (s : State) (f : Fld) (n : Nat) : (s.incMod f n).thm = s.thm := rfl
@[simp] theorem State.clk_incMod (s : State) (f : Fld) (n : Nat) : (s.incMod f n).clk = s.clk := rfl
@[simp] theorem State.link_incMod (s : State) (f : Fld) (n : Nat) : (s.incMod f n).link = s.link := rfl
@[simp] theorem State.saf_incMod (s : State) (f : Fld) (n : Nat) : (s.incMod f n).saf = s.saf := rfl
@[simp] theorem State.peer_incMod (s : State) (f : Fld) (n : Nat) : (s.incMod f n).peer = s.peer := rfl
@[simp] theorem State.actv_incMod (s : State) (f : Fld) (n : Nat) (g : Fld) : (s.incMod f n).actv g = s.actv g := rfl

@[simp] theorem State.pending_flag (s : State) (f : Fld) : (s.flag f).pending = s.pending := rfl
@[simp] theorem State.now_flag (s : State) (f : Fld) : (s.flag f).now = s.now := rfl
@[simp] theorem State.fresh_flag (s : State) (f : Fld) : (s.flag f).fresh = s.fresh := rfl
@[simp] theorem State.act_flag (s : State) (f : Fld) : (s.flag f).act = s.act := rfl
@[simp] theorem State.ch_flag (s : State) (f : Fld) : (s.flag f).ch = s.ch := rfl
@[simp] theorem State.mgmt_flag (s : State) (f : Fld) : (s.flag f).mgmt = s.mgmt := rfl
@[simp] theorem State.seq_flag (s : State) (f : Fld) : (s.flag f).seq = s.seq := rfl
@[simp] theorem State.bas_flag (s : State) (f : Fld) : (s.flag f).bas = s.bas := rfl
@[simp] theorem State.reach_flag (s : State) (f : Fld) : (s.flag f).reach = s.reach := rfl
@[simp] theorem State.flt_flag (s : State) (f : Fld) : (s.flag f).flt = s.flt := rfl
@[simp] theorem State.mode_flag (s : State) (f : Fld) : (s.flag f).mode = s.mode := rfl
@[simp] theorem State.rif_flag (s : State) (f : Fld) : (s.flag f).rif = s.rif := rfl
@[simp] theorem State.pairMap_flag (s : State) (f : Fld) : (s.flag f).pairMap = s.pairMap := rfl
@[simp] theorem State.nand_flag (s : State) (f : Fld) : (s.flag f).nand = s.nand := rfl
@[simp] theorem State.sec_flag (s : State) (f : Fld) : (s.flag f).sec = s.sec := rfl
@[simp] theorem State.liveSince_flag (s : State) (f : Fld) : (s.flag f).liveSince = s.liveSince := rfl
@[simp] theorem State.trim_flag (s : State) (f : Fld) : (s.flag f).trim = s.trim := rfl
@[simp] theorem State.diag_flag (s : State) (f : Fld) : (s.flag f).diag = s.diag := rfl
@[simp] theorem State.pnt_flag (s : State) (f : Fld) : (s.flag f).pnt = s.pnt := rfl
@[simp] theorem State.cal_flag (s : State) (f : Fld) : (s.flag f).cal = s.cal := rfl
@[simp] theorem State.thm_flag (s : State) (f : Fld) : (s.flag f).thm = s.thm := rfl
@[simp] theorem State.clk_flag (s : State) (f : Fld) : (s.flag f).clk = s.clk := rfl
@[simp] theorem State.link_flag (s : State) (f : Fld) : (s.flag f).link = s.link := rfl
@[simp] theorem State.saf_flag (s : State) (f : Fld) : (s.flag f).saf = s.saf := rfl
@[simp] theorem State.peer_flag (s : State) (f : Fld) : (s.flag f).peer = s.peer := rfl
@[simp] theorem State.actv_flag (s : State) (f : Fld) (g : Fld) : (s.flag f).actv g = s.actv g := rfl

@[simp] theorem State.pending_putBit (s : State) (f : Fld) (i : Nat) (b : Bool) : (s.putBit f i b).pending = s.pending := rfl
@[simp] theorem State.now_putBit (s : State) (f : Fld) (i : Nat) (b : Bool) : (s.putBit f i b).now = s.now := rfl
@[simp] theorem State.fresh_putBit (s : State) (f : Fld) (i : Nat) (b : Bool) : (s.putBit f i b).fresh = s.fresh := rfl
@[simp] theorem State.act_putBit (s : State) (f : Fld) (i : Nat) (b : Bool) : (s.putBit f i b).act = s.act := rfl
@[simp] theorem State.ch_putBit (s : State) (f : Fld) (i : Nat) (b : Bool) : (s.putBit f i b).ch = s.ch := rfl
@[simp] theorem State.mgmt_putBit (s : State) (f : Fld) (i : Nat) (b : Bool) : (s.putBit f i b).mgmt = s.mgmt := rfl
@[simp] theorem State.seq_putBit (s : State) (f : Fld) (i : Nat) (b : Bool) : (s.putBit f i b).seq = s.seq := rfl
@[simp] theorem State.bas_putBit (s : State) (f : Fld) (i : Nat) (b : Bool) : (s.putBit f i b).bas = s.bas := rfl
@[simp] theorem State.reach_putBit (s : State) (f : Fld) (i : Nat) (b : Bool) : (s.putBit f i b).reach = s.reach := rfl
@[simp] theorem State.flt_putBit (s : State) (f : Fld) (i : Nat) (b : Bool) : (s.putBit f i b).flt = s.flt := rfl
@[simp] theorem State.mode_putBit (s : State) (f : Fld) (i : Nat) (b : Bool) : (s.putBit f i b).mode = s.mode := rfl
@[simp] theorem State.rif_putBit (s : State) (f : Fld) (i : Nat) (b : Bool) : (s.putBit f i b).rif = s.rif := rfl
@[simp] theorem State.pairMap_putBit (s : State) (f : Fld) (i : Nat) (b : Bool) : (s.putBit f i b).pairMap = s.pairMap := rfl
@[simp] theorem State.nand_putBit (s : State) (f : Fld) (i : Nat) (b : Bool) : (s.putBit f i b).nand = s.nand := rfl
@[simp] theorem State.sec_putBit (s : State) (f : Fld) (i : Nat) (b : Bool) : (s.putBit f i b).sec = s.sec := rfl
@[simp] theorem State.liveSince_putBit (s : State) (f : Fld) (i : Nat) (b : Bool) : (s.putBit f i b).liveSince = s.liveSince := rfl
@[simp] theorem State.trim_putBit (s : State) (f : Fld) (i : Nat) (b : Bool) : (s.putBit f i b).trim = s.trim := rfl
@[simp] theorem State.diag_putBit (s : State) (f : Fld) (i : Nat) (b : Bool) : (s.putBit f i b).diag = s.diag := rfl
@[simp] theorem State.pnt_putBit (s : State) (f : Fld) (i : Nat) (b : Bool) : (s.putBit f i b).pnt = s.pnt := rfl
@[simp] theorem State.cal_putBit (s : State) (f : Fld) (i : Nat) (b : Bool) : (s.putBit f i b).cal = s.cal := rfl
@[simp] theorem State.thm_putBit (s : State) (f : Fld) (i : Nat) (b : Bool) : (s.putBit f i b).thm = s.thm := rfl
@[simp] theorem State.clk_putBit (s : State) (f : Fld) (i : Nat) (b : Bool) : (s.putBit f i b).clk = s.clk := rfl
@[simp] theorem State.link_putBit (s : State) (f : Fld) (i : Nat) (b : Bool) : (s.putBit f i b).link = s.link := rfl
@[simp] theorem State.saf_putBit (s : State) (f : Fld) (i : Nat) (b : Bool) : (s.putBit f i b).saf = s.saf := rfl
@[simp] theorem State.peer_putBit (s : State) (f : Fld) (i : Nat) (b : Bool) : (s.putBit f i b).peer = s.peer := rfl
@[simp] theorem State.actv_putBit (s : State) (f : Fld) (i : Nat) (b : Bool) (g : Fld) : (s.putBit f i b).actv g = s.actv g := rfl

@[simp] theorem State.pending_setLive (s : State) (n : Nat) (b : Bool) : (s.setLive n b).pending = s.pending := rfl
@[simp] theorem State.now_setLive (s : State) (n : Nat) (b : Bool) : (s.setLive n b).now = s.now := rfl
@[simp] theorem State.fresh_setLive (s : State) (n : Nat) (b : Bool) : (s.setLive n b).fresh = s.fresh := rfl
@[simp] theorem State.act_setLive (s : State) (n : Nat) (b : Bool) : (s.setLive n b).act = s.act := rfl
@[simp] theorem State.ch_setLive (s : State) (n : Nat) (b : Bool) : (s.setLive n b).ch = s.ch := rfl
@[simp] theorem State.mgmt_setLive (s : State) (n : Nat) (b : Bool) : (s.setLive n b).mgmt = s.mgmt := rfl
@[simp] theorem State.seq_setLive (s : State) (n : Nat) (b : Bool) : (s.setLive n b).seq = s.seq := rfl
@[simp] theorem State.bas_setLive (s : State) (n : Nat) (b : Bool) : (s.setLive n b).bas = s.bas := rfl
@[simp] theorem State.reach_setLive (s : State) (n : Nat) (b : Bool) : (s.setLive n b).reach = s.reach := rfl
@[simp] theorem State.flt_setLive (s : State) (n : Nat) (b : Bool) : (s.setLive n b).flt = s.flt := rfl
@[simp] theorem State.mode_setLive (s : State) (n : Nat) (b : Bool) : (s.setLive n b).mode = s.mode := rfl
@[simp] theorem State.rif_setLive (s : State) (n : Nat) (b : Bool) : (s.setLive n b).rif = s.rif := rfl
@[simp] theorem State.pairMap_setLive (s : State) (n : Nat) (b : Bool) : (s.setLive n b).pairMap = s.pairMap := rfl
@[simp] theorem State.nand_setLive (s : State) (n : Nat) (b : Bool) : (s.setLive n b).nand = s.nand := rfl
@[simp] theorem State.sec_setLive (s : State) (n : Nat) (b : Bool) : (s.setLive n b).sec = s.sec := rfl
@[simp] theorem State.liveSince_setLive (s : State) (n : Nat) (b : Bool) : (s.setLive n b).liveSince = s.liveSince := rfl
@[simp] theorem State.trim_setLive (s : State) (n : Nat) (b : Bool) : (s.setLive n b).trim = s.trim := rfl
@[simp] theorem State.diag_setLive (s : State) (n : Nat) (b : Bool) : (s.setLive n b).diag = s.diag := rfl
@[simp] theorem State.pnt_setLive (s : State) (n : Nat) (b : Bool) : (s.setLive n b).pnt = s.pnt := rfl
@[simp] theorem State.cal_setLive (s : State) (n : Nat) (b : Bool) : (s.setLive n b).cal = s.cal := rfl
@[simp] theorem State.thm_setLive (s : State) (n : Nat) (b : Bool) : (s.setLive n b).thm = s.thm := rfl
@[simp] theorem State.clk_setLive (s : State) (n : Nat) (b : Bool) : (s.setLive n b).clk = s.clk := rfl
@[simp] theorem State.link_setLive (s : State) (n : Nat) (b : Bool) : (s.setLive n b).link = s.link := rfl
@[simp] theorem State.saf_setLive (s : State) (n : Nat) (b : Bool) : (s.setLive n b).saf = s.saf := rfl
@[simp] theorem State.peer_setLive (s : State) (n : Nat) (b : Bool) : (s.setLive n b).peer = s.peer := rfl
@[simp] theorem State.actv_setLive (s : State) (n : Nat) (b : Bool) (g : Fld) : (s.setLive n b).actv g = s.actv g := rfl

@[simp] theorem State.pending_draw (s : State) : (s.draw).pending = s.pending := rfl
@[simp] theorem State.now_draw (s : State) : (s.draw).now = s.now := rfl
@[simp] theorem State.regs_draw (s : State) : (s.draw).regs = s.regs := rfl
@[simp] theorem State.act_draw (s : State) : (s.draw).act = s.act := rfl
@[simp] theorem State.ch_draw (s : State) : (s.draw).ch = s.ch := rfl
@[simp] theorem State.mgmt_draw (s : State) : (s.draw).mgmt = s.mgmt := rfl
@[simp] theorem State.seq_draw (s : State) : (s.draw).seq = s.seq := rfl
@[simp] theorem State.bas_draw (s : State) : (s.draw).bas = s.bas := rfl
@[simp] theorem State.reach_draw (s : State) : (s.draw).reach = s.reach := rfl
@[simp] theorem State.flt_draw (s : State) : (s.draw).flt = s.flt := rfl
@[simp] theorem State.mode_draw (s : State) : (s.draw).mode = s.mode := rfl
@[simp] theorem State.rif_draw (s : State) : (s.draw).rif = s.rif := rfl
@[simp] theorem State.pairMap_draw (s : State) : (s.draw).pairMap = s.pairMap := rfl
@[simp] theorem State.nand_draw (s : State) : (s.draw).nand = s.nand := rfl
@[simp] theorem State.sec_draw (s : State) : (s.draw).sec = s.sec := rfl
@[simp] theorem State.liveSince_draw (s : State) : (s.draw).liveSince = s.liveSince := rfl
@[simp] theorem State.trim_draw (s : State) : (s.draw).trim = s.trim := rfl
@[simp] theorem State.diag_draw (s : State) : (s.draw).diag = s.diag := rfl
@[simp] theorem State.pnt_draw (s : State) : (s.draw).pnt = s.pnt := rfl
@[simp] theorem State.cal_draw (s : State) : (s.draw).cal = s.cal := rfl
@[simp] theorem State.thm_draw (s : State) : (s.draw).thm = s.thm := rfl
@[simp] theorem State.clk_draw (s : State) : (s.draw).clk = s.clk := rfl
@[simp] theorem State.link_draw (s : State) : (s.draw).link = s.link := rfl
@[simp] theorem State.saf_draw (s : State) : (s.draw).saf = s.saf := rfl
@[simp] theorem State.peer_draw (s : State) : (s.draw).peer = s.peer := rfl
@[simp] theorem State.rd_draw (s : State) (g : Fld) : (s.draw).rd g = s.rd g := rfl
@[simp] theorem State.actv_draw (s : State) (g : Fld) : (s.draw).actv g = s.actv g := rfl

@[simp] theorem State.pending_tick (s : State) : (s.tick).pending = s.pending := rfl
@[simp] theorem State.fresh_tick (s : State) : (s.tick).fresh = s.fresh := rfl
@[simp] theorem State.regs_tick (s : State) : (s.tick).regs = s.regs := rfl
@[simp] theorem State.act_tick (s : State) : (s.tick).act = s.act := rfl
@[simp] theorem State.ch_tick (s : State) : (s.tick).ch = s.ch := rfl
@[simp] theorem State.mgmt_tick (s : State) : (s.tick).mgmt = s.mgmt := rfl
@[simp] theorem State.seq_tick (s : State) : (s.tick).seq = s.seq := rfl
@[simp] theorem State.bas_tick (s : State) : (s.tick).bas = s.bas := rfl
@[simp] theorem State.reach_tick (s : State) : (s.tick).reach = s.reach := rfl
@[simp] theorem State.flt_tick (s : State) : (s.tick).flt = s.flt := rfl
@[simp] theorem State.mode_tick (s : State) : (s.tick).mode = s.mode := rfl
@[simp] theorem State.rif_tick (s : State) : (s.tick).rif = s.rif := rfl
@[simp] theorem State.pairMap_tick (s : State) : (s.tick).pairMap = s.pairMap := rfl
@[simp] theorem State.nand_tick (s : State) : (s.tick).nand = s.nand := rfl
@[simp] theorem State.sec_tick (s : State) : (s.tick).sec = s.sec := rfl
@[simp] theorem State.liveSince_tick (s : State) : (s.tick).liveSince = s.liveSince := rfl
@[simp] theorem State.trim_tick (s : State) : (s.tick).trim = s.trim := rfl
@[simp] theorem State.diag_tick (s : State) : (s.tick).diag = s.diag := rfl
@[simp] theorem State.pnt_tick (s : State) : (s.tick).pnt = s.pnt := rfl
@[simp] theorem State.cal_tick (s : State) : (s.tick).cal = s.cal := rfl
@[simp] theorem State.thm_tick (s : State) : (s.tick).thm = s.thm := rfl
@[simp] theorem State.clk_tick (s : State) : (s.tick).clk = s.clk := rfl
@[simp] theorem State.link_tick (s : State) : (s.tick).link = s.link := rfl
@[simp] theorem State.saf_tick (s : State) : (s.tick).saf = s.saf := rfl
@[simp] theorem State.peer_tick (s : State) : (s.tick).peer = s.peer := rfl
@[simp] theorem State.rd_tick (s : State) (g : Fld) : (s.tick).rd g = s.rd g := rfl
@[simp] theorem State.actv_tick (s : State) (g : Fld) : (s.tick).actv g = s.actv g := rfl

@[simp] theorem State.pending_setCh (s : State) (c : ChamberId) (x : Chamber) : (s.setCh c x).pending = s.pending := rfl
@[simp] theorem State.now_setCh (s : State) (c : ChamberId) (x : Chamber) : (s.setCh c x).now = s.now := rfl
@[simp] theorem State.fresh_setCh (s : State) (c : ChamberId) (x : Chamber) : (s.setCh c x).fresh = s.fresh := rfl
@[simp] theorem State.regs_setCh (s : State) (c : ChamberId) (x : Chamber) : (s.setCh c x).regs = s.regs := rfl
@[simp] theorem State.act_setCh (s : State) (c : ChamberId) (x : Chamber) : (s.setCh c x).act = s.act := rfl
@[simp] theorem State.mgmt_setCh (s : State) (c : ChamberId) (x : Chamber) : (s.setCh c x).mgmt = s.mgmt := rfl
@[simp] theorem State.seq_setCh (s : State) (c : ChamberId) (x : Chamber) : (s.setCh c x).seq = s.seq := rfl
@[simp] theorem State.bas_setCh (s : State) (c : ChamberId) (x : Chamber) : (s.setCh c x).bas = s.bas := rfl
@[simp] theorem State.reach_setCh (s : State) (c : ChamberId) (x : Chamber) : (s.setCh c x).reach = s.reach := rfl
@[simp] theorem State.flt_setCh (s : State) (c : ChamberId) (x : Chamber) : (s.setCh c x).flt = s.flt := rfl
@[simp] theorem State.mode_setCh (s : State) (c : ChamberId) (x : Chamber) : (s.setCh c x).mode = s.mode := rfl
@[simp] theorem State.rif_setCh (s : State) (c : ChamberId) (x : Chamber) : (s.setCh c x).rif = s.rif := rfl
@[simp] theorem State.pairMap_setCh (s : State) (c : ChamberId) (x : Chamber) : (s.setCh c x).pairMap = s.pairMap := rfl
@[simp] theorem State.nand_setCh (s : State) (c : ChamberId) (x : Chamber) : (s.setCh c x).nand = s.nand := rfl
@[simp] theorem State.sec_setCh (s : State) (c : ChamberId) (x : Chamber) : (s.setCh c x).sec = s.sec := rfl
@[simp] theorem State.liveSince_setCh (s : State) (c : ChamberId) (x : Chamber) : (s.setCh c x).liveSince = s.liveSince := rfl
@[simp] theorem State.trim_setCh (s : State) (c : ChamberId) (x : Chamber) : (s.setCh c x).trim = s.trim := rfl
@[simp] theorem State.diag_setCh (s : State) (c : ChamberId) (x : Chamber) : (s.setCh c x).diag = s.diag := rfl
@[simp] theorem State.pnt_setCh (s : State) (c : ChamberId) (x : Chamber) : (s.setCh c x).pnt = s.pnt := rfl
@[simp] theorem State.cal_setCh (s : State) (c : ChamberId) (x : Chamber) : (s.setCh c x).cal = s.cal := rfl
@[simp] theorem State.thm_setCh (s : State) (c : ChamberId) (x : Chamber) : (s.setCh c x).thm = s.thm := rfl
@[simp] theorem State.clk_setCh (s : State) (c : ChamberId) (x : Chamber) : (s.setCh c x).clk = s.clk := rfl
@[simp] theorem State.link_setCh (s : State) (c : ChamberId) (x : Chamber) : (s.setCh c x).link = s.link := rfl
@[simp] theorem State.saf_setCh (s : State) (c : ChamberId) (x : Chamber) : (s.setCh c x).saf = s.saf := rfl
@[simp] theorem State.peer_setCh (s : State) (c : ChamberId) (x : Chamber) : (s.setCh c x).peer = s.peer := rfl
@[simp] theorem State.rd_setCh (s : State) (c : ChamberId) (x : Chamber) (g : Fld) : (s.setCh c x).rd g = s.rd g := rfl
@[simp] theorem State.actv_setCh (s : State) (c : ChamberId) (x : Chamber) (g : Fld) : (s.setCh c x).actv g = s.actv g := rfl

@[simp] theorem State.pending_setReach (s : State) (r : ReachId) (x : Reach) : (s.setReach r x).pending = s.pending := rfl
@[simp] theorem State.now_setReach (s : State) (r : ReachId) (x : Reach) : (s.setReach r x).now = s.now := rfl
@[simp] theorem State.fresh_setReach (s : State) (r : ReachId) (x : Reach) : (s.setReach r x).fresh = s.fresh := rfl
@[simp] theorem State.regs_setReach (s : State) (r : ReachId) (x : Reach) : (s.setReach r x).regs = s.regs := rfl
@[simp] theorem State.act_setReach (s : State) (r : ReachId) (x : Reach) : (s.setReach r x).act = s.act := rfl
@[simp] theorem State.ch_setReach (s : State) (r : ReachId) (x : Reach) : (s.setReach r x).ch = s.ch := rfl
@[simp] theorem State.mgmt_setReach (s : State) (r : ReachId) (x : Reach) : (s.setReach r x).mgmt = s.mgmt := rfl
@[simp] theorem State.seq_setReach (s : State) (r : ReachId) (x : Reach) : (s.setReach r x).seq = s.seq := rfl
@[simp] theorem State.bas_setReach (s : State) (r : ReachId) (x : Reach) : (s.setReach r x).bas = s.bas := rfl
@[simp] theorem State.flt_setReach (s : State) (r : ReachId) (x : Reach) : (s.setReach r x).flt = s.flt := rfl
@[simp] theorem State.mode_setReach (s : State) (r : ReachId) (x : Reach) : (s.setReach r x).mode = s.mode := rfl
@[simp] theorem State.rif_setReach (s : State) (r : ReachId) (x : Reach) : (s.setReach r x).rif = s.rif := rfl
@[simp] theorem State.pairMap_setReach (s : State) (r : ReachId) (x : Reach) : (s.setReach r x).pairMap = s.pairMap := rfl
@[simp] theorem State.nand_setReach (s : State) (r : ReachId) (x : Reach) : (s.setReach r x).nand = s.nand := rfl
@[simp] theorem State.sec_setReach (s : State) (r : ReachId) (x : Reach) : (s.setReach r x).sec = s.sec := rfl
@[simp] theorem State.liveSince_setReach (s : State) (r : ReachId) (x : Reach) : (s.setReach r x).liveSince = s.liveSince := rfl
@[simp] theorem State.trim_setReach (s : State) (r : ReachId) (x : Reach) : (s.setReach r x).trim = s.trim := rfl
@[simp] theorem State.diag_setReach (s : State) (r : ReachId) (x : Reach) : (s.setReach r x).diag = s.diag := rfl
@[simp] theorem State.pnt_setReach (s : State) (r : ReachId) (x : Reach) : (s.setReach r x).pnt = s.pnt := rfl
@[simp] theorem State.cal_setReach (s : State) (r : ReachId) (x : Reach) : (s.setReach r x).cal = s.cal := rfl
@[simp] theorem State.thm_setReach (s : State) (r : ReachId) (x : Reach) : (s.setReach r x).thm = s.thm := rfl
@[simp] theorem State.clk_setReach (s : State) (r : ReachId) (x : Reach) : (s.setReach r x).clk = s.clk := rfl
@[simp] theorem State.link_setReach (s : State) (r : ReachId) (x : Reach) : (s.setReach r x).link = s.link := rfl
@[simp] theorem State.saf_setReach (s : State) (r : ReachId) (x : Reach) : (s.setReach r x).saf = s.saf := rfl
@[simp] theorem State.peer_setReach (s : State) (r : ReachId) (x : Reach) : (s.setReach r x).peer = s.peer := rfl
@[simp] theorem State.rd_setReach (s : State) (r : ReachId) (x : Reach) (g : Fld) : (s.setReach r x).rd g = s.rd g := rfl
@[simp] theorem State.actv_setReach (s : State) (r : ReachId) (x : Reach) (g : Fld) : (s.setReach r x).actv g = s.actv g := rfl

@[simp] theorem State.pending_setBerth (s : State) (b : Fin 64) (x : Berth) : (s.setBerth b x).pending = s.pending := rfl
@[simp] theorem State.now_setBerth (s : State) (b : Fin 64) (x : Berth) : (s.setBerth b x).now = s.now := rfl
@[simp] theorem State.fresh_setBerth (s : State) (b : Fin 64) (x : Berth) : (s.setBerth b x).fresh = s.fresh := rfl
@[simp] theorem State.regs_setBerth (s : State) (b : Fin 64) (x : Berth) : (s.setBerth b x).regs = s.regs := rfl
@[simp] theorem State.act_setBerth (s : State) (b : Fin 64) (x : Berth) : (s.setBerth b x).act = s.act := rfl
@[simp] theorem State.ch_setBerth (s : State) (b : Fin 64) (x : Berth) : (s.setBerth b x).ch = s.ch := rfl
@[simp] theorem State.mgmt_setBerth (s : State) (b : Fin 64) (x : Berth) : (s.setBerth b x).mgmt = s.mgmt := rfl
@[simp] theorem State.seq_setBerth (s : State) (b : Fin 64) (x : Berth) : (s.setBerth b x).seq = s.seq := rfl
@[simp] theorem State.reach_setBerth (s : State) (b : Fin 64) (x : Berth) : (s.setBerth b x).reach = s.reach := rfl
@[simp] theorem State.flt_setBerth (s : State) (b : Fin 64) (x : Berth) : (s.setBerth b x).flt = s.flt := rfl
@[simp] theorem State.mode_setBerth (s : State) (b : Fin 64) (x : Berth) : (s.setBerth b x).mode = s.mode := rfl
@[simp] theorem State.rif_setBerth (s : State) (b : Fin 64) (x : Berth) : (s.setBerth b x).rif = s.rif := rfl
@[simp] theorem State.pairMap_setBerth (s : State) (b : Fin 64) (x : Berth) : (s.setBerth b x).pairMap = s.pairMap := rfl
@[simp] theorem State.nand_setBerth (s : State) (b : Fin 64) (x : Berth) : (s.setBerth b x).nand = s.nand := rfl
@[simp] theorem State.sec_setBerth (s : State) (b : Fin 64) (x : Berth) : (s.setBerth b x).sec = s.sec := rfl
@[simp] theorem State.liveSince_setBerth (s : State) (b : Fin 64) (x : Berth) : (s.setBerth b x).liveSince = s.liveSince := rfl
@[simp] theorem State.trim_setBerth (s : State) (b : Fin 64) (x : Berth) : (s.setBerth b x).trim = s.trim := rfl
@[simp] theorem State.diag_setBerth (s : State) (b : Fin 64) (x : Berth) : (s.setBerth b x).diag = s.diag := rfl
@[simp] theorem State.pnt_setBerth (s : State) (b : Fin 64) (x : Berth) : (s.setBerth b x).pnt = s.pnt := rfl
@[simp] theorem State.cal_setBerth (s : State) (b : Fin 64) (x : Berth) : (s.setBerth b x).cal = s.cal := rfl
@[simp] theorem State.thm_setBerth (s : State) (b : Fin 64) (x : Berth) : (s.setBerth b x).thm = s.thm := rfl
@[simp] theorem State.clk_setBerth (s : State) (b : Fin 64) (x : Berth) : (s.setBerth b x).clk = s.clk := rfl
@[simp] theorem State.link_setBerth (s : State) (b : Fin 64) (x : Berth) : (s.setBerth b x).link = s.link := rfl
@[simp] theorem State.saf_setBerth (s : State) (b : Fin 64) (x : Berth) : (s.setBerth b x).saf = s.saf := rfl
@[simp] theorem State.peer_setBerth (s : State) (b : Fin 64) (x : Berth) : (s.setBerth b x).peer = s.peer := rfl
@[simp] theorem State.rd_setBerth (s : State) (b : Fin 64) (x : Berth) (g : Fld) : (s.setBerth b x).rd g = s.rd g := rfl
@[simp] theorem State.actv_setBerth (s : State) (b : Fin 64) (x : Berth) (g : Fld) : (s.setBerth b x).actv g = s.actv g := rfl

@[simp] theorem State.pending_basWrite (s : State) (a : Nat) (vs : List Byte) : (s.basWrite a vs).pending = s.pending := rfl
@[simp] theorem State.now_basWrite (s : State) (a : Nat) (vs : List Byte) : (s.basWrite a vs).now = s.now := rfl
@[simp] theorem State.fresh_basWrite (s : State) (a : Nat) (vs : List Byte) : (s.basWrite a vs).fresh = s.fresh := rfl
@[simp] theorem State.regs_basWrite (s : State) (a : Nat) (vs : List Byte) : (s.basWrite a vs).regs = s.regs := rfl
@[simp] theorem State.act_basWrite (s : State) (a : Nat) (vs : List Byte) : (s.basWrite a vs).act = s.act := rfl
@[simp] theorem State.ch_basWrite (s : State) (a : Nat) (vs : List Byte) : (s.basWrite a vs).ch = s.ch := rfl
@[simp] theorem State.mgmt_basWrite (s : State) (a : Nat) (vs : List Byte) : (s.basWrite a vs).mgmt = s.mgmt := rfl
@[simp] theorem State.seq_basWrite (s : State) (a : Nat) (vs : List Byte) : (s.basWrite a vs).seq = s.seq := rfl
@[simp] theorem State.reach_basWrite (s : State) (a : Nat) (vs : List Byte) : (s.basWrite a vs).reach = s.reach := rfl
@[simp] theorem State.flt_basWrite (s : State) (a : Nat) (vs : List Byte) : (s.basWrite a vs).flt = s.flt := rfl
@[simp] theorem State.mode_basWrite (s : State) (a : Nat) (vs : List Byte) : (s.basWrite a vs).mode = s.mode := rfl
@[simp] theorem State.rif_basWrite (s : State) (a : Nat) (vs : List Byte) : (s.basWrite a vs).rif = s.rif := rfl
@[simp] theorem State.pairMap_basWrite (s : State) (a : Nat) (vs : List Byte) : (s.basWrite a vs).pairMap = s.pairMap := rfl
@[simp] theorem State.nand_basWrite (s : State) (a : Nat) (vs : List Byte) : (s.basWrite a vs).nand = s.nand := rfl
@[simp] theorem State.sec_basWrite (s : State) (a : Nat) (vs : List Byte) : (s.basWrite a vs).sec = s.sec := rfl
@[simp] theorem State.liveSince_basWrite (s : State) (a : Nat) (vs : List Byte) : (s.basWrite a vs).liveSince = s.liveSince := rfl
@[simp] theorem State.trim_basWrite (s : State) (a : Nat) (vs : List Byte) : (s.basWrite a vs).trim = s.trim := rfl
@[simp] theorem State.diag_basWrite (s : State) (a : Nat) (vs : List Byte) : (s.basWrite a vs).diag = s.diag := rfl
@[simp] theorem State.pnt_basWrite (s : State) (a : Nat) (vs : List Byte) : (s.basWrite a vs).pnt = s.pnt := rfl
@[simp] theorem State.cal_basWrite (s : State) (a : Nat) (vs : List Byte) : (s.basWrite a vs).cal = s.cal := rfl
@[simp] theorem State.thm_basWrite (s : State) (a : Nat) (vs : List Byte) : (s.basWrite a vs).thm = s.thm := rfl
@[simp] theorem State.clk_basWrite (s : State) (a : Nat) (vs : List Byte) : (s.basWrite a vs).clk = s.clk := rfl
@[simp] theorem State.link_basWrite (s : State) (a : Nat) (vs : List Byte) : (s.basWrite a vs).link = s.link := rfl
@[simp] theorem State.saf_basWrite (s : State) (a : Nat) (vs : List Byte) : (s.basWrite a vs).saf = s.saf := rfl
@[simp] theorem State.peer_basWrite (s : State) (a : Nat) (vs : List Byte) : (s.basWrite a vs).peer = s.peer := rfl
@[simp] theorem State.rd_basWrite (s : State) (a : Nat) (vs : List Byte) (g : Fld) : (s.basWrite a vs).rd g = s.rd g := rfl
@[simp] theorem State.actv_basWrite (s : State) (a : Nat) (vs : List Byte) (g : Fld) : (s.basWrite a vs).actv g = s.actv g := rfl

@[simp] theorem State.pending_basFill (s : State) (lo n : Nat) (cells : Memory) : (s.basFill lo n cells).pending = s.pending := rfl
@[simp] theorem State.now_basFill (s : State) (lo n : Nat) (cells : Memory) : (s.basFill lo n cells).now = s.now := rfl
@[simp] theorem State.fresh_basFill (s : State) (lo n : Nat) (cells : Memory) : (s.basFill lo n cells).fresh = s.fresh := rfl
@[simp] theorem State.regs_basFill (s : State) (lo n : Nat) (cells : Memory) : (s.basFill lo n cells).regs = s.regs := rfl
@[simp] theorem State.act_basFill (s : State) (lo n : Nat) (cells : Memory) : (s.basFill lo n cells).act = s.act := rfl
@[simp] theorem State.ch_basFill (s : State) (lo n : Nat) (cells : Memory) : (s.basFill lo n cells).ch = s.ch := rfl
@[simp] theorem State.mgmt_basFill (s : State) (lo n : Nat) (cells : Memory) : (s.basFill lo n cells).mgmt = s.mgmt := rfl
@[simp] theorem State.seq_basFill (s : State) (lo n : Nat) (cells : Memory) : (s.basFill lo n cells).seq = s.seq := rfl
@[simp] theorem State.reach_basFill (s : State) (lo n : Nat) (cells : Memory) : (s.basFill lo n cells).reach = s.reach := rfl
@[simp] theorem State.flt_basFill (s : State) (lo n : Nat) (cells : Memory) : (s.basFill lo n cells).flt = s.flt := rfl
@[simp] theorem State.mode_basFill (s : State) (lo n : Nat) (cells : Memory) : (s.basFill lo n cells).mode = s.mode := rfl
@[simp] theorem State.rif_basFill (s : State) (lo n : Nat) (cells : Memory) : (s.basFill lo n cells).rif = s.rif := rfl
@[simp] theorem State.pairMap_basFill (s : State) (lo n : Nat) (cells : Memory) : (s.basFill lo n cells).pairMap = s.pairMap := rfl
@[simp] theorem State.nand_basFill (s : State) (lo n : Nat) (cells : Memory) : (s.basFill lo n cells).nand = s.nand := rfl
@[simp] theorem State.sec_basFill (s : State) (lo n : Nat) (cells : Memory) : (s.basFill lo n cells).sec = s.sec := rfl
@[simp] theorem State.liveSince_basFill (s : State) (lo n : Nat) (cells : Memory) : (s.basFill lo n cells).liveSince = s.liveSince := rfl
@[simp] theorem State.trim_basFill (s : State) (lo n : Nat) (cells : Memory) : (s.basFill lo n cells).trim = s.trim := rfl
@[simp] theorem State.diag_basFill (s : State) (lo n : Nat) (cells : Memory) : (s.basFill lo n cells).diag = s.diag := rfl
@[simp] theorem State.pnt_basFill (s : State) (lo n : Nat) (cells : Memory) : (s.basFill lo n cells).pnt = s.pnt := rfl
@[simp] theorem State.cal_basFill (s : State) (lo n : Nat) (cells : Memory) : (s.basFill lo n cells).cal = s.cal := rfl
@[simp] theorem State.thm_basFill (s : State) (lo n : Nat) (cells : Memory) : (s.basFill lo n cells).thm = s.thm := rfl
@[simp] theorem State.clk_basFill (s : State) (lo n : Nat) (cells : Memory) : (s.basFill lo n cells).clk = s.clk := rfl
@[simp] theorem State.link_basFill (s : State) (lo n : Nat) (cells : Memory) : (s.basFill lo n cells).link = s.link := rfl
@[simp] theorem State.saf_basFill (s : State) (lo n : Nat) (cells : Memory) : (s.basFill lo n cells).saf = s.saf := rfl
@[simp] theorem State.peer_basFill (s : State) (lo n : Nat) (cells : Memory) : (s.basFill lo n cells).peer = s.peer := rfl
@[simp] theorem State.rd_basFill (s : State) (lo n : Nat) (cells : Memory) (g : Fld) : (s.basFill lo n cells).rd g = s.rd g := rfl
@[simp] theorem State.actv_basFill (s : State) (lo n : Nat) (cells : Memory) (g : Fld) : (s.basFill lo n cells).actv g = s.actv g := rfl

@[simp] theorem State.pending_setMgmt (s : State) (m : Mgmt) : (s.setMgmt m).pending = s.pending := rfl
@[simp] theorem State.now_setMgmt (s : State) (m : Mgmt) : (s.setMgmt m).now = s.now := rfl
@[simp] theorem State.fresh_setMgmt (s : State) (m : Mgmt) : (s.setMgmt m).fresh = s.fresh := rfl
@[simp] theorem State.regs_setMgmt (s : State) (m : Mgmt) : (s.setMgmt m).regs = s.regs := rfl
@[simp] theorem State.act_setMgmt (s : State) (m : Mgmt) : (s.setMgmt m).act = s.act := rfl
@[simp] theorem State.ch_setMgmt (s : State) (m : Mgmt) : (s.setMgmt m).ch = s.ch := rfl
@[simp] theorem State.seq_setMgmt (s : State) (m : Mgmt) : (s.setMgmt m).seq = s.seq := rfl
@[simp] theorem State.bas_setMgmt (s : State) (m : Mgmt) : (s.setMgmt m).bas = s.bas := rfl
@[simp] theorem State.reach_setMgmt (s : State) (m : Mgmt) : (s.setMgmt m).reach = s.reach := rfl
@[simp] theorem State.flt_setMgmt (s : State) (m : Mgmt) : (s.setMgmt m).flt = s.flt := rfl
@[simp] theorem State.mode_setMgmt (s : State) (m : Mgmt) : (s.setMgmt m).mode = s.mode := rfl
@[simp] theorem State.rif_setMgmt (s : State) (m : Mgmt) : (s.setMgmt m).rif = s.rif := rfl
@[simp] theorem State.pairMap_setMgmt (s : State) (m : Mgmt) : (s.setMgmt m).pairMap = s.pairMap := rfl
@[simp] theorem State.nand_setMgmt (s : State) (m : Mgmt) : (s.setMgmt m).nand = s.nand := rfl
@[simp] theorem State.sec_setMgmt (s : State) (m : Mgmt) : (s.setMgmt m).sec = s.sec := rfl
@[simp] theorem State.liveSince_setMgmt (s : State) (m : Mgmt) : (s.setMgmt m).liveSince = s.liveSince := rfl
@[simp] theorem State.trim_setMgmt (s : State) (m : Mgmt) : (s.setMgmt m).trim = s.trim := rfl
@[simp] theorem State.diag_setMgmt (s : State) (m : Mgmt) : (s.setMgmt m).diag = s.diag := rfl
@[simp] theorem State.pnt_setMgmt (s : State) (m : Mgmt) : (s.setMgmt m).pnt = s.pnt := rfl
@[simp] theorem State.cal_setMgmt (s : State) (m : Mgmt) : (s.setMgmt m).cal = s.cal := rfl
@[simp] theorem State.thm_setMgmt (s : State) (m : Mgmt) : (s.setMgmt m).thm = s.thm := rfl
@[simp] theorem State.clk_setMgmt (s : State) (m : Mgmt) : (s.setMgmt m).clk = s.clk := rfl
@[simp] theorem State.link_setMgmt (s : State) (m : Mgmt) : (s.setMgmt m).link = s.link := rfl
@[simp] theorem State.saf_setMgmt (s : State) (m : Mgmt) : (s.setMgmt m).saf = s.saf := rfl
@[simp] theorem State.peer_setMgmt (s : State) (m : Mgmt) : (s.setMgmt m).peer = s.peer := rfl
@[simp] theorem State.rd_setMgmt (s : State) (m : Mgmt) (g : Fld) : (s.setMgmt m).rd g = s.rd g := rfl
@[simp] theorem State.actv_setMgmt (s : State) (m : Mgmt) (g : Fld) : (s.setMgmt m).actv g = s.actv g := rfl

@[simp] theorem State.pending_setNand (s : State) (n : Nand) : (s.setNand n).pending = s.pending := rfl
@[simp] theorem State.now_setNand (s : State) (n : Nand) : (s.setNand n).now = s.now := rfl
@[simp] theorem State.fresh_setNand (s : State) (n : Nand) : (s.setNand n).fresh = s.fresh := rfl
@[simp] theorem State.regs_setNand (s : State) (n : Nand) : (s.setNand n).regs = s.regs := rfl
@[simp] theorem State.act_setNand (s : State) (n : Nand) : (s.setNand n).act = s.act := rfl
@[simp] theorem State.ch_setNand (s : State) (n : Nand) : (s.setNand n).ch = s.ch := rfl
@[simp] theorem State.mgmt_setNand (s : State) (n : Nand) : (s.setNand n).mgmt = s.mgmt := rfl
@[simp] theorem State.seq_setNand (s : State) (n : Nand) : (s.setNand n).seq = s.seq := rfl
@[simp] theorem State.bas_setNand (s : State) (n : Nand) : (s.setNand n).bas = s.bas := rfl
@[simp] theorem State.reach_setNand (s : State) (n : Nand) : (s.setNand n).reach = s.reach := rfl
@[simp] theorem State.flt_setNand (s : State) (n : Nand) : (s.setNand n).flt = s.flt := rfl
@[simp] theorem State.mode_setNand (s : State) (n : Nand) : (s.setNand n).mode = s.mode := rfl
@[simp] theorem State.rif_setNand (s : State) (n : Nand) : (s.setNand n).rif = s.rif := rfl
@[simp] theorem State.pairMap_setNand (s : State) (n : Nand) : (s.setNand n).pairMap = s.pairMap := rfl
@[simp] theorem State.sec_setNand (s : State) (n : Nand) : (s.setNand n).sec = s.sec := rfl
@[simp] theorem State.liveSince_setNand (s : State) (n : Nand) : (s.setNand n).liveSince = s.liveSince := rfl
@[simp] theorem State.trim_setNand (s : State) (n : Nand) : (s.setNand n).trim = s.trim := rfl
@[simp] theorem State.diag_setNand (s : State) (n : Nand) : (s.setNand n).diag = s.diag := rfl
@[simp] theorem State.pnt_setNand (s : State) (n : Nand) : (s.setNand n).pnt = s.pnt := rfl
@[simp] theorem State.cal_setNand (s : State) (n : Nand) : (s.setNand n).cal = s.cal := rfl
@[simp] theorem State.thm_setNand (s : State) (n : Nand) : (s.setNand n).thm = s.thm := rfl
@[simp] theorem State.clk_setNand (s : State) (n : Nand) : (s.setNand n).clk = s.clk := rfl
@[simp] theorem State.link_setNand (s : State) (n : Nand) : (s.setNand n).link = s.link := rfl
@[simp] theorem State.saf_setNand (s : State) (n : Nand) : (s.setNand n).saf = s.saf := rfl
@[simp] theorem State.peer_setNand (s : State) (n : Nand) : (s.setNand n).peer = s.peer := rfl
@[simp] theorem State.rd_setNand (s : State) (n : Nand) (g : Fld) : (s.setNand n).rd g = s.rd g := rfl
@[simp] theorem State.actv_setNand (s : State) (n : Nand) (g : Fld) : (s.setNand n).actv g = s.actv g := rfl

@[simp] theorem State.pending_setThm (s : State) (t : Thermal) : (s.setThm t).pending = s.pending := rfl
@[simp] theorem State.now_setThm (s : State) (t : Thermal) : (s.setThm t).now = s.now := rfl
@[simp] theorem State.fresh_setThm (s : State) (t : Thermal) : (s.setThm t).fresh = s.fresh := rfl
@[simp] theorem State.regs_setThm (s : State) (t : Thermal) : (s.setThm t).regs = s.regs := rfl
@[simp] theorem State.act_setThm (s : State) (t : Thermal) : (s.setThm t).act = s.act := rfl
@[simp] theorem State.ch_setThm (s : State) (t : Thermal) : (s.setThm t).ch = s.ch := rfl
@[simp] theorem State.mgmt_setThm (s : State) (t : Thermal) : (s.setThm t).mgmt = s.mgmt := rfl
@[simp] theorem State.seq_setThm (s : State) (t : Thermal) : (s.setThm t).seq = s.seq := rfl
@[simp] theorem State.bas_setThm (s : State) (t : Thermal) : (s.setThm t).bas = s.bas := rfl
@[simp] theorem State.reach_setThm (s : State) (t : Thermal) : (s.setThm t).reach = s.reach := rfl
@[simp] theorem State.flt_setThm (s : State) (t : Thermal) : (s.setThm t).flt = s.flt := rfl
@[simp] theorem State.mode_setThm (s : State) (t : Thermal) : (s.setThm t).mode = s.mode := rfl
@[simp] theorem State.rif_setThm (s : State) (t : Thermal) : (s.setThm t).rif = s.rif := rfl
@[simp] theorem State.pairMap_setThm (s : State) (t : Thermal) : (s.setThm t).pairMap = s.pairMap := rfl
@[simp] theorem State.nand_setThm (s : State) (t : Thermal) : (s.setThm t).nand = s.nand := rfl
@[simp] theorem State.sec_setThm (s : State) (t : Thermal) : (s.setThm t).sec = s.sec := rfl
@[simp] theorem State.liveSince_setThm (s : State) (t : Thermal) : (s.setThm t).liveSince = s.liveSince := rfl
@[simp] theorem State.trim_setThm (s : State) (t : Thermal) : (s.setThm t).trim = s.trim := rfl
@[simp] theorem State.diag_setThm (s : State) (t : Thermal) : (s.setThm t).diag = s.diag := rfl
@[simp] theorem State.pnt_setThm (s : State) (t : Thermal) : (s.setThm t).pnt = s.pnt := rfl
@[simp] theorem State.cal_setThm (s : State) (t : Thermal) : (s.setThm t).cal = s.cal := rfl
@[simp] theorem State.clk_setThm (s : State) (t : Thermal) : (s.setThm t).clk = s.clk := rfl
@[simp] theorem State.link_setThm (s : State) (t : Thermal) : (s.setThm t).link = s.link := rfl
@[simp] theorem State.saf_setThm (s : State) (t : Thermal) : (s.setThm t).saf = s.saf := rfl
@[simp] theorem State.peer_setThm (s : State) (t : Thermal) : (s.setThm t).peer = s.peer := rfl
@[simp] theorem State.rd_setThm (s : State) (t : Thermal) (g : Fld) : (s.setThm t).rd g = s.rd g := rfl
@[simp] theorem State.actv_setThm (s : State) (t : Thermal) (g : Fld) : (s.setThm t).actv g = s.actv g := rfl

@[simp] theorem State.pending_setDiag (s : State) (d : Diag) : (s.setDiag d).pending = s.pending := rfl
@[simp] theorem State.now_setDiag (s : State) (d : Diag) : (s.setDiag d).now = s.now := rfl
@[simp] theorem State.fresh_setDiag (s : State) (d : Diag) : (s.setDiag d).fresh = s.fresh := rfl
@[simp] theorem State.regs_setDiag (s : State) (d : Diag) : (s.setDiag d).regs = s.regs := rfl
@[simp] theorem State.act_setDiag (s : State) (d : Diag) : (s.setDiag d).act = s.act := rfl
@[simp] theorem State.ch_setDiag (s : State) (d : Diag) : (s.setDiag d).ch = s.ch := rfl
@[simp] theorem State.mgmt_setDiag (s : State) (d : Diag) : (s.setDiag d).mgmt = s.mgmt := rfl
@[simp] theorem State.seq_setDiag (s : State) (d : Diag) : (s.setDiag d).seq = s.seq := rfl
@[simp] theorem State.bas_setDiag (s : State) (d : Diag) : (s.setDiag d).bas = s.bas := rfl
@[simp] theorem State.reach_setDiag (s : State) (d : Diag) : (s.setDiag d).reach = s.reach := rfl
@[simp] theorem State.flt_setDiag (s : State) (d : Diag) : (s.setDiag d).flt = s.flt := rfl
@[simp] theorem State.mode_setDiag (s : State) (d : Diag) : (s.setDiag d).mode = s.mode := rfl
@[simp] theorem State.rif_setDiag (s : State) (d : Diag) : (s.setDiag d).rif = s.rif := rfl
@[simp] theorem State.pairMap_setDiag (s : State) (d : Diag) : (s.setDiag d).pairMap = s.pairMap := rfl
@[simp] theorem State.nand_setDiag (s : State) (d : Diag) : (s.setDiag d).nand = s.nand := rfl
@[simp] theorem State.sec_setDiag (s : State) (d : Diag) : (s.setDiag d).sec = s.sec := rfl
@[simp] theorem State.liveSince_setDiag (s : State) (d : Diag) : (s.setDiag d).liveSince = s.liveSince := rfl
@[simp] theorem State.trim_setDiag (s : State) (d : Diag) : (s.setDiag d).trim = s.trim := rfl
@[simp] theorem State.pnt_setDiag (s : State) (d : Diag) : (s.setDiag d).pnt = s.pnt := rfl
@[simp] theorem State.cal_setDiag (s : State) (d : Diag) : (s.setDiag d).cal = s.cal := rfl
@[simp] theorem State.thm_setDiag (s : State) (d : Diag) : (s.setDiag d).thm = s.thm := rfl
@[simp] theorem State.clk_setDiag (s : State) (d : Diag) : (s.setDiag d).clk = s.clk := rfl
@[simp] theorem State.link_setDiag (s : State) (d : Diag) : (s.setDiag d).link = s.link := rfl
@[simp] theorem State.saf_setDiag (s : State) (d : Diag) : (s.setDiag d).saf = s.saf := rfl
@[simp] theorem State.peer_setDiag (s : State) (d : Diag) : (s.setDiag d).peer = s.peer := rfl
@[simp] theorem State.rd_setDiag (s : State) (d : Diag) (g : Fld) : (s.setDiag d).rd g = s.rd g := rfl
@[simp] theorem State.actv_setDiag (s : State) (d : Diag) (g : Fld) : (s.setDiag d).actv g = s.actv g := rfl

@[simp] theorem State.pending_setPeer (s : State) (p : Peer) : (s.setPeer p).pending = s.pending := rfl
@[simp] theorem State.now_setPeer (s : State) (p : Peer) : (s.setPeer p).now = s.now := rfl
@[simp] theorem State.fresh_setPeer (s : State) (p : Peer) : (s.setPeer p).fresh = s.fresh := rfl
@[simp] theorem State.regs_setPeer (s : State) (p : Peer) : (s.setPeer p).regs = s.regs := rfl
@[simp] theorem State.act_setPeer (s : State) (p : Peer) : (s.setPeer p).act = s.act := rfl
@[simp] theorem State.ch_setPeer (s : State) (p : Peer) : (s.setPeer p).ch = s.ch := rfl
@[simp] theorem State.mgmt_setPeer (s : State) (p : Peer) : (s.setPeer p).mgmt = s.mgmt := rfl
@[simp] theorem State.seq_setPeer (s : State) (p : Peer) : (s.setPeer p).seq = s.seq := rfl
@[simp] theorem State.bas_setPeer (s : State) (p : Peer) : (s.setPeer p).bas = s.bas := rfl
@[simp] theorem State.reach_setPeer (s : State) (p : Peer) : (s.setPeer p).reach = s.reach := rfl
@[simp] theorem State.flt_setPeer (s : State) (p : Peer) : (s.setPeer p).flt = s.flt := rfl
@[simp] theorem State.mode_setPeer (s : State) (p : Peer) : (s.setPeer p).mode = s.mode := rfl
@[simp] theorem State.rif_setPeer (s : State) (p : Peer) : (s.setPeer p).rif = s.rif := rfl
@[simp] theorem State.pairMap_setPeer (s : State) (p : Peer) : (s.setPeer p).pairMap = s.pairMap := rfl
@[simp] theorem State.nand_setPeer (s : State) (p : Peer) : (s.setPeer p).nand = s.nand := rfl
@[simp] theorem State.sec_setPeer (s : State) (p : Peer) : (s.setPeer p).sec = s.sec := rfl
@[simp] theorem State.liveSince_setPeer (s : State) (p : Peer) : (s.setPeer p).liveSince = s.liveSince := rfl
@[simp] theorem State.trim_setPeer (s : State) (p : Peer) : (s.setPeer p).trim = s.trim := rfl
@[simp] theorem State.diag_setPeer (s : State) (p : Peer) : (s.setPeer p).diag = s.diag := rfl
@[simp] theorem State.pnt_setPeer (s : State) (p : Peer) : (s.setPeer p).pnt = s.pnt := rfl
@[simp] theorem State.cal_setPeer (s : State) (p : Peer) : (s.setPeer p).cal = s.cal := rfl
@[simp] theorem State.thm_setPeer (s : State) (p : Peer) : (s.setPeer p).thm = s.thm := rfl
@[simp] theorem State.clk_setPeer (s : State) (p : Peer) : (s.setPeer p).clk = s.clk := rfl
@[simp] theorem State.link_setPeer (s : State) (p : Peer) : (s.setPeer p).link = s.link := rfl
@[simp] theorem State.saf_setPeer (s : State) (p : Peer) : (s.setPeer p).saf = s.saf := rfl
@[simp] theorem State.rd_setPeer (s : State) (p : Peer) (g : Fld) : (s.setPeer p).rd g = s.rd g := rfl
@[simp] theorem State.actv_setPeer (s : State) (p : Peer) (g : Fld) : (s.setPeer p).actv g = s.actv g := rfl

@[simp] theorem State.pending_setSaf (s : State) (x : Safety) : (s.setSaf x).pending = s.pending := rfl
@[simp] theorem State.now_setSaf (s : State) (x : Safety) : (s.setSaf x).now = s.now := rfl
@[simp] theorem State.fresh_setSaf (s : State) (x : Safety) : (s.setSaf x).fresh = s.fresh := rfl
@[simp] theorem State.regs_setSaf (s : State) (x : Safety) : (s.setSaf x).regs = s.regs := rfl
@[simp] theorem State.act_setSaf (s : State) (x : Safety) : (s.setSaf x).act = s.act := rfl
@[simp] theorem State.ch_setSaf (s : State) (x : Safety) : (s.setSaf x).ch = s.ch := rfl
@[simp] theorem State.mgmt_setSaf (s : State) (x : Safety) : (s.setSaf x).mgmt = s.mgmt := rfl
@[simp] theorem State.seq_setSaf (s : State) (x : Safety) : (s.setSaf x).seq = s.seq := rfl
@[simp] theorem State.bas_setSaf (s : State) (x : Safety) : (s.setSaf x).bas = s.bas := rfl
@[simp] theorem State.reach_setSaf (s : State) (x : Safety) : (s.setSaf x).reach = s.reach := rfl
@[simp] theorem State.flt_setSaf (s : State) (x : Safety) : (s.setSaf x).flt = s.flt := rfl
@[simp] theorem State.mode_setSaf (s : State) (x : Safety) : (s.setSaf x).mode = s.mode := rfl
@[simp] theorem State.rif_setSaf (s : State) (x : Safety) : (s.setSaf x).rif = s.rif := rfl
@[simp] theorem State.pairMap_setSaf (s : State) (x : Safety) : (s.setSaf x).pairMap = s.pairMap := rfl
@[simp] theorem State.nand_setSaf (s : State) (x : Safety) : (s.setSaf x).nand = s.nand := rfl
@[simp] theorem State.sec_setSaf (s : State) (x : Safety) : (s.setSaf x).sec = s.sec := rfl
@[simp] theorem State.liveSince_setSaf (s : State) (x : Safety) : (s.setSaf x).liveSince = s.liveSince := rfl
@[simp] theorem State.trim_setSaf (s : State) (x : Safety) : (s.setSaf x).trim = s.trim := rfl
@[simp] theorem State.diag_setSaf (s : State) (x : Safety) : (s.setSaf x).diag = s.diag := rfl
@[simp] theorem State.pnt_setSaf (s : State) (x : Safety) : (s.setSaf x).pnt = s.pnt := rfl
@[simp] theorem State.cal_setSaf (s : State) (x : Safety) : (s.setSaf x).cal = s.cal := rfl
@[simp] theorem State.thm_setSaf (s : State) (x : Safety) : (s.setSaf x).thm = s.thm := rfl
@[simp] theorem State.clk_setSaf (s : State) (x : Safety) : (s.setSaf x).clk = s.clk := rfl
@[simp] theorem State.link_setSaf (s : State) (x : Safety) : (s.setSaf x).link = s.link := rfl
@[simp] theorem State.peer_setSaf (s : State) (x : Safety) : (s.setSaf x).peer = s.peer := rfl
@[simp] theorem State.rd_setSaf (s : State) (x : Safety) (g : Fld) : (s.setSaf x).rd g = s.rd g := rfl
@[simp] theorem State.actv_setSaf (s : State) (x : Safety) (g : Fld) : (s.setSaf x).actv g = s.actv g := rfl

@[simp] theorem State.pending_setLink (s : State) (l : LinkId) (x : Link) : (s.setLink l x).pending = s.pending := rfl
@[simp] theorem State.now_setLink (s : State) (l : LinkId) (x : Link) : (s.setLink l x).now = s.now := rfl
@[simp] theorem State.fresh_setLink (s : State) (l : LinkId) (x : Link) : (s.setLink l x).fresh = s.fresh := rfl
@[simp] theorem State.regs_setLink (s : State) (l : LinkId) (x : Link) : (s.setLink l x).regs = s.regs := rfl
@[simp] theorem State.act_setLink (s : State) (l : LinkId) (x : Link) : (s.setLink l x).act = s.act := rfl
@[simp] theorem State.ch_setLink (s : State) (l : LinkId) (x : Link) : (s.setLink l x).ch = s.ch := rfl
@[simp] theorem State.mgmt_setLink (s : State) (l : LinkId) (x : Link) : (s.setLink l x).mgmt = s.mgmt := rfl
@[simp] theorem State.seq_setLink (s : State) (l : LinkId) (x : Link) : (s.setLink l x).seq = s.seq := rfl
@[simp] theorem State.bas_setLink (s : State) (l : LinkId) (x : Link) : (s.setLink l x).bas = s.bas := rfl
@[simp] theorem State.reach_setLink (s : State) (l : LinkId) (x : Link) : (s.setLink l x).reach = s.reach := rfl
@[simp] theorem State.flt_setLink (s : State) (l : LinkId) (x : Link) : (s.setLink l x).flt = s.flt := rfl
@[simp] theorem State.mode_setLink (s : State) (l : LinkId) (x : Link) : (s.setLink l x).mode = s.mode := rfl
@[simp] theorem State.rif_setLink (s : State) (l : LinkId) (x : Link) : (s.setLink l x).rif = s.rif := rfl
@[simp] theorem State.pairMap_setLink (s : State) (l : LinkId) (x : Link) : (s.setLink l x).pairMap = s.pairMap := rfl
@[simp] theorem State.nand_setLink (s : State) (l : LinkId) (x : Link) : (s.setLink l x).nand = s.nand := rfl
@[simp] theorem State.sec_setLink (s : State) (l : LinkId) (x : Link) : (s.setLink l x).sec = s.sec := rfl
@[simp] theorem State.liveSince_setLink (s : State) (l : LinkId) (x : Link) : (s.setLink l x).liveSince = s.liveSince := rfl
@[simp] theorem State.trim_setLink (s : State) (l : LinkId) (x : Link) : (s.setLink l x).trim = s.trim := rfl
@[simp] theorem State.diag_setLink (s : State) (l : LinkId) (x : Link) : (s.setLink l x).diag = s.diag := rfl
@[simp] theorem State.pnt_setLink (s : State) (l : LinkId) (x : Link) : (s.setLink l x).pnt = s.pnt := rfl
@[simp] theorem State.cal_setLink (s : State) (l : LinkId) (x : Link) : (s.setLink l x).cal = s.cal := rfl
@[simp] theorem State.thm_setLink (s : State) (l : LinkId) (x : Link) : (s.setLink l x).thm = s.thm := rfl
@[simp] theorem State.clk_setLink (s : State) (l : LinkId) (x : Link) : (s.setLink l x).clk = s.clk := rfl
@[simp] theorem State.saf_setLink (s : State) (l : LinkId) (x : Link) : (s.setLink l x).saf = s.saf := rfl
@[simp] theorem State.peer_setLink (s : State) (l : LinkId) (x : Link) : (s.setLink l x).peer = s.peer := rfl
@[simp] theorem State.rd_setLink (s : State) (l : LinkId) (x : Link) (g : Fld) : (s.setLink l x).rd g = s.rd g := rfl
@[simp] theorem State.actv_setLink (s : State) (l : LinkId) (x : Link) (g : Fld) : (s.setLink l x).actv g = s.actv g := rfl

@[simp] theorem State.mgmt_setMgmt_self (s : State) (m : Mgmt) : (s.setMgmt m).mgmt = m := rfl
@[simp] theorem State.nand_setNand_self (s : State) (n : Nand) : (s.setNand n).nand = n := rfl
@[simp] theorem State.thm_setThm_self (s : State) (t : Thermal) : (s.setThm t).thm = t := rfl
@[simp] theorem State.diag_setDiag_self (s : State) (d : Diag) : (s.setDiag d).diag = d := rfl
@[simp] theorem State.peer_setPeer_self (s : State) (p : Peer) : (s.setPeer p).peer = p := rfl
@[simp] theorem State.saf_setSaf_self (s : State) (x : Safety) : (s.setSaf x).saf = x := rfl

end Sys2Proof.Machine
end

