-- ==== Sys2Proof/WellFormed.lean ====
section
/-!
DEFINITION. Which terms of Instr are commands that can come: the ranges of their operands. A meaning does not ask for it; a term outside these
ranges stands for nothing that reaches the device.
-/
namespace Sys2Proof

/-- An access moves 1 to 1,024 bytes (R276). -/
def accessLen (n : Nat) : Bool := decide (1 ≤ n ∧ n ≤ 1024)

/-- The register rows reach register space; from the debug port, which has no rows of its own for it, also the rest of the memory map
(R362). -/
def portReaches (who : Requester) (a : W32) : Bool := who = .debug || (0x4000000#32 ≤ a && a < 0x4010000#32)

/-- A payload is at most 2,047 bytes, as LEN has 11 bits, and a tag is 16 bytes or absent (R275, R278). -/
def RxPacket.wf (p : RxPacket) : Bool := decide (p.payload.length ≤ 2047) && (p.tag.length = 16 || p.tag.isEmpty)

/-- TYPE, LEN and ADDR of a packet that the device receives fit the type table of its link (R276, R318). -/
def fitsTable (l : LinkId) (type len addr : Nat) : Bool :=
  match l with
  | .host => if type = 1 ∨ type = 2 then accessLen len else addr = 0 && ((type = 5 && len = 32) || (type = 6 && len = 16))
  | .peer =>
    if type = 1 then 16 ≤ len && len ≤ 1024 && len % 16 = 0
    else
      addr = 0 && ((type = 2 && len = 32) || (type = 7 && len = 32) || (type = 8 && 8 ≤ len && len ≤ 1024 && len % 4 = 0) ||
        (type = 9 && len = 16) || (type = 10 && len = 72) || (type = 11 && len = 8))

/-- 32 counts at each step (R224). -/
def SlotMeas.wf (m : SlotMeas) : Bool := m.c16.length = 32 && m.c56.length = 32

/-- OTP is 1,024 bytes (R338), an identity record 192 (R337). -/
def Fitted.wf (x : Fitted) : Bool := decide (x.otp.length ≤ 1024) && (x.idRecord.length = 192 || x.idRecord.isEmpty)

/-- The fields of a trim package have their widths (R338, R344, R351). -/
def TrimPkg.wf (p : TrimPkg) : Bool := p.serial.length = 16 && p.key.length = 64 && p.sig.length = 64

/-- A public key is 64 bytes, the PUF array 16 KiB (R336). -/
def BootIO.wf (x : BootIO) : Bool :=
  x.key.length = 64 && x.pufRaw.length = 16384 && (x.trim0.toList ++ x.trim1.toList).all TrimPkg.wf

/-- The command is well formed. -/
def Instr.wf : Instr → Bool
  | .nop e w => decodeWord e w.slot ⟨false, .clean⟩ w.word = .nop e w
  | .scalarOp _ _ => true
  | .scalarImmOp _ _ _ => true
  | .li _ _ => true
  | .lui _ _ => true
  | .ld _ _ => true
  | .st _ _ => true
  | .vld _ _ => true
  | .vst _ _ => true
  | .bargeIssue _ _ => true
  | .loop _ _ _ => true
  | .jump _ _ => true
  | .call _ _ => true
  | .ret _ _ => true
  | .halt _ _ => true
  | .rdctx _ _ => true
  | .vectorOp _ _ => true
  | .predicateOp _ _ => true
  | .vext _ _ => true
  | .vbcast _ _ => true
  | .clamp _ _ => true
  | .minmax _ _ => true
  | .vmul _ _ => true
  | .vmula _ _ => true
  | .vmac _ _ => true
  | .accNarrow _ _ => true
  | .sample _ _ => true
  | .cover _ _ => true
  | .blend _ _ => true
  | .lut16 _ _ => true
  | .health _ _ => true
  | .reqPut _ _ => true
  | .resultLand _ => true
  | .elvothSLoad _ _ _ _ => true
  | .elvothSStore _ _ _ _ => true
  | .branch _ _ _ => true
  | .jal _ _ => true
  | .jalr _ _ => true
  | .cwr _ _ => true
  | .cww _ _ => true
  | .nmiAck => true
  | .trap _ _ => true
  | .rett _ _ => true
  | .retn _ _ => true
  | .wfi _ _ => true
  | .fence _ _ => true
  | .interruptTake => true
  | .nmiTake => true
  | .frameSyncEdge _ _ => true
  | .syncEdgeTimeout => true
  | .holdoverExpire => true
  | .freeStart => true
  | .sluice _ microamps milliamps => microamps.length = 16 && milliamps.length = 16
  | .lockStart _ => true
  | .lockLengthExpire _ => true
  | .bargeRepMissed _ _ => true
  | .bargeBeat _ _ _ => true
  | .retryStallEnd => true
  | .basinServiceAccess _ _ => true
  | .scrubStep _ => true
  | .trimFormat _ _ => true
  | .ledgerUpdate _ _ => true
  | .rowSlot _ meas => meas.all SlotMeas.wf && meas.map SlotMeas.reach = List.finRange 16
  | .shortCheck _ => true
  | .openCheck _ => true
  | .rowOvercurrent _ => true
  | .thermalUpdate => true
  | .sensorSample samples => samples.length = 11
  | .thermalTrip => true
  | .painterStreamStart => true
  | .painterStreamEnd => true
  | .painterZeroStream => true
  | .linkDetectPoll _ _ => true
  | .trainingSet _ _ _ _ _ _ _ => true
  | .trainTimeout _ => true
  | .slackSet _ lanes => decide (lanes.length ≤ 4)
  | .lockTimeout _ => true
  | .capsSend _ => true
  | .caps _ content _ => content.length = 32
  | .exchangeTimeout _ => true
  | .widthSet _ _ => true
  | .laneLoss _ _ => true
  | .laneReturn _ _ => true
  | .electricalIdle _ => true
  | .recoverTimeout _ => true
  | .wr pkt _ => pkt.wf
  | .rd pkt _ _ _ => pkt.wf
  | .safe pkt => pkt.wf
  | .time pkt => pkt.wf
  | .ack _ _ _ => true
  | .nak _ _ _ => true
  | .ackSend _ => true
  | .replayTimeout _ => true
  | .pktTimeout _ => true
  | .abortedPacket _ => true
  | .xfer pkt _ => pkt.wf
  | .xctl pkt => pkt.wf
  | .sluiceRecord pkt _ => pkt.wf
  | .sluiceRecordTimeout => true
  | .map pkt => pkt.wf
  | .seal pkt => pkt.wf
  | .fcrc pkt => pkt.wf
  | .echo pkt _ => pkt.wf
  | .localMapSend => true
  | .roleRecognised _ => true
  | .safetyPattern _ _ _ => true
  | .discrepancyTimeout _ => true
  | .egressEnter => true
  | .telegramUnmatched _ => true
  | .telegramTimeout => true
  | .towpathTelegram _ frame => decide (frame.length ≤ 259) && frame.head? != some 3#8
  | .towpathPoll _ frame => decide (frame.length ≤ 259) && frame.head? = some 3#8
  | .towpathStatus => true
  | .outputTestPulse => true
  | .outputTestEnd _ _ _ => true
  | .outputReadbackError _ _ => true
  | .escalationTimeout => true
  | .liveBitExpire _ => true
  | .fltClear _ _ _ => true
  | .fltForce _ _ _ => true
  | .powerUp fitted => fitted.all Fitted.wf
  | .resetN _ => true
  | .powerOnDetect _ => true
  | .bootStart io => io.wf
  | .bootWatchdog => true
  | .bootDone => true
  | .bootEnd _ => true
  | .servicePress _ => true
  | .serviceStuck => true
  | .entropyHealthFail => true
  | .secChal => true
  | .secToken token => token.length = 128
  | .eyeScanStart _ _ _ _ _ => true
  | .eyeScanStop _ _ => true
  | .eyeScanEnd _ ones zeros => decide (ones + zeros ≤ 2 ^ 40)
  | .registerWrite who a data => accessLen data.length && portReaches who a
  | .registerReadClear who span _ => accessLen span.len && portReaches who span.addr
  | .bitAliasRead _ _ => true
  | .bitAliasWrite _ _ _ => true
  | .commit _ => true
  | .seqRateWrite _ _ _ => true
  | .lockLoad _ _ => true
  | .runSet _ => true
  | .runClear _ => true
  | .reachReset _ _ => true
  | .ready _ _ _ => true
  | .cancel _ _ => true
  | .release _ _ => true
  | .retire _ _ => true
  | .berthPlace _ _ _ _ => true
  | .berthFmt _ _ _ _ => true
  | .trimStoreWrite _ data => accessLen data.length
  | .calCmd _ _ => true
  | .rearm _ _ => true
  | .retrain _ _ => true
  | .linkEnable _ _ _ => true
  | .peerCtrlResync _ => true
  | .chipReset _ => true
  | .safeDark _ => true
  | .clearSafeDark _ => true
  | .resume _ => true
  | .nfcCheckpoint _ => true
  | .crcCommit _ => true
  | .crcHold _ _ => true
  | .crcEn _ => true
  | .holdExpire => true
  | .crcSweep => true
  | .whfCmdTail _ _ _ => true
  | .whfCplRead _ _ _ => true
  | .whfTelemRead _ _ => true
  | .commandStart _ => true
  | .telemetryRecord => true
  | .getIdentity _ => true
  | .challenge _ => true
  | .quote _ => true
  | .sessionHello _ => true
  | .sessionFinish _ => true
  | .sessionClose => true
  | .peerMsg => true
  | .pairSet => true
  | .certSet => true
  | .tgKeySet => true
  | .installRoot _ _ => true
  | .revokeRoot _ _ => true
  | .provisionEnd _ => true
  | .reprovision _ => true
  | .debugUnlock _ => true
  | .recoverWrite _ => true
  | .imageWrite => true
  | .commitSvn _ => true
  | .flightLoad => true
  | .flightStore => true
  | .libraryLoad => true
  | .libraryStore => true
  | .ceilStore => true
  | .ceilLoad => true
  | .fileRead => true
  | .sync => true
  | .backup => true
  | .shutdown => true
  | .startSet => true
  | .calibrate => true
  | .resync => true
  | .maintEnter => true
  | .maintExit => true
  | .testEnter => true
  | .testExit => true
  | .nandReadSector _ _ _ corrected level => decide (corrected ≤ 24) || level.all (fun l => decide (l ≤ 15))
  | .nandProgramDone _ => true
  | .nandEraseDone _ => true
  | .nandTimeout => true
  | .checkpointTimer => true
  | .nandScrubStep => true
  | .wearLevelMove => true
  | .refresh => true
  | .deferralResume => true
  | .malformedPacket link raw => raw.pkt.wf && !fitsTable link raw.type.toNat raw.len.toNat raw.addr.toNat
  | .elasticBufferOverflow _ _ => true
  | .serviceStuckClear => true
  | .entropyHealthRestored => true
  | .blockResetDone _ _ => true
  | .extest _ => true

end Sys2Proof
end

