-- ==== Sys2Proof/Tests/Slice0.lean ====
section
/-!
SUPPORT. The model's own tests: terms that are not well formed, a concrete state and operands for the hypotheses of every statement, and small results
of the spec's tables and worked examples. Hypotheses that ask a signature or a MAC to verify have no concrete witness: the functions are named
standards without a body here (Config).
-/

open Sys2Proof Sys2Proof.Machine

/-- A state with register fields set. -/
def Sys2Proof.Machine.State.having (s : State) (l : List (Fld × Nat)) : State := l.foldl (fun s p => s.put p.1 p.2) s

namespace Sys2Proof.Tests

set_option Elab.async false

/-! ## Terms that are no commands -/

/-- An unencrypted packet of sequence 0, its CRC-32 that of its header and payload (R275, R277). -/
def packet (type len addr : Nat) (payload : List Byte) : RxPacket :=
  { seq := 0, whole := true, enc := false, payload := payload, tag := [],
    crc := BitVec.ofNat 32 (crc32 (packetHeader type 0 false 0 false len addr ++ payload)) }
def testPacket (n : Nat) : RxPacket := packet 1 n 0x1E00000 (List.replicate n 0#8)

/-- The measurements of a row slot, one for each reach (R225). -/
def measured : List SlotMeas := (List.finRange 16).map (fun r => ⟨r, 0, 0, 0, List.replicate 32 0, List.replicate 32 0⟩)

theorem test_wf_nop : Instr.wf (.nop .mgmt ⟨.scalar, 0x0#32⟩) = true ∧ Instr.wf (.nop .mgmt ⟨.scalar, 0x28000000#32⟩) = false ∧
    Instr.wf (.nop .mgmt ⟨.scalar, 0x30000000#32⟩) = true := by decide +kernel
theorem test_wf_currents : Instr.wf (.sluice [] [] []) = false := by decide
theorem test_wf_counts : Instr.wf (.rowSlot 0 measured) = true ∧ Instr.wf (.rowSlot 0 (measured.drop 1)) = false ∧
    Instr.wf (.rowSlot 0 (measured.map (fun m => { m with c16 := [] }))) = false := by decide +kernel
theorem test_wf_samples : Instr.wf (.sensorSample []) = false := by decide
theorem test_wf_slack_lanes : Instr.wf (.slackSet .host (List.replicate 5 ⟨0, 0, 0, 0⟩)) = false := by decide
theorem test_wf_caps : Instr.wf (.caps .host [0#8] 0#32) = false := by decide
theorem test_wf_payload : (testPacket 2048).wf = false ∧ (testPacket 2047).wf = true := by decide +kernel
theorem test_wf_tag : RxPacket.wf { testPacket 0 with tag := [0#8] } = false := by decide
theorem test_wf_packet : Instr.wf (.wr { testPacket 0 with tag := [0#8] } 0) = false := by decide
theorem test_wf_frame : Instr.wf (.towpathTelegram true (List.replicate 260 0#8)) = false ∧ Instr.wf (.towpathTelegram true [3#8]) = false ∧
    Instr.wf (.towpathPoll true [1#8]) = false := by decide +kernel
theorem test_wf_fitted : Instr.wf (.powerUp (some ⟨[], [], [], [0#8]⟩)) = false := by decide
theorem test_wf_token : Instr.wf (.secToken []) = false := by decide
theorem test_wf_eye_counts : Instr.wf (.eyeScanEnd 0 (2 ^ 40) 1) = false := by decide
theorem test_wf_access : Instr.wf (.registerWrite .host 0x4000000#32 []) = false ∧ Instr.wf (.registerReadClear .host ⟨0x4000000#32, 1025⟩ []) = false ∧
    Instr.wf (.registerReadClear .host ⟨0x6100000#32, 4⟩ []) = false ∧ Instr.wf (.registerReadClear .debug ⟨0x6100000#32, 4⟩ []) = true ∧
    Instr.wf (.trimStoreWrite 0 []) = false := by decide
theorem test_wf_retry_level : Instr.wf (.nandReadSector 0 0 0 25 (some 16)) = false ∧ Instr.wf (.nandReadSector 0 0 0 24 (some 16)) = true := by decide
theorem test_wf_boot : Instr.wf (.bootStart ⟨true, [], true, true, [], [], none, true, true, true, none, none⟩) = false := by decide
theorem test_decode_word : decodeWord (.chamber 0) .scalar ⟨false, .clean⟩ 0xC0000000#32 = .nop (.chamber 0) ⟨.scalar, 0xC0000000#32⟩ ∧
    decodeWord (.chamber 0) .vector ⟨false, .clean⟩ 0xC0A132C0#32 = .vectorOp (.chamber 0) ⟨5, 1, 6, 2, 0xC0⟩ ∧
    decodeWord .mgmt .scalar ⟨false, .clean⟩ 0x04840040#32 = .scalarImmOp .mgmt .addi ⟨4, 4, 0, 0, 0x40⟩ ∧
    decodeWord .mgmt .scalar ⟨false, .clean⟩ 0x34000000#32 = .nop .mgmt ⟨.scalar, 0x34000000#32⟩ := by decide +kernel
theorem test_no_word_spells_a_command : decodeTableWord 32 0 = none := by decide

/-! ## States -/

/-- Boot's end is past, nothing is fitted or configured, no light. -/
def idle : State := { State.reset with mode := { State.reset.mode with phase := .running, seen := 51 }, now := 20000000000 }

/-- The cores at firmware level: no region grants anything. -/
def firmware : State := State.reset.having [(Reg.SEC_STATUS_BOOT_PHASE, 0)]

/-- An Elvoth word of zeros. -/
def word0 : Fields := ⟨0, 0, 0, 0, 0⟩

theorem reset_ready : State.reset.Ready := by unfold State.Ready; decide +kernel
theorem idle_ready : idle.Ready := by unfold State.Ready; decide +kernel
theorem firmware_ready : firmware.Ready := by unfold State.Ready; decide +kernel
theorem reset_issues : State.reset.Issues 0 := by unfold State.Issues; decide +kernel
theorem reset_core_runs : State.reset.CoreRuns := by unfold State.CoreRuns; decide +kernel

theorem clear_of_no_tags (x : Chamber) (h : x.tags = []) (ls : List Nat) : x.Clear ls := by intro l _; simp [h]

/-! ## Chambers -/

/-- Chamber 0 in the last bundle of the store, with a call and a loop open. -/
def inLoop : State :=
  State.reset.setCh 0 { Chamber.reset with pc := 8191, calls := [8190], loops := [{ start := 1, stop := 8191, remaining := 2 }] }

theorem inLoop_ready : inLoop.Ready ∧ inLoop.Issues 0 := by unfold State.Ready State.Issues; decide +kernel

theorem witness_ChamberScalarSlot : State.reset.Ready ∧ State.reset.Issues 0 ∧ word0.b = 0#5 ∧
    (State.reset.chAt 0).Clear [(State.reset.chAt 0).memAddr word0 2 / 2 * 2 / 64] ∧
    (State.reset.chAt 0).Clear [(State.reset.chAt 0).memAddr word0 64 / 64 * 64 / 64] ∧ aluResult 16 0x12 0xFFFF#16 0xFFFF#16 = some 0xFFFE#16 := by
  repeat' (with_reducible refine And.intro ?_ ?_)
  all_goals first
    | (with_reducible first | exact reset_ready | exact reset_issues)
    | decide +kernel
    | exact clear_of_no_tags _ rfl _

/-- A LOOP of no further bundle inside a loop that ends here, RET and the fifth CALL, HALT out of a lock, an unassigned minor. -/
theorem witness_ChamberControlAndBreaches : inLoop.Ready ∧ inLoop.Issues 0 ∧ (inLoop.chAt 0).loops.length < 3 ∧
    (∀ e ∈ (inLoop.chAt 0).loops.head?, (inLoop.chAt 0).pc + 0 ≤ e.stop) ∧ (State.reset.chAt 0).loops = [] ∧ (inLoop.chAt 0).calls = [8190] ∧
    (inLoop.chAt 0).running = false ∧ (State.reset.chAt 0).calls = [] ∧ aluResult 16 0x14 0#16 0#16 = none ∧ word0.d = 0#5 ∧
    (102, some 0, (inLoop.chAt 0).cycle) ∉ inLoop.flt.instants ∧ (103, some 0, (inLoop.chAt 0).cycle) ∉ inLoop.flt.instants := by
  repeat' (with_reducible refine And.intro ?_ ?_)
  all_goals first
    | (with_reducible first | exact inLoop_ready.1 | exact inLoop_ready.2)
    | decide +kernel

/-- A lock of cycles 100 to 109 on chamber 0, entry 5, with one barge of one beat, issued at cycle 0 of it, twice. -/
def barge0 : BargeEntry :=
  { issue := 0, src := 0, cstride := 0, srcPitch := 0, dstPitch := 0, dst := 64, rowBeats := 1, rows := 1, skew := 0, reps := 2, space := 1, berth := 0,
    repCycles := 5, repSrcStep := 0, repDstStep := 64 }
def lock0 : LockEntry := { start := 100, length := 10, mask := 1, entry := 5, bargeFirst := 0, bargeN := 1, claimFirst := 0, claimN := 0 }
def flight0 : Flight :=
  { egress := false, fMin := 48, fMax := 240, sReq := 0, id := 0, imageSize := 0, progs := [], locks := [lock0], barges := [barge0], claims := [], layers := [],
    dataOff := 0, dataSize := 0 }

/-- The flight runs; chamber 0 as given. -/
def flying (x : Chamber) : State := { State.reset with seq := { Seq.reset with state := .free, first := false, run := some flight0 } }.setCh 0 x

/-- Before the lock, in its first and in its last cycle. -/
def atStart : Chamber := { Chamber.reset with cycle := 100 }
def inFirst : Chamber := { Chamber.reset with cycle := 100, running := true, lockStart := 100, pc := 5 }
def inLast : Chamber := { inFirst with cycle := 109 }
def withBarge : Chamber := { inFirst with barges := [{ entry := barge0, rep := 0, issued := 100, order := 0, slot := 0, next := 0 }], tags := [1] }

theorem flying_ready : (flying atStart).Ready ∧ (flying inFirst).Ready ∧ (flying inLast).Ready ∧ (flying withBarge).Ready := by
  unfold State.Ready; decide +kernel

theorem witness_BargeIssueStarts : (flying inFirst).Ready ∧ (flying inFirst).Issues 0 ∧ (flying inFirst).bargeOf ((flying inFirst).chAt 0) 0 = some barge0 ∧
    Sparse.get ((flying inFirst).chAt 0).reps 0 0 < barge0.reps ∧
    ((flying inFirst).chAt 0).cycle - ((flying inFirst).chAt 0).lockStart =
      barge0.issue + Sparse.get ((flying inFirst).chAt 0).reps 0 0 * barge0.repCycles ∧
    freeSlot (((flying inFirst).chAt 0).barges.filter (fun b => b.inFlightAt 0 ((flying inFirst).chAt 0).cycle)) = some 0 := by
  repeat' (with_reducible refine And.intro ?_ ?_)
  all_goals first
    | (with_reducible first | exact flying_ready.2.1)
    | decide +kernel
    | (unfold State.Issues; decide +kernel)

theorem witness_VectorResults : State.reset.Ready ∧ State.reset.Issues 0 ∧ vecReservedOk 0x00 word0 = true ∧
    (∀ a b i, ∃ v, vecLane 0x00 0 0 a b i = some v) ∧ (∀ a b, ∃ v, vecCmp 0x10 0 a b = some v) ∧ (∀ d v a, ∃ r, blendLane 0 d v a = some r) := by
  repeat' (with_reducible refine And.intro ?_ ?_)
  all_goals first
    | (with_reducible first | exact reset_ready | exact reset_issues)
    | decide +kernel
    | exact fun _ _ _ => ⟨_, rfl⟩
    | exact fun _ _ => ⟨_, rfl⟩

theorem witness_Clamp : State.reset.Ready ∧ State.reset.Issues 0 ∧ (⟨0, 0, 30, 0, 0xCD⟩ : Fields).minor.toNat % 64 = 0x0D ∧
    (⟨0, 0, 30, 0, 0xCD⟩ : Fields).b.toNat % 2 = 0 ∧ (⟨0, 0, 31, 0, 0xCD⟩ : Fields).b.toNat % 2 = 1 :=
  ⟨reset_ready, reset_issues, by decide, by decide, by decide⟩

theorem witness_TexelGlyphTableAndHealth : State.reset.Ready ∧ State.reset.Issues 0 ∧
    (∀ ls, (State.reset.chAt 0).Clear ls) ∧ word0.minor.toNat / 16 % 4 = 0 ∧ (⟨7, 0, 0, 0, 2⟩ : Fields).d.toNat < 8 :=
  ⟨reset_ready, reset_issues, fun _ => clear_of_no_tags _ rfl _, by decide, by decide⟩

/-- A scalar result in flight and nothing else. -/
def landing : State := State.reset.setCh 0 { Chamber.reset with inFlight := [{ due := 3, order := 0, land := .scalar 31 0xFFFF#16 }] }
theorem landing_ready : landing.Ready := by unfold State.Ready; decide +kernel

theorem witness_RequestsAndResultsLand : State.reset.Ready ∧ State.reset.Issues 0 ∧ (State.reset.reachAt 0).has 4095 = false ∧ landing.Ready ∧
    (landing.chAt 0).inFlight = [{ due := 3, order := 0, land := .scalar 31 0xFFFF#16 }] ∧ (landing.chAt 0).running = false := by
  repeat' (with_reducible refine And.intro ?_ ?_)
  all_goals first
    | (with_reducible first | exact reset_ready | exact reset_issues | exact landing_ready)
    | decide +kernel

/-! ## The management cores -/

theorem witness_CoreResultsAndJumps : State.reset.Ready ∧ State.reset.CoreRuns ∧ divResult 0x17 7#32 0#32 = some 7#32 ∧
    firmware.Ready ∧ firmware.permits firmware.mgmt.pc.toNat 0 = false ∧ firmware.mgmt.stopped = false ∧ firmware.mgmt.trapActive = false := by
  repeat' (with_reducible refine And.intro ?_ ?_)
  all_goals first
    | (with_reducible first | exact reset_ready | exact reset_core_runs | exact firmware_ready)
    | decide +kernel

/-- The cores with a trap and an NMI active, one pending, and both kinds of interrupt pending with IE set. -/
def trapped : State := { State.reset with mgmt := { Mgmt.reset with trapActive := true, nmiActive := true, nmiPending := true } }
def interrupted : State := { State.reset with mgmt := { Mgmt.reset with ie := true, intPending := true, nmiPending := true } }
def grantedFirmware : State := { firmware with mgmt := { Mgmt.reset with
  protBase := Mgmt.reset.protBase.set 0 0x06000001#32, protLimit := Mgmt.reset.protLimit.set 0 0x06000001#32 } }
/-- A trap is active, and FS002 has no reaction; and it calls the NMI. -/
def trappedAgain (nmi : Nat) : State := trapped.having [(Reg.FLT_REACT_NMI 2, nmi), (Reg.FLT_REACT_INT 2, 0)]
theorem trapped_ready : trapped.Ready ∧ interrupted.Ready ∧ grantedFirmware.Ready := by unfold State.Ready; decide +kernel
theorem trapped_again (nmi : Nat) (h : nmi = 0 ∨ nmi = 1) : (trappedAgain nmi).Ready ∧ (trappedAgain nmi).CoreRuns := by
  rcases h with rfl | rfl <;> (unfold State.Ready State.CoreRuns; decide +kernel)

theorem witness_CoreSystem : State.reset.Ready ∧ State.reset.CoreRuns ∧ State.reset.bootLevel = true ∧ trapped.Ready ∧ trapped.CoreRuns ∧
    grantedFirmware.Ready ∧ grantedFirmware.CoreRuns ∧ grantedFirmware.bootLevel = false ∧ Fields.OnlyMinor ⟨0, 0, 0, 0, 3⟩ := by
  repeat' (with_reducible refine And.intro ?_ ?_)
  all_goals first
    | (with_reducible first | exact reset_ready | exact reset_core_runs | exact trapped_ready.1 | exact trapped_ready.2.2)
    | decide +kernel
    | (unfold State.CoreRuns; decide +kernel)
    | (unfold Fields.OnlyMinor; decide +kernel)

theorem witness_CoreInterruptsAndTraps : interrupted.Ready ∧ interrupted.mgmt.intPending = true ∧ interrupted.mgmt.ie = true ∧
    interrupted.mgmt.nmiPending = true ∧ interrupted.mgmt.nmiActive = false ∧ interrupted.mgmt.trapActive = false ∧ interrupted.mgmt.stopped = false ∧
    (trappedAgain 0).Ready ∧ (trappedAgain 0).CoreRuns ∧ (trappedAgain 0).mgmt.trapActive = true ∧ (trappedAgain 0).on (Reg.FLT_REACT_NMI 2) = false ∧
    (trappedAgain 0).on (Reg.FLT_REACT_INT 2) = false ∧ (trappedAgain 1).Ready ∧ (trappedAgain 1).CoreRuns ∧ (trappedAgain 1).mgmt.trapActive = true ∧
    (trappedAgain 1).on (Reg.FLT_REACT_NMI 2) = true ∧ State.reset.Ready ∧ State.reset.CoreRuns ∧ State.reset.mgmt.trapActive = false := by
  repeat' (with_reducible refine And.intro ?_ ?_)
  all_goals first
    | (with_reducible first | exact trapped_ready.2.1 | exact reset_ready | exact reset_core_runs | exact (trapped_again 0 (.inl rfl)).1 | exact (trapped_again 0 (.inl rfl)).2 | exact (trapped_again 1 (.inr rfl)).1 | exact (trapped_again 1 (.inr rfl)).2)
    | decide +kernel

/-- s1 holds the first, the last word and the end of management SRAM. -/
def sramAt (a : W32) : State := { State.reset with mgmt := { Mgmt.reset with x := Mgmt.reset.x.set 1 a } }
theorem sramAt_ready (a : W32) (h : a = 0x6100000#32 ∨ a = 0x617FFFC#32) : (sramAt a).Ready ∧ (sramAt a).CoreRuns := by
  rcases h with rfl | rfl <;> (unfold State.Ready State.CoreRuns; decide +kernel)

def grantedAt (a : W32) : State := { grantedFirmware with mgmt := { grantedFirmware.mgmt with x := Mgmt.reset.x.set 1 a } }
theorem grantedAt_ready : (grantedAt 0x6100000#32).Ready ∧ (grantedAt 0x6100000#32).CoreRuns := by unfold State.Ready State.CoreRuns; decide +kernel

theorem witness_CoreMemory : (sramAt 0x617FFFC#32).Ready ∧ (sramAt 0x617FFFC#32).CoreRuns ∧
    ((sramAt 0x617FFFC#32).mgmt.value 1#5 + (immBits ⟨0, 1, 0, 0, 0⟩).signExtend 32).toNat = 0x617FFFC ∧ (sramAt 0x617FFFC#32).permits 0x617FFFC 2 = true ∧
    (sramAt 0x617FFFC#32).permits 0x617FFFC 1 = true ∧ 0x617FFFC % LoadSize .lw = 0 ∧
    ((sramAt 0x617FFFC#32).mgmt.value 1#5 + (immBits ⟨0, 1, 0, 0, 1⟩).signExtend 32).toNat % LoadSize .lh = 1 ∧
    regionOf 0x617FFFC = some .sram ∧ regionOf 0x6180000 = none ∧ regionOf 0x1E3FFFC = some .basin ∧ regionOf 0xFFFFFC = some .basin ∧
    regionOf 0x2C00000 = some .trim ∧ regionOf 0x4005204 = some .regs ∧ listedAt 0x4005204 = true ∧
    regionOf (aliasBase + 0x5204 * 32) = some .alias_ ∧ listedAt (aliasBase + 0x5204 * 32) = true ∧ regionOf 0x6000000 = some .rom ∧
    (grantedAt 0x6100000#32).Ready ∧ (grantedAt 0x6100000#32).CoreRuns ∧ (grantedAt 0x6100000#32).permits 0x6100000 2 = false ∧
    (grantedAt 0x6100000#32).permits 0x6100000 1 = false ∧ (grantedAt 0x6100000#32).mgmt.value 1#5 = 0x6100000#32 := by
  repeat' (with_reducible refine And.intro ?_ ?_)
  all_goals first
    | (with_reducible first | exact grantedAt_ready.1 | exact grantedAt_ready.2 | exact (sramAt_ready _ (.inr rfl)).1 | exact (sramAt_ready _ (.inr rfl)).2)
    | decide +kernel

theorem witness_LoadImmediates : State.reset.Ready ∧ State.reset.Issues 0 ∧ State.reset.CoreRuns ∧
    (sramAt 0x6100000#32).Ready ∧ (sramAt 0x6100000#32).CoreRuns ∧
    (0xFFFF8000#32 : W32).setWidth 16 = (0x10#5 ++ 0#3 ++ 0#8 : W16) ∧ (0xFFFF8000#32 : W32).extractLsb' 16 16 = (0x1F#5 ++ 7#3 ++ 0xFF#8 : W16) := by
  repeat' (with_reducible refine And.intro ?_ ?_)
  all_goals first
    | (with_reducible first | exact reset_ready | exact reset_issues | exact reset_core_runs | exact (sramAt_ready _ (.inl rfl)).1 | exact (sramAt_ready _ (.inl rfl)).2)
    | decide +kernel

/-! ## Sequencer, basin, drive, diagnostics, thermal -/

/-- Stopped with RUN set, an active edge at 20 s. -/
def syncing : State := { (idle.having [(Reg.SEQ_CTRL_RUN, 1)]).settle with seq := { Seq.reset with runAt := 20000000000, lastEdge := some 20000000000 } }
def locked : State := State.settle { idle with seq := { Seq.reset with state := .locked, first := false, lastValid := some 19990000000 } }
def holding : State := State.settle { idle with seq := { Seq.reset with state := .holdover, first := false, holdLcs := 255 } }
theorem sync_ready : syncing.Ready ∧ locked.Ready ∧ holding.Ready := by unfold State.Ready; decide +kernel

/-- The shortest and the longest valid interval and their neighbours; LOCKED; HOLDOVER at its end; STOPPED with RUN set. -/
theorem witness_FrameSync : syncing.Ready ∧ true ≠ syncing.on Reg.SEQ_CTRL_SYNC_EDGE ∧ syncing.seq.lastEdge = some 20000000000 ∧
    syncing.now ≤ 20000000000 + 999500000 / syncing.F ∧ 999500000 / syncing.F ≤ ceilDiv 1000500000 syncing.F ∧
    syncing.seq.state = .stopped ∧ syncing.on Reg.SEQ_CTRL_RUN = true ∧ syncing.seq.next = none ∧ syncing.seq.runAt ≤ 20000000000 ∧
    (20000000000 + ceilDiv 1000500000 syncing.F) * syncing.F ≤ syncing.seq.runAt * syncing.F + 2000000000 ∧
    syncing.aligning = false ∧ idle.seq.lastEdge = none ∧ locked.Ready ∧ locked.followsTwin = false ∧ locked.seq.first = false ∧
    locked.seq.state = .locked ∧ locked.seq.lastValid = some 19990000000 ∧ holding.Ready ∧
    holding.seq.state = .holdover ∧ holding.rd Reg.SEQ_SYNC_CFG_HOLDOVER_LC ≤ holding.seq.holdLcs ∧ holding.live 96 = false := by
  repeat' (with_reducible refine And.intro ?_ ?_)
  all_goals first
    | (with_reducible first | exact sync_ready.1 | exact sync_ready.2.1 | exact sync_ready.2.2)
    | decide +kernel

/-- A sluice is placed and RUN has been cleared. -/
def ending : State := { locked with seq := { locked.seq with next := some 20000000100 } }
/-- The first sluice since STOPPED is placed, with RUN set. -/
def opening : State := State.settle { idle.having [(Reg.SEQ_CTRL_RUN, 1)] with seq := { Seq.reset with state := .locked, next := some 20000000100 } }
def retiring : State := { State.reset with bas := { State.reset.bas with berths := State.reset.bas.berths.set 63 { Berth.reset with state := .retiring } } }
def work0 (complete : Nat) : SluiceWork :=
  { order := 1, first := false, stopping := false, errs := [], cal := none, complete := complete, closing := true, egress := false, fences := 0,
    shadow := false, committed := false, vled := 0 }
theorem ending_ready : ending.Ready ∧ opening.Ready := by unfold State.Ready; decide +kernel

theorem witness_Sluices : ending.Ready ∧ ending.peer.work = none ∧ ending.seq.next = some 20000000100 ∧ ending.seq.first = false ∧
    ending.on Reg.SEQ_CTRL_RUN = false ∧ ending.paired = false ∧ opening.Ready ∧ opening.peer.work = none ∧ opening.seq.next = some 20000000100 ∧
    opening.paired = false ∧ opening.seq.first = true ∧ opening.aligning = false ∧ (∀ x ∈ ending.seq.snap, x.commit = false) ∧
    Reg.SEQ_SYNC_CFG_SYNC_DELAY ∈ Reg.shadowed ∧ Reg.SEQ_SYNC_CFG_SYNC_DELAY.key ≠ Reg.SEQ_LOCK_LOAD_LOAD.key ∧
    (retiring.berthAt 63).state = .retiring ∧ (retiring.berthAt 0).state ≠ .retiring ∧ State.reset.eligible 15 = true ∧
    (work0 0x8000).complete.testBit 15 = true ∧ (work0 0x7FFF).complete.testBit 15 = false ∧ (work0 0x7FFF).closing = true ∧
    State.reset.bitOf Reg.FLT_FENCE_CHAMBER 15 = false := by
  repeat' (with_reducible refine And.intro ?_ ?_)
  all_goals first
    | (with_reducible first | exact ending_ready.1 | exact ending_ready.2)
    | decide +kernel

/-- A retry stall is in progress. -/
def stalled : State := { flying inFirst with seq := { (flying inFirst).seq with stallCycle := some 100 } }
theorem stalled_ready : stalled.Ready := by unfold State.Ready; decide +kernel

theorem witness_LocksRun : stalled.Ready ∧ stalled.seq.stallCycle ≠ none ∧ (flying atStart).seq.stallCycle = none ∧
    (105, some 0, inLast.cycle) ∉ (flying inLast).flt.instants ∧ ((flying atStart).reachAt 0).reset ≠ .dark ∧ (flying atStart).Ready ∧ (flying atStart).seq.run = some flight0 ∧ flight0.locks[(0 : Fin 512).val]? = some lock0 ∧
    (flying atStart).cycling = true ∧ (flying atStart).peer.work = none ∧ (∀ d : ChamberId, lock0.mask.testBit d.val = true → ((flying atStart).chAt d).running = false) ∧
    (flying atStart).chFenced 0 = false ∧ ((flying atStart).chAt 0).cycle = lock0.start ∧
    (flying inLast).Ready ∧ (flying inLast).lockOf ((flying inLast).chAt 0) = some lock0 ∧ ((flying inLast).chAt 0).running = true ∧
    ((flying inLast).chAt 0).cycle = ((flying inLast).chAt 0).lockStart + lock0.length - 1 ∧
    (flying inFirst).Ready ∧ flight0.barges[lock0.bargeFirst + 0]? = some barge0 ∧ Sparse.get ((flying inFirst).chAt 0).reps 0 0 < barge0.reps ∧
    ((flying inFirst).chAt 0).lockStart + barge0.issue + 0 * barge0.repCycles ≤ ((flying inFirst).chAt 0).cycle := by
  repeat' (with_reducible refine And.intro ?_ ?_)
  all_goals first
    | (with_reducible first | exact flying_ready.1 | exact flying_ready.2.2.1 | exact flying_ready.2.1 | exact stalled_ready)
    | decide +kernel

theorem witness_BargeBeatsAndService : (flying withBarge).Ready ∧ (flying withBarge).seq.stallCycle = none ∧
    (∀ b ∈ withBarge.barges, ((flying withBarge).chAt 0).barges.find? (fun q => q.slot = b.slot && q.next < q.entry.rows * q.entry.rowBeats) = some b ∧
      b.entry.unread 0 b.rep 0 0 = false ∧
      (flying withBarge).bankTaken 0 b (b.entry.rowFirst b.issued 0 0 + 0) ((flying withBarge).beatBank b 0 0 0) = false) ∧
    State.reset.Ready ∧ State.reset.rd Reg.BAS_SCRUB_STATUS_POSITION < 65535 ∧ 0 ∉ State.reset.bas.fenced := by
  repeat' (with_reducible refine And.intro ?_ ?_)
  all_goals first
    | (with_reducible first | exact flying_ready.2.2.2 | exact reset_ready)
    | decide +kernel

/-- The device runs and lights; the painter is enabled with one satellite, and berth 0, of one block, is LIVE for its home. -/
def painting : State := State.settle { { locked.having [(Reg.BAS_BERTH_PLACE_SIZE 0, 1), (Reg.BAS_BERTH_FMT_FORMAT 0, 6)] with
    bas := { Basin.reset with berths := Basin.reset.berths.set 0 { Berth.reset with state := .live } } } with
  act := ((State.reset.putAct Reg.PNT_CTRL_EN 1).putAct Reg.PNT_CFG_COUNT 1).act }
def zeroing : State := { idle with pnt := { idle.pnt with zeroDue := true }, act := (State.reset.putAct Reg.PNT_CFG_COUNT 1).act }
theorem painting_ready : painting.Ready ∧ zeroing.Ready := by unfold State.Ready; decide +kernel

theorem witness_DriveWordsAndPainter : 0 < 64449 ∧ painting.Ready ∧ painting.actv Reg.PNT_CTRL_EN ≠ 0 ∧ painting.lights = true ∧
    painting.painterJoined = false ∧ painting.painterIdle = true ∧ painting.liveFor (painting.actv Reg.PNT_CFG_HOME) = some 0 ∧
    painting.rd (Reg.BAS_BERTH_FMT_FORMAT 0) = 6 ∧ painting.modeOf ≠ .egress ∧ 0 < painting.actv Reg.PNT_CFG_COUNT ∧
    painting.streamBytes ≤ painting.berthSize 0 ∧ zeroing.Ready ∧ zeroing.pnt.zeroDue = true ∧ zeroing.lights = false ∧ zeroing.painterIdle = true := by
  repeat' (with_reducible refine And.intro ?_ ?_)
  all_goals first
    | (with_reducible first | exact painting_ready.1 | exact painting_ready.2)
    | decide +kernel

/-- Segment 4095 of reach 15 waits for the trim stage. -/
def formatting : State := { (State.reset.setReach 15 { Reach.init with waiting := [4095] }) with seq := { Seq.reset with sluices := 1 } }
theorem formatting_ready : formatting.Ready := by unfold State.Ready; decide +kernel

theorem witness_TrimAndLedger : formatting.Ready ∧ (formatting.reachAt 15).waiting = 4095 :: [] ∧ 4095 ∉ ([] : List Nat) ∧
    (∀ w ∈ formatting.wearReads (256 * 8191 + formatting.rd Reg.TRM_LEDGER_GROUP) 0, w ∉ formatting.trim.failed) ∧
    formatting.seq.sluices ≠ 0 ∧ 8191 ∉ formatting.trim.visited ∧ 4 * (256 * 8191 + formatting.rd Reg.TRM_LEDGER_GROUP) / 8 ∉ formatting.trim.ledgerFailed := by
  repeat' (with_reducible refine And.intro ?_ ?_)
  all_goals first
    | (with_reducible first | exact formatting_ready)
    | decide +kernel

/-- In row 63 of display scan 1, reach 0 lit, with row 0 sink 0 driven for 192 ticks; before the last row slot of the lock cycle. -/
def inSlot : State := State.settle { locked with
  seq := { locked.seq with sluices := 1 }, trim := { locked.trim with lit := [0] },
  reach := locked.reach.set 0 { Reach.init with bank0 := { Bank.blank with words := Sparse.set [] 0#16 (63 * 2048) (BitVec.ofNat 16 (1024 + 192)) } },
  diag := { locked.diag with slot := some { scan := 1, row := 63, suspended := false, tripped := [], pulsed := [], flagged := [], judged := [], rowEvents := [] } } }
def lastSlot : State := { inSlot with diag := { inSlot.diag with slots := (inSlot.S + 1) * 64 - 1 } }
theorem inSlot_ready : inSlot.Ready ∧ lastSlot.Ready := by unfold State.Ready; decide +kernel

theorem witness_RowSlotChecksAndThermal : lastSlot.Ready ∧ lastSlot.cycling = true ∧ lastSlot.diag.slots < (lastSlot.S + 1) * 64 ∧ lastSlot.diag.slots ≠ 128 ∧ lastSlot.vledDrive = true ∧ inSlot.Ready ∧
    (∀ x ∈ inSlot.diag.slot, x.scan ≠ 0 ∧ inSlot.checkSlot 0 = some x ∧ inSlot.listed (emitter 0 x.row 0) = false ∧
      192 ≤ inSlot.onTime 0 x.row 0 ∧ 0 ∉ x.tripped ∧ 0 ∉ x.rowEvents) ∧ inSlot.diag.slot ≠ none ∧ 2 ≤ inSlot.rd Reg.DIAG_CFG_ROW_EVENT_LIMIT ∧ 0 ∈ inSlot.trim.lit ∧
    inSlot.reachChecks 0 = true ∧ inSlot.thm.updated = false ∧ inSlot.cycling = true ∧ State.reset.cycling = false ∧
    State.reset.Ready ∧ State.reset.sampleFails 10 ⟨0x7FFF#16, false⟩ = false ∧ State.reset.sampleFails 10 ⟨0#16, true⟩ = true ∧
    State.reset.sensorLost 10 = false ∧ 10 ∉ State.reset.thm.bad := by
  repeat' (with_reducible refine And.intro ?_ ?_)
  all_goals first
    | (with_reducible first | exact inSlot_ready.2 | exact inSlot_ready.1 | exact reset_ready)
    | decide +kernel

/-! ## The links -/

/-- A link in a state, with FS032 or FS042 live where it is down. -/
def linkIn (l : LinkId) (state : Nat) (x : Link) : State :=
  State.settle { idle.having [(Reg.LNK_STATUS_STATE l.num, state), (Reg.LNK_STATUS_WIDTH l.num, l.full),
    (Reg.FLT_LIVE_LIVE 1, if state = 5 then 0 else 2 ^ (l.source 32 - 32))] with link := idle.link.set l.idx x }

def laneHeard : Link := { Link.reset with detected := 8, lanes := Link.reset.lanes.set 3 { LinkLane.reset with tp1 := 7, tp1Set := (0, 0x22, 0) } }
def slacked : Link := { Link.reset with lanes := Vector.replicate 4 { LinkLane.reset with slacks := 15 } }
def allSlacks : List SlackLane := [⟨0, 0, 0, 0⟩, ⟨1, 0, 16, 0⟩, ⟨2, 0, 0, 0⟩, ⟨3, 0, 0, 0⟩]
theorem bringUp_ready : (linkIn .host 1 Link.reset).Ready ∧ (linkIn .host 2 laneHeard).Ready ∧ (linkIn .host 3 slacked).Ready ∧
    (linkIn .peer 2 Link.reset).Ready := by unfold State.Ready; decide +kernel

/-- A receiver on the last lane, the eighth TP1 set, the sixteenth SLACK set at the highest skew, a timeout without a lane. -/
theorem witness_LinkBringUp : (linkIn .host 1 Link.reset).Ready ∧ (linkIn .host 1 Link.reset).live (LinkId.source .host 32) = true ∧
    (linkIn .host 1 Link.reset).on (Reg.FLT_REACT_BR (LinkId.source .host 33)) = false ∧ (linkIn .host 1 Link.reset).rd (Reg.LNK_STATUS_STATE 0) = 1 ∧
    ((linkIn .host 1 Link.reset).linkAt .host).refusedAt = none ∧ (8#4).toNat &&& LinkId.full .host ≠ 0 ∧
    (linkIn .host 2 laneHeard).Ready ∧ ((linkIn .host 2 laneHeard).linkAt .host).lanes[(3 : Fin 4)].tp1 = 7 ∧
    ((linkIn .host 2 laneHeard).linkAt .host).detected.testBit 3 = true ∧ (linkIn .host 2 laneHeard).rd (Reg.LNK_STATUS_STATE 0) = 2 ∧
    ((linkIn .host 2 laneHeard).linkAt .host).lanes[(3 : Fin 4)].done = false ∧
    ((linkIn .host 2 laneHeard).linkAt .host).lanes[(3 : Fin 4)].tp1Set = (0, presetRead 0x22, 0) ∧ presetRead 0xF8 = 0 ∧
    ((linkIn .host 2 laneHeard).linkAt .host).lanes[(3 : Fin 4)].tp1At = none ∧ (linkIn .host 3 slacked).rd (Reg.LNK_STATUS_WIDTH 0) ≠ 0 ∧
    (linkIn .host 3 slacked).Ready ∧ (linkIn .host 3 slacked).rd (Reg.LNK_STATUS_STATE 0) = 3 ∧ (allSlacks.map SlackLane.lane).Nodup ∧
    (∀ k ∈ allSlacks, k.violations = 0 ∧ k.skew ≤ 16) ∧ (∀ n ∈ linkLanes .host, n ∈ allSlacks.map SlackLane.lane) ∧
    (linkIn .peer 2 Link.reset).Ready ∧ (linkIn .peer 2 Link.reset).rd (Reg.LNK_STATUS_STATE 1) = 2 ∧ (linkIn .peer 2 Link.reset).lanesDone .peer = 0 ∧
    (linkIn .peer 2 Link.reset).live (LinkId.source .peer 32) = true ∧
    (linkIn .peer 2 Link.reset).on (Reg.FLT_REACT_BR (LinkId.source .peer 33)) = false := by
  repeat' (with_reducible refine And.intro ?_ ?_)
  all_goals first
    | (with_reducible first | exact bringUp_ready.1 | exact bringUp_ready.2.1 | exact bringUp_ready.2.2.1 | exact bringUp_ready.2.2.2)
    | decide +kernel

def hostCaps (flags limit : Nat) : List Byte :=
  List.replicate 6 0#8 ++ leBytes flags 1 ++ List.replicate 7 0#8 ++ leBytes limit 1 ++ List.replicate 17 0#8
def cleanLane : Link := { Link.reset with lanes := Link.reset.lanes.set 3 { LinkLane.reset with cleanSince := some 0 } }
def upHost (x : Link) : State := linkIn .host 5 x
def degraded : State := State.settle { idle.having [(Reg.LNK_STATUS_STATE 0, 6), (Reg.LNK_STATUS_WIDTH 0, 3), (Reg.LNK_LANE_FENCED 2, 1), (Reg.LNK_LANE_FENCED 3, 1)] with
  link := idle.link.set 0 cleanLane }
theorem exchange_ready : (linkIn .host 4 { Link.reset with ackSent := true }).Ready ∧ (upHost Link.reset).Ready ∧ degraded.Ready := by
  unfold State.Ready; decide +kernel

theorem witness_LinkExchange : (linkIn .host 4 { Link.reset with ackSent := true }).Ready ∧
    (linkIn .host 4 { Link.reset with ackSent := true }).rd (Reg.LNK_STATUS_STATE 0) = 4 ∧ (hostCaps 1 1).length = 32 ∧ crc32 (hostCaps 1 1) = (BitVec.ofNat 32 (crc32 (hostCaps 1 1))).toNat ∧ crc32 (hostCaps 1 1) ≠ (0#32).toNat ∧ (hostCaps 1 63).length = 32 ∧
    capsRefused .host (hostCaps 1 1) = false ∧ capsRefused .host (hostCaps 1 63) = false ∧ capsRefused .host (hostCaps 1 64) = true ∧
    capsRefused .host (hostCaps 1 0) = true ∧ (leAt (hostCaps 1 1) 6 1).testBit 0 = true ∧
    ((linkIn .host 4 { Link.reset with ackSent := true }).linkAt .host).ackSent = true ∧
    ((linkIn .host 4 { Link.reset with ackSent := true }).linkAt .host).recovering = false ∧
    (linkIn .host 4 { Link.reset with ackSent := true }).live 32 = true ∧ (linkIn .host 4 { Link.reset with ackSent := true }).on (Reg.FLT_REACT_BR 46) = false ∧
    (linkIn .host 4 { Link.reset with ackSent := true }).on (Reg.FLT_REACT_BR 33) = false ∧
    (linkIn .host 4 { Link.reset with ackSent := true }).exchanging .host = true ∧
    ((linkIn .host 4 { Link.reset with ackSent := true }).linkAt .host).caps = none ∧
    (upHost Link.reset).Ready ∧ (upHost Link.reset).linkUp .host = true ∧ (upHost Link.reset).on (laneFenced .host 3) = false ∧
    chooseWidth .host ((upHost Link.reset).lanesInUse .host - 2 ^ 3) ≠ 0 ∧
    degraded.Ready ∧ degraded.linkUp .host = true ∧ degraded.offersReturn .host = true ∧ (degraded.cleanLanes .host).testBit 3 = true ∧
    (degraded.heldLanes .host).testBit 3 = true ∧ (degraded.heldLanes .host).testBit 0 = false ∧ (7#8 : Byte) ≠ ~~~(7#8) ∧
    chooseWidth .host ((15#4).toNat &&& (degraded.lanesInUse .host ||| degraded.cleanLanes .host)) ≠ 0 := by
  repeat' (with_reducible refine And.intro ?_ ?_)
  all_goals first
    | (with_reducible first | exact exchange_ready.1 | exact exchange_ready.2.1 | exact exchange_ready.2.2)
    | decide +kernel

theorem recover_ready : (linkIn .peer 7 Link.reset).Ready := by unfold State.Ready; decide +kernel

theorem witness_LinkDisturbances : idle.Ready ∧ idle.linkUp .host = false ∧ LinkId.full .host = 15 ∧ (upHost Link.reset).Ready ∧
    (upHost Link.reset).linkUp .host = true ∧ (upHost Link.reset).on (Reg.FLT_REACT_BR 32) = false ∧ ((upHost Link.reset).linkAt .host).failing = false ∧
    (linkIn .peer 7 Link.reset).Ready ∧ (linkIn .peer 7 Link.reset).rd (Reg.LNK_STATUS_STATE 1) = 7 ∧
    (linkIn .peer 7 Link.reset).live (LinkId.source .peer 32) = true ∧ intact (packet 15 4 0 [1#8]) 15 4 0 = true := by
  repeat' (with_reducible refine And.intro ?_ ?_)
  all_goals first
    | (with_reducible first | exact idle_ready | exact exchange_ready.2.1 | exact recover_ready)
    | decide +kernel

/-- The longest history a duplicate is told by; a captured edge. -/
def landedLong : Link := { Link.reset with rxNext := 2048, landed := 4096 }
def timed : State := { upHost Link.reset with clk := { Clock.reset with edges := [(7, 1000)] } }
theorem host_ready : (upHost landedLong).Ready ∧ timed.Ready := by unfold State.Ready; decide +kernel
def timePayload : List Byte := leBytes 7 4 ++ leBytes 0 4 ++ leBytes 1000 8

theorem witness_HostPackets : (upHost Link.reset).Ready ∧ (upHost Link.reset).linkUp .host = true ∧ (upHost Link.reset).sec.host = none ∧
    intact (testPacket 1) 1 1 0x1E00000 = true ∧
    intact (packet 1 1 0x1E04000 [0#8]) 1 1 0x1E04000 = true ∧ intact (packet 2 1024 0x1E00000 []) 2 1024 0x1E00000 = true ∧
    intact (packet 5 32 0 (List.replicate 32 0#8)) 5 32 0 = true ∧ intact (packet 6 16 0 timePayload) 6 16 0 = true ∧ (testPacket 1).enc = false ∧ (testPacket 1).seq.toNat = ((upHost Link.reset).linkAt .host).rxNext ∧
    mayTransmit ((upHost Link.reset).linkAt .host).limitSent 0 = true ∧ (upHost Link.reset).hostReaches true 0x1E00000 1024 = true ∧
    (upHost Link.reset).hostReaches true 0x1E03FFF 1 = true ∧ (upHost Link.reset).hostReaches true 0x1E04000 1 = false ∧
    (upHost Link.reset).hostReaches false 0x1E03FFF 1 = true ∧ (upHost Link.reset).hostReaches false 0x1E04000 1 = false ∧
    timed.Ready ∧ timed.linkUp .host = true ∧ timePayload.length = 16 ∧ timed.clk.edges.find? (fun e => e.1 = leAt timePayload 0 4) = some (leAt timePayload 0 4, 1000) ∧
    edgeLater (leAt timePayload 0 4) timed.clk.applied = true ∧ 1000 ≤ leAt timePayload 8 8 ∧
    (upHost landedLong).Ready ∧ 1 ≤ (((upHost landedLong).linkAt .host).rxNext + 4096 - 0) % 4096 ∧
    (((upHost landedLong).linkAt .host).rxNext + 4096 - 0) % 4096 ≤ min 2048 ((upHost landedLong).linkAt .host).landed := by
  repeat' (with_reducible refine And.intro ?_ ?_)
  all_goals first
    | (with_reducible first | exact exchange_ready.2.1 | exact host_ready.2 | exact host_ready.1)
    | decide +kernel

def sentPacket (seq sends : Nat) : OutPacket := { OutPacket.plain 3 0 0 0 [] with seq := seq, sends := sends }
def replaying (sends : Nat) : Link := { Link.reset with tx := [sentPacket 1 sends, sentPacket 2 sends], unacked := 1 }
/-- A scan runs on the peer link's last lane, for 1 s so far. -/
def scanning : State := State.settle { linkIn .peer 5 { Link.reset with eyes := Link.reset.eyes.set 1 (19000000000, 40) } with
  regs := ((linkIn .peer 5 Link.reset).having [(Reg.EYE_STATUS_RUNNING 5, 1)]).regs }
theorem replay_ready : (upHost (replaying 1)).Ready ∧ (upHost (replaying 2)).Ready ∧ scanning.Ready := by unfold State.Ready; decide +kernel

theorem witness_ReplayAndEyeScans : (upHost (replaying 1)).Ready ∧ (upHost (replaying 1)).linkUp .host = true ∧ 0 < ((upHost (replaying 1)).linkAt .host).unacked ∧
    ((upHost (replaying 1)).linkAt .host).tx = [sentPacket 1 1, sentPacket 2 1] ∧
    ((upHost (replaying 1)).linkAt .host).tx.filter (fun q => !acknowledged 1 q) = [sentPacket 2 1] ∧
    (upHost (replaying 2)).Ready ∧ ((upHost (replaying 2)).linkAt .host).tx = [sentPacket 1 2, sentPacket 2 2] ∧
    (upHost (replaying 2)).on (Reg.FLT_REACT_BR 35) = false ∧ (upHost (replaying 2)).on (Reg.FLT_REACT_BR 32) = false ∧
    idle.Ready ∧ idle.reaches .host true (regBase + (0x8800 + 16 * 5)) 4 = true ∧ idle.on (Reg.EYE_STATUS_RUNNING 5) = false ∧
    scanning.Ready ∧ scanning.reaches .host true (regBase + (0x8800 + 16 * 5)) 4 = true ∧ scanning.on (Reg.EYE_STATUS_RUNNING 5) = true ∧
    eyeLane 5 = (.peer, 1) ∧ scanning.linkUp .peer = true ∧ scanning.eyeBits 5 = 2500000000 ∧
    (idle.having [(Reg.EYE_STATUS_RUNNING 5, 1)]).linkUp .peer = false ∧
    controlOk 1 5 37 (crc16 (leBytes 1 1 ++ leBytes (37 * 4096 + 5) 3)) = true ∧ controlOk 2 5 37 0 = false := by
  repeat' (with_reducible refine And.intro ?_ ?_)
  all_goals first
    | (with_reducible first | exact replay_ready.1 | exact replay_ready.2.1 | exact idle_ready | exact replay_ready.2.2)
    | decide +kernel

/-! ## The pair -/

def keys0 : SessKeys := { inKey := [], outKey := [], inSalt := [], outSalt := [] }

/-- Paired, with a peer session over a running link; `more` sets what a clause needs. -/
def twin (regs : List (Fld × Nat)) (q : Peer) : State :=
  State.settle { idle.having ([(Reg.PEER_CFG_PAIRED, 1), (Reg.LNK_STATUS_STATE 1, 5), (Reg.LNK_STATUS_WIDTH 1, 3)] ++ regs) with
    sec := { Trust.reset with peer := some keys0 }, peer := q }
/-- The same in Shadow, with the sequencer running. -/
def shadow (q : Peer) : State := State.settle { twin [(Reg.PEER_STATUS_ROLE, 1)] q with seq := { Seq.reset with state := .locked } }
def peerPacket (type : Nat) (bs : List Byte) : RxPacket := packet type bs.length 0 bs
def padded (n : Nat) (bs : List Byte) : List Byte := (bs ++ List.replicate n 0#8).take n

def copying : State := twin [(Reg.PEER_STATUS_RESYNC, 2)] Peer.reset
def copyingInto : State := twin [(Reg.PEER_STATUS_RESYNC, 2), (Reg.BAS_BERTH_PLACE_BASE 1, 0), (Reg.BAS_BERTH_PLACE_SIZE 1, 32768)] Peer.reset
def endRecord : List Byte := padded 32 (leBytes 4 4 ++ leBytes 1 4)
/-- Berth 63 at the end of the pool, LIVE. -/
def berthRecord : List Byte := padded 32 ([2#8, 0#8, 0#8, 0#8, 63#8, 0#8] ++ leBytes 32767 2 ++ leBytes 1 2 ++ [6#8, 0#8, 3#8, 0#8])
/-- Berth 1, at the start of the pool, has been named, and nothing has come yet; its END. -/
def named : State :=
  State.settle { twin [(Reg.PEER_STATUS_RESYNC, 2), (Reg.BAS_BERTH_PLACE_SIZE 1, 1)] { Peer.reset with
      copySlots := padded 32 (leBytes 1 4), copyBerths := [1], copyWharf := some (7, 8) } with
    bas := { Basin.reset with berths := Basin.reset.berths.set 1 { Berth.reset with state := .ready } } }
def goodEnd : List Byte := padded 32 (leBytes 4 4)
theorem copy_ready : copying.Ready ∧ copyingInto.Ready ∧ (twin [] Peer.reset).Ready ∧ named.Ready := by unfold State.Ready; decide +kernel

theorem witness_ResyncCopy : copying.Ready ∧ copying.rd Reg.PEER_STATUS_RESYNC = 2 ∧
    copying.TwinLands (peerPacket 1 (List.replicate 16 0#8)) 1 0 ∧ (peerPacket 1 (List.replicate 16 0#8)).payload.length % 16 = 0 ∧
    copying.copiesBerth 0 16 = false ∧ named.Ready ∧ named.rd Reg.PEER_STATUS_RESYNC = 2 ∧ named.TwinLands (peerPacket 1 (List.replicate 16 0#8)) 1 0 ∧
    named.copiesBerth 0 16 = true ∧ named.peer.copySlots ≠ [] ∧ named.TwinLands (peerPacket 2 endRecord) 2 0 ∧ leAt endRecord 4 4 ≠ named.peer.copyBytes % 2 ^ 32 ∧
    named.TwinLands (peerPacket 2 goodEnd) 2 0 ∧ leAt goodEnd 4 4 = named.peer.copyBytes % 2 ^ 32 ∧ leAt goodEnd 8 4 = named.peer.copyCrc ^^^ 0xFFFFFFFF ∧
    named.opened .peer (peerPacket 2 goodEnd) = goodEnd ∧ named.peer.copyWharf = some (7, 8) ∧ named.peerSession = true ∧ (0 : Nat) < 1 ∧
    (named.berthAt 1).state.copied = true ∧
    copying.TwinLands (peerPacket 2 berthRecord) 2 0 ∧ copying.opened .peer (peerPacket 2 berthRecord) = berthRecord ∧ berthRecord.length = 32 ∧
    leAt berthRecord 0 1 = 2 ∧ leAt berthRecord 4 1 = 63 ∧
    (∀ o : Fin 64, o ≠ 63 → overlaps (leAt berthRecord 6 2) (leAt berthRecord 8 2) (copying.rd (Reg.BAS_BERTH_PLACE_BASE o)) (copying.rd (Reg.BAS_BERTH_PLACE_SIZE o)) = false) ∧
    copyingInto.Ready ∧ copyingInto.TwinLands (peerPacket 2 berthRecord) 2 0 ∧
    overlaps (leAt berthRecord 6 2) (leAt berthRecord 8 2) (copyingInto.rd (Reg.BAS_BERTH_PLACE_BASE 1)) (copyingInto.rd (Reg.BAS_BERTH_PLACE_SIZE 1)) = true ∧
    copying.TwinLands (peerPacket 2 endRecord) 2 0 ∧ leAt endRecord 0 1 = 4 ∧ leAt endRecord 4 4 ≠ copying.peer.copyBytes % 2 ^ 32 ∧
    (twin [] Peer.reset).Ready ∧ (twin [] Peer.reset).TwinLands (peerPacket 2 endRecord) 2 0 ∧ (twin [] Peer.reset).rd Reg.PEER_STATUS_RESYNC ≠ 2 := by
  repeat' (with_reducible refine And.intro ?_ ?_)
  all_goals first
    | (with_reducible first | exact copy_ready.1 | exact copy_ready.2.1 | exact copy_ready.2.2.1 | exact copy_ready.2.2.2)
    | decide +kernel
    | (unfold State.TwinLands; decide +kernel)

def waitingWork (order : Nat) : SluiceWork := { work0 0 with order := order, shadow := true }
/-- A record of the active's: role 2, and one with RESEND. -/
def activeRecord : List Byte := padded 32 (leBytes 1 4 ++ [2#8])
def record0 : TwinRecord := TwinRecord.ofBytes activeRecord
theorem record_ready : (shadow Peer.reset).Ready ∧ (shadow { Peer.reset with work := some (waitingWork 3) }).Ready ∧
    (twin [(Reg.PEER_STATUS_ROLE, 2)] Peer.reset).Ready ∧ (twin [(Reg.SYS_MODE_SD_CAUSE, 4)] { Peer.reset with darkSince := some 19900000000 }).Ready := by
  unfold State.Ready; decide +kernel

theorem witness_SluiceRecordsAndRoles :
    (twin [(Reg.PEER_STATUS_ROLE, 2)] Peer.reset).Ready ∧ (twin [(Reg.PEER_STATUS_ROLE, 2)] Peer.reset).TwinLands (peerPacket 7 activeRecord) 7 0 ∧
    (twin [(Reg.PEER_STATUS_ROLE, 2)] Peer.reset).peer.work = none ∧ (twin [(Reg.PEER_STATUS_ROLE, 2)] Peer.reset).inShadow = false ∧
    (shadow Peer.reset).Ready ∧ (shadow Peer.reset).TwinLands (peerPacket 7 activeRecord) 7 0 ∧ (shadow Peer.reset).peer.work = none ∧
    (twin [(Reg.PEER_STATUS_ROLE, 2)] Peer.reset).peer.copyOut = [] ∧ (TwinRecord.ofBytes (padded 32 (leBytes 1 4 ++ [1#8]))).role = 1 ∧
    (TwinRecord.ofBytes (padded 32 (leBytes 1 4 ++ [1#8]))).twinLock = false ∧ (waitingWork 3).stopping = false ∧
    (shadow Peer.reset).inShadow = true ∧ record0.role = 2 ∧ (shadow Peer.reset).seq.state ≠ .stopped ∧
    (shadow { Peer.reset with work := some (waitingWork 3) }).Ready ∧
    (shadow { Peer.reset with work := some (waitingWork 3) }).TwinLands (peerPacket 7 activeRecord) 7 0 ∧
    (shadow { Peer.reset with work := some (waitingWork 3) }).peer.work = some (waitingWork 3) ∧ (waitingWork 3).order = 3 ∧
    (waitingWork 3).shadow = true ∧ (shadow { Peer.reset with work := some (waitingWork 3) }).peer.record = none ∧
    (twin [(Reg.SYS_MODE_SD_CAUSE, 4)] { Peer.reset with darkSince := some 19900000000 }).Ready ∧
    (twin [(Reg.SYS_MODE_SD_CAUSE, 4)] { Peer.reset with darkSince := some 19900000000 }).paired = true ∧
    (twin [(Reg.SYS_MODE_SD_CAUSE, 4)] { Peer.reset with darkSince := some 19900000000 }).peer.darkSince = some 19900000000 ∧
    19900000000 + 100000000 ≤ (twin [(Reg.SYS_MODE_SD_CAUSE, 4)] { Peer.reset with darkSince := some 19900000000 }).now := by
  repeat' (with_reducible refine And.intro ?_ ?_)
  all_goals first
    | (with_reducible first | exact record_ready.2.2.1 | exact record_ready.1 | exact record_ready.2.1 | exact record_ready.2.2.2)
    | decide +kernel
    | (unfold State.TwinLands; decide +kernel)

/-- Map entries that wrap past word 65,535; a frame CRC record for reach 15; an ECHO answer. -/
def literal2 : List Byte := [0xFF#8, 0xFF#8, 1#8, 1#8] ++ List.replicate 8 0xFF#8
def fill256 : List Byte := [0xFF#8, 0xFF#8, 0#8, 0xFF#8] ++ List.replicate 4 0#8
def fcrc72 : List Byte := padded 72 (leBytes 0 4 ++ leBytes 0x8000 2)
def echoAnswer : List Byte := [1#8, 0#8, 0#8, 0#8] ++ leBytes 100 4
def compared : State := twin [] { Peer.reset with complete := 0x8000, crcs := List.replicate 16 0, echoAt := some 0 }
def sealing : State := shadow { Peer.reset with work := some (waitingWork 8), record := some record0 }
theorem compared_ready : compared.Ready ∧ sealing.Ready := by unfold State.Ready; decide +kernel

theorem witness_PairMapsFramesEchoes : compared.Ready ∧ compared.TwinLands (peerPacket 8 literal2) 8 0 ∧ (peerPacket 8 literal2).payload.length = 4 + 4 * 2 ∧
    leAt literal2 2 1 = 1 ∧ leAt literal2 3 1 = 2 - 1 ∧ compared.opened .peer (peerPacket 8 literal2) = literal2 ∧
    compared.TwinLands (peerPacket 8 fill256) 8 0 ∧ fill256.length = 8 ∧ leAt fill256 2 1 = 0 ∧ leAt fill256 3 1 = 255 ∧
    compared.TwinLands (peerPacket 9 (List.replicate 16 0#8)) 9 0 ∧ compared.peer.sealOk = none ∧ compared.peer.work = none ∧
    sealing.Ready ∧ sealing.TwinLands (peerPacket 9 (List.replicate 16 0#8)) 9 0 ∧ sealing.peer.work = some (waitingWork 8) ∧ sealing.peer.record ≠ none ∧
    compared.paired = true ∧ compared.peerSession = true ∧ idle.peerSession = false ∧
    compared.TwinLands (peerPacket 10 fcrc72) 10 0 ∧ fcrc72.length = 72 ∧ compared.peer.fcrc = false ∧
    compared.peer.complete &&& leAt fcrc72 4 2 = 0x8000 ∧ leAt fcrc72 0 4 = compared.peer.ownLock ∧ (compared.peer.crcs[15]?).getD 0 = leAt fcrc72 (8 + 4 * 15) 4 ∧
    compared.linkUp .peer = true ∧ echoOk echoAnswer = true ∧
    compared.authentic .peer (peerPacket 11 echoAnswer) (packetHeader 11 0 false 0 false 8 0) = true ∧ leAt echoAnswer 1 1 = compared.peer.echoId ∧
    compared.peer.echoAt = some compared.seq.sluices ∧ compared.peer.latencies = [] := by
  repeat' (with_reducible refine And.intro ?_ ?_)
  all_goals first
    | (with_reducible first | exact compared_ready.1 | exact compared_ready.2)
    | decide +kernel
    | (unfold State.TwinLands; decide +kernel)

/-! ## Safety -/

/-- Pair 3, latching, of mode 1 with scene 255, in a state, with a pattern recognised. -/
def pairIn (st : Nat) (p : Pattern) : State :=
  State.settle { idle.having [(Reg.SAF_IN_CFG_MODE 3, 1), (Reg.SAF_IN_CFG_SCENE 3, 255), (Reg.SAF_IN_CFG_LATCH 3, 1), (inState 3, st)] with
    saf := { Safety.reset with pattern := Safety.reset.pattern.set 3 (some p) } }
/-- The pair has been sampled low twice, and high twice; in OSSD mode channel A has been low eleven times in a row. -/
def sampled (level : Bool) : State := State.settle { pairIn 1 .normal with
  saf := { (pairIn 1 .normal).saf with samples := (pairIn 1 .normal).saf.samples.set 3 [(1, level, level), (0, level, level)] } }
def ossd : State := State.settle { (pairIn 1 .normal).having [(Reg.SAF_IN_CFG_MODE 3, 3)] with
  saf := { (pairIn 1 .normal).saf with lows := (pairIn 1 .normal).saf.lows.set 3 (11, 0) } }
def discrepantSince : State := State.settle { pairIn 1 .discrepant with
  saf := { (pairIn 1 .discrepant).saf with discrepant := (pairIn 1 .discrepant).saf.discrepant.set 3 (some 5) } }
theorem sampled_ready : (sampled false).Ready ∧ (sampled true).Ready ∧ ossd.Ready ∧ discrepantSince.Ready := by unfold State.Ready; decide +kernel
theorem pair_ready : (pairIn 1 .normal).Ready ∧ (pairIn 3 .normal).Ready ∧ (pairIn 2 .discrepant).Ready := by unfold State.Ready; decide +kernel

theorem witness_InputPairs : (pairIn 1 .normal).Ready ∧ (pairIn 1 .normal).mode.phase = .running ∧ (pairIn 1 .normal).rd (inState 3) ≤ 5 ∧
    (pairIn 1 .normal).rd (Reg.SAF_IN_CFG_MODE 3) ≠ 0 ∧ patternOf ((pairIn 1 .normal).rd (Reg.SAF_IN_CFG_MODE 3)) false false = .demand ∧
    patternOf ((pairIn 1 .normal).rd (Reg.SAF_IN_CFG_MODE 3)) true true = .normal ∧
    patternOf ((pairIn 1 .normal).rd (Reg.SAF_IN_CFG_MODE 3)) true false = .discrepant ∧ (pairIn 1 .normal).tgTimeout = false ∧
    (pairIn 1 .normal).tgEgress = false ∧ (∀ m : Fin 4, (pairIn 1 .normal).demands m = true → (pairIn 1 .normal).rd (Reg.SAF_IN_CFG_SCENE m) ≠ 0) ∧
    (∀ m : Fin 4, m < 3 → (pairIn 1 .normal).demands m = false) ∧ (pairIn 1 .normal).rd (Reg.SAF_IN_CFG_SCENE 3) = 255 ∧
    (sampled false).Ready ∧ (sampled false).saf.samples[(3 : Fin 4)] = [(1, false, false), (0, false, false)] ∧ (sampled true).Ready ∧
    ossd.Ready ∧ ossd.rd (Reg.SAF_IN_CFG_MODE 3) = 3 ∧ ossd.saf.lows[(3 : Fin 4)] = (11, 0) ∧
    discrepantSince.Ready ∧ discrepantSince.saf.discrepant[(3 : Fin 4)] = some 5 ∧
    (pairIn 3 .normal).Ready ∧ (pairIn 3 .normal).saf.pattern[(3 : Fin 4)] = some .normal ∧ (pairIn 3 .normal).rd (inState 3) = 3 ∧
    (pairIn 2 .discrepant).Ready ∧ (pairIn 2 .discrepant).saf.pattern[(3 : Fin 4)] = some .discrepant ∧
    State.reset.Ready ∧ State.reset.MayWrite .mgmt 0xA03C := by
  repeat' (with_reducible refine And.intro ?_ ?_)
  all_goals first
    | (with_reducible first | exact pair_ready.1 | exact pair_ready.2.1 | exact pair_ready.2.2 | exact reset_ready | exact sampled_ready.1 | exact sampled_ready.2.1 | exact sampled_ready.2.2.1 | exact sampled_ready.2.2.2)
    | decide +kernel
    | (unfold State.MayWrite; decide +kernel)

/-- Telegrams enabled, a copy held for channel A; a POLL to answer. -/
def telegrams : State := State.settle { idle.having [(Reg.SAF_TG_CFG_EN, 1)] with saf := { Safety.reset with copyA := some (20000000000, List.replicate 32 0#8) } }
def polled : State := State.settle { idle.having [(Reg.SAF_TOWP_CFG_REPLY, 1)] with saf := { Safety.reset with reply := some (20000000000, []) } }
theorem towpath_ready : telegrams.Ready ∧ polled.Ready := by unfold State.Ready; decide +kernel

theorem witness_Towpath : telegrams.Ready ∧ telegrams.mode.phase = .running ∧ telegrams.on Reg.SAF_TG_CFG_EN = true ∧ telegrams.tgTimeout = false ∧
    telegrams.tgHeld false = some (20000000000, List.replicate 32 0#8) ∧ telegrams.tgHeld true = none ∧
    telegrams.saf.copyA = some (20000000000, List.replicate 32 0#8) ∧ telegrams.saf.copyB = none ∧
    telegrams.tgCheck (List.replicate 32 0#8) ≠ none ∧ (List.replicate 32 0#8).length = 32 ∧ (List.replicate 31 0#8).length ≠ 32 ∧
    idle.Ready ∧ idle.on Reg.SAF_TG_CFG_EN = false ∧ polled.Ready ∧ polled.on Reg.SAF_TOWP_CFG_REPLY = true ∧ polled.saf.reply ≠ none ∧
    (BitVec.ofNat 16 (polled.rd (Reg.LNK_CFG_DEVNUM 0))).toNat = polled.rd (Reg.LNK_CFG_DEVNUM 0) := by
  repeat' (with_reducible refine And.intro ?_ ?_)
  all_goals first
    | (with_reducible first | exact towpath_ready.1 | exact idle_ready | exact towpath_ready.2)
    | decide +kernel

/-- Pulse tests on, slot E valid and the egress glyphs verified, SOUT0 driven; channel 0 under test; Egress requested and Boot's end 2 ms ago. -/
def driving : State := State.settle { idle.having [(Reg.SAF_OUT_PULSE_EN, 1), (Reg.SAF_EGRESS_SCENE, 255), (Reg.SAF_OUT_SOUT0, 1), (Reg.SAF_OUT_READBACK, 3)] with
  seq := { Seq.reset with slots := Seq.reset.slots.set 2 (some flight0) }, saf := { Safety.reset with verified := true } }
def lastChannel : State := { driving with saf := { driving.saf with nextTest := 3 } }
def underTest : State := { driving with saf := { driving.saf with testing := some 0 } }
def requested : State := State.settle { idle.having [(Reg.SAF_EGRESS_REQUESTED, 1)] with mode := { idle.mode with bootEnd := 19998000000 } }
/-- The test of channel 1 resumes: its output has been driven again for 1 s. -/
def resuming : State := { driving with saf := { driving.saf with
  paused := driving.saf.paused.set 0 (some 1), resumeAt := driving.saf.resumeAt.set 0 (some driving.now) } }
theorem resuming_ready : resuming.Ready := by unfold State.Ready; decide +kernel
theorem driving_ready : driving.Ready ∧ lastChannel.Ready ∧ underTest.Ready ∧ requested.Ready := by unfold State.Ready; decide +kernel

theorem witness_OutputTestsAndEgress : driving.Ready ∧ driving.on Reg.SAF_OUT_PULSE_EN = true ∧ driving.saf.testing = none ∧ driving.mode.phase = .running ∧
    (∀ o : Fin 2, driving.saf.paused[o] = none ∧ driving.saf.resumeAt[o] = none) ∧ driving.saf.nextTest = 0 ∧ driving.on (soutFld 0) = true ∧
    resuming.Ready ∧ resuming.saf.resumeAt[(0 : Fin 2)] = some resuming.now ∧ resuming.saf.paused[(0 : Fin 2)] = some 1 ∧
    resuming.saf.testing = none ∧ resuming.on Reg.SAF_OUT_PULSE_EN = true ∧ resuming.on (soutFld 0) = true ∧
    lastChannel.Ready ∧ lastChannel.saf.nextTest = 3 ∧ lastChannel.on (soutFld 1) = false ∧ underTest.Ready ∧ underTest.saf.testing = some 0 ∧
    underTest.on (soutFld 0) = true ∧ (∀ c, c < 4 → underTest.saf.testing = some c ∨ (3#4).getLsbD c = underTest.on (soutFld (c / 2)) ∨
      (0#4).getLsbD c = underTest.on (soutFld (c / 2))) ∧ driving.on (failFld 0) = false ∧ (0#4).getLsbD 0 ≠ driving.on (soutFld 0) ∧
    requested.Ready ∧ requested.mode.egress = false ∧ requested.on Reg.SAF_EGRESS_REQUESTED = true ∧ requested.mode.phase = .running ∧
    requested.mode.bootEnd + 2000000 ≤ requested.now ∧ requested.mode.safeDark = false ∧ requested.modeOf ≠ .shadow ∧ requested.seq.state = .stopped ∧
    requested.on Reg.SEQ_CTRL_RUN = false ∧ idle.mayEnterEgress = false := by
  repeat' (with_reducible refine And.intro ?_ ?_)
  all_goals first
    | (with_reducible first | exact driving_ready.1 | exact driving_ready.2.1 | exact driving_ready.2.2.1 | exact driving_ready.2.2.2 | exact resuming_ready)
    | decide +kernel

/-! ## Faults, resets, start-up -/

def reacting : State := State.reset.having [(Reg.FLT_REACT_LEVEL 110, 2), (Reg.FLT_REACT_BR 160, 1), (Reg.FLT_REACT_CR 191, 1)]

theorem witness_RaisesReact : Src.light 191 = false ∧ reacting.on (Reg.FLT_REACT_CR 191) = true ∧ reacting.on (Reg.FLT_REACT_BR 160) = true ∧
    blockOf 160 = some .nand ∧ blockOf 191 = none ∧ Src.light 110 = true ∧ Src.chamberLocus 110 = true ∧ reacting.rd (Reg.FLT_REACT_LEVEL 110) = 2 ∧
    State.lastingRaise { reacting with flt := { reacting.flt with before := [(110, some 15)] } } 110 (some 15) = true ∧
    reacting.lastingRaise 110 (some 15) = false ∧ reacting.lastingRaise 114 none = true := by
  repeat' (with_reducible refine And.intro ?_ ?_)
  all_goals first
    | decide +kernel

/-- Firmware level with the protection region 1 over register space, past the end of Boot. -/
def fw (regs : List (Fld × Nat)) : State :=
  State.settle { idle.having ((Reg.SEC_STATUS_BOOT_PHASE, 0) :: regs) with mgmt := { Mgmt.reset with
    protBase := Mgmt.reset.protBase.set 1 0x04000001#32, protLimit := Mgmt.reset.protLimit.set 1 0x043FF006#32 } }
def testMode : State := fw [(Reg.SYS_MODE_TEST, 1), (Reg.FLT_STICKY_STICKY 5, 0xFFFFFFFF)]
def escalating : State := { State.reset.having [(Reg.FLT_ESCALATE_EN, 1)] with flt := { Faults.reset with escalateAt := some 0 } }
def blocksDown : State := State.settle { fw [(Reg.LNK_CTRL_EN 0, 1), (Reg.FLT_LIVE_LIVE 1, 0x401)] with flt := { Faults.reset with
  inReset := [.security, .hostLink, .peerLink, .safety, .nand, .pairing, .crc] } }
theorem fw_ready : (fw []).Ready ∧ testMode.Ready ∧ escalating.Ready ∧ blocksDown.Ready := by unfold State.Ready; decide +kernel

theorem witness_FaultCommandsAndBlockResets : testMode.Ready ∧ testMode.MayWrite .mgmt (0xD160 + 4 * 5) ∧ testMode.MayWrite .mgmt (0xD140 + 4 * 5) ∧
    testMode.modeOf = .test ∧ testMode.sticky 191 = true ∧ testMode.live 191 = false ∧ testMode.forced 191 = false ∧
    (fw []).Ready ∧ (fw []).MayWrite .mgmt 0xD140 ∧ (fw []).bootLevel = false ∧ (fw []).modeOf ≠ .test ∧ (fw []).modeOf ≠ .maintenance ∧
    (Src.info 16).kind = .event ∧ Src.light 16 = false ∧ (Src.info 9).kind ≠ .event ∧ escalating.Ready ∧ escalating.flt.escalateAt ≠ none ∧
    escalating.on Reg.FLT_ESCALATE_EN = true ∧ escalating.flt.crReq = none ∧ blocksDown.Ready ∧ Block.hostLink ∈ blocksDown.flt.inReset ∧
    Block.security ∈ blocksDown.flt.inReset ∧ Block.crc ∈ blocksDown.flt.inReset ∧ blocksDown.live (LinkId.source .host 32) = true ∧
    blocksDown.live (LinkId.source .peer 32) = true ∧ blocksDown.on (Reg.LNK_CTRL_EN 0) = true ∧ blocksDown.rd (Reg.LNK_STATUS_STATE 0) = 0 ∧
    blocksDown.linksEnabled .host = true ∧ Block.security ∉ idle.flt.inReset := by
  repeat' (with_reducible refine And.intro ?_ ?_)
  all_goals first
    | (with_reducible first | exact fw_ready.2.1 | exact fw_ready.1 | exact fw_ready.2.2.1 | exact fw_ready.2.2.2)
    | decide +kernel
    | (unfold State.MayWrite; decide +kernel)

def inReset : State := State.settle { State.reset with mode := { State.reset.mode with phase := .reset, resetLow := true } }

theorem witness_ResetInputs : State.reset.settle = State.reset ∧ idle.settle = idle ∧ State.reset.sec.otp = [] ∧ State.reset.nand.files = [] ∧
    inReset.settle = inReset ∧ inReset.mode.phase = .reset ∧ inReset.mode.resetLow = true := by
  repeat' (with_reducible refine And.intro ?_ ?_)
  all_goals first
    | (with_reducible first | exact reset_ready.1 | exact idle_ready.1)
    | decide +kernel

/-- What a boot finds where nothing is fitted. -/
def bootIO (romOk : Bool) : BootIO :=
  { romOk := romOk, otpFail := [], katOk := true, entropyOk := true, key := [], pufRaw := [], part := none, preferOk := false, readA := false, readB := false,
    trim0 := none, trim1 := none }
/-- In the boot stage of slot 1; at firmware level in Boot; provisioned there. -/
def bootStage : State := { State.reset with sec := { Trust.reset with jumped := some 1 } }
def booted : State := State.settle { fw [(Reg.SAF_IN_CFG_MODE 3, 2)] with mode := State.reset.mode }
def provisioned : State := { firmware with sec := { Trust.reset with otp := otpSet [] (0xE0 * 8) } }
theorem boot_ready : bootStage.Ready ∧ booted.Ready ∧ provisioned.Ready := by unfold State.Ready; decide +kernel

/-- Both images unreadable, whatever is fitted. Clauses over an image that passes ask its signature to verify, and have no witness here. -/
theorem witness_Boot : State.reset.settle = State.reset ∧ State.reset.bootWaits = true ∧ State.reset.mode.resetLow = false ∧
    State.reset.mode.badPower = false ∧ (bootIO false).romOk = false ∧ (bootIO true).romOk = true ∧
    (∀ u : State, u.slotCode (bootIO true) 0 ≠ 0 ∧ u.slotCode (bootIO true) 1 ≠ 0) ∧ bootStage.settle = bootStage ∧ bootStage.mode.phase ≠ .reset ∧ bootStage.sec.jumped = some 1 ∧ bootStage.bootLevel = true ∧
    bootStage.MayWrite .mgmt 0xB080 ∧ (fw []).Ready ∧ (fw []).MayWrite .mgmt 0xB080 ∧ (fw []).bootLevel = false ∧
    booted.Ready ∧ booted.mode.phase = .boot ∧ booted.bootLevel = false ∧ booted.rd (Reg.SAF_IN_CFG_MODE 3) ≠ 0 ∧ booted.provisioned = false ∧
    provisioned.Ready ∧ provisioned.provisioned = true ∧ provisioned.on Reg.SEC_STATUS_TRIM_OK = false ∧ provisioned.mode.phase = .boot ∧
    provisioned.bootLevel = false := by
  repeat' (with_reducible refine And.intro ?_ ?_)
  all_goals first
    | (with_reducible first | exact reset_ready.1 | exact boot_ready.1.1 | exact fw_ready.1 | exact boot_ready.2.1 | exact boot_ready.2.2)
    | decide +kernel
    | (unfold State.MayWrite; decide +kernel)
    | exact fun u => by simp [State.slotCode, bootIO]; split <;> split <;> simp

def stuck : State := idle.having [(Reg.SYS_SERVICE_STUCK, 1)]
def held : State := idle.having [(Reg.SYS_SERVICE_STUCK, 1), (Reg.SYS_SERVICE_PRESSED, 1)]
theorem stuck_ready : stuck.Ready ∧ held.Ready := by unfold State.Ready; decide +kernel

/-- Durations at each bound; the token clauses that accept one ask a signature to verify, and have no witness here. -/
theorem witness_ServiceButtonAndTap : idle.Ready ∧ idle.mode.phase = .running ∧ idle.on Reg.SYS_SERVICE_STUCK = false ∧ idle.egressWithin 9999 = false ∧
    idle.egressWithin 50 = false ∧ idle.egressWithin 10000 = false ∧ idle.mode.bootEnd + 9999 * 1000000 ≤ idle.now ∧ idle.modeOf ≠ .safeDark ∧
    idle.modeOf ≠ .provision ∧ (49 < 50 ∧ 50 ≤ 4999 ∧ 4999 < 5000 ∧ 9999 < 10000) ∧ stuck.Ready ∧ stuck.on Reg.SYS_SERVICE_STUCK = true ∧
    stuck.on Reg.SYS_SERVICE_PRESSED = false ∧ (held.Ready ∧ held.on Reg.SYS_SERVICE_STUCK = true ∧ held.on Reg.SYS_SERVICE_PRESSED = true) ∧ idle.sec.challenge = none ∧ idle.entropyOk = true ∧ idle.debugOk [] = false ∧ idle.provisioned = false ∧
    provisioned.Ready ∧ provisioned.sec.scope = 0 ∧ provisioned.provisioned = true := by
  repeat' (with_reducible refine And.intro ?_ ?_)
  all_goals first
    | (with_reducible first | exact idle_ready | exact stuck_ready.1 | exact stuck_ready.2 | exact boot_ready.2.2)
    | decide +kernel

/-! ## Register access and requests -/

/-- WEIR_CAP holds a BT field; the alias of its bit 0. -/
theorem witness_RegisterAccess : State.reset.Ready ∧ (fw []).Ready ∧ (Reg.fieldsAt 0x5204).isSome = true ∧ 0x5204 % 4 = 0 ∧ 0x5204 / 0x1000 = 5 ∧
    (∀ fs ∈ Reg.fieldsAt 0x5204, ∃ f ∈ fs, f.ty = .bt) ∧ State.reset.bootLevel = true ∧ (fw []).bootLevel = false ∧
    State.reset.reaches .mgmt true (regBase + 0x5204) 4 = true ∧ (fw []).reaches .mgmt true (regBase + 0x5204) 4 = true ∧
    State.reset.reaches .mgmt true (regBase + 0x5204) 1 = true ∧ State.reset.reaches .mgmt true (regBase + 0x5204) 2 = true ∧
    Reg.fieldsAt 0xFFC = none ∧ State.reset.reaches .mgmt true (regBase + 0xFFC) 4 = true ∧ State.reset.reaches .mgmt false (regBase + 0x5204) 4 = true ∧
    State.reset.reaches .mgmt false (regBase + 0x5204) 1 = true ∧ aliasOf (0x5204 * 32) = (0x5204, 0) ∧ (fieldOfBit 0x5204 0).isSome = true ∧
    State.reset.reaches .mgmt false (aliasBase + 0x5204 * 32) 4 = true ∧ State.reset.reaches .mgmt true (aliasBase + 0x5204 * 32) 4 = true := by
  repeat' (with_reducible refine And.intro ?_ ?_)
  all_goals first
    | (with_reducible first | exact reset_ready | exact fw_ready.1)
    | decide +kernel

/-- A slot that may run, and a run that is under way. -/
def slotted : State := State.settle { State.reset with seq := { Seq.reset with slots := Vector.replicate 3 (some flight0) } }
def underWay : State := { State.reset with seq := { Seq.reset with state := .free } }
theorem slotted_ready : slotted.Ready ∧ underWay.Ready := by
  unfold State.Ready; decide +kernel

theorem witness_SequencerRequests : slotted.Ready ∧ slotted.MayWrite .mgmt 0x1000 ∧ slotted.MayWrite .mgmt 0x1004 ∧ slotted.MayWrite .mgmt 0x1008 ∧
    slotted.MayWrite .mgmt 0x0040 ∧ slotted.reaches .mgmt true (regBase + 0x1034) 8 = true ∧ slotted.on Reg.SEQ_CTRL_RUN = false ∧
    slotted.seq.state = .stopped ∧ slotted.slotPermits slotted.startSlot = true ∧ State.reset.Ready ∧ State.reset.slotPermits State.reset.startSlot = false ∧
    underWay.Ready ∧ underWay.MayWrite .mgmt 0x1000 ∧ underWay.MayWrite .mgmt 0x1008 ∧ underWay.seq.state ≠ .stopped := by
  repeat' (with_reducible refine And.intro ?_ ?_)
  all_goals first
    | (with_reducible first | exact slotted_ready.1 | exact reset_ready | exact slotted_ready.2)
    | decide +kernel
    | (unfold State.MayWrite; decide +kernel)

/-- Berth 63 in a state, with one block, format RAW. -/
def berthed (x : Berth) : State :=
  { State.reset.having [(Reg.BAS_BERTH_PLACE_SIZE 63, 1), (Reg.BAS_BERTH_FMT_FORMAT 63, 6)] with
    bas := { Basin.reset with berths := Basin.reset.berths.set 63 x } }
def cutting : State := { State.reset with seq := { Seq.reset with snap := some State.reset.takeSnap } }
theorem berthed_ready : (berthed { Berth.reset with state := .host, covered := List.range 32 }).Ready ∧
    (berthed { Berth.reset with state := .live, retireMark := true }).Ready ∧ cutting.Ready := by unfold State.Ready; decide +kernel

theorem witness_BerthCommands : (berthed { Berth.reset with state := .host, covered := List.range 32 }).Ready ∧
    (berthed { Berth.reset with state := .host, covered := List.range 32 }).MayWrite .mgmt 0x3000 ∧
    (berthed { Berth.reset with state := .host, covered := List.range 32 }).seq.snap = none ∧
    (berthed { Berth.reset with state := .host, covered := List.range 32 }).berthLayer 63 ≤ (berthed { Berth.reset with state := .host, covered := List.range 32 }).berthSize 63 ∧
    (berthed { Berth.reset with state := .host, covered := List.range 32 }).berthCovered 63 = true ∧
    (berthed { Berth.reset with state := .host, covered := List.range 31 }).berthCovered 63 = false ∧
    (∀ o : Fin 64, o ≠ 63 → ((berthed { Berth.reset with state := .host, covered := List.range 32 }).berthAt o).state ≠ .ready) ∧
    (berthed { Berth.reset with state := .live, retireMark := true }).Ready ∧
    ((berthed { Berth.reset with state := .live, retireMark := true }).berthAt 63).retireMark = true ∧
    cutting.Ready ∧ cutting.MayWrite .mgmt 0x3000 ∧ cutting.seq.snap ≠ none ∧ State.reset.MayWrite .mgmt (0x3100 + 16 * 63) ∧
    State.reset.MayWrite .mgmt (0x3104 + 16 * 63) ∧ (State.reset.berthAt 63).state = .free ∧
    overlaps 32767 (min 65535 (32768 - 32767)) (State.reset.rd (Reg.BAS_BERTH_PLACE_BASE 0)) (State.reset.rd (Reg.BAS_BERTH_PLACE_SIZE 0)) = false := by
  repeat' (with_reducible refine And.intro ?_ ?_)
  all_goals first
    | (with_reducible first | exact berthed_ready.1 | exact berthed_ready.2.1 | exact berthed_ready.2.2)
    | decide +kernel
    | (unfold State.MayWrite; decide +kernel)

def darkened (cause : Nat) (outs : List Int) : State :=
  State.settle { State.reset.having [(Reg.SYS_MODE_SD_CAUSE, cause)] with
    mode := { State.reset.mode with safeDark := true }, thm := { Thermal.reset with outs := outs } }
def darkRun : State :=
  State.settle { locked.having [(Reg.SYS_MODE_SD_CAUSE, 4)] with mode := { locked.mode with safeDark := true } }
theorem darkRun_ready : darkRun.Ready := by unfold State.Ready; decide +kernel
def fenced : State := State.reset.having [(Reg.FLT_FENCE_REACH, 0x8000)]
def upFirmware : State := fw [(Reg.LNK_CTRL_EN 0, 1), (Reg.LNK_STATUS_STATE 0, 5), (Reg.LNK_STATUS_WIDTH 0, 15)]
def nandUp (window : Nat) : State := fw [(Reg.NFC_STATUS_READY, 1), (Reg.THM_STATUS_NAND_OK, window)]
theorem modes_ready : (darkened 4 []).Ready ∧ (darkened 1 [1599]).Ready ∧ (darkened 1 [1600]).Ready ∧ fenced.Ready ∧ upFirmware.Ready ∧
    (nandUp 0).Ready ∧ (nandUp 1).Ready := by unfold State.Ready; decide +kernel

theorem witness_ModeAndUnitRequests : State.reset.Ready ∧ State.reset.MayWrite .mgmt 0x0024 ∧ State.reset.mode.safeDark = false ∧
    (darkened 4 []).Ready ∧ (darkened 4 []).MayWrite .mgmt 0x0024 ∧ (darkened 4 []).mode.safeDark = true ∧ (darkened 4 []).rd Reg.SYS_MODE_SD_CAUSE = 4 ∧
    (darkened 1 [1599]).Ready ∧ (∀ v ∈ (darkened 1 [1599]).thm.outs, v < 1600) ∧ (darkened 1 [1599]).rd Reg.SYS_MODE_SD_CAUSE = 1 ∧
    (darkened 1 [1600]).Ready ∧ (∃ v ∈ (darkened 1 [1600]).thm.outs, 1600 ≤ v) ∧ State.reset.rd Reg.FLT_FENCE_REACH = 0 ∧
    State.reset.rd Reg.FLT_FENCE_CHAMBER = 0 ∧ State.reset.live 114 = false ∧ State.reset.live 138 = false ∧ fenced.Ready ∧
    fenced.rd Reg.FLT_FENCE_REACH ≠ 0 ∧ State.reset.MayWrite .mgmt 0x7004 ∧ State.reset.MayWrite .mgmt 0x9004 ∧ State.reset.resyncing = false ∧
    copying.resyncing = true ∧ upFirmware.Ready ∧ upFirmware.MayWrite .mgmt (0x8000 + 256 * LinkId.num .host) ∧
    upFirmware.on (Reg.FLT_REACT_BR (LinkId.source .host 32)) = false ∧ upFirmware.rd (Reg.LNK_CTRL_EN 0) = 1 ∧ upFirmware.linkUp .host = true ∧
    (fw []).rd (Reg.LNK_STATUS_STATE 0) = 0 ∧ (fw []).linksEnabled .host = true ∧ (fw []).flt.inReset = [] ∧
    (nandUp 1).Ready ∧ (nandUp 1).MayWrite .mgmt 0xC000 ∧ (nandUp 1).nandReady = true ∧ (nandUp 1).nandWindow = true ∧
    (nandUp 0).Ready ∧ (nandUp 0).nandWindow = false ∧ (nandUp 0).nand.deferred.length < 64 ∧ (nandUp 0).nand.staged ≤ 1048576 ∧
    (nandUp 0).on (Reg.FLT_REACT_BR 166) = false ∧ darkRun.Ready ∧ darkRun.mode.safeDark = true ∧ darkRun.rd Reg.SYS_MODE_SD_CAUSE = 4 ∧
    darkRun.running = true ∧ darkRun.MayWrite .mgmt 0x0024 := by
  repeat' (with_reducible refine And.intro ?_ ?_)
  all_goals first
    | (with_reducible first | exact reset_ready | exact darkRun_ready | exact modes_ready.1 | exact modes_ready.2.1 | exact modes_ready.2.2.1 | exact modes_ready.2.2.2.1 | exact modes_ready.2.2.2.2.1 | exact modes_ready.2.2.2.2.2.2 | exact modes_ready.2.2.2.2.2.1)
    | decide +kernel
    | (unfold State.MayWrite; decide +kernel)

def holdOver : State := { State.reset.having [(Reg.RIF_CRC_CTRL_HOLD, 1)] with rif := { Rif.reset with holdSweeps := 16384 } }
def latching : State := { State.reset with rif := { Rif.reset with latch := true } }
def sweeping : State := State.reset.having [(Reg.RIF_CRC_CTRL_EN, 1)]
theorem crc_ready : holdOver.Ready ∧ latching.Ready ∧ sweeping.Ready := by unfold State.Ready; decide +kernel

/-- The first and the last word of the user plane, its neighbours, and a misaligned offset. -/
theorem witness_TrimStoreAndConfigurationCrc : State.reset.Ready ∧ State.reset.trimRefusal 0x400000 = none ∧ State.reset.trimRefusal 0x660FFC = none ∧
    State.reset.trimRefusal 0x3FFFFC = some 0 ∧ State.reset.trimRefusal 0x661000 = some 0 ∧ 0x400001 % 4 ≠ 0 ∧ State.reset.MayWrite .mgmt 0xE000 ∧
    holdOver.Ready ∧ holdOver.on Reg.RIF_CRC_CTRL_HOLD = true ∧ 16384 ≤ holdOver.rif.holdSweeps ∧ latching.Ready ∧ latching.rif.latch = true ∧
    sweeping.Ready ∧ sweeping.rif.latch = false ∧ sweeping.on Reg.RIF_CRC_CTRL_EN = true ∧ sweeping.on Reg.RIF_CRC_CTRL_HOLD = false := by
  repeat' (with_reducible refine And.intro ?_ ?_)
  all_goals first
    | (with_reducible first | exact reset_ready | exact crc_ready.1 | exact crc_ready.2.1 | exact crc_ready.2.2)
    | decide +kernel
    | (unfold State.MayWrite; decide +kernel)

/-! ## The wharf -/

/-- A command of 64 bytes at the front of a pair's ring; telemetry on. -/
def placed (p : Pair) (entry : List Byte) : State := 
  State.settle { idle.having [(Reg.WHF_CMD_TAIL_SEQ p.num, 1), (Reg.WHF_TELEM_CFG_EN, 1)] with bas := Basin.reset.write p.cmdRing entry }
def commandEntry (seq op : Nat) (rest : List Byte) : List Byte := leBytes seq 4 ++ leBytes op 2 ++ rest
/-- The sequencer runs, with sluices since the last telemetry record or none; it does not, and the last record is 0 s or 20 s old. -/
def telemetered (sluices at_ : Nat) (first : Bool) : State :=
  State.settle { locked.having [(Reg.WHF_TELEM_CFG_EN, 1)] with
    seq := { locked.seq with sluices := sluices, first := first }, rif := { Rif.reset with telemAt := at_ } }
theorem telemetered_ready : (telemetered 1 0 false).Ready ∧ (telemetered 120 0 false).Ready ∧ (telemetered 0 20000000000 true).Ready ∧
    (telemetered 0 0 true).Ready := by unfold State.Ready; decide +kernel
theorem witness_TelemetryDue : (telemetered 1 0 false).cycling = true ∧ (telemetered 1 0 false).seq.sluices ≠ (telemetered 1 0 false).rif.telemSluices ∧
    (telemetered 1 0 false).seq.sluices < (telemetered 1 0 false).rif.telemSluices + (telemetered 1 0 false).rd Reg.WHF_TELEM_CFG_PERIOD ∧
    (telemetered 120 0 false).cycling = true ∧ (telemetered 120 0 false).seq.sluices ≠ (telemetered 120 0 false).rif.telemSluices ∧
    (telemetered 120 0 false).rif.telemSluices + (telemetered 120 0 false).rd Reg.WHF_TELEM_CFG_PERIOD ≤ (telemetered 120 0 false).seq.sluices ∧
    (telemetered 0 20000000000 true).cycling = false ∧ (telemetered 0 20000000000 true).now < (telemetered 0 20000000000 true).rif.telemAt + 1000000000 ∧
    (telemetered 0 0 true).cycling = false ∧ (telemetered 0 0 true).rif.telemAt + 1000000000 ≤ (telemetered 0 0 true).now ∧
    (telemetered 0 0 true).mode.phase = .running ∧ (telemetered 120 0 false).mode.phase = .running ∧ (telemetered 0 0 true).on Reg.WHF_TELEM_CFG_EN = true := by
  decide +kernel
theorem placed_ready : (placed .openPair (commandEntry 0 0x25 [])).Ready ∧ (placed .session (commandEntry 0 0x12 [])).Ready ∧
    (placed .openPair (commandEntry 1 0x26 [])).Ready := by unfold State.Ready; decide +kernel

theorem witness_WharfPointers : State.reset.Ready ∧ State.reset.MayWrite .mgmt (0xF000 + 32 * Pair.num .session) ∧
    State.reset.MayWrite .mgmt (0xF00C + 32 * Pair.num .session) ∧ State.reset.MayWrite .mgmt 0xF048 ∧
    seqSub (2 ^ 31 - 1) (State.reset.rd (Reg.WHF_CMD_TAIL_SEQ 1)) < 2 ^ 31 ∧ 2 ^ 31 ≤ seqSub (2 ^ 31) (State.reset.rd (Reg.WHF_CMD_TAIL_SEQ 1)) ∧
    State.reset.mayStart .session = false ∧ (placed .openPair (commandEntry 0 0x25 [])).Ready ∧ (placed .openPair (commandEntry 0 0x25 [])).mayStart .openPair = true ∧
    (placed .openPair (commandEntry 0 0x25 [])).wharfServed = true ∧ (placed .openPair (commandEntry 0 0x25 [])).recovery = false ∧
    leAt ((placed .openPair (commandEntry 0 0x25 [])).bas.bytes 0x1E00004 2) 0 2 = 0x25 ∧ 0x25 ∈ openOpcodes ∧
    leAt ((placed .openPair (commandEntry 1 0x26 [])).bas.bytes 0x1E00000 4) 0 4 ≠ (placed .openPair (commandEntry 1 0x26 [])).rd (Reg.WHF_CMD_NEXT_SEQ 0) ∧
    (placed .session (commandEntry 0 0x12 [])).Ready ∧ 0x12 ∈ sessionOpcodes ∧ (placed .session (commandEntry 0 0x12 [])).sec.host = none ∧
    0x26 ∉ openOpcodes ∧ 0x26 ∉ sessionOpcodes ∧ (placed .openPair []).mode.phase = .running ∧ (placed .openPair []).on Reg.WHF_TELEM_CFG_EN = true := by
  repeat' (with_reducible refine And.intro ?_ ?_)
  all_goals first
    | (with_reducible first | exact reset_ready | exact placed_ready.1 | exact placed_ready.2.1)
    | decide +kernel
    | (unfold State.MayWrite; decide +kernel)

/-- A NAND part with two committed files on blocks far apart in wear, an identity and its keys, OTP slots 0 and 3 written; Maintenance, the OTP and
NAND windows open; berth 63 RAW and as long as a ceiling set. -/
def part0 : NPart := { ces := 1, retry := 8, ppb := 64, blocks := 64 }
def file0 (part idx block : Nat) : NFile := { part := part, idx := idx, version := 1, blob := { len := 16, cells := [] }, copies := [[block]], lost := [] }
def fittedNand : Nand :=
  { Nand.blank with
    part := some part0, files := [file0 6 22 40, file0 5 0 41], idRecord := List.replicate 192 1#8,
    blocks := Sparse.set (Sparse.set (Sparse.set [] NBlock.fresh 20 { NBlock.fresh with erases := 5 }) NBlock.fresh 40 { NBlock.fresh with owner := some (6, 22, 0) })
      NBlock.fresh 41 { NBlock.fresh with owner := some (5, 0, 0), erases := 1001 } }
def fittedSec : Trust :=
  { Trust.reset with idKey := some [], k1 := true, host := some keys0, otp := otpSet (otpSet [] (0xE0 * 8)) (0xE3 * 8) }
def works (regs : List (Fld × Nat)) : State :=
  { idle.having ([(Reg.NFC_STATUS_READY, 1), (Reg.THM_STATUS_NAND_OK, 1), (Reg.THM_STATUS_OTP_OK, 1), (Reg.BAS_BERTH_PLACE_SIZE 63, 264),
      (Reg.BAS_BERTH_FMT_FORMAT 63, 6)] ++ regs) with nand := fittedNand, sec := fittedSec }

/-- The pair executes an opcode, with argument bytes, and input bytes at the start of its data area. -/
def serving (s : State) (p : Pair) (op : Nat) (args input : List Byte) : State :=
  State.settle { s.having [(Reg.WHF_STATUS_BUSY p.num, 1), (Reg.WHF_STATUS_OPCODE p.num, op)] with
    bas := ((Basin.reset.write (p.cmdRing + 8) args).write p.dataArea input) }
def maintained (op : Nat) (args : List Byte) : State := serving (works [(Reg.SYS_MODE_MAINT, 1)]) .session op args []
def provisioning (op : Nat) (args input : List Byte) : State := serving (works [(Reg.SYS_MODE_PROVISION, 1)]) .openPair op args input
def ref (len : Nat) : List Byte := leBytes 0 4 ++ leBytes len 4

theorem serves (s : State) (p : Pair) (op : Nat)
    (h : s.settle = s ∧ s.mode.phase ≠ .reset ∧ s.executing p op = true ∧ s.flt.inReset = [] ∧ s.sec.engineOff = false ∧
      allZero ((s.args p).drop (s.argsUsed op)) = true) : s.Ready ∧ s.Serves p op := by
  obtain ⟨h1, h2, h3, h4, h5, h6⟩ := h
  refine ⟨⟨h1, h2⟩, h3, ?_, ?_, h6⟩
  · simp [State.servingReset, h4]
  · simp [h5]

/-- Every session opcode, and every open one, with no argument and in Maintenance or Provision. -/
theorem maintained_serves (op : Nat) (h : op ∈ sessionOpcodes) : (maintained op []).Ready ∧ (maintained op []).Serves .session op := by
  apply serves
  revert op
  decide +kernel
theorem provisioning_serves (op : Nat) (h : op ∈ openOpcodes) : (provisioning op [] []).Ready ∧ (provisioning op [] []).Serves .openPair op := by
  apply serves
  revert op
  decide +kernel

theorem witness_WharfCompletions : (∀ op ∈ sessionOpcodes, (maintained op []).Ready ∧ (maintained op []).executing .session op = true) ∧
    (∀ op ∈ openOpcodes, (provisioning op [] []).Ready ∧ (provisioning op [] []).executing .openPair op = true) ∧
    State.servingReset { maintained 0x30 [] with flt := { Faults.reset with inReset := [.nand] } } 0x30 ∧
    allZero (((provisioning 0x22 [1#8] []).args .openPair).drop ((provisioning 0x22 [1#8] []).argsUsed 0x22)) = false :=
  ⟨fun op h => ⟨(maintained_serves op h).1, (maintained_serves op h).2.1⟩, fun op h => ⟨(provisioning_serves op h).1, (provisioning_serves op h).2.1⟩,
    by unfold State.servingReset; decide +kernel, by decide +kernel⟩

theorem identity_ready : ((provisioning 0x01 (ref 192) []).Ready ∧ (provisioning 0x01 (ref 192) []).Serves .openPair 0x01) ∧
    ((provisioning 0x02 (ref 32) []).Ready ∧ (provisioning 0x02 (ref 32) []).Serves .openPair 0x02) ∧
    ((provisioning 0x03 (List.replicate 32 0#8 ++ ref 14336) []).Ready ∧ (provisioning 0x03 (List.replicate 32 0#8 ++ ref 14336) []).Serves .openPair 0x03) :=
  ⟨serves _ _ _ (by decide +kernel), serves _ _ _ (by decide +kernel), serves _ _ _ (by decide +kernel)⟩

/-- The shortest reference that takes the record, and one byte less; the whole data area for the quote. -/
theorem witness_IdentityChallengeQuote : ((provisioning 0x01 (ref 192) []).Ready ∧ (provisioning 0x01 (ref 192) []).Serves .openPair 0x01) ∧
    (provisioning 0x01 (ref 192) []).nand.part ≠ none ∧ (provisioning 0x01 (ref 192) []).nand.identity.length = 192 ∧
    (provisioning 0x01 (ref 192) []).dataRef .openPair 0 = some (0x1E00800, 192) ∧ (provisioning 0x01 (ref 191) []).canOutput .openPair 0 192 = false ∧
    ((provisioning 0x02 (ref 32) []).Ready ∧ (provisioning 0x02 (ref 32) []).Serves .openPair 0x02) ∧
    (provisioning 0x02 (ref 32) []).dataRef .openPair 0 = some (0x1E00800, 32) ∧ (provisioning 0x02 (ref 32) []).entropyOk = true ∧
    ((provisioning 0x03 (List.replicate 32 0#8 ++ ref 14336) []).Ready ∧ (provisioning 0x03 (List.replicate 32 0#8 ++ ref 14336) []).Serves .openPair 0x03) ∧
    (provisioning 0x03 (List.replicate 32 0#8 ++ ref 14336) []).dataRef .openPair 32 = some (0x1E00800, 14336) ∧
    (provisioning 0x03 (List.replicate 32 0#8 ++ ref 14336) []).sec.idKey = some [] := by
  repeat' (with_reducible refine And.intro ?_ ?_)
  all_goals first
    | (with_reducible first | exact identity_ready.1.1 | exact identity_ready.1.2 | exact identity_ready.2.1.1 | exact identity_ready.2.1.2 | exact identity_ready.2.2.1 | exact identity_ready.2.2.2)
    | decide +kernel

/-- HELLO of no byte, with room for REPLY; a handshake that waits for FINISH; the clauses of a certificate or signature that checks have no
witness. -/
def greeted : State := provisioning 0x10 (ref 0 ++ ref 336) []
def finishing : State := let s := provisioning 0x11 (ref 63) []
  { s with sec := { s.sec with hostHs := some { hello := [], reply := [], key := [], shared := [], own := 0 } } }
theorem greeted_ready : (greeted.Ready ∧ greeted.Serves .openPair 0x10) ∧ finishing.settle = finishing := ⟨serves _ _ _ (by decide +kernel), by decide +kernel⟩

theorem witness_HostSession : (greeted.Ready ∧ greeted.Serves .openPair 0x10) ∧ greeted.Input .openPair 0 [] ∧ greeted.canOutput .openPair 8 336 = true ∧
    greeted.sec.idKey = some [] ∧ greeted.entropyOk = true ∧ greeted.certOk [] = none ∧
    finishing.settle = finishing ∧ finishing.executing .openPair 0x11 = true ∧ finishing.Input .openPair 0 (List.replicate 63 0#8) ∧
    (List.replicate 63 0#8).length ≠ 64 ∧ ((maintained 0x12 []).Ready ∧ (maintained 0x12 []).Serves .session 0x12) ∧ (maintained 0x12 []).sec.host ≠ none := by
  repeat' (with_reducible refine And.intro ?_ ?_)
  all_goals first
    | (with_reducible first | exact greeted_ready.1.1 | exact greeted_ready.1.2 | exact greeted_ready.2)
    | decide +kernel
    | exact ⟨0x1E00800, 0, by decide +kernel, by decide +kernel⟩
    | exact ⟨0x1E00800, 63, by decide +kernel, by decide +kernel⟩
    | ((with_reducible refine (maintained_serves _ ?_).1); decide)
    | ((with_reducible refine (maintained_serves _ ?_).2); decide)

def introduced : State := serving ((works [(Reg.PEER_CFG_PAIRED, 1), (Reg.LNK_STATUS_STATE 1, 5), (Reg.LNK_STATUS_WIDTH 1, 3), (Reg.LNK_CFG_DEVNUM 1, 1),
  (Reg.LNK_PARTNER_DEVNUM 1, 2)])) .session 0x13 (ref 0 ++ ref 336) []
theorem introduced_ready : introduced.Ready ∧ introduced.Serves .session 0x13 := serves _ _ _ (by decide +kernel)

theorem witness_PeerSession : (introduced.Ready ∧ introduced.Serves .session 0x13) ∧ introduced.Input .session 0 [] ∧
    introduced.canOutput .session 8 336 = true ∧ introduced.sec.idKey = some [] ∧ introduced.entropyOk = true ∧ introduced.peerMaySet = true ∧
    introduced.peerInitiator = true ∧ (maintained 0x13 []).canOutput .session 8 336 = false := by
  repeat' (with_reducible refine And.intro ?_ ?_)
  all_goals first
    | (with_reducible first | exact introduced_ready.1 | exact introduced_ready.2)
    | decide +kernel
    | exact ⟨0x1E0A000, 0, by decide +kernel, by decide +kernel⟩

/-- Records of no byte, which do not check; a telegram key of 97 bytes that no one may sign. -/
def keyed : State := maintained 0x16 (ref 97)
theorem keyed_ready : keyed.Ready ∧ keyed.Serves .session 0x16 := serves _ _ _ (by decide +kernel)

theorem witness_KeysInstalled : ((maintained 0x14 []).Ready ∧ (maintained 0x14 []).Serves .session 0x14) ∧ (maintained 0x14 []).Input .session 0 [] ∧
    (maintained 0x14 []).pairingOk [] = false ∧ ((maintained 0x15 []).Ready ∧ (maintained 0x15 []).Serves .session 0x15) ∧
    (maintained 0x15 []).Input .session 0 [] ∧ (maintained 0x15 []).certOk [] = none ∧ (keyed.Ready ∧ keyed.Serves .session 0x16) ∧
    keyed.Input .session 0 (List.replicate 97 0#8) ∧ (List.replicate 97 0#8).length = 97 ∧ keyed.sec.k1 = true ∧ keyed.entropyOk = true ∧
    (keyed.signer (leAt (List.replicate 97 0#8) 32 1) permTelegram).1 = none := by
  repeat' (with_reducible refine And.intro ?_ ?_)
  all_goals first
    | (with_reducible first | exact keyed_ready.1 | exact keyed_ready.2)
    | decide +kernel
    | ((with_reducible refine (maintained_serves _ ?_).1); decide)
    | ((with_reducible refine (maintained_serves _ ?_).2); decide)
    | exact ⟨0x1E0A000, 0, by decide +kernel, by decide +kernel⟩
    | exact ⟨0x1E0A000, 97, by decide +kernel, by decide +kernel⟩

/-- INSTALL_ROOT of 128 bytes without a challenge; REVOKE_ROOT of slot 3, and of 4; tokens of no byte. -/
def installing : State := provisioning 0x20 (ref 128) []
def revoking (i : Byte) : State := provisioning 0x21 [i] []
theorem revoking_ready : (installing.Ready ∧ installing.Serves .openPair 0x20) ∧ ((revoking 3#8).Ready ∧ (revoking 3#8).Serves .openPair 0x21) ∧
    ((revoking 4#8).Ready ∧ (revoking 4#8).Serves .openPair 0x21) :=
  ⟨serves _ _ _ (by decide +kernel), serves _ _ _ (by decide +kernel), serves _ _ _ (by decide +kernel)⟩

theorem witness_Provisioning : (installing.Ready ∧ installing.Serves .openPair 0x20) ∧ installing.Input .openPair 0 (List.replicate 128 0#8) ∧
    (List.replicate 128 0#8).length = 128 ∧ installing.sec.challenge = none ∧ installing.modeOf = .provision ∧ installing.freeOwnerSlot = some 1 ∧
    ((revoking 3#8).Ready ∧ (revoking 3#8).Serves .openPair 0x21) ∧ (revoking 3#8).arg .openPair 0 1 = 3 ∧ (revoking 3#8).modeOf = .provision ∧
    (revoking 3#8).slotUsable 3 = true ∧ (revoking 3#8).slotUsable 0 = true ∧ (revoking 3#8).on Reg.THM_STATUS_OTP_OK = true ∧
    ((revoking 4#8).Ready ∧ (revoking 4#8).Serves .openPair 0x21) ∧ (revoking 4#8).arg .openPair 0 1 = 4 ∧
    ((provisioning 0x22 [] []).Ready ∧ (provisioning 0x22 [] []).Serves .openPair 0x22) ∧ (provisioning 0x22 [] []).firmwarePasses 0 0 = false ∧
    ((provisioning 0x23 [] []).Ready ∧ (provisioning 0x23 [] []).Serves .openPair 0x23) ∧ (provisioning 0x23 [] []).Input .openPair 0 [] ∧
    ((provisioning 0x24 [] []).Ready ∧ (provisioning 0x24 [] []).Serves .openPair 0x24) ∧ (provisioning 0x24 [] []).Input .openPair 0 [] ∧
    (provisioning 0x24 [] []).debugOk [] = false := by
  repeat' (with_reducible refine And.intro ?_ ?_)
  all_goals first
    | (with_reducible first | exact revoking_ready.1.1 | exact revoking_ready.1.2 | exact revoking_ready.2.1.1 | exact revoking_ready.2.1.2 | exact revoking_ready.2.2.1 | exact revoking_ready.2.2.2)
    | decide +kernel
    | exact ⟨0x1E00800, 128, by decide +kernel, by decide +kernel⟩
    | ((with_reducible refine (provisioning_serves _ ?_).1); decide)
    | ((with_reducible refine (provisioning_serves _ ?_).2); decide)
    | exact ⟨0x1E00800, 0, by decide +kernel, by decide +kernel⟩

/-- A copy of the NAND controller's has met a lasting error. -/
def copyFailed (s : State) : State := { s with bas := { s.bas with failed := [.nand] } }

/-- The last four bytes of the longest image, in recovery; a berth's whole content as an image; no slot that passes. -/
def recovering (total : Nat) : State :=
  serving (works [(Reg.SEC_BOOT_STATUS_RECOVERY, 1)]) .openPair 0x25 (ref 4 ++ leBytes (total - 4) 4 ++ leBytes total 4) []
def imaging : State := maintained 0x30 ([63#8] ++ leBytes 135168 4)
theorem imaging_ready : ((recovering 4).Ready ∧ (recovering 4).Serves .openPair 0x25) ∧ ((recovering 458752).Ready ∧ (recovering 458752).Serves .openPair 0x25) ∧
    (imaging.Ready ∧ imaging.Serves .session 0x30) :=
  ⟨serves _ _ _ (by decide +kernel), serves _ _ _ (by decide +kernel), serves _ _ _ (by decide +kernel)⟩

theorem witness_FirmwareImages : ((provisioning 0x25 [] []).Ready ∧ (provisioning 0x25 [] []).Serves .openPair 0x25) ∧ (provisioning 0x25 [] []).recovery = false ∧
    ((recovering 4).Ready ∧ (recovering 4).Serves .openPair 0x25) ∧ (recovering 4).recovery = true ∧ (recovering 4).Input .openPair 0 (List.replicate 4 0#8) ∧
    (recovering 4).arg .openPair 8 4 + 4 = (recovering 4).arg .openPair 12 4 ∧ ((recovering 458752).Ready ∧ (recovering 458752).Serves .openPair 0x25) ∧
    (recovering 458752).arg .openPair 8 4 + 4 ≤ (recovering 458752).arg .openPair 12 4 ∧ (recovering 458752).arg .openPair 12 4 ≤ 458752 ∧
    (copyFailed imaging).settle = copyFailed imaging ∧ SvcReq.nand ∈ (copyFailed imaging).bas.failed ∧ SvcReq.nand ∉ imaging.bas.failed ∧
    (imaging.Ready ∧ imaging.Serves .session 0x30) ∧ imaging.arg .session 0 1 = 63 ∧ imaging.berthRef 63 = some 63 ∧ imaging.arg .session 1 4 = imaging.berthSize 63 ∧
    imaging.imageCheck ((imaging.berthInput 63).take 135168) imaging.rollback ≠ 0 ∧ ((maintained 0x31 []).Ready ∧ (maintained 0x31 []).Serves .session 0x31) ∧
    (maintained 0x31 []).firmwarePasses 0 0 = false := by
  repeat' (with_reducible refine And.intro ?_ ?_)
  all_goals first
    | (with_reducible first | exact imaging_ready.1.1 | exact imaging_ready.1.2 | exact imaging_ready.2.1.1 | exact imaging_ready.2.1.2 | exact imaging_ready.2.2.1 | exact imaging_ready.2.2.2)
    | decide +kernel
    | ((with_reducible refine (provisioning_serves _ ?_).1); decide)
    | ((with_reducible refine (provisioning_serves _ ?_).2); decide)
    | exact ⟨0x1E00800, 4, by decide +kernel, by decide +kernel⟩
    | ((with_reducible refine (maintained_serves _ ?_).1); decide)
    | ((with_reducible refine (maintained_serves _ ?_).2); decide)

/-- Slot E from file 22, slot A from berth 63; the library from a berth; images of zeros, which do not check. -/
def loadingE : State := maintained 0x40 [2#8, 0#8, 22#8]
def loadingA : State := maintained 0x40 [0#8, 1#8, 63#8]
def storing (op : Nat) : State := maintained op [63#8]
def library : State := maintained 0x42 [1#8, 63#8]
theorem loading_ready : (loadingE.Ready ∧ loadingE.Serves .session 0x40) ∧ (loadingA.Ready ∧ loadingA.Serves .session 0x40) ∧
    ((storing 0x41).Ready ∧ (storing 0x41).Serves .session 0x41) ∧ (library.Ready ∧ library.Serves .session 0x42) ∧
    ((storing 0x43).Ready ∧ (storing 0x43).Serves .session 0x43) :=
  ⟨serves _ _ _ (by decide +kernel), serves _ _ _ (by decide +kernel), serves _ _ _ (by decide +kernel), serves _ _ _ (by decide +kernel),
    serves _ _ _ (by decide +kernel)⟩

/-- The storage has 8 free blocks, and 7. -/
def roomFor (blocks : Nat) : State := { storing 0x41 with nand := { Nand.blank with part := some { part0 with blocks := blocks } } }
def loadingRuns : State := { loadingA with seq := { loadingA.seq with state := .free, first := false, run := some flight0 } }
theorem failed_ready : (copyFailed loadingA).settle = copyFailed loadingA ∧ (copyFailed imaging).settle = copyFailed imaging ∧
    (copyFailed loadingA).executing .session 0x40 = true ∧ (roomFor 10).settle = roomFor 10 ∧ (roomFor 9).settle = roomFor 9 := by decide +kernel

theorem witness_FlightsAndLibraries : (copyFailed loadingA).settle = copyFailed loadingA ∧ SvcReq.nand ∈ (copyFailed loadingA).bas.failed ∧
    (copyFailed loadingA).executing .session 0x40 = true ∧ SvcReq.nand ∉ loadingA.bas.failed ∧ (roomFor 10).settle = roomFor 10 ∧
    (roomFor 10).TakesFile 6 0 0 = true ∧ (roomFor 9).settle = roomFor 9 ∧ (roomFor 9).LacksRoom 6 0 0 = true ∧
    (State.put loadingRuns Reg.SYS_FLIGHT_STATUS_ACTIVE 0).slotRuns 0 = true ∧ SvcReq.nand ∉ (storing 0x41).bas.failed ∧ (loadingE.Ready ∧ loadingE.Serves .session 0x40) ∧ loadingE.arg .session 0 1 = 2 ∧ loadingE.arg .session 2 1 = 22 ∧
    loadingE.modeOf = .maintenance ∧ loadingE.slotRuns 2 = false ∧ (∃ img, loadingE.readFile 6 22 = (loadingE, some img)) ∧
    (loadingA.Ready ∧ loadingA.Serves .session 0x40) ∧ loadingA.berthRef 63 = some 63 ∧ loadingA.slotRuns 0 = false ∧
    ((storing 0x41).Ready ∧ (storing 0x41).Serves .session 0x41) ∧ (storing 0x41).arg .session 0 1 = 63 ∧ (storing 0x41).arg .session 1 1 = 0 ∧
    (storing 0x41).modeOf = .maintenance ∧ (storing 0x41).berthRef 63 = some 63 ∧ (storing 0x41).flightCheck ((storing 0x41).berthInput 63) true ≠ 0 ∧
    (library.Ready ∧ library.Serves .session 0x42) ∧ library.modeOf = .maintenance ∧ library.arg .session 0 1 = 1 ∧ library.berthRef 63 = some 63 ∧
    library.libCheck (library.berthInput 63) ≠ 0 ∧ ((storing 0x43).Ready ∧ (storing 0x43).Serves .session 0x43) := by
  repeat' (with_reducible refine And.intro ?_ ?_)
  all_goals first
    | (with_reducible first | exact loading_ready.1.1 | exact loading_ready.1.2 | exact loading_ready.2.1.1 | exact loading_ready.2.1.2 | exact loading_ready.2.2.1.1 | exact loading_ready.2.2.1.2 | exact loading_ready.2.2.2.1.1 | exact loading_ready.2.2.2.1.2 | exact loading_ready.2.2.2.2.1 | exact loading_ready.2.2.2.2.2 | exact failed_ready.1 | exact failed_ready.2.2.2.1 | exact failed_ready.2.2.2.2)
    | decide +kernel
    | exact ⟨{ len := 16, cells := [] }, by decide +kernel⟩

/-- Set 2 from a berth of exactly its size; set 2 into plane 1; file 22 into berth 63. -/
def ceiling : State := maintained 0x44 [63#8, 2#8]
def ceilingLoad : State := maintained 0x45 [2#8, 1#8]
def reading : State := maintained 0x50 [6#8, 22#8, 0#8, 63#8]
theorem ceiling_ready : (ceiling.Ready ∧ ceiling.Serves .session 0x44) ∧ (ceilingLoad.Ready ∧ ceilingLoad.Serves .session 0x45) ∧
    (reading.Ready ∧ reading.Serves .session 0x50) :=
  ⟨serves _ _ _ (by decide +kernel), serves _ _ _ (by decide +kernel), serves _ _ _ (by decide +kernel)⟩

theorem witness_CeilingsAndFiles : (ceiling.Ready ∧ ceiling.Serves .session 0x44) ∧ ceiling.arg .session 0 1 = 63 ∧ ceiling.arg .session 1 1 = 2 ∧
    ceiling.berthRef 63 = some 63 ∧ ceiling.berthSize 63 = 135168 ∧ SvcReq.nand ∉ ceiling.bas.failed ∧ SvcReq.nand ∈ (copyFailed ceiling).bas.failed ∧ (ceilingLoad.Ready ∧ ceilingLoad.Serves .session 0x45) ∧
    ceilingLoad.arg .session 0 1 = 2 ∧ ceilingLoad.arg .session 1 1 = 1 ∧ ceilingLoad.ceilBusy 1 = false ∧ (ceilingLoad.ceilBusy 0 = true) ∧
    (reading.Ready ∧ reading.Serves .session 0x50) ∧ reading.arg .session 0 1 = 6 ∧ reading.arg .session 1 1 = 22 ∧ 22 < filesOf 6 ∧
    reading.arg .session 2 1 < copiesOf 6 22 ∧ reading.arg .session 3 1 = 63 ∧ reading.berthRef 63 = some 63 ∧ reading.nandReady = true ∧
    reading.readFile 6 22 = (reading, some { len := 16, cells := [] }) ∧ 16 ≤ reading.berthSize 63 ∧ reading.nand.file 9 0 = none ∧
    Memory.wf ceilingLoad.bas.mem = true := by
  repeat' (with_reducible refine And.intro ?_ ?_)
  all_goals first
    | (with_reducible first | exact ceiling_ready.1.1 | exact ceiling_ready.1.2 | exact ceiling_ready.2.1.1 | exact ceiling_ready.2.1.2 | exact ceiling_ready.2.2.1 | exact ceiling_ready.2.2.2)
    | decide +kernel

/-- START_SET at the reset rate with the highest slot; a deferred write for SYNC. -/
def starting : State := maintained 0x55 (leBytes State.reset.F 1 ++ leBytes State.reset.S 1 ++ [1#8, 0#8, 0#8, 1#8])
def syncWaits : State := let s := maintained 0x52 []
  { s with nand := { s.nand with deferred := [NJob.backup none] } }
def checkpointing : State := let s := maintained 0x54 []
  { s with nand := { s.nand with jobs := [s.checkpointJob] } }
theorem starting_ready : (starting.Ready ∧ starting.Serves .session 0x55) ∧ syncWaits.settle = syncWaits ∧ checkpointing.settle = checkpointing :=
  ⟨serves _ _ _ (by decide +kernel), by decide +kernel, by decide +kernel⟩

theorem witness_StorageAndModeCommands : ((maintained 0x52 []).Ready ∧ (maintained 0x52 []).Serves .session 0x52) ∧ (maintained 0x52 []).nand.deferred = [] ∧
    syncWaits.settle = syncWaits ∧ syncWaits.nandWindow = true ∧ syncWaits.nand.deferred ≠ [] ∧
    ((maintained 0x53 []).Ready ∧ (maintained 0x53 []).Serves .session 0x53) ∧ (maintained 0x53 []).nandReady = true ∧ 8 ≤ (maintained 0x53 []).nand.free.length ∧
    (maintained 0x53 []).nandWindow = true ∧ ((maintained 0x54 []).Ready ∧ (maintained 0x54 []).Serves .session 0x54) ∧
    (maintained 0x54 []).nand.jobs.any (fun j => j.kind = .checkpoint) = false ∧ checkpointing.settle = checkpointing ∧
    checkpointing.nand.jobs.any (fun j => j.kind = .checkpoint) = true ∧ (starting.Ready ∧ starting.Serves .session 0x55) ∧
    clampRate (starting.arg .session 0 1) (starting.arg .session 1 1) = (starting.arg .session 0 1, starting.arg .session 1 1) ∧
    starting.arg .session 2 1 = 1 ∧ starting.arg .session 5 1 = 1 ∧ starting.nandWindow = true ∧
    (∀ op, op ∈ [0x60, 0x61, 0x70, 0x71, 0x72, 0x73] → (maintained op []).Ready ∧ (maintained op []).Serves .session op) ∧
    (maintained 0x61 []).resyncing = false ∧ (maintained 0x70 []).mode.egress = false ∧ (maintained 0x72 []).modeOf = .maintenance := by
  repeat' (with_reducible refine And.intro ?_ ?_)
  all_goals first
    | (with_reducible first | exact starting_ready.2.1 | exact starting_ready.2.2 | exact starting_ready.1.1 | exact starting_ready.1.2)
    | decide +kernel
    | ((with_reducible refine (maintained_serves _ ?_).1); decide)
    | ((with_reducible refine (maintained_serves _ ?_).2); decide)
    | exact fun op h => maintained_serves op (by revert op; decide)

/-! ## NAND storage -/

/-- A write of file 6/22 in front: in its first page without a block, in its second with one, and in its last. -/
def job0 (blocks : List Nat) (page : Nat) (kind : JobKind) : NJob :=
  { kind := kind, part := 6, idx := 22, version := 0, blob := { len := 16, cells := [] }, copies := 1, done := [], blocks := blocks, page := page,
    pages := 2, old := [40], pair := none, retried := false }
def writing (blocks : List Nat) (page : Nat) (kind : JobKind) : State := State.settle { works [(Reg.FLT_REACT_BR 168, 0)] with nand := { fittedNand with
  jobs := [job0 blocks page kind] } }
def upkeep : State := State.settle { works [(Reg.NFC_CTRL_SCRUB_EN, 1), (Reg.FLT_REACT_BR 168, 0)] with nand := { fittedNand with erasing := [30], refresh := [40] } }
theorem writing_ready : (writing [] 0 .file).Ready ∧ (writing [30] 0 .file).Ready ∧ (writing [30] 1 .file).Ready ∧ (writing [30] 1 .checkpoint).Ready ∧ upkeep.Ready := by
  unfold State.Ready; decide +kernel
theorem writing_holds : (writing [] 0 .file).NandHolds ∧ upkeep.NandHolds := by
  have h : ∀ k : Fin 10, (writing [] 0 .file).on (Reg.FLT_REACT_BR (160 + k)) = false ∧ upkeep.on (Reg.FLT_REACT_BR (160 + k)) = false := by decide +kernel
  constructor <;> (intro n h1 h2; have := h ⟨n - 160, by omega⟩; simp only [Nat.add_sub_cancel' h1] at this)
  · exact this.1
  · exact this.2

/-- The window closes on a program under way; on none. -/
def closing (underway : Bool) : State := State.settle { works [(Reg.FLT_REACT_BR 168, 0), (Reg.THM_STATUS_NAND_OK, 0)] with nand := { fittedNand with
  jobs := [job0 [30] 0 .file], underway := underway } }
/-- The second copy of a file is being written, or a file without a version, into a pool of 7 free blocks. -/
def crowded : State := State.settle { works [(Reg.FLT_REACT_BR 168, 0)] with nand := { Nand.blank with part := some { part0 with blocks := 9 }, jobs := [job0 [] 0 .file] } }
theorem closing_ready : (closing true).Ready ∧ (closing false).Ready ∧ crowded.Ready := by unfold State.Ready; decide +kernel

theorem witness_PagePrograms : (closing true).Ready ∧ (closing true).mayEnd = true ∧ (closing true).nandWindow = false ∧ (closing false).Ready ∧
    (closing false).mayEnd = false ∧ (writing [] 0 .file).mayEnd = true ∧ 8 ≤ (writing [] 0 .file).nand.free.length ∧ crowded.Ready ∧
    crowded.mayEnd = true ∧ crowded.nand.free.length = 7 ∧ crowded.nand.file 6 22 = none ∧ (writing [] 0 .file).Ready ∧ (writing [] 0 .file).NandHolds ∧
    (∀ j ∈ (writing [] 0 .file).nand.jobs, j.page + 1 < j.pages ∧ j.blocks.length ≤ j.page / (writing [] 0 .file).nand.ppb ∧
      (writing [] 0 .file).nand.pick.isSome = true) ∧ (writing [30] 0 .file).Ready ∧
    (∀ j ∈ (writing [30] 0 .file).nand.jobs, j.page + 1 < j.pages ∧ j.page / (writing [30] 0 .file).nand.ppb < j.blocks.length ∧ j.blocks.getLast? = some 30) ∧
    (writing [30] 1 .file).Ready ∧ (∀ j ∈ (writing [30] 1 .file).nand.jobs, j.page + 1 = j.pages ∧ j.blocks ≠ [] ∧ j.kind = .file ∧ j.copies ≤ j.done.length + 1) ∧
    (writing [30] 1 .file).recovery = false ∧ ((writing [30] 1 .file).nand.file 6 22).isSome = true ∧ (writing [30] 1 .checkpoint).Ready := by
  repeat' (with_reducible refine And.intro ?_ ?_)
  all_goals first
    | (with_reducible first | exact writing_ready.1 | exact writing_holds.1 | exact writing_ready.2.1 | exact writing_ready.2.2.1 | exact writing_ready.2.2.2.1 | exact closing_ready.1 | exact closing_ready.2.1 | exact closing_ready.2.2)
    | decide +kernel

theorem witness_ErasesAndTimeouts : upkeep.mayEnd = true ∧ (closing false).Ready ∧ (closing false).mayEnd = false ∧ upkeep.Ready ∧ upkeep.NandHolds ∧ upkeep.nand.erasing = 30 :: [] ∧ upkeep.nand.part ≠ none ∧ idle.Ready ∧ idle.nand.part = none ∧
    (writing [30] 1 .file).Ready ∧ (writing [30] 1 .file).on (Reg.FLT_REACT_BR 168) = false := by
  repeat' (with_reducible refine And.intro ?_ ?_)
  all_goals first
    | (with_reducible first | exact writing_ready.2.2.2.2 | exact writing_holds.2 | exact idle_ready | exact writing_ready.2.2.1 | exact closing_ready.2.1)
    | decide +kernel

/-- The last block and page; a sector of block 40 that belongs to a file of one copy. -/
theorem witness_ReadsAndRefresh : upkeep.Ready ∧ upkeep.NandHolds ∧ 63 < upkeep.nand.total ∧ upkeep.nand.total ≤ 64 ∧ 63 < upkeep.nand.ppb ∧
    upkeep.nand.erasedAt 40 0 0 = false ∧ upkeep.nand.erasedAt 40 63 3 = true ∧ upkeep.nand.erasedAt 63 63 0 = true ∧
    (upkeep.nand.block 40).owner ≠ none ∧ upkeep.nand.filesIn 40 = [file0 6 22 40] ∧ (file0 6 22 40).copies.length < 2 ∧
    upkeep.nand.refresh = 40 :: [] ∧ upkeep.nand.movingTwin 40 = false ∧ upkeep.nandReady = true ∧ upkeep.nandWindow = true ∧
    0 < upkeep.rd Reg.NFC_CFG_REFRESH_BITS ∧ 1 < upkeep.rd Reg.NFC_SCRUB_CFG_RD_LIMIT_K * 1000 := by
  repeat' (with_reducible refine And.intro ?_ ?_)
  all_goals first
    | (with_reducible first | exact writing_ready.2.2.2.2 | exact writing_holds.2)
    | decide +kernel

/-- The scrub has passed the last block in use. -/
def scrubbed : State := State.settle { upkeep with nand := { upkeep.nand with scrubNext := 63 } }
theorem scrubbed_ready : scrubbed.Ready := by unfold State.Ready; decide +kernel
theorem scrubbed_blocks : scrubbed.nand.scrubNext = 63 ∧ ∀ c ∈ scrubbed.nand.inUse ++ scrubbed.nand.bootBlocks, c < 63 := by decide +kernel
theorem witness_StorageUpkeep : upkeep.Ready ∧ upkeep.nand.jobs.any (fun j => j.kind = .checkpoint) = false ∧ upkeep.nandReady = true ∧ upkeep.nandWindow = true ∧
    upkeep.on Reg.NFC_CTRL_SCRUB_EN = true ∧ 41 ∈ upkeep.nand.inUse ∧ 0 ∈ upkeep.nand.bootBlocks ∧ upkeep.nand.scrubNext ≤ 0 ∧
    upkeep.nand.extreme true upkeep.nand.inUse = some 40 ∧ upkeep.nand.extreme false upkeep.nand.free = some 20 ∧
    (upkeep.nand.block 40).erases + 1000 < (upkeep.nand.block 41).erases ∧ upkeep.nand.movedAt = none ∧
    scrubbed.Ready ∧ (∀ c, scrubbed.nand.scrubNext ≤ c → c ∉ scrubbed.nand.inUse ∧ c ∉ scrubbed.nand.bootBlocks) ∧
    (writing [] 0 .checkpoint).nand.jobs.any (fun j => j.kind = .checkpoint) = true ∧ idle.Ready ∧ idle.nandReady = false := by
  repeat' (with_reducible refine And.intro ?_ ?_)
  all_goals first
    | (with_reducible first | exact writing_ready.2.2.2.2 | exact idle_ready | exact scrubbed_ready)
    | (with_reducible exact fun c h => ⟨fun k => absurd (scrubbed_blocks.2 c (List.mem_append_left _ k)) (Nat.not_lt.mpr (scrubbed_blocks.1 ▸ h)), fun k => absurd (scrubbed_blocks.2 c (List.mem_append_right _ k)) (Nat.not_lt.mpr (scrubbed_blocks.1 ▸ h))⟩)
    | decide +kernel

/-! ## The block as a whole -/

theorem witness_StepRunsTheFrontCommand : ({ State.reset with pending := [.getIdentity .openPair] } : State).pending = .getIdentity .openPair :: [] ∧
    State.reset.pending = [] := ⟨rfl, rfl⟩

theorem witness_OtpNeverFalls : ∃ t, step State.reset = .next t ∧ (({ State.reset with sec := fittedSec } : State).sec.otp.byte 0xE0).getLsbD 0 = true :=
  ⟨_, rfl, by decide +kernel⟩

theorem witness_EveryStepKeeps : ∃ t, step State.reset = .next t ∧ Memory.wf State.reset.bas.mem = true ∧ Memory.wf State.reset.mgmt.sram = true ∧
    Memory.wf State.reset.sec.otp = true := ⟨_, rfl, by decide, by decide, by decide⟩

/-! ## Results that the spec's tables and worked examples give -/

/-- What a command leaves, where it answers a next state. -/
def after (i : Instr) (s : State) (p : State → Bool) : Bool :=
  match exec i s with
  | .next t => p t
  | _ => false

/-- "123456789" (R277, R310). -/
def checkBytes : List Byte := [0x31#8, 0x32#8, 0x33#8, 0x34#8, 0x35#8, 0x36#8, 0x37#8, 0x38#8, 0x39#8]
theorem test_check_values : crc32 checkBytes = 0xCBF43926 ∧ crc32c checkBytes = 0xE3069283 ∧ crc16 checkBytes = 0x29B1 ∧ crc8 checkBytes = 0xDF := by
  decide +kernel

/-- ch. 2, clamping. -/
theorem test_rate_clamps : clampRate 120 20 = (120, 16) ∧ clampRate 250 16 = (240, 7) ∧ clampRate 120 0 = (120, 14) := by decide
theorem test_rate_write : after (.seqRateWrite .mgmt 250 16) State.reset (fun t => t.F = 240 && t.S = 7) = true := by decide +kernel

/-- ch. 8, one warm request: D = 24,961 and the glare ceiling's 16,640. -/
theorem test_split_word : wordK (splitWord 24961) = 25 ∧ wordP (splitWord 24961) = 998 ∧ wordK (splitWord 16640) = 17 ∧ wordP (splitWord 16640) = 979 := by decide

/-- ch. 4, assembling a bundle. -/
theorem test_bundle_words : Fields.bits ⟨4, 4, 0, 0, 0x40⟩ 0x01#6 = 0x04840040#32 ∧ Fields.bits ⟨5, 1, 6, 2, 0xC0⟩ 0x30#6 = 0xC0A132C0#32 ∧
    immBits ⟨4, 4, 0, 0, 0x40⟩ = 64#13 := by decide

/-- ch. 4, one pixel from sample to request: OVER of 22,500 on 4,000 at 49,152. -/
theorem test_blend_over : blendLane 0 4000 22500 49152 = some 17875 := by decide

/-- R67, R70, R71: the sign of imm13, and a register that is source and destination. -/
theorem test_addi_negative : after (.scalarImmOp .mgmt .addi ⟨1, 1, 0x1F, 0, 0xFF⟩) (sramAt 0x6100000#32) (fun t => t.mgmt.x[(1 : Fin 32)] = 0x60FFFFF#32) = true := by
  decide +kernel
theorem test_srai_sign : immResult 16 .srai 0x8000#16 15#13 = 0xFFFF#16 ∧ aluResult 16 0x11 0x8000#16 0x8000#16 = some 0x4000#16 := by decide
theorem test_divide_corners : divResult 0x14 0x80000000#32 0xFFFFFFFF#32 = some 0x80000000#32 ∧ divResult 0x15 5#32 0#32 = some 0xFFFFFFFF#32 := by decide

/-- R63: TRAP saves its own address and the minor as the value. -/
theorem test_trap : after (.trap .mgmt ⟨0, 0, 0, 0, 0x5A⟩) State.reset (fun t =>
    t.mgmt.trapCause = 9#32 && t.mgmt.trapPc = 0x06000000#32 && t.mgmt.trapVal = 0x5A#32 && t.mgmt.trapActive) = true := by decide +kernel

/-- R72: LI then LUI. -/
theorem test_lui_keeps_low : after (.lui .mgmt ⟨1, 0, 0x1F, 7, 0xFF⟩) (sramAt 0x617FFFC#32) (fun t => t.mgmt.x[(1 : Fin 32)] = 0xFFFFFFFC#32) = true := by decide +kernel

/-- R139: a placement runs to the end of the pool at most. -/
theorem test_place_clamps : after (.berthPlace .mgmt 63 0x7FFF 0xFFFF) State.reset (fun t => t.rd (Reg.BAS_BERTH_PLACE_SIZE 63) = 1) = true := by decide +kernel

/-- R24: an invalid edge counts. -/
theorem test_bad_edge : after (.frameSyncEdge (20000000000 + 999500000 / syncing.F - 1) true) syncing (fun t =>
    t.rd Reg.SEQ_SYNC_STATUS_BAD_EDGES = 1 && t.sticky 97) = true := by decide +kernel

end Sys2Proof.Tests
end

section
/-!
Word writes of the register rows that a requester's gate lets through, and a COMMIT that lands while the first sluice since STOPPED is awaited
(R31, R33, R404).
-/
namespace Sys2Proof.Machine

/-! ## Word writes -/

theorem length_leBytes (v n : Nat) : (leBytes v n).length = n := by
  induction n generalizing v with
  | zero => rfl
  | succ n ih => rw [leBytes, List.length_cons, ih]

theorem ofLE_leBytes (v n : Nat) : ofLE (leBytes v n) = v % 256 ^ n := by
  induction n generalizing v with
  | zero => simp [leBytes, ofLE, Nat.mod_one]
  | succ n ih => rw [leBytes, ofLE, ih, BitVec.toNat_ofNat, Nat.pow_succ' (m := 256), Nat.mod_mul]

theorem leAt_leBytes_word {v : Nat} (hv : v < 2 ^ 32) : leAt (leBytes v 4) 0 4 = v := by
  rw [leAt, List.drop_zero, List.take_of_length_le (length_leBytes v 4).le, ofLE_leBytes, Nat.mod_eq_of_lt (by omega)]

theorem widthOf_word {off : Nat} (ho : off % 4 = 0) : widthOf (regBase + off) 4 = .words 1 := by
  have h : 0 < 4 ∧ 4 % 4 = 0 ∧ (regBase + off) % 4 = 0 := ⟨by decide, rfl, by unfold regBase; omega⟩
  rw [widthOf, if_pos h]

/-- A word write of a listed register that passes its requester's gate is the field-by-field write of that register. -/
theorem State.writeReg_eq_writeWord {s : State} {who : Sys2Proof.Requester} {off v : Nat} (hr : s.mode.phase ≠ .reset) (hw : s.MayWrite who off)
    (ho : off % 4 = 0) (hlt : off < 0x10000) (hl : (Reg.fieldsAt off).isSome = true) (hv : v < 2 ^ 32) :
    s.writeReg who off v = s.writeWord who (regBase + off) off v 0xFFFFFFFF := by
  have ha : regBase + off < aliasBase := by simp only [regBase, aliasBase]; omega
  have hbus : s.busWrite who (regBase + off) (leBytes v 4) = s.writeWord who (regBase + off) off v 0xFFFFFFFF := by
    rw [State.busWrite, length_leBytes, widthOf_word ho]
    simp only [State.busWriteWords, if_neg hr, State.busWriteWord, if_pos ha, Nat.add_sub_cancel_left, leAt_leBytes_word hv]
  have hd : coreDiscards (regBase + off) 4 = false := by
    rw [coreDiscards, widthOf_word ho]
    simp only [listedAt, if_pos ha, Nat.add_sub_cancel_left, hl, Bool.not_true]
  unfold State.writeReg State.regWrite
  rw [length_leBytes, if_neg (by simp only [show s.reaches who true (regBase + off) 4 = true from hw]; decide)]
  cases who with
  | mgmt => simpa [State.coreBusWrite, length_leBytes, hd] using hbus
  | host => exact hbus
  | debug => exact hbus

/-! ## COMMIT (R31, R33) -/

/-- The field takes its 1 first, and the write lands after it. -/
theorem State.writeWord_commit (s : State) (who : Sys2Proof.Requester) (addr : Nat) :
    s.writeWord who addr 0x1004 1 0xFFFFFFFF = (s.put Reg.SEQ_COMMIT_COMMIT 1).setCommit := rfl

theorem exec_commit {s : State} {who : Sys2Proof.Requester} (h : s.Ready) (hw : s.MayWrite who 0x1004) :
    exec (.commit who) s = .next (s.put Reg.SEQ_COMMIT_COMMIT 1).setCommit :=
  calc exec (.commit who) s
      = s.command (fun s => s.writeReg who 0x1004 1) := rfl
    _ = .next (s.writeReg who 0x1004 1) := State.command_ready h _
    _ = .next (s.put Reg.SEQ_COMMIT_COMMIT 1).setCommit := by
      rw [State.writeReg_eq_writeWord h.2 hw rfl (by decide) (by decide) (by decide), State.writeWord_commit]

theorem State.recent_setCommit {s : State} (hf : s.seq.first = true) :
    s.setCommit.seq.recent = s.seq.recent.filter (fun x => s.within x.time s.now 4) ++
      [{ time := s.now, before := s.takeSnap, commit := true, load := false }] := by
  simp only [State.setCommit, State.landing, if_pos hf, State.commitBit, State.seq_put]

/-- The newest landing notes as "before" a COMMIT that reads 1 already, whatever it read when the write came. -/
theorem before_of_exec_commit {s t : State} {who : Sys2Proof.Requester} (h : s.Ready) (hw : s.MayWrite who 0x1004) (hf : s.seq.first = true)
    (ht : exec (.commit who) s = .next t) : t.seq.recent.getLast?.map (fun l => l.before.commit) = some true := by
  rw [exec_commit h hw] at ht
  cases ht
  rw [State.recent_setCommit (by exact hf), List.getLast?_concat]
  simp [State.takeSnap, State.on]

theorem State.ready_reset : State.reset.Ready := by unfold State.Ready; decide +kernel

theorem State.mayWrite_commit_reset : State.reset.MayWrite .mgmt 0x1004 := by unfold State.MayWrite; decide +kernel

/-- Refutes O35: at reset the first sluice is awaited and COMMIT reads 0. The statement asks that the landing of a COMMIT be noted with what
stood before it, so with COMMIT 0 (R31). The model's `State.writeWord` puts 1 into the field before the write's own effects, so that the landing
is noted with COMMIT 1. -/
theorem not_sequencerRequests : ¬ Obligations.SequencerRequests := by
  unfold Obligations.SequencerRequests
  intro h
  have hf : State.reset.seq.first = true := rfl
  have h0 : State.reset.takeSnap.commit = false := rfl
  obtain ⟨hcommit, -⟩ := h State.reset .mgmt State.ready_reset
  obtain ⟨t, ht, -, -, hframe⟩ := hcommit State.mayWrite_commit_reset
  have hnoted := before_of_exec_commit State.ready_reset State.mayWrite_commit_reset hf ht
  have hrecent := congrArg (fun u : State => u.seq.recent) hframe
  simp only [if_pos hf] at hrecent
  rw [hrecent, List.getLast?_concat, Option.map_some, h0] at hnoted
  exact absurd hnoted (by decide)

end Sys2Proof.Machine
end

section

/-! # What reset leaves live (O57) -/

namespace Sys2Proof.Machine

/-- Source 32, the host link not running, is a state source whose live bit follows the link (R250, R270). -/
theorem State.live_linkDown {s : State} (h : s.linkRunning 0 = false) : s.live 32 = true := by
  simp [State.live, h]

theorem State.linkRunning_reset : State.reset.linkRunning 0 = false := by decide

/-- Refutes O57: at reset the host link does not run, so FS032 is live: its live bit is the link's state (R250, R270), not a bit that a raise
has set. The statement asks that every source's live bit be clear. -/
theorem not_resetState : ¬ Obligations.ResetState := by
  unfold Obligations.ResetState
  rintro ⟨-, -, -, -, -, -, -, -, -, -, -, hfaults, -⟩
  obtain ⟨-, hlive⟩ := hfaults 32 (by decide)
  rw [State.live_linkDown State.linkRunning_reset] at hlive
  exact Bool.noConfusion hlive

end Sys2Proof.Machine
end

section

/-! # Frame sync (O11) -/

namespace Sys2Proof.Machine

/-! ## Bits, sync state, and the commands of frame sync -/

/-- A bit set reads 1. -/
theorem State.on_flag_self (s : State) {f : Fld} (hw : 0 < f.w) : (s.flag f).on f = true := by
  have h : (s.flag f).rd f = 1 := s.rd_put_fits (Nat.one_lt_two_pow (by omega))
  simp [State.on, h]

theorem State.on_congr {s t : State} {f : Fld} (h : t.rd f = s.rd f) : t.on f = s.on f := by rw [State.on, h, State.on]

theorem State.setSync_changes {s : State} {x : SyncState} (h : s.seq.state ≠ x) :
    s.setSync x = State.flag { s with seq := { s.seq with state := x } } Reg.SEQ_EVENT_SYNC_CHANGE := if_neg h

theorem exec_frameSyncEdge {s : State} (h : s.Ready) (at_ : Nat) (rising : Bool) :
    exec (.frameSyncEdge at_ rising) s = .next (s.frameSyncEdge at_ rising) :=
  State.command_ready h (fun s => s.frameSyncEdge at_ rising)

theorem exec_syncEdgeTimeout {s : State} (h : s.Ready) : exec .syncEdgeTimeout s = .next s.edgeTimeout := State.command_ready h _

theorem exec_holdoverExpire {s : State} (h : s.Ready) : exec .holdoverExpire s = .next s.holdoverExpire := State.command_ready h _

theorem exec_freeStart {s : State} (h : s.Ready) : exec .freeStart s = .next s.freeStart := State.command_ready h _

/-! ## Edges (R24, R27) -/

/-- An active edge at a time begins an interval. -/
def State.edgeSeen (s : State) (at_ : Nat) : State := { s with now := at_, seq := { s.seq with lastEdge := some at_ } }

/-- A valid interval of n ns that ends with an edge: what is captured of it. -/
def State.measured (s : State) (at_ n : Nat) : State := ((s.edgeSeen at_).put Reg.SEQ_SYNC_PERIOD_PERIOD n).captureEdge

theorem State.frameSyncEdge_inactive {s : State} {at_ : Nat} {rising : Bool} (h : s.now ≤ at_) (hr : rising = s.on Reg.SEQ_CTRL_SYNC_EDGE) :
    s.frameSyncEdge at_ rising = { s with now := at_ } := by
  rw [State.frameSyncEdge, Nat.max_eq_right h]
  exact if_pos hr

/-- What an active edge does, by the one before it. -/
theorem State.frameSyncEdge_active {s : State} {at_ : Nat} {rising : Bool} (h : s.now ≤ at_) (hr : rising ≠ s.on Reg.SEQ_CTRL_SYNC_EDGE) :
    s.frameSyncEdge at_ rising = match s.seq.lastEdge with
      | none => s.edgeSeen at_
      | some e =>
        if at_ - e < lcMin s.F ∨ lcMax s.F < at_ - e then ((s.edgeSeen at_).inc Reg.SEQ_SYNC_STATUS_BAD_EDGES).raise 97
        else (s.measured at_ (at_ - e)).validEdge at_ (decide (s.seq.runAt ≤ e)) := by
  rw [State.frameSyncEdge, Nat.max_eq_right h]
  exact if_neg hr

/-- The registers of a valid interval: its length, the count of captures, and nothing else. -/
theorem State.rd_measured (s : State) (at_ n : Nat) {g : Fld} (hp : Reg.SEQ_SYNC_PERIOD_PERIOD.key ≠ g.key) (he : Reg.LNK_TIME_EDGE_EDGE.key ≠ g.key) :
    (s.measured at_ n).rd g = s.rd g :=
  (State.rd_put_other _ _ he).trans (State.rd_put_other _ _ hp)

theorem State.rd_measured_period (s : State) (at_ : Nat) {n : Nat} (h : n < 2 ^ 32) : (s.measured at_ n).rd Reg.SEQ_SYNC_PERIOD_PERIOD = n :=
  (State.rd_put_other _ _ (by decide)).trans (State.rd_put_fits _ h)

theorem lcMax_lt (f : Nat) : lcMax f < 2 ^ 32 := by
  unfold lcMax ceilDiv
  rcases Nat.eq_zero_or_pos f with rfl | hf
  · decide
  · rw [Nat.div_lt_iff_lt_mul hf]
    omega

/-- The second edge of a pair after RUN, in time, makes LOCKED and places the first sluice (R27). -/
theorem State.validEdge_starts {s : State} {at_ : Nat} (hs : s.seq.state = .stopped) (hr : s.on Reg.SEQ_CTRL_RUN = true) (hn : s.seq.next = none)
    (ht : at_ * s.F ≤ s.seq.runAt * s.F + 2000000000) (ha : s.aligning = false) {n : Nat} (hd : n = at_ + s.actv Reg.SEQ_SYNC_CFG_SYNC_DELAY) :
    s.validEdge at_ true = State.flag { s with seq := { s.seq with
      lastValid := some at_, target := some n, pend := some n, next := some n, state := .locked } } Reg.SEQ_EVENT_SYNC_CHANGE := by
  subst hd
  have hi : s.inStart at_ = true := decide_eq_true ht
  have hmay : (s.on Reg.SEQ_CTRL_RUN && s.seq.next.isNone && true && s.inStart at_ && !s.aligning) = true := by simp [hr, hn, hi, ha]
  unfold State.validEdge
  refine (if_pos hs).trans ((if_pos hmay).trans (State.setSync_changes ?_))
  simp [hs]

/-- A valid edge that starts the sequencer: what it leaves. -/
theorem State.measured_starts {s : State} {at_ n : Nat} (hn32 : n < 2 ^ 32) (hs : s.seq.state = .stopped) (hr : s.on Reg.SEQ_CTRL_RUN = true)
    (hn : s.seq.next = none) (ht : at_ * s.F ≤ s.seq.runAt * s.F + 2000000000) (ha : s.aligning = false) :
    ∃ t, (s.measured at_ n).validEdge at_ true = t ∧ t.seq.next = some (at_ + s.actv Reg.SEQ_SYNC_CFG_SYNC_DELAY) ∧ t.seq.state = .locked ∧
      t.on Reg.SEQ_EVENT_SYNC_CHANGE = true ∧ t.rd Reg.SEQ_SYNC_PERIOD_PERIOD = n ∧
      t.rd Reg.SEQ_SYNC_STATUS_BAD_EDGES = s.rd Reg.SEQ_SYNC_STATUS_BAD_EDGES := by
  have hF : (s.measured at_ n).F = s.F := s.rd_measured at_ n (by decide) (by decide)
  have hrun : (s.measured at_ n).on Reg.SEQ_CTRL_RUN = true := (State.on_congr (s.rd_measured at_ n (by decide) (by decide))).trans hr
  have halign : (s.measured at_ n).aligning = false := by
    rw [State.aligning, s.rd_measured at_ n (by decide) (by decide)]
    exact ha
  rw [State.validEdge_starts (s := s.measured at_ n) hs hrun hn (by rw [hF]; exact ht) halign rfl]
  refine ⟨_, rfl, rfl, rfl, State.on_flag_self _ (by decide), ?_, ?_⟩
  · exact (State.rd_flag_other _ (by decide)).trans (s.rd_measured_period at_ hn32)
  · exact (State.rd_flag_other _ (by decide)).trans (s.rd_measured at_ n (by decide) (by decide))

/-! ## Time-outs of frame sync (R27) -/

theorem State.edgeTimeout_idle {s : State} (h : s.followsTwin = true ∨ s.seq.first = true ∨ s.seq.state ≠ .locked ∧ s.seq.state ≠ .acquire) :
    s.edgeTimeout = s := by
  unfold State.edgeTimeout
  by_cases hf : (s.followsTwin || s.seq.first) = true
  · exact if_pos hf
  · rw [if_neg hf]
    rcases h with h | h | ⟨hl, ha⟩
    · simp [h] at hf
    · simp [h] at hf
    · cases hs : s.seq.state <;> simp_all

/-- The end of the window after the last valid edge: HOLDOVER. -/
theorem State.edgeTimeout_holds {s : State} {n : Nat} (hf : s.followsTwin = false) (h1 : s.seq.first = false)
    (hs : s.seq.state = .locked ∨ s.seq.state = .acquire) (hn : n = match s.seq.lastValid with
      | some e => max s.now (e + lcMax s.F + 1)
      | none => s.now) :
    s.edgeTimeout = State.flag { s with now := n, seq := { s.seq with state := .holdover, holdLcs := 0 } } Reg.SEQ_EVENT_SYNC_CHANGE := by
  subst hn
  unfold State.edgeTimeout
  rw [if_neg (by simp [hf, h1])]
  rcases hs with hs | hs
  all_goals
    rw [hs]
    exact State.setSync_changes (by simp [hs])

theorem State.holdoverExpire_idle {s : State} (h : s.seq.state ≠ .holdover ∨ s.seq.holdLcs < s.rd Reg.SEQ_SYNC_CFG_HOLDOVER_LC) :
    s.holdoverExpire = s := if_neg (by rcases h with h | h <;> simp [h])

/-- A source that is not live is raised by its condition. -/
theorem State.condition_onset {s : State} {n : Nat} (h : s.live n = false) (locus : Option Nat := none) :
    s.condition n true locus = s.raise n locus := by simp [State.condition, h]

theorem State.holdoverExpire_free {s : State} (hs : s.seq.state = .holdover) (hn : s.rd Reg.SEQ_SYNC_CFG_HOLDOVER_LC ≤ s.seq.holdLcs)
    (hl : s.live 96 = false) :
    s.holdoverExpire = State.raise (State.flag { s with seq := { s.seq with state := .free } } Reg.SEQ_EVENT_SYNC_CHANGE) 96 := by
  have hlive : (State.flag { s with seq := { s.seq with state := .free } } Reg.SEQ_EVENT_SYNC_CHANGE).live 96 = false := by
    have hrd : (State.flag { s with seq := { s.seq with state := .free } } Reg.SEQ_EVENT_SYNC_CHANGE).rd (Reg.FLT_LIVE_LIVE (96 / 32)) =
      s.rd (Reg.FLT_LIVE_LIVE (96 / 32)) := State.rd_flag_other _ (by decide)
    simpa [State.live, State.bitOf, hrd] using hl
  unfold State.holdoverExpire
  rw [if_pos ⟨hs, hn⟩, State.setSync_changes (by simp [hs]), State.condition_onset hlive]

theorem State.freeStart_idle {s : State} (h : s.seq.state ≠ .stopped ∨ s.on Reg.SEQ_CTRL_RUN = false ∨ s.seq.next ≠ none ∨ s.aligning = true) :
    s.freeStart = s := if_neg (by rintro ⟨hs, hr, hn, ha⟩; simp_all)

theorem State.freeStart_places {s : State} {t : Nat} (hs : s.seq.state = .stopped) (hr : s.on Reg.SEQ_CTRL_RUN = true) (hn : s.seq.next = none)
    (ha : s.aligning = false) (ht : t = s.seq.runAt + (2000000000 + s.F / 2) / s.F) :
    s.freeStart = State.flag { s with now := max s.now t, seq := { s.seq with state := .free, next := some t } } Reg.SEQ_EVENT_SYNC_CHANGE := by
  subst ht
  unfold State.freeStart
  rw [if_pos ⟨hs, hr, by simp [hn], by simp [ha]⟩]
  exact State.setSync_changes (by simp [hs])

/-- 2 / F in nanoseconds, to the nearest one. -/
theorem two_frame_periods_nearest (f : Nat) : 2 * ((2000000000 + f / 2) / f) * f ≤ 4000000000 + f ∧
    (0 < f → 4000000000 ≤ 2 * ((2000000000 + f / 2) / f) * f + f) := by
  generalize hn : (2000000000 + f / 2) / f = n
  have hle : n * f ≤ 2000000000 + f / 2 := hn ▸ Nat.div_mul_le_self _ _
  have hlt (hf : 0 < f) : 2000000000 + f / 2 < n * f + f := hn ▸ Nat.lt_div_mul_add hf
  rw [Nat.mul_assoc]
  omega

/-- Settles O11: an edge by its polarity, by the edge before it and by the length of the interval between them; a time-out by one equation
where it acts and one where it does nothing. -/
theorem frameSync : Obligations.FrameSync := by
  unfold Obligations.FrameSync
  refine ⟨fun s at_ rising h hnow => ⟨fun hr => ?_, fun hr u hu => ⟨fun hl => ?_, fun e hl _ => ⟨fun hbad => ?_,
      fun hlo hhi hs hrun hn hwhole ht ha => ?_⟩⟩⟩,
    fun s h => ⟨fun hf h1 hs => ⟨fun e n hl hn => ?_, fun hl => ?_⟩, fun hidle => ?_, fun hs hn hl => ?_, fun hidle => ?_,
      fun hs hr hn ha => ?_, fun hidle => ?_⟩⟩
  · rw [exec_frameSyncEdge h, State.frameSyncEdge_inactive hnow hr]
  · rw [exec_frameSyncEdge h, State.frameSyncEdge_active hnow hr, hl, hu]
    rfl
  · rw [exec_frameSyncEdge h, State.frameSyncEdge_active hnow hr, hl, hu]
    exact congrArg _ (if_pos hbad)
  · rw [exec_frameSyncEdge h, State.frameSyncEdge_active hnow hr, hl]
    obtain ⟨t, hst, hleft⟩ := State.measured_starts (n := at_ - e) (lt_of_le_of_lt hhi (lcMax_lt _)) hs hrun hn ht ha
    refine ⟨t, congrArg _ ((if_neg ?_).trans ?_), hleft⟩
    · simp only [lcMin, lcMax]; omega
    · rw [decide_eq_true hwhole, hst]
  · rw [exec_syncEdgeTimeout h, State.edgeTimeout_holds hf h1 hs (n := n) (by rw [hl]; exact hn)]
  · rw [exec_syncEdgeTimeout h, State.edgeTimeout_holds hf h1 hs (n := s.now) (by rw [hl])]
  · rw [exec_syncEdgeTimeout h, State.edgeTimeout_idle hidle]
  · rw [exec_holdoverExpire h, State.holdoverExpire_free hs hn hl]
  · rw [exec_holdoverExpire h, State.holdoverExpire_idle hidle]
  · exact ⟨_, (exec_freeStart h).trans (congrArg _ (State.freeStart_places hs hr hn ha rfl)), two_frame_periods_nearest s.F⟩
  · rw [exec_freeStart h, State.freeStart_idle hidle]

end Sys2Proof.Machine
end

section

/-! # The sluice that ends Egress (O12) -/

namespace Sys2Proof.Machine

/-! ## A sluice of a stopped device (R29, R37, R389) -/

/-- A sluice that is placed, with nothing of an earlier one still to be done. -/
theorem State.sluice_placed {s : State} {t : Nat} (hw : s.peer.work = none) (hn : s.seq.next = some t) (errs : List (Nat × Ecc))
    (currents : List ReachCurrent) :
    s.sluice errs currents = (s.sluiceTick t errs currents).1.sluiceGoesOn (s.sluiceTick t errs currents).2 false := by
  have hf : s.sluiceForce = s := by simp only [State.sluiceForce, hw]
  simp only [State.sluice, hf, hn]

theorem exec_sluice {s : State} (h : s.Ready) (errs : List (Nat × Ecc)) (microamps milliamps : List Nat) :
    exec (.sluice errs microamps milliamps) s = .next (s.sluice errs (List.zipWith ReachCurrent.mk microamps milliamps)) :=
  State.command_ready h (fun s => s.sluice errs (List.zipWith ReachCurrent.mk microamps milliamps))

/-- Unpaired and STOPPED, in Egress that nothing requests any more and that had set RUN; a sluice is placed, its tick −4 has passed with
COMMIT 0, and SEQ_LOCK_LOAD.LOAD asks for lock number 5 at a commit. -/
def stoppedInEgress : State := State.settle
  { State.reset.having [(Reg.SEQ_LOCK_LOAD_LOAD, 1), (Reg.SEQ_LOCK_NUMBER_SET_VALUE, 5)] with
    now := 20000000000
    thm := { Thermal.reset with bandsSet := true }
    mode := { State.reset.mode with phase := .running, egress := true, quiet := true, egressSetRun := true }
    seq := { Seq.reset with next := some 20000000000 } }

theorem stoppedInEgress_ready : stoppedInEgress.Ready := by unfold State.Ready; decide +kernel

/-- What is held of its tick −4 commits nothing. -/
theorem stoppedInEgress_held : ∃ x, stoppedInEgress.seq.snap = some x ∧ x.commit = false :=
  Option.map_eq_some_iff.1 (show stoppedInEgress.seq.snap.map Snap.commit = some false by decide +kernel)

/-- Its sluice tick, and the work that the tick leaves. -/
def stoppedInEgressTick : State × SluiceWork := stoppedInEgress.sluiceTick 20000000000 [] []

/-- The sluice commits, and loads the lock number. -/
theorem lockNumber_stoppedInEgress :
    (stoppedInEgressTick.1.sluiceGoesOn stoppedInEgressTick.2 false).rd Reg.SEQ_LOCK_NUMBER_LOCK_NUMBER = 5 := by decide +kernel

/-- Refutes O12: `stoppedInEgress` is unpaired, its first sluice is placed, and tick −4 has held COMMIT 0, so that the statement asks for lock
number 0 + 1. At this sluice Egress ends: it had set RUN and no slot is valid, so leaving it sets COMMIT and clears RUN, and clearing RUN in
STOPPED drops what was held of tick −4. The commit is then that of the present state, whose COMMIT reads 1, and SEQ_LOCK_LOAD.LOAD loads lock
number 5. -/
theorem not_sluices : ¬ Obligations.Sluices := by
  unfold Obligations.Sluices
  rintro ⟨hsluice, -⟩
  have hwork : stoppedInEgress.peer.work = none := by decide +kernel
  have hnext : stoppedInEgress.seq.next = some 20000000000 := by decide +kernel
  obtain ⟨-, hplaced⟩ := hsluice stoppedInEgress [] [] [] stoppedInEgress_ready hwork
  obtain ⟨t, ht, -, -, -, -, -, hunpaired⟩ := hplaced _ hnext
  obtain ⟨-, -, -, -, hruns, -⟩ := hunpaired (by decide +kernel)
  obtain ⟨-, -, -, hlock⟩ := hruns (.inl (by decide +kernel)) (by decide +kernel)
  obtain ⟨x, hx, hcommit⟩ := stoppedInEgress_held
  have hone : t.rd Reg.SEQ_LOCK_NUMBER_LOCK_NUMBER = (stoppedInEgress.rd Reg.SEQ_LOCK_NUMBER_LOCK_NUMBER + 1) % 2 ^ 32 := by
    rw [hlock x hx, if_neg (by simp [hcommit])]
  have hzero : stoppedInEgress.rd Reg.SEQ_LOCK_NUMBER_LOCK_NUMBER = 0 := by decide +kernel
  rw [exec_sluice stoppedInEgress_ready, Host.Outcome.next.injEq, State.sluice_placed hwork hnext] at ht
  rw [← ht, hzero] at hone
  exact absurd (lockNumber_stoppedInEgress.symm.trans hone) (by decide)

end Sys2Proof.Machine
end

section

/-! # What a raise leaves alone -/

namespace Sys2Proof.Machine

/-! ## What a raise leaves alone (R249-R257) -/

/-- Register fields by their keys: those below offset 0x8000, before the links', the security engine's, NAND's, the fault collector's, the register
interface's and the wharf's. -/
def lowKey (k : Nat) : Bool := decide (k < 0x8000 * 32)

/-- The same, and the live words. -/
def lowOrLiveKey (k : Nat) : Bool := lowKey k || (decide (0xD120 * 32 ≤ k) && decide (k < 0xD140 * 32))

/-- The sequencer, the diagnostics, the thermal model and the mode have not changed, nor the register fields whose keys satisfy P. -/
structure State.Leaves (P : Nat → Bool) (s t : State) : Prop where
  seq : t.seq = s.seq
  diag : t.diag = s.diag
  thm : t.thm = s.thm
  mode : t.mode = s.mode
  rd : ∀ g : Fld, P g.key = true → t.rd g = s.rd g

namespace State.Leaves

variable {P : Nat → Bool} {s t u : State}

theorem refl (P : Nat → Bool) (s : State) : s.Leaves P s := ⟨rfl, rfl, rfl, rfl, fun _ _ => rfl⟩

/-- A change of other parts of the state. -/
theorem of_same (hregs : t.regs = s.regs := by rfl) (hseq : t.seq = s.seq := by rfl) (hdiag : t.diag = s.diag := by rfl)
    (hthm : t.thm = s.thm := by rfl) (hmode : t.mode = s.mode := by rfl) : s.Leaves P t :=
  ⟨hseq, hdiag, hthm, hmode, fun g _ => by rw [State.rd, hregs, State.rd]⟩

theorem trans (h : s.Leaves P t) (k : t.Leaves P u) : s.Leaves P u :=
  ⟨k.seq.trans h.seq, k.diag.trans h.diag, k.thm.trans h.thm, k.mode.trans h.mode, fun g hg => (k.rd g hg).trans (h.rd g hg)⟩

theorem mono {Q : Nat → Bool} (hPQ : ∀ k, P k = true → Q k = true) (h : s.Leaves Q t) : s.Leaves P t :=
  ⟨h.seq, h.diag, h.thm, h.mode, fun g hg => h.rd g (hPQ _ hg)⟩

theorem foldl {α : Type} {f : State → α → State} (l : List α) (hf : ∀ (s : State), ∀ a ∈ l, s.Leaves P (f s a)) (s : State) :
    s.Leaves P (l.foldl f s) :=
  List.foldlRecOn l f (refl P s) (fun t ht a ha => ht.trans (hf t a ha))

theorem ite {c : Prop} [Decidable c] (ht : s.Leaves P t) (hu : s.Leaves P u) : s.Leaves P (if c then t else u) := by
  split
  · exact ht
  · exact hu

theorem put (h : s.Leaves P t) {f : Fld} {v : Nat} (hf : P f.key = false) : s.Leaves P (t.put f v) :=
  ⟨h.seq, h.diag, h.thm, h.mode, fun g hg => (t.rd_put_other v (fun e => by simp [e, hg] at hf)).trans (h.rd g hg)⟩

theorem flag (h : s.Leaves P t) {f : Fld} (hf : P f.key = false) : s.Leaves P (t.flag f) := h.put hf
theorem inc (h : s.Leaves P t) {f : Fld} {n : Nat} (hf : P f.key = false) : s.Leaves P (t.inc f n) := h.put hf
theorem incMod (h : s.Leaves P t) {f : Fld} {n : Nat} (hf : P f.key = false) : s.Leaves P (t.incMod f n) := h.put hf
theorem putBit (h : s.Leaves P t) {f : Fld} {i : Nat} {b : Bool} (hf : P f.key = false) : s.Leaves P (t.putBit f i b) := h.put hf

end State.Leaves

/-- Keys above the live words. -/
theorem lowOrLiveKey_above {k : Nat} (h : 0xD140 * 32 ≤ k) : lowOrLiveKey k = false := by
  simp only [lowOrLiveKey, lowKey, Bool.or_eq_false_iff, Bool.and_eq_false_iff, decide_eq_false_iff_not]
  omega

/-- Keys between the low ones and the live words. -/
theorem lowOrLiveKey_between {k : Nat} (hl : 0x8000 * 32 ≤ k) (hh : k < 0xD120 * 32) : lowOrLiveKey k = false := by
  simp only [lowOrLiveKey, lowKey, Bool.or_eq_false_iff, Bool.and_eq_false_iff, decide_eq_false_iff_not]
  omega

theorem lowKey_above {k : Nat} (h : 0x8000 * 32 ≤ k) : lowKey k = false := by
  simp only [lowKey, decide_eq_false_iff_not]
  omega

theorem lowOrLive_of_low (k : Nat) (h : lowKey k = true) : lowOrLiveKey k = true := by simp [lowOrLiveKey, h]

namespace State

theorem leaves_sendMsg (s : State) (code arg : Nat) (payload : List Byte) : s.Leaves lowOrLiveKey (s.sendMsg code arg payload) := by
  simp only [State.sendMsg]
  split
  · exact .inc .of_same (by decide)
  · exact .refl _ _

theorem leaves_signalFault (s : State) (n : Nat) : s.Leaves lowOrLiveKey (s.signalFault n) := by
  have h : s.Leaves lowOrLiveKey (s.flag Reg.RIF_INT_STATUS_FAULT) := .flag (.refl _ _) (by decide)
  unfold State.signalFault
  exact .ite (.ite (h.trans (leaves_sendMsg ..)) h) (.refl _ _)

theorem leaves_escalate (s : State) (n : Nat) : s.Leaves lowOrLiveKey (s.escalate n) := by
  simp only [State.escalate]
  split
  · exact .put (.put .of_same (by decide)) (by decide)
  · exact .refl _ _

theorem leaves_recordRaise (s : State) {n : Nat} (hn : n < 192) (locus : Option Nat) : s.Leaves lowOrLiveKey (s.recordRaise n locus) := by
  have hsticky : lowOrLiveKey (Reg.FLT_STICKY_STICKY (n / 32)).key = false :=
    lowOrLiveKey_between (by simp only [Fld.key]; omega) (by simp only [Fld.key]; omega)
  have hcount : lowOrLiveKey (Reg.FLT_REACT_COUNT n).key = false := lowOrLiveKey_above (by simp only [Fld.key]; omega)
  exact .trans (.inc (.putBit (.refl _ s) hsticky) hcount) .of_same

theorem leaves_fenceChamber (s : State) (c : Nat) : s.Leaves lowOrLiveKey (s.fenceChamber c) := by
  have h : s.Leaves lowOrLiveKey ((s.putBit Reg.FLT_FENCE_CHAMBER c true).putBit Reg.FLT_FENCE_REACH c true) :=
    .putBit (.putBit (.refl _ _) (by decide)) (by decide)
  refine h.trans ?_
  unfold State.fenceChamber
  split
  · exact .of_same
  · exact .refl _ _

theorem leaves_fenceReach (s : State) (k : Nat) : s.Leaves lowOrLiveKey (s.putBit Reg.FLT_FENCE_REACH k true) := .putBit (.refl _ _) (by decide)

theorem leaves_lightReaction (s : State) (n : Nat) (locus : Option Nat) : s.Leaves lowOrLiveKey (s.lightReaction n locus) := by
  unfold State.lightReaction
  extract_lets lasting s1 flt s2
  have h1 : s.Leaves lowOrLiveKey s1 := .ite .of_same (.refl _ _)
  have h2 : s.Leaves lowOrLiveKey s2 := h1.trans (.ite .of_same (.refl _ _))
  refine .ite ?_ h1
  split
  · exact h2
  · exact h2
  · exact h2.trans (leaves_fenceReach ..)
  · exact h2.trans (.ite (leaves_fenceChamber ..) (leaves_fenceReach ..))

theorem leaves_complete (s : State) (p : Pair) (status detail length : Nat) (result : List Byte) :
    s.Leaves lowOrLiveKey (s.complete p status detail length result) := by
  have hkey (f : Nat → Fld) (h0 : 0xD140 * 32 ≤ (f 0).key) (h1 : 0xD140 * 32 ≤ (f 1).key) : lowOrLiveKey (f p.num).key = false := by
    cases p
    · exact lowOrLiveKey_above h0
    · exact lowOrLiveKey_above h1
  unfold State.complete
  extract_lets q entry s1 s2 s3 s4 s5
  have h1 : s.Leaves lowOrLiveKey s1 := .of_same
  have h2 : s.Leaves lowOrLiveKey s2 :=
    .put (.incMod h1 (hkey Reg.WHF_CPL_NEXT_SEQ (by decide) (by decide))) (hkey Reg.WHF_STATUS_BUSY (by decide) (by decide))
  have h3 : s.Leaves lowOrLiveKey s3 := .put h2 (hkey Reg.WHF_STATUS_LAST_STATUS (by decide) (by decide))
  have h4 : s.Leaves lowOrLiveKey s4 := .ite h3 (.inc h3 (hkey Reg.WHF_FAILED_COUNT (by decide) (by decide)))
  have h5 : s.Leaves lowOrLiveKey s5 := .ite (.flag h4 (by decide)) h4
  cases p
  · exact .ite (.trans (.flag h5 (by decide)) (leaves_sendMsg ..)) (.flag h5 (by decide))
  · exact .ite (.trans (.flag h5 (by decide)) (leaves_sendMsg ..)) (.flag h5 (by decide))

theorem leaves_status (s : State) (p : Pair) (code : Nat) : s.Leaves lowOrLiveKey (s.status p code) := leaves_complete ..

theorem leaves_resetCommands (s : State) (served : Nat → Bool) : s.Leaves lowOrLiveKey (s.resetCommands served) :=
  .foldl _ (fun _ _ _ => .ite (leaves_status ..) (.refl _ _)) s

theorem leaves_endHost (s : State) : s.Leaves lowOrLiveKey s.endHost := by
  simp only [State.endHost]
  split
  · exact .refl _ _
  · exact .flag (.put (.put .of_same (by decide)) (by decide)) (by decide)

theorem leaves_endPeer (s : State) : s.Leaves lowOrLiveKey s.endPeer := by
  simp only [State.endPeer]
  split
  · exact .refl _ _
  · exact .flag (.put (.put .of_same (by decide)) (by decide)) (by decide)

theorem leaves_blockClear (s : State) (b : Block) : s.Leaves lowOrLiveKey (s.blockClear b) := by
  cases b with
  | hostLink => exact .flag (.put (.refl _ _) (by decide)) (by decide)
  | peerLink => exact .flag (.put (.refl _ _) (by decide)) (by decide)
  | security => exact ((leaves_endHost s).trans (leaves_endPeer _)).trans (.trans .of_same (leaves_resetCommands ..))
  | nand => exact .trans (.put .of_same (by decide)) (leaves_resetCommands ..)
  | safety => exact leaves_resetCommands ..
  | pairing => exact leaves_resetCommands ..
  | crc => exact leaves_resetCommands ..

theorem leaves_blockReset (s : State) (b : Block) : s.Leaves lowOrLiveKey (s.blockReset b) :=
  .ite (.refl _ _) (.trans .of_same (leaves_blockClear ..))

theorem leaves_requestReset (s : State) (n : Nat) : s.Leaves lowOrLiveKey (s.requestReset n) := .of_same

theorem leaves_controlReaction (s : State) (n : Nat) : s.Leaves lowOrLiveKey (s.controlReaction n) := by
  unfold State.controlReaction
  extract_lets resets s1 s2 s3 s4
  have h1 : s.Leaves lowOrLiveKey s1 := .ite .of_same (.refl _ _)
  have h2 : s.Leaves lowOrLiveKey s2 := h1.trans (.ite .of_same (.refl _ _))
  have hblock : s2.Leaves lowOrLiveKey (match blockOf n with
       | some b => s2.blockReset b
       | none => s2) := by
    split
    · exact leaves_blockReset ..
    · exact .refl _ _
  have h3 : s.Leaves lowOrLiveKey s3 := h2.trans (.ite hblock (.refl _ _))
  have h4 : s.Leaves lowOrLiveKey s4 := h3.trans (.ite .of_same (.refl _ _))
  exact h4.trans (.ite (leaves_requestReset ..) (.refl _ _))

theorem leaves_raiseAt (s : State) {n : Nat} (hn : n < 192) (locus : Option Nat) : s.Leaves lowOrLiveKey (s.raiseAt n locus) :=
  .trans (.trans (.trans (leaves_recordRaise s hn locus) (leaves_signalFault ..)) (leaves_escalate ..))
    (.ite (leaves_lightReaction ..) (leaves_controlReaction ..))

theorem setLive_key (n : Nat) : lowKey (Reg.FLT_LIVE_LIVE (n / 32)).key = false := lowKey_above (by simp only [Fld.key]; omega)

theorem leaves_setLive (s : State) (n : Nat) (b : Bool) : s.Leaves lowKey (s.setLive n b) := .putBit (.refl _ _) (setLive_key n)

theorem leaves_raise (s : State) {n : Nat} (hn : n < 192) (locus : Option Nat) : s.Leaves lowKey (s.raise n locus) :=
  (leaves_setLive s n true).trans (.trans .of_same ((leaves_raiseAt _ hn locus).mono lowOrLive_of_low))

theorem leaves_condition (s : State) {n : Nat} (hn : n < 192) (b : Bool) (locus : Option Nat) : s.Leaves lowKey (s.condition n b locus) :=
  .ite (.ite (.refl _ _) (leaves_raise s hn locus)) (leaves_setLive ..)

end State

end Sys2Proof.Machine
end

section

/-! # Row slots (O17) -/

namespace Sys2Proof.Machine

/-! ## Row slots (R194, R309) -/

/-- The row slots of the lock cycle, the highest VLED and the slot in progress are the same. -/
structure State.SameSlot (s t : State) : Prop where
  slots : t.diag.slots = s.diag.slots
  vled : t.diag.vled = s.diag.vled
  slot : t.diag.slot = s.diag.slot

namespace State.SameSlot

variable {s t u : State}

theorem refl (s : State) : s.SameSlot s := ⟨rfl, rfl, rfl⟩

theorem trans (h : s.SameSlot t) (k : t.SameSlot u) : s.SameSlot u :=
  ⟨k.slots.trans h.slots, k.vled.trans h.vled, k.slot.trans h.slot⟩

theorem of_diag (h : t.diag = s.diag) : s.SameSlot t := ⟨by rw [h], by rw [h], by rw [h]⟩

theorem ite {c : Prop} [Decidable c] (ht : s.SameSlot t) (hu : s.SameSlot u) : s.SameSlot (if c then t else u) := by
  split
  · exact ht
  · exact hu

theorem foldl {α : Type} {f : State → α → State} (hf : ∀ (s : State) a, s.SameSlot (f s a)) (l : List α) (s : State) :
    s.SameSlot (l.foldl f s) :=
  List.foldlRecOn l f (refl s) (fun t ht a _ => ht.trans (hf t a))

end State.SameSlot

namespace State

theorem sameSlot_calMeasure (s : State) (m : SlotMeas) (out : Bool) : s.SameSlot (s.calMeasure m out) := by
  unfold State.calMeasure
  split
  · exact .refl s
  · refine .ite (.refl s) (.ite ⟨rfl, rfl, rfl⟩ (.ite ?_ ⟨rfl, rfl, rfl⟩))
    split
    · exact ⟨rfl, rfl, rfl⟩
    · exact ⟨rfl, rfl, rfl⟩

theorem sameSlot_measureSlot (s : State) (r : ReachId) (m : SlotMeas) (out : Bool) : s.SameSlot (s.measureSlot r m out) :=
  .ite (sameSlot_calMeasure ..) (.ite (.refl s) ⟨rfl, rfl, rfl⟩)

theorem sameSlot_noteSuppressed (s : State) (r : ReachId) (row : Nat) : s.SameSlot (s.noteSuppressed r row) := by
  unfold State.noteSuppressed
  split
  · extract_lets out
    clear_value out
    exact ⟨rfl, rfl, rfl⟩
  · exact .refl s

/-- The next row slot has come: it is counted, none is in progress yet, and VLED is noted. -/
def slotOpened (s : State) (vled : Nat) : State :=
  let t := (s.setDiag { s.diag with slots := s.diag.slots + 1, slot := none }).noteVled vled
  if s.diag.slots = 64 then t.calSlots else t

/-- With VLED driven, row slot n is in progress. -/
def slotDriven (s : State) (n vled : Nat) (meas : List SlotMeas) : State :=
  let out := s.vledOutside vled
  let pulsed := if n / 64 = 0 then all16.filter (fun r => s.reachChecks r && s.slotPulsed r (n % 64)) else []
  let slot : RowSlot := { scan := n / 64, row := n % 64, suspended := out, tripped := [], pulsed := pulsed.map Fin.val, flagged := [], judged := [],
                          rowEvents := [] }
  let s := s.setDiag { s.diag with slot := some slot }
  let s := if out && !s.diag.vledRaised then State.raise (s.setDiag { s.diag with vledRaised := true }) 141 else s
  if n / 64 ≠ 0 then s
  else
    let s := if out then s else pulsed.foldl (fun s r => s.noteSuppressed r (n % 64)) s
    all16.foldl (fun s r => match meas.find? (fun m => m.reach = r) with
      | some m => if s.reachChecks r && !(pulsed.contains r) then s.measureSlot r m out else s
      | none => s) s

theorem rowSlot_cycling {s : State} (vled : Nat) (meas : List SlotMeas) (hc : s.cycling = true) (hn : s.diag.slots < (s.S + 1) * 64) :
    s.rowSlot vled meas =
      if (s.slotOpened vled).vledDrive then (s.slotOpened vled).slotDriven s.diag.slots vled meas else s.slotOpened vled := by
  have hgo : (!s.cycling || decide ((s.S + 1) * 64 ≤ s.diag.slots)) = false := by simp [hc, hn]
  have h : s.rowSlot vled meas = if !(s.slotOpened vled).vledDrive then s.slotOpened vled
      else (s.slotOpened vled).slotDriven s.diag.slots vled meas := if_neg (by rw [hgo]; decide)
  rw [h]
  cases (s.slotOpened vled).vledDrive <;> rfl

theorem diag_calSlots (s : State) : s.calSlots.diag = s.diag := by
  unfold State.calSlots
  split
  · split <;> rfl
  · rfl

theorem vledDrive_calSlots (s : State) : s.calSlots.vledDrive = s.vledDrive := by
  unfold State.calSlots
  split
  · split <;> rfl
  · rfl

theorem diag_slotOpened (s : State) (vled : Nat) :
    (s.slotOpened vled).diag = ((s.setDiag { s.diag with slots := s.diag.slots + 1, slot := none }).noteVled vled).diag := by
  unfold State.slotOpened
  split
  · exact diag_calSlots _
  · rfl

theorem vledDrive_slotOpened (s : State) (vled : Nat) : (s.slotOpened vled).vledDrive = s.vledDrive := by
  unfold State.slotOpened
  split
  · exact vledDrive_calSlots _
  · rfl

/-- The slot that has begun is in progress, and nothing in it has tripped. -/
theorem slotDriven_slot (s : State) (n vled : Nat) (meas : List SlotMeas) :
    ∃ x : RowSlot, x.scan = n / 64 ∧ x.row = n % 64 ∧ x.tripped = [] ∧
      (s.setDiag { s.diag with slot := some x }).SameSlot (s.slotDriven n vled meas) := by
  unfold State.slotDriven
  extract_lets d out pulsed slot s1 d' s2 s3
  have hraised : s1.SameSlot (s1.setDiag { s1.diag with vledRaised := true }) := ⟨rfl, rfl, rfl⟩
  have h12 : s1.SameSlot s2 := .ite (hraised.trans (.of_diag (leaves_raise _ (n := 141) (by decide) none).diag)) (.refl s1)
  have h13 : s1.SameSlot s3 := h12.trans (.ite (.refl s2) (.foldl (fun s r => sameSlot_noteSuppressed s r (n % 64)) pulsed s2))
  refine ⟨slot, rfl, rfl, rfl, .ite h12 (h13.trans (.foldl (fun s r => ?_) all16 s3))⟩
  split
  · exact .ite (sameSlot_measureSlot ..) (.refl s)
  · exact .refl s

/-- A row slot begins within the lock cycle (R194). -/
theorem rowSlot_begins {s : State} (vled : Nat) (meas : List SlotMeas) (hc : s.cycling = true) (hn : s.diag.slots < (s.S + 1) * 64) :
    (s.rowSlot vled meas).diag.slots = s.diag.slots + 1 ∧ (s.rowSlot vled meas).diag.vled = max s.diag.vled vled ∧
      (s.vledDrive = true →
        ∃ x, (s.rowSlot vled meas).diag.slot = some x ∧ x.scan = s.diag.slots / 64 ∧ x.row = s.diag.slots % 64 ∧ x.tripped = []) := by
  rw [rowSlot_cycling vled meas hc hn, vledDrive_slotOpened]
  have hslots : (s.slotOpened vled).diag.slots = s.diag.slots + 1 := congrArg Diag.slots (diag_slotOpened s vled)
  have hvled : (s.slotOpened vled).diag.vled = max s.diag.vled vled := congrArg Diag.vled (diag_slotOpened s vled)
  split
  · obtain ⟨x, hscan, hrow, htripped, hsame⟩ := slotDriven_slot (s.slotOpened vled) s.diag.slots vled meas
    exact ⟨hsame.slots.trans hslots, hsame.vled.trans hvled, fun _ => ⟨x, hsame.slot, hscan, hrow, htripped⟩⟩
  · exact ⟨hslots, hvled, fun hv => absurd hv ‹_›⟩

theorem rowSlot_idle {s : State} (hc : s.cycling = false) (vled : Nat) (meas : List SlotMeas) : s.rowSlot vled meas = s :=
  if_pos (by simp [hc])

theorem diag_raiseOutputs (s : State) : s.raiseOutputs.diag = s.diag := by
  have hone (s : State) (o : Fin 2) : (if s.saf.rise.testBit o && s.outHolds o && !s.on (soutFld o) then
      State.setSaf (s.driveOut o true) { (s.driveOut o true).saf with
        resumeAt := (s.driveOut o true).saf.resumeAt.set o (((s.driveOut o true).saf.paused[o]).map (fun _ => (s.driveOut o true).now + 1000000000)) }
      else s).diag = s.diag := by
    split <;> rfl
  unfold State.raiseOutputs
  exact (hone _ 1).trans (hone s 0)

/-! ## The checks at a row slot (R309) -/

theorem leaves_chkFail (s : State) {n : Nat} (hn : n < 192) : s.Leaves lowKey (s.chkFail n) :=
  .trans (.flag (.refl _ s) (by decide)) (leaves_raise _ hn none)

theorem chkKey {f : Fld} (h : 0x8000 ≤ f.off) : lowKey f.key = false := lowKey_above (by simp only [Fld.key]; omega)

theorem leaves_chkAlive (s : State) {u : Nat} (hu : u < 8) (rec : List Byte) : s.Leaves lowKey (s.chkAlive u rec) := by
  unfold State.chkAlive
  extract_lets n off point v s1
  have h1 : s.Leaves lowKey s1 := .ite (leaves_chkFail s (by omega)) (.refl _ s)
  exact .ite (.refl _ s) (.put (.put h1 (chkKey (by simp only; omega))) (chkKey (by simp only; omega)))

theorem leaves_chkRecord (s : State) {u : Nat} (hu : u < 8) (rec : List Byte) (given : Option Nat) : s.Leaves lowKey (s.chkRecord u rec given) := by
  have hrecords : s.Leaves lowKey ((s.inc (Reg.CHK_RECORDS_COUNT u)).put (Reg.CHK_VALUE_VALUE u) (s.chkCompare u rec given).1) :=
    .put (.inc (.refl _ s) (chkKey (by simp only; omega))) (chkKey (by simp only; omega))
  have hmiss (t : State) : t.Leaves lowKey ((t.inc (Reg.CHK_MISMATCHES_COUNT u)).chkFail (80 + u)) :=
    .trans (.inc (.refl _ t) (chkKey (by simp only; omega))) (leaves_chkFail _ (by omega))
  exact hrecords.trans (.trans (.ite (.refl _ _) (hmiss _)) (leaves_chkAlive _ hu rec))

theorem leaves_chkDrive (s : State) (r : ReachId) : s.Leaves lowKey (s.chkDrive r) :=
  .foldl _ (fun s _ hu => .ite (leaves_chkRecord s (List.mem_range.1 hu) _ _) (.refl _ s)) s

/-! ## The row ROW_SLOT (R194, R299, R309, R390) -/

/-- What comes before a row slot: the record of display scan 1's drive words, and the light that is allowed again. -/
def beforeSlot (s : State) : State :=
  let t := if s.cycling && s.diag.slots = 128 then all16.foldl (fun s (r : ReachId) => s.chkDrive r) s else s
  if t.cycling && s.diag.slots = 64 then t.relights else t

theorem rowSlotAll_eq (s : State) (vled : Nat) (meas : List SlotMeas) : s.rowSlotAll vled meas =
    if (s.beforeSlot.rowSlot vled meas).cycling && s.diag.slots = 64 then (s.beforeSlot.rowSlot vled meas).raiseOutputs
    else s.beforeSlot.rowSlot vled meas := rfl

theorem relights_eq (s : State) : s.relights = s ∨ s.relights = { s with mode := { s.mode with relight := 0 } } := by
  unfold State.relights
  split
  · exact .inr rfl
  · exact .inl rfl

/-- What of the device bears on the row slot that comes. -/
structure SlotReady (s t : State) : Prop where
  diag : t.diag = s.diag
  cycling : t.cycling = s.cycling
  scans : t.S = s.S

theorem Leaves.slotReady {s t : State} (h : s.Leaves lowKey t) : s.SlotReady t :=
  ⟨h.diag, by simp only [State.cycling, State.running, h.seq], h.rd _ (by decide)⟩

theorem beforeSlot_ready (s : State) : s.SlotReady s.beforeSlot := by
  unfold State.beforeSlot
  extract_lets t
  have ht : s.SlotReady t := Leaves.slotReady (.ite (.foldl _ (fun s r _ => leaves_chkDrive s r) s) (.refl _ s))
  split
  · rcases relights_eq t with h | h <;> rw [h]
    · exact ht
    · exact ⟨ht.diag, ht.cycling, ht.scans⟩
  · exact ht

theorem vledDrive_beforeSlot {s : State} (h : s.diag.slots ≠ 128) : s.beforeSlot.vledDrive = s.vledDrive := by
  unfold State.beforeSlot
  extract_lets t
  have ht : t = s := if_neg (by simp [h])
  rw [ht]
  split
  · rcases relights_eq s with h | h <;> rw [h]
    rfl
  · rfl

theorem rowSlotAll_idle {s : State} (hc : s.cycling = false) (vled : Nat) (meas : List SlotMeas) : s.rowSlotAll vled meas = s := by
  have hb : s.beforeSlot = s := by simp [State.beforeSlot, hc]
  rw [rowSlotAll_eq, hb, rowSlot_idle hc, hc]
  rfl

theorem rowSlotAll_begins {s : State} (vled : Nat) (meas : List SlotMeas) (hc : s.cycling = true) (hn : s.diag.slots < (s.S + 1) * 64) :
    (s.rowSlotAll vled meas).diag.slots = s.diag.slots + 1 ∧ (s.rowSlotAll vled meas).diag.vled = max s.diag.vled vled ∧
      (s.diag.slots ≠ 128 → s.vledDrive = true →
        ∃ x, (s.rowSlotAll vled meas).diag.slot = some x ∧ x.scan = s.diag.slots / 64 ∧ x.row = s.diag.slots % 64 ∧ x.tripped = []) := by
  have hdiag : (s.rowSlotAll vled meas).diag = (s.beforeSlot.rowSlot vled meas).diag := by
    rw [rowSlotAll_eq]
    split
    · exact diag_raiseOutputs _
    · rfl
  obtain ⟨hbdiag, hbcycling, hbscans⟩ := beforeSlot_ready s
  obtain ⟨hslots, hvled, hslot⟩ := rowSlot_begins (s := s.beforeSlot) vled meas (hbcycling.trans hc) (by rw [hbdiag, hbscans]; exact hn)
  rw [hbdiag] at hslots hvled hslot
  rw [hdiag]
  exact ⟨hslots, hvled, fun h hv => hslot ((vledDrive_beforeSlot h).trans hv)⟩

end State

end Sys2Proof.Machine
end

section

/-! # Comparator checks (O17) -/

namespace Sys2Proof.Machine

namespace State

/-! ## Comparator checks (R197, R198, R200, R205) -/

theorem flagKeys_self (r : ReachId) (sink : Fin 2048) (row : Nat) : flagKeys [⟨r, sink⟩] r row = [emitter r row sink] := by
  simp [flagKeys]

theorem flagKeys_other {r q : ReachId} (h : q ≠ r) (sink : Fin 2048) (row : Nat) : flagKeys [⟨r, sink⟩] q row = [] := by
  simp [flagKeys, Ne.symm h]

/-- The slot in progress, if any, is of a display scan, and a single flag makes no row event. -/
structure OneFlag (s : State) : Prop where
  scan : ∀ x, s.diag.slot = some x → x.scan ≠ 0
  limit : 2 ≤ s.rd Reg.DIAG_CFG_ROW_EVENT_LIMIT

theorem OneFlag.scan_of_checkSlot {s : State} (h : s.OneFlag) {q : ReachId} {x : RowSlot} (hx : s.checkSlot q = some x) : x.scan ≠ 0 :=
  h.scan x (Option.eq_some_of_filter_eq_some hx)

/-- The slot in progress notes flags. -/
def noteFlags (s : State) (es : List Nat) : State :=
  s.setDiag { s.diag with slot := s.diag.slot.map (fun y => { y with flagged := y.flagged ++ es }) }

theorem noteFlags_nil (s : State) : s.noteFlags [] = s := by
  simp [State.noteFlags, State.setDiag]

/-- In a display scan nothing is retested: fewer flags than make a row event become suspects. -/
theorem checkReach_display (s : State) (q : ReachId) {x : RowSlot} (hx : x.scan ≠ 0) (kind : Nat) (flagged : List Nat)
    (hl : (flagged.filter (fun e => !s.listed e)).length < s.rd Reg.DIAG_CFG_ROW_EVENT_LIMIT) :
    s.checkReach q x kind flagged =
      (((flagged.filter (fun e => !s.listed e)).foldl (fun s e => s.suspect e kind false) s).noteFlags
        (flagged.filter (fun e => !s.listed e)), false, false) := by
  have hcount : flagged.filter (fun e => ([] : List Suspect).any (fun q => q.key = e) || !s.listed e) = flagged.filter (fun e => !s.listed e) := by simp
  have hfew : ¬ s.rd Reg.DIAG_CFG_ROW_EVENT_LIMIT ≤ (flagged.filter (fun e => ([] : List Suspect).any (fun q => q.key = e) || !s.listed e)).length := by
    rw [hcount]
    exact Nat.not_le.2 hl
  unfold State.checkReach
  rw [if_neg hx]
  refine (if_neg hfew).trans ?_
  simp only [State.verdicts, List.foldl_nil, List.map_nil, List.filter_nil, List.append_nil, Bool.false_eq_true, if_false]
  rfl

/-- A check without a flag in a display scan finds nothing. -/
theorem checkReach_quiet {s : State} (h : s.OneFlag) (q : ReachId) {x : RowSlot} (hx : x.scan ≠ 0) (kind : Nat) :
    s.checkReach q x kind [] = (s, false, false) := by
  have hlimit := h.limit
  rw [checkReach_display s q hx kind [] (by simp; omega)]
  simp only [List.filter_nil, List.foldl_nil, noteFlags_nil]

/-- A flagged sub-emitter that is not listed becomes a suspect, and its slot remembers it. -/
theorem checkReach_flag {s : State} (h : s.OneFlag) (q : ReachId) {x : RowSlot} (hx : x.scan ≠ 0) (kind : Nat) {e : Nat} (he : s.listed e = false) :
    s.checkReach q x kind [e] = ((s.suspect e kind false).noteFlags [e], false, false) := by
  have hnew : [e].filter (fun e => !s.listed e) = [e] := by simp [he]
  have hlimit := h.limit
  rw [checkReach_display s q hx kind [e] (by rw [hnew]; exact hlimit), hnew]
  rfl

/-! ## A check of every reach -/

/-- Only what is unverified or unproven has changed. -/
def OnlyProven (s t : State) : Prop := ∃ u l, t = s.setDiag { s.diag with unverified := u, left := l }

theorem OnlyProven.refl (s : State) : s.OnlyProven s := ⟨_, _, rfl⟩

theorem OnlyProven.trans {s t u : State} (h : s.OnlyProven t) (k : t.OnlyProven u) : s.OnlyProven u := by
  obtain ⟨a, b, rfl⟩ := h
  obtain ⟨c, d, rfl⟩ := k
  exact ⟨c, d, rfl⟩

theorem OnlyProven.oneFlag {s t : State} (h : s.OnlyProven t) (k : s.OneFlag) : t.OneFlag := by
  obtain ⟨u, l, rfl⟩ := h
  exact ⟨k.scan, k.limit⟩

/-- One reach's part of a check of every reach. -/
def checkStep (check : State → ReachId → RowSlot → State × Bool) (t : State × Bool) (r : ReachId) : State × Bool :=
  match t.1.checkSlot r with
  | some x =>
    let (u, p) := check t.1 r x
    (u, t.2 || p)
  | none => t

theorem checkAll_eq (s : State) (check : State → ReachId → RowSlot → State × Bool) :
    s.checkAll check = if (all16.foldl (checkStep check) (s, false)).2 then (all16.foldl (checkStep check) (s, false)).1.raise 136
      else (all16.foldl (checkStep check) (s, false)).1 := by
  unfold State.checkAll
  generalize all16 = l
  rfl

/-- A reach in which the check finds nothing. -/
def QuietCheck (check : State → ReachId → RowSlot → State × Bool) (q : ReachId) : Prop :=
  ∀ (s : State) (x : RowSlot), s.OneFlag → x.scan ≠ 0 → ∃ t, check s q x = (t, false) ∧ s.OnlyProven t

theorem foldl_quiet {check : State → ReachId → RowSlot → State × Bool} {l : List ReachId} (hq : ∀ q ∈ l, QuietCheck check q)
    {s : State} (h : s.OneFlag) : ∃ t, l.foldl (checkStep check) (s, false) = (t, false) ∧ s.OnlyProven t := by
  induction l generalizing s with
  | nil => exact ⟨s, rfl, .refl s⟩
  | cons q l ih =>
    have hstep : ∃ u, checkStep check (s, false) q = (u, false) ∧ s.OnlyProven u := by
      cases hx : s.checkSlot q with
      | none => exact ⟨s, by simp [checkStep, hx], .refl s⟩
      | some x =>
        obtain ⟨u, hu, hsu⟩ := hq q (List.mem_cons_self ..) s x h (h.scan_of_checkSlot hx)
        exact ⟨u, by simp [checkStep, hx, hu], hsu⟩
    obtain ⟨u, hu, hsu⟩ := hstep
    obtain ⟨t, ht, hut⟩ := ih (fun q hq' => hq q (List.mem_cons_of_mem _ hq')) (hsu.oneFlag h)
    exact ⟨t, by rw [List.foldl_cons, hu, ht], hsu.trans hut⟩

/-- A check that finds something in one reach only, and no passed retest. -/
theorem checkAll_one {check : State → ReachId → RowSlot → State × Bool} {r : ReachId} (hq : ∀ q, q ≠ r → QuietCheck check q)
    {s : State} (h : s.OneFlag) {x : RowSlot} (hx : s.checkSlot r = some x) {g : State → State}
    (hg : ∀ t, s.OnlyProven t → check t r x = (g t, false) ∧ (g t).OneFlag) :
    ∃ t, s.OnlyProven t ∧ (g t).OnlyProven (s.checkAll check) := by
  obtain ⟨before, after, hall⟩ := List.append_of_mem (List.mem_finRange r)
  have hnodup : (before ++ r :: after).Nodup := hall ▸ List.nodup_finRange 16
  have hne (q : ReachId) (hmem : q ∈ before ∨ q ∈ after) : q ≠ r := by
    rintro rfl
    rcases hmem with hb | ha
    · exact List.disjoint_of_nodup_append hnodup hb (List.mem_cons_self ..)
    · exact (List.nodup_cons.1 (List.Nodup.of_append_right hnodup)).1 ha
  obtain ⟨t, ht, hst⟩ := foldl_quiet (fun q hb => hq q (hne q (.inl hb))) h
  obtain ⟨hcheck, hone⟩ := hg t hst
  have hslot : t.checkSlot r = some x := by
    obtain ⟨u, l, rfl⟩ := hst
    exact hx
  obtain ⟨u, hu, hgu⟩ := foldl_quiet (fun q ha => hq q (hne q (.inr ha))) hone
  have hfold : all16.foldl (checkStep check) (s, false) = (u, false) := by
    rw [all16, hall, List.foldl_append, ht, List.foldl_cons, checkStep, hslot]
    simp only [hcheck, Bool.or_false, hu]
  refine ⟨t, hst, ?_⟩
  rw [checkAll_eq, hfold]
  exact hgu

/-- Out of a slot a check does nothing. -/
theorem checkAll_noSlot {s : State} (h : s.diag.slot = none) (check : State → ReachId → RowSlot → State × Bool) : s.checkAll check = s := by
  have hstep (q : ReachId) : checkStep check (s, false) q = (s, false) := by simp [checkStep, State.checkSlot, h]
  have hfold (l : List ReachId) : l.foldl (checkStep check) (s, false) = (s, false) := by
    induction l with
    | nil => rfl
    | cons q l ih => rw [List.foldl_cons, hstep, ih]
  rw [checkAll_eq, hfold]
  rfl

/-! ## One flag (R197, R198, R205) -/

/-- A new suspect in its slot. -/
def flagged (s : State) (e kind : Nat) : State := (s.suspect e kind false).noteFlags [e]

theorem oneFlag_flagged {s : State} (h : s.OneFlag) (e kind : Nat) : (s.flagged e kind).OneFlag := by
  refine ⟨fun x hx => ?_, ?_⟩
  · obtain ⟨y, hy, rfl⟩ := Option.map_eq_some_iff.1 (show s.diag.slot.map _ = some x from hx)
    exact h.scan y hy
  · exact h.limit.trans_eq (State.rd_put_other _ _ (by decide)).symm

theorem suspects_flagged (s : State) (e kind : Nat) : (s.flagged e kind).diag.suspects =
    s.diag.suspects ++ [{ key := e, kind := kind, seen := s.sysTime, lc := s.seq.sluices, rowEvent := false }] := rfl

theorem OnlyProven.suspects {s t : State} (h : s.OnlyProven t) : t.diag.suspects = s.diag.suspects := by
  obtain ⟨u, l, rfl⟩ := h
  rfl

theorem OnlyProven.flaggedSuspects {s t : State} (h : s.OnlyProven t) (e kind : Nat) :
    (t.flagged e kind).diag.suspects = (s.flagged e kind).diag.suspects := by
  obtain ⟨u, l, rfl⟩ := h
  rfl

/-- The column of a short suspect is fenced when its slot is over. -/
theorem mem_columnFences_of_short {s : State} (hs : s.diag.slot = none) {q : Suspect} (hq : q ∈ s.diag.suspects) (hk : q.kind = 2)
    (he : q.rowEvent = false) : colOf q.key ∈ s.columnFences := by
  refine List.mem_append_left _ (List.mem_append_left _ (List.mem_map.2 ⟨q, List.mem_filter.2 ⟨hq, ?_⟩, rfl⟩))
  simp [hk, he, hs]

theorem shortCheck_quiet {r q : ReachId} (h : q ≠ r) (sink : Fin 2048) :
    QuietCheck (fun s r' x => ((s.checkReach r' x 2 (flagKeys [⟨r, sink⟩] r' x.row)).1,
      (s.checkReach r' x 2 (flagKeys [⟨r, sink⟩] r' x.row)).2.2)) q := by
  intro s x hs hx
  simp only [flagKeys_other h, checkReach_quiet hs q hx]
  exact ⟨s, rfl, .refl s⟩

theorem OnlyProven.listed {s t : State} (h : s.OnlyProven t) (e : Nat) : t.listed e = s.listed e := by
  obtain ⟨u, l, rfl⟩ := h
  rfl

/-- A short flag of a sub-emitter that is not listed makes it a suspect (R198, R205). -/
theorem shortCheck_one {s : State} {r : ReachId} {x : RowSlot} (sink : Fin 2048) (h : s.OneFlag) (hx : s.checkSlot r = some x)
    (he : s.listed (emitter r x.row sink) = false) :
    (s.shortCheck [⟨r, sink⟩]).diag.suspects = s.diag.suspects ++
      [{ key := emitter r x.row sink, kind := 2, seen := s.sysTime, lc := s.seq.sluices, rowEvent := false }] := by
  have hfound : ∃ t, s.OnlyProven t ∧ (t.flagged (emitter r x.row sink) 2).OnlyProven (s.shortCheck [⟨r, sink⟩]) :=
    checkAll_one (fun q hq => shortCheck_quiet hq sink) h hx (fun t hst => by
      have hone := hst.oneFlag h
      rw [flagKeys_self, checkReach_flag hone r (h.scan_of_checkSlot hx) 2 ((hst.listed _).trans he)]
      exact ⟨rfl, oneFlag_flagged hone _ 2⟩)
  obtain ⟨t, hst, hend⟩ := hfound
  rw [hend.suspects, hst.flaggedSuspects, suspects_flagged]

/-! ## The open check (R197) -/

/-- What an open check leaves of the unverified and unproven sub-emitters. -/
def passOpen (s : State) (passed : List Nat) : State :=
  s.setDiag { s.diag with
    unverified := s.diag.unverified.filter (fun e => !(passed.contains e)), left := s.diag.left.filter (fun e => !(passed.contains e)) }

theorem onlyProven_passOpen (s : State) (passed : List Nat) : s.OnlyProven (s.passOpen passed) := ⟨_, _, rfl⟩

/-- The open check of a reach in a display scan. -/
theorem openReach_display (s : State) (q : ReachId) {x : RowSlot} (hx : x.scan ≠ 0) (flags : List SinkFlag) :
    s.openReach q x flags =
      (let keys := (s.openSinks q x).map (emitter q x.row)
       let found := (flagKeys flags q x.row).filter keys.contains
       let (t, event, retest) := if x.rowEvents.contains q.val then (s, true, false) else s.checkReach q x 1 found
       (t.passOpen (if event then [] else keys.filter (fun e => !(found.contains e))), retest)) := by
  unfold State.openReach
  simp only [hx, decide_false, Bool.false_and, Bool.false_eq_true, if_false]
  rfl

theorem openCheck_quiet {r q : ReachId} (h : q ≠ r) (sink : Fin 2048) : QuietCheck (fun s r' x => s.openReach r' x [⟨r, sink⟩]) q := by
  intro s x hs hx
  simp only [openReach_display s q hx, flagKeys_other h, List.filter_nil, checkReach_quiet hs q hx]
  split
  · exact ⟨_, rfl, onlyProven_passOpen ..⟩
  · exact ⟨_, rfl, onlyProven_passOpen ..⟩

theorem OnlyProven.openSinks {s t : State} (h : s.OnlyProven t) (r : ReachId) (x : RowSlot) (hx : x.scan ≠ 0) : t.openSinks r x = s.openSinks r x := by
  obtain ⟨u, l, rfl⟩ := h
  unfold State.openSinks
  rw [if_neg hx, if_neg hx]
  rfl

theorem mem_openSinks {s : State} {r : ReachId} {x : RowSlot} {sink : Fin 2048} (hx : x.scan ≠ 0) (hlit : r.val ∈ s.trim.lit)
    (hon : 192 ≤ s.onTime r x.row sink) : sink.val ∈ s.openSinks r x := by
  unfold State.openSinks
  rw [if_neg hx, if_pos (List.contains_iff_mem.2 hlit)]
  exact List.mem_filter.2 ⟨List.mem_range.2 sink.isLt, decide_eq_true hon⟩

/-- The other sub-emitters that an open check with one flag has driven pass it. -/
def passBeside (s : State) (r : ReachId) (x : RowSlot) (e : Nat) : List Nat :=
  ((s.openSinks r x).map (emitter r x.row)).filter (fun d => !([e].contains d))

theorem openReach_flag {s : State} {r : ReachId} {x : RowSlot} {sink : Fin 2048} (h : s.OneFlag) (hx : x.scan ≠ 0)
    (he : s.listed (emitter r x.row sink) = false) (hrow : r.val ∉ x.rowEvents) (hdriven : sink.val ∈ s.openSinks r x) :
    s.openReach r x [⟨r, sink⟩] =
      ((s.flagged (emitter r x.row sink) 1).passOpen (s.passBeside r x (emitter r x.row sink)), false) := by
  have hfound : (flagKeys [⟨r, sink⟩] r x.row).filter ((s.openSinks r x).map (emitter r x.row)).contains = [emitter r x.row sink] := by
    rw [flagKeys_self, List.filter_singleton, List.contains_iff_mem.2 (List.mem_map_of_mem hdriven)]
    rfl
  rw [openReach_display s r hx]
  simp only [hfound, if_neg (mt List.contains_iff_mem.1 hrow), checkReach_flag h r hx 1 he]
  rfl

/-- An open flag of a driven sub-emitter that is not listed makes it a suspect (R197, R205). -/
theorem openCheck_one {s : State} {r : ReachId} {x : RowSlot} (sink : Fin 2048) (h : s.OneFlag) (hx : s.checkSlot r = some x)
    (he : s.listed (emitter r x.row sink) = false) (hlit : r.val ∈ s.trim.lit) (hrow : r.val ∉ x.rowEvents) (hon : 192 ≤ s.onTime r x.row sink) :
    (s.openCheck [⟨r, sink⟩]).diag.suspects = s.diag.suspects ++
      [{ key := emitter r x.row sink, kind := 1, seen := s.sysTime, lc := s.seq.sluices, rowEvent := false }] := by
  have hscan := h.scan_of_checkSlot hx
  have hfound : ∃ t, s.OnlyProven t ∧
      ((t.flagged (emitter r x.row sink) 1).passOpen (t.passBeside r x (emitter r x.row sink))).OnlyProven (s.openCheck [⟨r, sink⟩]) :=
    checkAll_one (g := fun t => (t.flagged (emitter r x.row sink) 1).passOpen (t.passBeside r x (emitter r x.row sink)))
      (fun q hq => openCheck_quiet hq sink) h hx (fun t hst => by
        have hone := hst.oneFlag h
        have hdriven : sink.val ∈ t.openSinks r x := by
          rw [hst.openSinks r x hscan]
          exact mem_openSinks hscan hlit hon
        exact ⟨openReach_flag hone hscan ((hst.listed _).trans he) hrow hdriven,
          (onlyProven_passOpen _ _).oneFlag (oneFlag_flagged hone _ 1)⟩)
  obtain ⟨t, hst, hend⟩ := hfound
  rw [hend.suspects, (onlyProven_passOpen _ _).suspects, hst.flaggedSuspects, suspects_flagged]

/-! ## The row switches (R201) -/

theorem rowOvercurrent_noSlot {s : State} (h : s.diag.slot = none) (r : ReachId) : s.rowOvercurrent r = s := by
  simp only [State.rowOvercurrent, h]

theorem rowOvercurrent_trips {s : State} {r : ReachId} {x : RowSlot} (h : s.diag.slot = some x) (hr : s.reachChecks r = true) (ht : r.val ∉ x.tripped) :
    s.rowOvercurrent r = State.raise (State.inc (State.put (State.put (State.flag
      (s.setDiag { s.diag with slot := some { x with tripped := insertSet r x.tripped } }) Reg.DRV_OC_LAST_VALID)
      Reg.DRV_OC_LAST_REACH r) Reg.DRV_OC_LAST_ROW x.row) Reg.DRV_OC_COUNT_COUNT) 140 (some r.val) := by
  unfold State.rowOvercurrent
  simp only [h]
  exact if_neg (by simp [hr, ht])

end State

end Sys2Proof.Machine
end

section

/-! # The thermal rows (O17) -/

namespace Sys2Proof.Machine

/-! ## Bits of a field -/

theorem testBit_setBit_self (n i : Nat) : (setBit n i true).testBit i = true := by
  unfold setBit
  cases h : n.testBit i with
  | true => rw [if_pos rfl, h]
  | false => rw [if_neg (by decide), if_pos rfl, Nat.add_comm, Nat.testBit_two_pow_add_eq, h]; rfl

/-- Setting a bit leaves the others: the bits above it stand in the quotient by the next power, those below it in the rest. -/
theorem testBit_setBit_other (n : Nat) {i j : Nat} (hij : i ≠ j) : (setBit n i true).testBit j = n.testBit j := by
  unfold setBit
  cases h : n.testBit i with
  | true => rw [if_pos rfl]
  | false =>
    rw [if_neg (by decide), if_pos rfl, Nat.add_comm]
    rcases Nat.lt_or_gt_of_ne hij with hlt | hgt
    · have hsplit : 2 ^ (i + 1) * (n / 2 ^ (i + 1)) + n % 2 ^ (i + 1) = n := Nat.div_add_mod ..
      have hlow : n % 2 ^ (i + 1) < 2 ^ i := by
        refine Nat.lt_pow_two_of_testBit _ (fun k hk => ?_)
        rw [Nat.testBit_mod_two_pow]
        rcases Nat.eq_or_lt_of_le hk with rfl | hk
        · simp [h]
        · simp [Nat.not_lt.2 hk]
      have hadd : 2 ^ i + n = 2 ^ (i + 1) * (n / 2 ^ (i + 1)) + (2 ^ i + n % 2 ^ (i + 1)) := by omega
      rw [hadd, Nat.testBit_two_pow_mul_add _ (by rw [Nat.pow_succ] at hlow ⊢; omega), if_neg (by omega)]
      conv_rhs => rw [← hsplit, Nat.testBit_two_pow_mul_add _ (Nat.mod_lt _ (Nat.two_pow_pos _)), if_neg (by omega)]
    · exact Nat.testBit_two_pow_add_gt hgt n

theorem State.bitOf_putBit_self (s : State) {f : Fld} {i : Nat} (hi : i < f.w) : (s.putBit f i true).bitOf f i = true := by
  rw [State.bitOf, State.putBit, State.rd_put_self, Nat.testBit_mod_two_pow, testBit_setBit_self]
  simp [hi]

theorem State.bitOf_putBit_other (s : State) {f : Fld} {i j : Nat} (hij : i ≠ j) (hj : j < f.w) : (s.putBit f i true).bitOf f j = s.bitOf f j := by
  rw [State.bitOf, State.putBit, State.rd_put_self, Nat.testBit_mod_two_pow, testBit_setBit_other _ hij, State.bitOf]
  simp [hj]

theorem State.bitOf_congr {s t : State} {f : Fld} (h : t.rd f = s.rd f) (i : Nat) : t.bitOf f i = s.bitOf f i := by rw [State.bitOf, h, State.bitOf]

theorem mem_insertSet {x y : Nat} {l : List Nat} : x ∈ insertSet y l ↔ x = y ∨ x ∈ l := by
  induction l with
  | nil => simp [insertSet]
  | cons z l ih =>
    unfold insertSet
    split
    · next h => simp [h]
    · split
      · simp
      · simp only [List.mem_cons, ih]
        tauto

namespace State

/-! ## The update of the thermal model (R232) -/

/-- Whether the model has started, and has updated in this lock cycle, is the same. -/
structure SameUpdate (s t : State) : Prop where
  updated : t.thm.updated = s.thm.updated
  started : t.thm.started = s.thm.started

namespace SameUpdate

variable {s t u : State}

theorem refl (s : State) : s.SameUpdate s := ⟨rfl, rfl⟩

theorem trans (h : s.SameUpdate t) (k : t.SameUpdate u) : s.SameUpdate u := ⟨k.updated.trans h.updated, k.started.trans h.started⟩

theorem of_thm (h : t.thm = s.thm) : s.SameUpdate t := ⟨by rw [h], by rw [h]⟩

theorem ite {c : Prop} [Decidable c] (ht : s.SameUpdate t) (hu : s.SameUpdate u) : s.SameUpdate (if c then t else u) := by
  split
  · exact ht
  · exact hu

theorem foldl {α : Type} {f : State → α → State} (hf : ∀ (s : State) a, s.SameUpdate (f s a)) (l : List α) (s : State) :
    s.SameUpdate (l.foldl f s) :=
  List.foldlRecOn l f (refl s) (fun t ht a _ => ht.trans (hf t a))

end SameUpdate

theorem started_startModel (s : State) : s.startModel.thm.started = true := by
  unfold State.startModel
  split
  · assumption
  · rfl

theorem sameUpdate_runModel (s : State) : s.SameUpdate s.runModel := by
  have hfree (t pk : List Int) : s.SameUpdate (s.draw.setThm { s.thm with t := t, pk := pk }).draw := ⟨rfl, rfl⟩
  have hmodel (t pk : List Int) : s.SameUpdate (s.setThm { s.thm with t := t, pk := pk }) := ⟨rfl, rfl⟩
  unfold State.runModel
  exact .ite (hfree _ _) (hmodel _ _)

theorem sameUpdate_substitute (s : State) : s.SameUpdate s.substitute := by
  unfold State.substitute
  extract_lets s1 sub readings d s2
  have h1 : s.SameUpdate s1 := .ite ⟨rfl, rfl⟩ (.refl s)
  have h2 : s1.SameUpdate s2 := ⟨rfl, rfl⟩
  refine (h1.trans h2).trans (.foldl (fun s m => ?_) _ s2)
  split
  · exact ⟨rfl, rfl⟩
  · exact .refl s

theorem sameUpdate_snapshot (s : State) : s.SameUpdate s.snapshot := by
  unfold State.snapshot
  exact .ite ⟨rfl, rfl⟩ (.refl s)

theorem sameUpdate_noteRates (s : State) : s.SameUpdate s.noteRates := ⟨rfl, rfl⟩

theorem sameUpdate_noteExcess (s : State) : s.SameUpdate s.noteExcess := by
  unfold State.noteExcess
  extract_lets ex d s1
  have h1 : s.SameUpdate s1 := ⟨rfl, rfl⟩
  exact h1.trans (.ite ⟨rfl, rfl⟩ (.refl s1))

theorem sameUpdate_noteFast (s : State) : s.SameUpdate s.noteFast := by
  unfold State.noteFast
  exact .ite ⟨rfl, rfl⟩ (.ite (.refl s) (.ite ⟨rfl, rfl⟩ (.ite ⟨rfl, rfl⟩ (.refl s))))

theorem sameUpdate_bandUpdate (s : State) (r : Nat) : s.SameUpdate (s.bandUpdate r) := ⟨rfl, rfl⟩

theorem thm_calQueue (s : State) (reaches : List Nat) : (s.calQueue reaches).thm = s.thm := by
  unfold State.calQueue
  induction reaches generalizing s with
  | nil => rfl
  | cons r reaches ih =>
    rw [List.foldl_cons, ih]
    split <;> rfl

theorem thm_calTemperature (s : State) : s.calTemperature.thm = s.thm := by
  unfold State.calTemperature
  split
  · rfl
  · exact thm_calQueue ..

theorem thm_enterSafeDark (s : State) (cause : Nat) : (s.enterSafeDark cause).thm = s.thm := by
  unfold State.enterSafeDark
  split <;> rfl

theorem thm_noteLimit (s : State) : s.noteLimit.thm = s.thm := by
  unfold State.noteLimit
  split
  · exact (leaves_condition _ (by decide) true none).thm.trans (thm_enterSafeDark ..)
  · rfl

theorem thermalUpdate_idle {s : State} (h : s.cycling = false ∨ s.thm.updated = true) : s.thermalUpdate = s :=
  if_pos (by rcases h with h | h <;> simp [h])

theorem thermalUpdate_updates {s : State} (hc : s.cycling = true) (hu : s.thm.updated = false) :
    s.thermalUpdate.thm.updated = true ∧ s.thermalUpdate.thm.started = true := by
  unfold State.thermalUpdate
  rw [if_neg (by simp [hc, hu])]
  extract_lets s1 d s2 s3 s4
  have h1 : s1.thm.started = true :=
    ((sameUpdate_substitute _).started.trans (sameUpdate_runModel _).started).trans (started_startModel s)
  clear_value s1
  have h2 : s2.thm.updated = true := rfl
  have h23 : s2.SameUpdate s3 :=
    (((sameUpdate_snapshot s2).trans (sameUpdate_noteRates _)).trans (sameUpdate_noteExcess _)).trans (sameUpdate_noteFast _)
  have h24 : s2.SameUpdate s4 := h23.trans (.foldl sameUpdate_bandUpdate _ s3)
  have hend : s2.SameUpdate s4.calTemperature.noteLimit := h24.trans (.of_thm ((thm_noteLimit _).trans (thm_calTemperature s4)))
  exact ⟨hend.updated.trans h2, hend.started.trans h1⟩

/-! ## The trip (R240) -/

theorem lowOrLiveKey_live {k : Nat} (hl : 0xD120 * 32 ≤ k) (hh : k < 0xD140 * 32) : lowOrLiveKey k = true := by simp [lowOrLiveKey, hl, hh]

theorem live_of_liveWord {s t : State} {n : Nat} (h : t.rd (Reg.FLT_LIVE_LIVE (n / 32)) = s.rd (Reg.FLT_LIVE_LIVE (n / 32)))
    (hs : s.bitOf (Reg.FLT_LIVE_LIVE (n / 32)) (n % 32) = true) : t.live n = true := by
  simp only [State.live, bitOf_congr h, hs, Bool.true_or]

/-- A source that has been raised is live. -/
theorem live_raise (s : State) {n : Nat} (hn : n < 192) (locus : Option Nat) : (s.raise n locus).live n = true := by
  have hkey : lowOrLiveKey (Reg.FLT_LIVE_LIVE (n / 32)).key = true :=
    lowOrLiveKey_live (by simp only [Fld.key]; omega) (by simp only [Fld.key]; omega)
  refine live_of_liveWord (s := s.setLive n true) ?_ (bitOf_putBit_self s (Nat.mod_lt n (by decide)))
  exact ((leaves_raiseAt _ hn locus).rd _ hkey).trans rfl

theorem live_condition (s : State) {n : Nat} (hn : n < 192) (locus : Option Nat) : (s.condition n true locus).live n = true := by
  simp only [State.condition, if_true]
  split
  · assumption
  · exact live_raise s hn locus

theorem enterSafeDark_safeDark (s : State) (cause : Nat) : (s.enterSafeDark cause).mode.safeDark = true := by
  unfold State.enterSafeDark
  split
  · assumption
  · rfl

theorem rd_enterSafeDark (s : State) (cause : Nat) {g : Fld} (h : Reg.SYS_MODE_SD_CAUSE.key ≠ g.key) : (s.enterSafeDark cause).rd g = s.rd g := by
  unfold State.enterSafeDark
  split
  · rfl
  · exact State.rd_put_other _ _ h

theorem thermalTrip_trips (s : State) : s.thermalTrip.rd Reg.THM_STATUS_TRIP = 1 ∧ s.thermalTrip.mode.safeDark = true ∧
    s.thermalTrip.vledDrive = false ∧ s.thermalTrip.live 146 = true := by
  have hcond := leaves_condition ((s.put Reg.THM_STATUS_TRIP 1).enterSafeDark 2) (n := 146) (by decide) true none
  have htrip : s.thermalTrip.rd Reg.THM_STATUS_TRIP = 1 :=
    (hcond.rd _ (by decide)).trans ((rd_enterSafeDark _ 2 (by decide)).trans (State.rd_put_fits _ (by decide)))
  refine ⟨htrip, ?_, ?_, live_condition _ (by decide) none⟩
  · exact (congrArg _ hcond.mode).trans (enterSafeDark_safeDark ..)
  · simp [State.vledDrive, State.on, htrip]

end State

namespace State

/-! ## Sensor samples (R235, R236) -/

/-- What another sensor's sample leaves of sensor m: whether it is lost, how its next sample is judged, whether its last one failed, its reading; and
the sensor event stays set. -/
structure SameSensor (m : Nat) (s t : State) : Prop where
  lost : t.sensorLost m = s.sensorLost m
  fails : ∀ x, t.sampleFails m x = s.sampleFails m x
  bad : m ∈ t.thm.bad ↔ m ∈ s.thm.bad
  reading : t.rd (Reg.THM_SENSOR_READING m) = s.rd (Reg.THM_SENSOR_READING m)
  event : s.on Reg.THM_EVENT_SENSOR = true → t.on Reg.THM_EVENT_SENSOR = true

/-- A register field of the sensors that bears on sensor m. -/
def sensorFields (m : Nat) : List Fld := [Reg.THM_SENSOR_FAIL_LOST, Reg.THM_SENSOR_READING m, Reg.THM_EVENT_SENSOR]

theorem sampleFails_congr {s t : State} (hstarted : t.thm.started = s.thm.started) (houts : t.thm.outs = s.thm.outs) (hpk : t.thm.pk = s.thm.pk)
    (m : Nat) (x : SensorSample) : t.sampleFails m x = s.sampleFails m x := by
  rw [State.sampleFails, State.sampleFails, State.sensorOut, State.sensorOut, hstarted, houts, hpk]

namespace SameSensor

variable {m : Nat} {s t u : State}

theorem refl (m : Nat) (s : State) : SameSensor m s s := ⟨rfl, fun _ => rfl, Iff.rfl, rfl, id⟩

theorem trans (h : SameSensor m s t) (k : SameSensor m t u) : SameSensor m s u :=
  ⟨k.lost.trans h.lost, fun x => (k.fails x).trans (h.fails x), k.bad.trans h.bad, k.reading.trans h.reading, fun he => k.event (h.event he)⟩

theorem ite {c : Prop} [Decidable c] (ht : SameSensor m s t) (hu : SameSensor m s u) : SameSensor m s (if c then t else u) := by
  split
  · exact ht
  · exact hu

/-- The sensors' fields and the thermal model's state, but for which samples failed, are the same. -/
theorem of_fields (hrd : ∀ g ∈ sensorFields m, t.rd g = s.rd g) (hbad : m ∈ t.thm.bad ↔ m ∈ s.thm.bad) (hstarted : t.thm.started = s.thm.started := by rfl)
    (houts : t.thm.outs = s.thm.outs := by rfl) (hpk : t.thm.pk = s.thm.pk := by rfl) : SameSensor m s t :=
  ⟨bitOf_congr (hrd _ (by simp [sensorFields])) m, sampleFails_congr hstarted houts hpk m, hbad, hrd _ (by simp [sensorFields]),
    fun he => (State.on_congr (hrd _ (by simp [sensorFields]))).trans he⟩

theorem setThm (s : State) {d : Thermal} (hbad : m ∈ d.bad ↔ m ∈ s.thm.bad) (hstarted : d.started = s.thm.started := by rfl)
    (houts : d.outs = s.thm.outs := by rfl) (hpk : d.pk = s.thm.pk := by rfl) : SameSensor m s (s.setThm d) :=
  of_fields (fun _ _ => rfl) hbad hstarted houts hpk

theorem put (h : SameSensor m s t) {f : Fld} {v : Nat} (hf : ∀ g ∈ sensorFields m, f.key ≠ g.key) : SameSensor m s (t.put f v) :=
  h.trans (of_fields (fun g hg => t.rd_put_other v (hf g hg)) Iff.rfl)

theorem of_leaves (hm : m < 11) (h : s.Leaves lowKey t) : SameSensor m s t := by
  have hlow : ∀ g ∈ sensorFields m, lowKey g.key = true := by
    simp only [sensorFields, List.mem_cons, List.not_mem_nil, or_false]
    rintro g (rfl | rfl | rfl)
    · decide
    · exact decide_eq_true (by simp only [Fld.key]; omega)
    · decide
  exact of_fields (fun g hg => h.rd g (hlow g hg)) (by rw [h.thm]) (by rw [h.thm]) (by rw [h.thm]) (by rw [h.thm])

end SameSensor

/-- Fields of other registers than the sensors'. -/
theorem sensorFields_other {m : Nat} {f : Fld} (hlost : f.key ≠ Reg.THM_SENSOR_FAIL_LOST.key) (hread : f.key ≠ (Reg.THM_SENSOR_READING m).key)
    (hevent : f.key ≠ Reg.THM_EVENT_SENSOR.key) : ∀ g ∈ sensorFields m, f.key ≠ g.key := by
  simp only [sensorFields, List.mem_cons, List.not_mem_nil, or_false]
  rintro g (rfl | rfl | rfl)
  · exact hlost
  · exact hread
  · exact hevent

theorem sameSensor_lost (s : State) {k m : Nat} (hkm : k ≠ m) (hm : m < 11) :
    SameSensor m s ((s.putBit Reg.THM_SENSOR_FAIL_LOST k true).flag Reg.THM_EVENT_SENSOR) where
  lost := (bitOf_congr (State.rd_flag_other _ (by decide)) m).trans (s.bitOf_putBit_other hkm hm)
  fails := sampleFails_congr rfl rfl rfl m
  bad := Iff.rfl
  reading := (State.rd_flag_other _ (by simp only [ne_eq, Fld.key]; omega)).trans (State.rd_putBit_other _ _ _ (by simp only [ne_eq, Fld.key]; omega))
  event := fun _ => State.on_flag_self _ (by decide)

theorem sameSensor_loseSensor (s : State) {k m : Nat} (hkm : k ≠ m) (hm : m < 11) : SameSensor m s (s.loseSensor k) := by
  unfold State.loseSensor
  extract_lets s1 d s2
  have h1 : SameSensor m s s1 := sameSensor_lost s hkm hm
  have h2 : SameSensor m s s2 := h1.trans (.ite (.setThm s1 Iff.rfl) (.refl m s1))
  exact h2.trans (.of_leaves hm (leaves_condition s2 (by decide) true none))

theorem sameSensor_noteBound (s : State) (k m : Nat) (b : Int) : SameSensor m s (s.noteBound k b) := by
  unfold State.noteBound
  split
  · exact .setThm s Iff.rfl
  · split
    · exact .setThm s Iff.rfl
    · exact .ite (.setThm s Iff.rfl) (.refl m s)

/-- A sensor's sample as its reading. -/
def takeReading (s : State) (m : Nat) (v : Int) : State :=
  State.put (s.setThm { s.thm with
    readings := (List.range 11).map (fun i => if i = m then v else intAt s.thm.readings i)
    sampled := insertSet m s.thm.sampled }) (Reg.THM_SENSOR_READING m) (ofSigned 16 v)

/-- The bias that an array sensor's sample leaves. -/
def takeBias (s : State) (m : Nat) (b : Int) : State :=
  State.noteBound (State.put (s.setThm { s.thm with bias := (List.range 9).map (fun i => if i = m then b else intAt s.thm.bias i) })
    (Reg.THM_SENSOR_BIAS m) (ofSigned 16 (Int.ediv b 256))) m b

/-- A valid sample sets the reading, and may set the bias. -/
theorem takeSample_eq (s : State) (m : Nat) (v : Int) :
    s.takeSample m v = s.takeReading m v ∨ ∃ b, s.takeSample m v = (s.takeReading m v).takeBias m b := by
  have h : s.takeSample m v = if m < 9 ∧ s.thm.started = true then (s.takeReading m v).takeBias m (clampInt (-32768) 32768 (intAt s.thm.bias m +
      Int.tdiv ((256 * v - intAt s.thm.t (sensorNode m) - intAt s.thm.bias m) * (s.takeReading m v).rd Reg.THM_CFG_GAIN) 256))
      else s.takeReading m v := rfl
  rw [h]
  split
  · exact .inr ⟨_, rfl⟩
  · exact .inl rfl

theorem sameSensor_takeBias (s : State) (k m : Nat) (b : Int) : SameSensor m s (s.takeBias k b) := by
  refine .trans (SameSensor.put ?_ (sensorFields_other ?_ ?_ ?_)) (sameSensor_noteBound ..)
  · exact .setThm s Iff.rfl
  · simp only [ne_eq, Fld.key]; omega
  · simp only [ne_eq, Fld.key]; omega
  · simp only [ne_eq, Fld.key]; omega

theorem sameSensor_takeReading (s : State) {k m : Nat} (hkm : k ≠ m) (v : Int) : SameSensor m s (s.takeReading k v) := by
  refine SameSensor.put ?_ (sensorFields_other ?_ ?_ ?_)
  · exact .setThm s Iff.rfl
  · simp only [ne_eq, Fld.key]; omega
  · simp only [ne_eq, Fld.key]; omega
  · simp only [ne_eq, Fld.key]; omega

theorem sameSensor_takeSample (s : State) {k m : Nat} (hkm : k ≠ m) (v : Int) : SameSensor m s (s.takeSample k v) := by
  rcases takeSample_eq s k v with h | ⟨b, h⟩
  · exact h ▸ sameSensor_takeReading s hkm v
  · exact h ▸ (sameSensor_takeReading s hkm v).trans (sameSensor_takeBias _ k m b)

theorem ofSigned_lt (w : Nat) (z : Int) : ofSigned w z < 2 ^ w := by
  have hpos : (0 : Int) < ((2 ^ w : Nat) : Int) := by exact_mod_cast Nat.two_pow_pos w
  have hlt := Int.emod_lt_of_pos z hpos
  have hnonneg := Int.emod_nonneg z hpos.ne'
  unfold ofSigned
  omega

theorem reading_takeSample (s : State) (m : Nat) (v : Int) : (s.takeSample m v).rd (Reg.THM_SENSOR_READING m) = ofSigned 16 v := by
  have hread : (s.takeReading m v).rd (Reg.THM_SENSOR_READING m) = ofSigned 16 v := State.rd_put_fits _ (ofSigned_lt 16 v)
  rcases takeSample_eq s m v with h | ⟨b, h⟩
  · rw [h, hread]
  · rw [h, (sameSensor_takeBias _ m m b).reading, hread]

/-- A sensor that has passed its check: the failure before it, if any, was a transient. -/
def passSample (s : State) (m : Nat) : State :=
  if s.thm.bad.contains m then State.inc (s.setThm { s.thm with bad := s.thm.bad.filter (· ≠ m) }) Reg.THM_SENSOR_TRANS_COUNT else s

theorem sampleOne_eq (s : State) (m : Nat) (x : SensorSample) : s.sampleOne m x =
    if s.sensorLost m then s
    else if s.sampleFails m x then (if s.thm.bad.contains m then s.loseSensor m else s.setThm { s.thm with bad := insertSet m s.thm.bad })
    else (s.passSample m).takeSample m x.value.toInt := rfl

theorem sameSensor_passSample (s : State) {k m : Nat} (hkm : k ≠ m) : SameSensor m s (s.passSample k) := by
  refine .ite (SameSensor.put (.setThm s ?_) (sensorFields_other (by decide) ?_ (by decide))) (.refl m s)
  · simp [hkm.symm]
  · simp only [ne_eq, Fld.key]; omega

/-- The sample of one sensor is nothing to another. -/
theorem sameSensor_sampleOne (s : State) {k m : Nat} (hkm : k ≠ m) (hm : m < 11) (x : SensorSample) : SameSensor m s (s.sampleOne k x) := by
  rw [sampleOne_eq]
  refine .ite (.refl m s) (.ite (.ite (sameSensor_loseSensor s hkm hm) (.setThm s ?_)) ?_)
  · simp [mem_insertSet, hkm.symm]
  · exact (sameSensor_passSample s hkm).trans (sameSensor_takeSample _ hkm _)

theorem sameSensor_samples {m : Nat} (hm : m < 11) (l : List (SensorSample × Nat)) (hl : ∀ p ∈ l, p.2 ≠ m) (s : State) :
    SameSensor m s (l.foldl (fun s p => s.sampleOne p.2 p.1) s) := by
  induction l generalizing s with
  | nil => exact .refl m s
  | cons p l ih =>
    exact (sameSensor_sampleOne s (hl p (List.mem_cons_self ..)) hm p.1).trans (ih (fun q hq => hl q (List.mem_cons_of_mem _ hq)) _)

/-- What its own sample makes of sensor m (R236). -/
structure Sampled (m : Nat) (x : SensorSample) (s t : State) : Prop where
  valid : s.sampleFails m x = false → t.rd (Reg.THM_SENSOR_READING m) = x.value.toNat
  lost : s.sampleFails m x = true → m ∈ s.thm.bad → t.sensorLost m = true ∧ t.on Reg.THM_EVENT_SENSOR = true
  failed : s.sampleFails m x = true → m ∉ s.thm.bad → m ∈ t.thm.bad ∧ t.rd (Reg.THM_SENSOR_READING m) = s.rd (Reg.THM_SENSOR_READING m)

theorem Sampled.of_same {m : Nat} {x : SensorSample} {s s' t t' : State} (h : Sampled m x s' t) (hs : SameSensor m s s') (ht : SameSensor m t t') :
    Sampled m x s t' where
  valid hx := ht.reading.trans (h.valid ((hs.fails x).trans hx))
  lost hx hb := by
    obtain ⟨hlost, hevent⟩ := h.lost ((hs.fails x).trans hx) (hs.bad.2 hb)
    exact ⟨ht.lost.trans hlost, ht.event hevent⟩
  failed hx hb := by
    obtain ⟨hbad, hread⟩ := h.failed ((hs.fails x).trans hx) (fun h => hb (hs.bad.1 h))
    exact ⟨ht.bad.2 hbad, ht.reading.trans (hread.trans hs.reading)⟩

theorem ofSigned_toInt (v : BitVec 16) : ofSigned 16 v.toInt = v.toNat := by
  unfold ofSigned
  rw [← BitVec.toNat_ofInt, BitVec.ofInt_toInt]

theorem loseSensor_loses (s : State) {m : Nat} (hm : m < 11) :
    (s.loseSensor m).sensorLost m = true ∧ (s.loseSensor m).on Reg.THM_EVENT_SENSOR = true := by
  have hlost : ((s.putBit Reg.THM_SENSOR_FAIL_LOST m true).flag Reg.THM_EVENT_SENSOR).sensorLost m = true :=
    (bitOf_congr (State.rd_flag_other _ (by decide)) m).trans (s.bitOf_putBit_self hm)
  have hevent : ((s.putBit Reg.THM_SENSOR_FAIL_LOST m true).flag Reg.THM_EVENT_SENSOR).on Reg.THM_EVENT_SENSOR = true := State.on_flag_self _ (by decide)
  have hend : SameSensor m ((s.putBit Reg.THM_SENSOR_FAIL_LOST m true).flag Reg.THM_EVENT_SENSOR) (s.loseSensor m) := by
    unfold State.loseSensor
    extract_lets s1 d s2
    have h2 : SameSensor m s1 s2 := .ite (.setThm s1 Iff.rfl) (.refl m s1)
    exact h2.trans (.of_leaves hm (leaves_condition s2 (by decide) true none))
  exact ⟨hend.lost.trans hlost, hend.event hevent⟩

theorem sampled_sampleOne {s : State} {m : Nat} (hm : m < 11) (hl : s.sensorLost m = false) (x : SensorSample) : Sampled m x s (s.sampleOne m x) := by
  rw [sampleOne_eq, if_neg (by simp [hl])]
  refine ⟨fun hx => ?_, fun hx hb => ?_, fun hx hb => ?_⟩
  · rw [if_neg (by simp [hx]), reading_takeSample, ofSigned_toInt]
  · rw [if_pos hx, if_pos (List.contains_iff_mem.2 hb)]
    exact loseSensor_loses s hm
  · rw [if_pos hx, if_neg (mt List.contains_iff_mem.1 hb)]
    exact ⟨mem_insertSet.2 (.inl rfl), rfl⟩

/-- The samples of all sensors: what sensor m's makes of it. -/
theorem sampled_samples {s : State} {xs : List SensorSample} {m : Nat} {x : SensorSample} (hx : xs[m]? = some x) (hm : m < 11)
    (hl : s.sensorLost m = false) : Sampled m x s (xs.zipIdx.foldl (fun s p => s.sampleOne p.2 p.1) s) := by
  obtain ⟨hlen, hget⟩ := List.getElem?_eq_some_iff.1 hx
  have hsplit : xs = xs.take m ++ x :: xs.drop (m + 1) := by rw [← hget, List.getElem_cons_drop, List.take_append_drop]
  have htake : (xs.take m).length = m := List.length_take_of_le hlen.le
  have hzip : xs.zipIdx = (xs.take m).zipIdx ++ (x, m) :: (xs.drop (m + 1)).zipIdx (m + 1) := by
    conv_lhs => rw [hsplit, List.zipIdx_append, htake]
    simp
  have hbefore := sameSensor_samples hm (xs.take m).zipIdx (fun p hp => by
    have := List.snd_lt_of_mem_zipIdx hp
    omega) s
  rw [hzip, List.foldl_append, List.foldl_cons]
  refine (sampled_sampleOne hm (hbefore.lost.trans hl) x).of_same hbefore (sameSensor_samples hm _ (fun p hp => ?_) _)
  have := List.le_snd_of_mem_zipIdx hp
  omega

end State

end Sys2Proof.Machine
end

section

/-! # Row slots, checks and the thermal rows (O17) -/

namespace Sys2Proof.Machine

namespace State

/-! ## What follows the samples (R235, R240, R242, R375) -/

/-- The die range and the write windows, the fast rate and the limit write no field of a sensor. -/
theorem thmStatus_other (m : Nat) {f : Fld} (h : f.key < Reg.THM_SENSOR_FAIL_LOST.key) : ∀ g ∈ sensorFields m, f.key ≠ g.key := by
  have hkey : f.key < 0x7418 * 32 := h
  exact sensorFields_other (by simp only [Fld.key] at *; omega) (by simp only [Fld.key] at *; omega) (by simp only [Fld.key] at *; omega)

theorem sameSensor_noteWindows (s : State) (m : Nat) : SameSensor m s s.noteWindows := by
  unfold State.noteWindows
  extract_lets used first
  split
  · exact .refl m s
  · extract_lets lo hi within nand s1
    have h1 : SameSensor m s s1 := .put (.put (.refl m s) (thmStatus_other m (by decide))) (thmStatus_other m (by decide))
    exact .put (.put h1 (thmStatus_other m (by decide))) (thmStatus_other m (by decide))

theorem sameSensor_noteFast (s : State) (m : Nat) : SameSensor m s s.noteFast := by
  have hput {t : State} (h : SameSensor m s t) (v : Nat) : SameSensor m s (t.put Reg.THM_STATUS_FAST v) := .put h (thmStatus_other m (by decide))
  unfold State.noteFast
  refine .ite (hput ?_ 1) (.ite (.refl m s) (.ite ?_ (.ite (hput (.refl m s) 0) (.refl m s))))
  · exact .setThm s Iff.rfl
  · exact .setThm s Iff.rfl

theorem sameSensor_enterSafeDark (s : State) (m cause : Nat) : SameSensor m s (s.enterSafeDark cause) :=
  .of_fields (fun g hg => rd_enterSafeDark s cause (thmStatus_other m (by decide) g hg)) (by rw [thm_enterSafeDark]) (by rw [thm_enterSafeDark])
    (by rw [thm_enterSafeDark]) (by rw [thm_enterSafeDark])

theorem sameSensor_noteLimit (s : State) {m : Nat} (hm : m < 11) : SameSensor m s s.noteLimit := by
  have hlimit : SameSensor m s (s.put Reg.THM_STATUS_LIMIT 1) := .put (.refl m s) (thmStatus_other m (by decide))
  exact .ite ((hlimit.trans (sameSensor_enterSafeDark _ m 1)).trans (.of_leaves hm (leaves_condition _ (by decide) true none))) (.refl m s)

theorem leaves_noteDeferral (s : State) : s.Leaves lowKey s.noteDeferral := by
  unfold State.noteDeferral
  extract_lets held s1
  have h1 : s.Leaves lowKey s1 := .put (.put (.refl _ s) (by decide)) (by decide)
  exact h1.trans (leaves_condition s1 (by decide) held none)

theorem leaves_noteSync (s : State) : s.Leaves lowKey s.noteSync := by
  have hstatus (code : Nat) : s.Leaves lowKey (s.status .session code) := (leaves_status ..).mono lowOrLive_of_low
  exact .ite (.refl _ s) (.ite (hstatus 0) (.ite (.refl _ s) (hstatus 5)))

theorem leaves_noteWindow (s : State) (was : Bool) : s.Leaves lowKey (s.noteWindow was) := by
  unfold State.noteWindow
  extract_lets busy n s1
  have h1 : s.Leaves lowKey s1 := .ite .of_same (.refl _ s)
  exact (h1.trans (leaves_noteDeferral s1)).trans (leaves_noteSync _)

/-- The sample of all sensors (R235, R236). -/
theorem sampled_sensorSample {s : State} {xs : List SensorSample} {m : Nat} {x : SensorSample} (hxs : xs.length ≤ 11) (hx : xs[m]? = some x)
    (hl : s.sensorLost m = false) (was : Bool) : Sampled m x s ((s.sensorSample xs).noteWindow was) := by
  obtain ⟨hlen, -⟩ := List.getElem?_eq_some_iff.1 hx
  have hm : m < 11 := by omega
  have hsamples := sampled_samples hx hm hl
  unfold State.sensorSample
  rw [List.take_of_length_le hxs]
  extract_lets done s1 s2
  have hraise : SameSensor m s1 s2 := .ite (.of_leaves hm (leaves_raise s1 (by decide) none)) (.refl m s1)
  exact hsamples.of_same (.refl m s) ((((hraise.trans (sameSensor_noteWindows s2 m)).trans (sameSensor_noteFast _ m)).trans
    (sameSensor_noteLimit _ hm)).trans (.of_leaves hm (leaves_noteWindow _ was)))

end State

/-! ## The commands of row slots, checks and the thermal rows -/

theorem exec_rowSlot {s : State} (h : s.Ready) (vled : Nat) (meas : List SlotMeas) : exec (.rowSlot vled meas) s = .next (s.rowSlotAll vled meas) :=
  State.command_ready h (fun s => s.rowSlotAll vled meas)

theorem exec_shortCheck {s : State} (h : s.Ready) (flags : List SinkFlag) : exec (.shortCheck flags) s = .next (s.shortCheck flags) :=
  State.command_ready h (fun s => s.shortCheck flags)

theorem exec_openCheck {s : State} (h : s.Ready) (flags : List SinkFlag) : exec (.openCheck flags) s = .next (s.openCheck flags) :=
  State.command_ready h (fun s => s.openCheck flags)

theorem exec_rowOvercurrent {s : State} (h : s.Ready) (r : ReachId) : exec (.rowOvercurrent r) s = .next (s.rowOvercurrent r) :=
  State.command_ready h (fun s => s.rowOvercurrent r)

theorem exec_thermalUpdate {s : State} (h : s.Ready) : exec .thermalUpdate s = .next s.thermalUpdate :=
  State.command_ready h (fun s => s.thermalUpdate)

theorem exec_sensorSample {s : State} (h : s.Ready) (xs : List SensorSample) :
    exec (.sensorSample xs) s = .next ((s.sensorSample xs).noteWindow s.nandWindow) :=
  State.command_ready h (fun s => (s.sensorSample xs).noteWindow s.nandWindow)

theorem exec_thermalTrip {s : State} (h : s.Ready) : exec .thermalTrip s = .next s.thermalTrip :=
  State.command_ready h (fun s => s.thermalTrip)

/-- A sub-emitter flagged short is a suspect whose column is fenced once the slot is over (R205). -/
theorem State.shortCheck_fences {s : State} {r : ReachId} {x : RowSlot} (sink : Fin 2048) (h : s.OneFlag) (hx : s.checkSlot r = some x)
    (he : s.listed (emitter r x.row sink) = false) :
    colOf (emitter r x.row sink) ∈ ((s.shortCheck [⟨r, sink⟩]).setDiag { (s.shortCheck [⟨r, sink⟩]).diag with slot := none }).columnFences := by
  refine State.mem_columnFences_of_short (q := { key := emitter r x.row sink, kind := 2, seen := s.sysTime, lc := s.seq.sluices, rowEvent := false })
    rfl ?_ rfl rfl
  show _ ∈ (s.shortCheck [⟨r, sink⟩]).diag.suspects
  rw [State.shortCheck_one sink h hx he]
  exact List.mem_append_right _ (List.mem_singleton.2 rfl)

/-- Settles O17, by what each of the rows leaves: of a row slot by the slot that it puts in progress, of a check by the one reach in which it finds
something, of the sensors' sample by the one sensor that each of its entries is about. -/
theorem rowSlotChecksAndThermal : Obligations.RowSlotChecksAndThermal := by
  unfold Obligations.RowSlotChecksAndThermal
  refine ⟨fun s h => ⟨fun vled meas hc hn => ?_, fun vled meas hc => ?_, fun hs flags r => ⟨?_, ?_, ?_⟩, fun x r sink hs hscan hx he hlimit => ?_,
    fun x r hs hr ht => ?_⟩, fun s h => ⟨fun hc hu => ?_, fun hidle => ?_, fun xs hxs => ?_, ?_⟩⟩
  · exact ⟨_, exec_rowSlot h vled meas, State.rowSlotAll_begins vled meas hc hn⟩
  · rw [exec_rowSlot h, State.rowSlotAll_idle hc]
  · rw [exec_shortCheck h, State.shortCheck, State.checkAll_noSlot hs]
  · rw [exec_openCheck h, State.openCheck, State.checkAll_noSlot hs]
  · rw [exec_rowOvercurrent h, State.rowOvercurrent_noSlot hs]
  · have hone : s.OneFlag := ⟨fun y hy => Option.some.inj (hs.symm.trans hy) ▸ hscan, hlimit⟩
    refine ⟨⟨_, exec_shortCheck h _, State.shortCheck_one sink hone hx he, State.shortCheck_fences sink hone hx he⟩, fun hlit hrow hon => ?_⟩
    exact ⟨_, exec_openCheck h _, State.openCheck_one sink hone hx he hlit hrow hon⟩
  · rw [exec_rowOvercurrent h, State.rowOvercurrent_trips hs hr ht]
  · exact ⟨_, exec_thermalUpdate h, State.thermalUpdate_updates hc hu⟩
  · rw [exec_thermalUpdate h, State.thermalUpdate_idle hidle]
  · refine ⟨_, exec_sensorSample h xs, fun m x hx hl => ?_⟩
    obtain ⟨hvalid, hlost, hfailed⟩ := State.sampled_sensorSample hxs hx hl s.nandWindow
    exact ⟨hvalid, hlost, hfailed⟩
  · exact ⟨_, exec_thermalTrip h, State.thermalTrip_trips s⟩

end Sys2Proof.Machine
end

section

/-! # Operations on numbers and on bit vectors -/

namespace Sys2Proof.Machine

/-! ## Numbers and bit vectors (R42, R67, R70, R71) -/

/-- The two's complement value of a bit vector's bits. -/
theorem toSigned_toNat {w : Nat} (a : BitVec w) : toSigned w a.toNat = a.toInt := by
  have hw : w = 0 ∨ 2 ^ w = 2 * 2 ^ (w - 1) := by
    rcases w with _ | w
    · exact .inl rfl
    · exact .inr (by rw [Nat.pow_succ', Nat.add_sub_cancel])
  simp only [toSigned, Nat.mod_eq_of_lt a.isLt, BitVec.toInt_eq_toNat_cond]
  rcases hw with rfl | hw
  · simp
  · have : a.toNat < 2 ^ (w - 1) ↔ 2 * a.toNat < 2 ^ w := by omega
    simp only [this]

theorem toNat_ofInt_eq_ofSigned (w : Nat) (z : Int) : (BitVec.ofInt w z).toNat = ofSigned w z := BitVec.toNat_ofInt ..

theorem ofNat_ofSigned (w : Nat) (z : Int) : BitVec.ofNat w (ofSigned w z) = BitVec.ofInt w z := by
  rw [← toNat_ofInt_eq_ofSigned, BitVec.ofNat_toNat, BitVec.setWidth_eq]

theorem ofNat_b2n (w : Nat) (b : Bool) : BitVec.ofNat w (b2n b) = if b then 1#w else 0#w := by cases b <;> rfl

theorem ofNat_toNat_self {w : Nat} (a : BitVec w) : BitVec.ofNat w a.toNat = a := by simp

theorem ofNat_shiftLeft {w : Nat} (a : BitVec w) (k : Nat) : BitVec.ofNat w (a.toNat * 2 ^ k % 2 ^ w) = a <<< k := by
  apply BitVec.eq_of_toNat_eq
  simp [Nat.shiftLeft_eq]

theorem ofNat_shiftRight {w : Nat} (a : BitVec w) (k : Nat) : BitVec.ofNat w (a.toNat / 2 ^ k) = a >>> k := by
  rw [← ofNat_toNat_self (a >>> k), BitVec.toNat_ushiftRight, Nat.shiftRight_eq_div_pow]

theorem ofNat_sshiftRight {w : Nat} (a : BitVec w) (k : Nat) :
    BitVec.ofNat w (ofSigned w (Int.ediv (toSigned w a.toNat) (2 ^ k : Nat))) = a.sshiftRight k := by
  rw [ofNat_ofSigned, toSigned_toNat, BitVec.sshiftRight, Int.shiftRight_eq_div_pow]
  rfl

theorem ofNat_sub {w : Nat} (a b : BitVec w) : BitVec.ofNat w ((a.toNat + 2 ^ w - b.toNat) % 2 ^ w) = a - b := by
  apply BitVec.eq_of_toNat_eq
  have hb := b.isLt
  rw [BitVec.toNat_ofNat, Nat.mod_mod, BitVec.toNat_sub, Nat.add_comm (2 ^ w - b.toNat), Nat.add_sub_assoc hb.le]

/-- The operations of R70 on bit vectors are the model's on numbers, in the latency of the chambers. -/
theorem scalarAlu_eq_of_aluResult {w m : Nat} {a b v : BitVec w} (h : aluResult w m a b = some v) :
    ∃ n, scalarAlu w m a.toNat b.toNat = some (n, if 0x10 ≤ m then 3 else 1) ∧ BitVec.ofNat w n = v := by
  unfold aluResult at h
  split at h
  case h_19 => exact nomatch h
  all_goals refine ⟨_, rfl, Eq.trans ?_ (Option.some.inj h)⟩
  case h_1 => rw [← BitVec.toNat_add, ofNat_toNat_self]
  case h_2 => exact ofNat_sub a b
  case h_3 => rw [← BitVec.toNat_and, ofNat_toNat_self]
  case h_4 => rw [← BitVec.toNat_or, ofNat_toNat_self]
  case h_5 => rw [← BitVec.toNat_xor, ofNat_toNat_self]
  case h_6 => rw [← BitVec.toNat_not, ← BitVec.toNat_and, ofNat_toNat_self]
  case h_7 => exact ofNat_shiftLeft a _
  case h_8 => exact ofNat_shiftRight a _
  case h_9 => exact ofNat_sshiftRight a _
  case h_10 => rw [ofNat_b2n, toSigned_toNat, toSigned_toNat]; rfl
  case h_11 => rw [ofNat_b2n]; rfl
  case h_12 =>
    rw [toSigned_toNat, toSigned_toNat]
    simp only [BitVec.slt_iff_toInt_lt]
    split <;> exact ofNat_toNat_self _
  case h_13 =>
    rw [toSigned_toNat, toSigned_toNat]
    simp only [BitVec.slt_iff_toInt_lt]
    split <;> exact ofNat_toNat_self _
  case h_14 =>
    simp only [BitVec.ult_iff_lt, BitVec.lt_def]
    split
    · rw [Nat.min_eq_left (by omega), ofNat_toNat_self]
    · rw [Nat.min_eq_right (by omega), ofNat_toNat_self]
  case h_15 =>
    simp only [BitVec.ult_iff_lt, BitVec.lt_def]
    split
    · rw [Nat.max_eq_right (by omega), ofNat_toNat_self]
    · rw [Nat.max_eq_left (by omega), ofNat_toNat_self]
  case h_16 => rw [← BitVec.toNat_mul, ofNat_toNat_self]
  case h_17 => rw [ofNat_ofSigned, toSigned_toNat, toSigned_toNat]; rfl
  case h_18 => rfl

theorem aluResult_none_scalarAlu {m a b : Nat} (h : aluResult 16 m 0#16 0#16 = none) : scalarAlu 16 m a b = none := by
  unfold scalarAlu
  split
  case h_19 | h_20 | h_21 | h_22 | h_23 => rfl
  all_goals exact absurd h (by simp [aluResult])

theorem imm13_eq (f : Fields) : f.imm13 = (immBits f).toNat := by
  rw [immBits, BitVec.toNat_append, ← Nat.shiftLeft_add_eq_or_of_lt f.minor.isLt, Nat.shiftLeft_eq]
  rfl

theorem ofSigned_toSigned_imm (w : Nat) (imm : BitVec 13) : ofSigned w (toSigned 13 imm.toNat) = (imm.signExtend w).toNat := by
  rw [toSigned_toNat, ← toNat_ofInt_eq_ofSigned]
  rfl

theorem toNat_setWidth_imm {w : Nat} (hw : 13 ≤ w) (imm : BitVec 13) : (imm.setWidth w).toNat = imm.toNat :=
  BitVec.toNat_setWidth_of_le hw

/-- The operations of R71 on bit vectors are the model's on numbers. -/
theorem ofNat_scalarImm {w : Nat} (hw : 13 ≤ w) (op : ImmOp) (a : BitVec w) (f : Fields) :
    BitVec.ofNat w (scalarImm w op a.toNat f.imm13) = immResult w op a (immBits f) := by
  rw [imm13_eq]
  generalize immBits f = imm
  have hz := toNat_setWidth_imm hw imm
  cases op <;> simp only [scalarImm, immResult, ofSigned_toSigned_imm]
  case addi => rw [← BitVec.toNat_add, ofNat_toNat_self]
  case andi => rw [← hz, ← BitVec.toNat_and, ofNat_toNat_self]
  case ori => rw [← hz, ← BitVec.toNat_or, ofNat_toNat_self]
  case xori => rw [← hz, ← BitVec.toNat_xor, ofNat_toNat_self]
  case slli => exact ofNat_shiftLeft a _
  case srli => exact ofNat_shiftRight a _
  case srai => exact ofNat_sshiftRight a _
  case slti => rw [ofNat_b2n, toSigned_toNat, toSigned_toNat]; simp only [decide_eq_true_eq]
  case sltiu => rw [ofNat_b2n]; rfl
end Sys2Proof.Machine
end

section

/-! # A chamber's scalar slot (O1) -/

namespace Sys2Proof.Machine

/-! ## Commands of a chamber that issues (R47, R52) -/

/-- A scalar-slot command of a chamber that issues, by what its meaning does to the chamber. -/
theorem exec_scalarSlot {s : State} {c : ChamberId} (h : s.Ready) (hi : s.Issues c) {i : Instr} {f : State → State} {g : Chamber → Chamber}
    (hexec : exec i s = s.command (fun s => s.issueScalar c f))
    (hf : ∀ t : State, t.chAt c = { s.chAt c with scalarUsed := true } → (∀ y, t.setCh c y = s.setCh c y) → f t = t.setCh c (g (t.chAt c))) :
    exec i s = .next (s.scalarIssue c g) := by
  rw [hexec, State.command_ready h, State.issueScalar_to hi hf]

/-- The same of a vector-slot command. -/
theorem exec_vectorSlot {s : State} {c : ChamberId} (h : s.Ready) (hi : s.Issues c) {i : Instr} {f : State → State} {g : Chamber → Chamber}
    (hexec : exec i s = s.command (fun s => s.issueVector c f))
    (hf : ∀ t : State, t.chAt c = { s.chAt c with vectorUsed := true } → (∀ y, t.setCh c y = s.setCh c y) → f t = t.setCh c (g (t.chAt c))) :
    exec i s = .next (s.vectorIssue c g) := by
  rw [hexec, State.command_ready h, State.issueVector_to hi hf]

/-- A chamber's scalar register holds 16 bits. -/
theorem Chamber.toNat_ofNat_scalar (x : Chamber) (r : BitVec 5) : (BitVec.ofNat 16 (x.scalar r)).toNat = x.scalar r := by
  unfold Chamber.scalar
  split
  · rfl
  · rw [ofNat_toNat_self]

/-- What an instruction of a chamber does where its predicate lets it act. -/
theorem State.if_setCh (s : State) (c : ChamberId) (b : Prop) [Decidable b] (x : Chamber) :
    (if b then s.setCh c x else s) = s.setCh c (if b then x else s.chAt c) := by
  split
  · rfl
  · rw [State.setCh_chAt]

/-! ## Scalar and immediate operations (R70, R71) -/

theorem State.vScalarOp_eq (s : State) {c : ChamberId} {f : Fields} {v : W16}
    (h : aluResult 16 f.minor.toNat (BitVec.ofNat 16 ((s.chAt c).scalar f.a)) (BitVec.ofNat 16 ((s.chAt c).scalar f.b)) = some v) :
    s.vScalarOp c f = s.setCh c (if (s.chAt c).executes f then
      (s.chAt c).scalarLater (if 0x10 ≤ f.minor.toNat then 3 else 1) 0 f.d v else s.chAt c) := by
  obtain ⟨n, hn, rfl⟩ := scalarAlu_eq_of_aluResult h
  rw [Chamber.toNat_ofNat_scalar, Chamber.toNat_ofNat_scalar] at hn
  simp only [State.vScalarOp, hn, State.sendScalar_eq, State.if_setCh]

theorem State.vScalarImm_eq (s : State) (c : ChamberId) (op : ImmOp) (f : Fields) :
    s.vScalarImm c op f = s.setCh c (if (s.chAt c).executes f then
      (s.chAt c).scalarLater 1 0 f.d (immResult 16 op (BitVec.ofNat 16 ((s.chAt c).scalar f.a)) (immBits f)) else s.chAt c) := by
  rw [← ofNat_scalarImm (by decide), Chamber.toNat_ofNat_scalar, ← State.if_setCh, ← State.sendScalar_eq]
  rfl

/-! ## Loads and stores (R44, R77) -/

theorem Chamber.memAddr_lt (x : Chamber) (f : Fields) (scale : Nat) : x.memAddr f scale < 262144 := by
  have hm := f.minor.isLt
  simp only [Chamber.memAddr, lsAddr]
  omega

/-- A line of the local store that an access touches does not depend on the low bits of the address. -/
theorem line_of_word (a : Nat) : a / 2 * 2 / 64 = a / 64 := by omega

/-- The word at an address, its two bytes in little-endian order. -/
theorem Chamber.ofNat_lsWord {x : Chamber} {a : Nat} (h : a < 262144) :
    BitVec.ofNat 16 (x.lsWord a) = x.store.byte (a / 2 * 2 + 1) ++ x.store.byte (a / 2 * 2) := by
  have hlow := (x.store.byte (a / 2 * 2)).isLt
  have hhigh := (x.store.byte (a / 2 * 2 + 1)).isLt
  apply BitVec.eq_of_toNat_eq
  simp only [Chamber.lsWord, Chamber.lsByte, Nat.mod_eq_of_lt h, Nat.mod_eq_of_lt (show a / 2 * 2 < 262144 by omega),
    Nat.mod_eq_of_lt (show a / 2 * 2 + 1 < 262144 by omega)]
  rw [BitVec.toNat_append, ← Nat.shiftLeft_add_eq_or_of_lt hlow, Nat.shiftLeft_eq, BitVec.toNat_ofNat]
  omega

theorem State.vLoadScalar_eq (s : State) {c : ChamberId} {f : Fields} (hb : f.b = 0#5) {a : Nat} (ha : a = (s.chAt c).memAddr f 2 / 2 * 2)
    (hc : (s.chAt c).Clear [a / 64]) :
    s.vLoadScalar c f = s.setCh c (if (s.chAt c).executes f then
      (s.chAt c).scalarLater 3 0 f.d ((s.chAt c).store.byte (a + 1) ++ (s.chAt c).store.byte a) else s.chAt c) := by
  subst ha
  rw [line_of_word] at hc
  rw [← Chamber.ofNat_lsWord (Chamber.memAddr_lt ..), ← State.if_setCh, ← State.sendScalar_eq]
  simp [State.vLoadScalar, hb, State.touch_clear hc]

theorem State.vStoreScalar_eq (s : State) {c : ChamberId} {f : Fields} (hb : f.b = 0#5) {a : Nat} (ha : a = (s.chAt c).memAddr f 2 / 2 * 2)
    (hc : (s.chAt c).Clear [a / 64]) :
    s.vStoreScalar c f = s.setCh c (if (s.chAt c).executes f then
      (s.chAt c).later 1 0 (.store [(a, BitVec.ofNat 8 ((s.chAt c).scalar f.d)), (a + 1, BitVec.ofNat 8 ((s.chAt c).scalar f.d / 256))])
      else s.chAt c) := by
  subst ha
  rw [← State.if_setCh, ← State.send_eq]
  simp [State.vStoreScalar, hb, State.touch_clear hc]

theorem line_of_line (a : Nat) : a / 64 * 64 / 64 = a / 64 := Nat.mul_div_cancel _ (by decide)

theorem State.vLoadLine_eq (s : State) {c : ChamberId} {f : Fields} (hb : f.b = 0#5) {a : Nat} (ha : a = (s.chAt c).memAddr f 64 / 64 * 64)
    (hc : (s.chAt c).Clear [a / 64]) :
    s.vLoadLine c f = s.setCh c
      ((s.chAt c).later 3 0 (.vector f.d.toFin ((s.chAt c).predicate f.pred) (BitVec.ofNat 512 ((s.chAt c).store.readLE a 64)))) := by
  subst ha
  rw [line_of_line] at hc
  rw [← State.send_eq]
  simp [State.vLoadLine, State.sendVec, hb, State.touch_clear hc]

theorem State.vStoreLine_eq (s : State) {c : ChamberId} {f : Fields} (hb : f.b = 0#5) {a : Nat} (ha : a = (s.chAt c).memAddr f 64 / 64 * 64)
    (hc : (s.chAt c).Clear [a / 64]) :
    s.vStoreLine c f = s.setCh c ((s.chAt c).later 1 0 (.store (laneCells a ((s.chAt c).predicate f.pred) ((s.chAt c).vector f.d)))) := by
  subst ha
  rw [← State.send_eq]
  rw [line_of_line] at hc
  simp [State.vStoreLine, hb, State.touch_clear hc]

/-- Settles O1: each instruction by what its meaning does to the chamber, the tables of R70 and R71 by their operations on bit vectors. -/
theorem chamberScalarSlot : Obligations.ChamberScalarSlot := by
  unfold Obligations.ChamberScalarSlot
  refine ⟨fun s c f h hi => ⟨?_, ?_, fun v hv => ?_, fun op => ?_⟩, fun s c f h hi hb => ⟨fun a ha hc => ⟨?_, ?_⟩, fun a ha hc => ⟨?_, ?_⟩⟩⟩
  · exact exec_scalarSlot h hi rfl (fun t _ _ => (t.setCh_chAt c).symm)
  · exact exec_vectorSlot h hi rfl (fun t _ _ => (t.setCh_chAt c).symm)
  · exact exec_scalarSlot h hi (f := fun s => s.vScalarOp c f) rfl (fun t ht _ => t.vScalarOp_eq (by rw [ht]; exact hv))
  · exact exec_scalarSlot h hi (f := fun s => s.vScalarImm c op f) rfl (fun t _ _ => t.vScalarImm_eq c op f)
  · exact exec_scalarSlot h hi (f := fun s => s.vLoadScalar c f) rfl (fun t ht _ => t.vLoadScalar_eq hb (by rw [ht]; exact ha) (by rw [ht]; exact hc))
  · exact exec_scalarSlot h hi (f := fun s => s.vStoreScalar c f) rfl (fun t ht _ => t.vStoreScalar_eq hb (by rw [ht]; exact ha) (by rw [ht]; exact hc))
  · exact exec_scalarSlot h hi (f := fun s => s.vLoadLine c f) rfl (fun t ht _ => t.vLoadLine_eq hb (by rw [ht]; exact ha) (by rw [ht]; exact hc))
  · exact exec_scalarSlot h hi (f := fun s => s.vStoreLine c f) rfl (fun t ht _ => t.vStoreLine_eq hb (by rw [ht]; exact ha) (by rw [ht]; exact hc))

end Sys2Proof.Machine
end

section

/-! # A chamber's vector slot (O4) -/

namespace Sys2Proof.Machine

/-! ## Lanes (R42) -/

/-- Bits of lanes packed one bit each. -/
theorem testBit_packLanes_one (f : Nat → Nat) (n i j : Nat) :
    (packLanes 1 f n i).testBit j = (decide (j < n) && (f (i + j)).testBit 0) := by
  induction n generalizing i j with
  | zero => simp [packLanes]
  | succ n ih =>
    rw [packLanes, Nat.pow_one, Nat.add_comm]
    cases j with
    | zero => simp [Nat.testBit_zero]
    | succ j =>
      have hlt : f i % 2 < 2 := Nat.mod_lt _ (by decide)
      rw [Nat.testBit_succ, Nat.mul_add_div (by decide), Nat.div_eq_of_lt hlt, Nat.add_zero, ih]
      simp [Nat.add_assoc, Nat.add_comm 1]

theorem getLsbD_mkPred (g : Nat → Bool) {i : Nat} (h : i < 32) : (mkPred g).getLsbD i = g i := by
  have hbit (b : Bool) : (b2n b).testBit 0 = b := by cases b <;> rfl
  rw [mkPred, BitVec.getLsbD_ofNat, testBit_packLanes_one, hbit, Nat.zero_add, decide_eq_true h, Bool.true_and, Bool.true_and]

/-- A predicate is the predicate of its bits. -/
theorem eq_mkPred {p : PredW} {g : Nat → Bool} (h : ∀ i, p.getLsbD i = g i) : p = mkPred g :=
  BitVec.eq_of_getLsbD_eq fun i hi => (h i).trans (getLsbD_mkPred g hi).symm

/-! ## Operations of major 0x30 (R83-R87) -/

theorem State.chMinor_of_eq {s : State} {c : ChamberId} {a b : Nat} (h : a = b) (g : State → State) :
    s.chMinor c (a = b) g = g s := if_pos (decide_eq_true h)

/-- A lane operation is none of the operations of major 0x30 that have a form of their own. -/
theorem ne_of_vecLane {op ty n a b i v : Nat} (h : vecLane op ty n a b i = some v) :
    op ≠ 0x0A ∧ op ≠ 0x0B ∧ op ≠ 0x0D ∧ op ≠ 0x0E ∧ ¬ (0x18 ≤ op ∧ op ≤ 0x1A) := by
  unfold vecLane at h
  split at h
  case h_12 => exact nomatch h
  all_goals decide

theorem ne_of_vecCmp {op ty a b : Nat} {v : Bool} (h : vecCmp op ty a b = some v) :
    op ≠ 0x0A ∧ op ≠ 0x0B ∧ op ≠ 0x0D ∧ op ≠ 0x0E ∧ ¬ (0x18 ≤ op ∧ op ≤ 0x1A) ∧ ∀ n i, vecLane op ty n a b i = none := by
  unfold vecCmp at h
  split at h
  case h_5 => exact nomatch h
  all_goals exact ⟨by decide, by decide, by decide, by decide, by decide, fun _ _ => rfl⟩

theorem State.vVectorOp_lanes (s : State) {c : ChamberId} {f : Fields} {op ty : Nat} (hop : op = f.minor.toNat % 64) (hty : ty = f.minor.toNat / 64)
    {g : Nat → Nat → Nat → Nat} (hr : vecReservedOk op f = true) (hg : ∀ a b i, vecLane op ty f.b.toNat a b i = some (g a b i)) :
    s.vVectorOp c f = s.setCh c ((s.chAt c).vectorLater 2 f.d f.pred
      (fun i => g (lane ((s.chAt c).vector f.a) i) (lane ((s.chAt c).vector f.b) i) i)) := by
  subst hop hty
  obtain ⟨h1, h2, h3, h4, h5⟩ := ne_of_vecLane (hg 0 0 0)
  rw [← State.sendVec_eq]
  simp only [State.vVectorOp, if_neg h1, if_neg h2, if_neg h3, if_neg h4, if_neg h5, hg, Option.isSome_some, if_true, hr, Option.getD_some]

theorem State.vVectorOp_compare (s : State) {c : ChamberId} {f : Fields} {op ty : Nat} (hop : op = f.minor.toNat % 64) (hty : ty = f.minor.toNat / 64)
    {g : Nat → Nat → Bool} (hd : f.d.toNat < 8) (hg : ∀ a b, vecCmp op ty a b = some (g a b)) :
    s.vVectorOp c f = s.setCh c ((s.chAt c).predLater 2 (f.d.setWidth 3) f.pred
      (fun i => g (lane ((s.chAt c).vector f.a) i) (lane ((s.chAt c).vector f.b) i))) := by
  subst hop hty
  obtain ⟨h1, h2, h3, h4, h5, h6⟩ := ne_of_vecCmp (hg 0 0)
  rw [← State.sendPred_eq]
  simp [State.vVectorOp, if_neg h1, if_neg h2, if_neg h3, if_neg h4, if_neg h5, h6, hg, predDest, Nat.not_lt.2 (Nat.le_of_lt_succ hd)]

theorem State.vPredOp_eq (s : State) {c : ChamberId} {f : Fields} {op : Nat} (hop : op = f.minor.toNat % 64) {g : Bool → Bool → Bool}
    (hd : f.d.toNat < 8) (ha : f.a.toNat < 8) (hb : f.b.toNat < 8) (hg : op = 0x18 ∧ g = and ∨ op = 0x19 ∧ g = or ∨ op = 0x1A ∧ g = xor) :
    s.vPredOp c f = s.setCh c ((s.chAt c).predLater 2 (f.d.setWidth 3) f.pred
      (fun i => g (((s.chAt c).predicate (f.a.setWidth 3)).getLsbD i) (((s.chAt c).predicate (f.b.setWidth 3)).getLsbD i))) := by
  have hz : ¬ (7 < f.d.toNat ∨ 7 < f.a.toNat ∨ 7 < f.b.toNat) := by omega
  subst hop
  rw [← State.sendPred_eq]
  simp only [State.vPredOp, if_neg hz, predDest]
  rcases hg with ⟨hop, rfl⟩ | ⟨hop, rfl⟩ | ⟨hop, rfl⟩
  · rw [hop, ← eq_mkPred fun i => BitVec.getLsbD_and]
    rfl
  · rw [hop, ← eq_mkPred fun i => BitVec.getLsbD_or]
    rfl
  · rw [hop, ← eq_mkPred fun i => BitVec.getLsbD_xor]
    rfl

theorem State.vVext_eq (s : State) {c : ChamberId} {f : Fields} (hp : f.pred = 0#3) :
    s.vVext c f = s.setCh c ((s.chAt c).scalarLater 2 1 f.d (BitVec.ofNat 16 (lane ((s.chAt c).vector f.a) f.b.toNat))) := by
  rw [← State.sendScalar_eq]
  simp [State.vVext, hp]

theorem State.vVbcast_eq (s : State) {c : ChamberId} {f : Fields} (hb : f.b = 0#5) :
    s.vVbcast c f = s.setCh c ((s.chAt c).vectorLater 2 f.d f.pred (fun _ => (s.chAt c).scalar f.a)) := by
  rw [← State.sendVec_eq]
  simp [State.vVbcast, hb]

@[simp] theorem Chamber.predicate_later (x : Chamber) (lat slot : Nat) (l : Landing) (r : BitVec 3) :
    (x.later lat slot l).predicate r = x.predicate r := rfl

/-- The smaller of each pair of lanes, and the other one. -/
def Chamber.minmax (x : Chamber) (f : Fields) : Chamber :=
  let small (i : Nat) : Bool := decide (laneVal (f.minor.toNat / 64) (lane (x.vector f.a) i) ≤ laneVal (f.minor.toNat / 64) (lane (x.vector f.b) i))
  (x.vectorLater 2 f.d f.pred (fun i => if small i then lane (x.vector f.a) i else lane (x.vector f.b) i)).vectorLater 2 (f.d + 1#5) f.pred
    (fun i => if small i then lane (x.vector f.b) i else lane (x.vector f.a) i)

theorem State.vMinmax_eq (s : State) {c : ChamberId} {f : Fields} (hd : f.d.toNat % 2 = 0) : s.vMinmax c f = s.setCh c ((s.chAt c).minmax f) := by
  have hodd : ¬ f.d.toNat % 2 = 1 := by omega
  simp [State.vMinmax, if_neg hodd, Chamber.minmax, vecLane, Chamber.vectorLater, State.sendVec, State.send_eq]

theorem State.vBlend_eq (s : State) {c : ChamberId} {f : Fields} {g : Nat → Nat → Nat → Nat} (hm : f.minor.toNat < 7)
    (hg : ∀ d v α, blendLane f.minor.toNat d v α = some (g d v α)) :
    s.vBlend c f = s.setCh c ((s.chAt c).vectorLater 2 f.d f.pred
      (fun i => g (lane ((s.chAt c).vector f.d) i) (lane ((s.chAt c).vector f.a) i) (lane ((s.chAt c).vector f.b) i))) := by
  rw [← State.sendVec_eq]
  simp only [State.vBlend, if_neg (show ¬ 6 < f.minor.toNat by omega), hg, Option.getD_some]

/-! ## Multiplies and accumulators (R88) -/

theorem State.vMulOp_acc (s : State) {c : ChamberId} {f : Fields} (hd : f.d.toNat < 4) :
    s.vMulOp c 1 f = s.setCh c ((s.chAt c).later 4 1 (.acc (f.d.setWidth 2).toFin ((s.chAt c).predicate f.pred)
      (mkAcc (fun i => laneProduct (f.minor.toNat / 64) (lane ((s.chAt c).vector f.a) i) (lane ((s.chAt c).vector f.b) i))))) :=
  if_neg (by omega)

theorem State.vMulOp_mac (s : State) {c : ChamberId} {f : Fields} (hd : f.d.toNat < 4) :
    s.vMulOp c 2 f = s.setCh c ((s.chAt c).later 4 1 (.mac (f.d.setWidth 2).toFin ((s.chAt c).predicate f.pred)
      (mkAcc (fun i => laneProduct (f.minor.toNat / 64) (lane ((s.chAt c).vector f.a) i) (lane ((s.chAt c).vector f.b) i))))) :=
  if_neg (by omega)

theorem State.vMulOp_narrow (s : State) {c : ChamberId} {f : Fields} (ha : f.a.toNat < 4) :
    s.vMulOp c 3 f = s.setCh c ((s.chAt c).vectorLater 4 f.d f.pred
      (fun i => satLane (f.minor.toNat / 64) (roundShift (accLane ((s.chAt c).accum (f.a.setWidth 2)) i) f.b.toNat))) :=
  if_neg (by omega)

/-- Settles O4: each instruction by the result that its meaning sends, lane by lane. -/
theorem vectorResults : Obligations.VectorResults := by
  unfold Obligations.VectorResults
  refine ⟨fun s c f h hi op ty hop hty => ⟨fun g hr hg => ?_, fun g hd hg => ?_, fun g hd ha hb hg => ?_, fun hm hp => ?_, fun hm hb => ?_,
    fun hm hd => ?_, fun g hm hg => ?_⟩, fun s c f h hi ty hty => ⟨fun hm => ?_, fun hm hd => ?_, fun hm hd => ?_, fun hm ha => ?_⟩⟩
  · exact exec_vectorSlot h hi (f := fun s => s.vVectorOp c f) rfl (fun t _ _ => t.vVectorOp_lanes hop hty hr hg)
  · exact exec_vectorSlot h hi (f := fun s => s.vVectorOp c f) rfl (fun t _ _ => t.vVectorOp_compare hop hty hd hg)
  · exact exec_vectorSlot h hi (f := fun s => s.vPredOp c f) rfl (fun t _ _ => t.vPredOp_eq hop hd ha hb hg)
  · exact exec_vectorSlot h hi (f := fun s => s.chMinor c (minorOp f = 0x0B) (fun s => s.vVext c f)) rfl
      (fun t _ _ => (State.chMinor_of_eq (hop.symm.trans hm) _).trans (t.vVext_eq hp))
  · exact exec_vectorSlot h hi (f := fun s => s.chMinor c (minorOp f = 0x0A) (fun s => s.vVbcast c f)) rfl
      (fun t _ _ => (State.chMinor_of_eq (hop.symm.trans hm) _).trans (t.vVbcast_eq hb))
  · subst hty
    exact exec_vectorSlot h hi (f := fun s => s.chMinor c (minorOp f = 0x0E) (fun s => s.vMinmax c f)) (g := fun x => x.minmax f) rfl
      (fun t _ _ => (State.chMinor_of_eq (hop.symm.trans hm) _).trans (t.vMinmax_eq hd))
  · exact exec_vectorSlot h hi (f := fun s => s.vBlend c f) rfl (fun t _ _ => t.vBlend_eq hm hg)
  · subst hty
    exact exec_vectorSlot h hi (f := fun s => s.chMinor c (minorOp f = 0) (fun s => s.vMulOp c 0 f)) rfl
      (fun t _ _ => (State.chMinor_of_eq hm _))
  · subst hty
    exact exec_vectorSlot h hi (f := fun s => s.chMinor c (minorOp f = 1) (fun s => s.vMulOp c 1 f)) rfl
      (fun t _ _ => (State.chMinor_of_eq hm _).trans (t.vMulOp_acc hd))
  · subst hty
    exact exec_vectorSlot h hi (f := fun s => s.chMinor c (minorOp f = 2) (fun s => s.vMulOp c 2 f)) rfl
      (fun t _ _ => (State.chMinor_of_eq hm _).trans (t.vMulOp_mac hd))
  · subst hty
    exact exec_vectorSlot h hi (f := fun s => s.chMinor c (minorOp f = 3) (fun s => s.vMulOp c 3 f)) rfl
      (fun t _ _ => (State.chMinor_of_eq hm _).trans (t.vMulOp_narrow ha))

end Sys2Proof.Machine
end

section

/-! # Retry stalls (O6, O13) -/

namespace Sys2Proof.Machine

/-! ## Retry stalls (R48, R102, R105) -/

/-- In a retry stall no result lands. -/
theorem State.resultLand_stalled {s : State} (h : s.seq.stallCycle.isSome = true) (c : ChamberId) : s.resultLand c = s := if_pos h

theorem exec_resultLand {s : State} (h : s.Ready) (c : ChamberId) : exec (.resultLand c) s = .next (s.resultLand c) :=
  State.command_ready h (fun s => s.resultLand c)

/-- The sequencer runs and a retry stall is in progress; chamber 0 has halted in cycle 7 and has one scalar result in flight. -/
def stalledLanding : State :=
  State.setCh { State.reset with seq := { Seq.reset with state := .free, first := false, stallCycle := some 7 } } 0
    { Chamber.reset with halted := true, cycle := 7, inFlight := [{ due := 9, order := 12, land := .scalar 1 5#16 }] }

theorem stalledLanding_ready : stalledLanding.Ready := by unfold State.Ready; decide +kernel

/-- Refutes O6: the statement asks RESULT_LAND to land a lone scalar result in every settled device. `stalledLanding` is in a retry stall, in which no
schedule cycle passes and no result lands (R102, R105), and the statement has no premise that excludes one. -/
theorem not_requestsAndResultsLand : ¬ Obligations.RequestsAndResultsLand := by
  unfold Obligations.RequestsAndResultsLand
  rintro ⟨-, hland⟩
  have hlands := hland stalledLanding 0 1 5#16 { due := 9, order := 12, land := .scalar 1 5#16 } stalledLanding_ready rfl rfl rfl rfl rfl
  rw [exec_resultLand stalledLanding_ready, State.resultLand_stalled rfl, Host.Outcome.next.injEq] at hlands
  have hflight := congrArg (fun s : State => (s.chAt 0).inFlight.length) hlands
  exact absurd hflight (by decide)

/-! ## Locks in a retry stall (R109, R323) -/

theorem exec_lockStart {s : State} (h : s.Ready) (index : Fin 512) : exec (.lockStart index) s = .next (s.sluiceForce.lockStart index) :=
  State.command_ready h (fun s => s.sluiceForce.lockStart index)

/-- What is left of a sluice that waits for the twin's records: its orders 8 to 10. -/
def waitingForTwin : SluiceWork :=
  { order := 8, first := false, stopping := false, errs := [], cal := none, vled := 0, complete := 0, closing := false, egress := false, fences := 0,
    shadow := false, committed := false }

/-- A paired device with a peer session: the sequencer runs, a retry stall is in progress, and the last sluice waits for the twin's records. -/
def stalledSluice : State := State.settle
  { State.reset.having [(Reg.PEER_CFG_PAIRED, 1), (Reg.PEER_STATUS_ROLE, 2), (Reg.LNK_STATUS_STATE 1, 5), (Reg.LNK_STATUS_WIDTH 1, 3)] with
    now := 20000000000, mode := { State.reset.mode with phase := .running },
    seq := { Seq.reset with state := .locked, first := false, stallCycle := some 7 },
    sec := { Trust.reset with peer := some { inKey := [], outKey := [], inSalt := [], outSalt := [] } },
    peer := { Peer.reset with work := some waitingForTwin } }

theorem stalledSluice_ready : stalledSluice.Ready := by unfold State.Ready; decide +kernel

/-- LOCK_START ends the wait of the sluice, in a retry stall as well. -/
theorem work_lockStart_stalledSluice : (stalledSluice.sluiceForce.lockStart (0 : Fin 512)).peer.work.isSome = false := by decide +kernel

/-- Refutes O13: the statement asks that LOCK_START leave a settled device in a retry stall as it is. The row first does what a sluice that waits for
the twin has still to do (R323), and only then finds the stall, in which no lock starts. In `stalledSluice` a sluice waits, and its work is done
after the row; the statement has the premise that none waits in its clause of a lock's start only. -/
theorem not_locksRun : ¬ Obligations.LocksRun := by
  unfold Obligations.LocksRun
  intro h
  obtain ⟨-, hstall, -⟩ := h stalledSluice 0 stalledSluice_ready
  obtain ⟨hstart, -⟩ := hstall (by decide +kernel)
  have hsame := hstart 0
  rw [exec_lockStart stalledSluice_ready, Host.Outcome.next.injEq] at hsame
  have hwork := work_lockStart_stalledSluice
  rw [hsame] at hwork
  exact absurd hwork (by decide +kernel)

end Sys2Proof.Machine
end

section

/-! # Breaches of a chamber -/

namespace Sys2Proof.Machine

/-! ## What the reaction to a raise leaves (R249-R257) -/

/-- The register fields that the signalling of a raise and a reaction other than a block reset may change: the FAULT bit and the message count, the
escalation timer's, and the fences. -/
def reactionFields : List Fld :=
  [Reg.RIF_INT_STATUS_FAULT, Reg.RIF_MSG_COUNT_COUNT, Reg.FLT_NMI_TIMING, Reg.FLT_NMI_SOURCE, Reg.FLT_FENCE_CHAMBER, Reg.FLT_FENCE_REACH]

/-- The keys of all other fields. -/
def beyondReaction (k : Nat) : Bool := reactionFields.all (fun f => f.key != k)

namespace State

theorem signalFault_leaves (s : State) (n : Nat) : s.Leaves beyondReaction (s.signalFault n) := by
  have hflag : s.Leaves beyondReaction (s.flag Reg.RIF_INT_STATUS_FAULT) := .flag (.refl _ _) (by decide)
  have hmsg (t : State) (code arg : Nat) (payload : List Byte) : t.Leaves beyondReaction (t.sendMsg code arg payload) :=
    .ite (.inc .of_same (by decide)) (.refl _ _)
  exact .ite (.ite (hflag.trans (hmsg ..)) hflag) (.refl _ _)

theorem escalate_leaves (s : State) (n : Nat) : s.Leaves beyondReaction (s.escalate n) :=
  .ite (.put (.put .of_same (by decide)) (by decide)) (.refl _ _)

theorem fenceReach_leaves (s : State) (k : Nat) : s.Leaves beyondReaction (s.putBit Reg.FLT_FENCE_REACH k true) := .putBit (.refl _ _) (by decide)

theorem fenceChamber_leaves (s : State) (k : Nat) : s.Leaves beyondReaction (s.fenceChamber k) := by
  have hbits : s.Leaves beyondReaction ((s.putBit Reg.FLT_FENCE_CHAMBER k true).putBit Reg.FLT_FENCE_REACH k true) :=
    .putBit (.putBit (.refl _ _) (by decide)) (by decide)
  refine hbits.trans ?_
  unfold State.fenceChamber
  split
  · exact .of_same
  · exact .refl _ _

theorem lightReaction_leaves (s : State) (n : Nat) (locus : Option Nat) : s.Leaves beyondReaction (s.lightReaction n locus) := by
  unfold State.lightReaction
  extract_lets lasting s1 flt s2
  have h1 : s.Leaves beyondReaction s1 := .ite .of_same (.refl _ _)
  have h2 : s.Leaves beyondReaction s2 := h1.trans (.ite .of_same (.refl _ _))
  refine .ite ?_ h1
  split
  · exact h2
  · exact h2
  · exact h2.trans (fenceReach_leaves ..)
  · exact h2.trans (.ite (fenceChamber_leaves ..) (fenceReach_leaves ..))

/-- The reaction of a control-class source that no block reset belongs to. -/
theorem controlReaction_leaves (s : State) {n : Nat} (hb : blockOf n = none) : s.Leaves beyondReaction (s.controlReaction n) := by
  unfold State.controlReaction
  extract_lets resets s1 s2 s3 s4
  have h1 : s.Leaves beyondReaction s1 := .ite .of_same (.refl _ _)
  clear_value s1
  have h2 : s.Leaves beyondReaction s2 := h1.trans (.ite .of_same (.refl _ _))
  clear_value s2
  have h3 : s.Leaves beyondReaction s3 := h2.trans (.ite (by rw [hb]; exact .refl _ _) (.refl _ _))
  clear_value s3
  have h4 : s.Leaves beyondReaction s4 := h3.trans (.ite .of_same (.refl _ _))
  clear_value s4
  have hreset (t : State) : t.Leaves beyondReaction (t.requestReset n) := .of_same
  exact h4.trans (.ite (hreset _) (.refl _ _))

/-- What follows the record of a raise, of a source without a block reset. -/
theorem raiseAt_leaves (s : State) {n : Nat} (hb : Src.light n = true ∨ blockOf n = none) (locus : Option Nat) :
    (s.recordRaise n locus).Leaves beyondReaction (s.raiseAt n locus) := by
  refine ((signalFault_leaves _ n).trans (escalate_leaves _ n)).trans ?_
  by_cases hl : Src.light n = true
  · rw [State.raiseAt, if_pos hl]
    exact lightReaction_leaves ..
  · rw [State.raiseAt, if_neg hl]
    exact controlReaction_leaves _ (hb.resolve_left hl)

theorem beyondReaction_sticky {n : Nat} (hn : n < 192) : beyondReaction (Reg.FLT_STICKY_STICKY (n / 32)).key = true := by
  have hfields : ∀ f ∈ reactionFields, f.key < 0xD100 * 32 ∨ 0xD118 * 32 ≤ f.key := by decide
  refine List.all_eq_true.2 (fun f hf => bne_iff_ne.2 (fun he => ?_))
  have hf := hfields f hf
  rw [he] at hf
  simp only [Fld.key] at hf
  omega

theorem sticky_recordRaise (s : State) (n : Nat) (locus : Option Nat) : (s.recordRaise n locus).sticky n = true := by
  have hkey : (Reg.FLT_REACT_COUNT n).key ≠ (Reg.FLT_STICKY_STICKY (n / 32)).key := by
    simp only [Fld.key]
    omega
  have hbit := bitOf_putBit_self s (f := Reg.FLT_STICKY_STICKY (n / 32)) (i := n % 32) (show n % 32 < 32 from Nat.mod_lt n (by decide))
  exact (bitOf_congr (rd_inc_other (s.putBit (Reg.FLT_STICKY_STICKY (n / 32)) (n % 32) true) 1 hkey) _).trans hbit

theorem sticky_raiseAt (s : State) {n : Nat} (hn : n < 192) (hb : Src.light n = true ∨ blockOf n = none) (locus : Option Nat) :
    (s.raiseAt n locus).sticky n = true :=
  (bitOf_congr ((raiseAt_leaves s hb locus).rd _ (beyondReaction_sticky hn)) _).trans (sticky_recordRaise s n locus)

/-- What a real raise notes before it is recorded: its live bit and its time (R250). -/
def noteRaise (s : State) (n : Nat) : State :=
  { s.setLive n true with flt := { (s.setLive n true).flt with lastRaise := Sparse.set (s.setLive n true).flt.lastRaise 0 n (s.setLive n true).now } }

theorem raise_eq_raiseAt (s : State) (n : Nat) (locus : Option Nat) : s.raise n locus = (s.noteRaise n).raiseAt n locus := rfl

/-- A source that has been raised is sticky. -/
theorem sticky_raise (s : State) {n : Nat} (hn : n < 192) (hb : Src.light n = true ∨ blockOf n = none) (locus : Option Nat) :
    (s.raise n locus).sticky n = true := by
  rw [raise_eq_raiseAt]
  exact sticky_raiseAt _ hn hb locus

/-! ## Chambers over a raise (R255) -/

theorem ch_sendMsg (s : State) (code arg : Nat) (payload : List Byte) : (s.sendMsg code arg payload).ch = s.ch := by
  unfold State.sendMsg
  split <;> rfl

theorem ch_signalFault (s : State) (n : Nat) : (s.signalFault n).ch = s.ch := by
  simp only [State.signalFault]
  split
  · split
    · exact ch_sendMsg ..
    · rfl
  · rfl

theorem ch_escalate (s : State) (n : Nat) : (s.escalate n).ch = s.ch := by
  unfold State.escalate
  split <;> rfl

/-- A chamber that issues nothing until its next lock. -/
def Idles (s : State) (c : ChamberId) : Prop := (s.chAt c).halted = true ∧ (s.chAt c).running = false

theorem Idles.of_ch {s t : State} {c : ChamberId} (h : s.Idles c) (hch : t.ch = s.ch) : t.Idles c := by
  simpa only [State.Idles, State.chAt, hch] using h

theorem Idles.ite {s t : State} {c : ChamberId} {p : Prop} [Decidable p] (hs : s.Idles c) (ht : t.Idles c) : (if p then s else t).Idles c := by
  split
  · exact hs
  · exact ht

theorem Idles.fenceChamber {s : State} {c : ChamberId} (h : s.Idles c) (k : Nat) : (s.fenceChamber k).Idles c := by
  simp only [State.fenceChamber]
  split
  · next hk =>
    by_cases hkc : (⟨k, hk⟩ : Fin 16) = c
    · simp [State.Idles, hkc]
    · simp only [State.Idles, chAt_setCh_other _ _ hkc]
      exact h
  · exact h

theorem Idles.lightReaction {s : State} {c : ChamberId} (h : s.Idles c) (n : Nat) (locus : Option Nat) : (s.lightReaction n locus).Idles c := by
  unfold State.lightReaction
  extract_lets lasting s1 flt s2
  have h1 : s1.Idles c := .ite (h.of_ch rfl) h
  have h2 : s2.Idles c := .ite (h1.of_ch rfl) h1
  refine .ite ?_ h1
  split
  · exact h2
  · exact h2
  · exact h2.of_ch rfl
  · exact .ite (h2.fenceChamber _) (h2.of_ch rfl)

theorem Idles.raiseAt {s : State} {c : ChamberId} (h : s.Idles c) {n : Nat} (hl : Src.light n = true) (locus : Option Nat) :
    (s.raiseAt n locus).Idles c := by
  have hch : (((s.recordRaise n locus).signalFault n).escalate n).ch = s.ch := (ch_escalate _ n).trans (ch_signalFault _ n)
  rw [State.raiseAt, if_pos hl]
  exact (h.of_ch hch).lightReaction n locus

/-- The raise of a light-class source leaves a halted chamber halted. -/
theorem Idles.raise {s : State} {c : ChamberId} (h : s.Idles c) {n : Nat} (hl : Src.light n = true) (locus : Option Nat) :
    (s.raise n locus).Idles c := by
  have hnoted : (s.noteRaise n).Idles c := h
  rw [raise_eq_raiseAt]
  exact hnoted.raiseAt hl locus

/-! ## Breaches (R54, R121, R249) -/

/-- What CHM_BREACH holds of a breach. -/
def recordBreach (s : State) (c : ChamberId) (n at_ : Nat) : State :=
  ((((s.flag (Reg.CHM_BREACH_VALID c)).put (Reg.CHM_BREACH_SOURCE c) n).put (Reg.CHM_BREACH_LOCK c) (s.chAt c).lock).put
    (Reg.CHM_BREACH_CYCLE_CYCLE c) (at_ - (s.chAt c).lockStart)).put (Reg.CHM_BREACH_PC_PC c) (s.chAt c).pc

/-- The instant of a source's raise at a locus is noted. -/
def noteInstant (s : State) (n : Nat) (locus : Option Nat) (instant : Nat) : State :=
  { s with flt := { s.flt with instants := (n, locus, instant) :: s.flt.instants.filter (fun x => !(x.1 == n && x.2.1 == locus)) } }

/-- A raise of a source that has not been raised at this locus and instant. -/
theorem raiseOnce_fresh {s : State} {n : Nat} {locus : Option Nat} {instant : Nat} (h : (n, locus, instant) ∉ s.flt.instants) :
    s.raiseOnce n locus instant = (s.noteInstant n locus instant).raise n locus := by
  have hnot : ¬ s.flt.instants.contains (n, locus, instant) = true := by simpa using h
  rw [State.raiseOnce, if_neg hnot, noteInstant]

/-- A breach that has not been raised in this cycle is recorded, then raised. -/
theorem breach_raises {s : State} {c : ChamberId} {n : Nat} (hfresh : (n, some c.val, (s.chAt c).cycle) ∉ s.flt.instants) :
    ∃ u : State, s.breach c n = u.raise n (some c.val) ∧ u.regs = (s.recordBreach c n (s.chAt c).cycle).regs ∧ u.ch = s.ch := by
  have hbreach : s.breach c n = (s.recordBreach c n (s.chAt c).cycle).raiseOnce n (some c.val) (s.chAt c).cycle := rfl
  have hinstants : (s.recordBreach c n (s.chAt c).cycle).flt.instants = s.flt.instants := rfl
  exact ⟨_, hbreach.trans (raiseOnce_fresh (hinstants ▸ hfresh)), rfl, rfl⟩

/-- What a breach in a chamber's present cycle records and raises, the chamber having halted. -/
structure Breached (s : State) (c : ChamberId) (n : Nat) (t : State) : Prop where
  idles : t.Idles c
  source : t.rd (Reg.CHM_BREACH_SOURCE c) = n
  valid : t.on (Reg.CHM_BREACH_VALID c) = true
  pc : t.rd (Reg.CHM_BREACH_PC_PC c) = (s.chAt c).pc % 8192
  lock : t.rd (Reg.CHM_BREACH_LOCK c) = (s.chAt c).lock % 512
  cycle : t.rd (Reg.CHM_BREACH_CYCLE_CYCLE c) = ((s.chAt c).cycle - (s.chAt c).lockStart) % 2 ^ (Reg.CHM_BREACH_CYCLE_CYCLE c).w
  sticky : t.sticky n = true
  live : t.live n = true

/-- The breach record holds what was written last in each of its fields. -/
theorem rd_recordBreach (s : State) (c : ChamberId) (n at_ : Nat) :
    (s.recordBreach c n at_).rd (Reg.CHM_BREACH_SOURCE c) = n % 256 ∧ (s.recordBreach c n at_).rd (Reg.CHM_BREACH_VALID c) = 1 ∧
    (s.recordBreach c n at_).rd (Reg.CHM_BREACH_PC_PC c) = (s.chAt c).pc % 8192 ∧
    (s.recordBreach c n at_).rd (Reg.CHM_BREACH_LOCK c) = (s.chAt c).lock % 512 ∧
    (s.recordBreach c n at_).rd (Reg.CHM_BREACH_CYCLE_CYCLE c) = (at_ - (s.chAt c).lockStart) % 2 ^ (Reg.CHM_BREACH_CYCLE_CYCLE c).w := by
  have hkeys : (Reg.CHM_BREACH_PC_PC c).key ≠ (Reg.CHM_BREACH_CYCLE_CYCLE c).key ∧ (Reg.CHM_BREACH_PC_PC c).key ≠ (Reg.CHM_BREACH_LOCK c).key ∧
      (Reg.CHM_BREACH_PC_PC c).key ≠ (Reg.CHM_BREACH_SOURCE c).key ∧ (Reg.CHM_BREACH_PC_PC c).key ≠ (Reg.CHM_BREACH_VALID c).key ∧
      (Reg.CHM_BREACH_CYCLE_CYCLE c).key ≠ (Reg.CHM_BREACH_LOCK c).key ∧ (Reg.CHM_BREACH_CYCLE_CYCLE c).key ≠ (Reg.CHM_BREACH_SOURCE c).key ∧
      (Reg.CHM_BREACH_CYCLE_CYCLE c).key ≠ (Reg.CHM_BREACH_VALID c).key ∧ (Reg.CHM_BREACH_LOCK c).key ≠ (Reg.CHM_BREACH_SOURCE c).key ∧
      (Reg.CHM_BREACH_LOCK c).key ≠ (Reg.CHM_BREACH_VALID c).key ∧ (Reg.CHM_BREACH_SOURCE c).key ≠ (Reg.CHM_BREACH_VALID c).key := by
    simp only [Fld.key]
    omega
  obtain ⟨hpy, hpl, hps, hpv, hyl, hys, hyv, hls, hlv, hsv⟩ := hkeys
  unfold recordBreach
  refine ⟨?_, ?_, State.rd_put_self .., ?_, ?_⟩
  · rw [rd_put_other _ _ hps, rd_put_other _ _ hys, rd_put_other _ _ hls]
    exact rd_put_self ..
  · rw [rd_put_other _ _ hpv, rd_put_other _ _ hyv, rd_put_other _ _ hlv, rd_put_other _ _ hsv]
    exact rd_put_self ..
  · rw [rd_put_other _ _ hpl, rd_put_other _ _ hyl]
    exact rd_put_self ..
  · rw [rd_put_other _ _ hpy, rd_put_self]

/-- The breach of a chamber that halts, by a light-class source not raised for it in this cycle. -/
theorem breach_breached {s : State} {c : ChamberId} {n : Nat} (hl : Src.light n = true) (hn : n < 192) (hi : s.Idles c)
    (hfresh : (n, some c.val, (s.chAt c).cycle) ∉ s.flt.instants) : s.Breached c n (s.breach c n) := by
  obtain ⟨u, hu, hregs, hch⟩ := breach_raises hfresh
  rw [hu]
  obtain ⟨hsource, hvalid, hpc, hlock, hcycle⟩ := s.rd_recordBreach c n (s.chAt c).cycle
  have hrd {g : Fld} (hg : lowKey g.key = true) : (u.raise n (some c.val)).rd g = (s.recordBreach c n (s.chAt c).cycle).rd g :=
    ((leaves_raise u hn (some c.val)).rd g hg).trans (by rw [State.rd, hregs, State.rd])
  have hlow {f : Fld} (ho : f.off < 0x7000) (hlo : f.lo < 32) : lowKey f.key = true := decide_eq_true (by simp only [Fld.key]; omega)
  have ksource : lowKey (Reg.CHM_BREACH_SOURCE c).key = true := hlow (by dsimp only; omega) (by dsimp only; omega)
  have kvalid : lowKey (Reg.CHM_BREACH_VALID c).key = true := hlow (by dsimp only; omega) (by dsimp only; omega)
  have kpc : lowKey (Reg.CHM_BREACH_PC_PC c).key = true := hlow (by dsimp only; omega) (by dsimp only; omega)
  have klock : lowKey (Reg.CHM_BREACH_LOCK c).key = true := hlow (by dsimp only; omega) (by dsimp only; omega)
  have kcycle : lowKey (Reg.CHM_BREACH_CYCLE_CYCLE c).key = true := hlow (by dsimp only; omega) (by dsimp only; omega)
  refine ⟨(hi.of_ch hch).raise hl _, ?_, ?_, (hrd kpc).trans hpc, (hrd klock).trans hlock, (hrd kcycle).trans hcycle, sticky_raise _ hn (.inl hl) _,
    live_raise _ hn _⟩
  · rw [hrd ksource, hsource, Nat.mod_eq_of_lt (by omega)]
  · rw [State.on, hrd kvalid, hvalid]
    rfl

/-- A chamber halts with a breach. -/
def haltBreach (s : State) (c : ChamberId) (n : Nat) : State := (s.setCh c (s.chAt c).halt).breach c n

theorem haltBreach_breached {s : State} {c : ChamberId} {n : Nat} (hl : Src.light n = true) (hn : n < 192)
    (hfresh : (n, some c.val, (s.chAt c).cycle) ∉ s.flt.instants) : s.Breached c n (s.haltBreach c n) := by
  have hhalt : (s.setCh c (s.chAt c).halt).chAt c = (s.chAt c).halt := chAt_setCh ..
  have h : (s.setCh c (s.chAt c).halt).Breached c n (s.haltBreach c n) :=
    breach_breached hl hn (by rw [State.Idles, hhalt]; exact ⟨rfl, rfl⟩) (by rw [hhalt]; exact hfresh)
  obtain ⟨hidles, hsource, hvalid, hpc, hlock, hcycle, hsticky, hlive⟩ := h
  rw [hhalt] at hpc hlock hcycle
  exact ⟨hidles, hsource, hvalid, hpc, hlock, hcycle, hsticky, hlive⟩

/-- A breach in the bundle that an instruction has opened is one of the cycle in which it issues. -/
theorem Breached.of_opened {s t : State} {c : ChamberId} {n : Nat} {x : Chamber} (h : (s.setCh c x).Breached c n t) (hpc : x.pc = (s.chAt c).pc := by rfl)
    (hlock : x.lock = (s.chAt c).lock := by rfl) (hcycle : x.cycle = (s.chAt c).cycle := by rfl)
    (hstart : x.lockStart = (s.chAt c).lockStart := by rfl) : s.Breached c n t := by
  obtain ⟨hidles, hsource, hvalid, hp, hl, hc, hsticky, hlive⟩ := h
  rw [chAt_setCh] at hp hl hc
  rw [hpc] at hp
  rw [hlock] at hl
  rw [hcycle, hstart] at hc
  exact ⟨hidles, hsource, hvalid, hp, hl, hc, hsticky, hlive⟩

end State
end Sys2Proof.Machine
end

section

/-! # A chamber's control flow, and words as commands -/

namespace Sys2Proof.Machine

/-! ## Control flow (R55, R80-R82) -/

theorem State.vLoop_pushes (s : State) {c : ChamberId} {body : BitVec 12} {trip : BitVec 16} (hb : body ≠ 0#12) (hl : (s.chAt c).loops.length < 3)
    (hend : ∀ e ∈ (s.chAt c).loops.head?, (s.chAt c).pc + body.toNat ≤ e.stop) :
    s.vLoop c body trip = s.setCh c { s.chAt c with loops :=
      { start := (s.chAt c).pc + 1, stop := (s.chAt c).pc + body.toNat, remaining := if trip = 0#16 then 65536 else trip.toNat } ::
        (s.chAt c).loops } := by
  cases hloops : (s.chAt c).loops with
  | nil => simp [State.vLoop, hb, hloops]
  | cons e es =>
    have hin := hend e (by rw [hloops]; rfl)
    have hlen : es.length + 1 < 3 := by rwa [hloops] at hl
    simp only [State.vLoop, if_neg hb, hloops, List.length_cons, decide_eq_true_eq]
    rw [if_neg (Nat.not_lt.2 hin), if_neg (Nat.not_le.2 hlen)]

theorem State.vLoop_empty (s : State) (c : ChamberId) (trip : BitVec 16) : s.vLoop c 0#12 trip = s.haltBreach c 102 := rfl

theorem State.vJump_eq (s : State) (c : ChamberId) {f : Fields} (hd : f.d = 0#5) (ha : f.a = 0#5) (hp : f.pred = 0#3) :
    s.vJump c f = s.setCh c { s.chAt c with transfers := { left := 3, target := f.target } :: (s.chAt c).transfers } :=
  if_neg (by simp [hd, ha, hp])

theorem State.vCall_pushes (s : State) {c : ChamberId} {f : Fields} (hd : f.d = 0#5) (ha : f.a = 0#5) (hp : f.pred = 0#3)
    (hl : (s.chAt c).calls.length < 4) :
    s.vCall c f = s.setCh c { s.chAt c with
      calls := ((s.chAt c).pc + 3) :: (s.chAt c).calls, transfers := { left := 3, target := f.target } :: (s.chAt c).transfers } := by
  simp [State.vCall, hd, ha, hp, Nat.not_le.2 hl, State.transferTo]

theorem State.vCall_full (s : State) {c : ChamberId} {f : Fields} (hd : f.d = 0#5) (ha : f.a = 0#5) (hp : f.pred = 0#3)
    (hl : 4 ≤ (s.chAt c).calls.length) : s.vCall c f = s.haltBreach c 103 := by
  simp only [State.vCall, if_neg (show ¬ (f.d ≠ 0#5 ∨ f.a ≠ 0#5 ∨ f.pred ≠ 0#3) by simp [hd, ha, hp]), ge_iff_le, if_pos hl]
  rfl

theorem State.chMinor_true {s : State} {c : ChamberId} {p : Prop} [Decidable p] (h : p) (g : State → State) : s.chMinor c p g = g s :=
  if_pos (decide_eq_true h)

theorem State.vRet_pops (s : State) {c : ChamberId} {f : Fields} (hf : Fields.OnlyMinor f) {t : Nat} {ts : List Nat} (hc : (s.chAt c).calls = t :: ts) :
    s.vRet c f = s.setCh c { s.chAt c with calls := ts, transfers := { left := 3, target := t } :: (s.chAt c).transfers } := by
  obtain ⟨hd, ha, hb, hp⟩ := hf
  simp [State.vRet, hd, ha, hb, hp, hc, State.transferTo]

theorem State.vRet_empty (s : State) {c : ChamberId} {f : Fields} (hf : Fields.OnlyMinor f) (hc : (s.chAt c).calls = []) :
    s.vRet c f = s.haltBreach c 103 := by
  obtain ⟨hd, ha, hb, hp⟩ := hf
  simp only [State.vRet, if_neg (show ¬ (f.d ≠ 0#5 ∨ f.a ≠ 0#5 ∨ f.b ≠ 0#5 ∨ f.pred ≠ 0#3) by simp [hd, ha, hb, hp]), hc]
  rfl

/-- A HALT out of a lock, or no earlier than its last cycle. -/
theorem State.vHalt_ends (s : State) {c : ChamberId} {f : Fields} (hf : Fields.OnlyMinor f)
    (hl : ∀ l, (s.chAt c).running = true → s.lockOf (s.chAt c) = some l → l.length ≤ (s.chAt c).cycle - (s.chAt c).lockStart + 1) :
    s.vHalt c f = s.setCh c { s.chAt c with running := false, halted := true } := by
  obtain ⟨hd, ha, hb, hp⟩ := hf
  simp only [State.vHalt, if_neg (show ¬ (f.d ≠ 0#5 ∨ f.a ≠ 0#5 ∨ f.b ≠ 0#5 ∨ f.pred ≠ 0#3) by simp [hd, ha, hb, hp])]
  cases hr : (s.chAt c).running with
  | false => rfl
  | true =>
    cases hlock : s.lockOf (s.chAt c) with
    | none => rfl
    | some l =>
      have hlate : ¬ (s.chAt c).cycle - (s.chAt c).lockStart < l.length - 1 := by
        have := hl l hr hlock
        omega
      simp only [Bool.true_and, decide_eq_true_eq, if_neg hlate]
      rfl

theorem State.vRdctx_eq (s : State) {c : ChamberId} {f : Fields} (ha : f.a = 0#5) {v : Nat}
    (hv : f.b = 0#5 ∧ v = s.rd Reg.SEQ_LOCK_NUMBER_LOCK_NUMBER % 65536 ∨ f.b = 1#5 ∧ v = s.rd Reg.SEQ_LOCK_NUMBER_LOCK_NUMBER / 65536 ∨
      f.b = 2#5 ∧ v = c.val ∨ f.b = 3#5 ∧ v = (s.chAt c).lock) :
    s.vRdctx c f = s.setCh c (if (s.chAt c).executes f then (s.chAt c).scalarLater 1 0 f.d (BitVec.ofNat 16 v) else s.chAt c) := by
  rw [← State.if_setCh, ← State.sendScalar_eq]
  rcases hv with ⟨hb, rfl⟩ | ⟨hb, rfl⟩ | ⟨hb, rfl⟩ | ⟨hb, rfl⟩
  all_goals simp [State.vRdctx, ha, hb]

/-! ## Instructions that halt their chamber (R54, R66) -/

theorem exec_scalarSlot_halts {s : State} {c : ChamberId} (h : s.Ready) (hi : s.Issues c) {n : Nat} (hl : Src.light n = true) (hn : n < 192)
    (hfresh : (n, some c.val, (s.chAt c).cycle) ∉ s.flt.instants) {i : Instr} {f : State → State}
    (hexec : exec i s = s.command (fun s => s.issueScalar c f))
    (hf : ∀ t : State, t.chAt c = { s.chAt c with scalarUsed := true } → f t = t.haltBreach c n) : ∃ t, exec i s = .next t ∧ s.Breached c n t := by
  rw [hexec, State.command_ready h, State.issueScalar_issues hi, hf _ (State.chAt_setCh ..)]
  exact ⟨_, rfl, (State.haltBreach_breached hl hn (by rw [State.chAt_setCh]; exact hfresh)).of_opened⟩

theorem exec_vectorSlot_halts {s : State} {c : ChamberId} (h : s.Ready) (hi : s.Issues c) {n : Nat} (hl : Src.light n = true) (hn : n < 192)
    (hfresh : (n, some c.val, (s.chAt c).cycle) ∉ s.flt.instants) {i : Instr} {f : State → State}
    (hexec : exec i s = s.command (fun s => s.issueVector c f)) (hf : ∀ t : State, f t = t.haltBreach c n) :
    ∃ t, exec i s = .next t ∧ s.Breached c n t := by
  rw [hexec, State.command_ready h, State.issueVector_issues hi, hf]
  exact ⟨_, rfl, (State.haltBreach_breached hl hn (by rw [State.chAt_setCh]; exact hfresh)).of_opened⟩

theorem State.illegal_eq (s : State) (c : ChamberId) : s.illegal c = s.haltBreach c 102 := rfl

theorem State.vNop_illegal (s : State) (c : ChamberId) {w : W32} (h : w ≠ 0#32) : s.vNop c w = s.haltBreach c 102 := if_neg h

theorem State.vLi_illegal (s : State) (c : ChamberId) {f : Fields} (h : f.a ≠ 0#5) : s.vLi c f = s.haltBreach c 102 := if_pos h

theorem State.vScalarOp_illegal (s : State) (c : ChamberId) {f : Fields} (h : aluResult 16 f.minor.toNat 0#16 0#16 = none) :
    s.vScalarOp c f = s.haltBreach c 102 := by
  simp only [State.vScalarOp, aluResult_none_scalarAlu h]
  rfl

/-! ## Decoding (R66-R68) -/

theorem decodeWord_zero (e : Engine) (slot : Slot) (io : MgmtIO) : decodeWord e slot io 0#32 = .nop e ⟨slot, 0#32⟩ := by
  unfold decodeWord
  exact if_pos rfl

/-- The scalar slot and the cores know no word of an unassigned major opcode, or of one of the vector slot's. -/
theorem scalarRow_none (e : Engine) (io : MgmtIO) {w : W32} {k : Nat} (hk : k = w.toNat / 2 ^ 26)
    (h : 0x0C ≤ k ∧ k < 0x10 ∨ 0x24 ≤ k ∧ k < 0x28 ∨ 0x30 ≤ k ∧ k < 0x3C) : scalarRow e io w = none := by
  have hloop : ¬ 0x3C ≤ k := by omega
  have himm : ¬ k < 0x0A := by omega
  have hload : k < 0x15 → k < 0x10 := by omega
  have hstore : ¬ k < 0x15 → ¬ k < 0x18 ∧ ¬ k < 0x1E := by omega
  unfold scalarRow
  simp only [← hk]
  split
  case h_18 =>
    rw [if_neg hloop, if_neg himm]
    by_cases hk : k < 0x15
    · rw [if_pos hk, if_pos (hload hk)]
    · rw [if_neg hk, if_neg (hstore hk).1, if_neg (hstore hk).2]
  all_goals omega

/-- The vector slot knows the words of major opcodes 0x30 to 0x37 only. -/
theorem vectorRow_none (e : Engine) {w : W32} {k : Nat} (hk : k = w.toNat / 2 ^ 26) (h : k < 0x30 ∨ 0x38 ≤ k) : vectorRow e w = none := by
  unfold vectorRow
  simp only [← hk]
  split
  case h_9 => rfl
  all_goals omega

theorem scalarRow_li (e : Engine) (io : MgmtIO) {w : W32} (hk : w.toNat / 2 ^ 26 = 0x0A) : scalarRow e io w = some (.li e (fieldsOf w.toNat)) := by
  unfold scalarRow
  simp only [hk]

theorem scalarRow_loop (e : Engine) (io : MgmtIO) {w : W32} (hk : 0x3C ≤ w.toNat / 2 ^ 26) :
    scalarRow e io w = some (.loop e (w.extractLsb' 16 12) (w.extractLsb' 0 16)) := by
  unfold scalarRow
  simp only
  split
  case h_18 =>
    rw [if_pos hk, BitVec.extractLsb', BitVec.extractLsb', Nat.shiftRight_eq_div_pow]
    rfl
  all_goals omega

theorem vectorRow_health (e : Engine) {w : W32} (hk : w.toNat / 2 ^ 26 = 0x36) : vectorRow e w = some (.health e (fieldsOf w.toNat)) := by
  unfold vectorRow
  simp only [hk]

theorem ne_zero_of_major {w : W32} (h : 0 < w.toNat / 2 ^ 26) : w ≠ 0#32 := by
  rintro rfl
  exact absurd h (by decide)

/-- A word that no row names is given to the row of NOP. -/
theorem decodeWord_none (e : Engine) (slot : Slot) (io : MgmtIO) {w : W32} (hs : scalarRow e io w = none) (hv : vectorRow e w = none) :
    decodeWord e slot io w = .nop e ⟨slot, w⟩ := by
  cases e <;> cases slot <;> simp [decodeWord, hs, hv]

theorem decodeWord_chamber_scalar_none (c : ChamberId) (io : MgmtIO) {w : W32} (hs : scalarRow (.chamber c) io w = none) :
    decodeWord (.chamber c) .scalar io w = .nop (.chamber c) ⟨.scalar, w⟩ := by
  simp [decodeWord, hs]

theorem decodeWord_chamber_vector_none (c : ChamberId) (io : MgmtIO) {w : W32} (hv : vectorRow (.chamber c) w = none) :
    decodeWord (.chamber c) .vector io w = .nop (.chamber c) ⟨.vector, w⟩ := by
  simp [decodeWord, hv]

theorem decodeWord_scalar (e : Engine) (io : MgmtIO) {w : W32} {i : Instr} (hw : 0 < w.toNat / 2 ^ 26) (hs : scalarRow e io w = some i) :
    decodeWord e .scalar io w = i := by
  cases e <;> simp [decodeWord, ne_zero_of_major hw, hs]

theorem decodeWord_vector (e : Engine) (io : MgmtIO) {w : W32} {i : Instr} (hw : 0 < w.toNat / 2 ^ 26) (hs : scalarRow e io w = none)
    (hv : vectorRow e w = some i) : decodeWord e .vector io w = i := by
  cases e <;> simp [decodeWord, ne_zero_of_major hw, hs, hv]

end Sys2Proof.Machine
end

section

/-! # Control and breaches (O2) -/

namespace Sys2Proof.Machine

/-! ## The clauses of O2 -/

/-- States that differ in chamber c alone have the same locks and registers. -/
theorem State.lockOf_of_setCh {s t : State} {c : ChamberId} (h : ∀ y, t.setCh c y = s.setCh c y) (x : Chamber) : t.lockOf x = s.lockOf x :=
  show (t.setCh c x).lockOf x = (s.setCh c x).lockOf x from congrArg (fun u : State => u.lockOf x) (h x)

theorem State.rd_of_setCh {s t : State} {c : ChamberId} (h : ∀ y, t.setCh c y = s.setCh c y) (g : Fld) : t.rd g = s.rd g :=
  show (t.setCh c (s.chAt c)).rd g = (s.setCh c (s.chAt c)).rd g from congrArg (fun u : State => u.rd g) (h (s.chAt c))

/-- What halts a chamber by FS102: an encoding that its slot does not know, or that the instruction does not allow (R54, R66, R80). -/
def IllegalInChamber (c : ChamberId) (f : Fields) (i : Instr) : Prop :=
  i = .li (.chamber c) f ∧ f.a ≠ 0#5 ∨ i = .scalarOp (.chamber c) f ∧ aluResult 16 f.minor.toNat 0#16 0#16 = none ∨
    (∃ op io, i = .elvothSLoad (.chamber c) op f io) ∨ (∃ op io, i = .elvothSStore (.chamber c) op f io) ∨
    i = .lui (.chamber c) f ∨ i = .jal (.chamber c) f ∨ i = .cwr (.chamber c) f ∨ (∃ slot w, w ≠ 0#32 ∧ i = .nop (.chamber c) ⟨slot, w⟩) ∨
    i = .loop (.chamber c) 0#12 (f.b ++ f.pred ++ f.minor)

theorem exec_illegal {s : State} {c : ChamberId} {f : Fields} {i : Instr} (h : s.Ready) (hi : s.Issues c)
    (hfresh : (102, some c.val, (s.chAt c).cycle) ∉ s.flt.instants) (hill : IllegalInChamber c f i) : ∃ t, exec i s = .next t ∧ s.Breached c 102 t := by
  have hscalar {i : Instr} {g : State → State} (hexec : exec i s = s.command (fun s => s.issueScalar c g))
      (hg : ∀ t : State, g t = t.haltBreach c 102) : ∃ t, exec i s = .next t ∧ s.Breached c 102 t :=
    exec_scalarSlot_halts h hi (by decide) (by decide) hfresh hexec (fun t _ => hg t)
  have hcore {i : Instr} (hexec : exec i s = s.command (fun s => s.issueScalar c (fun s => s.illegal c))) :
      ∃ t, exec i s = .next t ∧ s.Breached c 102 t := hscalar hexec (fun t => t.illegal_eq c)
  rcases hill with ⟨rfl, ha⟩ | ⟨rfl, hm⟩ | ⟨op, io, rfl⟩ | ⟨op, io, rfl⟩ | rfl | rfl | rfl | ⟨slot, w, hw, rfl⟩ | rfl
  · exact hscalar (g := fun s => s.vLi c f) rfl (fun t => t.vLi_illegal c ha)
  · exact hscalar (g := fun s => s.vScalarOp c f) rfl (fun t => t.vScalarOp_illegal c hm)
  · exact hcore rfl
  · exact hcore rfl
  · exact hcore rfl
  · exact hcore rfl
  · exact hcore rfl
  · cases slot with
    | scalar => exact hscalar (g := fun s => s.vNop c w) rfl (fun t => t.vNop_illegal c hw)
    | vector => exact exec_vectorSlot_halts h hi (by decide) (by decide) hfresh (f := fun s => s.vNop c w) rfl (fun t => t.vNop_illegal c hw)
  · exact hscalar (g := fun s => s.vLoop c 0#12 (f.b ++ f.pred ++ f.minor)) rfl (fun t => t.vLoop_empty c _)

/-- A RET with an empty call stack, and a fifth call level, halt by FS103 (R54). -/
theorem exec_ret_empty {s : State} {c : ChamberId} {f : Fields} (h : s.Ready) (hi : s.Issues c)
    (hfresh : (103, some c.val, (s.chAt c).cycle) ∉ s.flt.instants) (hf : Fields.OnlyMinor f) (hm : f.minor = 0#8) (hc : (s.chAt c).calls = []) :
    ∃ t, exec (.ret (.chamber c) f) s = .next t ∧ s.Breached c 103 t :=
  exec_scalarSlot_halts h hi (by decide) (by decide) hfresh (f := fun s => s.chMinor c (f.minor = 0#8) (fun s => s.vRet c f)) rfl
    (fun t ht => (State.chMinor_true hm _).trans (t.vRet_empty hf (by rw [ht]; exact hc)))

theorem exec_call_full {s : State} {c : ChamberId} {f : Fields} (h : s.Ready) (hi : s.Issues c)
    (hfresh : (103, some c.val, (s.chAt c).cycle) ∉ s.flt.instants) (hd : f.d = 0#5) (ha : f.a = 0#5) (hp : f.pred = 0#3)
    (hc : 4 ≤ (s.chAt c).calls.length) : ∃ t, exec (.call (.chamber c) f) s = .next t ∧ s.Breached c 103 t :=
  exec_scalarSlot_halts h hi (by decide) (by decide) hfresh (f := fun s => s.vCall c f) rfl
    (fun t ht => t.vCall_full hd ha hp (by rw [ht]; exact hc))

/-- Settles O2: the control flow by what each instruction does to its chamber, the breaches by the one operation that halts with a breach, and the
decoding by the majors that each slot's table names. -/
theorem chamberControlAndBreaches : Obligations.ChamberControlAndBreaches := by
  unfold Obligations.ChamberControlAndBreaches
  refine ⟨fun s c f body trip h hi => ⟨fun hb hl hend => ?_, fun hd ha hp => ⟨?_, fun hl => ?_, fun hb => ⟨fun t ts hc hm => ?_, fun hm hl => ?_⟩⟩,
    fun ha hm v hv => ?_⟩, fun s c f i n h hi hn hfresh => ?_, fun s e slot io w k hk => ?_⟩
  · exact exec_scalarSlot h hi (f := fun s => s.vLoop c body trip) rfl
      (fun t ht _ => t.vLoop_pushes hb (by rw [ht]; exact hl) (by rw [ht]; exact hend))
  · exact exec_scalarSlot h hi (f := fun s => s.vJump c f) rfl (fun t _ _ => t.vJump_eq c hd ha hp)
  · exact exec_scalarSlot h hi (f := fun s => s.vCall c f) rfl (fun t ht _ => t.vCall_pushes hd ha hp (by rw [ht]; exact hl))
  · exact exec_scalarSlot h hi (f := fun s => s.chMinor c (f.minor = 0#8) (fun s => s.vRet c f)) rfl
      (fun u hu _ => (State.chMinor_true hm _).trans (u.vRet_pops ⟨hd, ha, hb, hp⟩ (by rw [hu]; exact hc)))
  · exact exec_scalarSlot h hi (f := fun s => s.chMinor c (f.minor = 1#8) (fun s => s.vHalt c f)) rfl
      (fun t ht hs => (State.chMinor_true hm _).trans (t.vHalt_ends ⟨hd, ha, hb, hp⟩ (by rw [ht, State.lockOf_of_setCh hs]; exact hl)))
  · exact exec_scalarSlot h hi (f := fun s => s.chMinor c (f.minor = 2#8) (fun s => s.vRdctx c f)) rfl
      (fun t ht hs => (State.chMinor_true hm _).trans (t.vRdctx_eq ha (by rw [ht, State.rd_of_setCh hs]; exact hv)))
  · have hbreach : ∃ t, exec i s = .next t ∧ s.Breached c n t := by
      rcases hn with ⟨rfl, hill⟩ | ⟨rfl, hd, ha, hp, ⟨rfl, hb, hm, hc⟩ | ⟨rfl, hc⟩⟩
      · exact exec_illegal h hi hfresh hill
      · exact exec_ret_empty h hi hfresh ⟨hd, ha, hb, hp⟩ hm hc
      · exact exec_call_full h hi hfresh hd ha hp hc
    obtain ⟨t, ht, ⟨hhalted, hrunning⟩, hsource, hvalid, hpc, hlock, hcycle, hsticky, hlive⟩ := hbreach
    exact ⟨t, ht, hhalted, hrunning, hsource, hvalid, hpc, hlock, hcycle, hsticky, hlive⟩
  · have hpos {n : Nat} (hn : 0 < n) (hkn : n ≤ k) : 0 < w.toNat / 2 ^ 26 := hk ▸ Nat.lt_of_lt_of_le hn hkn
    refine ⟨rfl, decodeWord_zero e slot io, fun hu => ?_, fun c => ⟨fun hv => ?_, fun hs => ?_⟩, fun hli => ?_, fun hloop => ?_, fun hh => ?_⟩
    · exact decodeWord_none e slot io (scalarRow_none e io hk (by omega)) (vectorRow_none e hk (by omega))
    · exact decodeWord_chamber_scalar_none c io (scalarRow_none _ io hk (by omega))
    · exact decodeWord_chamber_vector_none c io (vectorRow_none _ hk (by omega))
    · exact decodeWord_scalar e io (hpos (by decide) hli.ge) (scalarRow_li e io (hk.symm.trans hli))
    · exact decodeWord_scalar e io (hpos (by decide) hloop) (scalarRow_loop e io (hk ▸ hloop))
    · exact decodeWord_vector e io (hpos (by decide) hh.ge) (scalarRow_none e io hk (by omega)) (vectorRow_health e (hk.symm.trans hh))

end Sys2Proof.Machine
end

section

/-! # Operations of the management cores -/

namespace Sys2Proof.Machine

/-! ## Commands of the cores that run (R58-R63) -/

/-- An instruction of cores that run, by what its meaning does to the cores. -/
theorem exec_core {s : State} (h : s.Ready) (hr : s.CoreRuns) {i : Instr} {m : State → State} {g : Mgmt → Mgmt}
    (hexec : exec i s = s.command (fun s => s.issueMgmt m)) (hm : m (s.coreStep id) = (s.coreStep id).setMgmt (g (s.coreStep id).mgmt)) :
    exec i s = .next (s.coreStep g) := by
  rw [hexec, State.command_ready h, State.issueMgmt_runs hr]
  exact congrArg Host.Outcome.next hm

/-- An instruction of cores that run, by the state that its meaning leaves. -/
theorem exec_core_to {s t : State} (h : s.Ready) (hr : s.CoreRuns) {i : Instr} {m : State → State}
    (hexec : exec i s = s.command (fun s => s.issueMgmt m)) (hm : m (s.coreStep id) = t) : exec i s = .next t := by
  rw [hexec, State.command_ready h, State.issueMgmt_runs hr]
  exact congrArg Host.Outcome.next hm

namespace State

/-- A trap where none is active, of cores that do not wait (R63). -/
theorem trap_eq {s : State} (ht : s.mgmt.trapActive = false) (hw : s.mgmt.waiting = false) (cause val : Nat) :
    s.trap cause val = s.setMgmt (s.mgmt.trapped (BitVec.ofNat 32 cause) (BitVec.ofNat 32 val)) := by
  simp only [State.trap, State.trapAt, ht, Mgmt.trapped]
  rw [hw]
  rfl

theorem trap_coreStep {s : State} (ht : s.mgmt.trapActive = false) (cause val : Nat) :
    (s.coreStep id).trap cause val = s.coreStep (fun m => m.trapped (BitVec.ofNat 32 cause) (BitVec.ofNat 32 val)) :=
  trap_eq (s := s.coreStep id) ht rfl cause val

/-- A fetch that no region grants (R61, R63). -/
theorem issueMgmt_refused {s : State} (hs : s.mgmt.stopped = false) (hw : s.mgmt.waiting = false) (hp : s.permits s.mgmt.pc.toNat 0 = false)
    (ht : s.mgmt.trapActive = false) (f : State → State) :
    s.issueMgmt f = State.raise (s.coreStep (fun m => m.trapped 3#32 m.pc)) 1 := by
  have hfetch := (s.permits_setMgmt { s.mgmt with waiting := false } rfl rfl s.mgmt.pc.toNat 0).trans hp
  have htrap : (s.coreStep id).trap 3 s.mgmt.pc.toNat = s.coreStep (fun m => m.trapped 3#32 m.pc) := by
    rw [trap_coreStep ht, ofNat_toNat_self]
    rfl
  simp only [State.issueMgmt]
  rw [if_neg (by simp [hs]), if_neg (by simp [hw]), if_neg (by simp only [setMgmt, hfetch] at *; decide)]
  exact congrArg (fun u : State => u.raise 1) htrap

theorem mPred_zero (s : State) {f : Fields} (h : f.pred = 0#3) (major : Nat) (g : State → State) : s.mPred major f g = g s := if_pos h

theorem mResult_eq (s : State) (d : BitVec 5) (n : Nat) :
    s.mResult d n = s.setMgmt (s.mgmt.wrote d (BitVec.ofNat 32 n)).advanced := rfl

end State

/-! ## Immediates, offsets and addresses (R67, R73, R74) -/

theorem off11_eq (f : Fields) : f.off11 = (f.pred ++ f.minor).toInt := by
  rw [← toSigned_toNat, BitVec.toNat_append, ← Nat.shiftLeft_add_eq_or_of_lt f.minor.isLt, Nat.shiftLeft_eq]
  rfl

theorem imm16_eq (f : Fields) : f.imm16 = (f.b ++ f.pred ++ f.minor).toNat := by
  have hpred := f.pred.isLt
  rw [BitVec.toNat_append, BitVec.toNat_append, ← Nat.shiftLeft_add_eq_or_of_lt f.minor.isLt, ← Nat.shiftLeft_add_eq_or_of_lt hpred,
    Nat.shiftLeft_eq, Nat.shiftLeft_eq, Fields.imm16]
  omega

theorem off16_eq (f : Fields) : f.off16 = (f.b ++ f.pred ++ f.minor).toInt := by
  rw [Fields.off16, imm16_eq, toSigned_toNat]

/-- The sum of an address and a signed number, to 32 bits. -/
theorem ofInt_add_toInt {n : Nat} (a : W32) (v : BitVec n) : BitVec.ofInt 32 ((a.toNat : Int) + v.toInt) = a + v.signExtend 32 := by
  rw [BitVec.ofInt_add, BitVec.ofInt_natCast, BitVec.ofNat_toNat, BitVec.setWidth_eq]
  rfl

theorem pcPlus_eq {n : Nat} (pc : W32) (v : BitVec n) : pcPlus pc v.toInt = pc + v.signExtend 32 * 4#32 := by
  rw [pcPlus, ofNat_ofSigned, BitVec.ofInt_add, BitVec.ofInt_natCast, BitVec.ofNat_toNat, BitVec.setWidth_eq, BitVec.ofInt_mul, BitVec.mul_comm]
  rfl

/-- The address of a load, a store or a JALR. -/
theorem ofSigned_reg_add_imm (m : Mgmt) (f : Fields) :
    ofSigned 32 ((m.reg f.a : Int) + toSigned 13 f.imm13) = (m.value f.a + (immBits f).signExtend 32).toNat := by
  rw [imm13_eq, toSigned_toNat, Mgmt.reg_eq, ← toNat_ofInt_eq_ofSigned, ofInt_add_toInt]

/-! ## Divides (R76) -/

theorem toSigned_eq_zero {w : Nat} (b : BitVec w) : toSigned w b.toNat = 0 ↔ b = 0#w := by
  rw [toSigned_toNat, ← BitVec.toInt_zero (w := w), BitVec.toInt_inj]

theorem ofNat_divSigned (a b : W32) : BitVec.ofNat 32 (divSigned 32 a.toNat b.toNat).1 = (if b = 0#32 then BitVec.allOnes 32 else a.sdiv b) ∧
    BitVec.ofNat 32 (divSigned 32 a.toNat b.toNat).2 = (if b = 0#32 then a else a.srem b) := by
  unfold divSigned
  by_cases hb : b = 0#32
  · simp only [if_pos hb, if_pos ((toSigned_eq_zero b).2 hb)]
    exact ⟨rfl, ofNat_toNat_self a⟩
  · have hz : ¬ toSigned 32 b.toNat = 0 := fun h => hb ((toSigned_eq_zero b).1 h)
    simp only [if_neg hb, if_neg hz, ofNat_ofSigned]
    rw [toSigned_toNat, toSigned_toNat]
    refine ⟨BitVec.eq_of_toInt_eq ?_, ?_⟩
    · rw [BitVec.toInt_ofInt, BitVec.toInt_sdiv]
    · rw [← BitVec.toInt_srem, BitVec.ofInt_toInt]

theorem ofNat_divUnsigned (a b : W32) : BitVec.ofNat 32 (divUnsigned 32 a.toNat b.toNat).1 = (if b = 0#32 then BitVec.allOnes 32 else a / b) ∧
    BitVec.ofNat 32 (divUnsigned 32 a.toNat b.toNat).2 = (if b = 0#32 then a else a % b) := by
  unfold divUnsigned
  by_cases hb : b = 0#32
  · subst hb
    exact ⟨rfl, ofNat_toNat_self a⟩
  · have hz : ¬ b.toNat = 0 := fun h => hb (BitVec.eq_of_toNat_eq h)
    simp only [if_neg hb, if_neg hz]
    exact ⟨by rw [← BitVec.toNat_udiv, ofNat_toNat_self], by rw [← BitVec.toNat_umod, ofNat_toNat_self]⟩

/-- The divides of R70 on bit vectors are the model's on numbers. -/
theorem scalarAlu_eq_of_divResult {m : Nat} {a b v : W32} (h : divResult m a b = some v) :
    ∃ n lat, scalarAlu 32 m a.toNat b.toNat = some (n, lat) ∧ BitVec.ofNat 32 n = v := by
  unfold divResult at h
  split at h
  case h_5 => exact nomatch h
  all_goals refine ⟨_, _, rfl, Eq.trans ?_ (Option.some.inj h)⟩
  case h_1 => exact (ofNat_divSigned a b).1
  case h_2 => exact (ofNat_divUnsigned a b).1
  case h_3 => exact (ofNat_divSigned a b).2
  case h_4 => exact (ofNat_divUnsigned a b).2

/-! ## Scalar operations, branches and jumps (R70, R71, R74) -/

/-- The conditions of R74 on bit vectors. -/
theorem branchTaken_eq (m : Mgmt) (op : BranchOp) (f : Fields) :
    branchTaken op (m.reg f.a) (m.reg f.b) = match op with
      | .beq => decide (m.value f.a = m.value f.b)
      | .bne => decide (m.value f.a ≠ m.value f.b)
      | .blt => (m.value f.a).slt (m.value f.b)
      | .bge => (m.value f.b).sle (m.value f.a)
      | .bltu => (m.value f.a).ult (m.value f.b)
      | .bgeu => (m.value f.b).ule (m.value f.a) := by
  rw [Mgmt.reg_eq, Mgmt.reg_eq]
  cases op with
  | beq => simp only [branchTaken, BitVec.toNat_inj]
  | bne => simp only [branchTaken, ne_eq, BitVec.toNat_inj]
  | blt => simp only [branchTaken, toSigned_toNat]; rfl
  | bge => simp only [branchTaken, toSigned_toNat]; rfl
  | bltu => rfl
  | bgeu => rfl

namespace State

theorem mScalarOp_eq (s : State) {f : Fields} (hp : f.pred = 0#3) {v : W32}
    (h : aluResult 32 f.minor.toNat (s.mgmt.value f.a) (s.mgmt.value f.b) = some v ∨
      divResult f.minor.toNat (s.mgmt.value f.a) (s.mgmt.value f.b) = some v) :
    s.mScalarOp f = s.setMgmt (s.mgmt.wrote f.d v).advanced := by
  obtain ⟨n, lat, hn, rfl⟩ : ∃ n lat, scalarAlu 32 f.minor.toNat (s.mgmt.value f.a).toNat (s.mgmt.value f.b).toNat = some (n, lat) ∧
      BitVec.ofNat 32 n = v := by
    rcases h with h | h
    · obtain ⟨n, hn, hv⟩ := scalarAlu_eq_of_aluResult h
      exact ⟨n, _, hn, hv⟩
    · exact scalarAlu_eq_of_divResult h
  rw [State.mScalarOp, mPred_zero s hp, Mgmt.reg_eq, Mgmt.reg_eq, hn]
  rfl

theorem mScalarImm_eq (s : State) (op : ImmOp) {f : Fields} (hp : f.pred = 0#3) :
    s.mScalarImm op f = s.setMgmt (s.mgmt.wrote f.d (immResult 32 op (s.mgmt.value f.a) (immBits f))).advanced := by
  rw [State.mScalarImm, mPred_zero s hp, mResult_eq, Mgmt.reg_eq, ofNat_scalarImm (by decide)]

theorem mBranch_eq (s : State) (op : BranchOp) {f : Fields} (hd : f.d = 0#5) {taken : Bool}
    (ht : branchTaken op (s.mgmt.reg f.a) (s.mgmt.reg f.b) = taken) :
    s.mBranch op f = s.setMgmt (if taken then { s.mgmt with pc := s.mgmt.pc + ((f.pred ++ f.minor).signExtend 32) * 4#32 } else s.mgmt.advanced) := by
  rw [State.mBranch, if_neg (not_not.2 hd), ht, off11_eq, pcPlus_eq]
  cases taken <;> rfl

theorem mJal_eq (s : State) {f : Fields} (ha : f.a = 0#5) :
    s.mJal f = s.setMgmt { s.mgmt.wrote f.d (s.mgmt.pc + 4#32) with
      pc := s.mgmt.pc + ((f.b ++ f.pred ++ f.minor).signExtend 32) * 4#32 } := by
  simp only [State.mJal, if_neg (not_not.2 ha), off16_eq, pcPlus_eq, Mgmt.setReg_eq, ofNat_toNat_self]

theorem and_minus_four (x : W32) : BitVec.ofNat 32 (x.toNat / 4 * 4) = x &&& 0xFFFFFFFC#32 := by
  have hmask : ∀ i : Fin 32, (0xFFFFFFFC#32).getLsbD i = decide (2 ≤ i.val) := by decide
  apply BitVec.eq_of_getLsbD_eq
  intro i hi
  have hm := hmask ⟨i, hi⟩
  rw [BitVec.getLsbD_ofNat, BitVec.getLsbD_and, hm, Nat.mul_comm, show 4 = 2 ^ 2 from rfl, Nat.testBit_two_pow_mul, Nat.testBit_div_two_pow]
  by_cases h : 2 ≤ i
  · simp [h, hi, Nat.sub_add_cancel h, BitVec.getLsbD]
  · simp [h]

theorem mJalr_eq (s : State) {f : Fields} (hp : f.pred = 0#3) :
    s.mJalr f = s.setMgmt { s.mgmt.wrote f.d (s.mgmt.pc + 4#32) with
      pc := (s.mgmt.value f.a + (immBits f).signExtend 32) &&& 0xFFFFFFFC#32 } := by
  simp only [State.mJalr, mPred_zero s hp, ofSigned_reg_add_imm, and_minus_four, Mgmt.setReg_eq, ofNat_toNat_self]

end State
end Sys2Proof.Machine
end

section

/-! # The cores: results and jumps (O7) -/

namespace Sys2Proof.Machine

theorem execNop_mgmt (slot : Slot) (w : W32) (s : State) :
    exec (.nop .mgmt ⟨slot, w⟩) s = s.command (fun s => s.issueMgmt (fun s => s.mNop w)) := rfl

/-- A fetch that no region grants traps, whatever the instruction. -/
theorem exec_core_refused {s : State} (h : s.Ready) (hs : s.mgmt.stopped = false) (hw : s.mgmt.waiting = false)
    (hp : s.permits s.mgmt.pc.toNat 0 = false) (ht : s.mgmt.trapActive = false) {i : Instr} {m : State → State}
    (hexec : exec i s = s.command (fun s => s.issueMgmt m)) :
    exec i s = .next (State.raise (s.coreStep (fun m => m.trapped 3#32 m.pc)) 1) := by
  rw [hexec, State.command_ready h, State.issueMgmt_refused hs hw hp ht]

/-- Settles O7: each instruction by what its meaning does to the cores, and the refused fetch, which comes before any meaning. -/
theorem coreResultsAndJumps : Obligations.CoreResultsAndJumps := by
  unfold Obligations.CoreResultsAndJumps
  refine ⟨fun s f h hr => ⟨fun slot => ?_, fun hp v hv => ?_, fun hp op => ?_⟩,
    fun s f h => ⟨fun hr => ⟨fun hd op taken ht => ?_, fun ha => ?_, fun hp => ?_⟩, fun hs hw hp ht i hi => ?_⟩⟩
  · exact exec_core h hr (execNop_mgmt slot 0#32 s) rfl
  · exact exec_core h hr (m := fun s => s.mScalarOp f) rfl (State.mScalarOp_eq _ hp hv)
  · exact exec_core h hr (m := fun s => s.mScalarImm op f) rfl (State.mScalarImm_eq _ op hp)
  · exact exec_core h hr (m := fun s => s.mBranch op f) rfl (State.mBranch_eq _ op hd ((branchTaken_eq s.mgmt op f).trans ht.symm))
  · exact exec_core h hr (m := fun s => s.mJal f) rfl (State.mJal_eq _ ha)
  · exact exec_core h hr (m := fun s => s.mJalr f) rfl (State.mJalr_eq _ hp)
  · rcases hi with ⟨slot, w, rfl⟩ | rfl | rfl | rfl
    · exact exec_core_refused h hs hw hp ht (execNop_mgmt slot w s)
    · exact exec_core_refused h hs hw hp ht (m := fun s => s.mBranch .beq f) rfl
    · exact exec_core_refused h hs hw hp ht (m := fun s => s.mJal f) rfl
    · exact exec_core_refused h hs hw hp ht (m := fun s => s.mJalr f) rfl

end Sys2Proof.Machine
end

section

/-! # The cores: control words and system instructions (O8) -/

namespace Sys2Proof.Machine

/-! ## Control words (R62) -/

/-- The bits that a protection limit keeps: its page and its grants. -/
theorem and_page_and_grants (x : W32) : BitVec.ofNat 32 (x.toNat / 4096 * 4096 + x.toNat % 8) = x &&& 0xFFFFF007#32 := by
  have hmask : ∀ i : Fin 32, (0xFFFFF007#32).getLsbD i = (decide (i.val < 3) || decide (12 ≤ i.val)) := by decide
  apply BitVec.eq_of_getLsbD_eq
  intro i hi
  rw [BitVec.getLsbD_ofNat, BitVec.getLsbD_and, hmask ⟨i, hi⟩, Nat.mul_comm, show 4096 = 2 ^ 12 from rfl,
    Nat.testBit_two_pow_mul_add _ (by omega), show 8 = 2 ^ 3 from rfl, Nat.testBit_mod_two_pow, Nat.testBit_div_two_pow]
  by_cases hlow : i < 12
  · simp [hlow, hi, BitVec.getLsbD, Bool.and_comm, Nat.not_le.2 hlow]
  · simp [hlow, hi, BitVec.getLsbD, Nat.sub_add_cancel (Nat.le_of_not_lt hlow), show 12 ≤ i by omega]

namespace State

theorem mCwr_eq (s : State) {f : Fields} (hp : f.pred = 0#3) (ha : f.a = 0#5) (hb : f.b = 0#5) :
    s.mCwr f = (s.cwLatch f.minor.toNat).mResult f.d (s.cwRead f.minor.toNat) := by
  rw [State.mCwr, mPred_zero s hp, if_neg (by simp [ha, hb])]

/-- A read of a control word other than CW_CYCLE_LO. -/
theorem mCwr_reads (s : State) {f : Fields} (hp : f.pred = 0#3) (ha : f.a = 0#5) (hb : f.b = 0#5) (h8 : f.minor.toNat ≠ 8) {v : W32}
    (hv : s.cwRead f.minor.toNat = v.toNat) : s.mCwr f = s.setMgmt (s.mgmt.wrote f.d v).advanced := by
  rw [mCwr_eq s hp ha hb, State.cwLatch, if_neg h8, mResult_eq, hv, ofNat_toNat_self]

theorem cwRead_unassigned (s : State) {i : Nat} (h : 0x30 ≤ i) : s.cwRead i = 0 := by
  unfold State.cwRead
  split
  case h_10 => rw [dif_neg (by omega), dif_neg (by omega)]
  all_goals omega

theorem mCwr_cycle (s : State) {f : Fields} (hp : f.pred = 0#3) (ha : f.a = 0#5) (hb : f.b = 0#5) (h8 : f.minor = 8#8) {n : Nat}
    (hn : n = (s.now - s.mgmt.born) / 2) :
    s.mCwr f = s.setMgmt (({ s.mgmt with cycleHi := BitVec.ofNat 32 (n / 2 ^ 32) }.wrote f.d (BitVec.ofNat 32 n)).advanced) := by
  have hlow : BitVec.ofNat 32 (n % 2 ^ 32) = BitVec.ofNat 32 n := by
    apply BitVec.eq_of_toNat_eq
    rw [BitVec.toNat_ofNat, BitVec.toNat_ofNat, Nat.mod_mod]
  rw [mCwr_eq s hp ha hb, h8, ← hlow, hn]
  rfl

theorem mCww_eq (s : State) {f : Fields} (hp : f.pred = 0#3) (hd : f.d = 0#5) (hb : f.b = 0#5) (hl : s.bootLevel = true ∨ cwBoot f.minor.toNat = false) :
    s.mCww f = (s.cwWrite f.minor.toNat (s.mgmt.value f.a).toNat).nextPc := by
  have hopen : ¬ (cwBoot f.minor.toNat && !s.bootLevel) = true := by rcases hl with h | h <;> simp [h]
  rw [State.mCww, State.mCwwBy, mPred_zero s hp, if_neg (by simp [hd, hb]), if_neg hopen, Mgmt.reg_eq]

/-- A boot-level word at firmware level. -/
theorem mCww_refused {s : State} {f : Fields} (hp : f.pred = 0#3) (hd : f.d = 0#5) (hb : f.b = 0#5) (hl : s.bootLevel = false)
    (hc : cwBoot f.minor.toNat = true) : s.mCww f = s.trapOpen 2 := by
  rw [State.mCww, State.mCwwBy, mPred_zero s hp, if_neg (by simp [hd, hb]), if_pos (by simp [hl, hc])]

theorem cwWrite_unassigned (s : State) {i : Nat} (h : 0x30 ≤ i) (v : Nat) : s.cwWrite i v = s := by
  unfold State.cwWrite
  split
  case h_6 => rw [dif_neg (by omega), dif_neg (by omega)]
  all_goals omega

theorem cwWrite_limit (s : State) {i : Nat} (k : Fin 16) (hi : i = 0x20 + k.val) (v : W32) :
    s.cwWrite i v.toNat = s.setMgmt { s.mgmt with protLimit := s.mgmt.protLimit.set k (v &&& 0xFFFFF007#32) } := by
  have hk : i - 0x20 = k.val := by omega
  rw [← and_page_and_grants]
  unfold State.cwWrite
  split
  case h_6 =>
    rw [dif_neg (by omega), dif_pos (by omega)]
    simp only [hk]
  all_goals omega

/-- A trap whose value is free draws it. -/
theorem trapOpen_coreStep {s : State} (ht : s.mgmt.trapActive = false) (cause : Nat) :
    (s.coreStep id).trapOpen cause =
      { s.coreStep (fun m => m.trapped (BitVec.ofNat 32 cause) (BitVec.ofNat 32 (Config.freeBits 32 s.fresh))) with fresh := s.fresh + 1 } :=
  (trap_eq (s := (s.coreStep id).draw) ht rfl cause _).trans rfl

end State

theorem execCww_mgmt (f : Fields) (s : State) : exec (.cww .mgmt f) s = s.command (fun s => s.issueMgmt (fun s => s.mCww f)) := by
  have hcore : ¬ Engine.mgmt = .mgmtSplit := by decide
  calc exec (.cww .mgmt f) s
      = s.command (fun s => s.issueMgmt (fun s => if Engine.mgmt = .mgmtSplit then s.mCwwDropped f else s.mCww f)) := rfl
    _ = s.command (fun s => s.issueMgmt (fun s => s.mCww f)) := by simp only [if_neg hcore]

namespace State

/-! ## System instructions (R63, R64, R75) -/

theorem mTrap_eq (s : State) {f : Fields} (hf : Fields.OnlyMinor f) : s.mTrap f = s.trap 9 f.minor.toNat := by
  obtain ⟨hd, ha, hb, hp⟩ := hf
  exact if_neg (by simp [hd, ha, hb, hp])

theorem mMinor_system (s : State) {f : Fields} (hf : Fields.OnlyMinor f) {n : Nat} (hn : f.minor.toNat = n) (g : State → State) :
    s.mMinor f n (fun s => s.mSystem f g) = g s := by
  obtain ⟨hd, ha, hb, hp⟩ := hf
  rw [State.mMinor, if_pos hn, State.mSystem, if_neg (by simp [hd, ha, hb, hp])]

end State

/-- CW_STATUS, CW_TRAP_PC and CW_TRAP_VECTOR take what is written (R62). -/
theorem State.cwWrite_status (s : State) (v : W32) :
    s.cwWrite 0x00 v.toNat = s.setMgmt { s.mgmt with ie := v.getLsbD 0, trapActive := v.getLsbD 1, nmiActive := v.getLsbD 2 } := rfl

theorem State.cwWrite_trapPc (s : State) (v : W32) : s.cwWrite 0x02 v.toNat = s.setMgmt { s.mgmt with trapPc := v } := by
  rw [State.cwWrite, ofNat_toNat_self]

theorem State.cwWrite_trapVector (s : State) (v : W32) : s.cwWrite 0x04 v.toNat = s.setMgmt { s.mgmt with trapVector := v } := by
  rw [State.cwWrite, ofNat_toNat_self]

/-- The words that boot level alone writes: the vectors and the protection words (R62). -/
theorem cwBoot_of_listed {i : Nat} (h : i = 4 ∨ i = 5 ∨ 0x10 ≤ i ∧ i < 0x30) : cwBoot i = true := by
  simpa [cwBoot, or_assoc] using h

@[simp] theorem State.bootLevel_coreStep (s : State) (g : Mgmt → Mgmt) : (s.coreStep g).bootLevel = s.bootLevel := rfl

theorem cwBoot_unassigned {i : Nat} (h : 0x30 ≤ i) : cwBoot i = false := by
  have h4 : ¬ i = 4 := by omega
  have h5 : ¬ i = 5 := by omega
  simp [cwBoot, h4, h5, Nat.not_lt.2 h]

section
variable {s : State} {f : Fields} (h : s.Ready) (hr : s.CoreRuns) (hp : f.pred = 0#3)
include h hr hp

theorem exec_cwr_reads (ha : f.a = 0#5) (hb : f.b = 0#5) {i : Nat} (hm : f.minor.toNat = i) (h8 : i ≠ 8) {v : W32}
    (hv : (s.coreStep id).cwRead i = v.toNat) : exec (.cwr .mgmt f) s = .next (s.coreStep (fun m => (m.wrote f.d v).advanced)) := by
  subst hm
  exact exec_core h hr (m := fun s => s.mCwr f) rfl (State.mCwr_reads _ hp ha hb h8 hv)

/-- CWW by what the write of its word does to the cores. -/
theorem exec_cww (hd : f.d = 0#5) (hb : f.b = 0#5) {i : Nat} (hm : f.minor.toNat = i) (hl : s.bootLevel = true ∨ cwBoot i = false) {v : W32}
    (hv : v = s.mgmt.value f.a) {g : Mgmt → Mgmt} (hw : (s.coreStep id).cwWrite i v.toNat = (s.coreStep id).setMgmt (g (s.coreStep id).mgmt)) :
    exec (.cww .mgmt f) s = .next (s.coreStep (fun m => (g m).advanced)) := by
  subst hm hv
  rw [← State.bootLevel_coreStep s id] at hl
  exact exec_core h hr (execCww_mgmt f s) ((State.mCww_eq (s.coreStep id) hp hd hb hl).trans (congrArg State.nextPc hw))

end

/-- An instruction of major 0x23 whose fields are 0 but for its minor. -/
theorem exec_system {s : State} {f : Fields} (h : s.Ready) (hr : s.CoreRuns) (hf : Fields.OnlyMinor f) {n : Nat} (hn : f.minor.toNat = n)
    {i : Instr} {m : State → State} {g : Mgmt → Mgmt} (hexec : exec i s = s.command (fun s => s.issueMgmt (fun s => s.mMinor f n (fun s => s.mSystem f m))))
    (hm : m (s.coreStep id) = (s.coreStep id).setMgmt (g (s.coreStep id).mgmt)) : exec i s = .next (s.coreStep g) :=
  exec_core h hr hexec ((State.mMinor_system _ hf hn m).trans hm)

/-- What RETN leaves of the cores: an NMI held pending is taken at the address that was saved, or they go on there (R64). -/
def Mgmt.leftNmi (m : Mgmt) : Mgmt :=
  if m.nmiPending then { m with nmiPc := m.nmiPc, nmiPending := false, nmiAcked := false, pc := m.nmiVector }
  else { m with nmiActive := false, pc := m.nmiPc }

theorem Mgmt.leftNmi_taken {m : Mgmt} (h : m.nmiPending = true) :
    m.leftNmi = { m with nmiPc := m.nmiPc, nmiPending := false, nmiAcked := false, pc := m.nmiVector } := if_pos h

theorem Mgmt.leftNmi_returns {m : Mgmt} (h : m.nmiPending = false) : m.leftNmi = { m with nmiActive := false, pc := m.nmiPc } :=
  if_neg (h.trans_ne Bool.false_ne_true)

theorem State.takeNmi_after_retn {s : State} (ha : s.mgmt.nmiActive = true) (hw : s.mgmt.waiting = false) :
    (s.setMgmt { s.mgmt with nmiActive := false, pc := s.mgmt.nmiPc }).takeNmi =
      s.setMgmt { s.mgmt with nmiPc := s.mgmt.nmiPc, nmiPending := false, nmiAcked := false, pc := s.mgmt.nmiVector } := by
  have hm : { s.mgmt with nmiPc := s.mgmt.nmiPc, nmiActive := true, nmiPending := false, nmiAcked := false, pc := s.mgmt.nmiVector, waiting := false } =
      { s.mgmt with nmiPc := s.mgmt.nmiPc, nmiPending := false, nmiAcked := false, pc := s.mgmt.nmiVector } := by rw [← ha, ← hw]
  exact congrArg s.setMgmt hm

/-- Settles O8: a control word by what a read gives and by what a write leaves, a system instruction by what it does where its fields allow it. -/
theorem coreSystem : Obligations.CoreSystem := by
  unfold Obligations.CoreSystem
  refine fun s f h => ⟨State.command_ready h _, fun hr => ⟨fun hp ha hb v hv => ?_, fun hp ha hb hm n hn => ?_, fun hp hd hb v hv =>
    ⟨fun hm => ?_, fun hm => ?_, fun hl hm => ?_, fun hl k hk => ?_, fun hm => ?_, fun hl ht hm => ?_⟩, fun hf => ⟨fun ht => ?_, fun ht hm => ?_,
      fun ht hm => ?_, fun hm => ?_, fun hm => ?_⟩⟩⟩
  · rcases hv with ⟨hm, rfl⟩ | ⟨hm, rfl⟩ | ⟨hm, rfl⟩ | ⟨hm, rfl⟩ | ⟨hm, rfl⟩ | ⟨hm, rfl⟩
    · exact exec_cwr_reads h hr hp ha hb (congrArg BitVec.toNat hm) (by decide) rfl
    · exact exec_cwr_reads h hr hp ha hb (congrArg BitVec.toNat hm) (by decide) rfl
    · exact exec_cwr_reads h hr hp ha hb (congrArg BitVec.toNat hm) (by decide) rfl
    · exact exec_cwr_reads h hr hp ha hb (congrArg BitVec.toNat hm) (by decide) rfl
    · exact exec_cwr_reads h hr hp ha hb (congrArg BitVec.toNat hm) (by decide) rfl
    · exact exec_cwr_reads h hr hp ha hb rfl (by omega) (State.cwRead_unassigned _ hm)
  · exact exec_core h hr (m := fun s => s.mCwr f) rfl (State.mCwr_cycle _ hp ha hb hm hn)
  · exact exec_cww h hr hp hd hb (congrArg BitVec.toNat hm) (.inr rfl) hv (State.cwWrite_status _ v)
  · exact exec_cww h hr hp hd hb (congrArg BitVec.toNat hm) (.inr rfl) hv (State.cwWrite_trapPc _ v)
  · exact exec_cww h hr hp hd hb (congrArg BitVec.toNat hm) (.inl hl) hv (State.cwWrite_trapVector _ v)
  · exact exec_cww h hr hp hd hb rfl (.inl hl) hv (State.cwWrite_limit _ k hk v)
  · exact exec_cww h hr hp hd hb rfl (.inr (cwBoot_unassigned hm)) hv (g := id) (State.cwWrite_unassigned _ hm _)
  · rw [← State.bootLevel_coreStep s id] at hl
    exact ⟨_, exec_core_to h hr (execCww_mgmt f s) ((State.mCww_refused hp hd hb hl (cwBoot_of_listed hm)).trans (State.trapOpen_coreStep ht 2))⟩
  · refine exec_core_to h hr (m := fun s => s.mTrap f) rfl ((State.mTrap_eq _ hf).trans ((State.trap_coreStep ht 9 _).trans ?_))
    rw [BitVec.ofNat_toNat]
  · exact exec_system h hr hf (congrArg BitVec.toNat hm) rfl (if_pos ht)
  · refine exec_system h hr hf (congrArg BitVec.toNat hm) (g := Mgmt.leftNmi) rfl ((if_pos ht).trans ?_)
    cases hn : (s.coreStep id).mgmt.nmiPending with
    | false =>
      rw [Mgmt.leftNmi_returns hn]
      exact if_neg (hn.trans_ne Bool.false_ne_true)
    | true =>
      rw [Mgmt.leftNmi_taken hn]
      exact (if_pos hn).trans (State.takeNmi_after_retn ht rfl)
  · exact exec_system h hr hf (congrArg BitVec.toNat hm) rfl rfl
  · exact exec_system h hr hf (congrArg BitVec.toNat hm) rfl rfl

end Sys2Proof.Machine
end

section

/-! # The cores: interrupts and traps (O9) -/

namespace Sys2Proof.Machine

/-! ## Interrupts and NMIs (R63, R64) -/

namespace State

theorem takeInt_idle {s : State} (h : s.mgmt.ie = false ∨ s.mgmt.trapActive = true) : s.takeInt = s :=
  if_neg (by rcases h with h | h <;> simp [h])

/-- An interrupt is a trap whose value is free. -/
theorem takeInt_takes {s : State} (hp : s.mgmt.intPending = true) (hi : s.mgmt.ie = true) (ht : s.mgmt.trapActive = false) (hs : s.mgmt.stopped = false) :
    s.takeInt = { s with fresh := s.fresh + 1, mgmt := { s.mgmt.trapped 0x10#32 (BitVec.ofNat 32 (Config.freeBits 32 s.fresh)) with
      intPending := false, waiting := false } } := by
  have htrap : ¬ ((s.setMgmt { s.mgmt with intPending := false }).draw).mgmt.trapActive = true := ht.trans_ne Bool.false_ne_true
  rw [State.takeInt, if_pos (by simp [hp, hi, ht, hs])]
  exact if_neg htrap

/-- A pending NMI is taken. -/
theorem nmi_taken {s : State} (hp : s.mgmt.nmiPending = true) (ha : s.mgmt.nmiActive = false) (hs : s.mgmt.stopped = false) :
    (if s.mgmt.nmiPending && !s.mgmt.nmiActive && !s.mgmt.stopped then s.takeNmi else s) = s.takeNmi := if_pos (by simp [hp, ha, hs])

/-- An NMI in an NMI is held. -/
theorem nmi_held {s : State} (ha : s.mgmt.nmiActive = true) :
    (if s.mgmt.nmiPending && !s.mgmt.nmiActive && !s.mgmt.stopped then s.takeNmi else s) = s := if_neg (by simp [ha])

end State

theorem execNmiTake_eq (s : State) : exec .nmiTake s =
    s.command (fun s => if s.mgmt.nmiPending && !s.mgmt.nmiActive && !s.mgmt.stopped then s.takeNmi else s) := rfl

/-! ## Protection regions (R61) -/

/-- The search of a falling list finds its greatest element with a property. -/
theorem find?_eq_some_iff_of_falling {n : Nat} {l : List (Fin n)} {p : Fin n → Bool} {k : Fin n} (hl : l.Pairwise (· > ·)) (hk : k ∈ l) :
    l.find? p = some k ↔ p k = true ∧ ∀ j ∈ l, k < j → p j = false := by
  rw [List.find?_eq_some_iff_append]
  constructor
  · rintro ⟨hpk, as, bs, rfl, has⟩
    refine ⟨hpk, fun j hj hkj => ?_⟩
    obtain ⟨-, hbs, -⟩ := List.pairwise_append.1 hl
    rcases List.mem_append.1 hj with hj | hj
    · simpa using has j hj
    · rcases List.mem_cons.1 hj with rfl | hj
      · exact absurd hkj (lt_irrefl j)
      · exact absurd hkj (lt_asymm ((List.pairwise_cons.1 hbs).1 j hj))
  · rintro ⟨hpk, hgreater⟩
    obtain ⟨as, bs, rfl⟩ := List.append_of_mem hk
    refine ⟨hpk, as, bs, rfl, fun a ha => ?_⟩
    obtain ⟨-, -, hab⟩ := List.pairwise_append.1 hl
    rw [hgreater a (List.mem_append_left _ ha) (hab a ha k List.mem_cons_self)]
    rfl

/-- A region is enabled and contains an address. -/
def Mgmt.Covers (m : Mgmt) (a : Nat) (k : Fin 16) : Prop :=
  (m.protBase[k]).getLsbD 0 = true ∧ (m.protBase[k]).toNat / 4096 ≤ a / 4096 ∧ a / 4096 ≤ (m.protLimit[k]).toNat / 4096

/-- The region that decides an address covers it, and none of a higher number does. -/
theorem Mgmt.region_eq_some (m : Mgmt) (a : Nat) (k : Fin 16) : m.region a = some k ↔ m.Covers a k ∧ ∀ j : Fin 16, k < j → ¬ m.Covers a j := by
  have hfalling : (List.finRange 16).reverse.Pairwise (· > ·) := List.pairwise_reverse.2 (List.pairwise_lt_finRange 16)
  have hmem (j : Fin 16) : j ∈ (List.finRange 16).reverse := List.mem_reverse.2 (List.mem_finRange j)
  have hcovers (j : Fin 16) : ((m.protBase[j]).toNat % 2 = 1 && (m.protBase[j]).toNat / 4096 ≤ a / 4096 &&
      a / 4096 ≤ (m.protLimit[j]).toNat / 4096 : Bool) = true ↔ m.Covers a j := by
    simp [Mgmt.Covers, BitVec.getLsbD, Nat.testBit_zero, and_assoc]
  rw [Mgmt.region, find?_eq_some_iff_of_falling hfalling (hmem k), hcovers k]
  refine and_congr_right (fun _ => ⟨fun h j hkj hj => ?_, fun h j _ hkj => ?_⟩)
  · exact absurd ((hcovers j).2 hj) (by rw [h j (hmem j) hkj]; decide)
  · exact Bool.eq_false_iff.2 (fun hj => h j hkj ((hcovers j).1 hj))

theorem State.permits_iff (s : State) (a g : Nat) : s.permits a g = true ↔ s.bootLevel = true ∨
    ∃ k : Fin 16, (s.mgmt.protLimit[k]).toNat.testBit g = true ∧ s.mgmt.Covers a k ∧ ∀ j : Fin 16, k < j → ¬ s.mgmt.Covers a j := by
  rw [State.permits, Bool.or_eq_true]
  refine or_congr_right ?_
  constructor
  · intro h
    cases hr : s.mgmt.region a with
    | none => simp [hr] at h
    | some k => exact ⟨k, by simpa [hr] using h, (s.mgmt.region_eq_some a k).1 hr⟩
  · rintro ⟨k, hg, hk⟩
    rw [(s.mgmt.region_eq_some a k).2 hk]
    exact hg

/-! ## Words that the cores do not know (R66, R68) -/

/-- The number of an instruction word is that of its bits. -/
theorem ofNat_word (f : Fields) (major : BitVec 6) : BitVec.ofNat 32 (f.word major.toNat) = Fields.bits f major := by
  have hd := f.d.isLt
  have ha := f.a.isLt
  have hb := f.b.isLt
  have hp := f.pred.isLt
  have hm := f.minor.isLt
  apply BitVec.eq_of_toNat_eq
  rw [Fields.bits, BitVec.toNat_append, BitVec.toNat_append, BitVec.toNat_append, BitVec.toNat_append, BitVec.toNat_append,
    ← Nat.shiftLeft_add_eq_or_of_lt hm, ← Nat.shiftLeft_add_eq_or_of_lt hp, ← Nat.shiftLeft_add_eq_or_of_lt hb, ← Nat.shiftLeft_add_eq_or_of_lt ha,
    ← Nat.shiftLeft_add_eq_or_of_lt hd]
  simp only [Nat.shiftLeft_eq, BitVec.toNat_ofNat, Fields.word]
  have hmajor := major.isLt
  omega

/-- A word is spelt by its major opcode and its fields. -/
theorem ofNat_word_fieldsOf (w : W32) : BitVec.ofNat 32 ((fieldsOf w.toNat).word (w.toNat / 2 ^ 26)) = w := by
  have hw := w.isLt
  apply BitVec.eq_of_toNat_eq
  simp only [fieldsOf, Fields.word, BitVec.toNat_ofNat]
  omega

theorem State.mIllegal_coreStep {s : State} (ht : s.mgmt.trapActive = false) (f : Fields) (major : BitVec 6) :
    (s.coreStep id).mIllegal major.toNat f = s.coreStep (fun m => m.trapped 1#32 (Fields.bits f major)) := by
  rw [← ofNat_word]
  exact State.trap_coreStep ht 1 _

theorem State.mNop_illegal {s : State} (ht : s.mgmt.trapActive = false) {w : W32} (hw : w ≠ 0#32) :
    (s.coreStep id).mNop w = s.coreStep (fun m => m.trapped 1#32 w) := by
  rw [State.mNop, if_neg hw]
  refine (State.trap_coreStep ht 1 _).trans ?_
  rw [ofNat_word_fieldsOf]

/-- A RETT out of a trap is illegal, whatever its reserved fields hold. -/
theorem State.mRett_illegal {s : State} (ht : s.mgmt.trapActive = false) {f : Fields} (hm : f.minor = 0#8) :
    (s.coreStep id).mMinor f 0 (fun s => s.mRett f) = s.coreStep (fun m => m.trapped 1#32 (Fields.bits f 0x23#6)) := by
  have hill := State.mIllegal_coreStep ht f 0x23#6
  have hminor : f.minor.toNat = 0 := congrArg BitVec.toNat hm
  rw [State.mMinor, if_pos hminor, State.mRett, State.mSystem]
  split
  · exact hill
  · exact (if_neg (ht.trans_ne Bool.false_ne_true)).trans hill

/-! ## The cores over a raise (R252) -/

/-- The cores have not changed, but for what is pending for them. -/
def State.SameCore (s t : State) : Prop := t.mgmt = { s.mgmt with intPending := t.mgmt.intPending, nmiPending := t.mgmt.nmiPending }

namespace State.SameCore

variable {s t u : State}

theorem of_mgmt (h : t.mgmt = s.mgmt) : s.SameCore t := by rw [State.SameCore, h]

theorem refl (s : State) : s.SameCore s := of_mgmt rfl

theorem trans (h : s.SameCore t) (k : t.SameCore u) : s.SameCore u := by
  rw [State.SameCore] at *
  rw [k, h]

theorem ite {c : Prop} [Decidable c] (ht : s.SameCore t) (hu : s.SameCore u) : s.SameCore (if c then t else u) := by
  split
  · exact ht
  · exact hu

theorem foldl {α : Type} {f : State → α → State} (l : List α) (hf : ∀ (s : State) (a : α), s.SameCore (f s a)) (s : State) : s.SameCore (l.foldl f s) :=
  List.foldlRecOn l f (refl s) (fun t ht a _ => ht.trans (hf t a))

theorem mgmt_eq (h : s.SameCore t) : t.mgmt = { s.mgmt with intPending := t.mgmt.intPending, nmiPending := t.mgmt.nmiPending } := h
theorem pc (h : s.SameCore t) : t.mgmt.pc = s.mgmt.pc := (congrArg Mgmt.pc h.mgmt_eq).trans rfl
theorem x (h : s.SameCore t) : t.mgmt.x = s.mgmt.x := (congrArg Mgmt.x h.mgmt_eq).trans rfl
theorem trapCause (h : s.SameCore t) : t.mgmt.trapCause = s.mgmt.trapCause := (congrArg Mgmt.trapCause h.mgmt_eq).trans rfl
theorem trapPc (h : s.SameCore t) : t.mgmt.trapPc = s.mgmt.trapPc := (congrArg Mgmt.trapPc h.mgmt_eq).trans rfl
theorem trapVal (h : s.SameCore t) : t.mgmt.trapVal = s.mgmt.trapVal := (congrArg Mgmt.trapVal h.mgmt_eq).trans rfl

end State.SameCore

namespace State

theorem sameCore_sendMsg (s : State) (code arg : Nat) (payload : List Byte) : s.SameCore (s.sendMsg code arg payload) :=
  .ite (.of_mgmt rfl) (.refl s)

theorem sameCore_signalFault (s : State) (n : Nat) : s.SameCore (s.signalFault n) := by
  have hflag : s.SameCore (s.flag Reg.RIF_INT_STATUS_FAULT) := .of_mgmt rfl
  exact .ite (.ite (hflag.trans (sameCore_sendMsg ..)) hflag) (.refl s)

theorem sameCore_escalate (s : State) (n : Nat) : s.SameCore (s.escalate n) := .ite (.of_mgmt rfl) (.refl s)

theorem sameCore_issueInt (s : State) : s.SameCore s.issueInt := rfl
theorem sameCore_issueNmi (s : State) : s.SameCore s.issueNmi := rfl

theorem sameCore_fenceChamber (s : State) (k : Nat) : s.SameCore (s.fenceChamber k) := by
  simp only [State.fenceChamber]
  split
  · exact .of_mgmt rfl
  · exact .of_mgmt rfl

theorem sameCore_putBit (s : State) (f : Fld) (i : Nat) (b : Bool) : s.SameCore (s.putBit f i b) := .of_mgmt rfl

theorem sameCore_lightReaction (s : State) (n : Nat) (locus : Option Nat) : s.SameCore (s.lightReaction n locus) := by
  unfold State.lightReaction
  extract_lets lasting s1 flt s2
  have h1 : s.SameCore s1 := .ite (sameCore_issueInt s) (.refl s)
  have h2 : s.SameCore s2 := h1.trans (.ite (.of_mgmt rfl) (.refl _))
  refine .ite ?_ h1
  split
  · exact h2
  · exact h2
  · exact h2.trans (sameCore_putBit ..)
  · exact h2.trans (.ite (sameCore_fenceChamber ..) (sameCore_putBit ..))

theorem sameCore_controlReaction (s : State) {n : Nat} (hb : blockOf n = none) : s.SameCore (s.controlReaction n) := by
  unfold State.controlReaction
  extract_lets resets s1 s2 s3 s4
  have h1 : s.SameCore s1 := .ite (sameCore_issueInt s) (.refl s)
  clear_value s1
  have h2 : s.SameCore s2 := h1.trans (.ite (sameCore_issueNmi s1) (.refl s1))
  clear_value s2
  have h3 : s.SameCore s3 := h2.trans (.ite (by rw [hb]; exact .refl s2) (.refl s2))
  clear_value s3
  have h4 : s.SameCore s4 := h3.trans (.ite (.of_mgmt rfl) (.refl s3))
  clear_value s4
  exact h4.trans (.ite (.of_mgmt rfl) (.refl s4))

/-- A raise of a source without a block reset. -/
theorem sameCore_raise (s : State) {n : Nat} (hb : Src.light n = true ∨ blockOf n = none) (locus : Option Nat) : s.SameCore (s.raise n locus) := by
  have hnoted : s.SameCore (s.noteRaise n) := .of_mgmt rfl
  have hrecord (t : State) : t.SameCore (t.recordRaise n locus) := .of_mgmt rfl
  have htold (t : State) : t.SameCore (((t.recordRaise n locus).signalFault n).escalate n) :=
    ((hrecord t).trans (sameCore_signalFault _ n)).trans (sameCore_escalate _ n)
  rw [raise_eq_raiseAt, State.raiseAt]
  refine (hnoted.trans (htold _)).trans ?_
  by_cases hl : Src.light n = true
  · rw [if_pos hl]
    exact sameCore_lightReaction ..
  · rw [if_neg hl]
    exact sameCore_controlReaction _ (hb.resolve_left hl)

theorem rd_recordRaise_other (s : State) (n : Nat) (locus : Option Nat) {g : Fld} (hsticky : (Reg.FLT_STICKY_STICKY (n / 32)).key ≠ g.key)
    (hcount : (Reg.FLT_REACT_COUNT n).key ≠ g.key) : (s.recordRaise n locus).rd g = s.rd g :=
  (rd_inc_other (s.putBit (Reg.FLT_STICKY_STICKY (n / 32)) (n % 32) true) 1 hcount).trans (rd_putBit_other s (n % 32) true hsticky)

theorem rd_noteRaise_other (s : State) (n : Nat) {g : Fld} (hlive : (Reg.FLT_LIVE_LIVE (n / 32)).key ≠ g.key) : (s.noteRaise n).rd g = s.rd g :=
  rd_putBit_other s (f := Reg.FLT_LIVE_LIVE (n / 32)) (n % 32) true hlive

/-- The register fields that no raise of a source without a block reset changes. -/
theorem rd_raise_other (s : State) {n : Nat} (hb : Src.light n = true ∨ blockOf n = none) (locus : Option Nat) {g : Fld}
    (hg : beyondReaction g.key = true) (hlive : (Reg.FLT_LIVE_LIVE (n / 32)).key ≠ g.key) (hsticky : (Reg.FLT_STICKY_STICKY (n / 32)).key ≠ g.key)
    (hcount : (Reg.FLT_REACT_COUNT n).key ≠ g.key) : (s.raise n locus).rd g = s.rd g := by
  rw [raise_eq_raiseAt, (raiseAt_leaves (s.noteRaise n) hb locus).rd g hg, rd_recordRaise_other (s.noteRaise n) n locus hsticky hcount,
    rd_noteRaise_other s n hlive]

/-! ## The double trap (R63) -/

/-- The cores stop, and FS002 is raised. -/
def doubleTrapped (s : State) : State := State.raise (s.coreStep (fun m => { m with stopped := true })) 2

theorem on_doubleTrapped (s : State) {g : Fld} (hg : beyondReaction g.key = true) (hlive : (Reg.FLT_LIVE_LIVE 0).key ≠ g.key)
    (hsticky : (Reg.FLT_STICKY_STICKY 0).key ≠ g.key) (hcount : (Reg.FLT_REACT_COUNT 2).key ≠ g.key) : s.doubleTrapped.on g = s.on g :=
  on_congr ((rd_raise_other _ (.inr rfl) none hg hlive hsticky hcount).trans rfl)

theorem doubleTrap_coreStep (s : State) : (s.coreStep id).doubleTrap = if s.doubleTrapped.on (Reg.FLT_REACT_NMI 2) ||
    s.doubleTrapped.on (Reg.FLT_REACT_INT 2) then s.doubleTrapped.setMgmt { s.doubleTrapped.mgmt with stopped := false } else s.doubleTrapped := by
  have hstop : (s.coreStep id).setMgmt { (s.coreStep id).mgmt with stopped := true } = s.coreStep (fun m => { m with stopped := true }) := rfl
  rw [State.doubleTrap, hstop, doubleTrapped]

/-- A trap in a trap: the cores stop until the reaction acts, which an NMI or an interrupt does at once. -/
theorem trap_again {s : State} (ht : s.mgmt.trapActive = true) (cause val : Nat) :
    (s.coreStep id).trap cause val = if s.on (Reg.FLT_REACT_NMI 2) || s.on (Reg.FLT_REACT_INT 2) then
      s.doubleTrapped.setMgmt { s.doubleTrapped.mgmt with stopped := false } else s.doubleTrapped := by
  have hnmi : s.doubleTrapped.on (Reg.FLT_REACT_NMI 2) = s.on (Reg.FLT_REACT_NMI 2) := on_doubleTrapped s (by decide) (by decide) (by decide) (by decide)
  have hint : s.doubleTrapped.on (Reg.FLT_REACT_INT 2) = s.on (Reg.FLT_REACT_INT 2) := on_doubleTrapped s (by decide) (by decide) (by decide) (by decide)
  have hactive : (s.coreStep id).mgmt.trapActive = true := ht
  rw [State.trap, State.trapAt, if_pos hactive, doubleTrap_coreStep, hnmi, hint]

end State

/-- A trap in a trap raises FS002; the cores keep what the first trap stored, and run again. -/
theorem State.doubleTrapped_reacts (s : State) {t : State} (ht : t = s.doubleTrapped.setMgmt { s.doubleTrapped.mgmt with stopped := false }) :
    t.sticky 2 = true ∧ t.mgmt.stopped = false ∧ t.mgmt.trapCause = s.mgmt.trapCause ∧ t.mgmt.trapPc = s.mgmt.trapPc ∧
      t.mgmt.trapVal = s.mgmt.trapVal := by
  have hcore : (s.coreStep (fun m => { m with stopped := true })).SameCore s.doubleTrapped := State.sameCore_raise _ (.inr rfl) none
  have hsticky : s.doubleTrapped.sticky 2 = true := State.sticky_raise _ (by decide) (.inr rfl) none
  generalize s.doubleTrapped = d at ht hcore hsticky
  subst ht
  exact ⟨hsticky, rfl, hcore.trapCause, hcore.trapPc, hcore.trapVal⟩

/-- Settles O9: an interrupt and an NMI by when each is taken, a region by the search that finds it, a trap in a trap by the reaction of FS002. -/
theorem coreInterruptsAndTraps : Obligations.CoreInterruptsAndTraps := by
  unfold Obligations.CoreInterruptsAndTraps
  refine ⟨fun s h => ⟨fun hp hi ht hs => ⟨BitVec.ofNat 32 (Config.freeBits 32 s.fresh), ?_⟩, fun hidle => ?_, fun hp ha hs => ?_, fun ha => ?_⟩,
    fun s f => ⟨s.permits_iff, fun h hr => ⟨fun ht hf => ⟨fun hnmi hint => ?_, fun hreact => ?_⟩,
      fun ht => ⟨fun slot w hw => ?_, ?_, ?_, fun hm => ?_⟩⟩⟩⟩
  · exact (State.command_ready h _).trans (congrArg Host.Outcome.next (State.takeInt_takes hp hi ht hs))
  · exact (State.command_ready h _).trans (congrArg Host.Outcome.next (State.takeInt_idle hidle))
  · rw [execNmiTake_eq, State.command_ready h, State.nmi_taken hp ha hs, State.takeNmi, State.setMgmt]
  · rw [execNmiTake_eq, State.command_ready h, State.nmi_held ha]
  · refine exec_core_to h hr (m := fun s => s.mTrap f) rfl ((State.mTrap_eq _ hf).trans ((State.trap_again ht 9 _).trans ?_))
    exact if_neg (by simp [hnmi, hint])
  · refine ⟨_, exec_core_to h hr (m := fun s => s.mTrap f) rfl ((State.mTrap_eq _ hf).trans ((State.trap_again ht 9 _).trans ?_)),
      s.doubleTrapped_reacts rfl⟩
    exact if_pos (by simpa using hreact)
  · exact exec_core_to h hr (execNop_mgmt slot w s) (State.mNop_illegal ht hw)
  · exact exec_core_to h hr (m := fun s => s.mIllegal 0x30 f) rfl (State.mIllegal_coreStep ht f 0x30#6)
  · exact exec_core_to h hr (m := fun s => s.mIllegal 0x28 f) rfl (State.mIllegal_coreStep ht f 0x28#6)
  · exact exec_core_to h hr (m := fun s => s.mMinor f 0 (fun s => s.mRett f)) rfl (State.mRett_illegal ht hm)

end Sys2Proof.Machine
end

section

/-! # The cores over the rest of the device -/

namespace Sys2Proof.Machine

/-! ## The cores over reads (R134-R137, R173, R408) -/

namespace State

theorem sameCore_put (s : State) (f : Fld) (v : Nat) : s.SameCore (s.put f v) := .of_mgmt rfl

theorem sameCore_fenceLine (s : State) (line : Nat) : s.SameCore (s.fenceLine line) := by
  have hfenced : s.SameCore (State.flag { s with bas := { s.bas with fenced := insertSet line s.bas.fenced } } Reg.BAS_EVENT_LASTING) := .of_mgmt rfl
  have hslot (t : State) (i : Fin 3) : t.SameCore (t.invalidateSlot i) := by
    refine SameCore.trans (u := t.invalidateSlot i) (t := { t with seq := { t.seq with slots := t.seq.slots.set i none } }) (.of_mgmt rfl) ?_
    exact SameCore.foldl _ (fun u f => sameCore_put u f 0) _
  unfold State.fenceLine
  split
  · exact hfenced.trans (hslot _ _)
  · exact hfenced

theorem sameCore_inc (s : State) (f : Fld) : s.SameCore (s.inc f) := .of_mgmt rfl
theorem sameCore_eccRecord (s : State) (kind : Nat) (tag : Option Nat) (bank line : Nat) : s.SameCore (s.eccRecord kind tag bank line) := .of_mgmt rfl
theorem sameCore_queueBack (s : State) (bank line : Nat) : s.SameCore (s.queueBack bank line) := .of_mgmt rfl

theorem sameCore_eccCorrected (s : State) (tag : Option Nat) (bank line : Nat) : s.SameCore (s.eccCorrected tag bank line) := by
  unfold State.eccCorrected
  extract_lets t n u v
  have ht : s.SameCore t := ((sameCore_inc ..).trans (sameCore_eccRecord ..)).trans (sameCore_queueBack ..)
  clear_value t
  have hv : s.SameCore v := ht.trans (.of_mgmt rfl)
  have hnoted : v.SameCore { v with bas := { v.bas with sweepTold := true } } := .of_mgmt rfl
  exact hv.trans (.ite (hnoted.trans (sameCore_raise _ (.inl (by decide)) none)) (.refl v))

/-- A read of a basin unit with any outcome. -/
theorem sameCore_eccOutcome (s : State) (e : Ecc) (bank line : Nat) : s.SameCore (s.eccOutcome e none bank line) := by
  cases e with
  | clean => exact .refl s
  | corrected => exact sameCore_eccCorrected ..
  | transient => exact (((sameCore_inc ..).trans (sameCore_eccRecord ..)).trans (sameCore_queueBack ..)).trans (sameCore_raise _ (.inl (by decide)) none)
  | lasting => exact (((sameCore_inc ..).trans (sameCore_eccRecord ..)).trans (sameCore_fenceLine ..)).trans (sameCore_raise _ (.inl (by decide)) none)

/-- A read of a word of the trim store or of the ledger with any outcome. -/
theorem sameCore_trimEcc (s : State) (store w : Nat) (e : Ecc) (locus : Option Nat) : s.SameCore (s.trimEcc store w e locus) := by
  cases e with
  | clean => exact .refl s
  | corrected => exact .refl s
  | transient => exact SameCore.trans (.of_mgmt rfl) (sameCore_raise _ (.inl (by decide)) none)
  | lasting => exact SameCore.trans (.of_mgmt rfl) (sameCore_raise _ (.inl (by decide)) locus)

theorem sameCore_readUnit (s : State) (r : Region) (e : Ecc) (u : Nat) : s.SameCore (s.readUnit r e u) := by
  unfold State.readUnit
  split
  · exact .ite (.refl s) (sameCore_eccOutcome ..)
  · exact .ite (.refl s) (sameCore_trimEcc ..)
  · exact .ite (.refl s) (sameCore_trimEcc ..)
  · exact .refl s

theorem sameCore_mapRead (s : State) (r : Region) (a n : Nat) (errs : List (Nat × Ecc)) : s.SameCore (s.mapRead r a n errs).1 := by
  have hunits := SameCore.foldl (unitsOf r.unit a n) (fun t u => sameCore_readUnit t r (eccAt errs r.unit u) u) s
  exact hunits.trans (.ite (.of_mgmt rfl) (.refl _))

theorem sameCore_readWord (s : State) (off : Nat) : s.SameCore (s.readWord off).1 := by
  have hlatch : s.SameCore (s.latchHigh off) := by
    unfold State.latchHigh
    split
    · exact sameCore_put ..
    · exact sameCore_put ..
    · exact sameCore_put ..
    · exact sameCore_put ..
    · exact .refl s
  exact hlatch.trans (SameCore.foldl _ (fun t f => .ite (sameCore_put t f 0) (.refl t)) _)

theorem sameCore_readAlias (s : State) (a : Nat) : s.SameCore (s.readAlias a).1 := by
  simp only [State.readAlias]
  split
  · exact .ite (sameCore_putBit ..) (.refl s)
  · exact .refl s

theorem sameCore_busReadWord (s : State) (addr : Nat) : s.SameCore (s.busReadWord addr).1 := by
  unfold State.busReadWord
  split
  · exact sameCore_readWord ..
  · exact sameCore_readAlias ..

theorem sameCore_busReadWords (s : State) (addr k : Nat) : s.SameCore (s.busReadWords addr k).1 := by
  induction k generalizing s addr with
  | zero => exact .refl s
  | succ k ih => exact (sameCore_busReadWord s addr).trans (ih _ (addr + 4))

/-- An access that a load may make is no misaligned one of R404. -/
theorem widthOf_aligned {a n : Nat} (hn : n = 1 ∨ n = 2 ∨ n = 4) (ha : a % n = 0) : widthOf a n = .words 1 ∨ widthOf a n = .narrow := by
  unfold widthOf
  rcases hn with rfl | rfl | rfl
  · exact .inr rfl
  · rw [if_neg (by omega), if_pos (.inr ⟨rfl, ha⟩)]
    exact .inr rfl
  · rw [if_pos ⟨by decide, rfl, ha⟩]
    exact .inl rfl

/-- A read of register space by a load. -/
theorem sameCore_busRead (s : State) {a n : Nat} (hn : n = 1 ∨ n = 2 ∨ n = 4) (ha : a % n = 0) : s.SameCore (s.busRead .mgmt a n).1 := by
  rcases widthOf_aligned hn ha with h | h
  · simp only [State.busRead, h]
    exact sameCore_busReadWords s a 1
  · simp only [State.busRead, h]
    exact .refl s

end State
end Sys2Proof.Machine
end

section

/-! # Bytes in little-endian order -/

namespace Sys2Proof.Machine

/-! ## Bytes as numbers -/

/-- The number of a list of n bytes is read at its start. -/
theorem leAt_map_range (f : Nat → Byte) (n : Nat) : leAt ((List.range n).map f) 0 n = ofLE ((List.range n).map f) := by
  rw [leAt, List.drop_zero, List.take_of_length_le (by simp)]

theorem ofLE_readBytes (m : Memory) (a n : Nat) : ofLE ((List.range n).map (fun i => m.byte (a + i))) = m.readLE a n := by
  induction n generalizing a with
  | zero => rfl
  | succ n ih =>
    have hnext : (fun i => m.byte (a + i)) ∘ Nat.succ = fun i => m.byte (a + 1 + i) := by
      funext i
      exact congrArg m.byte (by omega)
    rw [List.range_succ_eq_map, List.map_cons, List.map_map, ofLE, hnext, ih (a + 1)]
    rfl

theorem getElem_leBytes (v n : Nat) {i : Nat} (h : i < (leBytes v n).length) : (leBytes v n)[i] = BitVec.ofNat 8 (v / 256 ^ i) := by
  induction n generalizing v i with
  | zero => exact absurd h (Nat.not_lt_zero i)
  | succ n ih =>
    cases i with
    | zero => simp [leBytes]
    | succ i =>
      simp only [leBytes, List.getElem_cons_succ]
      rw [ih (v / 256) (by simpa [leBytes] using h), Nat.div_div_eq_div_mul, Nat.pow_succ, Nat.mul_comm]

/-- The bytes of a store to a memory. -/
theorem Memory.byte_writeBytes_leBytes (m : Memory) (a v n : Nat) :
    (∀ i < n, (m.writeBytes a (leBytes v n)).byte (a + i) = BitVec.ofNat 8 (v / 256 ^ i)) ∧
    (∀ b, b < a ∨ a + n ≤ b → (m.writeBytes a (leBytes v n)).byte b = m.byte b) := by
  refine ⟨fun i hi => ?_, fun b hb => m.byte_writeBytes_other _ (by rwa [length_leBytes])⟩
  have hlt : i < (leBytes v n).length := by rwa [length_leBytes]
  rw [m.byte_writeBytes_in a _ i hlt, getElem_leBytes v n hlt]

theorem toSigned_eq_toInt (w v : Nat) : toSigned w v = (BitVec.ofNat w v).toInt := by
  rw [← toSigned_toNat, BitVec.toNat_ofNat]
  simp only [toSigned, Nat.mod_mod]

/-- What a load puts in its register (R73). -/
theorem ofNat_loadExtend (op : LoadOp) (v : Nat) : BitVec.ofNat 32 (loadExtend op v) = loadResult op v := by
  cases op with
  | lw => rfl
  | lhu => rfl
  | lbu => rfl
  | lh => exact (ofNat_ofSigned _ _).trans (congrArg (BitVec.ofInt 32) (toSigned_eq_toInt 16 v))
  | lb => exact (ofNat_ofSigned _ _).trans (congrArg (BitVec.ofInt 32) (toSigned_eq_toInt 8 v))

/-! ## Reads without an error (R401) -/

theorem eccAt_clean (a size u : Nat) : eccAt [(a, .clean)] size u = .clean := by
  by_cases h : a / size = u <;> simp [eccAt, h]

theorem State.readUnit_clean (s : State) (r : Region) (u : Nat) : s.readUnit r .clean u = s := by
  cases r with
  | basin => exact ite_self s
  | trim => exact ite_self s
  | ledger => exact ite_self s
  | _ => rfl

/-- A read that finds no error and no byte without a value gives the bytes as they are stored, and changes nothing. -/
theorem State.mapRead_clean (s : State) (r : Region) {a n : Nat} (hopen : ∀ i < n, s.byteOpen (a + i) = false) :
    s.mapRead r a n [(a, .clean)] = (s, (List.range n).map (fun i => BitVec.ofNat 8 (s.mapByte (a + i))), false) := by
  have hunits (l : List Nat) : l.foldl (fun t u => t.readUnit r (eccAt [(a, .clean)] r.unit u) u) s = s := by
    simp only [eccAt_clean, State.readUnit_clean]
    exact List.foldl_fixed l
  have hany : (List.range n).any (fun i => s.byteOpen (a + i)) = false := by
    simpa using hopen
  have hbad (l : List Nat) : (if r = .basin then l.filter (fun u => eccAt [(a, .clean)] 16 u = .lasting && !s.bas.fenced.contains (u / 32)) else []) = [] := by
    simp [eccAt_clean]
  simp only [State.mapRead, hunits, hany, hbad]
  refine Prod.ext rfl (Prod.ext (List.map_congr_left (fun i hi => ?_)) rfl)
  have hlt : i < n := List.mem_range.1 hi
  simp [hopen i hlt, List.headD_eq_head?_getD, hlt]

/-! ## Aligned accesses (R401) -/

theorem regionOf_sram (a : Nat) : regionOf a = some .sram ↔ 0x6100000 ≤ a ∧ a < 0x6180000 := by
  unfold regionOf
  grind

theorem regionOf_regs {a : Nat} (h : regionOf a = some .regs) : a < aliasBase := by
  unfold regionOf at h
  unfold aliasBase
  grind

theorem regionOf_alias {a : Nat} (h : regionOf a = some .alias_) : ¬ a < aliasBase := by
  unfold regionOf at h
  unfold aliasBase
  grind

end Sys2Proof.Machine
end

section

/-! # The cores: loads and stores (O10) -/

namespace Sys2Proof.Machine

/-! ## The register that a load or a result writes -/

namespace Mgmt

theorem pc_wrote (m : Mgmt) (r : BitVec 5) (v : W32) : (m.wrote r v).pc = m.pc := by unfold Mgmt.wrote; split <;> rfl
theorem trapActive_wrote (m : Mgmt) (r : BitVec 5) (v : W32) : (m.wrote r v).trapActive = m.trapActive := by unfold Mgmt.wrote; split <;> rfl
theorem waiting_wrote (m : Mgmt) (r : BitVec 5) (v : W32) : (m.wrote r v).waiting = m.waiting := by unfold Mgmt.wrote; split <;> rfl
theorem x_wrote (m : Mgmt) (r : BitVec 5) (v : W32) : (m.wrote r v).x = if r = 0#5 then m.x else m.x.set r.toFin v := by
  unfold Mgmt.wrote; split <;> rfl

theorem x_wrote_congr {m n : Mgmt} (h : m.x = n.x) (r : BitVec 5) (v : W32) : (m.wrote r v).x = (n.wrote r v).x := by
  rw [x_wrote, x_wrote, h]

end Mgmt

namespace State

/-! ## The frame of a load or store (R61, R65, R73) -/

theorem permits_coreStep (s : State) (a g : Nat) : (s.coreStep id).permits a g = s.permits a g := s.permits_setMgmt { s.mgmt with waiting := false } rfl rfl a g

section

variable {s : State} {f : Fields} {a : Nat} (hp : f.pred = 0#3) (ha : a = (s.mgmt.value f.a + (immBits f).signExtend 32).toNat)
include hp ha

theorem coreAccess_eq (major n grant cause : Nat) (io : MgmtIO) (g : State → Nat → State) :
    (s.coreStep id).coreAccess major f n grant cause io g =
      if a % n ≠ 0 then (s.coreStep id).trap 6 a
      else if !s.permits a grant then ((s.coreStep id).trap cause a).raise 1
      else if io.lockstep then State.raise (s.coreStep Mgmt.advanced) 0
      else g (s.coreStep id) a := by
  have haddr : (s.coreStep id).coreAddr f = a := (ofSigned_reg_add_imm s.mgmt f).trans ha.symm
  have hnext : (s.coreStep id).nextPc = s.coreStep Mgmt.advanced := rfl
  rw [State.coreAccess, mPred_zero _ hp, haddr]
  simp only [permits_coreStep, hnext]

theorem coreAccess_lands {n grant : Nat} {io : MgmtIO} (hn : a % n = 0) (hg : s.permits a grant = true) (hl : io.lockstep = false)
    (major cause : Nat) (g : State → Nat → State) : (s.coreStep id).coreAccess major f n grant cause io g = g (s.coreStep id) a := by
  rw [coreAccess_eq hp ha, if_neg (not_not.2 hn), if_neg (by simp [hg]), if_neg (by simp [hl])]

theorem coreAccess_split {n grant : Nat} {io : MgmtIO} (hn : a % n = 0) (hg : s.permits a grant = true) (hl : io.lockstep = true)
    (major cause : Nat) (g : State → Nat → State) :
    (s.coreStep id).coreAccess major f n grant cause io g = State.raise (s.coreStep Mgmt.advanced) 0 := by
  rw [coreAccess_eq hp ha, if_neg (not_not.2 hn), if_neg (by simp [hg]), if_pos hl]

theorem coreAccess_misaligned {n : Nat} (ht : s.mgmt.trapActive = false) (hn : a % n ≠ 0) (major grant cause : Nat) (io : MgmtIO)
    (g : State → Nat → State) :
    (s.coreStep id).coreAccess major f n grant cause io g = s.coreStep (fun m => m.trapped 6#32 (BitVec.ofNat 32 a)) := by
  rw [coreAccess_eq hp ha, if_pos hn, trap_coreStep ht]

theorem coreAccess_denied {n grant : Nat} (ht : s.mgmt.trapActive = false) (hn : a % n = 0) (hg : s.permits a grant = false)
    (major cause : Nat) (io : MgmtIO) (g : State → Nat → State) :
    (s.coreStep id).coreAccess major f n grant cause io g =
      State.raise (s.coreStep (fun m => m.trapped (BitVec.ofNat 32 cause) (BitVec.ofNat 32 a))) 1 := by
  rw [coreAccess_eq hp ha, if_neg (not_not.2 hn), if_pos (by simp [hg]), trap_coreStep ht]

end

/-! ## Loads (R73) -/

theorem mResult_load (s : State) (op : LoadOp) (d : BitVec 5) (v : Nat) :
    s.mResult d (loadExtend op v) = s.setMgmt (s.mgmt.wrote d (loadResult op v)).advanced := by
  rw [mResult_eq, ofNat_loadExtend]

theorem loadSram_clean (s : State) (op : LoadOp) (d : BitVec 5) (a : Nat) :
    s.loadSram op d a .clean = s.mResult d (loadExtend op (s.mgmt.sram.readLE (a - sramBase) (LoadSize op))) := rfl

theorem loadSram_corrected (s : State) (op : LoadOp) (d : BitVec 5) (a : Nat) :
    s.loadSram op d a .corrected = (s.mResult d (loadExtend op (s.mgmt.sram.readLE (a - sramBase) (LoadSize op)))).raise 3 := rfl

theorem loadSram_uncorrectable (s : State) (op : LoadOp) (d : BitVec 5) (a : Nat) {ecc : Ecc} (h : ecc = .transient ∨ ecc = .lasting) :
    s.loadSram op d a ecc = (s.trap 8 a).raise 4 := by
  rcases h with rfl | rfl
  · rfl
  · rfl

/-- A load has put v in its register, and the cores go on. -/
structure Loaded (s : State) (op : LoadOp) (d : BitVec 5) (v : Nat) (t : State) : Prop where
  pc : t.mgmt.pc = s.mgmt.pc + 4#32
  x : t.mgmt.x = (s.mgmt.wrote d (loadResult op v)).x

theorem SameCore.loaded {s t : State} (h : s.SameCore t) (op : LoadOp) (d : BitVec 5) (v : Nat) : s.Loaded op d v (t.mResult d (loadExtend op v)) := by
  rw [mResult_load]
  exact ⟨congrArg (· + 4#32) ((t.mgmt.pc_wrote d _).trans h.pc), Mgmt.x_wrote_congr h.x d _⟩

theorem Loaded.trans {s t u : State} {op : LoadOp} {d : BitVec 5} {v : Nat} (h : s.Loaded op d v t) (k : t.SameCore u) : s.Loaded op d v u :=
  ⟨k.pc.trans h.pc, k.x.trans h.x⟩

theorem loadSize_cases (op : LoadOp) : LoadSize op = 1 ∨ LoadSize op = 2 ∨ LoadSize op = 4 := by cases op <;> decide

theorem loadAt_regs {s : State} {a : Nat} (hr : regionOf a = some .regs ∨ regionOf a = some .alias_) (op : LoadOp) (d : BitVec 5) (ecc : Ecc) :
    s.loadAt op d a ecc = (s.busRead .mgmt a (LoadSize op)).1.mResult d (loadExtend op (leAt (s.busRead .mgmt a (LoadSize op)).2 0 (LoadSize op))) := by
  unfold State.loadAt
  rcases hr with hr | hr
  · rw [hr]
  · rw [hr]

theorem loadAt_map {s : State} {a : Nat} {r : Region} (hr : regionOf a = some r) (hsram : r ≠ .sram) (hregs : r ≠ .regs) (halias : r ≠ .alias_)
    (op : LoadOp) (d : BitVec 5) (ecc : Ecc) :
    s.loadAt op d a ecc = (s.mapRead r a (LoadSize op) [(a, ecc)]).1.mResult d
      (loadExtend op (leAt (s.mapRead r a (LoadSize op) [(a, ecc)]).2.1 0 (LoadSize op))) := by
  unfold State.loadAt
  rw [hr]
  cases r with
  | sram => exact absurd rfl hsram
  | regs => exact absurd rfl hregs
  | alias_ => exact absurd rfl halias
  | _ => rfl

theorem loadAt_sram {s : State} {a : Nat} (hr : regionOf a = some .sram) (op : LoadOp) (d : BitVec 5) (ecc : Ecc) :
    s.loadAt op d a ecc = s.loadSram op d a ecc := by
  rw [State.loadAt, hr]

/-- A load of any mapped address whose read delivers puts what it reads in its register. -/
theorem loadAt_loaded {s : State} {a : Nat} {r : Region} (op : LoadOp) (d : BitVec 5) {ecc : Ecc} (hn : a % LoadSize op = 0)
    (hr : regionOf a = some r) (hecc : r = .sram → ecc = .clean ∨ ecc = .corrected) :
    ∃ v, s.Loaded op d v (s.loadAt op d a ecc) ∧ (r = .sram → v = s.mgmt.sram.readLE (a - sramBase) (LoadSize op)) := by
  by_cases hsram : r = .sram
  · subst hsram
    have hloaded := (SameCore.refl s).loaded op d (s.mgmt.sram.readLE (a - sramBase) (LoadSize op))
    refine ⟨_, ?_, fun _ => rfl⟩
    rw [loadAt_sram hr]
    rcases hecc rfl with rfl | rfl
    · rw [loadSram_clean]
      exact hloaded
    · rw [loadSram_corrected]
      exact hloaded.trans (sameCore_raise _ (.inr rfl) none)
  by_cases hbus : r = .regs ∨ r = .alias_
  · have hbus : regionOf a = some .regs ∨ regionOf a = some .alias_ := by rcases hbus with rfl | rfl <;> simp [hr]
    rw [loadAt_regs hbus]
    exact ⟨_, (sameCore_busRead s (loadSize_cases op) hn).loaded op d _, fun h => absurd h hsram⟩
  · obtain ⟨hregs, halias⟩ := not_or.1 hbus
    rw [loadAt_map hr hsram hregs halias]
    exact ⟨_, (sameCore_mapRead s r a (LoadSize op) [(a, ecc)]).loaded op d _, fun h => absurd h hsram⟩

/-- The bytes of management SRAM in the memory map. -/
theorem mapBytes_sram (s : State) {a n : Nat} (hn : n = 1 ∨ n = 2 ∨ n = 4) (ha : a % n = 0) (hr : regionOf a = some .sram) :
    (List.range n).map (fun i => BitVec.ofNat 8 (s.mapByte (a + i))) = (List.range n).map (fun i => s.mgmt.sram.byte (a - sramBase + i)) := by
  obtain ⟨hlo, hhi⟩ := (regionOf_sram a).1 hr
  refine List.map_congr_left (fun i hi => ?_)
  have hlt : i < n := List.mem_range.1 hi
  have hin : regionOf (a + i) = some .sram := (regionOf_sram _).2 (by rcases hn with rfl | rfl | rfl <;> omega)
  rw [State.mapByte, hin, show a + i - sramBase = a - sramBase + i by unfold sramBase; omega]
  simp

/-- A load that finds no error gives the bytes as they are stored. -/
theorem loadAt_clean {s : State} {a : Nat} {r : Region} (op : LoadOp) (d : BitVec 5) (hn : a % LoadSize op = 0) (hr : regionOf a = some r)
    (hregs : r ≠ .regs) (halias : r ≠ .alias_) (hopen : ∀ i < LoadSize op, s.byteOpen (a + i) = false) :
    s.loadAt op d a .clean = s.setMgmt (s.mgmt.wrote d (loadResult op
      (leAt ((List.range (LoadSize op)).map (fun i => BitVec.ofNat 8 (s.mapByte (a + i)))) 0 (LoadSize op)))).advanced := by
  by_cases hsram : r = .sram
  · subst hsram
    rw [loadAt_sram hr, mapBytes_sram s (loadSize_cases op) hn hr, leAt_map_range, ofLE_readBytes]
    exact mResult_load ..
  · rw [loadAt_map hr hsram hregs halias, mapRead_clean s r hopen]
    exact mResult_load ..

theorem loadAt_unmapped {s : State} {a : Nat} (hr : regionOf a = none) (ht : s.mgmt.trapActive = false) (op : LoadOp) (d : BitVec 5) (ecc : Ecc) :
    (s.coreStep id).loadAt op d a ecc = State.raise (s.coreStep (fun m => (m.wrote d 0#32).trapped 7#32 (BitVec.ofNat 32 a))) 7 := by
  have hactive : (({ s.mgmt with waiting := false } : Mgmt).wrote d 0#32).trapActive = false := (Mgmt.trapActive_wrote ..).trans ht
  have hwaiting : (({ s.mgmt with waiting := false } : Mgmt).wrote d 0#32).waiting = false := Mgmt.waiting_wrote ..
  rw [State.loadAt, hr]
  exact congrArg (fun u : State => u.raise 7) (trap_eq (s := s.coreStep (fun m => m.wrote d 0#32)) hactive hwaiting 7 a)

theorem loadAt_uncorrectable {s : State} {a : Nat} (hr : regionOf a = some .sram) (ht : s.mgmt.trapActive = false) (op : LoadOp) (d : BitVec 5)
    {ecc : Ecc} (hecc : ecc = .transient ∨ ecc = .lasting) :
    (s.coreStep id).loadAt op d a ecc = State.raise (s.coreStep (fun m => m.trapped 8#32 (BitVec.ofNat 32 a))) 4 := by
  rw [loadAt_sram hr, loadSram_uncorrectable _ op d a hecc, trap_coreStep ht]

/-! ## Stores (R73) -/

theorem storeAt_discards {s : State} {a : Nat} {r : Region} (hr : regionOf a = some r) (hd : r = .drive ∨ r = .ledger ∨ r = .chambers ∨ r = .rom)
    (ht : s.mgmt.trapActive = false) (data : List Byte) :
    (s.coreStep id).storeAt a data = State.raise (s.coreStep (fun m => m.trapped 7#32 (BitVec.ofNat 32 a))) 7 := by
  have hstore : (s.coreStep id).storeAt a data = (s.coreStep id).coreDiscard a := by
    unfold State.storeAt
    rw [hr]
    rcases hd with rfl | rfl | rfl | rfl
    · rfl
    · rfl
    · rfl
    · rfl
  rw [hstore, State.coreDiscard, trap_coreStep ht]

theorem widthOf_aligned_word {a : Nat} (ha : a % 4 = 0) : widthOf a 4 = .words 1 := if_pos ⟨by decide, rfl, ha⟩

/-- A word store to a listed register, or to a bit of one, is its write. -/
theorem storeAt_listed {s : State} {a v : Nat} (hr : regionOf a = some .regs ∨ regionOf a = some .alias_) (ha : a % 4 = 0)
    (hl : listedAt a = true) (hphase : s.mode.phase ≠ .reset) (hv : v < 2 ^ 32) :
    s.storeAt a (leBytes v 4) = (s.busWriteWord .mgmt a v).afterWrite s.mgmt.pc := by
  have hlands : coreDiscards a (leBytes v 4).length = false := by rw [length_leBytes, coreDiscards, widthOf_aligned_word ha, hl]; rfl
  have hbus : s.busWrite .mgmt a (leBytes v 4) = s.busWriteWord .mgmt a v := by
    rw [State.busWrite, length_leBytes, widthOf_aligned_word ha]
    simp only [State.busWriteWords, if_neg hphase, leAt_leBytes_word hv]
  unfold State.storeAt
  rcases hr with hr | hr
  · rw [hr, ← hbus]
    exact if_neg (hlands.trans_ne Bool.false_ne_true)
  · rw [hr, ← hbus]
    exact if_neg (hlands.trans_ne Bool.false_ne_true)

end State

/-! ## Lockstep (R65) -/

theorem execCww_mgmtSplit (f : Fields) (s : State) :
    exec (.cww .mgmtSplit f) s = s.command (fun s => s.issueMgmt (fun s => s.lockSplit (fun s => s.mCwwDropped f))) := by
  calc exec (.cww .mgmtSplit f) s
      = s.command (fun s => s.issueMgmt (fun s => s.lockSplit (fun s =>
          if Engine.mgmtSplit = .mgmtSplit then s.mCwwDropped f else s.mCww f))) := rfl
    _ = s.command (fun s => s.issueMgmt (fun s => s.lockSplit (fun s => s.mCwwDropped f))) := by simp only [if_pos]

/-- A mismatch in an instruction that goes on leaves the program counter moved, and FS000. -/
theorem State.lockSplit_advances {s : State} {m : State → State} {g : Mgmt → Mgmt}
    (hm : m (s.coreStep id) = (s.coreStep id).setMgmt (g (s.coreStep id).mgmt))
    (hg : (s.coreStep id).mgmt.leading (g (s.coreStep id).mgmt) = (s.coreStep id).mgmt.advanced) :
    (s.coreStep id).lockSplit m = State.raise (s.coreStep Mgmt.advanced) 0 := by
  rw [State.lockSplit, hm]
  exact congrArg (fun x => ((s.coreStep id).setMgmt x).raise 0) hg

/-- A CWW whose write is dropped, at boot level. -/
theorem State.mCwwDropped_eq {s : State} {f : Fields} (hp : f.pred = 0#3) (hd : f.d = 0#5) (hb : f.b = 0#5) (hl : s.bootLevel = true) :
    s.mCwwDropped f = s.nextPc := by
  rw [State.mCwwDropped, State.mCwwBy, mPred_zero s hp, if_neg (by simp [hd, hb]), if_neg (by simp [hl])]

/-- The register that a mismatching instruction writes is not written. -/
theorem Mgmt.leading_wrote (m : Mgmt) (d : BitVec 5) (v : W32) : m.leading (m.wrote d v).advanced = m.advanced := by
  unfold Mgmt.wrote
  split <;> rfl

/-- Settles O10: the frame of a load or store decides what becomes of it, and the range of its address what it reads or writes. -/
theorem coreMemory : Obligations.CoreMemory := by
  unfold Obligations.CoreMemory
  refine fun s f a h hr hp ha => ⟨?_, ?_, fun op => ?_, fun hd hb hl => ?_⟩
  · rintro op io n rfl
    have hexec (t : State) (hm : (s.coreStep id).mLoad op f io = t) : exec (.elvothSLoad .mgmt op f io) s = .next t :=
      exec_core_to h hr (m := fun s => s.mLoad op f io) rfl hm
    refine ⟨fun hn hg hlock => ?_, fun hn hg hlock => hexec _ (State.coreAccess_split hp ha hn hg hlock ..),
      fun ht hn => hexec _ (State.coreAccess_misaligned hp ha ht hn ..), fun ht hn hg => hexec _ (State.coreAccess_denied hp ha ht hn hg ..)⟩
    have hlands : exec (.elvothSLoad .mgmt op f io) s = .next ((s.coreStep id).loadAt op f.d a io.ecc) :=
      hexec _ (State.coreAccess_lands hp ha hn hg hlock ..)
    refine ⟨fun r hr hecc => ?_, fun r hr hregs halias hecc hopen v hv => ?_, fun hr u bs hread => ?_, fun hr ht => ?_, fun hr hecc ht => ?_⟩
    · obtain ⟨v, hloaded, hv⟩ := State.loadAt_loaded (s := s.coreStep id) op f.d hn hr hecc
      exact ⟨_, v, hlands, hloaded.pc, hloaded.x.trans (Mgmt.x_wrote_congr (m := (s.coreStep id).mgmt) (n := s.mgmt) rfl ..), hv⟩
    · rw [hlands, hecc, hv]
      exact congrArg Host.Outcome.next (State.loadAt_clean (s := s.coreStep id) op f.d hn hr hregs halias hopen)
    · rw [hlands, State.loadAt_regs hr, hread, State.mResult_load, State.setMgmt]
    · rw [hlands, State.loadAt_unmapped hr ht]
    · rw [hlands, State.loadAt_uncorrectable hr ht op f.d hecc]
  · rintro op io n data rfl rfl
    have hexec (t : State) (hm : (s.coreStep id).mStore op f io = t) : exec (.elvothSStore .mgmt op f io) s = .next t :=
      exec_core_to h hr (m := fun s => s.mStore op f io) rfl hm
    refine ⟨fun hn hg hlock => ?_, fun hn hg hlock => hexec _ (State.coreAccess_split hp ha hn hg hlock ..),
      fun ht hn => hexec _ (State.coreAccess_misaligned hp ha ht hn ..), fun ht hn hg => hexec _ (State.coreAccess_denied hp ha ht hn hg ..)⟩
    have hdata : (s.coreStep id).mgmt.reg f.d = (s.mgmt.value f.d).toNat := Mgmt.reg_eq ..
    have hlands : exec (.elvothSStore .mgmt op f io) s = .next ((s.coreStep id).storeAt a (leBytes (s.mgmt.value f.d).toNat (StoreSize op))) :=
      hexec _ ((State.coreAccess_lands hp ha hn hg hlock ..).trans (by rw [hdata]))
    have hphase : (s.coreStep id).mode.phase ≠ .reset := h.2
    refine ⟨fun hr => ?_, fun hr hpool => ?_, fun hr hpool => ?_, fun hr => ?_, fun hr h4 hlisted => ?_, fun hr h4 hlisted => ?_, fun r hr hd ht => ?_⟩
    · obtain ⟨hin, hout⟩ := s.mgmt.sram.byte_writeBytes_leBytes (a - sramBase) (s.mgmt.value f.d).toNat (StoreSize op)
      refine ⟨_, ?_, hin, hout⟩
      rw [hlands, State.storeAt, hr]
      rfl
    · rw [hlands, State.storeAt, hr]
      exact congrArg (fun u : State => Host.Outcome.next u.nextPc) (if_neg (Nat.not_lt.2 hpool))
    · rw [hlands, State.storeAt, hr]
      exact congrArg (fun u : State => Host.Outcome.next u.nextPc) (if_pos hpool)
    · rw [hlands, State.storeAt, hr]
      rfl
    · rw [h4] at hlands hn
      rw [hlands, State.storeAt_listed (.inl hr) hn hlisted hphase (s.mgmt.value f.d).isLt, State.busWriteWord, if_pos (regionOf_regs hr)]
      rfl
    · rw [h4] at hlands hn
      rw [hlands, State.storeAt_listed (.inr hr) hn hlisted hphase (s.mgmt.value f.d).isLt, State.busWriteWord, if_neg (regionOf_alias hr)]
      rfl
    · rw [hlands, State.storeAt_discards hr hd ht]
  · exact exec_core_to h hr (m := fun s => s.lockSplit (fun s => s.mScalarImm op f)) rfl
      (State.lockSplit_advances (g := fun m => (m.wrote f.d (immResult 32 op (m.value f.a) (immBits f))).advanced) (State.mScalarImm_eq _ op hp)
        (Mgmt.leading_wrote ..))
  · rw [← State.bootLevel_coreStep s id] at hl
    exact exec_core_to h hr (execCww_mgmtSplit f s) (State.lockSplit_advances (g := Mgmt.advanced) (State.mCwwDropped_eq hp hd hb hl) rfl)

end Sys2Proof.Machine
end

section

/-! # LI and LUI (O54) -/

namespace Sys2Proof.Machine

/-! ## The 16-bit immediate (R67, R72) -/

/-- imm16 as bits 15:11, 10:8 and 7:0. -/
def immWord (f : Fields) : W16 := f.b ++ f.pred ++ f.minor

theorem imm16_eq_immWord (f : Fields) : f.imm16 = (immWord f).toNat := imm16_eq f

/-- Two 16-bit halves, as a number and side by side. -/
theorem ofNat_halves (hi : W16) (v : W32) : BitVec.ofNat 32 (hi.toNat * 65536 + v.toNat % 65536) = hi ++ v.setWidth 16 := by
  apply BitVec.eq_of_toNat_eq
  have hlow : (v.setWidth 16).toNat = v.toNat % 65536 := BitVec.toNat_setWidth ..
  rw [BitVec.toNat_append, ← Nat.shiftLeft_add_eq_or_of_lt (v.setWidth 16).isLt, Nat.shiftLeft_eq, hlow, BitVec.toNat_ofNat]
  omega

theorem toNat_append_div (hi lo : W16) : (hi ++ lo).toNat / 65536 = hi.toNat := by
  rw [BitVec.toNat_append, ← Nat.shiftLeft_add_eq_or_of_lt lo.isLt, Nat.shiftLeft_eq]
  omega

/-- The two halves of a word make the word. -/
theorem extractLsb'_append_setWidth (v : W32) : v.extractLsb' 16 16 ++ v.setWidth 16 = v := by
  rw [← ofNat_halves, BitVec.extractLsb'_toNat, Nat.shiftRight_eq_div_pow]
  apply BitVec.eq_of_toNat_eq
  rw [BitVec.toNat_ofNat]
  omega

/-! ## LI and LUI (R72) -/

theorem State.vLi_eq (s : State) (c : ChamberId) {f : Fields} (ha : f.a = 0#5) :
    s.vLi c f = s.setCh c ((s.chAt c).scalarLater 1 0 f.d (immWord f)) := by
  rw [State.vLi, if_neg (not_not.2 ha), State.sendScalar_eq, imm16_eq_immWord, ofNat_toNat_self]

theorem State.mLi_eq (s : State) {f : Fields} (ha : f.a = 0#5) :
    s.mLi f = s.setMgmt (s.mgmt.wrote f.d ((immWord f).setWidth 32)).advanced := by
  rw [State.mLi, if_pos ha, State.mResult_eq, imm16_eq_immWord, BitVec.ofNat_toNat]

theorem State.mLui_eq (s : State) {f : Fields} (ha : f.a = 0#5) :
    s.mLui f = s.setMgmt (s.mgmt.wrote f.d (immWord f ++ (s.mgmt.value f.d).setWidth 16)).advanced := by
  rw [State.mLui, if_pos ha, State.mResult_eq, imm16_eq_immWord, Mgmt.reg_eq, ofNat_halves]

theorem Mgmt.value_wrote_self (m : Mgmt) {r : BitVec 5} (h : r ≠ 0#5) (v : W32) : (m.wrote r v).value r = v := by
  simp [Mgmt.value, Mgmt.wrote, h]

/-- The register that an instruction of the cores has written. -/
theorem State.value_coreStep_wrote (s : State) {d : BitVec 5} (h : d ≠ 0#5) (v : Mgmt → W32) :
    (s.coreStep (fun m => (m.wrote d (v m)).advanced)).mgmt.value d = v { s.mgmt with waiting := false } :=
  Mgmt.value_wrote_self _ h _

theorem exec_li_mgmt {s : State} {f : Fields} (h : s.Ready) (hr : s.CoreRuns) (ha : f.a = 0#5) :
    exec (.li .mgmt f) s = .next (s.coreStep (fun m => (m.wrote f.d ((immWord f).setWidth 32)).advanced)) :=
  exec_core h hr (m := fun s => s.mLi f) rfl (State.mLi_eq _ ha)

theorem exec_lui_mgmt {s : State} {f : Fields} (h : s.Ready) (hr : s.CoreRuns) (ha : f.a = 0#5) :
    exec (.lui .mgmt f) s = .next (s.coreStep (fun m => (m.wrote f.d (immWord f ++ (m.value f.d).setWidth 16)).advanced)) :=
  exec_core h hr (m := fun s => s.mLui f) rfl (State.mLui_eq _ ha)

/-- What LI leaves in its register. -/
theorem value_of_exec_li {s t : State} {f : Fields} (h : s.Ready) (hr : s.CoreRuns) (ha : f.a = 0#5) (hd : f.d ≠ 0#5)
    (hexec : exec (.li .mgmt f) s = .next t) : t.mgmt.value f.d = (immWord f).setWidth 32 := by
  obtain rfl := Host.Outcome.next.inj ((exec_li_mgmt h hr ha).symm.trans hexec)
  exact s.value_coreStep_wrote hd _

/-- What LUI leaves in its register: the half that it does not write is the one that stood there. -/
theorem value_of_exec_lui {s t : State} {f : Fields} (h : s.Ready) (hr : s.CoreRuns) (ha : f.a = 0#5) (hd : f.d ≠ 0#5)
    (hexec : exec (.lui .mgmt f) s = .next t) : t.mgmt.value f.d = immWord f ++ (s.mgmt.value f.d).setWidth 16 := by
  obtain rfl := Host.Outcome.next.inj ((exec_lui_mgmt h hr ha).symm.trans hexec)
  exact s.value_coreStep_wrote hd (fun m => immWord f ++ (m.value f.d).setWidth 16)

/-- Settles O54: each load by what it leaves in its register; the two build a constant because LUI keeps the half that LI has written. -/
theorem loadImmediates : Obligations.LoadImmediates := by
  unfold Obligations.LoadImmediates
  refine ⟨fun s c f h hi ha => ?_, fun s f h hr ha imm16 himm => ⟨?_, ?_⟩, fun s t u f g v h hr ht hrt ha hga hd hgd hlow hhigh hli hlui => ?_⟩
  · exact exec_scalarSlot h hi (f := fun s => s.vLi c f) rfl (fun t _ _ => t.vLi_eq c ha)
  · obtain rfl : imm16 = immWord f := himm
    have hli := exec_li_mgmt h hr ha
    exact ⟨_, hli, rfl, fun hd => value_of_exec_li h hr ha hd hli⟩
  · obtain rfl : imm16 = immWord f := himm
    have hlui := exec_lui_mgmt h hr ha
    refine ⟨_, hlui, rfl, fun hd => ?_⟩
    rw [value_of_exec_lui h hr ha hd hlui]
    exact ⟨toNat_append_div .., BitVec.setWidth_append_eq_right ..⟩
  · calc u.mgmt.value f.d = immWord g ++ (t.mgmt.value f.d).setWidth 16 := by
          rw [← hgd]
          exact value_of_exec_lui ht hrt hga (hgd ▸ hd) hlui
      _ = immWord g ++ immWord f := by rw [value_of_exec_li h hr ha hd hli, BitVec.setWidth_setWidth_of_le _ (by decide), BitVec.setWidth_eq]
      _ = v.extractLsb' 16 16 ++ v.setWidth 16 := congrArg₂ (· ++ ·) hhigh.symm hlow.symm
      _ = v := extractLsb'_append_setWidth v

end Sys2Proof.Machine
end

section

/-! # BARGE.ISSUE (O3) -/

namespace Sys2Proof.Machine

theorem mem_foldl_insertSet {l : Nat} (ls ts : List Nat) : l ∈ ls.foldl (fun t l => insertSet l t) ts ↔ l ∈ ts ∨ l ∈ ls := by
  induction ls generalizing ts with
  | nil => simp
  | cons k ls ih =>
    rw [List.foldl_cons, ih, mem_insertSet, List.mem_cons]
    tauto

/-- The barges of a chamber that are in flight in its present cycle (R116). -/
def Chamber.flying (x : Chamber) (c : ChamberId) : List Barge := x.barges.filter (fun b => b.inFlightAt c.val x.cycle)

/-- A chamber that has put the next repetition of its lock's entry n in flight, in a tag slot and with an issue order (R79, R114). -/
def Chamber.startBarge (x : Chamber) (c : ChamberId) (n : Nat) (e : BargeEntry) (slot : Fin 8) (order : Nat) : Chamber :=
  { x with
    barges := x.flying c ++ [{ entry := e, rep := Sparse.get x.reps 0 n, issued := x.cycle, order := order, slot := slot, next := 0 }]
    reps := Sparse.set x.reps 0 n (Sparse.get x.reps 0 n + 1)
    tags := (e.lines (Sparse.get x.reps 0 n)).foldl (fun t l => insertSet l t) x.tags
    peak := max x.peak ((x.flying c).length + 1) }

namespace Chamber

variable (x : Chamber) (c : ChamberId) (n : Nat) (e : BargeEntry) (slot : Fin 8) (order : Nat)

theorem get_reps_startBarge_self : Sparse.get (x.startBarge c n e slot order).reps 0 n = Sparse.get x.reps 0 n + 1 :=
  Sparse.get_set_self x.reps 0 n (Sparse.get x.reps 0 n + 1)

theorem get_reps_startBarge_other {m : Nat} (h : m ≠ n) : Sparse.get (x.startBarge c n e slot order).reps 0 m = Sparse.get x.reps 0 m :=
  Sparse.get_set_other x.reps 0 0 (Sparse.get x.reps 0 n + 1) h.symm

theorem mem_tags_startBarge (l : Nat) : l ∈ (x.startBarge c n e slot order).tags ↔ l ∈ x.tags ∨ l ∈ e.lines (Sparse.get x.reps 0 n) :=
  mem_foldl_insertSet ..

end Chamber

/-- An issue in the declared cycle of the entry's next repetition, with a slot free. -/
theorem State.vBargeIssue_starts {s : State} {c : ChamberId} {f : Fields} {e : BargeEntry} {slot : Fin 8} (hd : f.d = 0#5) (ha : f.a = 0#5) (hb : f.b = 0#5)
    (hp : f.pred = 0#3) (he : s.bargeOf (s.chAt c) f.minor.toNat = some e) (hrep : Sparse.get (s.chAt c).reps 0 f.minor.toNat < e.reps)
    (hcycle : (s.chAt c).cycle - (s.chAt c).lockStart = e.issue + Sparse.get (s.chAt c).reps 0 f.minor.toNat * e.repCycles)
    (hslot : freeSlot ((s.chAt c).flying c) = some slot) :
    s.vBargeIssue c f = State.setCh { s with seq := { s.seq with bargeOrder := s.seq.bargeOrder + 1 } } c
      ((s.chAt c).startBarge c f.minor.toNat e slot s.seq.bargeOrder) := by
  unfold Chamber.flying at hslot
  simp only [State.vBargeIssue, if_neg (show ¬ (f.d ≠ 0#5 ∨ f.a ≠ 0#5 ∨ f.b ≠ 0#5 ∨ f.pred ≠ 0#3) by simp [hd, ha, hb, hp]), he, hslot,
    if_pos (And.intro hrep hcycle)]
  rfl

theorem exec_bargeIssue (s : State) (c : ChamberId) (f : Fields) :
    exec (.bargeIssue (.chamber c) f) s = s.command (fun s => s.issueScalar c (fun s => s.vBargeIssue c f)) := rfl

/-- Settles O3, by the chamber that has put the next repetition in flight. -/
theorem bargeIssueStarts : Obligations.BargeIssueStarts := by
  unfold Obligations.BargeIssueStarts
  intro s c f e slot h hi hd ha hb hp he hrep hcycle hslot
  have hopen : (s.setCh c { s.chAt c with scalarUsed := true }).chAt c = { s.chAt c with scalarUsed := true } := State.chAt_setCh ..
  rw [exec_bargeIssue, State.command_ready h, State.issueScalar_issues hi, State.vBargeIssue_starts (e := e) (slot := slot) hd ha hb hp
    (by rw [hopen]; exact he) (by rw [hopen]; exact hrep) (by rw [hopen]; exact hcycle) (by rw [hopen]; exact hslot), hopen]
  refine ⟨_, ({ s.chAt c with scalarUsed := true } : Chamber).startBarge c f.minor.toNat e slot s.seq.bargeOrder, rfl, ?_, rfl, rfl,
    Chamber.get_reps_startBarge_self .., fun n hn => Chamber.get_reps_startBarge_other _ _ _ _ _ _ hn, fun l => Chamber.mem_tags_startBarge ..⟩
  exact State.setCh_setCh { s with seq := { s.seq with bargeOrder := s.seq.bargeOrder + 1 } } c { s.chAt c with scalarUsed := true } _

end Sys2Proof.Machine
end

section

/-! # SAMPLE, COVER, LUT16 and HEALTH (O5) -/

namespace Sys2Proof.Machine

/-! ## Texels, coverage, tables and health (R89-R97) -/

theorem State.vSample_eq (s : State) {c : ChamberId} {f : Fields} (hm : f.minor.toNat / 16 % 4 = 0) {w : Window}
    (hw : w = (s.chAt c).window (f.minor.toNat % 16))
    (hc : (s.chAt c).Clear ((s.chAt c).sampleLines w (f.minor.toNat % 16) (f.minor.toNat / 128 = 1) (f.minor.toNat / 64 % 2)
      ((s.chAt c).vector f.a) ((s.chAt c).vector f.b))) :
    s.vSample c f = s.setCh c ((s.chAt c).vectorLater 12 f.d f.pred (fun i => (s.chAt c).sampleLane w (f.minor.toNat / 128 = 1)
      (f.minor.toNat / 64 % 2) (lane ((s.chAt c).vector f.a) i) (lane ((s.chAt c).vector f.b) i))) := by
  subst hw
  rw [← State.sendVec_eq]
  simp only [State.vSample, if_neg (not_not.2 hm), State.touch_clear hc]

theorem State.vCover_eq (s : State) {c : ChamberId} {f : Fields} (hm : f.minor.toNat < 4) {n : Nat}
    (hn : n = regionLine f.minor.toNat ((s.chAt c).scalar f.a)) (hc : (s.chAt c).Clear (lineRun n 13)) :
    s.vCover c f = s.setCh c ((s.chAt c).vectorLater 8 f.d f.pred (fun i => coverPixel (coverHeader ((s.chAt c).runByte n))
      (coverEdges (coverHeader ((s.chAt c).runByte n)) ((s.chAt c).runByte n)) i ((s.chAt c).scalar f.b % 32))) := by
  subst hn
  rw [← State.sendVec_eq]
  simp only [State.vCover, if_neg (not_not.2 (Nat.div_eq_of_lt hm)), State.touch_clear hc]

theorem State.vLut16_eq (s : State) {c : ChamberId} {f : Fields} (hm : f.minor.toNat < 4) {n : Nat}
    (hn : n = regionLine f.minor.toNat ((s.chAt c).scalar f.b)) (hc : (s.chAt c).Clear (lineRun n 33)) :
    s.vLut16 c f = s.setCh c ((s.chAt c).vectorLater 3 f.d f.pred (fun i => (s.chAt c).lutLane n (lane ((s.chAt c).vector f.a) i))) := by
  subst hn
  rw [← State.sendVec_eq]
  simp only [State.vLut16, if_neg (not_not.2 (Nat.div_eq_of_lt hm)), State.touch_clear hc]

theorem State.vHealth_eq (s : State) {c : ChamberId} {f : Fields} (hd : f.d.toNat < 8) (hm : f.minor.toNat ≤ 2) :
    s.vHealth c f = s.setCh c ((s.chAt c).predLater 3 (f.d.setWidth 3) f.pred (fun i =>
      healthy s.pairMap f.minor.toNat (32 * ((s.chAt c).scalar f.b % 32) + i) ((s.chAt c).scalar f.a % 1024))) := by
  have hlegal : ¬ (7 < f.d.toNat ∨ 2 < f.minor.toNat) := by omega
  rw [← State.sendPred_eq]
  simp only [State.vHealth, if_neg hlegal]
  rfl

/-- States that differ in chamber c alone have the same health map. -/
theorem State.pairMap_of_setCh {s t : State} {c : ChamberId} (h : ∀ y, t.setCh c y = s.setCh c y) : t.pairMap = s.pairMap :=
  show (t.setCh c (s.chAt c)).pairMap = (s.setCh c (s.chAt c)).pairMap from congrArg State.pairMap (h (s.chAt c))

/-- Settles O5: each instruction by the lanes that its meaning sends; a bundle's open slot changes nothing that they are formed from. -/
theorem texelGlyphTableAndHealth : Obligations.TexelGlyphTableAndHealth := by
  unfold Obligations.TexelGlyphTableAndHealth
  refine fun s c f h hi => ⟨fun hm w hw hc => ?_, fun hm n hn hc => ?_, fun hm n hn hc => ?_, fun hd hm => ?_⟩
  · exact exec_vectorSlot h hi (f := fun s => s.vSample c f) rfl
      (fun t ht _ => (t.vSample_eq hm (hw.trans (by rw [ht]; rfl)) (by rw [ht]; exact hc)).trans (by rw [ht]; rfl))
  · exact exec_vectorSlot h hi (f := fun s => s.vCover c f) rfl
      (fun t ht _ => (t.vCover_eq hm (hn.trans (by rw [ht]; rfl)) (by rw [ht]; exact hc)).trans (by rw [ht]; rfl))
  · exact exec_vectorSlot h hi (f := fun s => s.vLut16 c f) rfl
      (fun t ht _ => (t.vLut16_eq hm (hn.trans (by rw [ht]; rfl)) (by rw [ht]; exact hc)).trans (by rw [ht]; rfl))
  · exact exec_vectorSlot h hi (f := fun s => s.vHealth c f) rfl (fun t _ hs => (t.vHealth_eq hd hm).trans (by rw [State.pairMap_of_setCh hs]))

end Sys2Proof.Machine
end

section

/-! # The trim stage and the wear ledger (O16) -/

namespace Sys2Proof.Machine

/-! ## Banks (R176, R177, R185) -/

theorem Bank.get_words_setWord_self (b : Bank) (i w : Nat) : Sparse.get (b.setWord i w).words 0#16 i = BitVec.ofNat 16 w := Sparse.get_set_self ..

theorem Bank.get_words_setWord_other (b : Bank) {i j : Nat} (w : Nat) (h : i ≠ j) :
    Sparse.get (b.setWord i w).words 0#16 j = Sparse.get b.words 0#16 j := Sparse.get_set_other _ _ _ _ h

/-- Consecutive words take their places in a bank. -/
def Bank.setWords (b : Bank) (base : Nat) (w : Nat → Nat) (n : Nat) : Bank := (List.range n).foldl (fun b i => b.setWord (base + i) (w i)) b

theorem Bank.get_words_setWords (b : Bank) (base : Nat) (w : Nat → Nat) {n i : Nat} (h : i < n) :
    Sparse.get (b.setWords base w n).words 0#16 (base + i) = BitVec.ofNat 16 (w i) := by
  induction n with
  | zero => exact absurd h (Nat.not_lt_zero i)
  | succ n ih =>
    rw [Bank.setWords, List.range_succ, List.foldl_append, List.foldl_cons, List.foldl_nil]
    rcases Nat.lt_succ_iff_lt_or_eq.1 h with hlt | rfl
    · rw [Bank.get_words_setWord_other _ _ (by omega)]
      exact ih hlt
    · exact Bank.get_words_setWord_self ..

@[simp] theorem Reach.front_setBack (x : Reach) (b : Bank) : (x.setBack b).front = x.front := by
  unfold Reach.setBack Reach.front
  split <;> simp [*]

@[simp] theorem Reach.back_setBack (x : Reach) (b : Bank) : (x.setBack b).back = b := by
  unfold Reach.setBack Reach.back
  split <;> simp [*]

@[simp] theorem Reach.delivered_setBack (x : Reach) (b : Bank) : (x.setBack b).delivered = x.delivered := by
  unfold Reach.setBack
  split <;> rfl

/-! ## Formatting (R176, R177) -/

/-- Lane i of a segment of a reach's request, as a drive word. -/
def State.laneWord (s : State) (r : ReachId) (key i : Nat) : Nat :=
  (s.formWord r (key / 64) (32 * (key % 64) + i) (s.filledReq r (key / 64) (key % 64) (Sparse.get (s.reachAt r).delivered 0#512 key) i)).word

/-- The back bank that a segment has been formatted into; the first segment of a lock cycle starts a new one. -/
def State.formattedBank (s : State) (r : ReachId) (key : Nat) : Bank :=
  let start := if (s.reachAt r).written.isEmpty then Bank.blank else (s.reachAt r).back
  { start.setWords (key / 64 * 2048 + 32 * (key % 64)) (s.laneWord r key) 32 with plane := some s.ceilActive, ko := !s.trim.relax }

/-- The reach whose segment has been formatted. -/
def State.formattedReach (s : State) (r : ReachId) (key : Nat) : Reach :=
  let x := s.reachAt r
  { x.setBack (s.formattedBank r key) with waiting := x.waiting.filter (· ≠ key), written := insertSet key x.written }

theorem State.formatSegment_eq (s : State) (r : ReachId) (key : Nat) :
    s.formatSegment r key = { s.setReach r (s.formattedReach r key) with trim := (s.formatSegment r key).trim } := by
  have hreach : (s.formatSegment r key).reach = (s.setReach r (s.formattedReach r key)).reach := by
    simp only [State.formatSegment, State.formattedReach, State.formattedBank, Bank.setWords, List.foldl_map, Nat.add_assoc]
    rfl
  calc s.formatSegment r key = { s with reach := (s.formatSegment r key).reach, trim := (s.formatSegment r key).trim } := rfl
    _ = _ := by rw [hreach]; rfl

/-- The words of the segment stand in the back bank. -/
theorem State.back_formattedReach (s : State) (r : ReachId) (key : Nat) {i : Nat} (h : i < 32) :
    Sparse.get (s.formattedReach r key).back.words 0#16 (key / 64 * 2048 + 32 * (key % 64) + i) = BitVec.ofNat 16 (s.laneWord r key i) := by
  have hback : (s.formattedReach r key).back = s.formattedBank r key := Reach.back_setBack ..
  rw [hback]
  exact Bank.get_words_setWords _ _ _ h

theorem State.trimFormat_clean (s : State) (r : ReachId) {key : Nat} {rest : List Nat} (h : (s.reachAt r).waiting = key :: rest) :
    s.trimFormat r [] = s.formatSegment r key := by
  simp only [State.trimFormat, h]
  rfl

theorem State.trimFormat_nil {s : State} {r : ReachId} (h : (s.reachAt r).waiting = []) (errs : List (Nat × Ecc)) : s.trimFormat r errs = s := by
  simp only [State.trimFormat, h]

theorem exec_trimFormat {s : State} (h : s.Ready) (r : ReachId) (errs : List (Nat × Ecc)) :
    exec (.trimFormat r errs) s = .next (s.trimFormat r errs) := State.command_ready h (fun s => s.trimFormat r errs)

theorem filter_ne_of_oldest {key : Nat} {rest : List Nat} (h : key ∉ rest) : (key :: rest).filter (· ≠ key) = rest := by
  rw [List.filter_cons_of_neg (by simp), List.filter_eq_self]
  intro a ha
  exact decide_eq_true (fun e => h (e ▸ ha))

/-! ## The ledger (R178, R179, R181) -/

theorem Memory.readLE_eq_of_bytes {m : Memory} {a n v : Nat} (h : ∀ i < n, m.byte (a + i) = BitVec.ofNat 8 (v / 256 ^ i)) : m.readLE a n = v % 256 ^ n := by
  induction n generalizing a v with
  | zero => simp [Memory.readLE, Nat.mod_one]
  | succ n ih =>
    have hrest : m.readLE (a + 1) n = v / 256 % 256 ^ n := ih (fun i hi => by
      rw [show a + 1 + i = a + (i + 1) by omega, h (i + 1) (by omega), Nat.pow_succ', Nat.div_div_eq_div_mul])
    have hfirst := h 0 (Nat.succ_pos n)
    rw [Nat.add_zero, Nat.pow_zero, Nat.div_one] at hfirst
    rw [Memory.readLE, hfirst, hrest, Nat.pow_succ', Nat.mod_mul, BitVec.toNat_ofNat]

theorem Memory.readLE_writeLE (m : Memory) (a n v : Nat) : (m.writeLE a n v).readLE a n = v % 256 ^ n :=
  Memory.readLE_eq_of_bytes (m.byte_writeBytes_leBytes a v n).1

/-! ## The trim stage over a raise (R249-R255) -/

theorem State.trim_sendMsg (s : State) (code arg : Nat) (payload : List Byte) : (s.sendMsg code arg payload).trim = s.trim := by
  unfold State.sendMsg
  split <;> rfl

theorem State.trim_signalFault (s : State) (n : Nat) : (s.signalFault n).trim = s.trim := by
  simp only [State.signalFault]
  split
  · split
    · exact State.trim_sendMsg ..
    · rfl
  · rfl

theorem State.trim_escalate (s : State) (n : Nat) : (s.escalate n).trim = s.trim := by
  unfold State.escalate
  split <;> rfl

theorem State.trim_fenceChamber (s : State) (k : Nat) : (s.fenceChamber k).trim = s.trim := by
  simp only [State.fenceChamber]
  split <;> rfl

theorem State.trim_lightReaction (s : State) (n : Nat) (locus : Option Nat) : (s.lightReaction n locus).trim = s.trim := by
  unfold State.lightReaction
  extract_lets lasting s1 flt s2
  have h1 : s1.trim = s.trim := by
    unfold s1
    split <;> rfl
  have h2 : s2.trim = s.trim := by
    refine Eq.trans ?_ h1
    unfold s2
    split <;> rfl
  split
  · split
    · exact h2
    · exact h2
    · exact h2
    · split
      · exact (State.trim_fenceChamber ..).trans h2
      · exact h2
  · exact h1

/-- The raise of a light-class source leaves the trim stage alone. -/
theorem State.trim_raise (s : State) {n : Nat} (hl : Src.light n = true) (locus : Option Nat) : (s.raise n locus).trim = s.trim := by
  rw [State.raise_eq_raiseAt, State.raiseAt, if_pos hl, State.trim_lightReaction, State.trim_escalate, State.trim_signalFault]
  rfl

/-! ## One emitter's update (R179, R181) -/

theorem State.trim_noteWear (s : State) : s.noteWear.trim = s.trim := by
  simp only [State.noteWear]
  split
  · exact State.trim_raise _ (by decide) none
  · rfl

theorem State.ts_tsSet_self (s : State) (a v : Nat) : (s.tsSet a v).ts a = v % 256 := by
  rw [State.ts, State.tsSet, Sparse.get_set_self, BitVec.toNat_ofNat]

/-- The dither has stepped, and an emitter has its new ledger value l and the wear gain of it. -/
def State.worn (s : State) (e l : Nat) : State :=
  State.tsSet { s with trim := { s.trim with lfsr := lfsrStep s.trim.lfsr, ledger := s.trim.ledger.writeLE (4 * e) 4 l } } (0x200000 + e)
    (s.wearGain (e % 2) l)

/-- An update all of whose words can be read. -/
theorem State.ledgerAdd_clean {s : State} {e l : Nat}
    (hl : l = min (2 ^ 32 - 1) (s.ledgerAt e + (s.wearOf e (s.sinceVisit (e % 256)) + lfsrStep s.trim.lfsr % 1073741824) / 1073741824))
    (hr : ∀ w ∈ s.wearReads e l, w ∉ s.trim.failed) : s.ledgerAdd e [] = (s.worn e l).noteWear := by
  have hclean : ¬ (s.wearReads e l).any s.trim.failed.contains = true := by simpa using hr
  subst hl
  exact if_neg hclean

/-- The visit of an emitter is noted; the last of its group notes the time. -/
theorem State.ledgerUpdate_clean (s : State) {k : Nat} (hs : s.seq.sluices ≠ 0) (hk : k ∉ s.trim.visited)
    (hf : 4 * (256 * k + s.rd Reg.TRM_LEDGER_GROUP) / 8 ∉ s.trim.ledgerFailed) :
    ∃ visited last, (s.ledgerUpdate k .clean []).trim =
      { (s.ledgerAdd (256 * k + s.rd Reg.TRM_LEDGER_GROUP) []).trim with visited := visited, lastVisit := last } := by
  have hgo : ¬ (s.trim.visited.contains k || decide (s.seq.sluices = 0)) = true := by simp [hs, hk]
  have hread : ¬ s.trim.ledgerFailed.contains (4 * (256 * k + s.rd Reg.TRM_LEDGER_GROUP) / 8) = true := by simpa using hf
  simp only [State.ledgerUpdate, if_neg hgo, if_neg hread, State.trimEcc]
  split
  · exact ⟨_, _, rfl⟩
  · exact ⟨_, _, rfl⟩

theorem State.ledgerUpdate_visited {s : State} {k : Nat} (h : k ∈ s.trim.visited) (ecc : Ecc) (errs : List (Nat × Ecc)) :
    s.ledgerUpdate k ecc errs = s := if_pos (by simp [h])

theorem exec_ledgerUpdate {s : State} (h : s.Ready) (k : Fin 8192) (io : LedgerReads) :
    exec (.ledgerUpdate k io) s = .next (s.ledgerUpdate k io.ecc io.errs) := State.command_ready h (fun s => s.ledgerUpdate k io.ecc io.errs)

/-- What an update leaves in the ledger and in the wear plane. -/
theorem State.ledgerUpdate_worn {s : State} {k e l : Nat} (hs : s.seq.sluices ≠ 0) (hk : k ∉ s.trim.visited)
    (he : e = 256 * k + s.rd Reg.TRM_LEDGER_GROUP) (hf : 4 * e / 8 ∉ s.trim.ledgerFailed)
    (hl : l = min (2 ^ 32 - 1) (s.ledgerAt e + (s.wearOf e (s.sinceVisit (e % 256)) + lfsrStep s.trim.lfsr % 1073741824) / 1073741824))
    (hr : ∀ w ∈ s.wearReads e l, w ∉ s.trim.failed) :
    (s.ledgerUpdate k .clean []).trim.ledger = s.trim.ledger.writeLE (4 * e) 4 l ∧
      (s.ledgerUpdate k .clean []).ts (0x200000 + e) = s.wearGain (e % 2) l % 256 := by
  subst he
  obtain ⟨visited, last, htrim⟩ := s.ledgerUpdate_clean hs hk hf
  rw [State.ledgerAdd_clean hl hr, State.trim_noteWear] at htrim
  refine ⟨congrArg Trim.ledger htrim, ?_⟩
  rw [State.ts, htrim]
  exact State.ts_tsSet_self ..

/-! ## TRIM_FORMAT and LEDGER_UPDATE -/

/-- Settles O16: a formatted segment by the reach that it leaves, an update by what it writes in the ledger and in the wear plane. -/
theorem trimAndLedger : Obligations.TrimAndLedger := by
  unfold Obligations.TrimAndLedger
  refine fun s h => ⟨fun r hw => ?_, fun r key rest hw hkey => ?_, fun k e hs hk he hf l hl hr => ?_, fun k hk => ?_⟩
  · rw [exec_trimFormat h, State.trimFormat_nil hw]
  · refine ⟨_, s.formattedReach r key, exec_trimFormat h r [], ?_, ?_, mem_insertSet.2 (.inl rfl), Reach.front_setBack .., Reach.delivered_setBack ..,
      fun i hi => ?_⟩
    · rw [State.trimFormat_clean s r hw]
      exact s.formatSegment_eq r key
    · rw [← filter_ne_of_oldest hkey, ← hw]
      rfl
    · rw [← Nat.add_assoc]
      exact s.back_formattedReach r key hi
  · obtain ⟨hledger, hgain⟩ := State.ledgerUpdate_worn hs hk he hf hl hr
    refine ⟨_, exec_ledgerUpdate h k _, ?_, hgain, fun a ha => ?_⟩
    · have hfits : l < 256 ^ 4 := by omega
      rw [State.ledgerAt, hledger, Memory.readLE_writeLE, Nat.mod_eq_of_lt hfits]
    · rw [hledger]
      exact (s.trim.ledger.byte_writeBytes_leBytes (4 * e) l 4).2 a ha
  · rw [exec_ledgerUpdate h, State.ledgerUpdate_visited hk]

end Sys2Proof.Machine
end

section

/-! # The state over the raise of a light-class source -/

namespace Sys2Proof.Machine

/-- What the record of a raise, its signalling and the reaction of a light-class source may have changed: register fields, chambers, the cores, the
messages and the fault collector (R249-R257). -/
def State.Reacts (s t : State) : Prop :=
  ∃ (regs : RegFile) (ch : Vector Chamber 16) (mgmt : Mgmt) (rif : Rif) (flt : Faults),
    t = { s with regs := regs, ch := ch, mgmt := mgmt, rif := rif, flt := flt }

namespace State.Reacts

variable {s t u : State}

theorem refl (s : State) : s.Reacts s := ⟨_, _, _, _, _, rfl⟩

theorem trans (h : s.Reacts t) (k : t.Reacts u) : s.Reacts u := by
  obtain ⟨regs, ch, mgmt, rif, flt, rfl⟩ := h
  obtain ⟨regs', ch', mgmt', rif', flt', rfl⟩ := k
  exact ⟨_, _, _, _, _, rfl⟩

theorem ite {c : Prop} [Decidable c] (ht : s.Reacts t) (hu : s.Reacts u) : s.Reacts (if c then t else u) := by
  split
  · exact ht
  · exact hu

theorem put (h : s.Reacts t) (f : Fld) (v : Nat) : s.Reacts (t.put f v) := h.trans ⟨_, _, _, _, _, rfl⟩

theorem bas (h : s.Reacts t) : t.bas = s.bas := by
  obtain ⟨regs, ch, mgmt, rif, flt, rfl⟩ := h
  rfl

end State.Reacts

namespace State

theorem reacts_sendMsg (s : State) (code arg : Nat) (payload : List Byte) : s.Reacts (s.sendMsg code arg payload) :=
  .ite ⟨_, _, _, _, _, rfl⟩ (.refl s)

theorem reacts_signalFault (s : State) (n : Nat) : s.Reacts (s.signalFault n) := by
  have hflag : s.Reacts (s.flag Reg.RIF_INT_STATUS_FAULT) := .put (.refl s) ..
  exact .ite (.ite (hflag.trans (reacts_sendMsg ..)) hflag) (.refl s)

theorem reacts_escalate (s : State) (n : Nat) : s.Reacts (s.escalate n) := .ite ⟨_, _, _, _, _, rfl⟩ (.refl s)

theorem reacts_fenceChamber (s : State) (k : Nat) : s.Reacts (s.fenceChamber k) := by
  simp only [State.fenceChamber]
  split
  · exact ⟨_, _, _, _, _, rfl⟩
  · exact ⟨_, _, _, _, _, rfl⟩

theorem reacts_lightReaction (s : State) (n : Nat) (locus : Option Nat) : s.Reacts (s.lightReaction n locus) := by
  have hfence (t : State) (k : Nat) : t.Reacts (t.putBit Reg.FLT_FENCE_REACH k true) := .put (.refl t) ..
  unfold State.lightReaction
  extract_lets lasting s1 flt s2
  have h1 : s.Reacts s1 := .ite ⟨_, _, _, _, _, rfl⟩ (.refl s)
  have h2 : s.Reacts s2 := h1.trans (.ite ⟨_, _, _, _, _, rfl⟩ (.refl s1))
  refine .ite ?_ h1
  split
  · exact h2
  · exact h2
  · exact h2.trans (hfence ..)
  · exact h2.trans (.ite (reacts_fenceChamber ..) (hfence ..))

theorem reacts_raise (s : State) {n : Nat} (hl : Src.light n = true) (locus : Option Nat) : s.Reacts (s.raise n locus) := by
  have hrecord : s.Reacts ((s.noteRaise n).recordRaise n locus) := ⟨_, _, _, _, _, rfl⟩
  rw [raise_eq_raiseAt, State.raiseAt, if_pos hl]
  exact ((hrecord.trans (reacts_signalFault ..)).trans (reacts_escalate ..)).trans (reacts_lightReaction ..)

end State
end Sys2Proof.Machine
end

section

/-! # Barge beats, service slots and the scrub (O14) -/

namespace Sys2Proof.Machine

/-! ## Beats (R114, R117, R148) -/

/-- Byte i of what a clean beat of row r and beat j brings: that of its basin unit; zero where its space has no base, or the line is fenced. -/
def State.beatByte (s : State) (c : ChamberId) (b : Barge) (r j i : Nat) : Byte :=
  match s.spaceBase b.entry with
  | none => 0#8
  | some base =>
    let a := base + b.entry.beatSrc c.val b.rep r j
    if s.bas.fenced.contains (a / 512) then 0#8 else s.bas.byte (a + i)

/-- The 16 bytes of a clean beat. -/
def State.beatData (s : State) (c : ChamberId) (b : Barge) (r j : Nat) : List Byte := (List.range 16).map (s.beatByte c b r j)

theorem State.length_beatData (s : State) (c : ChamberId) (b : Barge) (r j : Nat) : (s.beatData c b r j).length = 16 := by
  simp [State.beatData]

theorem State.getElem_beatData (s : State) (c : ChamberId) (b : Barge) (r j : Nat) {i : Nat} (hi : i < (s.beatData c b r j).length) :
    (s.beatData c b r j)[i] = s.beatByte c b r j i := by
  simp [State.beatData]

/-- Outside a retry stall a fenced line is fenced for every beat. -/
theorem State.fencedFor_flows {s : State} (h : s.seq.stallCycle = none) (n line : Nat) : s.fencedFor n line = s.bas.fenced.contains line := by
  simp [State.fencedFor, h]

theorem State.beatRead_clean {s : State} (h : s.seq.stallCycle = none) (c : ChamberId) (b : Barge) (n r j : Nat) :
    s.beatRead c b n r j .clean = (s, s.beatData c b r j) := by
  cases hbase : s.spaceBase b.entry with
  | none =>
    have hbyte : s.beatByte c b r j = fun _ => 0#8 := by
      funext i
      simp only [State.beatByte, hbase]
    simp only [State.beatRead, State.beatData, hbase, hbyte]
    rfl
  | some base =>
    by_cases hf : s.bas.fenced.contains ((base + b.entry.beatSrc c.val b.rep r j) / 512) = true
    · have hbyte : s.beatByte c b r j = fun _ => 0#8 := by
        funext i
        simp only [State.beatByte, hbase, if_pos hf]
      simp only [State.beatRead, State.beatData, hbase, State.fencedFor_flows h, if_pos hf, hbyte]
      rfl
    · have hbyte : s.beatByte c b r j = fun i => s.bas.byte (base + b.entry.beatSrc c.val b.rep r j + i) := by
        funext i
        simp only [State.beatByte, hbase, if_neg hf]
      simp only [State.beatRead, State.beatData, hbase, State.fencedFor_flows h, if_neg hf, hbyte]
      rfl

/-- A beat outside a retry stall, of the basin, whose bank no other beat has. -/
theorem State.bargeBeat_lands {s : State} {c : ChamberId} {slot : Fin 8} {b : Barge} {r j : Nat} (h : s.seq.stallCycle = none)
    (hfind : (s.chAt c).barges.find? (fun q => q.slot = slot && q.next < q.entry.rows * q.entry.rowBeats) = some b)
    (hr : r = b.next / b.entry.rowBeats) (hj : j = b.next % b.entry.rowBeats) (hread : b.entry.unread c.val b.rep r j = false)
    (hbank : s.bankTaken c b (b.entry.rowFirst b.issued c.val r + j) (s.beatBank b c.val r j) = false) :
    s.bargeBeat c slot .clean = s.setCh c ((s.chAt c).landBeat b (b.entry.beatDst b.rep r j) (s.beatData c b r j)) := by
  subst hr hj
  simp only [State.bargeBeat, hfind, h, hread, hbank, State.beatRead_clean h]
  rfl

theorem BargeEntry.beatDst_eq {e : BargeEntry} {k r j dst : Nat}
    (h : dst = ((e.dst + k * e.repDstStep) % 262144).toNat + r * e.dstPitch + 16 * j) (hfits : dst + 16 ≤ 262144) : e.beatDst k r j = dst := by
  have hbase : e.dstBase k = ((e.dst + k * e.repDstStep) % 262144).toNat := rfl
  rw [BargeEntry.beatDst, hbase, ← h]
  exact Nat.mod_eq_of_lt (by omega)

/-- Only the tag of the line that a beat writes may clear. -/
theorem Chamber.mem_tags_landBeat (x : Chamber) (b : Barge) (bytes : List Byte) {dst l : Nat} (h : l ≠ dst / 64) :
    l ∈ (x.landBeat b dst bytes).tags ↔ l ∈ x.tags := by
  simp only [Chamber.landBeat]
  split
  · exact Iff.rfl
  · simp [h]

theorem exec_bargeBeat {s : State} (h : s.Ready) (c : ChamberId) (slot : Fin 8) (ecc : Ecc) :
    exec (.bargeBeat c slot ecc) s = .next (s.bargeBeat c slot ecc) := State.command_ready h (fun s => s.bargeBeat c slot ecc)

/-! ## Service slots (R131, R133, R137) -/

/-- How many requesters the rotation asks before r, after the one granted last. -/
def turnsBefore (last r : SvcReq) : Nat := (svcRotation.findIdx (· = r) + 4 - svcRotation.findIdx (· = last)) % 5

theorem mem_rotationAfter (last r : SvcReq) : r ∈ rotationAfter last := by
  cases last <;> cases r <;> decide

theorem rotationAfter_rises (last : SvcReq) : (rotationAfter last).Pairwise (fun r q => turnsBefore last r ≤ turnsBefore last q) := by
  cases last <;> decide

/-- The access that a slot goes to: of the waiting ones, one whose requester comes first in the rotation. -/
theorem nextAccess_first (last : SvcReq) {waiting : List SvcAccess} (h : waiting ≠ []) :
    ∃ w ∈ waiting, nextAccess last waiting = some w ∧ ∀ w' ∈ waiting, turnsBefore last w.req ≤ turnsBefore last w'.req := by
  have hfound (r : SvcReq) {w : SvcAccess} (hw : w ∈ waiting) (hr : w.req = r) : waiting.find? (fun w => w.req = r) ≠ none := by
    simpa using ⟨w, hw, hr⟩
  have hsome : nextAccess last waiting ≠ none := by
    obtain ⟨w, hw⟩ := List.exists_mem_of_ne_nil waiting h
    rw [nextAccess, Ne, List.findSome?_eq_none_iff]
    exact fun hall => hfound _ hw rfl (hall _ (mem_rotationAfter last w.req))
  obtain ⟨w, hw⟩ := Option.ne_none_iff_exists'.1 hsome
  obtain ⟨before, r, after, hrotation, hfind, hbefore⟩ := List.findSome?_eq_some_iff.1 hw
  have hreq : w.req = r := by simpa using List.find?_some hfind
  refine ⟨w, List.mem_of_find?_eq_some hfind, hw, fun w' hw' => ?_⟩
  have hrises := rotationAfter_rises last
  rw [hrotation, List.pairwise_append, List.pairwise_cons] at hrises
  obtain ⟨-, ⟨hafter, -⟩, -⟩ := hrises
  have hmem := mem_rotationAfter last w'.req
  rw [hrotation, List.mem_append, List.mem_cons] at hmem
  rw [hreq]
  rcases hmem with hb | he | ha
  · exact absurd (hbefore _ hb) (hfound _ hw' rfl)
  · exact (congrArg (turnsBefore last) he).ge
  · exact hafter _ ha

/-- A slot of a bank is given to a requester. -/
def State.grant (s : State) (bank : Fin 32) (r : SvcReq) : State := { s with bas := { s.bas with granted := s.bas.granted.set bank r } }

theorem State.granted_grant (s : State) (bank : Fin 32) (r : SvcReq) : (s.grant bank r).bas.granted[bank] = r := by
  simp [State.grant]

theorem State.serviceAccess_write {s : State} {bank : Fin 32} {waiting : List SvcAccess} {w : SvcAccess} {v : BitVec 128}
    (h : nextAccess (s.bas.granted[bank]) waiting = some w) (hw : w.write = some v) :
    s.serviceAccess bank waiting = (s.grant bank w.req).serviceWrite w.req (w.line.toNat * 512 + bank.val * 16) v := by
  simp only [State.serviceAccess, h, hw]
  rfl

theorem State.serviceAccess_read {s : State} {bank : Fin 32} {waiting : List SvcAccess} {w : SvcAccess}
    (h : nextAccess (s.bas.granted[bank]) waiting = some w) (hw : w.write = none) :
    s.serviceAccess bank waiting = if s.bas.fenced.contains w.line.toNat then s.grant bank w.req
      else ((s.grant bank w.req).eccOutcome w.ecc none bank.val w.line.toNat).transferFails w.req w.ecc := by
  simp only [State.serviceAccess, h, hw]
  rfl

theorem Basin.granted_write (b : Basin) (a : Nat) (vs : List Byte) : (b.write a vs).granted = b.granted := by
  induction vs generalizing b a with
  | nil => rfl
  | cons v vs ih =>
    rw [Basin.write, ih, Basin.setByte]
    split <;> rfl

/-- The raise of a light-class source leaves the basin alone. -/
theorem State.bas_raise (s : State) {n : Nat} (hl : Src.light n = true) (locus : Option Nat) : (s.raise n locus).bas = s.bas :=
  (s.reacts_raise hl locus).bas

theorem State.bas_poolRefuse (s : State) (touched : List (Fin 64)) (cause : Nat) : (s.poolRefuse touched cause).bas = s.bas := by
  unfold State.poolRefuse
  extract_lets s1 s2
  refine (State.bas_raise _ (n := 115) (by decide) none).trans ?_
  cases touched <;> rfl

theorem State.granted_poolWrite (s : State) (a : Nat) (data : List Byte) : (s.poolWrite a data).1.bas.granted = s.bas.granted := by
  simp only [State.poolWrite]
  split
  · rw [State.bas_poolRefuse]
  · split
    · rw [State.bas_poolRefuse]
    · split
      · rw [State.bas_poolRefuse]
      · split
        · exact Basin.granted_write ..
        · rw [State.bas_poolRefuse]

theorem State.granted_serviceWrite (s : State) (r : SvcReq) (a : Nat) (v : BitVec 128) : (s.serviceWrite r a v).bas.granted = s.bas.granted := by
  unfold State.serviceWrite
  split
  · rfl
  · split
    · rfl
    · split
      · exact State.granted_poolWrite ..
      · exact Basin.granted_write ..

theorem State.bas_fenceLine (s : State) (line : Nat) : (s.fenceLine line).bas = { s.bas with fenced := insertSet line s.bas.fenced } := by
  simp only [State.fenceLine]
  split <;> rfl

/-- The reading of a unit, told by a raise of its own, changes no grant. -/
theorem State.granted_eccOutcome (s : State) (e : Ecc) (tag : Option Nat) (bank line : Nat) :
    (s.eccOutcome e tag bank line).bas.granted = s.bas.granted := by
  cases e with
  | clean => rfl
  | corrected =>
    simp only [State.eccOutcome, State.eccCorrected]
    split
    · rw [State.bas_raise _ (by decide)]
      rfl
    · rfl
  | transient =>
    simp only [State.eccOutcome]
    rw [State.bas_raise _ (by decide)]
    rfl
  | lasting =>
    simp only [State.eccOutcome]
    rw [State.bas_raise _ (by decide), State.bas_fenceLine]
    rfl

theorem State.granted_transferFails (s : State) (r : SvcReq) (e : Ecc) : (s.transferFails r e).bas.granted = s.bas.granted := by
  unfold State.transferFails
  split <;> rfl

/-- The slot is granted to the requester of the access that it goes to. -/
theorem State.granted_serviceAccess {s : State} {bank : Fin 32} {waiting : List SvcAccess} {w : SvcAccess}
    (h : nextAccess (s.bas.granted[bank]) waiting = some w) : (s.serviceAccess bank waiting).bas.granted[bank] = w.req := by
  have hgrant : (s.serviceAccess bank waiting).bas.granted = (s.grant bank w.req).bas.granted := by
    cases hw : w.write with
    | some v => rw [State.serviceAccess_write h hw, State.granted_serviceWrite]
    | none =>
      rw [State.serviceAccess_read h hw]
      split
      · rfl
      · rw [State.granted_transferFails, State.granted_eccOutcome]
  rw [hgrant]
  exact s.granted_grant bank w.req

/-- A unit write above the pool by its writer (R131-R133, R333). -/
theorem State.serviceWrite_stores {s : State} {r : SvcReq} {a : Nat} (v : BitVec 128) (ha : 0x1000000 ≤ a)
    (h : r = .mgmt ∨ r = .host ∧ 0x1E00000 ≤ a ∧ a < 0x1E40000 ∨ r = .peer ∧ a < 0x1E00000) :
    s.serviceWrite r a v = s.basWrite a (leBytes v.toNat 16) := by
  have hpool : ¬ a < 0x1000000 := by omega
  have hscrub : r ≠ .scrub := by rintro rfl; simp at h
  have hwrites : svcWrites r a = true := by
    rcases h with rfl | ⟨rfl, hlo, hhi⟩ | ⟨rfl, hhi⟩
    · rfl
    · simp [svcWrites, hlo, hhi]
    · simp [svcWrites, hhi]
  rw [State.serviceWrite, if_neg hscrub, if_neg (by simp [hwrites]), if_neg hpool]

/-- A unit write above the pool by another requester. -/
theorem State.serviceWrite_discards {s : State} {r : SvcReq} {a : Nat} (v : BitVec 128) (ha : 0x1000000 ≤ a)
    (h : r = .nand ∨ r = .host ∧ ¬ (0x1E00000 ≤ a ∧ a < 0x1E40000) ∨ r = .peer ∧ 0x1E00000 ≤ a) : s.serviceWrite r a v = s := by
  have hscrub : r ≠ .scrub := by rintro rfl; simp at h
  have hwrites : svcWrites r a = false := by
    rcases h with rfl | ⟨rfl, hout⟩ | ⟨rfl, hlo⟩
    · simpa [svcWrites] using ha
    · simp only [svcWrites, Bool.or_eq_false_iff, Bool.and_eq_false_iff, decide_eq_false_iff_not]
      omega
    · simpa [svcWrites] using hlo
  rw [State.serviceWrite, if_neg hscrub, if_pos (by simp [hwrites])]

theorem exec_basinServiceAccess {s : State} (h : s.Ready) (bank : Fin 32) (waiting : List SvcAccess) :
    exec (.basinServiceAccess bank waiting) s = .next (s.serviceAccess bank waiting) := State.command_ready h (fun s => s.serviceAccess bank waiting)

/-! ## The scrub (R134, R136, R138) -/

/-- A slot that becomes invalid changes no register field below the mesh reports. -/
theorem State.rd_invalidateSlot_low (s : State) (i : Fin 3) {g : Fld} (h : g.key < 0x4100 * 32) : (s.invalidateSlot i).rd g = s.rd g := by
  have hkey {f : Fld} (hf : 0x4100 ≤ f.off) : f.key ≠ g.key := by
    simp only [Fld.key] at *
    omega
  simp only [State.invalidateSlot, List.foldl_cons, List.foldl_nil]
  iterate 7 rw [State.rd_put_other _ _ (hkey (by dsimp only; omega))]
  rfl

theorem State.rd_fenceLine_low (s : State) (line : Nat) {g : Fld} (h : g.key < 0x4100 * 32) (hevent : Reg.BAS_EVENT_LASTING.key ≠ g.key) :
    (s.fenceLine line).rd g = s.rd g := by
  simp only [State.fenceLine]
  split
  · rw [State.rd_invalidateSlot_low _ _ h, State.rd_flag_other _ hevent]
    rfl
  · exact State.rd_flag_other _ hevent

theorem State.rd_eccRecord (s : State) (kind : Nat) (tag : Option Nat) (bank line : Nat) :
    (s.eccRecord kind tag bank line).rd Reg.BAS_ECC_LAST_KIND = kind % 4 ∧ (s.eccRecord kind tag bank line).rd Reg.BAS_ECC_LAST_BANK = bank % 32 ∧
      (s.eccRecord kind tag bank line).rd Reg.BAS_ECC_LAST_LINE = line % 65536 := by
  refine ⟨?_, ?_, State.rd_put_self ..⟩
  · simp only [State.eccRecord]
    iterate 4 rw [State.rd_put_other _ _ (by decide)]
    exact State.rd_put_self ..
  · simp only [State.eccRecord]
    rw [State.rd_put_other _ _ (by decide)]
    exact State.rd_put_self ..

/-- What a lasting error of a unit leaves: its line fenced, FS113, and the last error record (R134, R136). -/
structure State.FoundLasting (t : State) (bank line : Nat) : Prop where
  fenced : line ∈ t.bas.fenced
  raised : t.sticky 113 = true
  kind : t.rd Reg.BAS_ECC_LAST_KIND = 2
  bank : t.rd Reg.BAS_ECC_LAST_BANK = bank % 32
  line : t.rd Reg.BAS_ECC_LAST_LINE = line % 65536

theorem State.foundLasting_eccOutcome (s : State) (tag : Option Nat) (bank line : Nat) :
    (s.eccOutcome .lasting tag bank line).FoundLasting bank line := by
  have hrd {g : Fld} (hg : g.key < 0x4100 * 32) (hevent : Reg.BAS_EVENT_LASTING.key ≠ g.key) :
      (s.eccOutcome .lasting tag bank line).rd g = ((s.inc Reg.BAS_ECC_UNCORR_COUNT).eccRecord 2 tag bank line).rd g :=
    ((State.leaves_raise _ (n := 113) (by decide) none).rd g (decide_eq_true (by omega))).trans (State.rd_fenceLine_low _ _ hg hevent)
  obtain ⟨hkind, hbank, hline⟩ := (s.inc Reg.BAS_ECC_UNCORR_COUNT).rd_eccRecord 2 tag bank line
  refine ⟨?_, State.sticky_raise _ (by decide) (.inl (by decide)) _, (hrd (by decide) (by decide)).trans hkind,
    (hrd (by decide) (by decide)).trans hbank, (hrd (by decide) (by decide)).trans hline⟩
  simp only [State.eccOutcome]
  rw [State.bas_raise _ (by decide), State.bas_fenceLine]
  exact mem_insertSet.2 (.inl rfl)

/-- A line that is not the last, and not fenced, with a lasting error in one unit. -/
theorem State.scrubStep_lasting {s : State} {line : Nat} (hp : line = s.rd Reg.BAS_SCRUB_STATUS_POSITION) (hl : line < 65535)
    (hf : line ∉ s.bas.fenced) (bank : Fin 32) :
    s.scrubStep [(bank, .lasting)] = (s.eccOutcome .lasting none bank.val line).put Reg.BAS_SCRUB_STATUS_POSITION (line + 1) := by
  have hfenced : ¬ s.bas.fenced.contains line = true := by simpa using hf
  simp only [State.scrubStep, List.foldl_cons, List.foldl_nil, ← hp]
  rw [if_neg (by omega), if_neg hfenced]

theorem exec_scrubStep {s : State} (h : s.Ready) (errs : List (Fin 32 × Ecc)) : exec (.scrubStep errs) s = .next (s.scrubStep errs) :=
  State.command_ready h (fun s => s.scrubStep errs)

/-- Settles O14: a beat by the chamber in which its bytes have landed, a service slot by the rotation and the writers of the basin, a scrub step by
what a lasting error leaves. -/
theorem bargeBeatsAndService : Obligations.BargeBeatsAndService := by
  unfold Obligations.BargeBeatsAndService
  refine ⟨fun s c b dst h hstall hfind r j hr hj hread hbank hdst hfits => ?_, fun s h => ⟨fun bank waiting hw => ?_, fun line hp =>
    ⟨fun hl => ?_, fun hl => ?_, fun hl hf bank => ?_⟩⟩⟩
  · refine ⟨(s.chAt c).landBeat b dst (s.beatData c b r j), ?_, rfl, fun i hi => ?_, fun a ha => ?_, fun l hl => Chamber.mem_tags_landBeat _ _ _ hl⟩
    · rw [exec_bargeBeat h, State.bargeBeat_lands hstall hfind hr hj hread hbank, BargeEntry.beatDst_eq hdst hfits]
    · have hlt : i < (s.beatData c b r j).length := by rwa [s.length_beatData]
      refine ((s.chAt c).store.byte_writeBytes_in dst _ i hlt).trans ((s.getElem_beatData c b r j hlt).trans ?_)
      unfold State.beatByte
      cases s.spaceBase b.entry with
      | none => rfl
      | some base => simp only [BargeEntry.beatSrc, Nat.add_assoc]
    · exact (s.chAt c).store.byte_writeBytes_other _ (by rwa [s.length_beatData])
  · obtain ⟨w, hmem, hnext, hfirst⟩ := nextAccess_first (s.bas.granted[bank]) hw
    refine ⟨w, hmem, ⟨_, exec_basinServiceAccess h bank waiting, State.granted_serviceAccess hnext, fun v a hv ha hpool => ⟨fun hwriter => ?_,
      fun hother => ?_⟩⟩, hfirst⟩
    · rw [State.serviceAccess_write hnext hv, ← ha, State.serviceWrite_stores v hpool hwriter]
      rfl
    · rw [State.serviceAccess_write hnext hv, ← ha, State.serviceWrite_discards v hpool hother]
      rfl
  · rw [exec_scrubStep h, State.scrubStep, ← hp]
    exact congrArg _ (if_neg (Nat.ne_of_lt hl))
  · rw [exec_scrubStep h, State.scrubStep, ← hp]
    exact congrArg _ (if_pos hl)
  · obtain ⟨hfenced, hraised, hkind, hbank, hline⟩ := s.foundLasting_eccOutcome none bank.val line
    refine ⟨_, (exec_scrubStep h _).trans (congrArg _ (State.scrubStep_lasting hp hl hf bank)), hfenced, ?_, ?_, ?_, ?_, ?_⟩
    · exact (State.bitOf_congr (State.rd_put_other _ _ (by decide)) _).trans hraised
    · exact (State.rd_put_other _ _ (by decide)).trans hkind
    · exact (State.rd_put_other _ _ (by decide)).trans (hbank.trans (Nat.mod_eq_of_lt bank.isLt))
    · exact (State.rd_put_other _ _ (by decide)).trans (hline.trans (Nat.mod_eq_of_lt (by omega)))
    · exact State.rd_put_fits _ (show line + 1 < 2 ^ 16 by omega)

end Sys2Proof.Machine
end

section

/-! # Register commands of the berths (O36) -/

namespace Sys2Proof.Machine

/-! ## Word writes of the berth registers (R139, R144, R409) -/

/-- A field that refuses no value, locks nothing and is not shadowed: as those of the berth registers. -/
def Fld.plain (f : Fld) : Bool := !f.sh && !f.q && (f.ty == .rw || f.ty == .w1p)

theorem State.refusal_plain (s : State) {f : Fld} (h : f.plain = true) (v : Nat) : s.refusal f v = none := by
  simp only [Fld.plain, Bool.and_eq_true, Bool.not_eq_true', Bool.or_eq_true, beq_iff_eq] at h
  obtain ⟨⟨-, hq⟩, ht | ht⟩ := h
  · simp [State.refusal, ht, hq]
  · simp [State.refusal, ht]

/-- A fold whose steps change nothing. -/
theorem foldl_stays {α β : Type} {f : α → β → α} {a : α} (l : List β) (h : ∀ b ∈ l, f a b = a) : l.foldl f a = a := by
  induction l with
  | nil => rfl
  | cons b l ih => rw [List.foldl_cons, h b List.mem_cons_self, ih (fun c hc => h c (List.mem_cons_of_mem b hc))]

/-- A word write of a register of the berths that follows a rule of its own does what its block says, and nothing else. -/
theorem State.writeWord_berths (s : State) (who : Sys2Proof.Requester) (addr w mask : Nat) {off : Nat} {fs : List Fld} (hf : Reg.fieldsAt off = some fs)
    (hplain : ∀ f ∈ fs, f.plain = true) (hown : ownWrite off = true) (h3 : off / 0x1000 = 3) :
    s.writeWord who addr off w mask = State.blockWrite s s off w mask := by
  have hhits : ∀ f ∈ fs.filter (fun f => f.hit mask), f.plain = true := fun f hf => hplain f (List.mem_filter.1 hf).1
  have hshadow : (fs.filter (fun f => f.hit mask)).any (fun f => f.sh && f.ty = .rw) = false := by
    refine List.any_eq_false.2 (fun f hf => ?_)
    have hsh : f.sh = false := by simpa using (Bool.and_eq_true_iff.1 (Bool.and_eq_true_iff.1 (hhits f hf)).1).1
    simp [hsh]
  have hwl : fs.any (fun f => f.ty = .wl) = false := by
    refine List.any_eq_false.2 (fun f hf => ?_)
    rcases Bool.or_eq_true_iff.1 (Bool.and_eq_true_iff.1 (hplain f hf)).2 with h | h <;> simp [beq_iff_eq.1 h]
  have hsys : s.sysWrite off w mask = s :=
    State.sysWrite.eq_7 _ _ _ _ (by omega) (by omega) (by omega) (by omega) (by omega) (by omega)
  have hrif (t : State) : t.rifWrite off w mask = t := by
    delta State.rifWrite
    rw [h3]
    rfl
  have hlock (t : State) : t.lockWl off fs = t := by simp [State.lockWl, hwl]
  have hforce : (0xD140 ≤ off && off < 0xD158 && !s.forceOpen) = false := by
    have : ¬ 0xD140 ≤ off := by omega
    simp [this]
  simp only [State.writeWord, hf, hforce, hshadow, hown, hsys, hrif, hlock, if_true, Bool.false_eq_true, if_false]
  rw [foldl_stays _ (fun f hf => by simp only [s.refusal_plain (hhits f hf)])]
  rfl

theorem fieldsAt_berthCmd : Reg.fieldsAt 0x3000 = some [Reg.BAS_BERTH_CMD_RETIRE, Reg.BAS_BERTH_CMD_RELEASE, Reg.BAS_BERTH_CMD_CANCEL,
    Reg.BAS_BERTH_CMD_READY, Reg.BAS_BERTH_CMD_TARGET, Reg.BAS_BERTH_CMD_BERTH] := by decide

theorem fieldsAt_berthPlace (b : Fin 64) : Reg.fieldsAt (0x3100 + 16 * b.val) = some [Reg.BAS_BERTH_PLACE_SIZE b, Reg.BAS_BERTH_PLACE_BASE b] := by
  revert b; decide

theorem fieldsAt_berthFmt (b : Fin 64) : Reg.fieldsAt (0x3104 + 16 * b.val) = some [Reg.BAS_BERTH_FMT_FORMAT b, Reg.BAS_BERTH_FMT_RES b] := by
  revert b; decide

/-- A word write of a berth register at an offset, by a requester that may write it. -/
theorem State.writeReg_berths {s : State} {who : Sys2Proof.Requester} {off v : Nat} {fs : List Fld} (h : s.Ready) (hw : s.MayWrite who off)
    (hf : Reg.fieldsAt off = some fs) (hplain : ∀ f ∈ fs, f.plain = true) (hown : ownWrite off = true) (h3 : off / 0x1000 = 3) (ho : off % 4 = 0)
    (hv : v < 2 ^ 32) : s.writeReg who off v = State.blockWrite s s off v 0xFFFFFFFF := by
  rw [State.writeReg_eq_writeWord h.2 hw ho (by omega) (by simp [hf]) hv, s.writeWord_berths who _ v _ hf hplain hown h3]

theorem State.writeReg_berthCmd {s : State} {who : Sys2Proof.Requester} (h : s.Ready) (hw : s.MayWrite who 0x3000) {w : Nat} (hv : w < 2 ^ 32) :
    s.writeReg who 0x3000 w = s.berthCmd w :=
  State.writeReg_berths h hw fieldsAt_berthCmd (by decide) rfl rfl rfl hv

theorem State.writeReg_berthPlace {s : State} {who : Sys2Proof.Requester} {b : Fin 64} (h : s.Ready) (hw : s.MayWrite who (0x3100 + 16 * b.val))
    (base : BitVec 15) (size : BitVec 16) :
    s.writeReg who (0x3100 + 16 * b.val) (size.toNat * 65536 + base.toNat) = s.berthPlace b base.toNat size.toNat := by
  have hblock : (0x3100 + 16 * b.val) / 0x1000 = 3 := by omega
  have hown : ownWrite (0x3100 + 16 * b.val) = true := by simp [ownWrite]; omega
  have hb : Fin.ofNat 64 ((0x3100 + 16 * b.val - 0x3100) / 16) = b := Fin.ext (by simp only [Fin.ofNat]; omega)
  have hbase : (size.toNat * 65536 + base.toNat) % 32768 = base.toNat := by omega
  have hsize : (size.toNat * 65536 + base.toNat) / 65536 = size.toNat := by omega
  rw [State.writeReg_berths h hw (fieldsAt_berthPlace b) (by simp [Fld.plain]) hown hblock (by omega) (by omega)]
  simp only [State.blockWrite, hblock]
  rw [if_neg (by omega), if_neg (by omega), if_pos (by omega), hb, hbase, hsize]

theorem State.writeReg_berthFmt {s : State} {who : Sys2Proof.Requester} {b : Fin 64} (h : s.Ready) (hw : s.MayWrite who (0x3104 + 16 * b.val))
    (format : BitVec 3) (res : BitVec 2) :
    s.writeReg who (0x3104 + 16 * b.val) (format.toNat * 4 + res.toNat) = s.berthFmt b format.toNat res.toNat := by
  have hblock : (0x3104 + 16 * b.val) / 0x1000 = 3 := by omega
  have hown : ownWrite (0x3104 + 16 * b.val) = true := by simp [ownWrite]; omega
  have hb : Fin.ofNat 64 ((0x3104 + 16 * b.val - 0x3100) / 16) = b := Fin.ext (by simp only [Fin.ofNat]; omega)
  have hfmt : (format.toNat * 4 + res.toNat) / 4 % 8 = format.toNat := by omega
  have hres : (format.toNat * 4 + res.toNat) % 4 = res.toNat := by omega
  rw [State.writeReg_berths h hw (fieldsAt_berthFmt b) (by simp [Fld.plain]) hown hblock (by omega) (by omega)]
  simp only [State.blockWrite, hblock]
  rw [if_neg (by omega), if_neg (by omega), if_neg (by omega), if_pos (by omega), hb, hfmt, hres]

/-! ## Results (R139, R144) -/

/-- What a berth command or a placement leaves with its result: BAS_BERTH_RESULT, FS116 with every result but DONE, and no change of the basin or
of a berth's placement and format. -/
structure State.BerthResult (s t : State) (b : Fin 64) (r : Nat) : Prop where
  bas : t.bas = s.bas
  result : t.rd Reg.BAS_BERTH_RESULT_RESULT = r
  berth : t.rd Reg.BAS_BERTH_RESULT_BERTH = b.val
  raises : r ≠ 0 → t.sticky 116 = true
  quiet : r = 0 → t.flt = s.flt
  rd : ∀ g : Fld, 0x3100 ≤ g.off → g.off < 0x3500 → g.lo < 32 → t.rd g = s.rd g

/-- BAS_BERTH_RESULT takes a berth and a result. -/
def State.noteBerth (s : State) (b : Fin 64) (r : Nat) : State := (s.put Reg.BAS_BERTH_RESULT_BERTH b).put Reg.BAS_BERTH_RESULT_RESULT r

theorem State.berthResult_eq (s : State) (b : Fin 64) (r : Nat) :
    s.berthResult b r = if r = 0 then s.noteBerth b r else (s.noteBerth b r).raise 116 := rfl

theorem State.rd_noteBerth (s : State) (b : Fin 64) {r : Nat} (hr : r < 8) :
    (s.noteBerth b r).rd Reg.BAS_BERTH_RESULT_RESULT = r ∧ (s.noteBerth b r).rd Reg.BAS_BERTH_RESULT_BERTH = b.val := by
  refine ⟨State.rd_put_fits _ hr, ?_⟩
  exact (State.rd_put_other _ _ (by decide)).trans (State.rd_put_fits _ (show b.val < 2 ^ 6 from b.isLt))

theorem State.rd_noteBerth_other (s : State) (b : Fin 64) (r : Nat) {g : Fld} (h : 0x3100 ≤ g.off) : (s.noteBerth b r).rd g = s.rd g := by
  have hkey {f : Fld} (hf : f.off = 0x3004) (hlo : f.lo < 32) : f.key ≠ g.key := by
    simp only [Fld.key]
    omega
  exact (State.rd_put_other _ _ (hkey rfl (by decide))).trans (State.rd_put_other _ _ (hkey rfl (by decide)))

theorem State.berthResult_result (s : State) (b : Fin 64) {r : Nat} (hr : r < 8) : s.BerthResult (s.berthResult b r) b r := by
  obtain ⟨hresult, hberth⟩ := s.rd_noteBerth b hr
  rw [State.berthResult_eq]
  split
  · next h => exact ⟨rfl, hresult, hberth, fun h0 => absurd h h0, fun _ => rfl, fun g hlo _ _ => s.rd_noteBerth_other b r hlo⟩
  · next h =>
    have hraise := (s.noteBerth b r).leaves_raise (n := 116) (by decide) none
    exact ⟨State.bas_raise _ (by decide) _, (hraise.rd _ (by decide)).trans hresult, (hraise.rd _ (by decide)).trans hberth,
      fun _ => State.sticky_raise _ (by decide) (.inl (by decide)) _, fun h0 => absurd h0 h,
      fun g hlo hhi hbit => (hraise.rd g (decide_eq_true (by simp only [Fld.key]; omega))).trans (s.rd_noteBerth_other b r hlo)⟩

/-! ## BAS_BERTH_CMD (R143, R144) -/

/-- BAS_BERTH_CMD takes its berths. -/
def State.nameBerths (s : State) (b target : Fin 64) : State := (s.put Reg.BAS_BERTH_CMD_TARGET target).put Reg.BAS_BERTH_CMD_BERTH b

theorem State.rd_nameBerths (s : State) (b target : Fin 64) {g : Fld} (h : 0x3100 ≤ g.off) : (s.nameBerths b target).rd g = s.rd g := by
  have hkey {f : Fld} (hf : f.off = 0x3000) (hlo : f.lo < 32) : f.key ≠ g.key := by
    simp only [Fld.key]
    omega
  exact (State.rd_put_other _ _ (hkey rfl (by decide))).trans (State.rd_put_other _ _ (hkey rfl (by decide)))

theorem State.berthSize_nameBerths (s : State) (b target : Fin 64) (o : Nat) : (s.nameBerths b target).berthSize o = s.berthSize o :=
  congrArg (· * 512) (s.rd_nameBerths b target (by simp only; omega))

theorem State.berthLayer_nameBerths (s : State) (b target : Fin 64) (o : Nat) : (s.nameBerths b target).berthLayer o = s.berthLayer o := by
  rw [State.berthLayer, State.berthSize_nameBerths, s.rd_nameBerths b target (by simp only; omega), s.rd_nameBerths b target (by simp only; omega),
    State.berthLayer]

theorem State.berthCovered_nameBerths (s : State) (b target o : Fin 64) : (s.nameBerths b target).berthCovered o = s.berthCovered o := by
  simp only [State.berthCovered, State.berthFill, State.berthLayer_nameBerths]
  rfl

theorem State.setBerth_berthAt (s : State) (b : Fin 64) : s.setBerth b (s.berthAt b) = s := by
  simp [State.setBerth, State.berthAt]

/-- The state, and the berth itself, after a command that ends with a result. -/
def State.berthEnds (s : State) (b : Fin 64) (r : Nat) (y : Berth) : State := (s.setBerth b y).berthResult b r

theorem State.berthEnds_same (s : State) (b : Fin 64) (r : Nat) : s.berthEnds b r (s.berthAt b) = s.berthResult b r := by
  rw [State.berthEnds, State.setBerth_berthAt]

/-- READY by its table. -/
theorem State.berthReady_ends {s : State} {b target : Fin 64} {r : Nat} {y : Berth}
    (h : (s.berthAt b).state ≠ .host ∧ r = 1 ∧ y = s.berthAt b ∨
      (s.berthAt b).state = .host ∧ s.berthSize b < s.berthLayer b ∧ r = 4 ∧ y = s.berthAt b ∨
      (s.berthAt b).state = .host ∧ s.berthLayer b ≤ s.berthSize b ∧ s.berthCovered b = false ∧ r = 2 ∧ y = s.berthAt b ∨
      (s.berthAt b).state = .host ∧ s.berthLayer b ≤ s.berthSize b ∧ s.berthCovered b = true ∧
        (∃ o : Fin 64, o ≠ b ∧ (s.berthAt o).state = .ready ∧ (s.berthAt o).home = target.val) ∧ r = 3 ∧ y = s.berthAt b ∨
      (s.berthAt b).state = .host ∧ s.berthLayer b ≤ s.berthSize b ∧ s.berthCovered b = true ∧
        (∀ o : Fin 64, o ≠ b → (s.berthAt o).state = .ready → (s.berthAt o).home ≠ target.val) ∧ r = 0 ∧
        y = { s.berthAt b with state := .ready, home := target, flagged := false }) :
    s.berthReady b target = s.berthEnds b r y ∧ r < 8 := by
  unfold State.berthReady
  rcases h with ⟨hs, rfl, rfl⟩ | ⟨hs, hl, rfl, rfl⟩ | ⟨hs, hl, hc, rfl, rfl⟩ | ⟨hs, hl, hc, ho, rfl, rfl⟩ | ⟨hs, hl, hc, ho, rfl, rfl⟩
  · exact ⟨(if_pos hs).trans (s.berthEnds_same b 1).symm, by decide⟩
  · exact ⟨(if_neg (by simp [hs])).trans ((if_pos hl).trans (s.berthEnds_same b 4).symm), by decide⟩
  · exact ⟨(if_neg (by simp [hs])).trans ((if_neg (by omega)).trans ((if_pos (by simp [hc])).trans (s.berthEnds_same b 2).symm)), by decide⟩
  · have hany : all64.any (fun o => o ≠ b && (s.berthAt o).state = .ready && (s.berthAt o).home = target.val) = true := by
      simpa [all64, List.any_eq_true, and_assoc] using ho
    exact ⟨(if_neg (by simp [hs])).trans ((if_neg (by omega)).trans ((if_neg (by simp [hc])).trans ((if_pos hany).trans (s.berthEnds_same b 3).symm))),
      by decide⟩
  · have hany : ¬ all64.any (fun o => o ≠ b && (s.berthAt o).state = .ready && (s.berthAt o).home = target.val) = true := by
      simpa [all64, List.any_eq_true, and_assoc] using ho
    exact ⟨(if_neg (by simp [hs])).trans ((if_neg (by omega)).trans ((if_neg (by simp [hc])).trans (if_neg hany))), by decide⟩

theorem State.berthCancel_ends {s : State} {b : Fin 64} {r : Nat} {y : Berth}
    (h : (s.berthAt b).state = .ready ∧ r = 0 ∧ y = { s.berthAt b with state := .host, home := 0, flagged := false } ∨
      (s.berthAt b).state = .live ∧ (s.berthAt b).retireMark = true ∧ r = 0 ∧ y = { s.berthAt b with retireMark := false } ∨
      (s.berthAt b).state ≠ .ready ∧ ((s.berthAt b).state ≠ .live ∨ (s.berthAt b).retireMark = false) ∧ r = 1 ∧ y = s.berthAt b) :
    s.berthCancel b = s.berthEnds b r y ∧ r < 8 := by
  unfold State.berthCancel
  rcases h with ⟨hs, rfl, rfl⟩ | ⟨hs, hm, rfl, rfl⟩ | ⟨hs, hm, rfl, rfl⟩
  · exact ⟨if_pos hs, by decide⟩
  · exact ⟨(if_neg (by simp [hs])).trans (if_pos (by simp [hs, hm])), by decide⟩
  · exact ⟨(if_neg hs).trans ((if_neg (by rcases hm with hm | hm <;> simp [hm])).trans (s.berthEnds_same b 1).symm), by decide⟩

theorem State.berthRelease_ends {s : State} {b : Fin 64} {r : Nat} {y : Berth}
    (h : (s.berthAt b).state = .host ∧ r = 0 ∧ y = { s.berthAt b with state := .free, covered := [] } ∨
      (s.berthAt b).state = .free ∧ r = 0 ∧ y = s.berthAt b ∨
      (s.berthAt b).state ≠ .host ∧ (s.berthAt b).state ≠ .free ∧ r = 1 ∧ y = s.berthAt b) :
    s.berthRelease b = s.berthEnds b r y ∧ r < 8 := by
  unfold State.berthRelease
  rcases h with ⟨hs, rfl, rfl⟩ | ⟨hs, rfl, rfl⟩ | ⟨hs, hf, rfl, rfl⟩
  · exact ⟨if_pos hs, by decide⟩
  · exact ⟨(if_neg (by simp [hs])).trans ((if_pos hs).trans (s.berthEnds_same b 0).symm), by decide⟩
  · exact ⟨(if_neg hs).trans ((if_neg hf).trans (s.berthEnds_same b 1).symm), by decide⟩

theorem State.berthRetire_ends {s : State} {b : Fin 64} {r : Nat} {y : Berth}
    (h : (s.berthAt b).state = .live ∧ r = 0 ∧ y = { s.berthAt b with retireMark := true } ∨
      (s.berthAt b).state ≠ .live ∧ r = 1 ∧ y = s.berthAt b) : s.berthRetire b = s.berthEnds b r y ∧ r < 8 := by
  unfold State.berthRetire
  rcases h with ⟨hs, rfl, rfl⟩ | ⟨hs, rfl, rfl⟩
  · exact ⟨if_pos hs, by decide⟩
  · exact ⟨(if_neg hs).trans (s.berthEnds_same b 1).symm, by decide⟩

/-- A BAS_BERTH_CMD word as it applies: its command bits, its target and its berth. -/
theorem State.applyBerthCmd_word (s : State) {b target : Fin 64} {k w : Nat} (hw : w = k * 65536 + target.val * 256 + b.val) :
    s.applyBerthCmd w = match k % 16 with
      | 0 => s.nameBerths b target
      | 1 => (s.nameBerths b target).berthReady b target
      | 2 => (s.nameBerths b target).berthCancel b
      | 4 => (s.nameBerths b target).berthRelease b
      | 8 => (s.nameBerths b target).berthRetire b
      | _ => (s.nameBerths b target).berthResult b 5 := by
  have hb : Fin.ofNat 64 w = b := Fin.ext (by simp only [Fin.ofNat]; omega)
  have ht : Fin.ofNat 64 (w / 256) = target := Fin.ext (by simp only [Fin.ofNat]; omega)
  have hk : w / 65536 % 16 = k % 16 := by omega
  simp only [State.applyBerthCmd, hb, ht, hk]
  rfl

theorem State.berthCmd_held {s : State} (h : s.seq.snap ≠ none) (w : Nat) :
    s.berthCmd w = { s with seq := { s.seq with heldCmds := s.seq.heldCmds ++ [w] } } := if_pos (Option.isSome_iff_ne_none.2 h)

theorem State.berthCmd_applies {s : State} (h : s.seq.snap = none) (w : Nat) : s.berthCmd w = s.applyBerthCmd w := if_neg (by simp [h])

/-- What a berth command leaves: the berth as the table says, every other berth and the bytes of the basin as they were, and the result. -/
theorem State.berthEnds_result (s : State) (b target : Fin 64) {r : Nat} (y : Berth) (hr : r < 8) {t : State}
    (ht : t = (s.nameBerths b target).berthEnds b r y) :
    t.berthAt b = y ∧ (∀ o : Fin 64, o ≠ b → t.berthAt o = s.berthAt o) ∧ t.bas.mem = s.bas.mem ∧
      t.rd Reg.BAS_BERTH_RESULT_RESULT = r ∧ t.rd Reg.BAS_BERTH_RESULT_BERTH = b.val ∧ (r ≠ 0 → t.sticky 116 = true) ∧ (r = 0 → t.flt = s.flt) := by
  subst ht
  have hresult := ((s.nameBerths b target).setBerth b y).berthResult_result b hr
  refine ⟨?_, fun o ho => ?_, (congrArg Basin.mem hresult.bas).trans rfl, hresult.result, hresult.berth, hresult.raises, hresult.quiet⟩
  · rw [State.berthEnds, State.berthAt, hresult.bas]
    exact State.berthAt_setBerth ..
  · rw [State.berthEnds, State.berthAt, hresult.bas]
    exact State.berthAt_setBerth_other _ _ (Ne.symm ho)

/-- The words of the four commands: k the command bit, and the berths; CANCEL, RELEASE and RETIRE name no target. -/
def BerthWord (who : Sys2Proof.Requester) (b target : Fin 64) (i : Sys2Proof.Instr) (k w : Nat) (t : Fin 64) : Prop :=
  i = .ready who b target ∧ k = 1 ∧ w = 0x10000 + target.val * 256 + b.val ∧ t = target ∨ i = .cancel who b ∧ k = 2 ∧ w = 0x20000 + b.val ∧ t = 0 ∨
    i = .release who b ∧ k = 4 ∧ w = 0x40000 + b.val ∧ t = 0 ∨ i = .retire who b ∧ k = 8 ∧ w = 0x80000 + b.val ∧ t = 0

theorem exec_berthCmd {s : State} {who : Sys2Proof.Requester} (h : s.Ready) (hw : s.MayWrite who 0x3000) {b target t : Fin 64} {i : Sys2Proof.Instr}
    {k w : Nat} (hi : BerthWord who b target i k w t) : exec i s = .next (s.berthCmd w) := by
  have hword : w < 2 ^ 32 := by rcases hi with ⟨-, -, rfl, -⟩ | ⟨-, -, rfl, -⟩ | ⟨-, -, rfl, -⟩ | ⟨-, -, rfl, -⟩ <;> omega
  have hexec : exec i s = s.command (fun s => s.writeReg who 0x3000 w) := by
    rcases hi with ⟨rfl, -, rfl, -⟩ | ⟨rfl, -, rfl, -⟩ | ⟨rfl, -, rfl, -⟩ | ⟨rfl, -, rfl, -⟩ <;> rfl
  rw [hexec, State.command_ready h, State.writeReg_berthCmd h hw hword]

theorem BerthWord.eq {who : Sys2Proof.Requester} {b target t : Fin 64} {i : Sys2Proof.Instr} {k w : Nat} (hi : BerthWord who b target i k w t) :
    w = k * 65536 + t.val * 256 + b.val := by
  rcases hi with ⟨-, rfl, rfl, rfl⟩ | ⟨-, rfl, rfl, rfl⟩ | ⟨-, rfl, rfl, rfl⟩ | ⟨-, rfl, rfl, rfl⟩ <;> simp

/-! ## BAS_BERTH_PLACE and BAS_BERTH_FMT (R139, R140) -/

/-- Berth b is placed at a base with a size. -/
def State.placeBerth (s : State) (b base size : Nat) : State := (s.put (Reg.BAS_BERTH_PLACE_BASE b) base).put (Reg.BAS_BERTH_PLACE_SIZE b) size

theorem State.rd_placeBerth (s : State) (b : Nat) {base size : Nat} (hb : base < 2 ^ 15) (hs : size < 2 ^ 16) :
    (s.placeBerth b base size).rd (Reg.BAS_BERTH_PLACE_BASE b) = base ∧ (s.placeBerth b base size).rd (Reg.BAS_BERTH_PLACE_SIZE b) = size := by
  refine ⟨(State.rd_put_other _ _ ?_).trans (State.rd_put_fits _ hb), State.rd_put_fits _ hs⟩
  simp only [Fld.key]
  omega

/-- Berth b takes a format and a resolution. -/
def State.formatBerth (s : State) (b fmt res : Nat) : State := (s.put (Reg.BAS_BERTH_FMT_FORMAT b) fmt).put (Reg.BAS_BERTH_FMT_RES b) res

theorem State.rd_formatBerth (s : State) (b : Nat) {fmt res : Nat} (hf : fmt < 2 ^ 3) (hr : res < 2 ^ 2) :
    (s.formatBerth b fmt res).rd (Reg.BAS_BERTH_FMT_FORMAT b) = fmt ∧ (s.formatBerth b fmt res).rd (Reg.BAS_BERTH_FMT_RES b) = res := by
  refine ⟨(State.rd_put_other _ _ ?_).trans (State.rd_put_fits _ hf), State.rd_put_fits _ hr⟩
  simp only [Fld.key]
  omega

/-- A placement by the state of its berth and by the other berths. -/
theorem State.berthPlace_ends {s : State} {b : Fin 64} {base size n r : Nat} (hn : n = min size (32768 - base))
    (h : (s.berthAt b).state ≠ .free ∧ r = 7 ∨
      (s.berthAt b).state = .free ∧ r = 6 ∧ (∃ o : Fin 64, o ≠ b ∧ overlaps base n (s.rd (Reg.BAS_BERTH_PLACE_BASE o)) (s.rd (Reg.BAS_BERTH_PLACE_SIZE o)) = true) ∨
      (s.berthAt b).state = .free ∧ r = 0 ∧ (∀ o : Fin 64, o ≠ b → overlaps base n (s.rd (Reg.BAS_BERTH_PLACE_BASE o)) (s.rd (Reg.BAS_BERTH_PLACE_SIZE o)) = false)) :
    s.berthPlace b base size = (if r = 0 then s.placeBerth b base n else s).berthResult b r ∧ r < 8 := by
  subst hn
  unfold State.berthPlace
  rcases h with ⟨hs, rfl⟩ | ⟨hs, rfl, ho⟩ | ⟨hs, rfl, ho⟩
  · exact ⟨if_pos hs, by decide⟩
  · exact ⟨(if_neg (by simp [hs])).trans (if_pos (by simpa [all64, List.any_eq_true] using ho)), by decide⟩
  · refine ⟨(if_neg (by simp [hs])).trans (if_neg ?_), by decide⟩
    simpa [all64, List.any_eq_true] using ho

theorem State.berthFmt_ends {s : State} {b : Fin 64} {fmt res r : Nat}
    (h : (s.berthAt b).state ≠ .free ∧ r = 7 ∨ (s.berthAt b).state = .free ∧ r = 0) :
    s.berthFmt b fmt res = (if r = 0 then s.formatBerth b (min fmt 6) (if min fmt 6 = 5 then 0 else res) else s).berthResult b r ∧ r < 8 := by
  unfold State.berthFmt
  rcases h with ⟨hs, rfl⟩ | ⟨hs, rfl⟩
  · exact ⟨if_pos hs, by decide⟩
  · exact ⟨if_neg (by simp [hs]), by decide⟩

theorem exec_berthPlace {s : State} {who : Sys2Proof.Requester} {b : Fin 64} (h : s.Ready) (hw : s.MayWrite who (0x3100 + 16 * b.val))
    (base : BitVec 15) (size : BitVec 16) : exec (.berthPlace who b base size) s = .next (s.berthPlace b base.toNat size.toNat) :=
  (State.command_ready h (fun s => s.writeReg who (0x3100 + 16 * b.val) (size.toNat * 65536 + base.toNat))).trans
    (congrArg _ (State.writeReg_berthPlace h hw base size))

theorem exec_berthFmt {s : State} {who : Sys2Proof.Requester} {b : Fin 64} (h : s.Ready) (hw : s.MayWrite who (0x3104 + 16 * b.val))
    (format : BitVec 3) (res : BitVec 2) : exec (.berthFmt who b format res) s = .next (s.berthFmt b format.toNat res.toNat) :=
  (State.command_ready h (fun s => s.writeReg who (0x3104 + 16 * b.val) (format.toNat * 4 + res.toNat))).trans
    (congrArg _ (State.writeReg_berthFmt h hw format res))

/-- A berth command that applies at once. -/
theorem exec_berthCmd_ends {s : State} {who : Sys2Proof.Requester} (h : s.Ready) (hw : s.MayWrite who 0x3000) (hsnap : s.seq.snap = none)
    {b target t : Fin 64} {i : Sys2Proof.Instr} {k w r : Nat} {y : Berth} (hi : BerthWord who b target i k w t)
    (hends : s.applyBerthCmd w = (s.nameBerths b t).berthEnds b r y) (hr : r < 8) :
    ∃ u, exec i s = .next u ∧ u.berthAt b = y ∧ (∀ o : Fin 64, o ≠ b → u.berthAt o = s.berthAt o) ∧ u.bas.mem = s.bas.mem ∧
      u.rd Reg.BAS_BERTH_RESULT_RESULT = r ∧ u.rd Reg.BAS_BERTH_RESULT_BERTH = b.val ∧ (r ≠ 0 → u.sticky 116 = true) ∧ (r = 0 → u.flt = s.flt) :=
  ⟨_, (exec_berthCmd h hw hi).trans (congrArg _ (s.berthCmd_applies hsnap w)), s.berthEnds_result b t y hr hends⟩

/-- Settles O36: a command by the table of its kind, a placement and a format by the state of their berth; each ends with its result. -/
theorem berthCommands : Obligations.BerthCommands := by
  unfold Obligations.BerthCommands
  intro s who b target h
  refine ⟨fun hw => ⟨fun i w hsnap hi => ?_, fun i r y hsnap hi => ?_⟩, fun hw base size n r hn hr => ?_, fun hw format res r hr => ?_⟩
  · have hword : ∃ k t, BerthWord who b target i k w t := by
      rcases hi with ⟨hi, hv⟩ | ⟨hi, hv⟩ | ⟨hi, hv⟩ | ⟨hi, hv⟩
      · exact ⟨1, target, .inl ⟨hi, rfl, hv, rfl⟩⟩
      · exact ⟨2, 0, .inr (.inl ⟨hi, rfl, hv, rfl⟩)⟩
      · exact ⟨4, 0, .inr (.inr (.inl ⟨hi, rfl, hv, rfl⟩))⟩
      · exact ⟨8, 0, .inr (.inr (.inr ⟨hi, rfl, hv, rfl⟩))⟩
    obtain ⟨k, t, hword⟩ := hword
    rw [exec_berthCmd h hw hword, State.berthCmd_held hsnap]
  · rcases hi with ⟨hi, htable⟩ | ⟨hi, htable⟩ | ⟨hi, htable⟩ | ⟨hi, htable⟩
    · rw [← s.berthSize_nameBerths b target, ← s.berthLayer_nameBerths b target, ← s.berthCovered_nameBerths b target] at htable
      obtain ⟨hends, hr⟩ := State.berthReady_ends (s := s.nameBerths b target) htable
      have hword : BerthWord who b target i 1 _ target := .inl ⟨hi, rfl, rfl, rfl⟩
      exact exec_berthCmd_ends h hw hsnap hword ((s.applyBerthCmd_word hword.eq).trans hends) hr
    · obtain ⟨hends, hr⟩ := State.berthCancel_ends (s := s.nameBerths b 0) htable
      have hword : BerthWord who b target i 2 _ 0 := .inr (.inl ⟨hi, rfl, rfl, rfl⟩)
      exact exec_berthCmd_ends h hw hsnap hword ((s.applyBerthCmd_word hword.eq).trans hends) hr
    · obtain ⟨hends, hr⟩ := State.berthRelease_ends (s := s.nameBerths b 0) htable
      have hword : BerthWord who b target i 4 _ 0 := .inr (.inr (.inl ⟨hi, rfl, rfl, rfl⟩))
      exact exec_berthCmd_ends h hw hsnap hword ((s.applyBerthCmd_word hword.eq).trans hends) hr
    · obtain ⟨hends, hr⟩ := State.berthRetire_ends (s := s.nameBerths b 0) htable
      have hword : BerthWord who b target i 8 _ 0 := .inr (.inr (.inr ⟨hi, rfl, rfl, rfl⟩))
      exact exec_berthCmd_ends h hw hsnap hword ((s.applyBerthCmd_word hword.eq).trans hends) hr
  · obtain ⟨hends, hr8⟩ := State.berthPlace_ends hn hr
    have hresult := (if r = 0 then s.placeBerth b base.toNat n else s).berthResult_result b hr8
    obtain ⟨hbase, hsize⟩ := s.rd_placeBerth b (base := base.toNat) (size := n) base.isLt (by omega)
    refine ⟨_, (exec_berthPlace h hw base size).trans (congrArg _ hends), hresult.bas.trans ?_, hresult.result, hresult.raises, ?_, ?_⟩
    · split <;> rfl
    · rw [hresult.rd _ (by simp only; omega) (by simp only; omega) (by simp only; omega)]
      split
      · exact hbase
      · rfl
    · rw [hresult.rd _ (by simp only; omega) (by simp only; omega) (by simp only; omega)]
      split
      · exact hsize
      · rfl
  · obtain ⟨hends, hr8⟩ := State.berthFmt_ends (fmt := format.toNat) (res := res.toNat) hr
    have hresult := (if r = 0 then s.formatBerth b (min format.toNat 6) (if min format.toNat 6 = 5 then 0 else res.toNat) else s).berthResult_result b hr8
    have hgly : min format.toNat 6 = 5 ↔ format = 5#3 := by
      rw [← BitVec.toNat_inj]
      simp only [BitVec.toNat_ofNat]
      omega
    obtain ⟨hfmt, hres⟩ := s.rd_formatBerth b (fmt := min format.toNat 6) (res := if min format.toNat 6 = 5 then 0 else res.toNat) (by omega)
      (by split <;> omega)
    refine ⟨_, (exec_berthFmt h hw format res).trans (congrArg _ hends), hresult.bas.trans ?_, hresult.result, hresult.raises, ?_, ?_⟩
    · split <;> rfl
    · rw [hresult.rd _ (by simp only; omega) (by simp only; omega) (by simp only; omega)]
      split
      · exact hfmt
      · rfl
    · rw [hresult.rd _ (by simp only; omega) (by simp only; omega) (by simp only; omega)]
      split
      · exact hres.trans (if_congr hgly rfl rfl)
      · rfl

end Sys2Proof.Machine
end

section

/-! # An END that does not check while RESYNC executes (O23) -/

namespace Sys2Proof.Machine

/-- The twin's END record of a copy of 1 byte. It comes unencrypted, as the first packet of its session. -/
def badEnd : Sys2Proof.RxPacket :=
  let payload := leBytes 4 4 ++ leBytes 1 4 ++ List.replicate 24 0#8
  { whole := true, seq := 0, enc := false, payload := payload, tag := [],
    crc := BitVec.ofNat 32 (crc32 (packetHeader 2 0 false 0 false 32 0 ++ payload)) }

/-- A copy of which no byte has come since its SLOTS record is in COPY, the session pair is executing RESYNC, and FS174 is set to reset the pairing block. -/
def copyWhileResync : State := State.settle
  { State.reset.having [(Reg.PEER_CFG_PAIRED, 1), (Reg.LNK_STATUS_STATE 1, 5), (Reg.LNK_STATUS_WIDTH 1, 3), (Reg.PEER_STATUS_RESYNC, 2),
      (Reg.FLT_REACT_BR 174, 1), (Reg.WHF_STATUS_BUSY 1, 1), (Reg.WHF_STATUS_OPCODE 1, 0x61)] with
    now := 20000000000
    mode := { State.reset.mode with phase := .running, seen := 51 }
    sec := { Trust.reset with peer := some { inKey := [], outKey := [], inSalt := [], outSalt := [] } }
    peer := { Peer.reset with copySlots := List.replicate 32 0#8 } }

theorem copyWhileResync_ready : copyWhileResync.Ready := by unfold State.Ready; decide +kernel

theorem copyWhileResync_twinLands : copyWhileResync.TwinLands badEnd 2 0 := by unfold State.TwinLands; decide +kernel

/-- The reset of the pairing block has completed RESYNC: its completion stands in the ring, with the opcode in byte 4. -/
theorem completion_copyWhileResync : (copyWhileResync.rxXctl badEnd).bas.byte 0x1E08004 = 0x61#8 := by decide +kernel

/-- Refutes O23: an END that does not check raises FS174, and where FLT_REACT has BR for it the pairing block is reset (R252). That completes the
RESYNC command that the session pair is executing, and its completion is written into the basin, which the statement asks to stay as it was. -/
theorem not_resyncCopy : ¬ Obligations.ResyncCopy := by
  unfold Obligations.ResyncCopy
  rintro ⟨hcopy, -⟩
  have hopened : copyWhileResync.opened .peer badEnd = badEnd.payload := by decide +kernel
  obtain ⟨-, hxctl⟩ := hcopy copyWhileResync badEnd badEnd.payload copyWhileResync_ready hopened.symm rfl
  obtain ⟨-, hrecords⟩ := hxctl copyWhileResync_twinLands (by decide +kernel)
  obtain ⟨-, -, -, hend⟩ := hrecords (by decide +kernel)
  obtain ⟨-, hfails, -⟩ := hend (by decide +kernel)
  obtain ⟨t, ht, -, -, hbas⟩ := hfails (by decide +kernel) (.inl (by decide +kernel))
  have hexec : exec (.xctl badEnd) copyWhileResync = .next (copyWhileResync.rxXctl badEnd) :=
    State.command_ready copyWhileResync_ready (fun s => s.rxXctl badEnd)
  rw [hexec, Host.Outcome.next.injEq] at ht
  have hbyte : copyWhileResync.bas.byte 0x1E08004 = 0#8 := by decide +kernel
  have hsame : (copyWhileResync.rxXctl badEnd).bas.byte 0x1E08004 = 0#8 := by rw [ht, hbas, hbyte]
  exact absurd (completion_copyWhileResync.symm.trans hsame) (by decide)

end Sys2Proof.Machine
end

section

/-! # Completions and block resets -/

namespace Sys2Proof.Machine

/-! ## Commands that are served (R252, R363, R424, R425) -/

/-- A command of a pair that serves it, on a device where nothing stands in its way, has its own effect. -/
theorem State.serve_eq {s : State} {p : Pair} {op used : Nat} (h : s.Serves p op) (hu : used = s.argsUsed op) (f : State → State) :
    s.serve p op used f = f s := by
  subst hu
  obtain ⟨hexec, hreset, hengine, hargs⟩ := h
  have hup : s.flt.inReset.any (fun b => blockServes b op) = false := by
    refine List.any_eq_false.2 (fun b hb hserves => hreset ?_)
    cases b with
    | security => exact .inl ⟨hb, hserves⟩
    | nand => exact .inr (.inl ⟨hb, hserves⟩)
    | pairing => exact .inr (.inr ⟨hb, by simpa [blockServes] using hserves⟩)
    | _ => exact absurd hserves (by simp [blockServes])
  rw [State.serve, if_neg (by simp [hexec]), if_neg (by simp [hup]), if_neg (by simpa using hengine), if_neg (by simp [hargs])]

/-! ## Register fields that an operation may change -/

namespace State.SameRegs

variable {fs : List Fld} {s t u : State}

theorem refl (s : State) (fs : List Fld) : s.SameRegs s fs := fun _ _ => rfl

theorem of_regs (h : t.regs = s.regs) : s.SameRegs t fs := fun g _ => by rw [State.rd, h, State.rd]

theorem trans (h : s.SameRegs t fs) (k : t.SameRegs u fs) : s.SameRegs u fs := fun g hg => (k g hg).trans (h g hg)

theorem ite {c : Prop} [Decidable c] (ht : s.SameRegs t fs) (hu : s.SameRegs u fs) : s.SameRegs (if c then t else u) fs := by
  split
  · exact ht
  · exact hu

theorem put (h : s.SameRegs t fs) {f : Fld} (hf : f ∈ fs) (v : Nat) : s.SameRegs (t.put f v) fs :=
  fun g hg => (t.rd_put_other v (hg f hf)).trans (h g hg)

end State.SameRegs

/-! ## What a reaction leaves beside the basin -/

namespace State.Reacts

variable {s t : State}

theorem nand (h : s.Reacts t) : t.nand = s.nand := by
  obtain ⟨regs, ch, mgmt, rif, flt, rfl⟩ := h
  rfl

theorem sec (h : s.Reacts t) : t.sec = s.sec := by
  obtain ⟨regs, ch, mgmt, rif, flt, rfl⟩ := h
  rfl

theorem fresh (h : s.Reacts t) : t.fresh = s.fresh := by
  obtain ⟨regs, ch, mgmt, rif, flt, rfl⟩ := h
  rfl

end State.Reacts

/-! ## Completions (R423, R424) -/

/-- The register fields that a completion may change once it has noted its status. -/
def afterStatusFields (p : Pair) : List Fld :=
  [Reg.WHF_FAILED_COUNT p.num, Reg.WHF_EVENT_SEQUENCE, Reg.WHF_EVENT_CPL_OPEN, Reg.WHF_EVENT_CPL_SESSION, Reg.RIF_MSG_COUNT_COUNT]

/-- The register fields that a completion may change. -/
def completionFields (p : Pair) : List Fld :=
  Reg.WHF_CPL_NEXT_SEQ p.num :: Reg.WHF_STATUS_BUSY p.num :: Reg.WHF_STATUS_LAST_STATUS p.num :: afterStatusFields p

/-- The completion of a command up to its status: the entry, the sequence, and the pair free. -/
def State.postStatus (s : State) (p : Pair) (status : Nat) (entry : List Byte) : State :=
  State.put (((s.basWrite (p.cplRing + s.rd (Reg.WHF_EXEC_SEQ p.num) % p.slots * 32) entry).incMod (Reg.WHF_CPL_NEXT_SEQ p.num)).put
    (Reg.WHF_STATUS_BUSY p.num) 0) (Reg.WHF_STATUS_LAST_STATUS p.num) status

/-- The rest of a completion: the count of failures, the events, and the message. -/
def State.tellStatus (s : State) (p : Pair) (status arg : Nat) (entry : List Byte) : State :=
  let s := if status = 0 ∨ status = 6 then s else s.inc (Reg.WHF_FAILED_COUNT p.num)
  let s := if status = 9 then s.flag Reg.WHF_EVENT_SEQUENCE else s
  let s := match p with
    | .openPair => s.flag Reg.WHF_EVENT_CPL_OPEN
    | .session => s.flag Reg.WHF_EVENT_CPL_SESSION
  if s.on Reg.RIF_INT_CTRL_MSG_CPL then s.sendMsg 3 arg entry else s

/-- The entry of the completion of the command that a pair is executing. -/
def State.entryOf (s : State) (p : Pair) (status detail length : Nat) (result : List Byte) : List Byte :=
  cplEntry (s.rd (Reg.WHF_EXEC_SEQ p.num)) (s.rd (Reg.WHF_STATUS_OPCODE p.num)) status detail length result

theorem State.complete_eq (s : State) (p : Pair) (status detail length : Nat) (result : List Byte) :
    s.complete p status detail length result = (s.postStatus p status (s.entryOf p status detail length result)).tellStatus p status
      (p.num * 32768 + s.rd (Reg.WHF_EXEC_SEQ p.num) % 32768) (s.entryOf p status detail length result) := rfl

theorem State.sameRegs_tellStatus (s : State) (p : Pair) (status arg : Nat) (entry : List Byte) :
    s.SameRegs (s.tellStatus p status arg entry) (afterStatusFields p) := by
  have hmsg (t : State) (a b : Nat) (payload : List Byte) : t.SameRegs (t.sendMsg a b payload) (afterStatusFields p) :=
    .ite (.put (.of_regs rfl) (by simp [afterStatusFields]) _) (.refl _ _)
  unfold State.tellStatus
  extract_lets s1 s2 s3
  have h1 : s.SameRegs s1 (afterStatusFields p) := .ite (.refl _ _) (.put (.refl _ _) (by simp [afterStatusFields]) _)
  have h2 : s.SameRegs s2 (afterStatusFields p) := .ite (.put h1 (by simp [afterStatusFields]) _) h1
  have h3 : s.SameRegs s3 (afterStatusFields p) := by
    unfold s3
    split
    · exact .put h2 (by simp [afterStatusFields]) _
    · exact .put h2 (by simp [afterStatusFields]) _
  exact .ite (.trans h3 (hmsg s3 3 arg entry)) h3

theorem State.sameRegs_complete (s : State) (p : Pair) (status detail length : Nat) (result : List Byte) :
    s.SameRegs (s.complete p status detail length result) (completionFields p) := by
  rw [State.complete_eq]
  have hpost : s.SameRegs (s.postStatus p status (s.entryOf p status detail length result)) (completionFields p) :=
    .put (.put (.put (.of_regs rfl) (by simp [completionFields]) _) (by simp [completionFields]) _) (by simp [completionFields]) _
  exact hpost.trans (fun g hg => State.sameRegs_tellStatus _ p _ _ _ g
    (fun f hf => hg f (List.mem_cons_of_mem _ (List.mem_cons_of_mem _ (List.mem_cons_of_mem _ hf)))))

theorem State.reacts_tellStatus (s : State) (p : Pair) (status arg : Nat) (entry : List Byte) : s.Reacts (s.tellStatus p status arg entry) := by
  unfold State.tellStatus
  extract_lets s1 s2 s3
  have h1 : s.Reacts s1 := .ite (.refl s) (.put (.refl s) ..)
  have h2 : s.Reacts s2 := .ite (.put h1 ..) h1
  have h3 : s.Reacts s3 := by
    unfold s3
    split
    · exact .put h2 ..
    · exact .put h2 ..
  exact .ite (h3.trans (State.reacts_sendMsg ..)) h3

/-- A completion changes registers and messages, and of the basin its entry. -/
theorem State.reacts_complete (s : State) (p : Pair) (status detail length : Nat) (result : List Byte) :
    (s.basWrite (p.cplRing + s.rd (Reg.WHF_EXEC_SEQ p.num) % p.slots * 32) (s.entryOf p status detail length result)).Reacts
      (s.complete p status detail length result) := by
  rw [State.complete_eq]
  have hpost (u : State) (f g k : Fld) (v w x : Nat) : u.Reacts (((u.put f v).put g w).put k x) := .put (.put (.put (.refl u) ..) ..) ..
  exact State.Reacts.trans (hpost (s.basWrite _ _) (Reg.WHF_CPL_NEXT_SEQ p.num) (Reg.WHF_STATUS_BUSY p.num) (Reg.WHF_STATUS_LAST_STATUS p.num) _ 0 status)
    (State.reacts_tellStatus (s.postStatus p status (s.entryOf p status detail length result)) ..)

theorem State.bas_basWrite (s : State) (a : Nat) (vs : List Byte) : (s.basWrite a vs).bas = s.bas.write a vs := rfl

theorem State.bas_complete (s : State) (p : Pair) (status detail length : Nat) (result : List Byte) :
    (s.complete p status detail length result).bas =
      s.bas.write (p.cplRing + s.rd (Reg.WHF_EXEC_SEQ p.num) % p.slots * 32) (s.entryOf p status detail length result) :=
  (s.reacts_complete p status detail length result).bas.trans (State.bas_basWrite ..)

theorem State.nand_complete (s : State) (p : Pair) (status detail length : Nat) (result : List Byte) :
    (s.complete p status detail length result).nand = s.nand :=
  (s.reacts_complete p status detail length result).nand

theorem State.sec_complete (s : State) (p : Pair) (status detail length : Nat) (result : List Byte) :
    (s.complete p status detail length result).sec = s.sec :=
  (s.reacts_complete p status detail length result).sec

theorem State.fresh_complete (s : State) (p : Pair) (status detail length : Nat) (result : List Byte) :
    (s.complete p status detail length result).fresh = s.fresh :=
  (s.reacts_complete p status detail length result).fresh

/-- A completion ends its pair's command with its status. -/
theorem State.ended_complete (s : State) (p : Pair) {status : Nat} (hs : status < 256) (detail length : Nat) (result : List Byte) :
    (s.complete p status detail length result).Ended p status := by
  rw [State.complete_eq]
  have htell := State.sameRegs_tellStatus (s.postStatus p status (s.entryOf p status detail length result)) p status
    (p.num * 32768 + s.rd (Reg.WHF_EXEC_SEQ p.num) % 32768) (s.entryOf p status detail length result)
  have hbusy : ∀ f ∈ afterStatusFields p, f.key ≠ (Reg.WHF_STATUS_BUSY p.num).key := by cases p <;> decide
  have hlast : ∀ f ∈ afterStatusFields p, f.key ≠ (Reg.WHF_STATUS_LAST_STATUS p.num).key := by cases p <;> decide
  have hkeys : (Reg.WHF_STATUS_LAST_STATUS p.num).key ≠ (Reg.WHF_STATUS_BUSY p.num).key := by cases p <;> decide
  refine ⟨?_, (htell _ hlast).trans (State.rd_put_fits _ hs)⟩
  rw [State.pairBusy, State.on, htell _ hbusy, State.postStatus, State.rd_put_other _ _ hkeys, State.rd_put_self]
  rfl

end Sys2Proof.Machine
end

section

/-! # Raises that may reset a block -/

namespace Sys2Proof.Machine

/-! ## What a raise spares, whatever its source's reaction (R249-R257) -/

/-- The fields of SEC_BOOT_STATUS and the sticky bits. -/
def sparedKey (k : Nat) : Bool := (decide (0xB004 * 32 ≤ k) && decide (k < 0xB005 * 32)) || (decide (0xD100 * 32 ≤ k) && decide (k < 0xD118 * 32))

/-- The fields of a pair's status that its completion writes. -/
def statusKey (p : Pair) (k : Nat) : Bool := k == (Reg.WHF_STATUS_BUSY p.num).key || k == (Reg.WHF_STATUS_LAST_STATUS p.num).key

/-- OTP, the delegated keys, SEC_BOOT_STATUS and the sticky bits that are set have stayed, and so has the end of a pair's command. -/
structure State.Spares (p : Pair) (s t : State) : Prop where
  otp : t.sec.otp = s.sec.otp
  otpFail : t.sec.otpFail = s.sec.otpFail
  deleg : t.sec.deleg = s.sec.deleg
  boot : ∀ g : Fld, g.off = 0xB004 → g.lo < 32 → t.rd g = s.rd g
  sticky : ∀ n < 192, s.sticky n = true → t.sticky n = true
  ended : ∀ code, s.Ended p code → t.Ended p code

namespace State.Spares

variable {p : Pair} {s t u : State}

theorem trans (h : s.Spares p t) (k : t.Spares p u) : s.Spares p u :=
  ⟨k.otp.trans h.otp, k.otpFail.trans h.otpFail, k.deleg.trans h.deleg, fun g hg hlo => (k.boot g hg hlo).trans (h.boot g hg hlo),
    fun n hn hs => k.sticky n hn (h.sticky n hn hs), fun code hc => k.ended code (h.ended code hc)⟩

/-- Of the registers, the spared ones have stayed, and so has the end of a command. -/
theorem of_ended (hrd : ∀ g : Fld, sparedKey g.key = true → t.rd g = s.rd g) (hended : ∀ code, s.Ended p code → t.Ended p code)
    (hotp : t.sec.otp = s.sec.otp := by rfl) (hfail : t.sec.otpFail = s.sec.otpFail := by rfl) (hdeleg : t.sec.deleg = s.sec.deleg := by rfl) :
    s.Spares p t := by
  refine ⟨hotp, hfail, hdeleg, fun g hg hlo => hrd g ?_, fun n hn h => ?_, hended⟩
  · simp only [sparedKey, Bool.or_eq_true, Bool.and_eq_true, decide_eq_true_eq]
    simp only [Fld.key]
    omega
  · have hkey : sparedKey (Reg.FLT_STICKY_STICKY (n / 32)).key = true := by
      simp only [sparedKey, Bool.or_eq_true, Bool.and_eq_true, decide_eq_true_eq]
      simp only [Fld.key]
      omega
    rwa [State.sticky, State.bitOf_congr (hrd _ hkey)]

/-- Of the registers, the spared ones and those of the pair's status have stayed. -/
theorem of_rd (hrd : ∀ g : Fld, sparedKey g.key = true ∨ statusKey p g.key = true → t.rd g = s.rd g) (hotp : t.sec.otp = s.sec.otp := by rfl)
    (hfail : t.sec.otpFail = s.sec.otpFail := by rfl) (hdeleg : t.sec.deleg = s.sec.deleg := by rfl) : s.Spares p t := by
  refine of_ended (fun g hg => hrd g (.inl hg)) (fun code hc => ?_) hotp hfail hdeleg
  rwa [State.Ended, State.pairBusy, State.on, hrd _ (.inr (by simp [statusKey])), hrd _ (.inr (by simp [statusKey]))]

theorem of_regs (hregs : t.regs = s.regs := by rfl) (hotp : t.sec.otp = s.sec.otp := by rfl) (hfail : t.sec.otpFail = s.sec.otpFail := by rfl)
    (hdeleg : t.sec.deleg = s.sec.deleg := by rfl) : s.Spares p t :=
  of_rd (fun g _ => by rw [State.rd, hregs, State.rd]) hotp hfail hdeleg

theorem refl (p : Pair) (s : State) : s.Spares p s := of_regs

theorem ite {c : Prop} [Decidable c] (ht : s.Spares p t) (hu : s.Spares p u) : s.Spares p (if c then t else u) := by
  split
  · exact ht
  · exact hu

/-- A key that a raise does not spare. -/
theorem key_ne {f g : Fld} (hf : (sparedKey f.key || statusKey p f.key) = false) (hg : sparedKey g.key = true ∨ statusKey p g.key = true) :
    f.key ≠ g.key := by
  intro h
  rw [h] at hf
  rcases hg with hg | hg <;> simp [hg] at hf

theorem put (h : s.Spares p t) {f : Fld} (v : Nat) (hf : (sparedKey f.key || statusKey p f.key) = false) : s.Spares p (t.put f v) :=
  h.trans (of_rd (fun _ hg => t.rd_put_other v (key_ne hf hg)))

theorem flag (h : s.Spares p t) {f : Fld} (hf : (sparedKey f.key || statusKey p f.key) = false) : s.Spares p (t.flag f) := h.put _ hf

/-- A list of fields that a raise does not spare. -/
theorem of_sameRegs {fs : List Fld} (h : s.SameRegs t fs) (hfs : ∀ f ∈ fs, (sparedKey f.key || statusKey p f.key) = false)
    (hotp : t.sec.otp = s.sec.otp := by rfl) (hfail : t.sec.otpFail = s.sec.otpFail := by rfl) (hdeleg : t.sec.deleg = s.sec.deleg := by rfl) :
    s.Spares p t :=
  of_rd (fun g hg => h g (fun f hf => key_ne (hfs f hf) hg)) hotp hfail hdeleg

end State.Spares

namespace State

variable (p : Pair)

theorem spares_sendMsg (s : State) (code arg : Nat) (payload : List Byte) : s.Spares p (s.sendMsg code arg payload) := by
  have hqueued (t : State) (h : s.Spares p t) : s.Spares p (t.inc Reg.RIF_MSG_COUNT_COUNT) := h.put _ (by cases p <;> decide)
  exact .ite (hqueued _ .of_regs) (.refl p s)

theorem spares_signalFault (s : State) (n : Nat) : s.Spares p (s.signalFault n) := by
  have hflag : s.Spares p (s.flag Reg.RIF_INT_STATUS_FAULT) := .flag (.refl p s) (by cases p <;> decide)
  exact .ite (.ite (hflag.trans (spares_sendMsg ..)) hflag) (.refl p s)

theorem spares_escalate (s : State) (n : Nat) : s.Spares p (s.escalate n) :=
  .ite (.put (.put .of_regs _ (by cases p <;> decide)) _ (by cases p <;> decide)) (.refl p s)

/-- A completion of the other pair, or of a command that has not ended. -/
theorem spares_complete (s : State) {q : Pair} (hq : q = p → s.pairBusy p = true) (status detail length : Nat) (result : List Byte) :
    s.Spares p (s.complete q status detail length result) := by
  have hregs := s.sameRegs_complete q status detail length result
  have hspared : ∀ f ∈ completionFields q, sparedKey f.key = false := by cases q <;> decide
  have hsec := s.sec_complete q status detail length result
  refine .of_ended (fun g hg => hregs g (fun f hf he => ?_)) (fun code hc => ?_) (by rw [hsec]) (by rw [hsec]) (by rw [hsec])
  · rw [← he, hspared f hf] at hg
    exact absurd hg (by decide)
  · have hother : q ≠ p := fun he => absurd ((hq he).symm.trans hc.1) (by decide)
    have hbusy : ∀ f ∈ completionFields q, f.key ≠ (Reg.WHF_STATUS_BUSY p.num).key := by
      cases p <;> cases q <;> first | exact absurd rfl hother | decide
    have hlast : ∀ f ∈ completionFields q, f.key ≠ (Reg.WHF_STATUS_LAST_STATUS p.num).key := by
      cases p <;> cases q <;> first | exact absurd rfl hother | decide
    rwa [State.Ended, State.pairBusy, State.on, hregs _ hbusy, hregs _ hlast]

theorem spares_resetCommands (s : State) (served : Nat → Bool) : s.Spares p (s.resetCommands served) := by
  have hstep (s : State) (q : Pair) : s.Spares p (if s.pairBusy q && served (s.rd (Reg.WHF_STATUS_OPCODE q.num)) then s.status q 4 else s) := by
    split
    · next h =>
      exact spares_complete p s (fun hq => hq ▸ (Bool.and_eq_true_iff.1 h).1) ..
    · exact .refl p s
  exact (hstep s .openPair).trans (hstep _ .session)

theorem spares_endHost (s : State) : s.Spares p s.endHost :=
  .ite (.refl p s) (.flag (.put (.put .of_regs _ (by cases p <;> decide)) _ (by cases p <;> decide)) (by cases p <;> decide))

theorem spares_endPeer (s : State) : s.Spares p s.endPeer :=
  .ite (.refl p s) (.flag (.put (.put .of_regs _ (by cases p <;> decide)) _ (by cases p <;> decide)) (by cases p <;> decide))

theorem spares_blockClear (s : State) (b : Block) : s.Spares p (s.blockClear b) := by
  cases b with
  | hostLink => exact .flag (.put (.refl p s) _ (by cases p <;> decide)) (by cases p <;> decide)
  | peerLink => exact .flag (.put (.refl p s) _ (by cases p <;> decide)) (by cases p <;> decide)
  | security => exact ((spares_endHost p s).trans (spares_endPeer p _)).trans (.trans .of_regs (spares_resetCommands ..))
  | nand => exact .trans (.put .of_regs _ (by cases p <;> decide)) (spares_resetCommands ..)
  | safety => exact spares_resetCommands ..
  | pairing => exact spares_resetCommands ..
  | crc => exact spares_resetCommands ..

theorem spares_blockReset (s : State) (b : Block) : s.Spares p (s.blockReset b) := .ite (.refl p s) (.trans .of_regs (spares_blockClear ..))

theorem spares_controlReaction (s : State) (n : Nat) : s.Spares p (s.controlReaction n) := by
  unfold State.controlReaction
  extract_lets resets s1 s2 s3 s4
  have h1 : s.Spares p s1 := .ite .of_regs (.refl p s)
  clear_value s1
  have h2 : s.Spares p s2 := h1.trans (.ite .of_regs (.refl p s1))
  clear_value s2
  have hblock : s2.Spares p (match blockOf n with
      | some b => s2.blockReset b
      | none => s2) := by
    split
    · exact spares_blockReset ..
    · exact .refl p s2
  have h3 : s.Spares p s3 := h2.trans (.ite hblock (.refl p s2))
  clear_value s3
  have h4 : s.Spares p s4 := h3.trans (.ite .of_regs (.refl p s3))
  clear_value s4
  exact h4.trans (.ite .of_regs (.refl p s4))

/-- What follows the record of the raise of a control-class source. -/
theorem spares_raiseAt (s : State) {n : Nat} (hc : Src.light n = false) (locus : Option Nat) : (s.recordRaise n locus).Spares p (s.raiseAt n locus) := by
  rw [State.raiseAt, if_neg (by simp [hc])]
  exact ((spares_signalFault p _ n).trans (spares_escalate p _ n)).trans (spares_controlReaction p _ n)

/-- Setting a sticky bit clears none. -/
theorem sticky_putBit (s : State) {n m : Nat} (h : s.sticky m = true) : (s.putBit (Reg.FLT_STICKY_STICKY (n / 32)) (n % 32) true).sticky m = true := by
  by_cases hword : m / 32 = n / 32
  · by_cases hbit : n % 32 = m % 32
    · rw [State.sticky, hword, ← hbit]
      exact bitOf_putBit_self s (f := Reg.FLT_STICKY_STICKY (n / 32)) (show n % 32 < 32 from Nat.mod_lt n (by decide))
    · rw [State.sticky, hword, bitOf_putBit_other s (f := Reg.FLT_STICKY_STICKY (n / 32)) hbit (show m % 32 < 32 from Nat.mod_lt m (by decide)), ← hword]
      exact h
  · have hkey : (Reg.FLT_STICKY_STICKY (n / 32)).key ≠ (Reg.FLT_STICKY_STICKY (m / 32)).key := by
      simp only [Fld.key]
      omega
    exact (bitOf_congr (rd_putBit_other s (n % 32) true hkey) _).trans h

theorem spares_putBit_sticky (s : State) {n : Nat} (hn : n < 192) : s.Spares p (s.putBit (Reg.FLT_STICKY_STICKY (n / 32)) (n % 32) true) := by
  have hother {g : Fld} (hg : g.key < 0xD100 * 32 ∨ 0xD118 * 32 ≤ g.key) : (s.putBit (Reg.FLT_STICKY_STICKY (n / 32)) (n % 32) true).rd g = s.rd g := by
    refine rd_putBit_other s (n % 32) true (fun he => ?_)
    rw [← he] at hg
    simp only [Fld.key] at hg
    omega
  refine ⟨rfl, rfl, rfl, fun g hg hlo => hother ?_, fun m _ hm => s.sticky_putBit hm, fun code hc => ?_⟩
  · simp only [Fld.key]
    omega
  · rwa [State.Ended, State.pairBusy, State.on, hother (by cases p <;> decide), hother (by cases p <;> decide)]

/-- A field of the fault collector above the sticky bits. -/
theorem not_spared {f : Fld} (hlo : 0xD118 ≤ f.off) (hhi : f.off < 0xE000) (hbit : f.lo < 32) : (sparedKey f.key || statusKey p f.key) = false := by
  simp only [sparedKey, statusKey, Bool.or_eq_false_iff, Bool.and_eq_false_iff, decide_eq_false_iff_not, beq_eq_false_iff_ne]
  simp only [Fld.key]
  omega

theorem spares_recordRaise (s : State) {n : Nat} (hn : n < 192) (locus : Option Nat) : s.Spares p (s.recordRaise n locus) :=
  .trans (.put (spares_putBit_sticky p s hn) _ (not_spared p (f := Reg.FLT_REACT_COUNT n) (by simp only; omega) (by simp only; omega)
    (by simp only; omega))) .of_regs

theorem spares_setLive (s : State) {n : Nat} (hn : n < 192) (b : Bool) : s.Spares p (s.setLive n b) :=
  .put (.refl p s) _ (not_spared p (f := Reg.FLT_LIVE_LIVE (n / 32)) (by simp only; omega) (by simp only; omega) (by simp only; omega))

theorem spares_noteRaise (s : State) {n : Nat} (hn : n < 192) : s.Spares p (s.noteRaise n) := .trans (spares_setLive p s hn true) .of_regs

theorem spares_raise (s : State) {n : Nat} (hn : n < 192) (hc : Src.light n = false) (locus : Option Nat) : s.Spares p (s.raise n locus) := by
  rw [raise_eq_raiseAt]
  exact ((spares_noteRaise p s hn).trans (spares_recordRaise p _ hn locus)).trans (spares_raiseAt p _ hc locus)

/-- A control-class source that has been raised is sticky, whatever its reaction. -/
theorem sticky_raise_control (s : State) {n : Nat} (hn : n < 192) (hc : Src.light n = false) (locus : Option Nat) : (s.raise n locus).sticky n = true := by
  rw [raise_eq_raiseAt]
  exact (spares_raiseAt .session _ hc locus).sticky n hn (sticky_recordRaise _ n locus)

/-! ## NAND over a raise (R252) -/

theorem nand_resetCommands (s : State) (served : Nat → Bool) : (s.resetCommands served).nand = s.nand := by
  have hstep (s : State) (q : Pair) :
      (if s.pairBusy q && served (s.rd (Reg.WHF_STATUS_OPCODE q.num)) then s.status q 4 else s).nand = s.nand := by
    split
    · exact s.nand_complete ..
    · rfl
  exact (hstep _ .session).trans (hstep s .openPair)

theorem nand_endHost (s : State) : s.endHost.nand = s.nand := by
  simp only [State.endHost]
  split <;> rfl

theorem nand_endPeer (s : State) : s.endPeer.nand = s.nand := by
  simp only [State.endPeer]
  split <;> rfl

/-- The reset of the security engine leaves the NAND alone. -/
theorem nand_blockReset_security (s : State) : (s.blockReset .security).nand = s.nand := by
  unfold State.blockReset
  split
  · rfl
  · simp only [State.blockClear]
    rw [nand_resetCommands]
    exact (nand_endPeer _).trans (nand_endHost _)

/-- The raise of a source whose block is the security engine. -/
theorem nand_raise_security (s : State) {n : Nat} (hb : blockOf n = some .security) (hc : Src.light n = false) (locus : Option Nat) :
    (s.raise n locus).nand = s.nand := by
  have htold (t : State) : (((t.recordRaise n locus).signalFault n).escalate n).nand = t.nand :=
    (((reacts_signalFault _ n).trans (reacts_escalate _ n)).nand).trans rfl
  have hreaction (t : State) : (t.controlReaction n).nand = t.nand := by
    unfold State.controlReaction
    extract_lets resets s1 s2 s3 s4
    have h1 : s1.nand = t.nand := by
      unfold s1
      split <;> rfl
    clear_value s1
    have h2 : s2.nand = t.nand := by
      unfold s2
      split
      · exact h1
      · exact h1
    clear_value s2
    have h3 : s3.nand = t.nand := by
      unfold s3
      rw [hb]
      split
      · exact (nand_blockReset_security _).trans h2
      · exact h2
    clear_value s3
    have h4 : s4.nand = t.nand := by
      unfold s4
      split
      · exact h3
      · exact h3
    clear_value s4
    split
    · exact h4
    · exact h4
  rw [raise_eq_raiseAt, State.raiseAt, if_neg (by simp [hc]), hreaction, htold]
  rfl

end State

end Sys2Proof.Machine
end

section

/-! # Runs of bytes: slices, splices and the basin's fills -/

namespace Sys2Proof.Machine

variable {α : Type}

/-! ## Reads of a list of cells -/

theorem Sparse.get_absent {l : Sparse α} {a : Nat} (h : ∀ c ∈ l, c.1 ≠ a) (d : α) : Sparse.get l d a = d := by
  induction l with
  | nil => rfl
  | cons c l ih =>
    rw [Sparse.get_cons, if_neg (h c List.mem_cons_self), ih (fun e he => h e (List.mem_cons_of_mem c he))]

theorem Sparse.get_append (l m : Sparse α) (d : α) (a : Nat) : Sparse.get (l ++ m) d a = Sparse.get l (Sparse.get m d a) a := by
  induction l with
  | nil => rfl
  | cons c l ih => rw [List.cons_append, Sparse.get_cons, Sparse.get_cons, ih]

/-- A filter by key leaves the keys that it passes. -/
theorem Sparse.get_filter (l : Sparse α) (p : Nat → Bool) (d : α) (a : Nat) :
    Sparse.get (l.filter (fun c => p c.1)) d a = if p a then Sparse.get l d a else d := by
  induction l with
  | nil => simp
  | cons c l ih =>
    by_cases hc : c.1 = a
    · by_cases hp : p a <;> simp [hc, hp, Sparse.get_cons, ih]
    · by_cases hp : p c.1 <;> simp [hc, hp, Sparse.get_cons, ih]

theorem Sparse.le_of_rising {l : Sparse α} {b : Nat} (h : Sparse.rising b l = true) {c : Nat × α} (hc : c ∈ l) : b ≤ c.1 := by
  induction l generalizing b with
  | nil => simp at hc
  | cons e l ih =>
    simp only [Sparse.rising, Bool.and_eq_true, decide_eq_true_eq] at h
    rcases List.mem_cons.1 hc with rfl | hc
    · exact h.1
    · exact Nat.le_trans (Nat.le_succ_of_le h.1) (ih h.2 hc)

/-- Cells whose addresses rise hold none below the first. -/
theorem Sparse.get_below {l : Sparse α} {a b : Nat} (h : Sparse.rising b l = true) (hab : a < b) (d : α) : Sparse.get l d a = d :=
  Sparse.get_absent (fun _ hc => Nat.ne_of_gt (Nat.lt_of_lt_of_le hab (Sparse.le_of_rising h hc))) d

theorem Sparse.get_shift (l : Sparse α) (lo : Nat) (d : α) (k : Nat) : Sparse.get (l.map (fun c => (c.1 + lo, c.2))) d (lo + k) = Sparse.get l d k := by
  induction l with
  | nil => rfl
  | cons c l ih =>
    rw [List.map_cons, Sparse.get_cons, Sparse.get_cons, ih]
    exact if_congr (by dsimp only; omega) rfl rfl

theorem Sparse.rising_shift {l : Sparse α} {b : Nat} (lo : Nat) (h : Sparse.rising b l = true) :
    Sparse.rising (b + lo) (l.map (fun c => (c.1 + lo, c.2))) = true := by
  induction l generalizing b with
  | nil => rfl
  | cons c l ih =>
    simp only [Sparse.rising, Bool.and_eq_true, decide_eq_true_eq, List.map_cons] at h ⊢
    exact ⟨by omega, Nat.add_right_comm c.1 1 lo ▸ ih h.2⟩

/-! ## Slices and splices -/

theorem Memory.wf_iff {m : Memory} : m.wf = true ↔ Sparse.rising 0 m = true ∧ ∀ c ∈ m, c.2 ≠ 0#8 := by
  simp [Memory.wf, Sparse.wf]

theorem Memory.get_slice (m : Memory) (lo n : Nat) (d : Byte) (k : Nat) :
    Sparse.get (m.slice lo n) d k = if k < n then Sparse.get m d (lo + k) else d := by
  unfold Memory.slice
  induction m with
  | nil => simp
  | cons c m ih =>
    rw [List.filter_cons]
    by_cases hin : lo ≤ c.1 ∧ c.1 < lo + n
    · rw [if_pos (by simpa using hin), List.map_cons, Sparse.get_cons, Sparse.get_cons, ih]
      by_cases hk : c.1 = lo + k
      · rw [if_pos (by dsimp only; omega), if_pos (by omega), if_pos hk]
      · rw [if_neg (by dsimp only; omega), if_neg hk]
    · rw [if_neg (by simpa using hin), ih, Sparse.get_cons]
      by_cases hk : k < n
      · rw [if_pos hk, if_pos hk, if_neg (by omega)]
      · rw [if_neg hk, if_neg hk]

theorem Memory.rising_slice (m : Memory) (lo n : Nat) {b : Nat} (h : Sparse.rising b m = true) : Sparse.rising (b - lo) (m.slice lo n) = true := by
  unfold Memory.slice
  induction m generalizing b with
  | nil => rfl
  | cons c m ih =>
    simp only [Sparse.rising, Bool.and_eq_true, decide_eq_true_eq] at h
    rw [List.filter_cons]
    split
    · next hin =>
      simp only [decide_eq_true_eq] at hin
      simp only [Sparse.rising, Bool.and_eq_true, decide_eq_true_eq, List.map_cons]
      exact ⟨by omega, Nat.sub_add_comm hin.1 ▸ ih h.2⟩
    · exact Sparse.rising_mono (ih h.2) (by omega)

theorem Memory.wf_slice {m : Memory} (h : m.wf = true) (lo n : Nat) : (m.slice lo n).wf = true := by
  rw [Memory.wf_iff] at h ⊢
  refine ⟨Sparse.rising_mono (Memory.rising_slice m lo n h.1) (Nat.zero_le _), fun c hc => ?_⟩
  obtain ⟨e, he, rfl⟩ := List.mem_map.1 hc
  exact h.2 e (List.mem_filter.1 he).1

/-- Cells that rise and are not 0 stand in a canonical list of their range as they are. -/
theorem Memory.get_canon {m : Memory} {b : Nat} (hrise : Sparse.rising b m = true) (hne : ∀ c ∈ m, c.2 ≠ 0#8) {lo hi a : Nat} (hlo : lo ≤ a) (hhi : a < hi)
    (d : Byte) : Sparse.get (Memory.canon lo hi m) d a = Sparse.get m d a := by
  induction m generalizing lo b with
  | nil => rfl
  | cons c m ih =>
    simp only [Sparse.rising, Bool.and_eq_true, decide_eq_true_eq] at hrise
    have hrest := fun e he => hne e (List.mem_cons_of_mem c he)
    rw [Memory.canon, Sparse.get_cons]
    split
    · rw [Sparse.get_cons]
      rcases Nat.lt_trichotomy a c.1 with hac | hac | hac
      · rw [if_neg (by omega), if_neg (by omega), Sparse.get_below (Memory.rising_canon ..) (by omega), Sparse.get_below hrise.2 (by omega)]
      · rw [if_pos hac.symm, if_pos hac.symm]
      · rw [if_neg (by omega), if_neg (by omega), ih hrise.2 hrest hac]
    · next hout =>
      have hca : c.1 ≠ a := fun hca => hout ⟨hca ▸ hlo, hca ▸ hhi, hne c List.mem_cons_self⟩
      rw [if_neg hca, ih hrise.2 hrest hlo]

theorem Memory.get_splice_out (m : Memory) (lo n : Nat) (cells : Memory) (d : Byte) {a : Nat} (h : a < lo ∨ lo + n ≤ a) :
    Sparse.get (m.splice lo n cells) d a = Sparse.get m d a := by
  have hrun (e : Byte) : Sparse.get (Memory.canon lo (lo + n) (cells.map (fun c => (c.1 + lo, c.2)))) e a = e := by
    refine Sparse.get_absent (fun c hc => ?_) e
    have hc1 := Sparse.le_of_rising (Memory.rising_canon ..) hc
    have hc2 := (Memory.mem_canon hc).1
    omega
  rw [Memory.splice, Sparse.get_append, Sparse.get_append, hrun, Sparse.get_filter m (fun k => decide (k < lo)),
    Sparse.get_filter m (fun k => decide (lo + n ≤ k))]
  by_cases hlo : a < lo
  · simp [hlo, show ¬ lo + n ≤ a by omega]
  · simp [hlo, h.resolve_left hlo]

theorem Memory.get_splice_in (m : Memory) (lo n : Nat) {cells : Memory} (hwf : cells.wf = true) (d : Byte) {k : Nat} (h : k < n) :
    Sparse.get (m.splice lo n cells) d (lo + k) = Sparse.get cells d k := by
  obtain ⟨hrise, hne⟩ := Memory.wf_iff.1 hwf
  have hshift : ∀ c ∈ cells.map (fun c => (c.1 + lo, c.2)), c.2 ≠ 0#8 := by
    intro c hc
    obtain ⟨e, he, rfl⟩ := List.mem_map.1 hc
    exact hne e he
  rw [Memory.splice, Sparse.get_append, Sparse.get_append, Sparse.get_filter m (fun k => decide (k < lo)),
    Sparse.get_filter m (fun k => decide (lo + n ≤ k))]
  simp only [show ¬ lo + k < lo by omega, show ¬ lo + n ≤ lo + k by omega, decide_false, Bool.false_eq_true, if_false]
  rw [Memory.get_canon (Sparse.rising_shift lo hrise) hshift (by omega) (by omega), Sparse.get_shift]

/-! ## The basin (R136) -/

theorem Basin.blob_eq (b : Basin) (lo n : Nat) :
    b.blob lo n = { len := n, cells := Memory.slice (b.mem.filter (fun c => !(b.fenced.contains (c.1 / 512)))) lo n } := rfl

theorem Basin.byte_blob (b : Basin) (lo n : Nat) {k : Nat} (h : k < n) : (b.blob lo n).byte k = b.byte (lo + k) := by
  rw [Basin.blob_eq, Blob.byte, Memory.byte, Memory.get_slice, if_pos h, Sparse.get_filter b.mem (fun a => !(b.fenced.contains (a / 512))),
    Basin.byte, Memory.byte]
  cases b.fenced.contains ((lo + k) / 512) <;> simp

theorem Basin.wf_blob {b : Basin} (h : b.mem.wf = true) (lo n : Nat) : (b.blob lo n).cells.wf = true :=
  Memory.wf_slice (Sparse.wf_filter _ h) lo n

theorem Basin.byte_fill_out (b : Basin) (lo n : Nat) (cells : Memory) {a : Nat} (h : a < lo ∨ lo + n ≤ a) : (b.fill lo n cells).byte a = b.byte a := by
  rw [Basin.byte, Basin.byte, Memory.byte, Memory.byte, Basin.fill, Memory.get_splice_out _ _ _ _ _ h]

/-- A byte of a fill on a line that is not fenced. -/
theorem Basin.byte_fill_in (b : Basin) (lo n : Nat) {cells : Memory} (hwf : cells.wf = true) {k : Nat} (h : k < n)
    (hf : (lo + k) / 512 ∉ b.fenced) : (b.fill lo n cells).byte (lo + k) = cells.byte k := by
  have hopen : b.fenced.contains ((lo + k) / 512) = false := by simpa using hf
  have hread : (b.fill lo n cells).byte (lo + k) = (b.fill lo n cells).mem.byte (lo + k) := if_neg (by simpa [Basin.fill] using hf)
  rw [hread, Basin.fill, Memory.byte, Memory.get_splice_in _ _ _ (Sparse.wf_filter _ hwf) _ h,
    Sparse.get_filter cells (fun a => !(b.fenced.contains ((a + lo) / 512))), Nat.add_comm k lo, hopen]
  rfl

theorem Basin.byte_setByte_other (b : Basin) {a c : Nat} (v : Byte) (h : a ≠ c) : (b.setByte a v).byte c = b.byte c := by
  unfold Basin.setByte
  split
  · rfl
  · rw [Basin.byte, Basin.byte, Memory.byte_setByte_other _ _ h]

theorem Basin.byte_write_out (b : Basin) {a c : Nat} (vs : List Byte) (h : c < a ∨ a + vs.length ≤ c) : (b.write a vs).byte c = b.byte c := by
  induction vs generalizing a b with
  | nil => rfl
  | cons v vs ih =>
    rw [List.length_cons] at h
    rw [Basin.write, ih _ (by omega), Basin.byte_setByte_other _ _ (by omega)]

theorem Basin.failed_setByte (b : Basin) (a : Nat) (v : Byte) : (b.setByte a v).failed = b.failed := by
  unfold Basin.setByte
  split <;> rfl

theorem Basin.failed_write (b : Basin) (a : Nat) (vs : List Byte) : (b.write a vs).failed = b.failed := by
  induction vs generalizing a b with
  | nil => rfl
  | cons v vs ih => rw [Basin.write, ih, Basin.failed_setByte]

/-- A completion entry is 32 bytes long. -/
theorem length_cplEntry (seq opcode status detail length : Nat) (result : List Byte) : (cplEntry seq opcode status detail length result).length = 32 := by
  simp [cplEntry, length_leBytes]

/-- A session's completion writes its entry below the stored ceiling sets. -/
theorem State.byte_complete_session (s : State) (status detail length : Nat) (result : List Byte) {a : Nat} (h : 0x1E0A000 ≤ a) :
    (s.complete .session status detail length result).bas.byte a = s.bas.byte a := by
  rw [State.bas_complete]
  refine Basin.byte_write_out _ _ (.inr ?_)
  have hslot : s.rd (Reg.WHF_EXEC_SEQ Pair.session.num) % Pair.session.slots < 256 := Nat.mod_lt _ (by decide)
  rw [State.entryOf, length_cplEntry]
  simp only [Pair.cplRing]
  omega

end Sys2Proof.Machine
end

section

/-! # CEIL_STORE, CEIL_LOAD and FILE_READ (O48) -/

namespace Sys2Proof.Machine

/-! ## Berth arguments (R137, R425) -/

theorem State.withBerth_out (s : State) {b : Nat} (h : 64 ≤ b) (f : Fin 64 → State) : s.withBerth b f = s.status .session 11 := if_pos h

theorem State.withBerth_none {s : State} {b : Nat} (hb : b < 64) (h : s.berthRef b = none) (f : Fin 64 → State) :
    s.withBerth b f = s.status .session 3 := by
  rw [State.withBerth, if_neg (by omega), h]
  rfl

theorem State.withBerth_some {s : State} {b : Nat} (hb : b < 64) {x : Fin 64} (h : s.berthRef b = some x) (f : Fin 64 → State) :
    s.withBerth b f = f x := by
  rw [State.withBerth, if_neg (by omega), h]

/-- A berth reference names a RAW berth in FREE or HOST. -/
theorem State.state_of_berthRef {s : State} {b : Nat} {x : Fin 64} (h : s.berthRef b = some x) :
    (s.berthAt x).state = .free ∨ (s.berthAt x).state = .host := by
  unfold State.berthRef at h
  split at h
  · dsimp only at h
    split at h
    · next hraw => exact Option.some.inj h ▸ hraw.2
    · cases h
  · cases h

theorem State.copyBerth_failed {s : State} (h : SvcReq.nand ∈ s.bas.failed) (b : Fin 64) (f : State → Blob → State) (lost : State → State) :
    s.copyBerth b f lost = lost s.clearFailed := if_pos (by simpa using h)

theorem State.copyBerth_done {s : State} (h : SvcReq.nand ∉ s.bas.failed) (b : Fin 64) (f : State → Blob → State) (lost : State → State) :
    s.copyBerth b f lost = f s (s.berthInput b) := if_neg (by simpa using h)

/-- A berth that a reference names has HOST after an output to it. -/
theorem State.state_berthOutput {s : State} {b : Nat} {x : Fin 64} (h : s.berthRef b = some x) (data : Blob) :
    ((s.berthOutput x data).berthAt x).state = .host := by
  refine (congrArg Berth.state (s.berthAt_setBerth x _)).trans ?_
  rcases State.state_of_berthRef h with hfree | hhost
  · simp [hfree]
  · simp [hhost]

/-! ## Ceiling sets (R131, R180) -/

theorem ceilSet_ge (i : Nat) : 0x1E0A000 ≤ ceilSet i := by
  unfold ceilSet
  omega

/-- The ceiling set that CEIL_STORE names takes the first bytes of a berth. -/
def State.storeCeiling (s : State) (set : Nat) (x : Fin 64) : State :=
  if s.berthSize x < 135168 then s.status .session 11
  else s.copyBerth x (fun s img => (s.basFill (ceilSet set) 135168 img.cells).status .session 0) State.lostCopy

theorem exec_ceilStore {s : State} (h : s.Ready) (hs : s.Serves .session 0x44) : exec .ceilStore s = .next
    (if 3 ≤ s.arg .session 1 1 then s.status .session 11 else s.withBerth (s.arg .session 0 1) (s.storeCeiling (s.arg .session 1 1))) :=
  (State.command_ready h (fun s => s.cmdCeilStore)).trans (congrArg _ (State.serve_eq hs rfl _))

theorem exec_ceilLoad {s : State} (h : s.Ready) (hs : s.Serves .session 0x45) : exec .ceilLoad s = .next
    (if 3 ≤ s.arg .session 0 1 ∨ 2 ≤ s.arg .session 1 1 then s.status .session 11
    else if s.ceilBusy (s.arg .session 1 1) then s.status .session 1
    else (s.ceilTake (s.arg .session 0 1) (s.arg .session 1 1)).status .session 0) :=
  (State.command_ready h (fun s => s.cmdCeilLoad)).trans (congrArg _ (State.serve_eq hs rfl _))

/-- A failed copy ends in ERROR and leaves the stored sets. -/
theorem State.storeCeiling_failed {s : State} {x : Fin 64} (hsize : 135168 ≤ s.berthSize x) (hf : SvcReq.nand ∈ s.bas.failed) (set : Nat) :
    (s.storeCeiling set x).Ended .session 2 ∧ ∀ k, (s.storeCeiling set x).bas.byte (ceilSet set + k) = s.bas.byte (ceilSet set + k) := by
  have heq : s.storeCeiling set x = s.clearFailed.status .session 2 := (if_neg (by omega)).trans (State.copyBerth_failed hf ..)
  rw [heq]
  refine ⟨State.ended_complete _ _ (by decide) .., fun k => ?_⟩
  exact State.byte_complete_session s.clearFailed _ _ _ _ (Nat.le_trans (ceilSet_ge set) (Nat.le_add_right ..))

theorem State.byte_storeCeiling {s : State} {x : Fin 64} (hsize : 135168 ≤ s.berthSize x) (hwf : Memory.wf s.bas.mem = true) (set : Nat) {k : Nat}
    (hk : k < 135168) (hfenced : (ceilSet set + k) / 512 ∉ s.bas.fenced) :
    (s.basFill (ceilSet set) 135168 (s.berthInput x).cells).bas.byte (ceilSet set + k) = s.bas.byte (s.berthBase x + k) :=
  calc (s.bas.fill (ceilSet set) 135168 (s.berthInput x).cells).byte (ceilSet set + k)
    _ = (s.berthInput x).byte k := Basin.byte_fill_in _ _ _ (Basin.wf_blob hwf ..) hk hfenced
    _ = s.bas.byte (s.berthBase x + k) := Basin.byte_blob _ _ _ (Nat.lt_of_lt_of_le hk hsize)

/-- The ceiling planes hold 0 where nothing was written (R171). -/
theorem trimDefault_plane {plane : Nat} {k : Nat} (hk : k < 135168) : trimDefault (ceilBase plane + k) = 0#8 := by
  have hbase : 0x610000 ≤ ceilBase plane := by
    unfold ceilBase
    split <;> omega
  rw [trimDefault, if_neg (by omega), if_neg (by omega)]

theorem State.ts_ceilTake_in {s : State} (hwf : Memory.wf s.bas.mem = true) (set plane : Nat) {k : Nat} (hk : k < 135168) :
    (s.ceilTake set plane).ts (ceilBase plane + k) = (s.bas.byte (ceilSet set + k)).toNat := by
  have hread : Sparse.get (s.ceilTake set plane).trim.store (trimDefault (ceilBase plane + k)) (ceilBase plane + k) =
      (s.bas.blob (ceilSet set) 135168).byte k := by
    rw [trimDefault_plane hk]
    exact Memory.get_splice_in _ _ _ (Basin.wf_blob hwf ..) _ hk
  rw [State.ts, hread, Basin.byte_blob _ _ _ hk]

theorem State.ts_ceilTake_out (s : State) (set plane : Nat) {k : Nat} (hk : k < ceilBase plane ∨ ceilBase plane + 135168 ≤ k) :
    (s.ceilTake set plane).ts k = s.ts k :=
  congrArg BitVec.toNat (Memory.get_splice_out s.trim.store _ _ _ _ hk)

/-! ## Reads of files (R372, R380-R382) -/

/-- What FILE_READ puts into a berth that it may write. -/
def State.readInto (s : State) (part idx : Nat) (x : Fin 64) : State :=
  if !s.nandReady then s.status .session 2
  else match s.fileContent part idx (s.berthSize x) with
    | (_, none) => ((s.status .session 2).readFile part idx).1
    | (s, some img) =>
      if s.berthSize x < img.len then s.status .session 11
      else (s.berthOutput x img).complete .session 0 0 img.len []

theorem exec_fileRead {s : State} (h : s.Ready) (hs : s.Serves .session 0x50) : exec .fileRead s = .next
    (if 10 < s.arg .session 0 1 then s.status .session 11
    else if s.arg .session 0 1 = 0 ∨ s.arg .session 0 1 = 10 then s.status .session 3
    else if filesOf (s.arg .session 0 1) ≤ s.arg .session 1 1 ∨ copiesOf (s.arg .session 0 1) (s.arg .session 1 1) ≤ s.arg .session 2 1 then
      s.status .session 11
    else s.withBerth (s.arg .session 3 1) (s.readInto (s.arg .session 0 1) (s.arg .session 1 1))) :=
  (State.command_ready h (fun s => s.cmdFileRead)).trans (congrArg _ (State.serve_eq hs rfl _))

/-- A read of a file gives what the storage holds and changes nothing, or it raises FS169 and gives nothing; the storage alone decides. -/
theorem State.readFile_cases (n : Nand) (part idx : Nat) :
    (∃ o, ∀ t : State, t.nand = n → t.readFile part idx = (t, o)) ∨ (∀ t : State, t.nand = n → t.readFile part idx = (t.raise 169, none)) := by
  cases hfile : n.file part idx with
  | none =>
    refine .inl ⟨none, fun t ht => ?_⟩
    subst ht
    rw [State.readFile, hfile]
  | some f =>
    by_cases hread : (f.lost.isEmpty || (n.jobs ++ n.deferred).any (fun j => j.kind = .file ∧ j.part = part ∧ j.idx = idx)) = true
    · refine .inl ⟨n.issued part idx, fun t ht => ?_⟩
      subst ht
      rw [State.readFile, hfile]
      exact if_pos hread
    · refine .inr (fun t ht => ?_)
      subst ht
      rw [State.readFile, hfile]
      exact if_neg hread

theorem State.fileContent_file {s : State} {part : Nat} (h8 : part ≠ 8) (h9 : part ≠ 9) (idx room : Nat) :
    s.fileContent part idx room = s.readFile part idx := by
  rw [State.fileContent, if_neg h9, if_neg h8]

/-- Nothing is read where the file cannot be, a BACKUP generation included. -/
theorem State.fileContent_none {s t : State} {part idx : Nat} (h8 : part ≠ 8) (hidx : idx < filesOf part) (hnone : s.readFile part idx = (t, none))
    (room : Nat) : s.fileContent part idx room = (t, none) := by
  by_cases h9 : part = 9
  · subst h9
    have hzero : idx = 0 := by simpa [filesOf] using hidx
    rw [State.fileContent, if_pos rfl, ← hzero, hnone]
  · rw [State.fileContent_file h8 h9, hnone]

theorem State.readInto_none {s t : State} {part idx : Nat} {x : Fin 64} (hready : s.nandReady = true) (h8 : part ≠ 8) (hidx : idx < filesOf part)
    (hnone : s.readFile part idx = (t, none)) : s.readInto part idx x = ((s.status .session 2).readFile part idx).1 := by
  rw [State.readInto, if_neg (by simp [hready]), State.fileContent_none h8 hidx hnone]

theorem State.readInto_some {s t : State} {part idx : Nat} {x : Fin 64} {img : Blob} (hready : s.nandReady = true)
    (hsome : s.fileContent part idx (s.berthSize x) = (t, some img)) :
    s.readInto part idx x = if t.berthSize x < img.len then t.status .session 11 else (t.berthOutput x img).complete .session 0 0 img.len [] := by
  rw [State.readInto, if_neg (by simp [hready]), hsome]

theorem State.readInto_absent {s : State} {part idx : Nat} {x : Fin 64} (hready : s.nandReady = true) (h8 : part ≠ 8) (hidx : idx < filesOf part)
    (hfile : s.nand.file part idx = none) : s.readInto part idx x = s.status .session 2 := by
  have hread (t : State) (ht : t.nand = s.nand) : t.readFile part idx = (t, none) := by
    rw [State.readFile, ht, hfile]
  have hnand : (s.status .session 2).nand = s.nand := State.nand_complete ..
  rw [State.readInto_none hready h8 hidx (hread s rfl), hread _ hnand]

/-- A file with a lost sector ends FILE_READ in ERROR, with FS169. -/
theorem State.readInto_lost {s : State} {part idx : Nat} {x : Fin 64} (hready : s.nandReady = true) (h8 : part ≠ 8) (hidx : idx < filesOf part)
    (hlost : s.readFile part idx = (s.raise 169, none)) :
    (s.readInto part idx x).sticky 169 = true ∧ (s.readInto part idx x).Ended .session 2 := by
  have hended : (s.status .session 2).Ended .session 2 := State.ended_complete _ _ (by decide) ..
  have hnand : (s.status .session 2).nand = s.nand := State.nand_complete ..
  rw [State.readInto_none hready h8 hidx hlost]
  rcases State.readFile_cases s.nand part idx with ⟨o, hsame⟩ | hraise
  · have hs : s = s.raise 169 := (Prod.mk.inj ((hsame s rfl).symm.trans hlost)).1
    have hsticky : s.sticky 169 = true := (congrArg (fun t => State.sticky t 169) hs).trans (State.sticky_raise_control s (by decide) rfl _)
    rw [hsame _ hnand]
    have hspares : s.Spares .openPair (s.status .session 2) := State.spares_complete .openPair s (by simp) ..
    dsimp only
    exact ⟨hspares.sticky 169 (by decide) hsticky, hended⟩
  · rw [hraise _ hnand]
    dsimp only
    exact ⟨State.sticky_raise_control _ (by decide) rfl _, (State.spares_raise .session _ (by decide) rfl _).ended 2 hended⟩

/-- The log that FILE_READ gives is a free value that fits the room. -/
theorem State.fileContent_log (s : State) (idx room : Nat) :
    ∃ img : Blob, s.fileContent 8 idx room = (s.draw.draw, some img) ∧ img.len ≤ room := by
  refine ⟨_, rfl, ?_⟩
  simp only [Blob.ofBytes, length_leBytes]
  exact Nat.le_of_lt_succ (Nat.mod_lt _ (Nat.succ_pos _))

theorem State.readInto_log {s : State} {idx : Nat} {x : Fin 64} (hready : s.nandReady = true) :
    (s.readInto 8 idx x).Ended .session 0 ∧ (s.readInto 8 idx x).fresh = s.fresh + 2 := by
  obtain ⟨img, hlog, hlen⟩ := s.fileContent_log idx (s.berthSize x)
  have hroom : ¬ s.draw.draw.berthSize x < img.len := Nat.not_lt.2 hlen
  rw [State.readInto_some hready hlog, if_neg hroom]
  exact ⟨State.ended_complete _ _ (by decide) .., State.fresh_complete ..⟩

/-- Settles O48: each command by its conditions in order; the sets and planes byte by byte. -/
theorem ceilingsAndFiles : Obligations.CeilingsAndFiles := by
  unfold Obligations.CeilingsAndFiles
  rintro s a b h rfl rfl
  refine ⟨fun hs => ?_, fun hs => ?_, fun hs => ?_⟩
  · rw [exec_ceilStore h hs]
    refine ⟨fun hrange => ?_, fun hset hberth hnone => ?_, fun x hset hberth hx => ?_⟩
    · split
      · rfl
      · next hset => rw [State.withBerth_out s (hrange.resolve_left hset)]
    · rw [if_neg (by omega), State.withBerth_none hberth hnone]
    · rw [if_neg (by omega), State.withBerth_some hberth hx]
      refine ⟨fun hsize => congrArg _ (if_pos hsize), fun hsize hf => ?_, fun hsize hf t ht => ?_⟩
      · obtain ⟨hended, hbytes⟩ := State.storeCeiling_failed hsize hf (s.arg .session 1 1)
        exact ⟨_, rfl, hended, fun k _ => hbytes k⟩
      · subst ht
        refine ⟨congrArg _ ((if_neg (by omega)).trans (State.copyBerth_done hf ..)), fun k hk hfenced hwf => ?_, fun k hk => ?_⟩
        · exact State.byte_storeCeiling hsize hwf _ hk hfenced
        · exact Basin.byte_fill_out _ _ _ _ hk
  · rw [exec_ceilLoad h hs]
    refine ⟨fun hrange => congrArg _ (if_pos hrange), fun hset hplane hbusy => ?_, fun hset hplane hidle => ⟨?_, fun k hk hwf => ?_, fun k hk => ?_⟩⟩
    · rw [if_neg (by omega), if_pos hbusy]
    · rw [if_neg (by omega), if_neg (by simp [hidle])]
    · exact State.ts_ceilTake_in hwf _ _ hk
    · exact State.ts_ceilTake_out s _ _ hk
  · rw [exec_fileRead h hs]
    refine ⟨fun hrange => ?_, fun hpart => ?_, fun hlo hhi hidx hcopy d hd => ?_⟩
    · rcases hrange with hpart | ⟨hlo, hhi, hfile⟩
      · rw [if_pos hpart]
      · rw [if_neg (by omega), if_neg (by omega), if_pos hfile]
    · rw [if_neg (by omega), if_pos hpart]
    · subst hd
      rw [if_neg (by omega), if_neg (by omega), if_neg (by omega)]
      refine ⟨fun hd => congrArg _ (State.withBerth_out s hd _), fun hd hnone => congrArg _ (State.withBerth_none hd hnone _), fun x hd hx => ?_⟩
      rw [State.withBerth_some hd hx]
      refine ⟨fun hready => congrArg _ (if_pos (by simp [hready])), fun hready => ⟨fun hfile h8 => ?_, fun hlost h8 => ?_, fun img hread h8 h9 hlen => ?_,
        fun img hread h8 h9 hlen => ?_, fun h8 => ?_⟩⟩
      · rw [State.readInto_absent hready h8 hidx hfile]
      · exact ⟨_, rfl, State.readInto_lost hready h8 hidx hlost⟩
      · rw [State.readInto_some hready ((State.fileContent_file h8 h9 ..).trans hread), if_neg (by omega)]
        exact ⟨rfl, State.state_berthOutput hx img⟩
      · rw [State.readInto_some hready ((State.fileContent_file h8 h9 ..).trans hread), if_pos hlen]
      · rw [h8]
        exact ⟨_, rfl, State.readInto_log hready⟩

end Sys2Proof.Machine
end

section

/-! # RECOVER_WRITE, IMAGE_WRITE and COMMIT_SVN (O46) -/

namespace Sys2Proof.Machine

/-! ## Images that fail (R341, R345) -/

/-- The field of SEC_BOOT_STATUS that has the check code of firmware slot i. -/
def reasonField (i : Nat) : Fld := if i = 0 then Reg.SEC_BOOT_STATUS_REASON_A else Reg.SEC_BOOT_STATUS_REASON_B

theorem reasonField_bits (i : Nat) : (reasonField i).off = 0xB004 ∧ (reasonField i).lo < 32 ∧ (reasonField i).w = 4 := by
  unfold reasonField
  split <;> decide

/-- Which images use a held key outside its list depends on OTP and the delegated keys. -/
theorem State.firmwareMisused_congr {s t : State} (hotp : t.sec.otp = s.sec.otp) (hfail : t.sec.otpFail = s.sec.otpFail)
    (hdeleg : t.sec.deleg = s.sec.deleg) (img : Blob) (code : Nat) : t.firmwareMisused img code = s.firmwareMisused img code := by
  have hkeys : t.delegated = s.delegated := by
    funext i
    rw [State.delegated, State.delegated, hdeleg]
  have hslots : t.slotUsable = s.slotUsable := by
    funext i
    simp only [State.slotUsable, State.slotWritten, State.slotRevoked, State.otpOk, hotp, hfail]
  have hhashes : t.rootHash = s.rootHash := by
    funext i
    rw [State.rootHash, State.rootHash, hotp]
  have hroots : t.usableHash = s.usableHash := by
    funext x
    rw [State.usableHash, State.usableHash, hslots, hhashes]
  rw [State.firmwareMisused, State.firmwareMisused, hkeys, hroots]

theorem State.firmwareMisused_zero (s : State) (img : Blob) : s.firmwareMisused img 0 = false := by
  simp [State.firmwareMisused]

/-- A raise of a source of the security engine leaves the NAND, and spares what the check codes rest on. -/
structure State.Judged (p : Pair) (s t : State) : Prop where
  nand : t.nand = s.nand
  spares : s.Spares p t

theorem State.Judged.raise {p : Pair} {s t : State} (h : s.Judged p t) {n : Nat} (hb : blockOf n = some .security) (hn : n < 192)
    (hc : Src.light n = false) : s.Judged p (t.raise n) :=
  ⟨(State.nand_raise_security t hb hc _).trans h.nand, h.spares.trans (State.spares_raise p t hn hc _)⟩

theorem State.Judged.refl (p : Pair) (s : State) : s.Judged p s := ⟨rfl, .refl p s⟩

theorem State.noteCode_eq (s : State) (i code : Nat) (img : Blob) : s.noteCode i code (some img) =
    (let t := if code = 5 then (s.put (reasonField i) code).raise 10 else s.put (reasonField i) code
     if t.firmwareMisused img code then t.raise 15 else t) := rfl

/-- The codes of an image that passes are noted by its reason alone. -/
theorem State.noteCode_zero (s : State) (i : Nat) (img : Blob) : s.noteCode i 0 (some img) = s.put (reasonField i) 0 := by
  rw [State.noteCode_eq]
  simp [State.firmwareMisused_zero]

theorem State.noteCode_judges (p : Pair) (s : State) (i code : Nat) (img : Blob) :
    (s.put (reasonField i) code).Judged p (s.noteCode i code (some img)) ∧ (code = 5 → (s.noteCode i code (some img)).sticky 10 = true) ∧
      (s.firmwareMisused img code = true → (s.noteCode i code (some img)).sticky 15 = true) := by
  rw [State.noteCode_eq]
  extract_lets t
  have ht : (s.put (reasonField i) code).Judged p t ∧ (code = 5 → t.sticky 10 = true) := by
    unfold t
    split
    · exact ⟨(State.Judged.refl p _).raise rfl (by decide) rfl, fun _ => State.sticky_raise_control _ (by decide) rfl _⟩
    · next h5 => exact ⟨.refl p _, fun h => absurd h h5⟩
  clear_value t
  obtain ⟨hjudged, h10⟩ := ht
  have hmisused : t.firmwareMisused img code = s.firmwareMisused img code :=
    State.firmwareMisused_congr hjudged.spares.otp hjudged.spares.otpFail hjudged.spares.deleg img code
  rw [hmisused]
  split
  · exact ⟨hjudged.raise rfl (by decide) rfl, fun h => (State.spares_raise p t (by decide) rfl _).sticky 10 (by decide) (h10 h),
      fun _ => State.sticky_raise_control _ (by decide) rfl _⟩
  · next hno => exact ⟨hjudged, h10, fun h => absurd h hno⟩

/-- What an image that fails with a check code leaves: nothing written, the code reported, the sources raised, the command in ERROR. -/
structure State.Rejects (s : State) (p : Pair) (reason : Fld) (img : Blob) (code : Nat) (t : State) : Prop where
  nand : t.nand = s.nand
  invalid : t.sticky 16 = true
  rollback : code = 5 → t.sticky 10 = true
  reason : t.rd reason = code % 16
  misused : s.firmwareMisused img code = true → t.sticky 15 = true
  ended : t.Ended p 2

theorem State.Rejects.outcome {s t : State} {p : Pair} {reason : Fld} {img : Blob} {code : Nat} (h : s.Rejects p reason img code t) :
    t.nand = s.nand ∧ t.sticky 16 = true ∧ (code = 5 → t.sticky 10 = true) ∧ t.rd reason = code % 16 ∧
      (s.firmwareMisused img code = true → t.sticky 15 = true) ∧ t.Ended p 2 :=
  ⟨h.nand, h.invalid, h.rollback, h.reason, h.misused, h.ended⟩

theorem State.writeImage_passes {s : State} {img : Blob} (h : s.imageCheck img s.rollback = 0) (p : Pair) (i : Nat) :
    s.writeImage p i img = (s.put (reasonField i) 0).writeFile (i + 1) 0 img (some p) := by
  rw [State.writeImage, if_pos h, State.noteCode_zero]

/-- The reason is written apart from the sticky bits and from the pair's status. -/
theorem State.put_reason_keeps (s : State) (p : Pair) (i code : Nat) : (∀ n, n < 192 → (s.put (reasonField i) code).sticky n = s.sticky n) ∧
    ∀ status, s.Ended p status → (s.put (reasonField i) code).Ended p status := by
  obtain ⟨hoff, hlo, -⟩ := reasonField_bits i
  have hother {g : Fld} (hg : g.key < 0xB004 * 32 ∨ 0xB005 * 32 ≤ g.key) : (s.put (reasonField i) code).rd g = s.rd g := by
    refine State.rd_put_other _ _ (fun he => ?_)
    rw [← he] at hg
    simp only [Fld.key, hoff] at hg
    omega
  refine ⟨fun n hn => ?_, fun status h => ?_⟩
  · rw [State.sticky, State.bitOf, hother (.inr (by simp only [Fld.key]; omega)), State.sticky, State.bitOf]
  · rwa [State.Ended, State.pairBusy, State.on, hother (by cases p <;> decide), hother (by cases p <;> decide)]

theorem State.writeImage_fails {s : State} {img : Blob} {code : Nat} (hcode : code = s.imageCheck img s.rollback) (hne : code ≠ 0) (p : Pair) (i : Nat) :
    s.Rejects p (reasonField i) img code (s.writeImage p i img) := by
  have heq : s.writeImage p i img = ((s.complete p 2 code 0 []).raise 16).noteCode i code (some img) := by
    simp only [State.writeImage, ← hcode, if_neg hne, State.fails, State.raises, List.foldl_cons, List.foldl_nil, stError]
  have hended : (s.complete p 2 code 0 []).Ended p 2 := s.ended_complete p (by decide) code 0 []
  have hsec : (s.complete p 2 code 0 []).sec = s.sec := s.sec_complete p 2 code 0 []
  have hnand : (s.complete p 2 code 0 []).nand = s.nand := s.nand_complete p 2 code 0 []
  rw [heq]
  generalize s.complete p 2 code 0 [] = u at hended hsec hnand
  have hraised : u.Judged p (u.raise 16) := (State.Judged.refl p u).raise rfl (by decide) rfl
  have h16 : (u.raise 16).sticky 16 = true := State.sticky_raise_control u (by decide) rfl _
  generalize u.raise 16 = v at hraised h16
  obtain ⟨hjudged, h10, h15⟩ := State.noteCode_judges p v i code img
  obtain ⟨hsticky, hends⟩ := v.put_reason_keeps p i code
  have hmisused : v.firmwareMisused img code = s.firmwareMisused img code :=
    State.firmwareMisused_congr (hraised.spares.otp.trans (congrArg Trust.otp hsec)) (hraised.spares.otpFail.trans (congrArg Trust.otpFail hsec))
      (hraised.spares.deleg.trans (congrArg Trust.deleg hsec)) img code
  obtain ⟨hoff, hlo, hw⟩ := reasonField_bits i
  have hreason : (v.put (reasonField i) code).rd (reasonField i) = code % 16 := by
    rw [State.rd_put_self, hw]
    rfl
  exact {
    nand := hjudged.nand.trans (hraised.nand.trans hnand)
    invalid := hjudged.spares.sticky 16 (by decide) ((hsticky 16 (by decide)).trans h16)
    rollback := h10
    reason := (hjudged.spares.boot _ hoff hlo).trans hreason
    misused := fun h => h15 (hmisused.trans h)
    ended := hjudged.spares.ended 2 (hends 2 (hraised.spares.ended 2 hended)) }

/-! ## RECOVER_WRITE (R352) -/

/-- A list of bytes reads as its cells. -/
theorem get_cellsFrom (bs : List Byte) (i k : Nat) : Sparse.get (cellsFrom i bs) 0#8 (i + k) = bs.getD k 0#8 := by
  induction bs generalizing i k with
  | nil => simp [cellsFrom]
  | cons b bs ih =>
    have hrise : Sparse.rising (i + 1) (cellsFrom (i + 1) bs) = true := (Memory.wf_cellsFrom bs (i + 1)).1
    have hrest (k : Nat) : Sparse.get (cellsFrom (i + 1) bs) 0#8 (i + (k + 1)) = bs.getD k 0#8 := by
      rw [← ih (i + 1) k, Nat.add_right_comm, Nat.add_assoc]
    rw [cellsFrom]
    split
    · next hb =>
      cases k with
      | zero => rw [Sparse.get_below hrise (show i + 0 < i + 1 from Nat.lt_succ_self i), hb, List.getD_cons_zero]
      | succ k => rw [hrest, List.getD_cons_succ]
    · rw [Sparse.get_cons]
      cases k with
      | zero => rw [Nat.add_zero, if_pos rfl, List.getD_cons_zero]
      | succ k => rw [if_neg (by dsimp only; omega), hrest, List.getD_cons_succ]

/-- The image under assembly with a chunk at an offset; one of another length is begun anew. -/
def State.withChunk (s : State) (off total : Nat) (chunk : List Byte) : Blob :=
  { len := total, cells := Memory.splice (if s.sec.recover.len = total then s.sec.recover.cells else []) off chunk.length (cellsFrom 0 chunk) }

theorem State.byte_withChunk (s : State) (off total : Nat) (chunk : List Byte) (i : Nat) : (s.withChunk off total chunk).byte i =
    if off ≤ i ∧ i < off + chunk.length then chunk.getD (i - off) 0#8 else if s.sec.recover.len = total then s.sec.recover.byte i else 0#8 := by
  rw [State.withChunk, Blob.byte, Memory.byte]
  by_cases hin : off ≤ i ∧ i < off + chunk.length
  · rw [if_pos hin]
    obtain ⟨k, rfl⟩ := Nat.exists_eq_add_of_le hin.1
    have hwf : Memory.wf (cellsFrom 0 chunk) = true := Memory.wf_iff.2 (Memory.wf_cellsFrom chunk 0)
    have hcells := get_cellsFrom chunk 0 k
    rw [Nat.zero_add] at hcells
    rw [Memory.get_splice_in _ _ _ hwf _ (by omega), hcells, Nat.add_sub_cancel_left]
  · rw [if_neg hin, Memory.get_splice_out _ _ _ _ _ (by omega)]
    split <;> rfl

/-- The image under assembly. -/
def State.assemble (s : State) (img : Blob) : State := { s with sec := { s.sec with recover := img } }

theorem State.imageCheck_assemble (s : State) (img b : Blob) : (s.assemble img).imageCheck b (s.assemble img).rollback = s.imageCheck b s.rollback := rfl

/-- What RECOVER_WRITE does with its chunk. -/
def State.takeChunk (s : State) (p : Pair) (chunk : List Byte) : State :=
  if s.arg p 12 4 < s.arg p 8 4 + chunk.length ∨ 458752 < s.arg p 12 4 then s.status p 11
  else if s.arg p 8 4 + chunk.length ≠ s.arg p 12 4 then (s.assemble (s.withChunk (s.arg p 8 4) (s.arg p 12 4) chunk)).status p 0
  else (s.assemble (s.withChunk (s.arg p 8 4) (s.arg p 12 4) chunk)).writeImage p 0 (s.withChunk (s.arg p 8 4) (s.arg p 12 4) chunk)

theorem exec_recoverWrite {s : State} {p : Pair} (h : s.Ready) (hs : s.Serves p 0x25) : exec (.recoverWrite p) s =
    .next (if !s.recovery then s.status p 3 else s.withInput p 0 (fun s chunk => s.takeChunk p chunk)) :=
  (State.command_ready h (fun s => s.cmdRecoverWrite p)).trans (congrArg _ (State.serve_eq hs rfl _))

theorem State.withInput_eq {s : State} {p : Pair} {i : Nat} {bs : List Byte} (h : s.Input p i bs) (f : State → List Byte → State) :
    s.withInput p i f = f s bs := by
  obtain ⟨a, len, href, rfl⟩ := h
  rw [State.withInput, href]

/-- RECOVER_WRITE with the chunk that its reference names. -/
theorem exec_recoverWrite_chunk {s : State} {p : Pair} {chunk : List Byte} (h : s.Ready) (hs : s.Serves p 0x25) (hrec : s.recovery = true)
    (hin : s.Input p 0 chunk) : exec (.recoverWrite p) s = .next (s.takeChunk p chunk) := by
  rw [exec_recoverWrite h hs, if_neg (by simp [hrec]), State.withInput_eq hin]

/-! ## IMAGE_WRITE (R346) -/

theorem State.lt_of_berthRef {s : State} {b : Nat} {x : Fin 64} (h : s.berthRef b = some x) : b < 64 := by
  by_contra hb
  rw [State.berthRef, dif_neg hb] at h
  cases h

/-- The firmware slot that is not booted. -/
def State.spareSlot (s : State) : Nat := if s.rd Reg.SEC_BOOT_STATUS_IMAGE = 0 then 1 else 0

/-- IMAGE_WRITE from a berth. -/
def State.writeFrom (s : State) (n : Nat) (b : Fin 64) : State :=
  if s.berthSize b < n then s.status .session 11
  else s.copyBerth b (fun s img => s.writeImage .session s.spareSlot (img.take n)) (fun s => s.status .session 2)

theorem exec_imageWrite {s : State} (h : s.Ready) (hs : s.Serves .session 0x30) :
    exec .imageWrite s = .next (s.withBerth (s.arg .session 0 1) (s.writeFrom (s.arg .session 1 4))) := by
  refine (State.command_ready h (fun s => s.cmdImageWrite)).trans (congrArg _ ((State.serve_eq hs rfl _).trans ?_))
  dsimp only [State.withBerth]
  cases s.berthRef (s.arg .session 0 1) <;> rfl

/-- A copy that has met a lasting error ends in ERROR; its report is taken up, and the NAND stays. -/
theorem State.clearFailed_ends (s : State) : (s.clearFailed.status .session 2).nand = s.nand ∧
    SvcReq.nand ∉ (s.clearFailed.status .session 2).bas.failed ∧ (s.clearFailed.status .session 2).Ended .session 2 := by
  refine ⟨State.nand_complete s.clearFailed .., ?_, State.ended_complete _ _ (by decide) ..⟩
  rw [State.status, State.bas_complete, Basin.failed_write]
  simp [State.clearFailed]

/-! ## COMMIT_SVN (R340, R346) -/

/-- A bit of OTP by its number. -/
def otpBit (otp : Memory) (b : Nat) : Bool := (otp.byte (b / 8)).getLsbD (b % 8)

theorem otpBit_otpSet (otp : Memory) (b c : Nat) : otpBit (otpSet otp b) c = (decide (c = b) || otpBit otp c) := by
  unfold otpBit otpSet
  by_cases hbyte : b / 8 = c / 8
  · rw [hbyte, Memory.byte_setByte_self, BitVec.getLsbD_or, BitVec.getLsbD_ofNat, Nat.testBit_two_pow, Bool.or_comm]
    have hlt : c % 8 < 8 := Nat.mod_lt _ (by decide)
    have hiff : (b % 8 = c % 8) ↔ c = b := by omega
    simp [hlt, hiff]
  · have hne : c ≠ b := fun h => hbyte (h ▸ rfl)
    rw [Memory.byte_setByte_other _ _ hbyte]
    simp [hne]

/-- Bits programmed are 1, and the others as they were. -/
theorem otpBit_otpSets (bs : List Nat) (otp : Memory) (c : Nat) : otpBit (bs.foldl otpSet otp) c = (decide (c ∈ bs) || otpBit otp c) := by
  induction bs generalizing otp with
  | nil => simp
  | cons b bs ih =>
    rw [List.foldl_cons, ih, otpBit_otpSet]
    simp only [List.mem_cons, Bool.decide_or]
    cases decide (c = b) <;> cases decide (c ∈ bs) <;> rfl

theorem byte_otpSets_below {bs : List Nat} {a : Nat} (h : ∀ b ∈ bs, (a + 1) * 8 ≤ b) (otp : Memory) : (bs.foldl otpSet otp).byte a = otp.byte a := by
  induction bs generalizing otp with
  | nil => rfl
  | cons b bs ih =>
    have hb := h b List.mem_cons_self
    rw [List.foldl_cons, ih (fun c hc => h c (List.mem_cons_of_mem b hc)), otpSet, Memory.byte_setByte_other _ _ (by omega)]

/-- The rollback bits below a count that are not programmed. -/
def State.unsetBits (s : State) (v : Nat) : List Nat := (List.range v).filter (fun i => !((s.sec.otp.byte (0x100 + i / 8)).getLsbD (i % 8)))

/-- The bits of OTP with the rollback count raised to v. -/
def State.committed (s : State) (v : Nat) : Memory := ((s.unsetBits v).map (0x100 * 8 + ·)).foldl otpSet s.sec.otp

theorem State.byte_committed (s : State) (v : Nat) {a : Nat} (ha : a < 0x100) : (s.committed v).byte a = s.sec.otp.byte a := by
  refine byte_otpSets_below (fun b hb => ?_) _
  obtain ⟨i, -, rfl⟩ := List.mem_map.1 hb
  omega

theorem State.bit_committed (s : State) (v i : Nat) :
    ((s.committed v).byte (0x100 + i / 8)).getLsbD (i % 8) = (decide (i < v) || (s.sec.otp.byte (0x100 + i / 8)).getLsbD (i % 8)) := by
  have hbyte : 0x100 + i / 8 = (0x100 * 8 + i) / 8 := by omega
  have hbit : i % 8 = (0x100 * 8 + i) % 8 := by omega
  have hold : otpBit s.sec.otp (0x100 * 8 + i) = (s.sec.otp.byte (0x100 + i / 8)).getLsbD (i % 8) := by rw [otpBit, ← hbyte, ← hbit]
  have hmem : decide (0x100 * 8 + i ∈ (s.unsetBits v).map (0x100 * 8 + ·)) =
      (decide (i < v) && !(s.sec.otp.byte (0x100 + i / 8)).getLsbD (i % 8)) := by
    simp [State.unsetBits]
  calc ((s.committed v).byte (0x100 + i / 8)).getLsbD (i % 8)
    _ = otpBit (s.committed v) (0x100 * 8 + i) := by rw [otpBit, ← hbyte, ← hbit]
    _ = (decide (0x100 * 8 + i ∈ (s.unsetBits v).map (0x100 * 8 + ·)) || otpBit s.sec.otp (0x100 * 8 + i)) := otpBit_otpSets ..
    _ = (decide (i < v) || (s.sec.otp.byte (0x100 + i / 8)).getLsbD (i % 8)) := by
      rw [hmem, hold]
      cases (s.sec.otp.byte (0x100 + i / 8)).getLsbD (i % 8) <;> simp

/-- OTP with other contents. -/
def State.setOtp (s : State) (otp : Memory) : State := { s with sec := { s.sec with otp := otp } }

/-- Programming that takes leaves the new bits, and is DONE. -/
theorem State.otpProgram_takes (s : State) (bits : List Nat) :
    s.otpProgram bits .takes = (s.setOtp (bits.foldl otpSet s.sec.otp), 0) := by
  simp [State.otpProgram, State.setOtp]

theorem State.spares_condition (p : Pair) (s : State) {n : Nat} (hn : n < 192) (hc : Src.light n = false) (b : Bool) :
    s.Spares p (s.condition n b) := by
  unfold State.condition
  split
  · exact .ite (.refl p s) (State.spares_raise p s hn hc _)
  · exact State.spares_setLive p s hn false

theorem State.spares_noteKeys (p : Pair) (s : State) : s.Spares p s.noteKeys := by
  unfold State.noteKeys
  extract_lets s1 s2 wasOpen opened s3 s4
  have h1 : s.Spares p s1 := .put (.put (.put (.refl p s) _ (by cases p <;> decide)) _ (by cases p <;> decide)) _ (by cases p <;> decide)
  have h2 : s.Spares p s2 := .put h1 _ (by cases p <;> decide)
  have h3 : s.Spares p s3 := .put h2 _ (by cases p <;> decide)
  have h4 : s.Spares p s4 := .ite (.flag h3 (by cases p <;> decide)) h3
  exact h4.trans (State.spares_condition p s4 (by decide) rfl _)

/-- The end of an operation on OTP that took: the command is DONE, and OTP stays as programmed. -/
theorem State.otpDone_takes (s : State) (p : Pair) : (s.otpDone p false 0).Ended p 0 ∧ (s.otpDone p false 0).sec.otp = s.sec.otp := by
  have heq : s.otpDone p false 0 = (s.complete p 0 0 0 []).noteKeys := rfl
  have hspares := State.spares_noteKeys p (s.complete p 0 0 0 [])
  rw [heq]
  exact ⟨hspares.ended 0 (s.ended_complete p (by decide) ..), hspares.otp.trans (congrArg Trust.otp (s.sec_complete ..))⟩

/-- The rollback bits are programmed up to a count, in the temperature window. -/
def State.commitRollback (s : State) (v : Nat) (otp : OtpRun) : State :=
  s.inOtpWindow .session (fun s =>
    let r := s.otpProgram ((s.unsetBits v).map (0x100 * 8 + ·)) otp
    r.1.otpDone .session false r.2)

theorem exec_commitSvn {s : State} (h : s.Ready) (hs : s.Serves .session 0x31) (otp : OtpRun) : exec (.commitSvn otp) s = .next
    (if s.firmwarePasses 0 (max (s.rd Reg.SEC_SVN_RUNNING) s.rollback) && s.firmwarePasses 1 (max (s.rd Reg.SEC_SVN_RUNNING) s.rollback) then
      s.commitRollback (s.rd Reg.SEC_SVN_RUNNING) otp else s.status .session 3) :=
  (State.command_ready h (fun s => s.cmdCommitSvn otp)).trans (congrArg _ (State.serve_eq hs rfl _))

theorem State.commitRollback_takes {s : State} (hwindow : s.on Reg.THM_STATUS_OTP_OK = true) (v : Nat) :
    (s.commitRollback v .takes).Ended .session 0 ∧ (s.commitRollback v .takes).sec.otp = s.committed v := by
  have heq : s.commitRollback v .takes = (s.setOtp (s.committed v)).otpDone .session false 0 := by
    rw [State.commitRollback, State.inOtpWindow, if_pos hwindow, State.committed]
    dsimp only
    rw [State.otpProgram_takes]
  rw [heq]
  exact State.otpDone_takes (s.setOtp (s.committed v)) .session

/-- Settles O46: each command by its conditions in order, and an image by the code of the check that it fails. -/
theorem firmwareImages : Obligations.FirmwareImages := by
  unfold Obligations.FirmwareImages
  intro s p h
  refine ⟨fun hs => ⟨fun hrec => ?_, fun chunk off total hrec hin hoff htotal => ?_⟩,
    fun hs => ⟨fun hrange => ?_, fun hberth hnone => ?_, fun b n hb hn => ?_⟩, fun otp v hs hv => ?_⟩
  · rw [exec_recoverWrite h hs, if_pos (by simp [hrec])]
  · rw [exec_recoverWrite_chunk h hs hrec hin, State.takeChunk, ← hoff, ← htotal]
    refine ⟨fun hrange => congrArg _ (if_pos hrange), fun hlen htop => ⟨s.withChunk off total chunk, rfl, s.byte_withChunk off total chunk, ?_⟩⟩
    intro s' hs'
    replace hs' : s' = s.assemble (s.withChunk off total chunk) := hs'
    have hcheck : s'.imageCheck (s.withChunk off total chunk) s'.rollback = s.imageCheck (s.withChunk off total chunk) s.rollback := by
      rw [hs', State.imageCheck_assemble]
    rw [if_neg (by omega), ← hs']
    refine ⟨fun hpart => congrArg _ (if_pos hpart), fun hall hpass => ?_, fun code hall hcode hne => ?_⟩
    · rw [if_neg (by omega), State.writeImage_passes (hcheck.trans hpass)]
      rfl
    · have hrejects := State.writeImage_fails (hcode.trans hcheck.symm) hne p 0
      rw [if_neg (by omega)]
      subst hs'
      exact ⟨_, rfl, hrejects.outcome⟩
  · rw [exec_imageWrite h hs, State.withBerth_out s hrange]
  · rw [exec_imageWrite h hs, State.withBerth_none hberth hnone]
  · have hlt : s.arg .session 0 1 < 64 := State.lt_of_berthRef hb
    rw [exec_imageWrite h hs, State.withBerth_some hlt hb, State.writeFrom, ← hn]
    refine ⟨fun hsize => congrArg _ (if_pos hsize), fun hsize hf => ?_, fun hsize hf img code himg hcode part reason hslot => ?_⟩
    · rw [if_neg (by omega), State.copyBerth_failed hf]
      exact ⟨_, rfl, s.clearFailed_ends⟩
    · rw [if_neg (by omega), State.copyBerth_done hf, ← himg]
      have hspare : part = s.spareSlot + 1 ∧ reason = reasonField s.spareSlot := by
        unfold State.spareSlot
        split at hslot
        · next hA => rw [if_pos hA]; exact Prod.mk.inj hslot
        · next hB => rw [if_neg hB]; exact Prod.mk.inj hslot
      obtain ⟨rfl, rfl⟩ := hspare
      refine ⟨fun hpass => ?_, fun hne => ?_⟩
      · rw [State.writeImage_passes (hcode.symm.trans hpass)]
      · exact ⟨_, rfl, (State.writeImage_fails hcode hne .session s.spareSlot).outcome⟩
  · rw [exec_commitSvn h hs otp, ← hv]
    refine ⟨fun hfails => ?_, fun hA hB => ?_⟩
    · rcases hfails with hf | hf <;> simp [hf]
    · rw [hA, hB, Bool.and_self, if_pos rfl]
      refine ⟨fun hcold => ?_, fun hwindow htakes => ?_⟩
      · rw [State.commitRollback, State.inOtpWindow, if_neg (by simp [hcold])]
        rfl
      · subst htakes
        obtain ⟨hended, hotp⟩ := State.commitRollback_takes hwindow v
        refine ⟨_, rfl, hended, fun i => ?_, fun a ha => ?_⟩
        · rw [hotp, State.bit_committed]
        · rw [hotp, State.byte_committed s v ha]

end Sys2Proof.Machine
end

section

/-! # Raises of the check units and of the configuration CRC -/

namespace Sys2Proof.Machine

/-! ## Blocks that serve no wharf command (R252, R363) -/

/-- A block without commands of its own ends none. -/
theorem State.resetCommands_unserved (s : State) {served : Nat → Bool} (h : ∀ op, served op = false) : s.resetCommands served = s :=
  foldl_stays _ (fun p _ => if_neg (by simp [h]))

/-- A source with no block to reset, or with the safety block's or the configuration CRC's. -/
def ServesNone (n : Nat) : Prop := blockOf n = none ∨ blockOf n = some .safety ∨ blockOf n = some .crc

/-- Nothing but the cores and the fault collector has changed. -/
def State.Told (s t : State) : Prop := ∃ (mgmt : Mgmt) (flt : Faults), t = { s with mgmt := mgmt, flt := flt }

namespace State.Told

variable {s t u : State}

theorem refl (s : State) : s.Told s := ⟨_, _, rfl⟩

theorem trans (h : s.Told t) (k : t.Told u) : s.Told u := by
  obtain ⟨mgmt, flt, rfl⟩ := h
  obtain ⟨mgmt', flt', rfl⟩ := k
  exact ⟨_, _, rfl⟩

theorem ite {c : Prop} [Decidable c] (ht : s.Told t) (hu : s.Told u) : s.Told (if c then t else u) := by
  split
  · exact ht
  · exact hu

theorem regs (h : s.Told t) : t.regs = s.regs := by
  obtain ⟨mgmt, flt, rfl⟩ := h
  rfl

theorem rif (h : s.Told t) : t.rif = s.rif := by
  obtain ⟨mgmt, flt, rfl⟩ := h
  rfl

theorem reacts (h : s.Told t) : s.Reacts t := by
  obtain ⟨mgmt, flt, rfl⟩ := h
  exact ⟨_, _, _, _, _, rfl⟩

end State.Told

namespace State

theorem told_blockReset (s : State) {b : Block} (hb : b = .safety ∨ b = .crc) : s.Told (s.blockReset b) := by
  have hreset : s.Told { s with flt := { s.flt with inReset := s.flt.inReset ++ [b] } } := ⟨_, _, rfl⟩
  refine .ite (.refl s) ?_
  have hnone (t : State) : t.blockClear b = t := by
    rcases hb with rfl | rfl
    · exact t.resetCommands_unserved (fun _ => rfl)
    · exact t.resetCommands_unserved (fun _ => rfl)
  rwa [hnone]

theorem told_controlReaction (s : State) {n : Nat} (hb : ServesNone n) : s.Told (s.controlReaction n) := by
  unfold State.controlReaction
  extract_lets resets s1 s2 s3 s4
  have h1 : s.Told s1 := .ite ⟨_, _, rfl⟩ (.refl s)
  clear_value s1
  have h2 : s.Told s2 := h1.trans (.ite ⟨_, _, rfl⟩ (.refl s1))
  clear_value s2
  have hblock : s2.Told (match blockOf n with
      | some b => s2.blockReset b
      | none => s2) := by
    rcases hb with hb | hb | hb
    · rw [hb]
      exact .refl s2
    · rw [hb]
      exact s2.told_blockReset (.inl rfl)
    · rw [hb]
      exact s2.told_blockReset (.inr rfl)
  have h3 : s.Told s3 := h2.trans (.ite hblock (.refl s2))
  clear_value s3
  have h4 : s.Told s4 := h3.trans (.ite ⟨_, _, rfl⟩ (.refl s3))
  clear_value s4
  exact h4.trans (.ite ⟨_, _, rfl⟩ (.refl s4))

/-- A raise of a control-class source: its record, its signalling and the timer, and a reaction that changes only the cores and the fault collector. -/
theorem told_raise (s : State) {n : Nat} (hc : Src.light n = false) (hb : ServesNone n) (locus : Option Nat) :
    ((((s.noteRaise n).recordRaise n locus).signalFault n).escalate n).Told (s.raise n locus) := by
  rw [raise_eq_raiseAt, State.raiseAt, if_neg (by simp [hc])]
  exact told_controlReaction _ hb

theorem reacts_raise_control (s : State) {n : Nat} (hc : Src.light n = false) (hb : ServesNone n) (locus : Option Nat) :
    s.Reacts (s.raise n locus) := by
  have hrecord : s.Reacts ((s.noteRaise n).recordRaise n locus) := ⟨_, _, _, _, _, rfl⟩
  exact ((hrecord.trans (reacts_signalFault ..)).trans (reacts_escalate ..)).trans (s.told_raise hc hb locus).reacts

/-! ## The check units (R309-R312) -/

theorem blockOf_safety {n : Nat} (hlo : 64 ≤ n) (hhi : n ≤ 95) : blockOf n = some .safety := by
  unfold blockOf
  rw [if_neg (by omega), if_neg (by omega), if_neg (by omega), if_pos ⟨hlo, hhi⟩]

theorem reacts_chkFail (s : State) {n : Nat} (hlo : 64 ≤ n) (hhi : n ≤ 95) : s.Reacts (s.chkFail n) := by
  have hflag : s.Reacts (s.flag Reg.SAF_EVENT_CHK) := .put (.refl s) ..
  have hcontrol : Src.light n = false := by
    simp only [Src.light, Bool.or_eq_false_iff, Bool.and_eq_false_iff, decide_eq_false_iff_not]
    omega
  exact hflag.trans (reacts_raise_control _ hcontrol (.inr (.inl (blockOf_safety hlo hhi))) none)

theorem reacts_chkAlive (s : State) {u : Nat} (hu : u < 8) (rec : List Byte) : s.Reacts (s.chkAlive u rec) := by
  unfold State.chkAlive
  extract_lets n off point v s1
  have h1 : s.Reacts s1 := .ite (reacts_chkFail s (by omega) (by omega)) (.refl s)
  exact .ite (.refl s) (.put (.put h1 ..) ..)

theorem reacts_chkRecord (s : State) {u : Nat} (hu : u < 8) (rec : List Byte) (given : Option Nat) : s.Reacts (s.chkRecord u rec given) := by
  have hrecords (v : Nat) : s.Reacts ((s.inc (Reg.CHK_RECORDS_COUNT u)).put (Reg.CHK_VALUE_VALUE u) v) := .put (.put (.refl s) ..) ..
  have hmiss (t : State) : t.Reacts ((t.inc (Reg.CHK_MISMATCHES_COUNT u)).chkFail (80 + u)) :=
    .trans (.put (.refl t) ..) (reacts_chkFail _ (by omega) (by omega))
  exact (hrecords (s.chkCompare u rec given).1).trans (.trans (.ite (.refl _) (hmiss _)) (reacts_chkAlive _ hu rec))

theorem reacts_chkSnoop (s : State) (point index : Nat) (rec : List Byte) : s.Reacts (s.chkSnoop point index rec) := by
  unfold State.chkSnoop
  refine List.foldlRecOn (motive := s.Reacts) (List.range 8) _ (.refl s) (fun t ht u hu => ht.trans ?_)
  split
  · exact reacts_chkRecord t (List.mem_range.1 hu) rec none
  · exact .refl t

end State

theorem State.Reacts.pnt {s t : State} (h : s.Reacts t) : t.pnt = s.pnt := by
  obtain ⟨regs, ch, mgmt, rif, flt, rfl⟩ := h
  rfl

theorem State.Reacts.now {s t : State} (h : s.Reacts t) : t.now = s.now := by
  obtain ⟨regs, ch, mgmt, rif, flt, rfl⟩ := h
  rfl

/-- The record of a stream that ends leaves the painter line and device time. -/
theorem State.chkStream_painter (s : State) : s.chkStream.pnt = s.pnt ∧ s.chkStream.now = s.now := by
  unfold State.chkStream
  split
  · exact ⟨rfl, rfl⟩
  · rw [State.chkStart, State.pnt_setSaf, State.now_setSaf]
    exact ⟨(s.reacts_chkSnoop 4 0 s.pnt.stream).pnt, (s.reacts_chkSnoop 4 0 s.pnt.stream).now⟩

end Sys2Proof.Machine
end

section

/-! # The split of drive words and the painter port (O15) -/

namespace Sys2Proof.Machine

/-! ## The split (R177) -/

/-- k of R177: ceil(D / 1,023). -/
def splitK (d : Nat) : Nat := (d + 1022) / 1023

/-- p of R177: D / k to the nearest integer, halves upward. -/
def splitP (d : Nat) : Nat := (2 * d + splitK d) / (2 * splitK d)

theorem splitK_bounds {d : Nat} (h0 : 0 < d) (hmax : d ≤ 64449) :
    1 ≤ splitK d ∧ splitK d ≤ 63 ∧ 1023 * (splitK d - 1) < d ∧ d ≤ 1023 * splitK d := by
  unfold splitK
  omega

/-- A quotient rounded to the nearest integer is at most half its divisor off. -/
theorem rounded_near (d k : Nat) (hk : 0 < k) :
    2 * d ≤ 2 * ((2 * d + k) / (2 * k) * k) + k ∧ 2 * ((2 * d + k) / (2 * k) * k) ≤ 2 * d + k := by
  have hsplit : 2 * k * ((2 * d + k) / (2 * k)) + (2 * d + k) % (2 * k) = 2 * d + k := Nat.div_add_mod ..
  have hrest : (2 * d + k) % (2 * k) < 2 * k := Nat.mod_lt _ (by omega)
  have hprod : 2 * k * ((2 * d + k) / (2 * k)) = 2 * ((2 * d + k) / (2 * k) * k) := by rw [Nat.mul_assoc, Nat.mul_comm k]
  omega

theorem splitP_bounds {d : Nat} (hk : 0 < splitK d) (hlo : 1023 * (splitK d - 1) < d) (hhi : d ≤ 1023 * splitK d) :
    1 ≤ splitP d ∧ splitP d ≤ 1023 := by
  have hpos : 0 < 2 * splitK d := by omega
  refine ⟨(Nat.le_div_iff_mul_le hpos).2 (by omega), Nat.lt_succ_iff.1 ((Nat.div_lt_iff_lt_mul hpos).2 (by omega))⟩

theorem splitWord_eq {d : Nat} (h : 0 < d) : splitWord d = splitK d * 1024 + splitP d := if_neg (by omega)

theorem wordK_splitWord {d : Nat} (h : 0 < d) (hp : splitP d ≤ 1023) : wordK (splitWord d) = splitK d := by
  rw [wordK, splitWord_eq h]
  omega

theorem wordP_splitWord {d : Nat} (h : 0 < d) (hp : splitP d ≤ 1023) : wordP (splitWord d) = splitP d := by
  rw [wordP, splitWord_eq h]
  omega

/-- Up to 1,023 the count alone is the value. -/
theorem splitWord_small {d : Nat} (h : 0 < d) (hd : d ≤ 1023) : splitWord d = 1024 + d := by
  have hk : splitK d = 1 := by
    unfold splitK
    omega
  rw [splitWord_eq h, splitP, hk]
  omega

/-! ## Streams (R217-R219) -/

theorem exec_painterStreamStart {s : State} (h : s.Ready) : exec .painterStreamStart s = .next s.painterStart := State.command_ready h _

theorem exec_painterStreamEnd {s : State} (h : s.Ready) : exec .painterStreamEnd s = .next s.chkStream.painterEnd :=
  State.command_ready h (fun s => s.chkStream.painterEnd)

theorem exec_painterZeroStream {s : State} (h : s.Ready) : exec .painterZeroStream s = .next s.painterZero := State.command_ready h _

namespace State

theorem painterStart_off {s : State} (h : s.actv Reg.PNT_CTRL_EN = 0 ∨ s.lights = false) : s.painterStart = s :=
  if_pos (by rcases h with h | h <;> simp [h])

section

variable {s : State} (hen : s.actv Reg.PNT_CTRL_EN ≠ 0) (hlit : s.lights = true) (hjoined : s.painterJoined = false)
include hen hlit hjoined

theorem painterStart_busy (hidle : s.painterIdle = false) :
    s.painterStart = (s.inc Reg.PNT_STATUS_SKIPPED).flag Reg.PNT_EVENT_SKIPPED := by
  rw [State.painterStart, if_neg (by simp [hen, hlit, hjoined]), if_pos (by simp [hidle])]

theorem painterStart_idle (hidle : s.painterIdle = true) : s.painterStart = s.painterStream := by
  rw [State.painterStart, if_neg (by simp [hen, hlit, hjoined]), if_neg (by simp [hidle])]

end

theorem satBytes_pos (s : State) : 0 < s.satBytes := by
  unfold State.satBytes
  split <;> decide

theorem streamBytes_pos {s : State} (h : 0 < s.actv Reg.PNT_CFG_COUNT) : 0 < s.streamBytes := Nat.mul_pos h s.satBytes_pos

/-- An extent that holds the whole stream holds it in whole satellites. -/
theorem streamBytes_fits {s : State} {n : Nat} (h : s.streamBytes ≤ n) : min s.streamBytes (n / s.satBytes * s.satBytes) = s.streamBytes := by
  refine Nat.min_eq_left (Nat.mul_le_mul_right _ ((Nat.le_div_iff_mul_le s.satBytes_pos).2 h))

/-- A stream of at least one byte makes the port BUSY. -/
theorem sendStream_some (s : State) {bytes : List Byte} (h : 0 < bytes.length) (zero : Bool) :
    s.sendStream bytes zero = State.put { s with pnt := { s.pnt with stream := bytes, zeroing := zero } } Reg.PNT_STATUS_BUSY 1 :=
  if_neg (by simpa using List.ne_nil_of_length_pos h)

theorem painterStream_none {s : State} (h : s.liveFor (s.actv Reg.PNT_CFG_HOME) = none) : s.painterStream = s.painterFault := by
  rw [State.painterStream, h]
  rfl

/-- The stream of a LIVE berth of format 6 that holds it whole. -/
theorem painterStream_whole {s : State} {b : Fin 64} (hlive : s.liveFor (s.actv Reg.PNT_CFG_HOME) = some b)
    (hfmt : s.rd (Reg.BAS_BERTH_FMT_FORMAT b) = 6) (hmode : s.modeOf ≠ .egress) (hcount : 0 < s.actv Reg.PNT_CFG_COUNT)
    (hsize : s.streamBytes ≤ s.berthSize b) :
    s.painterStream = State.put { s with pnt := { s.pnt with stream := s.bas.bytes (s.berthBase b) s.streamBytes, zeroing := false } }
      Reg.PNT_STATUS_BUSY 1 := by
  have hbytes : 0 < (s.bas.bytes (s.berthBase b) s.streamBytes).length := by
    simpa [Basin.bytes] using streamBytes_pos hcount
  simp only [State.painterStream, hlive, Option.bind_eq_bind, Option.bind_some, Option.pure_def, Option.filter_some, hfmt, decide_true, if_true,
    streamBytes_fits hsize, hmode, decide_false, Bool.false_and, Bool.false_eq_true, if_false, Nat.lt_irrefl]
  exact sendStream_some s hbytes false

theorem painterEnd_nil {s : State} (h : s.pnt.stream = []) : s.painterEnd = s := if_pos (by simp [h])

/-- The end of a stream: the line is low from now on, the port is no longer BUSY, and SENT is set. -/
theorem painterEnd_sent {s : State} (h : s.pnt.stream ≠ []) : s.painterEnd.pnt.stream = [] ∧ s.painterEnd.pnt.lowSince = s.now ∧
    s.painterEnd.rd Reg.PNT_STATUS_BUSY = 0 ∧ s.painterEnd.on Reg.PNT_EVENT_SENT = true := by
  rw [State.painterEnd, if_neg (by simpa using h)]
  refine ⟨rfl, rfl, ?_, on_flag_self _ (by decide)⟩
  rw [rd_flag_other _ (by decide), rd_inc_other _ _ (by decide), rd_put_self, Nat.zero_mod]

theorem painterZero_due {s : State} (hdue : s.pnt.zeroDue = true) (hlit : s.lights = false) (hidle : s.painterIdle = true)
    (hjoined : s.painterJoined = false) (hcount : 0 < s.actv Reg.PNT_CFG_COUNT) :
    s.painterZero = State.put { s with pnt := { s.pnt with zeroDue := false, stream := List.replicate s.streamBytes 0#8, zeroing := true } }
      Reg.PNT_STATUS_BUSY 1 := by
  rw [State.painterZero, if_pos (by simp [hdue, hlit, hidle, hjoined])]
  exact sendStream_some _ (by simpa using streamBytes_pos hcount) true

theorem painterZero_idle {s : State} (h : s.pnt.zeroDue = false) : s.painterZero = s := if_neg (by simp [h])

end State

/-- Settles O15: the split by the bounds of its quotient and of its rounding, each row of the painter by the conditions of its stream. -/
theorem driveWordsAndPainter : Obligations.DriveWordsAndPainter := by
  unfold Obligations.DriveWordsAndPainter
  refine ⟨fun d h0 hmax => ?_, fun s h => ⟨fun hoff => ?_, fun hen hlit hjoined => ⟨fun hidle => ?_, fun hidle hnone => ?_,
    fun b hidle hlive hfmt hmode hcount hsize => ?_⟩, ?_, fun hdue hlit hidle hjoined hcount => ?_, fun hdue => ?_⟩⟩
  · obtain ⟨hk1, hk63, hlo, hhi⟩ := splitK_bounds h0 hmax
    obtain ⟨hp1, hp⟩ := splitP_bounds hk1 hlo hhi
    obtain ⟨hunder, hover⟩ := rounded_near d (splitK d) hk1
    rw [wordK_splitWord h0 hp, wordP_splitWord h0 hp]
    exact ⟨hk1, hk63, hlo, hhi, hp1, hp, hunder, hover, splitWord_small h0, rfl⟩
  · rw [exec_painterStreamStart h, State.painterStart_off hoff]
  · rw [exec_painterStreamStart h, State.painterStart_busy hen hlit hjoined hidle]
  · rw [exec_painterStreamStart h, State.painterStart_idle hen hlit hjoined hidle, State.painterStream_none hnone, State.painterFault]
  · rw [exec_painterStreamStart h, State.painterStart_idle hen hlit hjoined hidle, State.painterStream_whole hlive hfmt hmode hcount hsize]
  · obtain ⟨hpnt, hnow⟩ := s.chkStream_painter
    refine ⟨_, exec_painterStreamEnd h, ?_⟩
    by_cases hs : s.pnt.stream = []
    · have hnil : s.chkStream.pnt.stream = [] := by rw [hpnt, hs]
      rw [State.painterEnd_nil hnil]
      exact ⟨hnil, fun hne => absurd hs hne⟩
    · obtain ⟨hstream, hlow, hbusy, hsent⟩ := State.painterEnd_sent (s := s.chkStream) (by rwa [hpnt])
      exact ⟨hstream, fun _ => ⟨hlow.trans hnow, hbusy, hsent⟩⟩
  · rw [exec_painterZeroStream h, State.painterZero_due hdue hlit hidle hjoined hcount]
  · rw [exec_painterZeroStream h, State.painterZero_idle hdue]

end Sys2Proof.Machine
end

section

/-! # The trim store and the configuration CRC (O38) -/

namespace Sys2Proof.Machine

/-! ## Writes of the trim store (R171-R173) -/

namespace State

theorem trimWrite_misaligned (s : State) {off : Nat} (h : off % 4 ≠ 0) (data : List Byte) : (s.trimWrite off data).1 = s.trimRefuse off 3 := by
  rw [State.trimWrite, if_pos (.inl h)]

theorem trimWrite_refused {s : State} {off c : Nat} (h : off % 4 = 0) {data : List Byte} (hlen : data.length = 4) (hc : s.trimRefusal off = some c) :
    (s.trimWrite off data).1 = s.trimRefuse off c := by
  rw [State.trimWrite, if_neg (by simp [h, hlen]), hlen]
  simp only [Nat.div_self (show 0 < 4 by decide), State.trimWords, hc]

theorem trimWrite_lands {s : State} {off : Nat} (h : off % 4 = 0) {data : List Byte} (hlen : data.length = 4) (hc : s.trimRefusal off = none) :
    (s.trimWrite off data).1 = s.trimLand off data := by
  rw [State.trimWrite, if_neg (by simp [h, hlen]), hlen]
  simp only [Nat.div_self (show 0 < 4 by decide), State.trimWords, hc, List.take_of_length_le hlen.le]

theorem trimRefusal_lt {s : State} {off c : Nat} (h : s.trimRefusal off = some c) : c < 4 := by
  unfold State.trimRefusal at h
  split_ifs at h <;> simp at h <;> omega

/-- A refusal: its record in TRM_REFUSE and FS132, and the trim stage as it was. -/
theorem trimRefuse_records (s : State) {off c : Nat} (hoff : off < 2 ^ 23) (hc : c < 4) :
    (s.trimRefuse off c).trim = s.trim ∧ (s.trimRefuse off c).sticky 132 = true ∧ (s.trimRefuse off c).rd Reg.TRM_REFUSE_CAUSE = c ∧
      (s.trimRefuse off c).rd Reg.TRM_REFUSE_OFFSET = off := by
  have hrd {g : Fld} (hg : lowKey g.key = true) :
      (s.trimRefuse off c).rd g = (((s.flag Reg.TRM_REFUSE_VALID).put Reg.TRM_REFUSE_CAUSE c).put Reg.TRM_REFUSE_OFFSET off).rd g :=
    (leaves_raise _ (by decide) none).rd g hg
  refine ⟨trim_raise _ (by decide) none, sticky_raise _ (by decide) (.inl (by decide)) none, ?_, ?_⟩
  · rw [hrd (by decide), rd_put_other _ _ (by decide), rd_put_fits _ hc]
  · rw [hrd (by decide), rd_put_fits _ hoff]

theorem ts_tsSet_other (s : State) {a b : Nat} (v : Nat) (h : a ≠ b) : (s.tsSet a v).ts b = s.ts b := by
  rw [State.ts, State.tsSet, Sparse.get_set_other _ _ _ _ h, State.ts]

/-- Bytes of the trim store are set one after another, from an offset upward. -/
def tsFill (s : State) (off : Nat) (v : Nat → Nat) (n : Nat) : State := (List.range n).foldl (fun s i => s.tsSet (off + i) (v i)) s

theorem tsFill_succ (s : State) (off : Nat) (v : Nat → Nat) (n : Nat) : s.tsFill off v (n + 1) = (s.tsFill off v n).tsSet (off + n) (v n) := by
  rw [tsFill, List.range_succ, List.foldl_append]
  rfl

theorem tsFill_frame (s : State) (off : Nat) (v : Nat → Nat) (n : Nat) :
    (s.tsFill off v n).regs = s.regs ∧ (s.tsFill off v n).trim.failed = s.trim.failed := by
  induction n with
  | zero => exact ⟨rfl, rfl⟩
  | succ n ih =>
    rw [tsFill_succ]
    exact ih

theorem ts_tsFill_outside (s : State) {off a n : Nat} (v : Nat → Nat) (h : a < off ∨ off + n ≤ a) : (s.tsFill off v n).ts a = s.ts a := by
  induction n with
  | zero => rfl
  | succ n ih => rw [tsFill_succ, ts_tsSet_other _ _ (by omega), ih (by omega)]

theorem ts_tsFill_in (s : State) {off i n : Nat} (v : Nat → Nat) (h : i < n) : (s.tsFill off v n).ts (off + i) = v i % 256 := by
  induction n with
  | zero => exact absurd h (Nat.not_lt_zero i)
  | succ n ih =>
    rw [tsFill_succ]
    rcases Nat.lt_succ_iff_lt_or_eq.1 h with hlt | rfl
    · rw [ts_tsSet_other _ _ (by omega), ih hlt]
    · exact ts_tsSet_self ..

/-- An 8 B word of the trim store is rewritten, which ends its lasting error (R173). -/
def rewritten (s : State) (w : Nat) : State := { s with trim := { s.trim with failed := s.trim.failed.filter (· ≠ w) } }

theorem not_failed_rewritten (s : State) (w : Nat) : w ∉ (s.rewritten w).trim.failed := by simp [rewritten]

theorem trimLand_eq (s : State) (off : Nat) (bs : List Byte) :
    s.trimLand off bs = (s.rewritten (off / 8)).tsFill off (fun i => leAt bs i 1 % trimMask (off + i)) 4 := rfl

end State

/-- A byte of a word of the trim store fits in eight bits, whatever of it reads 0. -/
theorem mod_trimMask_lt (v a : Nat) : v % trimMask a < 256 := by
  unfold trimMask
  split
  · exact (Nat.mod_lt v (by decide)).trans (by decide)
  · exact Nat.mod_lt v (by decide)

theorem exec_trimStoreWrite {s : State} (h : s.Ready) (off : BitVec 23) (data : List Byte) :
    exec (.trimStoreWrite off data) s = .next (s.trimWrite off.toNat data).1 := State.command_ready h (fun s => (s.trimWrite off.toNat data).1)

/-! ## RIF_CRC_CTRL (R408, R417, R418) -/

theorem testBit_setBit_clear (n i : Nat) : (setBit n i false).testBit i = false := by
  unfold setBit
  cases h : n.testBit i with
  | false => rw [if_pos rfl, h]
  | true =>
    rw [if_neg (by decide), if_neg (by decide)]
    have hadd := Nat.testBit_two_pow_add_eq (n - 2 ^ i) i
    rw [Nat.add_sub_of_le (Nat.ge_two_pow_of_testBit h), h] at hadd
    simpa using hadd.symm

theorem testBit_setBit (n i : Nat) (b : Bool) : (setBit n i b).testBit i = b := by
  cases b with
  | false => exact testBit_setBit_clear n i
  | true => exact testBit_setBit_self n i

/-- A word in which one bit is replaced by another value. -/
theorem replaceBit_eq_setBit (w i : Nat) (b : Bool) : w - (w &&& 2 ^ i) + 2 ^ i * b2n b = setBit w i b := by
  rw [Nat.and_two_pow, setBit]
  cases hw : w.testBit i with
  | false => cases b <;> simp [b2n]
  | true =>
    have hle : 2 ^ i ≤ w := Nat.ge_two_pow_of_testBit hw
    cases b with
    | false => simp [b2n]
    | true => simp [b2n, Nat.sub_add_cancel hle]

theorem leBytes_mod (v n : Nat) : leBytes (v % 256 ^ n) n = leBytes v n := by
  induction n generalizing v with
  | zero => rfl
  | succ n ih =>
    have hlow : v % 256 ^ (n + 1) % 256 = v % 256 := Nat.mod_mod_of_dvd v (Dvd.intro_left _ (Nat.pow_succ ..).symm)
    have hhigh : v % 256 ^ (n + 1) / 256 = v / 256 % 256 ^ n := by rw [Nat.pow_succ', Nat.mod_mul_right_div_self]
    have hbyte : BitVec.ofNat 8 (v % 256 ^ (n + 1)) = BitVec.ofNat 8 v := BitVec.eq_of_toNat_eq (by simpa only [BitVec.toNat_ofNat] using hlow)
    rw [leBytes, leBytes, hhigh, ih, hbyte]

/-- What a word write of RIF_CRC_CTRL leaves: HOLD and EN, the sweeps under HOLD counted anew, and the latch pending. -/
def State.crcCtrl (s : State) (w : Nat) : State :=
  let s := s.writeField (s.put Reg.RIF_CRC_CTRL_HOLD (w / 2 % 2)) w Reg.RIF_CRC_CTRL_EN
  let s := if w.testBit 1 then { s with rif := { s.rif with holdSweeps := 0 } } else s
  if w.testBit 2 then State.put { s with rif := { s.rif with latch := true } } Reg.RIF_CRC_STATUS_PENDING 1 else s

theorem State.writeWord_crcCtrl (s : State) (who : Sys2Proof.Requester) (addr w : Nat) :
    s.writeWord who addr 0xE000 w 0xFFFFFFFF = s.crcCtrl w := rfl

namespace State

/-- A word write in which one bit of RIF_CRC_CTRL takes a value. -/
theorem writeBits_crcCtrl {s : State} {who : Sys2Proof.Requester} (h : s.Ready) (hw : s.MayWrite who 0xE000) (i : Nat) (b : Bool) :
    s.writeBits who 0xE000 (2 ^ i) (2 ^ i * b2n b) = s.crcCtrl (setBit (s.regWord 0xE000) i b % 2 ^ 32) := by
  have hmod (v : Nat) : s.writeReg who 0xE000 v = s.writeReg who 0xE000 (v % 2 ^ 32) := by
    have hbytes : leBytes (v % 2 ^ 32) 4 = leBytes v 4 := leBytes_mod v 4
    rw [State.writeReg, State.writeReg, hbytes]
  rw [State.writeBits, replaceBit_eq_setBit, hmod,
    State.writeReg_eq_writeWord h.2 hw rfl (by decide) (by decide) (Nat.mod_lt _ (by decide)), State.writeWord_crcCtrl]

/-- The bit that the write has set or cleared. -/
theorem testBit_written (w : Nat) {i : Nat} (hi : i < 32) (b : Bool) : (setBit w i b % 2 ^ 32).testBit i = b := by
  rw [Nat.testBit_mod_two_pow, testBit_setBit, decide_eq_true hi, Bool.true_and]

/-- Beside PENDING, the registers are those that the fields of the write have left. -/
theorem rd_crcCtrl (s : State) (w : Nat) {g : Fld} (hg : Reg.RIF_CRC_STATUS_PENDING.key ≠ g.key) :
    (s.crcCtrl w).rd g = (s.writeField (s.put Reg.RIF_CRC_CTRL_HOLD (w / 2 % 2)) w Reg.RIF_CRC_CTRL_EN).rd g := by
  unfold State.crcCtrl
  extract_lets s1 rif s2
  have h2 : s2.rd g = s1.rd g := by
    unfold s2
    split <;> rfl
  split
  · exact (rd_put_other _ _ hg).trans h2
  · exact h2

theorem on_hold_crcCtrl (s : State) (w : Nat) : (s.crcCtrl w).on Reg.RIF_CRC_CTRL_HOLD = w.testBit 1 := by
  have hrd : (s.crcCtrl w).rd Reg.RIF_CRC_CTRL_HOLD = w / 2 % 2 := by
    have hfits : w / 2 % 2 < 2 ^ Reg.RIF_CRC_CTRL_HOLD.w := Nat.mod_lt _ (by decide)
    rw [rd_crcCtrl s w (by decide), State.writeField]
    split
    · rw [rd_put_other _ _ (by decide), rd_put_fits _ hfits]
    · rw [rd_put_fits _ hfits]
  rw [State.on, hrd, Nat.testBit_eq_decide_div_mod_eq]
  rcases Nat.mod_two_eq_zero_or_one (w / 2) with h | h <;> simp [h]

theorem on_en_crcCtrl (s : State) {w : Nat} (h : w.testBit 0 = true) : (s.crcCtrl w).on Reg.RIF_CRC_CTRL_EN = true := by
  have hodd : w % 2 = 1 := by simpa using h
  have hopen : Reg.RIF_CRC_CTRL_EN ≠ Reg.SEQ_CTRL_RUN ∧ s.fieldOpen Reg.RIF_CRC_CTRL_EN (w / 2 ^ 0 % 2 ^ 1) = true :=
    ⟨by decide, by simp [State.fieldOpen, hodd]⟩
  have hrd : (s.crcCtrl w).rd Reg.RIF_CRC_CTRL_EN = 1 := by
    rw [rd_crcCtrl s w (by decide), State.writeField, if_pos hopen, rd_put_self]
    simp [Clamp.apply, hodd]
  rw [State.on, hrd]
  rfl

theorem latch_crcCtrl (s : State) {w : Nat} (h : w.testBit 2 = true) :
    (s.crcCtrl w).rif.latch = true ∧ (s.crcCtrl w).on Reg.RIF_CRC_STATUS_PENDING = true := by
  unfold State.crcCtrl
  extract_lets s1 rif s2
  rw [if_pos h]
  exact ⟨rfl, on_flag_self _ (by decide)⟩

/-- A write that sets HOLD begins its count of sweeps. -/
theorem holdSweeps_crcCtrl (s : State) {w : Nat} (h : w.testBit 1 = true) : (s.crcCtrl w).rif.holdSweeps = 0 := by
  unfold State.crcCtrl
  extract_lets s1 rif s2
  have h2 : s2.rif.holdSweeps = 0 := by
    unfold s2
    rw [if_pos h]
  split
  · exact h2
  · exact h2

end State

section

variable {s : State} {who : Sys2Proof.Requester} (h : s.Ready) (hw : s.MayWrite who 0xE000)
include h hw

theorem exec_crcCommit : exec (.crcCommit who) s = .next (s.crcCtrl (setBit (s.regWord 0xE000) 2 true % 2 ^ 32)) :=
  (State.command_ready h (fun s => s.writeBits who 0xE000 4 4)).trans (congrArg _ (State.writeBits_crcCtrl h hw 2 true))

theorem exec_crcHold (on : Bool) : exec (.crcHold who on) s = .next (s.crcCtrl (setBit (s.regWord 0xE000) 1 on % 2 ^ 32)) :=
  (State.command_ready h (fun s => s.writeBits who 0xE000 2 (2 * b2n on))).trans (congrArg _ (State.writeBits_crcCtrl h hw 1 on))

theorem exec_crcEn : exec (.crcEn who) s = .next (s.crcCtrl (setBit (s.regWord 0xE000) 0 true % 2 ^ 32)) :=
  (State.command_ready h (fun s => s.writeBits who 0xE000 1 1)).trans (congrArg _ (State.writeBits_crcCtrl h hw 0 true))

end

/-! ## The end of HOLD (R417) -/

theorem exec_holdExpire {s : State} (h : s.Ready) : exec .holdExpire s = .next s.holdExpire := State.command_ready h _

theorem State.holdExpire_ends {s : State} (hon : s.on Reg.RIF_CRC_CTRL_HOLD = true) (hn : 16384 ≤ s.rif.holdSweeps) :
    s.holdExpire = State.put { s with rif := { s.rif with holdSweeps := 0 } } Reg.RIF_CRC_CTRL_HOLD 0 := if_pos (by simp [hon, hn])

theorem State.holdExpire_idle {s : State} (h : s.on Reg.RIF_CRC_CTRL_HOLD = false ∨ s.rif.holdSweeps < 16384) : s.holdExpire = s :=
  if_neg (by rcases h with h | h <;> simp [h])

/-! ## Sweeps (R416-R418) -/

theorem exec_crcSweep {s : State} (h : s.Ready) : exec .crcSweep s = .next s.crcSweep := State.command_ready h _

/-- The CRCs of the first n blocks are reported. -/
def State.putBlockCrcs (s : State) (v : Nat → Nat) (n : Nat) : State := (List.range n).foldl (fun s b => s.put (Reg.RIF_BLOCK_CRC_CRC b) (v b)) s

namespace State

theorem putBlockCrcs_succ (s : State) (v : Nat → Nat) (n : Nat) :
    s.putBlockCrcs v (n + 1) = (s.putBlockCrcs v n).put (Reg.RIF_BLOCK_CRC_CRC n) (v n) := by
  rw [putBlockCrcs, List.range_succ, List.foldl_append]
  rfl

/-- Of the state, reports of CRCs change registers. -/
theorem putBlockCrcs_frame (s : State) (v : Nat → Nat) (n : Nat) : (s.putBlockCrcs v n).rif = s.rif ∧ (s.putBlockCrcs v n).flt = s.flt := by
  induction n with
  | zero => exact ⟨rfl, rfl⟩
  | succ n ih =>
    rw [putBlockCrcs_succ]
    exact ih

theorem rd_putBlockCrcs_below (s : State) (v : Nat → Nat) (n : Nat) {g : Fld} (hg : g.key < 0xE100 * 32) : (s.putBlockCrcs v n).rd g = s.rd g := by
  induction n with
  | zero => rfl
  | succ n ih =>
    have hkey : (Reg.RIF_BLOCK_CRC_CRC n).key ≠ g.key := by
      have : 0xE100 * 32 ≤ (Reg.RIF_BLOCK_CRC_CRC n).key := by
        simp only [Fld.key]
        omega
      omega
    rw [putBlockCrcs_succ, rd_put_other _ _ hkey, ih]

theorem rd_putBlockCrcs (s : State) (v : Nat → Nat) {b n : Nat} (h : b < n) : (s.putBlockCrcs v n).rd (Reg.RIF_BLOCK_CRC_CRC b) = v b % 2 ^ 32 := by
  induction n with
  | zero => exact absurd h (Nat.not_lt_zero b)
  | succ n ih =>
    rw [putBlockCrcs_succ]
    rcases Nat.lt_succ_iff_lt_or_eq.1 h with hlt | rfl
    · have hkey : (Reg.RIF_BLOCK_CRC_CRC n).key ≠ (Reg.RIF_BLOCK_CRC_CRC b).key := by
        simp only [Fld.key]
        omega
      rw [rd_put_other _ _ hkey, ih hlt]
    · exact rd_put_self ..

/-- What a sweep reports: each block's CRC, the whole's, and the count. -/
def reported (s : State) (crcs : List Nat) (live : Nat) : State :=
  ((s.putBlockCrcs (fun b => crcs[b]?.getD (crc32c [])) 16).put Reg.RIF_CRC_LIVE_CRC live).incMod Reg.RIF_CRC_SWEEPS_COUNT

theorem reported_frame (s : State) (crcs : List Nat) (live : Nat) : (s.reported crcs live).rif = s.rif ∧ (s.reported crcs live).flt = s.flt := by
  rw [reported, rif_incMod, rif_put, flt_incMod, flt_put]
  exact s.putBlockCrcs_frame ..

/-- A sweep under HOLD counts toward its end besides. -/
theorem noteSweep_eq (s : State) (crcs : List Nat) (live : Nat) :
    ∃ n, s.noteSweep crcs live = { s.reported crcs live with rif := { s.rif with holdSweeps := n } } := by
  have hnote : s.noteSweep crcs live = if (s.reported crcs live).on Reg.RIF_CRC_CTRL_HOLD
      then { s.reported crcs live with rif := { (s.reported crcs live).rif with holdSweeps := (s.reported crcs live).rif.holdSweeps + 1 } }
      else s.reported crcs live := by
    unfold State.noteSweep reported putBlockCrcs
    rfl
  rw [hnote, ← (s.reported_frame crcs live).1]
  split
  · exact ⟨_, rfl⟩
  · exact ⟨_, rfl⟩

/-- What a sweep reports, read back. -/
theorem rd_reported (s : State) (crcs : List Nat) (live : Nat) :
    (s.reported crcs live).rd Reg.RIF_CRC_LIVE_CRC = live % 2 ^ 32 ∧
      (s.reported crcs live).rd Reg.RIF_CRC_SWEEPS_COUNT = (s.rd Reg.RIF_CRC_SWEEPS_COUNT + 1) % 2 ^ 32 ∧
      (∀ b < 16, (s.reported crcs live).rd (Reg.RIF_BLOCK_CRC_CRC b) = crcs[b]?.getD (crc32c []) % 2 ^ 32) := by
  unfold reported
  refine ⟨?_, ?_, fun b hb => ?_⟩
  · rw [rd_incMod_other _ _ (by decide), rd_put_self]
  · rw [State.incMod, rd_put_self, rd_put_other _ _ (by decide), rd_putBlockCrcs_below _ _ _ (by decide)]
  · have hkey {f : Fld} (hf : f.key < 0xE100 * 32) : f.key ≠ (Reg.RIF_BLOCK_CRC_CRC b).key := by
      have : 0xE100 * 32 ≤ (Reg.RIF_BLOCK_CRC_CRC b).key := by
        simp only [Fld.key]
        omega
      omega
    rw [rd_incMod_other _ _ (hkey (by decide)), rd_put_other _ _ (hkey (by decide)), rd_putBlockCrcs _ _ hb]

/-- The reference, the control bits and the live words come before what a sweep reports. -/
theorem rd_reported_before (s : State) (crcs : List Nat) (live : Nat) {g : Fld} (hg : g.key < 0xE008 * 32) :
    (s.reported crcs live).rd g = s.rd g := by
  have hkey {f : Fld} (hf : 0xE008 * 32 ≤ f.key) : f.key ≠ g.key := by omega
  rw [reported, rd_incMod_other _ _ (hkey (by decide)), rd_put_other _ _ (hkey (by decide)), rd_putBlockCrcs_below _ _ _ (by omega)]

/-! ## The comparison (R417) -/

/-- A comparison's result is noted: TRANSIENTS where a match follows a mismatch that FS180 has not made live, and MISMATCH. -/
def compared (s : State) (live : Nat) : State :=
  let bad := live != s.rd Reg.RIF_CRC_REF_CRC
  let s := if !bad && s.rif.lastMismatch == some true && !s.live 180 then s.inc Reg.RIF_CRC_TRANSIENTS_COUNT else s
  State.put { s with rif := { s.rif with lastMismatch := some bad } } Reg.RIF_CRC_STATUS_MISMATCH (b2n bad)

theorem crcCompare_match {s : State} {live : Nat} (h : live = s.rd Reg.RIF_CRC_REF_CRC) :
    s.crcCompare live = (s.compared live).condition 180 false := by
  have hbad : (live != s.rd Reg.RIF_CRC_REF_CRC) = false := by simp [h]
  simp only [State.crcCompare, State.compared, hbad, Bool.false_and, Bool.false_eq_true, if_false]

theorem crcCompare_mismatch {s : State} {live : Nat} (h : live ≠ s.rd Reg.RIF_CRC_REF_CRC) :
    s.crcCompare live = if s.rif.lastMismatch = some true then (s.compared live).condition 180 true else s.compared live := by
  have hbad : (live != s.rd Reg.RIF_CRC_REF_CRC) = true := by simp [h]
  simp only [State.crcCompare, State.compared, hbad, Bool.true_and, beq_iff_eq, if_true]

/-- The keys of the configuration CRC's register fields, and all keys above them. -/
def crcKey (k : Nat) : Bool := decide (0xE000 * 32 ≤ k) && decide (k < 0xE020 * 32) || decide (0xE100 * 32 ≤ k)

theorem beyondReaction_of_crcKey (k : Nat) (h : crcKey k = true) : beyondReaction k = true := by
  have hfields : ∀ f ∈ reactionFields, crcKey f.key = false := by decide
  refine List.all_eq_true.2 (fun f hf => bne_iff_ne.2 (fun he => ?_))
  rw [← he, hfields f hf] at h
  exact absurd h (by decide)

theorem leaves_told {P : Nat → Bool} {s t : State} (h : s.Told t) : s.Leaves P t := by
  obtain ⟨mgmt, flt, rfl⟩ := h
  exact .of_same

theorem crc_leaves_raise (s : State) : s.Leaves crcKey (s.raise 180) := by
  have hlive : crcKey (Reg.FLT_LIVE_LIVE (180 / 32)).key = false := by decide
  have hsticky : crcKey (Reg.FLT_STICKY_STICKY (180 / 32)).key = false := by decide
  have hcount : crcKey (Reg.FLT_REACT_COUNT 180).key = false := by decide
  have hnote : s.Leaves crcKey (s.noteRaise 180) := .trans (.putBit (.refl _ s) hlive) .of_same
  have hrecord : s.Leaves crcKey ((s.noteRaise 180).recordRaise 180 none) := hnote.trans (.trans (.inc (.putBit (.refl _ _) hsticky) hcount) .of_same)
  have htold := (signalFault_leaves ((s.noteRaise 180).recordRaise 180 none) 180).trans (escalate_leaves _ 180)
  exact (hrecord.trans (htold.mono beyondReaction_of_crcKey)).trans (leaves_told (s.told_raise (by decide) (.inr (.inr rfl)) none))

theorem crc_leaves_condition (s : State) (b : Bool) : s.Leaves crcKey (s.condition 180 b) :=
  .ite (.ite (.refl _ s) (crc_leaves_raise s)) (.putBit (.refl _ s) (by decide))

theorem lastMismatch_signalFault (s : State) (n : Nat) : (s.signalFault n).rif.lastMismatch = s.rif.lastMismatch := by
  have hsend (t : State) (code arg : Nat) (payload : List Byte) : (t.sendMsg code arg payload).rif.lastMismatch = t.rif.lastMismatch := by
    unfold State.sendMsg
    split <;> rfl
  simp only [State.signalFault]
  split
  · split
    · exact hsend ..
    · rfl
  · rfl

theorem rif_escalate (s : State) (n : Nat) : (s.escalate n).rif = s.rif := by
  unfold State.escalate
  split <;> rfl

theorem lastMismatch_condition (s : State) (b : Bool) : (s.condition 180 b).rif.lastMismatch = s.rif.lastMismatch := by
  have hraise : (s.raise 180).rif.lastMismatch = s.rif.lastMismatch := by
    rw [(s.told_raise (by decide) (.inr (.inr rfl)) none).rif, rif_escalate, lastMismatch_signalFault]
    rfl
  unfold State.condition
  split
  · split
    · rfl
    · exact hraise
  · rfl

/-- FS180 is no source whose live bit follows a link. -/
theorem live_crc (s : State) : s.live 180 = s.bitOf (Reg.FLT_LIVE_LIVE 5) 20 := by simp [State.live]

theorem live_condition_false (s : State) : (s.condition 180 false).live 180 = false := by
  rw [live_crc, State.bitOf]
  change ((s.putBit (Reg.FLT_LIVE_LIVE 5) 20 false).rd (Reg.FLT_LIVE_LIVE 5)).testBit 20 = false
  rw [State.putBit, rd_put_self, Nat.testBit_mod_two_pow, testBit_setBit_clear, Bool.and_false]

/-- What the comparison notes. -/
theorem compared_notes (s : State) (live : Nat) : (s.compared live).rif.lastMismatch = some (live != s.rd Reg.RIF_CRC_REF_CRC) ∧
    (s.compared live).on Reg.RIF_CRC_STATUS_MISMATCH = (live != s.rd Reg.RIF_CRC_REF_CRC) := by
  refine ⟨rfl, ?_⟩
  have hrd : (s.compared live).rd Reg.RIF_CRC_STATUS_MISMATCH = b2n (live != s.rd Reg.RIF_CRC_REF_CRC) % 2 ^ 1 := rd_put_self ..
  rw [State.on, hrd]
  cases live != s.rd Reg.RIF_CRC_REF_CRC <;> rfl

/-- MISMATCH and TRANSIENTS are the only registers of it. -/
theorem rd_compared (s : State) (live : Nat) {g : Fld} (hm : Reg.RIF_CRC_STATUS_MISMATCH.key ≠ g.key)
    (ht : Reg.RIF_CRC_TRANSIENTS_COUNT.key ≠ g.key) : (s.compared live).rd g = s.rd g := by
  unfold compared
  extract_lets bad s1
  have h1 : s1.rd g = s.rd g := by
    unfold s1
    split
    · exact rd_inc_other _ _ ht
    · rfl
  exact (rd_put_other _ _ hm).trans h1

/-- A comparison and what follows of it leave what the sweep has reported. -/
theorem rd_crcCompare (s : State) (live : Nat) {g : Fld} (hg : crcKey g.key = true) (hm : Reg.RIF_CRC_STATUS_MISMATCH.key ≠ g.key)
    (ht : Reg.RIF_CRC_TRANSIENTS_COUNT.key ≠ g.key) : (s.crcCompare live).rd g = s.rd g := by
  have hcompared := s.rd_compared live hm ht
  by_cases h : live = s.rd Reg.RIF_CRC_REF_CRC
  · rw [crcCompare_match h, (crc_leaves_condition _ false).rd g hg, hcompared]
  · rw [crcCompare_mismatch h]
    split
    · rw [(crc_leaves_condition _ true).rd g hg, hcompared]
    · exact hcompared

/-- A match: MISMATCH reads 0, and FS180 is live no longer. -/
theorem crcCompare_matches {s : State} {live : Nat} (h : live = s.rd Reg.RIF_CRC_REF_CRC) :
    (s.crcCompare live).on Reg.RIF_CRC_STATUS_MISMATCH = false ∧ (s.crcCompare live).live 180 = false ∧
      (s.crcCompare live).rif.lastMismatch = some false := by
  obtain ⟨hlast, hon⟩ := s.compared_notes live
  have hbad : (live != s.rd Reg.RIF_CRC_REF_CRC) = false := by simp [h]
  rw [hbad] at hlast hon
  rw [crcCompare_match h]
  exact ⟨(on_congr ((crc_leaves_condition _ false).rd _ (by decide))).trans hon, live_condition_false _, (lastMismatch_condition _ false).trans hlast⟩

/-- A mismatch: MISMATCH reads 1, and FS180 is live where the one before was a mismatch too. -/
theorem crcCompare_mismatches {s : State} {live : Nat} (h : live ≠ s.rd Reg.RIF_CRC_REF_CRC) :
    (s.crcCompare live).on Reg.RIF_CRC_STATUS_MISMATCH = true ∧ (s.crcCompare live).rif.lastMismatch = some true ∧
      (s.rif.lastMismatch = some true → (s.crcCompare live).live 180 = true) ∧
      (s.rif.lastMismatch ≠ some true → (s.crcCompare live).live 180 = s.live 180) := by
  obtain ⟨hlast, hon⟩ := s.compared_notes live
  have hbad : (live != s.rd Reg.RIF_CRC_REF_CRC) = true := by simp [h]
  rw [hbad] at hlast hon
  rw [crcCompare_mismatch h]
  split
  · next htwice =>
    exact ⟨(on_congr ((crc_leaves_condition _ true).rd _ (by decide))).trans hon, (lastMismatch_condition _ true).trans hlast,
      fun _ => live_condition _ (by decide) none, fun hne => absurd htwice hne⟩
  · next hone =>
    refine ⟨hon, hlast, fun he => absurd he hone, fun _ => ?_⟩
    rw [live_crc, live_crc]
    exact bitOf_congr (s.rd_compared live (by decide) (by decide)) 20

/-! ## Whole sweeps (R416-R418) -/

/-- The latch takes the sweep's CRC as the reference. -/
theorem useSweep_latch {s : State} (h : s.rif.latch = true) (live : Nat) : s.useSweep live =
    (State.put { s with rif := { s.rif with latch := false, lastMismatch := none } } Reg.RIF_CRC_REF_CRC live).put Reg.RIF_CRC_STATUS_PENDING 0 :=
  if_pos h

theorem useSweep_compares {s : State} (hlatch : s.rif.latch = false) (hen : s.on Reg.RIF_CRC_CTRL_EN = true)
    (hhold : s.on Reg.RIF_CRC_CTRL_HOLD = false) (live : Nat) : s.useSweep live = s.crcCompare live := by
  rw [State.useSweep, if_neg (by simp [hlatch]), if_pos (by simp [hen, hhold])]

theorem useSweep_idle {s : State} (hlatch : s.rif.latch = false)
    (h : s.on Reg.RIF_CRC_CTRL_EN = false ∨ s.on Reg.RIF_CRC_CTRL_HOLD = true) (live : Nat) :
    s.useSweep live = { s with rif := { s.rif with lastMismatch := none } } := by
  rw [State.useSweep, if_neg (by simp [hlatch]), if_neg (by rcases h with h | h <;> simp [h])]

/-- What becomes of a sweep's CRC leaves what the sweep has reported. -/
theorem rd_useSweep (s : State) (live : Nat) {g : Fld} (hg : crcKey g.key = true)
    (hother : ∀ f ∈ [Reg.RIF_CRC_REF_CRC, Reg.RIF_CRC_STATUS_PENDING, Reg.RIF_CRC_STATUS_MISMATCH, Reg.RIF_CRC_TRANSIENTS_COUNT], f.key ≠ g.key) :
    (s.useSweep live).rd g = s.rd g := by
  simp only [List.forall_mem_cons] at hother
  obtain ⟨href, hpending, hmismatch, htransients, -⟩ := hother
  unfold State.useSweep
  split
  · rw [rd_put_other _ _ hpending, rd_put_other _ _ href]
    rfl
  · split
    · exact s.rd_crcCompare live hg hmismatch htransients
    · rfl

/-- What a sweep has noted, and what it leaves: the fault collector, the latch and the result before it, the reference, the control bits and the live
words. -/
structure Swept (s : State) (live : Nat) (u : State) : Prop where
  live : u.rd Reg.RIF_CRC_LIVE_CRC = live % 2 ^ 32
  count : u.rd Reg.RIF_CRC_SWEEPS_COUNT = (s.rd Reg.RIF_CRC_SWEEPS_COUNT + 1) % 2 ^ 32
  blocks : ∀ b < 16, u.rd (Reg.RIF_BLOCK_CRC_CRC b) = crc32c (s.cfgBytes b) % 2 ^ 32
  before : ∀ g : Fld, g.key < 0xE008 * 32 → u.rd g = s.rd g
  flt : u.flt = s.flt
  latch : u.rif.latch = s.rif.latch
  last : u.rif.lastMismatch = s.rif.lastMismatch

theorem swept_noteSweep (s : State) (live : Nat) : s.Swept live (s.noteSweep (((List.range 16).map s.cfgBytes).map crc32c) live) := by
  generalize hcrcs : ((List.range 16).map s.cfgBytes).map crc32c = crcs
  obtain ⟨n, hn⟩ := s.noteSweep_eq crcs live
  have hregs : (s.noteSweep crcs live).regs = (s.reported crcs live).regs := by rw [hn]
  have hrd (g : Fld) : (s.noteSweep crcs live).rd g = (s.reported crcs live).rd g := by rw [State.rd, hregs, State.rd]
  obtain ⟨hlive, hcount, hblocks⟩ := s.rd_reported crcs live
  refine ⟨(hrd _).trans hlive, (hrd _).trans hcount, fun b hb => ?_, fun g hg => (hrd g).trans (s.rd_reported_before crcs live hg), ?_, ?_, ?_⟩
  · rw [hrd, hblocks b hb, ← hcrcs]
    simp [hb]
  · rw [hn]
    exact (s.reported_frame crcs live).2
  · rw [hn]
  · rw [hn]

/-- The sweep with its CRCs: of each block, and of the blocks' bytes in order. -/
theorem crcSweep_eq {s : State} {crc : Nat} (h : crc = crc32c ((List.range 16).flatMap s.cfgBytes)) :
    s.crcSweep = (s.noteSweep (((List.range 16).map s.cfgBytes).map crc32c) crc).useSweep crc := by
  subst h
  rw [List.flatMap_def]
  rfl

namespace Swept

variable {s u : State} {crc : Nat}

/-- The reports stand, whatever becomes of the sweep's CRC. -/
theorem reports (h : s.Swept crc u) : (u.useSweep crc).rd Reg.RIF_CRC_LIVE_CRC = crc % 2 ^ 32 ∧
    (u.useSweep crc).rd Reg.RIF_CRC_SWEEPS_COUNT = (s.rd Reg.RIF_CRC_SWEEPS_COUNT + 1) % 2 ^ 32 ∧
    (∀ b < 16, (u.useSweep crc).rd (Reg.RIF_BLOCK_CRC_CRC b) = crc32c (s.cfgBytes b) % 2 ^ 32) := by
  refine ⟨(rd_useSweep u crc (by decide) (by decide)).trans h.live, (rd_useSweep u crc (by decide) (by decide)).trans h.count, fun b hb => ?_⟩
  have hkey : 0xE100 * 32 ≤ (Reg.RIF_BLOCK_CRC_CRC b).key := by
    simp only [Fld.key]
    omega
  refine (rd_useSweep u crc (by simp [crcKey, hkey]) (fun f hf => ?_)).trans (h.blocks b hb)
  have hbelow : ∀ f ∈ [Reg.RIF_CRC_REF_CRC, Reg.RIF_CRC_STATUS_PENDING, Reg.RIF_CRC_STATUS_MISMATCH, Reg.RIF_CRC_TRANSIENTS_COUNT],
      f.key < 0xE100 * 32 := by decide
  have := hbelow f hf
  omega

theorem latched (h : s.Swept crc u) (hlatch : s.rif.latch = true) : (u.useSweep crc).rd Reg.RIF_CRC_REF_CRC = crc % 2 ^ 32 ∧
    (u.useSweep crc).rif.latch = false ∧ (u.useSweep crc).on Reg.RIF_CRC_STATUS_PENDING = false ∧ (u.useSweep crc).flt = s.flt := by
  rw [useSweep_latch (h.latch.trans hlatch)]
  refine ⟨?_, rfl, ?_, h.flt⟩
  · rw [rd_put_other _ _ (by decide), rd_put_self]
  · rw [State.on, rd_put_self]
    rfl

/-- A check in force compares the sweep's CRC with the reference. -/
theorem checked (h : s.Swept crc u) (hlatch : s.rif.latch = false) (hen : s.on Reg.RIF_CRC_CTRL_EN = true)
    (hhold : s.on Reg.RIF_CRC_CTRL_HOLD = false) :
    (crc = s.rd Reg.RIF_CRC_REF_CRC → (u.useSweep crc).on Reg.RIF_CRC_STATUS_MISMATCH = false ∧ (u.useSweep crc).live 180 = false ∧
      (u.useSweep crc).rif.lastMismatch = some false) ∧
    (crc ≠ s.rd Reg.RIF_CRC_REF_CRC → (u.useSweep crc).on Reg.RIF_CRC_STATUS_MISMATCH = true ∧ (u.useSweep crc).rif.lastMismatch = some true ∧
      (s.rif.lastMismatch = some true → (u.useSweep crc).live 180 = true) ∧
      (s.rif.lastMismatch ≠ some true → (u.useSweep crc).live 180 = s.live 180)) := by
  have hlive : u.live 180 = s.live 180 := by
    rw [live_crc, live_crc]
    exact bitOf_congr (h.before _ (by decide)) 20
  rw [useSweep_compares (h.latch.trans hlatch) ((on_congr (h.before _ (by decide))).trans hen) ((on_congr (h.before _ (by decide))).trans hhold),
    ← h.before Reg.RIF_CRC_REF_CRC (by decide), ← h.last, ← hlive]
  exact ⟨crcCompare_matches, crcCompare_mismatches⟩

theorem unchecked (h : s.Swept crc u) (hlatch : s.rif.latch = false)
    (hoff : s.on Reg.RIF_CRC_CTRL_EN = false ∨ s.on Reg.RIF_CRC_CTRL_HOLD = true) :
    (u.useSweep crc).rif.lastMismatch = none ∧ (u.useSweep crc).flt = s.flt := by
  have hon {f : Fld} (hf : f.key < 0xE008 * 32) : u.on f = s.on f := on_congr (h.before f hf)
  rw [useSweep_idle (h.latch.trans hlatch) (hoff.imp (hon (by decide)).trans (hon (by decide)).trans)]
  exact ⟨rfl, h.flt⟩

end Swept
end State

/-- Settles O38: a write of the trim store by its alignment and the cause of its refusal, a write of RIF_CRC_CTRL by the bit that it replaces, a sweep
by what it reports and by what becomes of its CRC. -/
theorem trimStoreAndConfigurationCrc : Obligations.TrimStoreAndConfigurationCrc := by
  unfold Obligations.TrimStoreAndConfigurationCrc
  refine fun s who h => ⟨fun off data => ⟨fun c hc => ?_, fun halign hlen hnone => ?_⟩,
    fun hw => ⟨?_, fun on => ?_, ?_⟩, fun hon hn => ?_, fun hidle => ?_, fun crc hcrc => ?_⟩
  · refine ⟨_, exec_trimStoreWrite h off data, ?_⟩
    rcases hc with ⟨hmis, rfl⟩ | ⟨halign, hlen, hrefused⟩
    · rw [State.trimWrite_misaligned s hmis]
      exact s.trimRefuse_records off.isLt (by decide)
    · rw [State.trimWrite_refused halign hlen hrefused]
      exact s.trimRefuse_records off.isLt (State.trimRefusal_lt hrefused)
  · refine ⟨_, exec_trimStoreWrite h off data, ?_⟩
    rw [State.trimWrite_lands halign hlen hnone, State.trimLand_eq]
    obtain ⟨hregs, hfailed⟩ := State.tsFill_frame (s.rewritten (off.toNat / 8)) off.toNat (fun i => leAt data i 1 % trimMask (off.toNat + i)) 4
    refine ⟨hregs, fun i hi => ?_, fun a ha => State.ts_tsFill_outside _ _ ha, ?_⟩
    · rw [State.ts_tsFill_in _ _ hi, Nat.mod_eq_of_lt (mod_trimMask_lt ..)]
    · rw [hfailed]
      exact s.not_failed_rewritten _
  · exact ⟨_, exec_crcCommit h hw, State.latch_crcCtrl s (State.testBit_written _ (by decide) true)⟩
  · have hbit := State.testBit_written (s.regWord 0xE000) (i := 1) (by decide) on
    refine ⟨_, exec_crcHold h hw on, (State.on_hold_crcCtrl s _).trans hbit, fun ht => State.holdSweeps_crcCtrl s (hbit.trans ht)⟩
  · exact ⟨_, exec_crcEn h hw, State.on_en_crcCtrl s (State.testBit_written _ (by decide) true)⟩
  · rw [exec_holdExpire h, State.holdExpire_ends hon hn]
  · rw [exec_holdExpire h, State.holdExpire_idle hidle]
  · have hswept := s.swept_noteSweep crc
    obtain ⟨hlive, hcount, hblocks⟩ := hswept.reports
    refine ⟨_, exec_crcSweep h, ?_⟩
    rw [State.crcSweep_eq hcrc]
    exact ⟨hlive, hcount, hblocks, hswept.latched, hswept.checked, hswept.unchecked⟩

end Sys2Proof.Machine
end

section

/-! # What a raise leaves of the registers, by whether it resets a block -/

namespace Sys2Proof.Machine

/-! ## A raise that resets no block (R249-R257) -/

/-- The keys of the fields that the raise of a source, its signalling and a reaction other than a block reset leave: none of the sticky, live and
count fields, the FAULT bit and the message count, the escalation timer's and the fences. -/
def quietKey (k : Nat) : Bool :=
  beyondReaction k && !(decide (0xD100 * 32 ≤ k) && decide (k < 0xD140 * 32)) &&
    !(decide (0xD400 * 32 ≤ k) && decide (k < 0xD700 * 32) && decide (k % 32 = 16))

theorem beyondReaction_of_quiet (k : Nat) (h : quietKey k = true) : beyondReaction k = true := by
  simp only [quietKey, Bool.and_eq_true] at h
  exact h.1.1

/-- The bit of FLT_REACT that selects the block reset of a source. -/
theorem quietKey_br {n : Nat} (hn : n < 192) : quietKey (Reg.FLT_REACT_BR n).key = true := by
  have hfields : ∀ f ∈ reactionFields, f.key < 0xD400 * 32 ∨ 0xD700 * 32 ≤ f.key := by decide
  have hbeyond : beyondReaction (Reg.FLT_REACT_BR n).key = true := by
    refine List.all_eq_true.2 (fun f hf => bne_iff_ne.2 (fun he => ?_))
    have hf := hfields f hf
    rw [he] at hf
    simp only [Fld.key] at hf
    omega
  rw [quietKey, hbeyond]
  simp only [Bool.true_and, Bool.and_eq_true, Bool.not_eq_true', Bool.and_eq_false_iff, decide_eq_false_iff_not]
  simp only [Fld.key]
  omega

namespace State

theorem leaves_noteRaise (s : State) {n : Nat} (hn : n < 192) : s.Leaves quietKey (s.noteRaise n) := by
  have hkey : quietKey (Reg.FLT_LIVE_LIVE (n / 32)).key = false := by
    simp only [quietKey, Bool.and_eq_false_iff, Bool.not_eq_false', Bool.and_eq_true, decide_eq_true_eq]
    simp only [Fld.key]
    omega
  exact .trans (.putBit (.refl _ s) hkey) .of_same

theorem leaves_record (s : State) {n : Nat} (hn : n < 192) (locus : Option Nat) : s.Leaves quietKey (s.recordRaise n locus) := by
  have hsticky : quietKey (Reg.FLT_STICKY_STICKY (n / 32)).key = false := by
    simp only [quietKey, Bool.and_eq_false_iff, Bool.not_eq_false', Bool.and_eq_true, decide_eq_true_eq]
    simp only [Fld.key]
    omega
  have hcount : quietKey (Reg.FLT_REACT_COUNT n).key = false := by
    simp only [quietKey, Bool.and_eq_false_iff, Bool.not_eq_false', Bool.and_eq_true, decide_eq_true_eq]
    simp only [Fld.key]
    omega
  exact .trans (.inc (.putBit (.refl _ s) hsticky) hcount) .of_same

/-- A raise up to its reaction. -/
theorem leaves_raised (s : State) {n : Nat} (hn : n < 192) (locus : Option Nat) :
    s.Leaves quietKey ((((s.noteRaise n).recordRaise n locus).signalFault n).escalate n) :=
  (((leaves_noteRaise s hn).trans (leaves_record _ hn locus)).trans ((signalFault_leaves _ n).mono beyondReaction_of_quiet)).trans
    ((escalate_leaves _ n).mono beyondReaction_of_quiet)

theorem reacts_raised (s : State) (n : Nat) (locus : Option Nat) : s.Reacts ((((s.noteRaise n).recordRaise n locus).signalFault n).escalate n) := by
  have hrecord : s.Reacts ((s.noteRaise n).recordRaise n locus) := ⟨_, _, _, _, _, rfl⟩
  exact (hrecord.trans (reacts_signalFault ..)).trans (reacts_escalate ..)

/-- The reaction of a control-class source that selects no block reset. -/
theorem told_controlReaction_noReset {s : State} {n : Nat} (hbr : s.on (Reg.FLT_REACT_BR n) = false) : s.Told (s.controlReaction n) := by
  unfold State.controlReaction
  extract_lets resets s1 s2 s3 s4
  have h1 : s.Told s1 := .ite ⟨_, _, rfl⟩ (.refl s)
  clear_value s1
  have h2 : s.Told s2 := h1.trans (.ite ⟨_, _, rfl⟩ (.refl s1))
  clear_value s2
  have hoff : s2.on (Reg.FLT_REACT_BR n) = false := (on_congr (by rw [State.rd, h2.regs, State.rd])).trans hbr
  have h3 : s.Told s3 := by
    unfold s3
    rw [if_neg (by simp [hoff])]
    exact h2
  clear_value s3
  have h4 : s.Told s4 := h3.trans (.ite ⟨_, _, rfl⟩ (.refl s3))
  clear_value s4
  exact h4.trans (.ite ⟨_, _, rfl⟩ (.refl s4))

section

variable {s : State} {n : Nat} (hn : n < 192) (hc : Src.light n = false) (hbr : s.on (Reg.FLT_REACT_BR n) = false)
include hn hc hbr

/-- The raise of a control-class source that selects no block reset, from its reaction on. -/
theorem told_raise_noReset (locus : Option Nat) :
    ((((s.noteRaise n).recordRaise n locus).signalFault n).escalate n).Told (s.raise n locus) := by
  rw [raise_eq_raiseAt, State.raiseAt, if_neg (by simp [hc])]
  exact told_controlReaction_noReset ((on_congr ((leaves_raised s hn locus).rd _ (quietKey_br hn))).trans hbr)

theorem reacts_raise_noReset (locus : Option Nat) : s.Reacts (s.raise n locus) :=
  (reacts_raised s n locus).trans (told_raise_noReset hn hc hbr locus).reacts

theorem leaves_raise_noReset (locus : Option Nat) : s.Leaves quietKey (s.raise n locus) :=
  (leaves_raised s hn locus).trans (leaves_told (told_raise_noReset hn hc hbr locus))

end

/-- The raise of a source whose block has no fields of its own to clear. -/
theorem leaves_raise_servesNone (s : State) {n : Nat} (hn : n < 192) (hc : Src.light n = false) (hb : ServesNone n) (locus : Option Nat) :
    s.Leaves quietKey (s.raise n locus) :=
  (leaves_raised s hn locus).trans (leaves_told (s.told_raise hc hb locus))

end State

/-! ## A raise that may reset its block (R252) -/

/-- The register fields that the reset of a block may change: the states and the sessions of the links, CKPT_BUSY, and those of a completion. -/
def resetFields : List Fld :=
  [Reg.LNK_STATUS_STATE 0, Reg.LNK_EVENT_STATE 0, Reg.LNK_STATUS_STATE 1, Reg.LNK_EVENT_STATE 1, Reg.SEC_STATUS_HOST_SESSION, Reg.LNK_STATUS_SESSION 0,
    Reg.LNK_EVENT_SESSION_END 0, Reg.SEC_STATUS_PEER_SESSION, Reg.LNK_STATUS_SESSION 1, Reg.LNK_EVENT_SESSION_END 1, Reg.NFC_STATUS_CKPT_BUSY] ++
    completionFields .openPair ++ completionFields .session

/-- The keys of the fields that a reaction leaves, a block reset included. -/
def beyondReset (k : Nat) : Bool := beyondReaction k && resetFields.all (fun f => f.key != k)

/-- The keys of the fields that a raise leaves, whatever its source's reaction. -/
def resetKey (k : Nat) : Bool := quietKey k && resetFields.all (fun f => f.key != k)

theorem quiet_of_resetKey (k : Nat) (h : resetKey k = true) : quietKey k = true := (Bool.and_eq_true_iff.1 h).1

theorem beyondReset_of_resetKey (k : Nat) (h : resetKey k = true) : beyondReset k = true :=
  Bool.and_eq_true_iff.2 ⟨beyondReaction_of_quiet k (quiet_of_resetKey k h), (Bool.and_eq_true_iff.1 h).2⟩

/-- A trust block without its sessions and handshakes. -/
def Trust.lasting (x : Trust) : Trust := { x with host := none, hostKey := [], peer := none, hostHs := none, peerHs := none, peerKeys := none }

/-- Beside the register fields of some keys, the trust block has stayed but for the sessions. -/
structure State.Outlasts (P : Nat → Bool) (s t : State) : Prop where
  leaves : s.Leaves P t
  sec : Trust.lasting t.sec = Trust.lasting s.sec

namespace State.Outlasts

variable {P : Nat → Bool} {s t u : State}

theorem refl (s : State) : s.Outlasts P s := ⟨.refl _ s, rfl⟩

theorem trans (h : s.Outlasts P t) (k : t.Outlasts P u) : s.Outlasts P u := ⟨h.leaves.trans k.leaves, k.sec.trans h.sec⟩

theorem mono {Q : Nat → Bool} (hPQ : ∀ k, P k = true → Q k = true) (h : s.Outlasts Q t) : s.Outlasts P t := ⟨h.leaves.mono hPQ, h.sec⟩

theorem ite {c : Prop} [Decidable c] (ht : s.Outlasts P t) (hu : s.Outlasts P u) : s.Outlasts P (if c then t else u) := by
  split
  · exact ht
  · exact hu

theorem put (h : s.Outlasts P t) {f : Fld} (v : Nat) (hf : P f.key = false) : s.Outlasts P (t.put f v) := ⟨h.leaves.put hf, h.sec⟩

theorem flag (h : s.Outlasts P t) {f : Fld} (hf : P f.key = false) : s.Outlasts P (t.flag f) := h.put _ hf

theorem of_told (h : s.Told t) : s.Outlasts P t := ⟨State.leaves_told h, by
  obtain ⟨mgmt, flt, rfl⟩ := h
  rfl⟩

theorem rd (h : s.Outlasts P t) {g : Fld} (hg : P g.key = true) : t.rd g = s.rd g := h.leaves.rd g hg

theorem otp (h : s.Outlasts P t) : t.sec.otp = s.sec.otp := (congrArg Trust.otp h.sec :)

theorem roots (h : s.Outlasts P t) : t.sec.roots = s.sec.roots := (congrArg Trust.roots h.sec :)

theorem challenge (h : s.Outlasts P t) : t.sec.challenge = s.sec.challenge := (congrArg Trust.challenge h.sec :)

theorem scope (h : s.Outlasts P t) : t.sec.scope = s.sec.scope := (congrArg Trust.scope h.sec :)

end State.Outlasts

namespace State

theorem outlasts_status (s : State) (p : Pair) (code : Nat) : s.Outlasts beyondReset (s.status p code) := by
  have hfields : ∀ f ∈ completionFields p, beyondReset f.key = false := by cases p <;> decide
  have hleaves := leaves_status s p code
  refine ⟨⟨hleaves.seq, hleaves.diag, hleaves.thm, hleaves.mode, fun g hg => s.sameRegs_complete p code 0 0 [] g (fun f hf he => ?_)⟩,
    congrArg Trust.lasting (s.sec_complete ..)⟩
  rw [← he, hfields f hf] at hg
  exact absurd hg (by decide)

theorem outlasts_resetCommands (s : State) (served : Nat → Bool) : s.Outlasts beyondReset (s.resetCommands served) := by
  have hstep (s : State) (q : Pair) :
      s.Outlasts beyondReset (if s.pairBusy q && served (s.rd (Reg.WHF_STATUS_OPCODE q.num)) then s.status q 4 else s) :=
    .ite (outlasts_status s q 4) (.refl s)
  exact (hstep s .openPair).trans (hstep _ .session)

theorem outlasts_endHost (s : State) : s.Outlasts beyondReset s.endHost := by
  have hgone : s.Outlasts beyondReset { s with sec := { s.sec with host := none, hostKey := [] } } := ⟨.of_same, rfl⟩
  exact .ite (.refl s) (.flag (.put (.put hgone _ (by decide)) _ (by decide)) (by decide))

theorem outlasts_endPeer (s : State) : s.Outlasts beyondReset s.endPeer := by
  have hgone : s.Outlasts beyondReset { s with sec := { s.sec with peer := none }, link := s.link.set 1 { s.link[1] with rxCount := 0 } } :=
    ⟨.of_same, rfl⟩
  exact .ite (.refl s) (.flag (.put (.put hgone _ (by decide)) _ (by decide)) (by decide))

theorem outlasts_blockClear (s : State) (b : Block) : s.Outlasts beyondReset (s.blockClear b) := by
  cases b with
  | hostLink => exact .flag (.put (.refl s) _ (by decide)) (by decide)
  | peerLink => exact .flag (.put (.refl s) _ (by decide)) (by decide)
  | security =>
    have hkeys (t : State) : t.Outlasts beyondReset { t with sec := { t.sec with hostHs := none, peerHs := none, peerKeys := none } } := ⟨.of_same, rfl⟩
    exact (((outlasts_endHost s).trans (outlasts_endPeer _)).trans (hkeys _)).trans (outlasts_resetCommands ..)
  | nand =>
    have hlost : s.Outlasts beyondReset { s with nand := s.nand.powerLoss } := ⟨.of_same, rfl⟩
    exact (hlost.put _ (by decide)).trans (outlasts_resetCommands ..)
  | safety => exact outlasts_resetCommands ..
  | pairing => exact outlasts_resetCommands ..
  | crc => exact outlasts_resetCommands ..

theorem outlasts_blockReset (s : State) (b : Block) : s.Outlasts beyondReset (s.blockReset b) := by
  have hreset : s.Outlasts beyondReset { s with flt := { s.flt with inReset := s.flt.inReset ++ [b] } } := .of_told ⟨_, _, rfl⟩
  exact .ite (.refl s) (hreset.trans (outlasts_blockClear ..))

theorem outlasts_controlReaction (s : State) (n : Nat) : s.Outlasts beyondReset (s.controlReaction n) := by
  unfold State.controlReaction
  extract_lets resets s1 s2 s3 s4
  have h1 : s.Outlasts beyondReset s1 := .ite (.of_told ⟨_, _, rfl⟩) (.refl s)
  clear_value s1
  have h2 : s.Outlasts beyondReset s2 := h1.trans (.ite (.of_told ⟨_, _, rfl⟩) (.refl s1))
  clear_value s2
  have hblock : s2.Outlasts beyondReset (match blockOf n with
      | some b => s2.blockReset b
      | none => s2) := by
    split
    · exact outlasts_blockReset ..
    · exact .refl s2
  have h3 : s.Outlasts beyondReset s3 := h2.trans (.ite hblock (.refl s2))
  clear_value s3
  have h4 : s.Outlasts beyondReset s4 := h3.trans (.ite (.of_told ⟨_, _, rfl⟩) (.refl s3))
  clear_value s4
  exact h4.trans (.ite (.of_told ⟨_, _, rfl⟩) (.refl s4))

/-- What follows the record of the raise of a control-class source. -/
theorem outlasts_raiseAt (s : State) {n : Nat} (hc : Src.light n = false) (locus : Option Nat) :
    (s.recordRaise n locus).Outlasts beyondReset (s.raiseAt n locus) := by
  have hsignal : (s.recordRaise n locus).Leaves beyondReset (((s.recordRaise n locus).signalFault n).escalate n) :=
    ((signalFault_leaves _ n).trans (escalate_leaves _ n)).mono (fun k h => (Bool.and_eq_true_iff.1 h).1)
  have hsec := ((reacts_signalFault (s.recordRaise n locus) n).trans (reacts_escalate _ n)).sec
  rw [State.raiseAt, if_neg (by simp [hc])]
  exact .trans ⟨hsignal, congrArg Trust.lasting hsec⟩ (outlasts_controlReaction _ n)

theorem outlasts_raise (s : State) {n : Nat} (hn : n < 192) (hc : Src.light n = false) (locus : Option Nat) :
    s.Outlasts resetKey (s.raise n locus) := by
  have hrecord : s.Outlasts resetKey ((s.noteRaise n).recordRaise n locus) :=
    ⟨((leaves_noteRaise s hn).trans (leaves_record _ hn locus)).mono quiet_of_resetKey, rfl⟩
  exact hrecord.trans ((outlasts_raiseAt _ hc locus).mono beyondReset_of_resetKey)

theorem outlasts_setLive (s : State) {n : Nat} (hn : n < 192) (b : Bool) : s.Outlasts resetKey (s.setLive n b) := by
  refine .put (.refl s) _ ?_
  simp only [resetKey, quietKey, Bool.and_eq_false_iff, Bool.not_eq_false', Bool.and_eq_true, decide_eq_true_eq]
  simp only [Fld.key]
  omega

theorem outlasts_condition (s : State) {n : Nat} (hn : n < 192) (hc : Src.light n = false) (b : Bool) :
    s.Outlasts resetKey (s.condition n b) :=
  .ite (.ite (.refl s) (outlasts_raise s hn hc _)) (outlasts_setLive s hn false)

theorem beyondReset_sticky {n : Nat} (hn : n < 192) : beyondReset (Reg.FLT_STICKY_STICKY (n / 32)).key = true := by
  have hfields : ∀ f ∈ resetFields, f.key < 0xD100 * 32 ∨ 0xD118 * 32 ≤ f.key := by decide
  refine Bool.and_eq_true_iff.2 ⟨beyondReaction_sticky hn, List.all_eq_true.2 (fun f hf => bne_iff_ne.2 (fun he => ?_))⟩
  have hf := hfields f hf
  rw [he] at hf
  simp only [Fld.key] at hf
  omega

/-- A raise sets its own sticky bit alone. -/
theorem sticky_raise_other (s : State) {n m : Nat} (hm : m < 192) (hne : n ≠ m) (hc : Src.light n = false) (locus : Option Nat) :
    (s.raise n locus).sticky m = s.sticky m := by
  have hrecord : ((s.noteRaise n).recordRaise n locus).sticky m = s.sticky m := by
    have hcount : (Reg.FLT_REACT_COUNT n).key ≠ (Reg.FLT_STICKY_STICKY (m / 32)).key := by
      simp only [Fld.key]
      omega
    have hnoted : (s.noteRaise n).sticky m = s.sticky m := bitOf_congr (rd_put_other s _ (by simp only [Fld.key]; omega)) _
    refine (bitOf_congr (rd_inc_other ((s.noteRaise n).putBit (Reg.FLT_STICKY_STICKY (n / 32)) (n % 32) true) 1 hcount) _).trans (.trans ?_ hnoted)
    by_cases hword : n / 32 = m / 32
    · rw [hword]
      exact bitOf_putBit_other _ (by omega) (show m % 32 < 32 from Nat.mod_lt m (by decide))
    · exact bitOf_congr (rd_putBit_other _ _ _ (by simp only [Fld.key]; omega)) _
  exact (bitOf_congr ((outlasts_raiseAt _ hc locus).rd (beyondReset_sticky hm)) _).trans hrecord

end State

end Sys2Proof.Machine
end

section

/-! # Provisioning and chip resets of software (O45) -/

namespace Sys2Proof.Machine

/-! ## Chip resets (R250, R253, R397) -/

namespace State

/-- A field of the kept list reads after the copy as before it, and any other as in the state that takes the copy. -/
theorem rd_keep (s t : State) {fs : List Fld} {g : Fld} (hfs : ∀ f ∈ fs, f.key = g.key → f = g) :
    (s.keep fs t).rd g = if g ∈ fs then s.rd g % 2 ^ g.w else t.rd g := by
  unfold State.keep
  induction fs generalizing t with
  | nil => simp
  | cons f fs ih =>
    have hrest := ih (t.put f (s.rd f)) (fun x hx => hfs x (List.mem_cons_of_mem f hx))
    rw [List.foldl_cons, hrest]
    by_cases hg : g ∈ fs
    · rw [if_pos hg, if_pos (List.mem_cons_of_mem f hg)]
    · rw [if_neg hg]
      by_cases hkey : f.key = g.key
      · obtain rfl := hfs f List.mem_cons_self hkey
        rw [rd_put_self, if_pos List.mem_cons_self]
      · have hne : g ≠ f := fun he => hkey (he ▸ rfl)
        rw [rd_put_other _ _ hkey, if_neg (by simp [hne, hg])]

theorem keptFlt_sticky {n : Nat} (hn : n < 192) :
    Reg.FLT_STICKY_STICKY (n / 32) ∈ keptFlt ∧ ∀ f ∈ keptFlt, f.key = (Reg.FLT_STICKY_STICKY (n / 32)).key → f = Reg.FLT_STICKY_STICKY (n / 32) := by
  refine ⟨List.mem_append_left _ (List.mem_map.2 ⟨n / 32, List.mem_range.2 (by omega), rfl⟩), fun f hf hkey => ?_⟩
  rcases List.mem_append.1 hf with hf | hf
  · obtain ⟨i, -, rfl⟩ := List.mem_map.1 hf
    simp only [Fld.key] at hkey
    obtain rfl : i = n / 32 := by omega
    rfl
  · obtain ⟨i, hi, rfl⟩ := List.mem_map.1 hf
    have hi := List.mem_range.1 hi
    simp only [Fld.key] at hkey
    omega

/-- The state reborn, with what a warm chip reset keeps of the fault collector. -/
def keptOver (s : State) : State := s.keep keptFlt { s.rebirth with flt := { Faults.reset with healthLow := s.flt.healthLow } }

theorem warmReset_eq (s : State) (cause : Nat) : s.warmReset cause none =
    ((s.keptOver.put Reg.SEC_BOOT_STATUS_MARKED s.markedAfter).put Reg.SYS_EPOCH_EPOCH (s.rd Reg.SYS_EPOCH_EPOCH + 1)).put Reg.SYS_RESET_CAUSE cause :=
  rfl

theorem keep_frame (s t : State) (fs : List Fld) : (s.keep fs t).mode = t.mode ∧ (s.keep fs t).sec = t.sec ∧ (s.keep fs t).pending = t.pending := by
  unfold State.keep
  induction fs generalizing t with
  | nil => exact ⟨rfl, rfl, rfl⟩
  | cons f fs ih => exact ih (t.put f (s.rd f))

/-- What a chip reset made by software leaves: the device in Reset with its cause, the next epoch, the sticky bits, OTP and the queue. -/
theorem warmReset_leaves (s : State) {cause : Nat} (hc : cause < 8) :
    (s.warmReset cause none).mode.phase = .reset ∧ (s.warmReset cause none).rd Reg.SYS_RESET_CAUSE = cause ∧
      (∀ n, n < 192 → (s.warmReset cause none).sticky n = s.sticky n) ∧
      (s.warmReset cause none).rd Reg.SYS_EPOCH_EPOCH = (s.rd Reg.SYS_EPOCH_EPOCH + 1) % 2 ^ 32 ∧
      (s.warmReset cause none).sec.otp = s.sec.otp ∧ (s.warmReset cause none).pending = s.pending := by
  obtain ⟨hmode, hsec, hpending⟩ : s.keptOver.mode = s.rebirth.mode ∧ s.keptOver.sec = s.rebirth.sec ∧ s.keptOver.pending = s.rebirth.pending :=
    keep_frame ..
  simp only [warmReset_eq, mode_put, sec_put, pending_put, hmode, hsec, hpending]
  refine ⟨rfl, rd_put_fits _ hc, fun n hn => ?_, ?_, rfl, rfl⟩
  · obtain ⟨hmem, hkeys⟩ := keptFlt_sticky hn
    have hother {f : Fld} (h : f.key < 0xD100 * 32) : f.key ≠ (Reg.FLT_STICKY_STICKY (n / 32)).key := by
      simp only [Fld.key] at h ⊢
      omega
    rw [State.sticky, State.bitOf, rd_put_other _ _ (hother (by decide)), rd_put_other _ _ (hother (by decide)),
      rd_put_other _ _ (hother (by decide)), keptOver, rd_keep s _ hkeys, if_pos hmem, Nat.testBit_mod_two_pow,
      decide_eq_true (Nat.mod_lt n (by decide)), Bool.true_and]
    rfl
  · rw [rd_put_other _ _ (by decide), rd_put_self]

end State

/-! ## What the ends of operations on keys leave (R242, R338, R356, R365) -/

/-- The event of provisioning and its latch. -/
def provisionKey (k : Nat) : Bool := k == Reg.SEC_EVENT_PROVISION.key || k == Reg.SYS_MODE_PROVISION.key

theorem resetKey_of_provision (k : Nat) (h : provisionKey k = true) : resetKey k = true := by
  simp only [provisionKey, Bool.or_eq_true, beq_iff_eq] at h
  rcases h with rfl | rfl <;> decide

/-- What follows the completion of an operation on keys leaves: the trust block but for the sessions, NAND, the end of the command and the fault of
a bit that has not taken. -/
structure State.Guards (p : Pair) (s t : State) : Prop where
  outlasts : s.Outlasts provisionKey t
  nand : t.nand = s.nand
  spares : s.Spares p t
  readBack : t.sticky 14 = s.sticky 14

namespace State.Guards

variable {p : Pair} {s t u : State}

theorem refl (p : Pair) (s : State) : s.Guards p s := ⟨.refl s, rfl, .refl p s, rfl⟩

theorem trans (h : s.Guards p t) (k : t.Guards p u) : s.Guards p u :=
  ⟨h.outlasts.trans k.outlasts, k.nand.trans h.nand, h.spares.trans k.spares, k.readBack.trans h.readBack⟩

theorem ite {c : Prop} [Decidable c] (ht : s.Guards p t) (hu : s.Guards p u) : s.Guards p (if c then t else u) := by
  split
  · exact ht
  · exact hu

/-- A field of SEC_STATUS or SEC_EVENT, but the event of provisioning. -/
theorem put (h : s.Guards p t) {f : Fld} (v : Nat) (hp : provisionKey f.key = false) (hf : (sparedKey f.key || statusKey p f.key) = false) :
    s.Guards p (t.put f v) := by
  have hsticky : f.key ≠ (Reg.FLT_STICKY_STICKY (14 / 32)).key := fun he => by
    rw [he] at hf
    exact absurd hf (by cases p <;> decide)
  exact ⟨h.outlasts.put v hp, h.nand, h.spares.put v hf, (State.bitOf_congr (t.rd_put_other v hsticky) _).trans h.readBack⟩

end State.Guards

namespace State

variable (p : Pair)

/-- The raise of a source of the security engine, but the one of a bit that has not taken. -/
theorem guards_raise (s : State) {n : Nat} (hn : n < 192) (hne : n ≠ 14) (hc : Src.light n = false) (hb : blockOf n = some .security) :
    s.Guards p (s.raise n) :=
  ⟨(outlasts_raise s hn hc none).mono resetKey_of_provision, nand_raise_security s hb hc none, spares_raise p s hn hc none,
    sticky_raise_other s (by decide) hne hc none⟩

theorem guards_raises (s : State) {l : List Nat} (hl : ∀ n ∈ l, n < 192 ∧ n ≠ 14 ∧ Src.light n = false ∧ blockOf n = some .security) :
    s.Guards p (s.raises l) :=
  List.foldlRecOn l _ (.refl p s) (fun t ht n hn => by
    obtain ⟨hlt, hne, hc, hb⟩ := hl n hn
    exact ht.trans (guards_raise p t hlt hne hc hb))

theorem guards_debugLive (s : State) (b : Bool) : s.Guards p (s.condition 18 b) :=
  .ite (.ite (.refl p s) (guards_raise p s (by decide) (by decide) rfl rfl)) (.put (.refl p s) _ (by decide) (by cases p <;> decide))

theorem slotMask_lt (f : Nat → Bool) : slotMask f < 16 := by
  have hbit (b : Bool) : b2n b ≤ 1 := by cases b <;> decide
  have h0 := hbit (f 0)
  have h1 := hbit (f 1)
  have h2 := hbit (f 2)
  have h3 := hbit (f 3)
  unfold slotMask
  omega

/-- SEC_STATUS follows the slots (R365). -/
theorem guards_noteKeys (s : State) : s.Guards p s.noteKeys ∧ s.noteKeys.rd Reg.SEC_STATUS_WRITTEN = slotMask s.slotWritten := by
  unfold State.noteKeys
  extract_lets s1 s2 wasOpen opened s3 s4
  have h1 : s.Guards p s1 := .put (.put (.put (.refl p s) _ (by decide) (by cases p <;> decide)) _ (by decide) (by cases p <;> decide)) _
    (by decide) (by cases p <;> decide)
  have h2 : s.Guards p s2 := .put h1 _ (by decide) (by cases p <;> decide)
  have h3 : s.Guards p s3 := .put h2 _ (by decide) (by cases p <;> decide)
  have h4 : s.Guards p s4 := .ite (.put h3 _ (by decide) (by cases p <;> decide)) h3
  have hw1 : s1.rd Reg.SEC_STATUS_WRITTEN = slotMask s.slotWritten := rd_put_fits _ (slotMask_lt _)
  have hw3 : s3.rd Reg.SEC_STATUS_WRITTEN = s1.rd Reg.SEC_STATUS_WRITTEN := (rd_put_other _ _ (by decide)).trans (rd_put_other _ _ (by decide))
  have hw4 : s4.rd Reg.SEC_STATUS_WRITTEN = s3.rd Reg.SEC_STATUS_WRITTEN := by
    unfold s4
    split
    · exact rd_put_other _ _ (by decide)
    · rfl
  have hwritten := (outlasts_condition s4 (n := 18) (by decide) rfl (opened && s4.provisioned)).rd (g := Reg.SEC_STATUS_WRITTEN) (by decide)
  exact ⟨h4.trans (guards_debugLive p s4 _), hwritten.trans (hw4.trans (hw3.trans hw1))⟩

end State

end Sys2Proof.Machine
end

section

/-! # INSTALL_ROOT to DEBUG_UNLOCK (O45) -/

namespace Sys2Proof.Machine

/-! ## OTP over an operation (R242, R338, R339) -/

namespace State

/-- Programming in which a bit fails its read-back keeps the bits before it, and is an ERROR. -/
theorem otpProgram_fails (s : State) {bits : List Nat} {k : Nat} (hk : k < bits.length) :
    s.otpProgram bits (.fails k) = (s.setOtp ((bits.take k).foldl otpSet s.sec.otp), 2) := by
  have hlen : (bits.take k).length ≠ bits.length := by
    rw [List.length_take]
    omega
  simp only [State.otpProgram, if_neg hlen]
  rfl

/-- Programming that the temperature ends keeps the bits before that. -/
theorem otpProgram_aborts (s : State) {bits : List Nat} {k : Nat} (hk : k < bits.length) :
    s.otpProgram bits (.aborts k) = (s.setOtp ((bits.take k).foldl otpSet s.sec.otp), 5) := by
  have hlen : (bits.take k).length ≠ bits.length := by
    rw [List.length_take]
    omega
  simp only [State.otpProgram, if_neg hlen]
  rfl

theorem guards_fails (s : State) (p : Pair) (st : Nat) {l : List Nat}
    (hl : ∀ n ∈ l, n < 192 ∧ n ≠ 14 ∧ Src.light n = false ∧ blockOf n = some .security) :
    (s.complete p st 0 0 []).Guards p (s.fails p st 0 l) := guards_raises p _ hl

theorem provisionKey_of_status (s : State) (p : Pair) (st : Nat) : s.Outlasts provisionKey (s.status p st) :=
  (outlasts_status s p st).mono (fun k h => beyondReset_of_resetKey k (resetKey_of_provision k h))

theorem sticky_status (s : State) (p : Pair) (st : Nat) {n : Nat} (hn : n < 192) : (s.status p st).sticky n = s.sticky n :=
  bitOf_congr ((outlasts_status s p st).rd (beyondReset_sticky hn)) _

/-- What the end of an operation on an owner slot leaves. -/
structure OwnerDone (s : State) (p : Pair) (st : Nat) (t : State) : Prop where
  sec : Trust.lasting t.sec = Trust.lasting s.sec
  nand : t.nand = s.nand
  told : t.sticky 21 = true
  event : t.on Reg.SEC_EVENT_PROVISION = true
  ended : t.Ended p st
  written : t.rd Reg.SEC_STATUS_WRITTEN = slotMask t.slotWritten
  failed : st = 2 → t.sticky 14 = true
  unfailed : st ≠ 2 → t.sticky 14 = s.sticky 14

theorem slotWritten_congr {s t : State} (h : t.sec.otp = s.sec.otp) : t.slotWritten = s.slotWritten := by
  funext i
  rw [State.slotWritten, h, State.slotWritten]

/-- The event of provisioning and SEC_STATUS follow FS021. -/
theorem ownerDone_of_told {s v : State} {p : Pair} {st : Nat} (hsec : Trust.lasting v.sec = Trust.lasting s.sec) (hnand : v.nand = s.nand)
    (htold : v.sticky 21 = true) (hended : v.Ended p st) (hfailed : st = 2 → v.sticky 14 = true) (hunfailed : st ≠ 2 → v.sticky 14 = s.sticky 14) :
    s.OwnerDone p st (v.flag Reg.SEC_EVENT_PROVISION).noteKeys := by
  have hevent : (v.flag Reg.SEC_EVENT_PROVISION).on Reg.SEC_EVENT_PROVISION = true := on_flag_self _ (by decide)
  have hflag : v.Spares p (v.flag Reg.SEC_EVENT_PROVISION) := .flag (.refl p _) (by cases p <;> decide)
  have hsticky : (v.flag Reg.SEC_EVENT_PROVISION).sticky 14 = v.sticky 14 := bitOf_congr (rd_put_other _ _ (by decide)) _
  have hsec' : Trust.lasting (v.flag Reg.SEC_EVENT_PROVISION).sec = Trust.lasting s.sec := hsec
  have hnand' : (v.flag Reg.SEC_EVENT_PROVISION).nand = s.nand := hnand
  obtain ⟨hkeys, hwritten⟩ := guards_noteKeys p (v.flag Reg.SEC_EVENT_PROVISION)
  generalize v.flag Reg.SEC_EVENT_PROVISION = w at *
  generalize w.noteKeys = t at *
  have hback := hkeys.readBack.trans hsticky
  exact {
    sec := hkeys.outlasts.sec.trans hsec'
    nand := hkeys.nand.trans hnand'
    told := hkeys.spares.sticky 21 (by decide) (hflag.sticky 21 (by decide) htold)
    event := (on_congr (hkeys.outlasts.rd (by decide))).trans hevent
    ended := hkeys.spares.ended st (hflag.ended st hended)
    written := hwritten.trans (by rw [slotWritten_congr hkeys.outlasts.otp])
    failed := fun h => hback.trans (hfailed h)
    unfailed := fun h => hback.trans (hunfailed h) }

/-- What follows the completion of an operation on an owner slot, and FS014 where a bit has not taken. -/
theorem ownerDone_of_ended {s u : State} {p : Pair} {st : Nat} (hsec : Trust.lasting u.sec = Trust.lasting s.sec) (hnand : u.nand = s.nand)
    (hended : u.Ended p st) (hfailed : st = 2 → u.sticky 14 = true) (hunfailed : st ≠ 2 → u.sticky 14 = s.sticky 14) :
    s.OwnerDone p st (((u.raise 21).flag Reg.SEC_EVENT_PROVISION).noteKeys) := by
  have hraise := guards_raise p u (n := 21) (by decide) (by decide) rfl rfl
  exact ownerDone_of_told (hraise.outlasts.sec.trans hsec) (hraise.nand.trans hnand) (sticky_raise_control u (by decide) rfl none)
    (hraise.spares.ended st hended) (fun h => hraise.readBack.trans (hfailed h)) (fun h => hraise.readBack.trans (hunfailed h))

theorem otpDone_failed (s : State) (p : Pair) :
    s.otpDone p true 2 = (((((s.status p 2).raise 14).raise 21).flag Reg.SEC_EVENT_PROVISION).noteKeys) := by
  simp only [State.otpDone, stError, if_true, State.fails, State.raises, List.foldl_cons, List.foldl_nil, State.status]

theorem otpDone_unfailed (s : State) (p : Pair) {st : Nat} (h : st ≠ 2) :
    s.otpDone p true st = (((s.status p st).raise 21).flag Reg.SEC_EVENT_PROVISION).noteKeys := by
  simp only [State.otpDone, stError, h, if_true, if_false, State.fails, State.raises, List.foldl_nil, State.status]

theorem ownerDone_otpDone (s : State) (p : Pair) {st : Nat} (hst : st < 256) : s.OwnerDone p st (s.otpDone p true st) := by
  have hsec : Trust.lasting (s.status p st).sec = Trust.lasting s.sec := congrArg Trust.lasting (s.sec_complete p st 0 0 [])
  have hnand : (s.status p st).nand = s.nand := s.nand_complete p st 0 0 []
  have hended : (s.status p st).Ended p st := s.ended_complete p hst 0 0 []
  have hsticky := sticky_status s p st (n := 14) (by decide)
  by_cases h2 : st = 2
  · subst h2
    rw [otpDone_failed]
    generalize s.status p 2 = v at *
    have hraise := outlasts_raise v (n := 14) (by decide) rfl none
    exact ownerDone_of_ended (hraise.sec.trans hsec) ((nand_raise_security v rfl rfl none).trans hnand)
      ((spares_raise p v (by decide) rfl none).ended 2 hended) (fun _ => sticky_raise_control v (by decide) rfl none) (fun h => absurd rfl h)
  · rw [otpDone_unfailed s p h2]
    exact ownerDone_of_ended hsec hnand hended (fun h => absurd h h2) (fun _ => hsticky)

/-! ## Writes that are issued (R372, R375, R381, R382) -/

/-- A write other than a file's that the storage can take: it is ready, and has the blocks that the write's kind asks for (R375). -/
structure Admits (s : State) (j : NJob) : Prop where
  ready : s.nandReady = true
  room : 8 ≤ s.nand.free.length ∨ j.kind ≠ .backup
  noFile : j.kind ≠ .file

/-- A write waits in the deferral queue, without its command. -/
def deferJob (s : State) (j : NJob) : State := s.setNand { s.nand with deferred := s.nand.deferred ++ [{ j with pair := none }] }

theorem issueWrite_unready {s : State} (h : s.nandReady = false) (j : NJob) : s.issueWrite j = s.statusOf j.pair 2 := by
  rw [State.issueWrite, if_pos (by simp [h])]

theorem issueWrite_short {s : State} {j : NJob} (hfree : s.nand.free.length < 8) (hkind : j.kind = .backup) : s.issueWrite j = s.statusOf j.pair 2 := by
  unfold State.issueWrite
  split
  · rfl
  · exact if_pos ⟨hfree, .inr hkind⟩

section

variable {s : State} {j : NJob} (h : s.Admits j)
include h

theorem issueWrite_admitted : s.issueWrite j =
    if !s.nandWindow then
      if s.nand.deferred.any (fun d => d.kind = j.kind) then s.statusOf j.pair 6
      else if 64 ≤ s.nand.deferred.length ∨ 1048576 < s.nand.staged then s.statusOf j.pair 5
      else ((s.deferJob j).statusOf j.pair 6).noteDeferral
    else s.setNand { s.nand with jobs := s.nand.jobs ++ [j] } := by
  obtain ⟨hready, hroom, hfile⟩ := h
  have hfree : ¬ (s.nand.free.length < 8 ∧ j.kind = .backup) := fun ⟨hlt, hk⟩ => (hroom.resolve_right (not_not.2 hk)).not_gt hlt
  have hother : (j.kind != .file) = true := by simpa using hfile
  simp only [State.issueWrite, State.deferJob, hready, hfree, hfile, hother, Bool.not_true, Bool.false_eq_true, false_and, false_or, Bool.true_and,
    Nat.add_zero, if_false]

theorem issueWrite_open (hw : s.nandWindow = true) : s.issueWrite j = s.setNand { s.nand with jobs := s.nand.jobs ++ [j] } := by
  rw [issueWrite_admitted h, if_neg (by simp [hw])]

theorem issueWrite_already (hw : s.nandWindow = false) (hany : s.nand.deferred.any (fun d => d.kind = j.kind) = true) :
    s.issueWrite j = s.statusOf j.pair 6 := by
  rw [issueWrite_admitted h, if_pos (by simp [hw]), if_pos hany]

theorem issueWrite_refused (hw : s.nandWindow = false) (hany : s.nand.deferred.any (fun d => d.kind = j.kind) = false)
    (hfull : 64 ≤ s.nand.deferred.length ∨ 1048576 < s.nand.staged) : s.issueWrite j = s.statusOf j.pair 5 := by
  rw [issueWrite_admitted h, if_pos (by simp [hw]), if_neg (by simp [hany]), if_pos hfull]

theorem issueWrite_deferred (hw : s.nandWindow = false) (hany : s.nand.deferred.any (fun d => d.kind = j.kind) = false)
    (hlen : s.nand.deferred.length < 64) (hstaged : s.nand.staged ≤ 1048576) :
    s.issueWrite j = ((s.deferJob j).statusOf j.pair 6).noteDeferral := by
  rw [issueWrite_admitted h, if_pos (by simp [hw]), if_neg (by simp [hany]), if_neg (by omega)]

end

theorem outlasts_noteDeferral (s : State) : s.Outlasts provisionKey s.noteDeferral := by
  have hputs (a b : Nat) : s.Outlasts provisionKey ((s.put Reg.NFC_STATUS_QUEUED a).put Reg.NFC_STATUS_DEFERRED b) :=
    .put (.put (.refl s) _ (by decide)) _ (by decide)
  exact (hputs _ _).trans ((outlasts_condition _ (by decide) rfl _).mono resetKey_of_provision)

/-- A write that no command waits for leaves the trust block but for the sessions. -/
theorem outlasts_issueWrite (s : State) {j : NJob} (hpair : j.pair = none) : s.Outlasts provisionKey (s.issueWrite j) := by
  have hnone (t : State) (st : Nat) : t.statusOf j.pair st = t := by rw [hpair]; rfl
  have hnand (n : Nand) : s.Outlasts provisionKey (s.setNand n) := ⟨.of_same, rfl⟩
  simp only [State.issueWrite, hnone]
  exact .ite (.refl s) (.ite (.refl s) (.ite (.refl s) (.ite (.ite (.refl s) (.ite (.refl s) ((hnand _).trans (outlasts_noteDeferral _)))) (hnand _))))

end State

/-! ## INSTALL_ROOT (R242, R342, R355) -/

/-- The bits of OTP that hold a key in owner slot i: those of its hash, and WRITTEN. -/
def ownerBits (i : Nat) (key : List Byte) : List Nat := onesOf (0x60 + 32 * i) (Config.sha256 key) ++ [(0xE0 + i) * 8]

namespace State

theorem lt_of_freeOwnerSlot {s : State} {i : Nat} (h : s.freeOwnerSlot = some i) : i < 4 := by
  have hmem := List.mem_of_find?_eq_some h
  simp only [List.mem_cons, List.not_mem_nil, or_false] at hmem
  omega

/-- A key of the key table's root i. -/
def setRoot (s : State) (i : Nat) (key : List Byte) : State :=
  { s with sec := { s.sec with roots := s.sec.roots.set (i % 4) (some key) (Nat.mod_lt _ (by decide)) } }

/-- The key takes its place in the key table and, with a new BACKUP generation, in NAND. -/
def keyInstalled (s : State) (p : Pair) (i : Nat) (key : List Byte) : State := ((s.setRoot i key).issueWrite (NJob.backup none)).otpDone p true 0

/-- What INSTALL_ROOT does with a key that it accepts. -/
def installRun (s : State) (p : Pair) (otp : OtpRun) (i : Nat) (key : List Byte) : State :=
  let r := s.clearChallenge.otpProgram (ownerBits i key) otp
  if r.2 = 0 then r.1.keyInstalled p i key else r.1.otpDone p true r.2

theorem slotWritten_eq (s : State) (i : Nat) : s.slotWritten i = otpBit s.sec.otp ((0xE0 + i) * 8) := by
  rw [State.slotWritten, otpBit, Nat.mul_div_cancel _ (by decide), Nat.mul_mod_left]

section

variable {s : State} {p : Pair} {otp : OtpRun} {bs : List Byte} (h : s.Ready) (hs : s.Serves p 0x20) (hin : s.Input p 0 bs)
include h hs hin

theorem exec_installRoot_argument (hlen : bs.length ≠ 128) : exec (.installRoot p otp) s = .next (s.status p 11) := by
  refine (State.command_ready h (fun s => s.cmdInstallRoot p otp)).trans (congrArg _ ?_)
  rw [State.cmdInstallRoot, State.serve_eq (used := 8) hs rfl, State.withInput_eq hin, if_pos hlen, stArgument]

/-- INSTALL_ROOT without a free slot, a challenge, Provision or a signature over the challenge. -/
theorem exec_installRoot_denied (hlen : bs.length = 128)
    (hno : ∀ i c, s.freeOwnerSlot = some i → s.sec.challenge = some c →
      ¬ (s.modeOf = .provision ∧ sigOk (bs.take 64) (bs.take 64 ++ s.serial ++ c) (bs.drop 64) = true)) :
    exec (.installRoot p otp) s = .next (s.status p 3) := by
  refine (State.command_ready h (fun s => s.cmdInstallRoot p otp)).trans (congrArg _ ?_)
  rw [State.cmdInstallRoot, State.serve_eq (used := 8) hs rfl, State.withInput_eq hin, if_neg (not_not.2 hlen)]
  cases hslot : s.freeOwnerSlot with
  | none => rfl
  | some i =>
    cases hchal : s.sec.challenge with
    | none => rfl
    | some c => exact if_neg (hno i c hslot hchal)

/-- INSTALL_ROOT with a key that the challenge's signature comes with. -/
theorem exec_installRoot_signed (hlen : bs.length = 128) (hmode : s.modeOf = .provision) {i : Nat} (hslot : s.freeOwnerSlot = some i) {c : List Byte}
    (hchal : s.sec.challenge = some c) (hsig : sigOk (bs.take 64) (bs.take 64 ++ s.serial ++ c) (bs.drop 64) = true) :
    exec (.installRoot p otp) s = .next (s.inOtpWindow p (fun s => s.installRun p otp i (bs.take 64))) := by
  refine (State.command_ready h (fun s => s.cmdInstallRoot p otp)).trans (congrArg _ ?_)
  rw [State.cmdInstallRoot, State.serve_eq (used := 8) hs rfl, State.withInput_eq hin, if_neg (not_not.2 hlen)]
  simp only [hslot, hchal]
  rw [if_pos ⟨hmode, hsig⟩, State.inOtpWindow, State.inOtpWindow]
  split
  · simp only [installRun, ownerBits, keyInstalled, setRoot]
    split
    · next h0 => simp only [h0, if_true]
    · next h0 => simp only [h0, if_false]
  · rfl

end

theorem installRun_takes (s : State) (p : Pair) (i : Nat) (key : List Byte) :
    s.installRun p .takes i key = (s.clearChallenge.setOtp ((ownerBits i key).foldl otpSet s.sec.otp)).keyInstalled p i key := by
  simp only [installRun, otpProgram_takes, if_true]
  rfl

/-- A key that has not been programmed whole: the bits before, the challenge spent, and the end of the operation. -/
theorem installRun_stops {s : State} {p : Pair} {otp : OtpRun} {i k st : Nat} {key : List Byte} (hst : st < 256) (h0 : st ≠ 0)
    (hrun : ∀ u : State, u.otpProgram (ownerBits i key) otp = (u.setOtp (((ownerBits i key).take k).foldl otpSet u.sec.otp), st)) :
    (s.clearChallenge.setOtp (((ownerBits i key).take k).foldl otpSet s.sec.otp)).OwnerDone p st (s.installRun p otp i key) := by
  simp only [installRun, hrun, h0, if_false]
  exact ownerDone_otpDone _ p hst

theorem OwnerDone.otp {s t : State} {p : Pair} {st : Nat} (h : s.OwnerDone p st t) : t.sec.otp = s.sec.otp := (congrArg Trust.otp h.sec :)

theorem OwnerDone.otpFail {s t : State} {p : Pair} {st : Nat} (h : s.OwnerDone p st t) : t.sec.otpFail = s.sec.otpFail :=
  (congrArg Trust.otpFail h.sec :)

theorem OwnerDone.roots {s t : State} {p : Pair} {st : Nat} (h : s.OwnerDone p st t) : t.sec.roots = s.sec.roots := (congrArg Trust.roots h.sec :)

theorem OwnerDone.challenge {s t : State} {p : Pair} {st : Nat} (h : s.OwnerDone p st t) : t.sec.challenge = s.sec.challenge :=
  (congrArg Trust.challenge h.sec :)

/-- A key in the key table, with a BACKUP generation issued: of the trust block the root alone has changed. -/
theorem keyInstalled_done (s : State) (p : Pair) (i : Nat) (key : List Byte) :
    ∃ u : State, u.OwnerDone p 0 (s.keyInstalled p i key) ∧ Trust.lasting u.sec = Trust.lasting (s.setRoot i key).sec ∧
      (s.nandReady = true → 8 ≤ s.nand.free.length → s.nandWindow = true → u.nand = { s.nand with jobs := s.nand.jobs ++ [NJob.backup none] }) := by
  refine ⟨(s.setRoot i key).issueWrite (NJob.backup none), ownerDone_otpDone _ p (by decide), ?_, fun hready hfree hw => ?_⟩
  · exact (outlasts_issueWrite (s.setRoot i key) rfl).sec
  · have hadmits : (s.setRoot i key).Admits (NJob.backup none) := ⟨hready, .inl hfree, by decide⟩
    rw [issueWrite_open hadmits hw]
    rfl

end State

end Sys2Proof.Machine
end

section

/-! # REVOKE_ROOT to DEBUG_UNLOCK (O45) -/

namespace Sys2Proof.Machine

namespace State

/-! ## REVOKE_ROOT (R338, R355) -/

theorem slotUsable_congr {s t : State} (hotp : t.sec.otp = s.sec.otp) (hfail : t.sec.otpFail = s.sec.otpFail) (i : Nat) :
    t.slotUsable i = s.slotUsable i := by
  simp only [State.slotUsable, State.slotWritten, State.slotRevoked, State.otpOk, hotp, hfail]

/-- The REVOKED bit of slot i. -/
theorem slotRevoked_of_bit {s : State} {i : Nat} (h : otpBit s.sec.otp ((0xE0 + i) * 8 + 1) = true) : s.slotUsable i = false := by
  have hbyte : ((0xE0 + i) * 8 + 1) / 8 = 0xE0 + i := by omega
  have hbit : ((0xE0 + i) * 8 + 1) % 8 = 1 := by omega
  rw [otpBit, hbyte, hbit] at h
  simp [State.slotUsable, State.slotRevoked, h]

theorem slotUsable_revoke_self (s : State) (i : Nat) : (s.setOtp (otpSet s.sec.otp ((0xE0 + i) * 8 + 1))).slotUsable i = false :=
  slotRevoked_of_bit ((otpBit_otpSet ..).trans (by simp))

theorem slotUsable_revoke_other (s : State) {i j : Nat} (h : j ≠ i) :
    (s.setOtp (otpSet s.sec.otp ((0xE0 + i) * 8 + 1))).slotUsable j = s.slotUsable j := by
  have hbyte : (otpSet s.sec.otp ((0xE0 + i) * 8 + 1)).byte (0xE0 + j) = s.sec.otp.byte (0xE0 + j) :=
    Memory.byte_setByte_other _ _ (by omega)
  simp only [State.slotUsable, State.slotWritten, State.slotRevoked, State.otpOk, State.setOtp, hbyte]

/-- What REVOKE_ROOT does with a slot that it may revoke. -/
def revokeRun (s : State) (p : Pair) (otp : OtpRun) (i : Nat) : State :=
  let r := s.otpProgram [(0xE0 + i) * 8 + 1] otp
  r.1.otpDone p true r.2

theorem exec_revokeRoot {s : State} {p : Pair} {otp : OtpRun} (h : s.Ready) (hs : s.Serves p 0x21) : exec (.revokeRoot p otp) s = .next
    (if 4 ≤ s.arg p 0 1 then s.status p 11
    else if s.modeOf = .provision ∧ s.slotUsable (s.arg p 0 1) ∧ [0, 1, 2, 3].any (fun j => j ≠ s.arg p 0 1 && s.slotUsable j) then
      s.inOtpWindow p (fun t => t.revokeRun p otp (s.arg p 0 1))
    else s.status p 3) := by
  refine (State.command_ready h (fun s => s.cmdRevokeRoot p otp)).trans (congrArg _ ?_)
  rw [State.cmdRevokeRoot, State.serve_eq (used := 1) hs rfl]
  rfl

theorem revokeRun_takes (s : State) (p : Pair) (i : Nat) :
    (s.setOtp (otpSet s.sec.otp ((0xE0 + i) * 8 + 1))).OwnerDone p 0 (s.revokeRun p .takes i) := by
  simp only [revokeRun, otpProgram_takes, List.foldl_cons, List.foldl_nil]
  exact ownerDone_otpDone _ p (by decide)

theorem revokeRun_stops (s : State) (p : Pair) {otp : OtpRun} {i st : Nat} (hst : st < 256)
    (hrun : s.otpProgram [(0xE0 + i) * 8 + 1] otp = (s.setOtp s.sec.otp, st)) : s.OwnerDone p st (s.revokeRun p otp i) := by
  have hsame : s.setOtp s.sec.otp = s := rfl
  simp only [revokeRun, hrun, hsame]
  exact ownerDone_otpDone _ p hst

/-! ## PROVISION_END (R355, R397) -/

theorem exec_provisionEnd {s : State} {p : Pair} (h : s.Ready) (hs : s.Serves p 0x22) : exec (.provisionEnd p) s = .next
    (if s.modeOf = .provision ∧ (s.firmwarePasses 0 s.rollback || s.firmwarePasses 1 s.rollback) then (s.status p 0).warmReset 4 none
    else s.status p 3) :=
  (State.command_ready h (fun s => s.cmdProvisionEnd p)).trans (congrArg _ (State.serve_eq hs rfl _))

theorem Reacts.pending {s t : State} (h : s.Reacts t) : t.pending = s.pending := by
  obtain ⟨regs, ch, mgmt, rif, flt, rfl⟩ := h
  rfl

theorem pending_status (s : State) (p : Pair) (st : Nat) : (s.status p st).pending = s.pending :=
  (s.reacts_complete p st 0 0 []).pending.trans (pending_basWrite ..)

/-! ## REPROVISION and DEBUG_UNLOCK (R356, R362) -/

theorem exec_reprovision {s : State} {p : Pair} {bs : List Byte} (h : s.Ready) (hs : s.Serves p 0x23) (hin : s.Input p 0 bs) :
    exec (.reprovision p) s = .next
      (if !s.on Reg.SEC_POLICY_REPROVISION then s.status p 3
      else if s.reprovisionOk bs then (s.clearChallenge.put Reg.SYS_MODE_PROVISION 1).status p 0
      else s.clearChallenge.fails p 3 0 (if s.reprovisionMisused bs then [16, 15] else [16])) := by
  refine (State.command_ready h (fun s => s.cmdReprovision p)).trans (congrArg _ ?_)
  rw [State.cmdReprovision, State.serve_eq (used := 8) hs rfl, State.withInput_eq hin]
  rfl

theorem exec_debugUnlock {s : State} {p : Pair} {bs : List Byte} (h : s.Ready) (hs : s.Serves p 0x24) (hin : s.Input p 0 bs) :
    exec (.debugUnlock p) s = .next
      (if s.debugOpens bs then ((s.openDebug bs).status p 0).noteKeys else s.refuseDebug.fails p 3 0 (s.debugFaults bs)) := by
  refine (State.command_ready h (fun s => s.cmdDebugUnlock p)).trans (congrArg _ ?_)
  rw [State.cmdDebugUnlock, State.serve_eq (used := 8) hs rfl, State.withInput_eq hin]
  rfl

/-- A command that is refused with faults of the security engine: its end, the trust block as it was but for the sessions, the latch of Provision, and
the first fault. -/
theorem fails_leaves (s : State) (p : Pair) {st n : Nat} (hst : st < 256) {l : List Nat}
    (hl : ∀ m ∈ n :: l, m < 192 ∧ m ≠ 14 ∧ Src.light m = false ∧ blockOf m = some .security) :
    (s.fails p st 0 (n :: l)).Ended p st ∧ Trust.lasting (s.fails p st 0 (n :: l)).sec = Trust.lasting s.sec ∧
      (s.fails p st 0 (n :: l)).sticky n = true ∧ (s.fails p st 0 (n :: l)).rd Reg.SYS_MODE_PROVISION = s.rd Reg.SYS_MODE_PROVISION := by
  obtain ⟨hn, -, hc, -⟩ := hl n List.mem_cons_self
  have hguards := guards_fails s p st hl
  have hrest : ((s.status p st).raise n).Guards p (s.fails p st 0 (n :: l)) := guards_raises p _ (fun m hm => hl m (List.mem_cons_of_mem n hm))
  have hstatus := provisionKey_of_status s p st
  have hended : (s.complete p st 0 0 []).Ended p st := s.ended_complete p hst 0 0 []
  exact ⟨hguards.spares.ended st hended, hguards.outlasts.sec.trans hstatus.sec, hrest.spares.sticky n hn (sticky_raise_control _ hn hc none),
    (hguards.outlasts.rd (by decide)).trans (hstatus.rd (by decide))⟩

end State

theorem security_sources {n m : Nat} {b : Bool} (hn : n = 16 ∨ n = 19) (h : m ∈ n :: if b then [15] else []) :
    m < 192 ∧ m ≠ 14 ∧ Src.light m = false ∧ blockOf m = some .security := by
  have hm : m = 15 ∨ m = 16 ∨ m = 19 := by
    rcases List.mem_cons.1 h with rfl | h
    · omega
    · cases b with
      | true => exact .inl (List.mem_singleton.1 h)
      | false => exact absurd h (List.not_mem_nil)
  rcases hm with rfl | rfl | rfl <;> decide

/-- Settles O45: each command by its conditions in order, and by what the end of an operation on OTP leaves. -/
theorem provisioning : Obligations.Provisioning := by
  unfold Obligations.Provisioning
  intro s p bs h
  refine ⟨fun otp hs hin => ⟨fun hlen => State.exec_installRoot_argument h hs hin hlen, fun hlen => ⟨fun hno => ?_, fun i c hmode hslot hchal hsig => ?_⟩⟩,
    fun otp i hs hi => ⟨fun hrange => ?_, fun hrange hno => ?_, fun j hrange hj hne hmode husable hother => ?_⟩,
    fun hs => ⟨fun hno => ?_, fun hmode hpass => ?_⟩, fun hs hin => ⟨fun hoff => ?_, fun hon hok => ?_, fun hon hbad => ?_⟩,
    fun hs hin => ⟨fun hon hok => ?_, fun hno => ?_⟩⟩
  · refine State.exec_installRoot_denied h hs hin hlen (fun i c hslot hchal hyes => ?_)
    rcases hno with hmode | hnone | hnone | hsig
    · exact hmode hyes.1
    · simp [hnone] at hslot
    · simp [hnone] at hchal
    · exact absurd hyes.2 (by rw [hsig c hchal]; decide)
  · rw [State.exec_installRoot_signed h hs hin hlen hmode hslot hchal hsig]
    refine ⟨fun hcold => congrArg _ (if_neg (by simp [hcold])), fun hwindow ones hones => ?_⟩
    replace hones : ones = ownerBits i (bs.take 64) := hones
    subst hones
    rw [State.inOtpWindow, if_pos hwindow]
    refine ⟨fun htakes => ⟨_, rfl, ?_⟩, fun k hstops hk => ⟨_, rfl, ?_⟩⟩
    · subst htakes
      have hi : i < 4 := State.lt_of_freeOwnerSlot hslot
      rw [State.installRun_takes]
      obtain ⟨u, hdone, husec, hunand⟩ :=
        State.keyInstalled_done (s.clearChallenge.setOtp ((ownerBits i (bs.take 64)).foldl otpSet s.sec.otp)) p i (bs.take 64)
      have hotp := hdone.otp.trans (congrArg Trust.otp husec :)
      have hroots := hdone.roots.trans (congrArg Trust.roots husec :)
      have hchallenge := hdone.challenge.trans (congrArg Trust.challenge husec :)
      refine ⟨hotp, ?_, ?_, hchallenge, hdone.told, hdone.event, hdone.ended, hdone.written, fun hready hfree hw => hdone.nand.trans (hunand hready hfree hw)⟩
      · rw [State.slotWritten_eq, hotp]
        exact (otpBit_otpSets ..).trans (by simp [ownerBits])
      · rw [hroots]
        simp [State.setRoot, Trust.lasting, Nat.mod_eq_of_lt hi, hi]
    · rcases hstops with rfl | rfl
      · have hdone := State.installRun_stops (s := s) (p := p) (st := 2) (by decide) (by decide) (fun u => u.otpProgram_fails hk)
        exact ⟨hdone.otp, hdone.roots, hdone.nand, fun _ => ⟨hdone.failed rfl, hdone.ended⟩, fun hx => by cases hx⟩
      · have hdone := State.installRun_stops (s := s) (p := p) (st := 5) (by decide) (by decide) (fun u => u.otpProgram_aborts hk)
        exact ⟨hdone.otp, hdone.roots, hdone.nand, (fun hx => by cases hx), fun _ => ⟨hdone.unfailed (by decide), hdone.ended⟩⟩
  · rw [State.exec_revokeRoot h hs, ← hi, if_pos hrange]
  · rw [State.exec_revokeRoot h hs, ← hi, if_neg (by omega), if_neg]
    rintro ⟨hmode, husable, hany⟩
    obtain ⟨j, hj, hboth⟩ := List.any_eq_true.1 hany
    simp only [Bool.and_eq_true, decide_eq_true_eq] at hboth
    have hj : j < 4 := by
      simp only [List.mem_cons, List.not_mem_nil, or_false] at hj
      omega
    rcases hno with hmode' | hrevoked | hlast
    · exact hmode' hmode
    · simp [hrevoked] at husable
    · simp [hlast j hj hboth.1] at hboth
  · have hany : [0, 1, 2, 3].any (fun j => j ≠ i && s.slotUsable j) = true := by
      refine List.any_eq_true.2 ⟨j, ?_, by simp [hne, hother]⟩
      simp only [List.mem_cons, List.not_mem_nil, or_false]
      omega
    rw [State.exec_revokeRoot h hs, ← hi, if_neg (by omega), if_pos ⟨hmode, husable, hany⟩, State.inOtpWindow]
    refine ⟨fun hcold => congrArg _ (if_neg (by simp [hcold])), fun hwindow htakes => ?_, fun hwindow hstops => ?_⟩
    · subst htakes
      have hdone := s.revokeRun_takes p i
      rw [if_pos hwindow]
      refine ⟨_, rfl, hdone.otp, ?_, ?_, hdone.told, hdone.ended⟩
      · rw [State.slotUsable_congr hdone.otp hdone.otpFail, State.slotUsable_revoke_self]
      · rw [State.slotUsable_congr hdone.otp hdone.otpFail, State.slotUsable_revoke_other s hne, hother]
    · rw [if_pos hwindow]
      rcases hstops with rfl | rfl
      · have hdone := s.revokeRun_stops p (i := i) (st := 2) (by decide) (s.otpProgram_fails (bits := [_]) (k := 0) Nat.zero_lt_one)
        exact ⟨_, rfl, hdone.otp, fun _ => ⟨hdone.failed rfl, hdone.ended⟩, fun hx => by cases hx⟩
      · have hdone := s.revokeRun_stops p (i := i) (st := 5) (by decide) (s.otpProgram_aborts (bits := [_]) (k := 0) Nat.zero_lt_one)
        exact ⟨_, rfl, hdone.otp, (fun hx => by cases hx), fun _ => hdone.ended⟩
  · rw [State.exec_provisionEnd h hs, if_neg]
    rintro ⟨hmode, hpass⟩
    rcases hno with hmode' | ⟨hA, hB⟩
    · exact hmode' hmode
    · simp [hA, hB] at hpass
  · rw [State.exec_provisionEnd h hs, if_pos ⟨hmode, by simpa using hpass⟩]
    obtain ⟨hphase, hcause, -, hepoch, hotp, hpending⟩ := (s.status p 0).warmReset_leaves (cause := 4) (by decide)
    have hkey := (State.outlasts_status s p 0).rd (g := Reg.SYS_EPOCH_EPOCH) (by decide)
    exact ⟨_, rfl, hphase, hcause, hotp.trans (congrArg Trust.otp (s.sec_complete ..)), hepoch.trans (by rw [hkey]),
      hpending.trans (s.pending_status p 0)⟩
  · rw [State.exec_reprovision h hs hin, if_pos (by simp [hoff])]
  · rw [State.exec_reprovision h hs hin, if_neg (by simp [hon]), if_pos hok]
    rfl
  · have hlist : (if s.reprovisionMisused bs then [16, 15] else [16]) = 16 :: if s.reprovisionMisused bs then [15] else [] := by
      cases s.reprovisionMisused bs <;> rfl
    obtain ⟨hended, hsec, hsticky, hlatch⟩ := s.clearChallenge.fails_leaves p (st := 3) (by decide)
      (fun m hm => security_sources (b := s.reprovisionMisused bs) (.inl rfl) hm)
    rw [State.exec_reprovision h hs hin, if_neg (by simp [hon]), if_neg (by simp [hbad]), hlist]
    exact ⟨_, rfl, (congrArg Trust.challenge hsec :), hsticky, hended, hlatch⟩
  · obtain ⟨hkeys, -⟩ := State.guards_noteKeys p ((s.openDebug bs).status p 0)
    have hsec := (s.openDebug bs).sec_complete p 0 0 0 []
    rw [State.exec_debugUnlock h hs hin, if_pos (by simp [State.debugOpens, hon, hok])]
    exact ⟨_, rfl, hkeys.outlasts.scope.trans (congrArg Trust.scope hsec), hkeys.outlasts.challenge.trans (congrArg Trust.challenge hsec),
      hkeys.spares.ended 0 (State.ended_complete _ _ (by decide) ..)⟩
  · have hlist : s.debugFaults bs = 19 :: if (s.signer (leAt bs 52 1) permDebug).2 then [15] else [] := by
      unfold State.debugFaults
      cases (s.signer (leAt bs 52 1) permDebug).2 <;> rfl
    obtain ⟨hended, hsec, hsticky, -⟩ := s.refuseDebug.fails_leaves p (st := 3) (by decide)
      (fun m hm => security_sources (b := (s.signer (leAt bs 52 1) permDebug).2) (.inr rfl) hm)
    rw [State.exec_debugUnlock h hs hin, if_neg (by rcases hno with hoff | hoff <;> simp [State.debugOpens, hoff]), hlist]
    exact ⟨_, rfl, (congrArg Trust.scope hsec :), (congrArg Trust.challenge hsec :), hsticky, hended⟩

end Sys2Proof.Machine
end

section

/-! # The storage commands SYNC, BACKUP, SHUTDOWN and START_SET (O49) -/

namespace Sys2Proof.Machine

namespace State

/-! ## What a completion and the deferral queue's note leave (R382) -/

/-- The live bit of a source other than FS032 and FS042, whose bits follow their links. -/
theorem live_eq_bitOf (s : State) {n : Nat} (h32 : n ≠ 32) (h42 : n ≠ 42) : s.live n = s.bitOf (Reg.FLT_LIVE_LIVE (n / 32)) (n % 32) := by
  rw [State.live, beq_false_of_ne h32, beq_false_of_ne h42, Bool.false_and, Bool.false_and, Bool.or_false, Bool.or_false]

theorem live_congr {s t : State} {n : Nat} (h32 : n ≠ 32) (h42 : n ≠ 42)
    (h : t.rd (Reg.FLT_LIVE_LIVE (n / 32)) = s.rd (Reg.FLT_LIVE_LIVE (n / 32))) : t.live n = s.live n := by
  rw [live_eq_bitOf t h32 h42, live_eq_bitOf s h32 h42, bitOf_congr h]

theorem live_status (s : State) (p : Pair) (st : Nat) : (s.status p st).live 166 = s.live 166 :=
  live_congr (by decide) (by decide) ((leaves_status s p st).rd _ (by decide))

theorem nand_noteDeferral {s : State} (h : s.live 166 = true ∨ s.on (Reg.FLT_REACT_BR 166) = false) : s.noteDeferral.nand = s.nand := by
  unfold State.noteDeferral
  extract_lets held t
  have hlow : s.SameRegs t [Reg.NFC_STATUS_QUEUED, Reg.NFC_STATUS_DEFERRED] :=
    .put (.put (.refl s _) (by simp) _) (by simp) _
  have hlive : t.live 166 = s.live 166 := live_congr (by decide) (by decide) (hlow _ (by decide))
  have hbr : t.on (Reg.FLT_REACT_BR 166) = s.on (Reg.FLT_REACT_BR 166) := on_congr (hlow _ (by decide))
  rw [← hlive, ← hbr] at h
  have hnand : t.nand = s.nand := rfl
  clear_value t
  unfold State.condition
  split
  · split
    · exact hnand
    · next hoff => exact (reacts_raise_noReset (by decide) rfl (h.resolve_left hoff) none).nand.trans hnand
  · exact hnand

theorem spares_noteDeferral (p : Pair) (s : State) : s.Spares p s.noteDeferral := by
  have hputs (a b : Nat) : s.Spares p ((s.put Reg.NFC_STATUS_QUEUED a).put Reg.NFC_STATUS_DEFERRED b) :=
    .put (.put (.refl p s) _ (by cases p <;> decide)) _ (by cases p <;> decide)
  exact (hputs _ _).trans (spares_condition p _ (by decide) rfl _)

/-- A write that is taken into the deferral queue: QUEUED to the command, and the queue as it then stands. -/
theorem deferred_status {s : State} (p : Pair) (j : NJob) (h : s.live 166 = true ∨ s.on (Reg.FLT_REACT_BR 166) = false) :
    (((s.deferJob j).status p 6).noteDeferral).nand = { s.nand with deferred := s.nand.deferred ++ [{ j with pair := none }] } ∧
      (((s.deferJob j).status p 6).noteDeferral).Ended p 6 := by
  have hended : ((s.deferJob j).status p 6).Ended p 6 := ended_complete _ p (by decide) 0 0 []
  have hnand : ((s.deferJob j).status p 6).nand = (s.deferJob j).nand := nand_complete _ p 6 0 0 []
  have hlive : ((s.deferJob j).status p 6).live 166 = s.live 166 := live_status _ p 6
  have hbr : ((s.deferJob j).status p 6).on (Reg.FLT_REACT_BR 166) = s.on (Reg.FLT_REACT_BR 166) :=
    on_congr ((outlasts_status (s.deferJob j) p 6).rd (by decide))
  rw [← hlive, ← hbr] at h
  generalize (s.deferJob j).status p 6 = t at *
  exact ⟨(nand_noteDeferral h).trans hnand, (spares_noteDeferral p t).ended 6 hended⟩

/-! ## SYNC, BACKUP and SHUTDOWN (R380-R382) -/

theorem exec_sync {s : State} (h : s.Ready) (hs : s.Serves .session 0x52) : exec .sync s = .next
    (if s.nand.deferred.isEmpty then s.status .session 0 else if s.nandWindow then s else s.status .session 5) := by
  refine (State.command_ready h State.cmdSync).trans (congrArg _ ?_)
  rw [State.cmdSync, State.serve_eq (used := 0) hs rfl, State.noteSync, if_neg (by simp [hs.1])]

theorem exec_backup {s : State} (h : s.Ready) (hs : s.Serves .session 0x53) :
    exec .backup s = .next (s.issueWrite (NJob.backup (some .session))) :=
  (State.command_ready h State.cmdBackup).trans (congrArg _ (State.serve_eq hs rfl _))

theorem exec_shutdown {s : State} (h : s.Ready) (hs : s.Serves .session 0x54) :
    exec .shutdown s = .next (s.checkpoint (some .session)) :=
  (State.command_ready h State.cmdShutdown).trans (congrArg _ (State.serve_eq hs rfl _))

theorem admits_backup {s : State} (hready : s.nandReady = true) (hfree : 8 ≤ s.nand.free.length) (pair : Option Pair) :
    s.Admits (NJob.backup pair) := ⟨hready, .inl hfree, by simp [NJob.backup]⟩

theorem admits_checkpoint {s : State} (hready : s.nandReady = true) (pair : Option Pair) : s.Admits { s.checkpointJob with pair := pair } :=
  ⟨hready, .inr (by simp [State.checkpointJob]), by simp [State.checkpointJob]⟩

theorem issueWrite_noBackup {s : State} (h : s.nandReady = false ∨ s.nand.free.length < 8) (p : Pair) :
    s.issueWrite (NJob.backup (some p)) = s.status p 2 := by
  rcases h with h | h
  · exact issueWrite_unready h _
  · exact issueWrite_short h rfl

theorem checkpoint_merges {s : State} (h : s.nand.jobs.any (fun j => j.kind = .checkpoint) = true) (waiting : Option Pair) :
    s.checkpoint waiting = s.setNand { s.nand with ckptPairs := s.nand.ckptPairs ++ waiting.toList } := if_pos h

theorem checkpoint_begins {s : State} (h : s.nand.jobs.any (fun j => j.kind = .checkpoint) = false) (hready : s.nandReady = true)
    (hw : s.nandWindow = true) (waiting : Option Pair) : s.checkpoint waiting =
      (s.setNand { s.nand with jobs := s.nand.jobs ++ [s.checkpointJob], ckptPairs := s.nand.ckptPairs ++ waiting.toList }).put Reg.NFC_STATUS_CKPT_BUSY 1 :=
  (if_neg (by simp [h])).trans (if_pos (by simp [hready, hw]))

theorem checkpoint_issues {s : State} (h : s.nand.jobs.any (fun j => j.kind = .checkpoint) = false) (hno : s.nandReady = false ∨ s.nandWindow = false)
    (waiting : Option Pair) : s.checkpoint waiting = s.issueWrite { s.checkpointJob with pair := waiting } :=
  (if_neg (by simp [h])).trans (if_neg (by simpa using fun hr => hno.resolve_left (by simp [hr])))

/-! ## START_SET (R381, R393) -/

/-- The start record that START_SET's argument bytes name. -/
def startWanted (s : State) : StartRec :=
  { f := s.arg .session 0 1, sc := s.arg .session 1 1, slot := s.arg .session 2 1, budget := s.arg .session 3 2, auto := s.arg .session 5 1 = 1 }

theorem exec_startSet {s : State} (h : s.Ready) (hs : s.Serves .session 0x55) : exec .startSet s = .next
    (if clampRate (s.arg .session 0 1) (s.arg .session 1 1) ≠ (s.arg .session 0 1, s.arg .session 1 1) ∨ 2 ≤ s.arg .session 2 1 ∨
        2 ≤ s.arg .session 5 1 then s.status .session 11
    else State.issueWrite (if s.backupTaken then s.setNand { s.nand with start := some s.startWanted } else s) (NJob.backup (some .session))) := by
  refine (State.command_ready h State.cmdStartSet).trans (congrArg _ ?_)
  rw [State.cmdStartSet, State.serve_eq (used := 6) hs rfl]
  rfl

theorem backupTaken_open {s : State} (hready : s.nandReady = true) (hfree : 8 ≤ s.nand.free.length) (hw : s.nandWindow = true) :
    s.backupTaken = true := by
  simp [State.backupTaken, hready, hfree, hw]

theorem backupTaken_refused {s : State} (h : s.nandReady = false ∨ s.nand.free.length < 8) : s.backupTaken = false := by
  rcases h with h | h
  · simp [State.backupTaken, h]
  · simp [State.backupTaken, Nat.not_le.2 h]

end State

end Sys2Proof.Machine
end

section

/-! # CALIBRATE, RESYNC and the commands of the latches (O49) -/

namespace Sys2Proof.Machine

namespace State

/-! ## The calibration queue (R226) -/

/-- A reach that a request adds to the queue: it is neither queued nor running. -/
def queues (s : State) (r : Nat) : Bool := !s.cal.queue.contains r && s.calReach != some r

theorem calQueue_cons (s : State) (r : Nat) (rs : List Nat) : s.calQueue (r :: rs) =
    (if s.queues r then State.putBit { s with cal := { s.cal with queue := s.cal.queue ++ [r] } } Reg.CAL_STATUS_QUEUED r true else s).calQueue rs := by
  have hor : s.queues r = !(s.cal.queue.contains r || decide (s.calReach = some r)) := by
    simp only [queues, Bool.not_or, bne, beq_eq_decide]
  rw [hor]
  unfold State.calQueue
  rw [List.foldl_cons]
  cases s.cal.queue.contains r || decide (s.calReach = some r) <;> rfl

/-- A request queues, in its order, its reaches that are neither queued nor running; nothing but the queue and its register changes. -/
theorem calQueue_spec (s : State) {reaches : List Nat} (h : reaches.Nodup) :
    { s.calQueue reaches with regs := s.regs, cal := s.cal } = s ∧
      (s.calQueue reaches).cal = { s.cal with queue := s.cal.queue ++ reaches.filter s.queues } := by
  induction reaches generalizing s with
  | nil => exact ⟨rfl, by simp [State.calQueue]⟩
  | cons r rs ih =>
    obtain ⟨hnew, hrs⟩ := List.nodup_cons.1 h
    rw [calQueue_cons]
    cases hr : s.queues r with
    | false => simpa [hr] using ih s hrs
    | true =>
      set u := State.putBit { s with cal := { s.cal with queue := s.cal.queue ++ [r] } } Reg.CAL_STATUS_QUEUED r true with hu
      have hcal : u.cal = { s.cal with queue := s.cal.queue ++ [r] } := rfl
      have hframe : { u with regs := s.regs, cal := s.cal } = s := rfl
      have hsame : rs.filter u.queues = rs.filter s.queues := by
        refine List.filter_congr (fun x hx => ?_)
        have hne : x ≠ r := fun he => hnew (he ▸ hx)
        simp [queues, State.calReach, hcal, hne]
      obtain ⟨hother, hqueue⟩ := ih u hrs
      rw [if_pos rfl]
      constructor
      · calc { u.calQueue rs with regs := s.regs, cal := s.cal }
          _ = { { u.calQueue rs with regs := u.regs, cal := u.cal } with regs := s.regs, cal := s.cal } := rfl
          _ = { u with regs := s.regs, cal := s.cal } := by rw [hother]
          _ = s := hframe
      · rw [hqueue, hsame, hcal]
        simp [hr]

theorem maskReaches_nodup (m : Nat) : (maskReaches m).Nodup := List.Nodup.filter _ List.nodup_range

theorem filter_maskReaches (s : State) (m : Nat) : (maskReaches m).filter s.queues = (List.range 16).filter (fun r => m.testBit r && s.queues r) := by
  rw [maskReaches, List.filter_filter]
  exact List.filter_congr (fun r _ => Bool.and_comm _ _)

theorem exec_calibrate {s : State} (h : s.Ready) (hs : s.Serves .session 0x60) :
    exec .calibrate s = .next ((s.calQueue (maskReaches (s.arg .session 0 2))).status .session 0) :=
  (State.command_ready h State.cmdCalibrate).trans (congrArg _ (State.serve_eq hs rfl _))

theorem Reacts.cal {s t : State} (h : s.Reacts t) : t.cal = s.cal := by
  obtain ⟨regs, ch, mgmt, rif, flt, rfl⟩ := h
  rfl

theorem cal_status (s : State) (p : Pair) (st : Nat) : (s.status p st).cal = s.cal :=
  (s.reacts_complete p st 0 0 []).cal.trans (cal_basWrite ..)

/-! ## RESYNC (R332) -/

theorem exec_resync {s : State} (h : s.Ready) (hs : s.Serves .session 0x61) : exec .resync s = .next (s.resyncRequest.status .session 0) :=
  (State.command_ready h State.cmdResync).trans (congrArg _ (State.serve_eq hs rfl _))

/-! ## The light by its inputs (R123, R387, R389) -/

/-- The register fields that the light depends on. -/
def lightFields : List Fld :=
  [Reg.PEER_CFG_PAIRED, Reg.PEER_STATUS_ROLE, Reg.SYS_MODE_TEST, Reg.SYS_MODE_MAINT, Reg.SYS_MODE_PROVISION, Reg.SYS_MODE_DEGRADED,
    Reg.CAL_STATUS_RUNNING, Reg.SEQ_CTRL_FREE_LIGHT, Reg.THM_STATUS_TRIP]

theorem running_congr {s t : State} (h : t.seq.state = s.seq.state) : t.running = s.running := by rw [State.running, h, State.running]

section

variable {s t : State} (hstate : t.seq.state = s.seq.state) (hmode : t.mode = s.mode) (hregs : ∀ f ∈ lightFields, t.rd f = s.rd f)
include hstate hmode hregs

theorem modeOf_congr : t.modeOf = s.modeOf := by
  simp only [lightFields, List.forall_mem_cons, List.not_mem_nil, false_implies, implies_true, and_true] at hregs
  simp only [State.modeOf, State.on, running_congr hstate, hmode, hregs]
  rfl

theorem lights_congr (hleft : t.peer.compatLeft = s.peer.compatLeft) (hextest : t.sec.extest = s.sec.extest) : t.lights = s.lights := by
  have hfree : t.on Reg.SEQ_CTRL_FREE_LIGHT = s.on Reg.SEQ_CTRL_FREE_LIGHT := on_congr (hregs _ (by simp [lightFields]))
  have htrip : t.on Reg.THM_STATUS_TRIP = s.on Reg.THM_STATUS_TRIP := on_congr (hregs _ (by simp [lightFields]))
  rw [State.lights, State.lights, modeOf_congr hstate hmode hregs, hstate, hmode, hleft, hextest, hfree, htrip]

end

theorem Reacts.peer {s t : State} (h : s.Reacts t) : t.peer = s.peer := by
  obtain ⟨regs, ch, mgmt, rif, flt, rfl⟩ := h
  rfl

theorem peer_status (s : State) (p : Pair) (st : Nat) : (s.status p st).peer = s.peer :=
  (s.reacts_complete p st 0 0 []).peer.trans (peer_basWrite ..)

theorem lights_status (s : State) (p : Pair) (st : Nat) : (s.status p st).lights = s.lights := by
  have hleaves := leaves_status s p st
  have hkeys : ∀ f ∈ lightFields, beyondReset f.key = true := by decide
  exact lights_congr (congrArg Seq.state hleaves.seq) hleaves.mode (fun f hf => (outlasts_status s p st).rd (hkeys f hf))
    (congrArg Peer.compatLeft (s.peer_status p st)) (congrArg Trust.extest (s.sec_complete p st 0 0 []))

/-! ## The latches of Maintenance and Test (R389) -/

/-- RUN becomes 0: of the registers it alone, and of the rest of the state nothing but the start that is given up. -/
structure Stops (s t : State) : Prop where
  regs : t.regs = (s.put Reg.SEQ_CTRL_RUN 0).regs
  state : t.seq.state = s.seq.state
  mode : t.mode = s.mode
  peer : t.peer = s.peer
  sec : t.sec = s.sec

theorem stops_clearRun (s : State) : s.Stops s.clearRun := by
  unfold State.clearRun
  extract_lets t
  split
  · exact ⟨rfl, rfl, rfl, rfl, rfl⟩
  · exact ⟨rfl, rfl, rfl, rfl, rfl⟩

theorem Stops.run {s t : State} (h : s.Stops t) : t.on Reg.SEQ_CTRL_RUN = false := by
  have hrd : t.rd Reg.SEQ_CTRL_RUN = (s.put Reg.SEQ_CTRL_RUN 0).rd Reg.SEQ_CTRL_RUN := by rw [State.rd, h.regs, State.rd]
  rw [State.on, hrd, rd_put_self]
  rfl

theorem Stops.rd {s t : State} (h : s.Stops t) {g : Fld} (hg : Reg.SEQ_CTRL_RUN.key ≠ g.key) : t.rd g = s.rd g := by
  rw [State.rd, h.regs]
  exact s.rd_put_other 0 hg

/-- The state with the Maintenance latch set, before RUN is cleared. -/
def maintSet (s : State) : State := State.put { s with mode := { s.mode with afterglow := s.lights } } Reg.SYS_MODE_MAINT 1

theorem maintSet_rd (s : State) {g : Fld} (hg : Reg.SYS_MODE_MAINT.key ≠ g.key) : s.maintSet.rd g = s.rd g := State.rd_put_other _ 1 hg

theorem maintSet_maint (s : State) : s.maintSet.on Reg.SYS_MODE_MAINT = true := by
  rw [State.on, maintSet, rd_put_self]
  rfl

/-- With the Maintenance latch set the mode is a row above it, as before, or Maintenance. -/
theorem modeOf_maintSet {s : State} (h : s.mode.egress = false) :
    s.maintSet.modeOf = s.modeOf ∧ s.modeOf ≠ .maintenance ∨ s.maintSet.modeOf = .maintenance := by
  have hpaired : s.maintSet.on Reg.PEER_CFG_PAIRED = s.on Reg.PEER_CFG_PAIRED := on_congr (s.maintSet_rd (by decide))
  have hrole : s.maintSet.rd Reg.PEER_STATUS_ROLE = s.rd Reg.PEER_STATUS_ROLE := s.maintSet_rd (by decide)
  have htest : s.maintSet.on Reg.SYS_MODE_TEST = s.on Reg.SYS_MODE_TEST := on_congr (s.maintSet_rd (by decide))
  have hrunning : s.maintSet.running = s.running := rfl
  have hphase : s.maintSet.mode.phase = s.mode.phase := rfl
  have hdark : s.maintSet.mode.safeDark = s.mode.safeDark := rfl
  have hegress : s.maintSet.mode.egress = s.mode.egress := rfl
  have hmaint := s.maintSet_maint
  simp only [State.modeOf, hpaired, hrole, htest, hrunning, hphase, hdark, hegress, h, hmaint]
  by_cases hreset : s.mode.phase = .reset
  · simp [hreset]
  by_cases hboot : s.mode.phase = .boot
  · simp [hboot]
  by_cases hlatch : s.mode.safeDark = true
  · simp [hreset, hboot, hlatch]
  by_cases hshadow : (s.on Reg.PEER_CFG_PAIRED && s.running && s.rd Reg.PEER_STATUS_ROLE != 2) = true
  · simp [hreset, hboot, hlatch, hshadow]
  by_cases hruns : s.on Reg.SYS_MODE_TEST = true
  · simp [hreset, hboot, hlatch, hshadow, hruns]
  · simp [hreset, hboot, hlatch, hshadow, hruns]

/-- Whether the sequencer's state lights. -/
def sequencerLights (s : State) : Bool :=
  match s.seq.state with
  | .stopped => false
  | .free => s.on Reg.SEQ_CTRL_FREE_LIGHT
  | _ => true

/-- Whether a mode lights; Maintenance as the latch found it. -/
def modeLights (m : Mode) (afterglow : Bool) : Bool :=
  match m with
  | .run | .egress | .degraded | .recalibrate | .test => true
  | .maintenance => afterglow
  | _ => false

/-- What the light needs beside the mode. -/
def mayLight (s : State) : Bool :=
  s.sequencerLights && s.mode.relight = 0 && s.peer.compatLeft = 0 && !s.on Reg.THM_STATUS_TRIP && !s.sec.extest

theorem lights_eq (s : State) : s.lights = (s.mayLight && modeLights s.modeOf s.mode.afterglow) := by
  have hlights : s.lights = (s.sequencerLights && modeLights s.modeOf s.mode.afterglow && s.mode.relight = 0 && s.peer.compatLeft = 0 &&
      !s.on Reg.THM_STATUS_TRIP && !s.sec.extest) := rfl
  rw [hlights, mayLight]
  ac_rfl

theorem modeLights_other {m : Mode} (h : m ≠ .maintenance) (a b : Bool) : modeLights m a = modeLights m b := by
  cases m with
  | maintenance => exact absurd rfl h
  | _ => rfl

/-- The light as it was is what the Maintenance latch keeps of it. -/
theorem lights_maintSet {s : State} (h : s.mode.egress = false) : s.maintSet.lights = s.lights := by
  have hfree : s.maintSet.on Reg.SEQ_CTRL_FREE_LIGHT = s.on Reg.SEQ_CTRL_FREE_LIGHT := on_congr (s.maintSet_rd (by decide))
  have htrip : s.maintSet.on Reg.THM_STATUS_TRIP = s.on Reg.THM_STATUS_TRIP := on_congr (s.maintSet_rd (by decide))
  have hmay : s.maintSet.mayLight = s.mayLight := by
    rw [mayLight, sequencerLights, hfree, htrip]
    rfl
  have hglow : s.maintSet.mode.afterglow = s.lights := rfl
  rw [lights_eq s.maintSet, hmay, hglow]
  rcases modeOf_maintSet h with ⟨hmode, hne⟩ | hmode
  · rw [hmode, modeLights_other hne _ s.mode.afterglow, ← lights_eq]
  · have hkeep : (s.mayLight && s.lights) = s.lights := by rw [lights_eq, ← Bool.and_assoc, Bool.and_self]
    rw [hmode]
    exact hkeep

theorem Stops.lights {s t : State} (h : s.Stops t) : t.lights = s.lights := by
  have hkeys : ∀ f ∈ lightFields, Reg.SEQ_CTRL_RUN.key ≠ f.key := by decide
  exact lights_congr h.state h.mode (fun f hf => h.rd (hkeys f hf)) (congrArg Peer.compatLeft h.peer) (congrArg Trust.extest h.sec)

/-- What a latch of software, then the end of its command, leave. -/
theorem stops_status {u v : State} (h : u.Stops v) {f : Fld} (hf : beyondReset f.key = true) (hrun : Reg.SEQ_CTRL_RUN.key ≠ f.key) :
    (v.status .session 0).Ended .session 0 ∧ (v.status .session 0).on f = u.on f ∧ (v.status .session 0).on Reg.SEQ_CTRL_RUN = false ∧
      (v.status .session 0).seq.state = u.seq.state ∧ (v.status .session 0).lights = u.lights := by
  have hkeys := outlasts_status v .session 0
  exact ⟨v.ended_complete .session (by decide) 0 0 [], (on_congr (hkeys.rd hf)).trans (on_congr (h.rd hrun)), (on_congr (hkeys.rd (by decide))).trans h.run,
    (congrArg Seq.state hkeys.leaves.seq).trans h.state, (lights_status v .session 0).trans h.lights⟩

theorem exec_maintEnter {s : State} (h : s.Ready) (hs : s.Serves .session 0x70) :
    exec .maintEnter s = .next (if s.mode.egress then s.status .session 3 else s.setMaint.status .session 0) :=
  (State.command_ready h State.cmdMaintEnter).trans (congrArg _ (State.serve_eq hs rfl _))

theorem exec_maintExit {s : State} (h : s.Ready) (hs : s.Serves .session 0x71) :
    exec .maintExit s = .next ((s.put Reg.SYS_MODE_MAINT 0).status .session 0) :=
  (State.command_ready h State.cmdMaintExit).trans (congrArg _ (State.serve_eq hs rfl _))

theorem exec_testEnter {s : State} (h : s.Ready) (hs : s.Serves .session 0x72) : exec .testEnter s =
    .next (if s.modeOf = .idle ∨ s.modeOf = .maintenance then s.setTest.status .session 0 else s.status .session 3) :=
  (State.command_ready h State.cmdTestEnter).trans (congrArg _ (State.serve_eq hs rfl _))

theorem exec_testExit {s : State} (h : s.Ready) (hs : s.Serves .session 0x73) :
    exec .testExit s = .next ((s.put Reg.SYS_MODE_TEST 0).status .session 0) :=
  (State.command_ready h State.cmdTestExit).trans (congrArg _ (State.serve_eq hs rfl _))

theorem stops_setMaint (s : State) : s.maintSet.Stops s.setMaint := stops_clearRun _

theorem stops_setTest (s : State) : (s.put Reg.SYS_MODE_TEST 1).Stops s.setTest := stops_clearRun _

end State

/-- Settles O49: the storage commands by what the NAND answers to their write, the mode commands by the latch each sets or clears. -/
theorem storageAndModeCommands : Obligations.StorageAndModeCommands := by
  unfold Obligations.StorageAndModeCommands
  refine ⟨fun s h => ⟨fun hs => ?_, fun hs => ?_, fun hs => ?_, fun hs => ?_⟩,
    fun s h => ⟨fun hs => ?_, fun hs => ?_, fun hs => ?_, State.exec_maintExit h, fun hs => ?_, State.exec_testExit h⟩⟩
  · rw [State.exec_sync h hs]
    exact ⟨fun hempty => by rw [hempty]; rfl, fun hne hw => by rw [if_neg (by simpa using hne), if_pos hw],
      fun hne hw => by rw [if_neg (by simpa using hne), if_neg (by simp [hw])]⟩
  · rw [State.exec_backup h hs]
    refine ⟨fun hno => by rw [State.issueWrite_noBackup hno], fun hready hfree => ?_⟩
    have hadmits := State.admits_backup hready hfree (some .session)
    refine ⟨fun hw => by rw [State.issueWrite_open hadmits hw]; rfl, fun hw hany => by rw [State.issueWrite_already hadmits hw hany]; rfl,
      fun hw hany => ⟨fun hfull => by rw [State.issueWrite_refused hadmits hw hany hfull]; rfl, fun hlen hstaged hquiet => ?_⟩⟩
    rw [State.issueWrite_deferred hadmits hw hany hlen hstaged]
    exact ⟨_, rfl, State.deferred_status .session _ hquiet⟩
  · rw [State.exec_shutdown h hs]
    refine ⟨fun hany => by rw [State.checkpoint_merges hany]; rfl, fun hany => ⟨fun hno => ?_, fun hready hw halready => ?_, fun hready hw => ?_⟩⟩
    · rw [State.checkpoint_issues hany (.inl hno), State.issueWrite_unready hno]
      rfl
    · rw [State.checkpoint_issues hany (.inr hw), State.issueWrite_already (State.admits_checkpoint hready _) hw halready]
      rfl
    · rw [State.checkpoint_begins hany hready hw]
      exact ⟨_, rfl, .put (.of_regs rfl) (by simp) _, by rw [State.on, State.rd_put_self]; rfl, rfl, rfl⟩
  · rintro f sc slot auto budget rfl rfl rfl rfl rfl
    rw [State.exec_startSet h hs]
    refine ⟨fun hout => by rw [if_pos hout], fun hclamp hslot hauto => ?_⟩
    rw [if_neg (by rintro (hbad | hbad | hbad) <;> [exact hbad hclamp; omega; omega])]
    refine ⟨fun hno => ?_, fun hready hfree hw => ?_⟩
    · rw [State.backupTaken_refused hno, if_neg (by decide), State.issueWrite_noBackup hno]
    · have hadmits : State.Admits (s.setNand { s.nand with start := some s.startWanted }) (NJob.backup (some .session)) :=
        ⟨hready, .inl hfree, by simp [NJob.backup]⟩
      rw [State.backupTaken_open hready hfree hw, if_pos rfl, State.issueWrite_open hadmits hw]
      rfl
  · obtain ⟨-, hcal⟩ := s.calQueue_spec (State.maskReaches_nodup (s.arg .session 0 2))
    have hqueue : (s.calQueue (maskReaches (s.arg .session 0 2))).cal.queue =
        s.cal.queue ++ (List.range 16).filter (fun r => (s.arg .session 0 2).testBit r && s.queues r) := by
      rw [hcal, State.filter_maskReaches]
    rw [State.exec_calibrate h hs]
    refine ⟨_, rfl, State.ended_complete _ _ (by decide) .., ?_⟩
    rw [State.cal_status, hqueue]
    refine ⟨fun r => ?_, _, rfl, List.Pairwise.filter _ List.pairwise_lt_range⟩
    simp only [List.mem_append, List.mem_filter, List.mem_range, State.queues, Bool.and_eq_true, Bool.not_eq_true',
      List.contains_eq_mem, decide_eq_false_iff_not, bne_iff_ne]
    tauto
  · rw [State.exec_resync h hs]
    exact ⟨fun hyes => by rw [State.resyncRequest, if_pos hyes], fun hno => by rw [State.resyncRequest, if_neg (by simp [hno])]; rfl⟩
  · rw [State.exec_maintEnter h hs]
    refine ⟨fun hegress => by rw [if_pos hegress], fun hegress => ?_⟩
    obtain ⟨hended, hmaint, hrun, hstate, hlights⟩ := State.stops_status s.stops_setMaint (f := Reg.SYS_MODE_MAINT) (by decide) (by decide)
    rw [if_neg (by simp [hegress])]
    exact ⟨_, rfl, hended, hmaint.trans s.maintSet_maint, hrun, hstate, hlights.trans (State.lights_maintSet hegress)⟩
  · rw [State.exec_testEnter h hs]
    refine ⟨fun hidle hmaint => by rw [if_neg (by simp [hidle, hmaint])], fun hmode => ?_⟩
    obtain ⟨hended, htest, hrun, hstate, -⟩ := State.stops_status s.stops_setTest (f := Reg.SYS_MODE_TEST) (by decide) (by decide)
    have hset : (s.put Reg.SYS_MODE_TEST 1).on Reg.SYS_MODE_TEST = true := by
      rw [State.on, State.rd_put_self]
      rfl
    rw [if_pos hmode]
    exact ⟨_, rfl, hended, htest.trans hset, hrun, hstate⟩

end Sys2Proof.Machine
end

section

/-! # A raise by its block reset, and the requests of SYS_MODE_CTRL (O37) -/

namespace Sys2Proof.Machine

namespace State

/-! ## A raise by its block reset (R249-R252) -/

/-- The block reset of a source's reaction, where it is selected. -/
def resetOf (s : State) (n : Nat) : State :=
  if s.on (Reg.FLT_REACT_BR n) then
    (match blockOf n with
     | some b => s.blockReset b
     | none => s) else s

/-- Nothing but the cores and the fault collector has changed, and of it no block's reset. -/
structure Marks (s t : State) : Prop where
  told : s.Told t
  inReset : t.flt.inReset = s.flt.inReset

theorem Marks.refl (s : State) : s.Marks s := ⟨.refl s, rfl⟩

theorem Marks.trans {s t u : State} (h : s.Marks t) (k : t.Marks u) : s.Marks u := ⟨h.told.trans k.told, k.inReset.trans h.inReset⟩

theorem Marks.ite {s t u : State} {c : Prop} [Decidable c] (ht : s.Marks t) (hu : s.Marks u) : s.Marks (if c then t else u) := by
  split
  · exact ht
  · exact hu

theorem Marks.nand {s t : State} (h : s.Marks t) : t.nand = s.nand := h.told.reacts.nand

theorem Marks.rd {s t : State} (h : s.Marks t) (f : Fld) : t.rd f = s.rd f := by rw [State.rd, h.told.regs, State.rd]

/-- A control-class reaction is its block reset, between what it tells the cores and the collector. -/
theorem controlReaction_split (s : State) (n : Nat) : ∃ u, s.Marks u ∧ (u.resetOf n).Marks (s.controlReaction n) := by
  unfold State.controlReaction
  extract_lets resets s1 s2 s3 s4
  have h1 : s.Marks s1 := .ite ⟨⟨_, _, rfl⟩, rfl⟩ (.refl s)
  have h2 : s.Marks s2 := h1.trans (.ite ⟨⟨_, _, rfl⟩, rfl⟩ (.refl s1))
  have h4 : s3.Marks s4 := .ite ⟨⟨_, _, rfl⟩, rfl⟩ (.refl s3)
  exact ⟨s2, h2, h4.trans (.ite ⟨⟨_, _, rfl⟩, rfl⟩ (.refl s4))⟩

theorem flt_sendMsg (s : State) (code arg : Nat) (payload : List Byte) : (s.sendMsg code arg payload).flt = s.flt := by
  unfold State.sendMsg
  split <;> rfl

theorem flt_signalFault (s : State) (n : Nat) : (s.signalFault n).flt = s.flt := by
  unfold State.signalFault
  split
  · extract_lets t
    split
    · exact flt_sendMsg t ..
    · rfl
  · rfl

theorem inReset_escalate (s : State) (n : Nat) : (s.escalate n).flt.inReset = s.flt.inReset := by
  unfold State.escalate
  split <;> rfl

/-- What a raise has changed up to its block reset: the registers of a raise, the cores, the messages and the collector. -/
structure Announces (s t : State) : Prop where
  reacts : s.Reacts t
  leaves : s.Leaves quietKey t
  inReset : t.flt.inReset = s.flt.inReset

/-- The raise of a control-class source is its block reset, between its record and what it tells the cores and the collector. -/
theorem raise_split (s : State) {n : Nat} (hn : n < 192) (hc : Src.light n = false) (locus : Option Nat) :
    ∃ u, s.Announces u ∧ (u.resetOf n).Marks (s.raise n locus) := by
  obtain ⟨u, hmarks, hreset⟩ := controlReaction_split ((((s.noteRaise n).recordRaise n locus).signalFault n).escalate n) n
  have hin : ((((s.noteRaise n).recordRaise n locus).signalFault n).escalate n).flt.inReset = s.flt.inReset :=
    (inReset_escalate ..).trans ((congrArg Faults.inReset (flt_signalFault ..)).trans rfl)
  refine ⟨u, ⟨(reacts_raised s n locus).trans hmarks.told.reacts, (leaves_raised s hn locus).trans (leaves_told hmarks.told),
    hmarks.inReset.trans hin⟩, ?_⟩
  rw [raise_eq_raiseAt, State.raiseAt, if_neg (by simp [hc])]
  exact hreset

/-! ## SYS_MODE_CTRL (R389, R390, R397) -/

/-- A word write of one of the registers whose bits act by themselves. -/
theorem exec_wordWrite {s : State} {who : Sys2Proof.Requester} {off v : Nat} (h : s.Ready) (hw : s.MayWrite who off) (ho : off % 4 = 0)
    (hlt : off < 0x10000) (hl : (Reg.fieldsAt off).isSome = true) (hv : v < 2 ^ 32) :
    s.command (fun s => s.writeReg who off v) = .next (s.writeWord who (regBase + off) off v 0xFFFFFFFF) :=
  (State.command_ready h (fun s => s.writeReg who off v)).trans (congrArg _ (State.writeReg_eq_writeWord h.2 hw ho hlt hl hv))

section

variable {s : State} {who : Sys2Proof.Requester} (h : s.Ready) (hw : s.MayWrite who 0x0024)
include h hw

theorem exec_chipReset : exec (.chipReset who) s = .next (s.warmReset 4 none) :=
  exec_wordWrite h hw rfl (by decide) rfl (by decide)

theorem exec_safeDark : exec (.safeDark who) s = .next (s.enterSafeDark 4) := exec_wordWrite h hw rfl (by decide) rfl (by decide)

theorem exec_clearSafeDark : exec (.clearSafeDark who) s = .next s.clearSafeDark := exec_wordWrite h hw rfl (by decide) rfl (by decide)

theorem exec_resume : exec (.resume who) s = .next s.resume := exec_wordWrite h hw rfl (by decide) rfl (by decide)

end

theorem enterSafeDark_already {s : State} (h : s.mode.safeDark = true) (c : Nat) : s.enterSafeDark c = s := if_pos h

theorem enterSafeDark_new {s : State} (h : s.mode.safeDark = false) (c : Nat) :
    s.enterSafeDark c = State.put { s with mode := { s.mode with safeDark := true } } Reg.SYS_MODE_SD_CAUSE c := if_neg (by simp [h])

/-- With the Safe-Dark latch set nothing lights. -/
theorem lights_safeDark {s : State} (h : s.mode.safeDark = true) : s.lights = false := by
  have hmode : modeLights s.modeOf s.mode.afterglow = false := by
    unfold State.modeOf
    split
    · rfl
    split
    · rfl
    · rfl
  rw [lights_eq, hmode, Bool.and_false]

/-- Until the sluice that a cleared latch waits for nothing lights. -/
theorem lights_relight {s : State} (h : s.mode.relight ≠ 0) : s.lights = false := by
  rw [lights_eq, mayLight, decide_eq_false h, Bool.and_false, Bool.false_and, Bool.false_and, Bool.false_and, Bool.false_and]

theorem clearSafeDark_unset {s : State} (h : s.mode.safeDark = false) : s.clearSafeDark = s := if_pos (by simp [h])

/-- The state with the Safe-Dark latch clear, and its light waiting for a sluice where the sequencer runs. -/
def darkCleared (s : State) : State :=
  State.put { s with mode := { s.mode with safeDark := false, relight := b2n s.running } } Reg.SYS_MODE_SD_CAUSE 0

theorem clearSafeDark_clears {s : State} (h : s.mode.safeDark = true) (hc : s.safeDarkClears = true) :
    s.clearSafeDark = s.darkCleared.setLive 145 false :=
  (if_neg (by simp [h])).trans (if_pos hc)

theorem clearSafeDark_refused {s : State} (h : s.mode.safeDark = true) (hc : s.safeDarkClears = false) :
    s.clearSafeDark = s.flag Reg.SYS_MODE_EVENT_REFUSED :=
  (if_neg (by simp [h])).trans (if_neg (by simp [hc]))

theorem safeDarkClears_request {s : State} (h : s.rd Reg.SYS_MODE_SD_CAUSE = 4) : s.safeDarkClears = true := by
  rw [State.safeDarkClears, h]
  rfl

theorem safeDarkClears_heat {s : State} (h : s.rd Reg.SYS_MODE_SD_CAUSE = 1) :
    s.safeDarkClears = (s.thm.outs.all (· < 1600) && s.thm.readings.all (· < 1600)) := by
  rw [State.safeDarkClears, h]
  rfl

theorem safeDarkClears_never {s : State} (h : s.rd Reg.SYS_MODE_SD_CAUSE = 2 ∨ s.rd Reg.SYS_MODE_SD_CAUSE = 3) : s.safeDarkClears = false := by
  rcases h with h | h
  · rw [State.safeDarkClears, h]
    rfl
  · rw [State.safeDarkClears, h]
    rfl

theorem live_setLive_false (s : State) {n : Nat} (h32 : n ≠ 32) (h42 : n ≠ 42) : (s.setLive n false).live n = false := by
  rw [live_eq_bitOf _ h32 h42, State.bitOf, State.setLive, State.putBit, rd_put_self, Nat.testBit_mod_two_pow, testBit_setBit_clear, Bool.and_false]

theorem onlyRegs_flag (s : State) (f : Fld) : s.OnlyRegs (s.flag f) [f] := ⟨rfl, .put (.of_regs rfl) (by simp) _⟩

theorem resume_accepted {s : State} (hreach : s.rd Reg.FLT_FENCE_REACH = 0) (hchamber : s.rd Reg.FLT_FENCE_CHAMBER = 0) (h114 : s.live 114 = false)
    (h138 : s.live 138 = false) : s.resume = { s with mode := { s.mode with resume := true } } :=
  if_pos ⟨hreach, hchamber, by simp [h114], by simp [h138]⟩

theorem resume_refused {s : State} (h : s.rd Reg.FLT_FENCE_REACH ≠ 0 ∨ s.live 114 = true ∨ s.live 138 = true) :
    s.resume = s.flag Reg.SYS_MODE_EVENT_REFUSED := by
  refine if_neg (fun ⟨hreach, _, h114, h138⟩ => ?_)
  rcases h with h | h | h
  · exact h hreach
  · simp [h] at h114
  · simp [h] at h138

/-! ## CAL_CMD and PEER_CTRL (R226, R332) -/

theorem exec_calCmd {s : State} {who : Sys2Proof.Requester} (h : s.Ready) (hw : s.MayWrite who 0x7004) (m : BitVec 16) :
    exec (.calCmd who m) s = .next (s.calQueue (maskReaches (m.toNat % 65536))) :=
  exec_wordWrite h hw rfl (by decide) rfl (by omega)

theorem exec_peerCtrlResync {s : State} {who : Sys2Proof.Requester} (h : s.Ready) (hw : s.MayWrite who 0x9004) :
    exec (.peerCtrlResync who) s = .next s.resyncRequest :=
  exec_wordWrite h hw rfl (by decide) rfl (by decide)

end State

end Sys2Proof.Machine
end

section

/-! # The controls of the links and of the NAND, and the requests of software (O37) -/

namespace Sys2Proof.Machine

namespace State

/-- A word write in which one bit of a register takes a value. -/
theorem writeBits_eq_writeWord {s : State} {who : Sys2Proof.Requester} {off : Nat} (h : s.Ready) (hw : s.MayWrite who off) (ho : off % 4 = 0)
    (hlt : off < 0x10000) (hl : (Reg.fieldsAt off).isSome = true) (i : Nat) (b : Bool) :
    s.writeBits who off (2 ^ i) (2 ^ i * b2n b) = s.writeWord who (regBase + off) off (setBit (s.regWord off) i b % 2 ^ 32) 0xFFFFFFFF := by
  have hmod (v : Nat) : s.writeReg who off v = s.writeReg who off (v % 2 ^ 32) := by
    have hbytes : leBytes (v % 2 ^ 32) 4 = leBytes v 4 := leBytes_mod v 4
    rw [State.writeReg, State.writeReg, hbytes]
  rw [State.writeBits, replaceBit_eq_setBit, hmod, State.writeReg_eq_writeWord h.2 hw ho hlt hl (Nat.mod_lt _ (by decide))]

/-! ## LNK_CTRL (R270, R271) -/

/-- The fields of LNK_CTRL as a word leaves them, and the limit to 2.5 GBd cleared. -/
def linkSet (s : State) (l : LinkId) (w : Nat) : State :=
  ((s.put (Reg.LNK_CTRL_RATE_5G l.num) (w / 2 ^ 1 % 2 ^ 1)).put (Reg.LNK_CTRL_EN l.num) (w / 2 ^ 0 % 2 ^ 1)).clearRateLimit l

/-- What a word write of LNK_CTRL leaves. -/
def linkCtrl (s : State) (l : LinkId) (w : Nat) : State :=
  let t := (s.linkSet l w).linkSwitch l (w.testBit 0)
  if w.testBit 2 then t.toRecover l else t

theorem writeWord_linkCtrl (s : State) (who : Sys2Proof.Requester) (addr : Nat) (l : LinkId) (w : Nat) :
    s.writeWord who addr (0x8000 + 256 * l.num) w 0xFFFFFFFF = s.linkCtrl l w := by
  cases l <;> rfl

theorem writeBits_linkCtrl {s : State} {who : Sys2Proof.Requester} {l : LinkId} (h : s.Ready) (hw : s.MayWrite who (0x8000 + 256 * l.num)) (i : Nat)
    (b : Bool) : s.writeBits who (0x8000 + 256 * l.num) (2 ^ i) (2 ^ i * b2n b) =
      s.linkCtrl l (setBit (s.regWord (0x8000 + 256 * l.num)) i b % 2 ^ 32) := by
  rw [writeBits_eq_writeWord h hw (by cases l <;> rfl) (by cases l <;> decide) (by cases l <;> rfl), writeWord_linkCtrl]

theorem exec_linkEnable {s : State} {who : Sys2Proof.Requester} {l : LinkId} (h : s.Ready) (hw : s.MayWrite who (0x8000 + 256 * l.num)) (on : Bool) :
    exec (.linkEnable who l on) s = .next (s.linkCtrl l (setBit (s.regWord (0x8000 + 256 * l.num)) 0 on % 2 ^ 32)) := by
  have hwrite := writeBits_linkCtrl h hw 0 on
  rw [Nat.pow_zero, Nat.one_mul] at hwrite
  exact (State.command_ready h (fun s => s.writeBits who (0x8000 + 256 * l.num) 1 (b2n on))).trans (congrArg _ hwrite)

theorem exec_retrain {s : State} {who : Sys2Proof.Requester} {l : LinkId} (h : s.Ready) (hw : s.MayWrite who (0x8000 + 256 * l.num)) :
    exec (.retrain who l) s = .next (s.linkCtrl l (setBit (s.regWord (0x8000 + 256 * l.num)) 2 true % 2 ^ 32)) :=
  (State.command_ready h (fun s => s.writeBits who (0x8000 + 256 * l.num) 4 4)).trans (congrArg _ (writeBits_linkCtrl h hw 2 true))

theorem rd_linkSet (s : State) (l : LinkId) (w : Nat) {g : Fld} (hrate : (Reg.LNK_CTRL_RATE_5G l.num).key ≠ g.key)
    (hen : (Reg.LNK_CTRL_EN l.num).key ≠ g.key) : (s.linkSet l w).rd g = s.rd g := by
  rw [linkSet, State.clearRateLimit, rd_setLink, rd_put_other _ _ hen, rd_put_other _ _ hrate]

theorem state_linkSet (s : State) (l : LinkId) (w : Nat) : (s.linkSet l w).rd (Reg.LNK_STATUS_STATE l.num) = s.rd (Reg.LNK_STATUS_STATE l.num) :=
  s.rd_linkSet l w (by cases l <;> decide) (by cases l <;> decide)

theorem en_linkSet (s : State) (l : LinkId) (w : Nat) : (s.linkSet l w).on (Reg.LNK_CTRL_EN l.num) = w.testBit 0 := by
  have hrd : (s.linkSet l w).rd (Reg.LNK_CTRL_EN l.num) = w % 2 := by
    rw [linkSet, State.clearRateLimit, rd_setLink, rd_put_self, Nat.pow_zero, Nat.div_one]
    exact Nat.mod_mod w 2
  rw [State.on, hrd, Nat.testBit_zero]
  rcases Nat.mod_two_eq_zero_or_one w with h | h <;> simp [h]

theorem linkUp_eq (s : State) (l : LinkId) : s.linkUp l = (s.rd (Reg.LNK_STATUS_STATE l.num) == 5 || s.rd (Reg.LNK_STATUS_STATE l.num) == 6) := rfl

theorem source_down (l : LinkId) : l.source 32 < 192 ∧ Src.light (l.source 32) = false := by cases l <;> decide

/-- A link's state changes no field but STATE and those of a block reset. -/
theorem outlasts_setLinkState (s : State) (l : LinkId) (n : Nat) : s.Outlasts resetKey (s.setLinkState l n) := by
  obtain ⟨hn, hc⟩ := source_down l
  unfold State.setLinkState
  split
  · exact .refl s
  · extract_lets ran t
    have ht : s.Outlasts resetKey t := .flag (.put (.refl s) _ (by cases l <;> decide)) (by cases l <;> decide)
    exact ht.trans (.ite (outlasts_setLive t hn false) (.ite (outlasts_raise t hn hc none) (.refl t)))

theorem outlasts_setLink (s : State) (l : LinkId) (x : Link) : s.Outlasts resetKey (s.setLink l x) := ⟨.of_same, rfl⟩

theorem outlasts_linkSwitch (s : State) (l : LinkId) (on : Bool) : s.Outlasts resetKey (s.linkSwitch l on) :=
  .ite ((outlasts_setLink ..).trans (outlasts_setLinkState ..)) (.ite ((outlasts_setLink ..).trans (outlasts_setLinkState ..)) (.refl s))

theorem outlasts_toRecover (s : State) (l : LinkId) : s.Outlasts resetKey (s.toRecover l) :=
  .ite (.refl s) (((outlasts_setLink ..).trans (outlasts_setLink ..)).trans (outlasts_setLinkState ..))

theorem en_linkCtrl (s : State) (l : LinkId) (w : Nat) : (s.linkCtrl l w).on (Reg.LNK_CTRL_EN l.num) = w.testBit 0 := by
  have hswitch := outlasts_linkSwitch (s.linkSet l w) l (w.testBit 0)
  have hall : (s.linkSet l w).Outlasts resetKey (s.linkCtrl l w) := hswitch.trans (.ite (outlasts_toRecover ..) (.refl _))
  exact (on_congr (hall.rd (by cases l <;> decide))).trans (s.en_linkSet l w)

/-- A link that does not run is not retrained. -/
theorem toRecover_down {s : State} {l : LinkId} (h : s.linkUp l = false) : s.toRecover l = s := if_pos (by simp [h])

theorem state_setLinkState (s : State) (l : LinkId) {n : Nat} (hn : n < 16) :
    ((s.put (Reg.LNK_STATUS_STATE l.num) n).flag (Reg.LNK_EVENT_STATE l.num)).rd (Reg.LNK_STATUS_STATE l.num) = n :=
  (rd_put_other _ _ (by cases l <;> decide)).trans (rd_put_fits _ hn)

/-- The block that FS032 or FS042 resets is the link's own, which leaves a disabled link disabled. -/
theorem state_resetOf {s : State} {l : LinkId} (h : s.rd (Reg.LNK_STATUS_STATE l.num) = 0) :
    (s.resetOf (l.source 32)).rd (Reg.LNK_STATUS_STATE l.num) = 0 := by
  unfold resetOf
  split
  · cases l with
    | host =>
      change (s.blockReset .hostLink).rd _ = 0
      unfold State.blockReset
      split
      · exact h
      · exact state_setLinkState _ .host (by decide)
    | peer =>
      change (s.blockReset .peerLink).rd _ = 0
      unfold State.blockReset
      split
      · exact h
      · exact state_setLinkState _ .peer (by decide)
  · exact h

theorem state_disabled (s : State) (l : LinkId) : (s.setLinkState l 0).rd (Reg.LNK_STATUS_STATE l.num) = 0 := by
  obtain ⟨hn, hc⟩ := source_down l
  unfold State.setLinkState
  split
  · assumption
  · extract_lets ran t
    have ht : t.rd (Reg.LNK_STATUS_STATE l.num) = 0 := state_setLinkState s l (by decide)
    rw [if_neg (by decide)]
    split
    · obtain ⟨u, hu, hraise⟩ := raise_split t hn hc none
      rw [hraise.rd]
      exact state_resetOf ((hu.leaves.rd _ (by cases l <;> decide)).trans ht)
    · exact ht

theorem linkUp_false {s : State} {l : LinkId} {n : Nat} (h : s.rd (Reg.LNK_STATUS_STATE l.num) = n) (h5 : n ≠ 5) (h6 : n ≠ 6) : s.linkUp l = false := by
  rw [linkUp_eq, h, beq_false_of_ne h5, beq_false_of_ne h6]
  rfl

theorem state_linkCtrl_off (s : State) (l : LinkId) {w : Nat} (h : w.testBit 0 = false) :
    (s.linkCtrl l w).rd (Reg.LNK_STATUS_STATE l.num) = 0 := by
  have hoff : ((s.linkSet l w).linkSwitch l (w.testBit 0)).rd (Reg.LNK_STATUS_STATE l.num) = 0 := by
    rw [h]
    exact state_disabled _ l
  unfold linkCtrl
  extract_lets t
  split
  · rw [toRecover_down (linkUp_false hoff (by decide) (by decide))]
    exact hoff
  · exact hoff

/-- A disabled link that may leave DISABLED goes to DETECT. -/
theorem state_toDetect {s : State} {l : LinkId} (h : s.rd (Reg.LNK_STATUS_STATE l.num) = 0) : (s.toDetect l).rd (Reg.LNK_STATUS_STATE l.num) = 1 := by
  have hdown : (s.setLink l { s.linkAt l with recovering := false, since := s.now }).linkUp l = false := linkUp_false h (by decide) (by decide)
  unfold State.toDetect State.setLinkState
  rw [if_neg (by rw [rd_setLink, h]; decide), hdown]
  exact state_setLinkState _ l (by decide)

theorem linkSwitch_detects {s : State} {l : LinkId} (h : s.rd (Reg.LNK_STATUS_STATE l.num) = 0) (hen : s.linksEnabled l = true)
    (hnone : s.flt.inReset = []) : s.linkSwitch l true = s.toDetect l :=
  (if_neg (by decide)).trans (if_pos ⟨h, hen, by simp [hnone]⟩)

/-- A link that is not disabled stays as it is where EN is written 1. -/
theorem linkSwitch_on {s : State} {l : LinkId} (h : s.rd (Reg.LNK_STATUS_STATE l.num) ≠ 0) : s.linkSwitch l true = s :=
  (if_neg (by decide)).trans (if_neg (fun hall => h hall.1))

theorem linksEnabled_linkSet (s : State) (l : LinkId) (w : Nat) : (s.linkSet l w).linksEnabled l = s.linksEnabled l := by
  have hlevel : (s.linkSet l w).bootLevel = s.bootLevel := on_congr (s.rd_linkSet l w (by cases l <;> decide) (by cases l <;> decide))
  have hrecovery : (s.linkSet l w).on Reg.SEC_BOOT_STATUS_RECOVERY = s.on Reg.SEC_BOOT_STATUS_RECOVERY :=
    on_congr (s.rd_linkSet l w (by cases l <;> decide) (by cases l <;> decide))
  rw [State.linksEnabled, hlevel, hrecovery, State.linksEnabled]

theorem state_linkCtrl_on {s : State} {l : LinkId} {w : Nat} (h : w.testBit 0 = true) (hstate : s.rd (Reg.LNK_STATUS_STATE l.num) = 0)
    (hen : s.linksEnabled l = true) (hreset : s.flt.inReset = []) : (s.linkCtrl l w).rd (Reg.LNK_STATUS_STATE l.num) = 1 := by
  have hset := (s.state_linkSet l w).trans hstate
  have hnone : (s.linkSet l w).flt.inReset = [] := hreset
  have hon : ((s.linkSet l w).linkSwitch l (w.testBit 0)).rd (Reg.LNK_STATUS_STATE l.num) = 1 := by
    rw [h, linkSwitch_detects hset ((s.linksEnabled_linkSet l w).trans hen) hnone]
    exact state_toDetect hset
  unfold linkCtrl
  extract_lets t
  split
  · rw [toRecover_down (linkUp_false hon (by decide) (by decide))]
    exact hon
  · exact hon

/-- Bit 0 of LNK_CTRL is EN. -/
theorem regWord_en {s : State} {l : LinkId} (h : s.rd (Reg.LNK_CTRL_EN l.num) = 1) : (s.regWord (0x8000 + 256 * l.num)).testBit 0 = true := by
  have hword : s.regWord (0x8000 + 256 * l.num) =
      0 + s.rd (Reg.LNK_CTRL_RETRAIN l.num) * 2 ^ 2 + s.rd (Reg.LNK_CTRL_RATE_5G l.num) * 2 ^ 1 + s.rd (Reg.LNK_CTRL_EN l.num) * 2 ^ 0 := by
    cases l <;> rfl
  have hodd : s.regWord (0x8000 + 256 * l.num) % 2 = 1 := by omega
  simp [hodd]

theorem linkAt_setLink (s : State) (l : LinkId) (x : Link) : (s.setLink l x).linkAt l = x := by
  simp [State.setLink, State.linkAt]

theorem Reacts.link {s t : State} (h : s.Reacts t) : t.link = s.link := by
  obtain ⟨regs, ch, mgmt, rif, flt, rfl⟩ := h
  rfl

/-- A running link goes to RECOVER; its limit to 2.5 GBd stays as it is. -/
theorem toRecover_up {s : State} {l : LinkId} (hup : s.linkUp l = true) (hbr : s.on (Reg.FLT_REACT_BR (l.source 32)) = false) :
    (s.toRecover l).rd (Reg.LNK_STATUS_STATE l.num) = 7 ∧ ((s.toRecover l).linkAt l).only25 = (s.linkAt l).only25 := by
  obtain ⟨hn, hc⟩ := source_down l
  have hstate : s.rd (Reg.LNK_STATUS_STATE l.num) ≠ 7 := fun h => by
    rw [linkUp_false h (by decide) (by decide)] at hup
    exact absurd hup (by decide)
  unfold State.toRecover
  rw [if_neg (by simp [hup])]
  extract_lets r
  have hronly : (r.linkAt l).only25 = (s.linkAt l).only25 := by rw [show r = s.setLink l _ from rfl, linkAt_setLink]
  have hrd (g : Fld) : r.rd g = s.rd g := rd_setLink ..
  clear_value r
  set q := r.setLink l { r.linkAt l with recovering := true } with hq
  have hqonly : (q.linkAt l).only25 = (s.linkAt l).only25 := by rw [hq, linkAt_setLink, hronly]
  have hqrd (g : Fld) : q.rd g = s.rd g := (rd_setLink ..).trans (hrd g)
  clear_value q
  have hqup : q.linkUp l = true := by rw [linkUp_eq, hqrd, ← linkUp_eq, hup]
  unfold State.setLinkState
  rw [if_neg (by rw [hqrd]; exact hstate), hqup]
  extract_lets ran t
  have htstate : t.rd (Reg.LNK_STATUS_STATE l.num) = 7 := state_setLinkState q l (by decide)
  have htbr : t.on (Reg.FLT_REACT_BR (l.source 32)) = false := by
    rw [← hbr]
    refine on_congr (((rd_put_other _ _ ?_).trans (rd_put_other _ _ ?_)).trans (hqrd _))
    · cases l <;> decide
    · cases l <;> decide
  have htonly : (t.linkAt l).only25 = (s.linkAt l).only25 := hqonly
  clear_value t
  rw [if_neg (by decide), if_pos rfl]
  have hraise := reacts_raise_noReset hn hc htbr none
  exact ⟨((leaves_raise_noReset hn hc htbr none).rd _ (by cases l <;> decide)).trans htstate, by rw [State.linkAt, hraise.link]; exact htonly⟩

theorem linkCtrl_retrain {s : State} {l : LinkId} {w : Nat} (h0 : w.testBit 0 = true) (h2 : w.testBit 2 = true) (hup : s.linkUp l = true)
    (hbr : s.on (Reg.FLT_REACT_BR (l.source 32)) = false) :
    (s.linkCtrl l w).rd (Reg.LNK_STATUS_STATE l.num) = 7 ∧ ((s.linkCtrl l w).linkAt l).only25 = false := by
  have hsetup : (s.linkSet l w).linkUp l = true := by rw [linkUp_eq, state_linkSet, ← linkUp_eq, hup]
  have hsetbr : (s.linkSet l w).on (Reg.FLT_REACT_BR (l.source 32)) = false :=
    (on_congr (s.rd_linkSet l w (by cases l <;> decide) (by cases l <;> decide))).trans hbr
  have honly : ((s.linkSet l w).linkAt l).only25 = false := by rw [linkSet, State.clearRateLimit, linkAt_setLink]
  have hzero : (s.linkSet l w).rd (Reg.LNK_STATUS_STATE l.num) ≠ 0 := fun h => by
    rw [linkUp_false h (by decide) (by decide)] at hsetup
    exact absurd hsetup (by decide)
  have hsame : (s.linkSet l w).linkSwitch l (w.testBit 0) = s.linkSet l w := by
    rw [h0, linkSwitch_on hzero]
  obtain ⟨hstate, hlink⟩ := toRecover_up hsetup hsetbr
  rw [linkCtrl, hsame, if_pos h2]
  exact ⟨hstate, hlink.trans honly⟩

/-! ## NFC_CTRL (R380) -/

/-- A word write of NFC_CTRL with CHECKPOINT set. -/
theorem writeWord_nfcCtrl (s : State) (who : Sys2Proof.Requester) (addr : Nat) {w : Nat} (h : w.testBit 1 = true) :
    s.writeWord who addr 0xC000 w 0xFFFFFFFF = (s.put Reg.NFC_CTRL_SCRUB_EN (w / 2 ^ 0 % 2 ^ 1)).checkpoint none := by
  have hword : s.writeWord who addr 0xC000 w 0xFFFFFFFF =
      (if 0xC000 = 0xC000 ∧ w.testBit 1 then (s.put Reg.NFC_CTRL_SCRUB_EN (w / 2 ^ 0 % 2 ^ 1)).checkpoint none
      else s.put Reg.NFC_CTRL_SCRUB_EN (w / 2 ^ 0 % 2 ^ 1)) := rfl
  exact hword.trans (if_pos ⟨rfl, h⟩)

/-- Bit 1 of NFC_CTRL requests a checkpoint; the scrub's enable is written as it reads. -/
theorem exec_nfcCheckpoint {s : State} {who : Sys2Proof.Requester} (h : s.Ready) (hw : s.MayWrite who 0xC000) :
    ∃ v, exec (.nfcCheckpoint who) s = .next ((s.put Reg.NFC_CTRL_SCRUB_EN v).checkpoint none) := by
  have hwrite := writeBits_eq_writeWord h hw rfl (by decide) rfl 1 true
  rw [writeWord_nfcCtrl s who _ (testBit_written _ (by decide) true)] at hwrite
  exact ⟨_, (State.command_ready h (fun s => s.writeBits who 0xC000 2 2)).trans (congrArg _ hwrite)⟩

theorem nand_checkpoint_none {s : State} (h : s.nand.jobs.any (fun j => j.kind = .checkpoint) = true ∨ s.nandReady = false) :
    (s.checkpoint none).nand = s.nand := by
  have hkeep : { s.nand with ckptPairs := s.nand.ckptPairs ++ (none : Option Pair).toList } = s.nand := by
    rw [Option.toList_none, List.append_nil]
  by_cases hany : s.nand.jobs.any (fun j => j.kind = .checkpoint) = true
  · rw [checkpoint_merges hany]
    exact hkeep
  · have hno := h.resolve_left hany
    rw [checkpoint_issues (by simpa using hany) (.inl hno), issueWrite_unready hno]
    rfl

theorem checkpoint_none_begins {s : State} (hany : s.nand.jobs.any (fun j => j.kind = .checkpoint) = false) (hready : s.nandReady = true)
    (hw : s.nandWindow = true) : (s.checkpoint none).nand = { s.nand with jobs := s.nand.jobs ++ [s.checkpointJob] } ∧
      (s.checkpoint none).on Reg.NFC_STATUS_CKPT_BUSY = true := by
  rw [checkpoint_begins hany hready hw, Option.toList_none, List.append_nil, nand_put]
  exact ⟨rfl, on_flag_self _ (by decide)⟩

theorem nand_checkpoint_deferred {s : State} (hany : s.nand.jobs.any (fun j => j.kind = .checkpoint) = false) (hready : s.nandReady = true)
    (hw : s.nandWindow = false) (hfirst : s.nand.deferred.any (fun d => d.kind = .checkpoint) = false) (hlen : s.nand.deferred.length < 64)
    (hstaged : s.nand.staged ≤ 1048576) (hquiet : s.live 166 = true ∨ s.on (Reg.FLT_REACT_BR 166) = false) :
    (s.checkpoint none).nand = { s.nand with deferred := s.nand.deferred ++ [s.checkpointJob] } := by
  rw [checkpoint_issues hany (.inr hw), issueWrite_deferred (admits_checkpoint hready none) hw hfirst hlen hstaged]
  exact nand_noteDeferral (s := s.deferJob s.checkpointJob) hquiet

end State

/-- Settles O37: each register's write by the request that it makes, and each request by the states that accept it. -/
theorem modeAndUnitRequests : Obligations.ModeAndUnitRequests := by
  unfold Obligations.ModeAndUnitRequests
  intro s who h
  refine ⟨fun hw => ⟨?_, fun hset => ?_, fun hset => ?_, fun hset => ?_, fun hset c hcause => ⟨fun hclears => ?_, fun hkeeps => ?_⟩,
      fun hreach hchamber h114 h138 => ?_, fun hno => ?_⟩,
    fun hw m => ?_, fun hw => ⟨fun hyes => ?_, fun hno => ?_⟩, fun l hw => ⟨?_, ?_, fun hen hup hbr => ?_⟩, fun hw => ?_⟩
  · obtain ⟨hphase, hcause, hsticky, hepoch, hotp, -⟩ := s.warmReset_leaves (cause := 4) (by decide)
    exact ⟨_, State.exec_chipReset h hw, hphase, hcause, hsticky, hepoch, hotp⟩
  · rw [State.exec_safeDark h hw, State.enterSafeDark_already hset]
  · rw [State.exec_safeDark h hw, State.enterSafeDark_new hset]
    exact ⟨_, rfl, rfl, State.rd_put_fits _ (by decide), .put (.of_regs rfl) (by simp) _, State.lights_safeDark rfl⟩
  · rw [State.exec_clearSafeDark h hw, State.clearSafeDark_unset hset]
  · have hc : s.safeDarkClears = true := by
      subst hcause
      rcases hclears with h4 | ⟨h1, houts, hreadings⟩
      · exact State.safeDarkClears_request h4
      · rw [State.safeDarkClears_heat h1]
        simpa using ⟨houts, hreadings⟩
    rw [State.exec_clearSafeDark h hw, State.clearSafeDark_clears hset hc]
    refine ⟨_, rfl, rfl, (State.rd_put_other _ _ (by decide)).trans (State.rd_put_self ..), State.live_setLive_false _ (by decide) (by decide),
      fun hrun => State.lights_relight ?_⟩
    have hrelight : (s.darkCleared.setLive 145 false).mode.relight = b2n s.running := rfl
    rw [hrelight, hrun]
    decide
  · have hc : s.safeDarkClears = false := by
      subst hcause
      rcases hkeeps with h2 | h3 | ⟨h1, v, hv, hhot⟩
      · exact State.safeDarkClears_never (.inl h2)
      · exact State.safeDarkClears_never (.inr h3)
      · rw [State.safeDarkClears_heat h1, Bool.and_eq_false_iff]
        exact .inl (List.all_eq_false.2 ⟨v, hv, by simpa using hhot⟩)
    rw [State.exec_clearSafeDark h hw, State.clearSafeDark_refused hset hc]
    exact ⟨_, rfl, State.onlyRegs_flag .., State.on_flag_self _ (by decide)⟩
  · rw [State.exec_resume h hw, State.resume_accepted hreach hchamber h114 h138]
  · rw [State.exec_resume h hw, State.resume_refused hno]
    exact ⟨_, rfl, State.onlyRegs_flag .., State.on_flag_self _ (by decide)⟩
  · obtain ⟨hframe, hcal⟩ := s.calQueue_spec (State.maskReaches_nodup (m.toNat % 65536))
    have hm : m.toNat % 65536 = m.toNat := Nat.mod_eq_of_lt m.isLt
    refine ⟨_, State.exec_calCmd h hw m, hframe, (congrArg Calib.run hcal :), (congrArg Calib.queue hcal :).trans ?_⟩
    rw [State.filter_maskReaches, hm]
    simp only [BitVec.getLsbD, State.queues, Bool.and_assoc]
  · rw [State.exec_peerCtrlResync h hw, State.resyncRequest, if_pos hyes]
  · rw [State.exec_peerCtrlResync h hw, State.resyncRequest, if_neg (by simp [hno])]
    rfl
  · have hbit := State.testBit_written (s.regWord (0x8000 + 256 * l.num)) (i := 0) (by decide) false
    exact ⟨_, State.exec_linkEnable h hw false, s.state_linkCtrl_off l hbit, (s.en_linkCtrl l _).trans hbit⟩
  · have hbit := State.testBit_written (s.regWord (0x8000 + 256 * l.num)) (i := 0) (by decide) true
    exact ⟨_, State.exec_linkEnable h hw true, (s.en_linkCtrl l _).trans hbit, State.state_linkCtrl_on hbit⟩
  · have hbit := State.testBit_written (s.regWord (0x8000 + 256 * l.num)) (i := 2) (by decide) true
    have hlow : (setBit (s.regWord (0x8000 + 256 * l.num)) 2 true % 2 ^ 32).testBit 0 = true := by
      rw [Nat.testBit_mod_two_pow, testBit_setBit_other _ (by decide), State.regWord_en hen]
      rfl
    exact ⟨_, State.exec_retrain h hw, State.linkCtrl_retrain hlow hbit hup hbr⟩
  · obtain ⟨v, hexec⟩ := State.exec_nfcCheckpoint h hw
    have hrd : ∀ g : Fld, Reg.NFC_CTRL_SCRUB_EN.key ≠ g.key → (s.put Reg.NFC_CTRL_SCRUB_EN v).rd g = s.rd g := fun g hg => s.rd_put_other v hg
    have hnand : (s.put Reg.NFC_CTRL_SCRUB_EN v).nand = s.nand := rfl
    have hjob : (s.put Reg.NFC_CTRL_SCRUB_EN v).checkpointJob = s.checkpointJob := rfl
    have hready : (s.put Reg.NFC_CTRL_SCRUB_EN v).nandReady = s.nandReady := by
      rw [State.nandReady, State.recovery, State.on_congr (hrd _ (by decide)), State.on_congr (hrd _ (by decide)), hnand, State.nandReady, State.recovery]
    have hwindow : (s.put Reg.NFC_CTRL_SCRUB_EN v).nandWindow = s.nandWindow := State.on_congr (hrd _ (by decide))
    have hlive : (s.put Reg.NFC_CTRL_SCRUB_EN v).live 166 = s.live 166 := State.live_congr (by decide) (by decide) (hrd _ (by decide))
    have hbr : (s.put Reg.NFC_CTRL_SCRUB_EN v).on (Reg.FLT_REACT_BR 166) = s.on (Reg.FLT_REACT_BR 166) := State.on_congr (hrd _ (by decide))
    rw [hexec]
    rw [← hnand, ← hjob, ← hready, ← hwindow, ← hlive, ← hbr]
    exact ⟨fun hno => ⟨_, rfl, State.nand_checkpoint_none hno⟩, fun hany hready hw => ⟨_, rfl, State.checkpoint_none_begins hany hready hw⟩,
      fun hany hready hw hfirst hlen hstaged hquiet => ⟨_, rfl, State.nand_checkpoint_deferred hany hready hw hfirst hlen hstaged hquiet⟩⟩

end Sys2Proof.Machine
end

section

/-! # NAND time-outs (O51) -/

namespace Sys2Proof.Machine

namespace State

/-! ## What answers to commands leave (R424, R425) -/

theorem flt_tellStatus (s : State) (p : Pair) (status arg : Nat) (entry : List Byte) : (s.tellStatus p status arg entry).flt = s.flt := by
  unfold State.tellStatus
  extract_lets s1 s2 s3
  have h1 : s1.flt = s.flt := by
    unfold s1
    split <;> rfl
  have h2 : s2.flt = s.flt := by
    unfold s2
    split
    · exact h1
    · exact h1
  have h3 : s3.flt = s.flt := by
    unfold s3
    split
    · exact h2
    · exact h2
  split
  · exact (flt_sendMsg s3 ..).trans h3
  · exact h3

theorem flt_status (s : State) (p : Pair) (st : Nat) : (s.status p st).flt = s.flt := by
  have hpost : (s.postStatus p st (s.entryOf p st 0 0 [])).flt = s.flt := by
    simp only [State.postStatus, flt_put, flt_incMod, flt_basWrite]
  rw [State.status, State.complete_eq]
  exact (flt_tellStatus ..).trans hpost

/-- What answers to commands, and a change of NAND's lists other than its writes and files, leave. -/
structure Answers (s t : State) : Prop where
  outlasts : s.Outlasts beyondReset t
  flt : t.flt = s.flt
  files : t.nand.files = s.nand.files
  jobs : t.nand.jobs = s.nand.jobs

namespace Answers

variable {s t u : State}

theorem refl (s : State) : s.Answers s := ⟨.refl s, rfl, rfl, rfl⟩

theorem trans (h : s.Answers t) (k : t.Answers u) : s.Answers u :=
  ⟨h.outlasts.trans k.outlasts, k.flt.trans h.flt, k.files.trans h.files, k.jobs.trans h.jobs⟩

theorem put (h : s.Answers t) {f : Fld} (v : Nat) (hf : beyondReset f.key = false) : s.Answers (t.put f v) :=
  ⟨h.outlasts.put v hf, h.flt, h.files, h.jobs⟩

end Answers

theorem answers_status (s : State) (p : Pair) (st : Nat) : s.Answers (s.status p st) := by
  have hnand := s.nand_complete p st 0 0 []
  exact ⟨outlasts_status s p st, flt_status s p st, congrArg Nand.files hnand, congrArg Nand.jobs hnand⟩

theorem answers_statusOf (s : State) (p : Option Pair) (st : Nat) : s.Answers (s.statusOf p st) := by
  cases p with
  | none => exact .refl s
  | some p => exact answers_status s p st

theorem answers_answerWaiting (s : State) (st : Nat) : s.Answers (s.answerWaiting st) := by
  have hclear : s.Answers (s.setNand { s.nand with ckptPairs := [] }) := ⟨⟨.of_same, rfl⟩, rfl, rfl, rfl⟩
  exact List.foldlRecOn (motive := s.Answers) s.nand.ckptPairs _ hclear (fun t ht q _ => ht.trans (answers_status t q st))

/-! ## A write that is given up (R372, R375, R380) -/

/-- The write in front has gone, and its command has ERROR. -/
def droppedJob (s : State) (j : NJob) : State :=
  (s.setNand ({ s.nand with jobs := s.nand.jobs.drop 1 }.release j.blocks)).statusOf j.pair 2

/-- What holds of the state without the write, and stays with the answers to the commands that wait, holds of the state that gives the write up. -/
theorem giveUp_cases {P : State → Prop} (s : State) (j : NJob) (hdropped : P (s.droppedJob j)) (hwaiting : P ((s.droppedJob j).answerWaiting 2))
    (hput : P (((s.droppedJob j).answerWaiting 2).put Reg.NFC_STATUS_CKPT_BUSY 0)) : P (s.giveUp j) := by
  have hgiven : s.giveUp j = (match j.kind with
      | .checkpoint => ((s.droppedJob j).answerWaiting 2).put Reg.NFC_STATUS_CKPT_BUSY 0
      | .backup => if (s.droppedJob j).nand.jobs.any (fun q => q.kind = .checkpoint) then s.droppedJob j else (s.droppedJob j).answerWaiting 2
      | _ => s.droppedJob j) := rfl
  rw [hgiven]
  split
  · exact hput
  · split
    · exact hdropped
    · exact hwaiting
  · exact hdropped

theorem answers_giveUp (s : State) (j : NJob) : (s.setNand ({ s.nand with jobs := s.nand.jobs.drop 1 }.release j.blocks)).Answers (s.giveUp j) := by
  have hdropped := answers_statusOf (s.setNand ({ s.nand with jobs := s.nand.jobs.drop 1 }.release j.blocks)) j.pair 2
  have hwaiting := hdropped.trans (answers_answerWaiting _ 2)
  exact giveUp_cases s j hdropped hwaiting (hwaiting.put _ (by decide))

/-- A completion with the status that a command has ended with leaves it so. -/
theorem ended_status {s : State} {p : Pair} {st : Nat} (hst : st < 256) (h : s.Ended p st) (q : Pair) : (s.status q st).Ended p st := by
  by_cases hq : q = p
  · subst hq
    exact ended_complete s q hst 0 0 []
  · exact (spares_complete p s (fun he => absurd he hq) st 0 0 []).ended st h

theorem ended_answerWaiting {s : State} {p : Pair} {st : Nat} (hst : st < 256) (h : s.Ended p st) : (s.answerWaiting st).Ended p st := by
  have hclear : (s.setNand { s.nand with ckptPairs := [] }).Ended p st := h
  exact List.foldlRecOn (motive := fun t : State => t.Ended p st) s.nand.ckptPairs _ hclear (fun t ht q _ => ended_status hst ht q)

theorem ended_giveUp (s : State) {j : NJob} {p : Pair} (h : j.pair = some p) : (s.giveUp j).Ended p 2 := by
  have hdropped : (s.droppedJob j).Ended p 2 := by
    rw [droppedJob, h]
    exact ended_complete _ p (by decide) 0 0 []
  have hwaiting := ended_answerWaiting (by decide) hdropped
  refine giveUp_cases (P := fun t : State => t.Ended p 2) s j hdropped hwaiting ?_
  generalize (s.droppedJob j).answerWaiting 2 = t at hwaiting
  exact (Spares.put (.refl p t) 0 (by cases p <;> decide)).ended 2 hwaiting

/-- A pair is executing a command that the NAND controller serves. -/
def NandServing (s : State) (p : Pair) : Prop := s.pairBusy p = true ∧ nandServed (s.rd (Reg.WHF_STATUS_OPCODE p.num)) = true

theorem NandServing.of_rd {s t : State} {p : Pair} (h : s.NandServing p) (hbusy : t.rd (Reg.WHF_STATUS_BUSY p.num) = s.rd (Reg.WHF_STATUS_BUSY p.num))
    (hop : t.rd (Reg.WHF_STATUS_OPCODE p.num) = s.rd (Reg.WHF_STATUS_OPCODE p.num)) : t.NandServing p :=
  ⟨(on_congr hbusy).trans h.1, by rw [hop]; exact h.2⟩

theorem NandServing.status {s : State} {p q : Pair} (h : s.NandServing p) (hq : q ≠ p) (st : Nat) : (s.status q st).NandServing p := by
  have hregs := s.sameRegs_complete q st 0 0 []
  have hbusy : ∀ f ∈ completionFields q, f.key ≠ (Reg.WHF_STATUS_BUSY p.num).key := by revert hq; cases p <;> cases q <;> decide
  have hop : ∀ f ∈ completionFields q, f.key ≠ (Reg.WHF_STATUS_OPCODE p.num).key := by cases p <;> cases q <;> decide
  exact h.of_rd (hregs _ hbusy) (hregs _ hop)

theorem NandServing.answerWaiting {s : State} {p : Pair} (h : s.NandServing p) (hp : p ∉ s.nand.ckptPairs) (st : Nat) :
    (s.answerWaiting st).NandServing p := by
  have hclear : (s.setNand { s.nand with ckptPairs := [] }).NandServing p := h.of_rd rfl rfl
  exact List.foldlRecOn (motive := fun t : State => t.NandServing p) s.nand.ckptPairs _ hclear (fun t ht q hq => ht.status (fun he => hp (he ▸ hq)) st)

theorem NandServing.giveUp {s : State} {p : Pair} (h : s.NandServing p) {j : NJob} (hj : j.pair ≠ some p) (hp : p ∉ s.nand.ckptPairs) :
    (s.giveUp j).NandServing p := by
  have hset : (s.setNand ({ s.nand with jobs := s.nand.jobs.drop 1 }.release j.blocks)).NandServing p := h.of_rd rfl rfl
  have hpairs : (s.setNand ({ s.nand with jobs := s.nand.jobs.drop 1 }.release j.blocks)).nand.ckptPairs = s.nand.ckptPairs := rfl
  have hdropped : (s.droppedJob j).NandServing p ∧ (s.droppedJob j).nand.ckptPairs = s.nand.ckptPairs := by
    unfold droppedJob
    generalize s.setNand ({ s.nand with jobs := s.nand.jobs.drop 1 }.release j.blocks) = t at hset hpairs
    cases hq : j.pair with
    | none => exact ⟨hset, hpairs⟩
    | some q =>
      exact ⟨hset.status (fun he => hj (by rw [hq, he])) 2, (congrArg Nand.ckptPairs (t.nand_complete q 2 0 0 [])).trans hpairs⟩
  have hwaiting := hdropped.1.answerWaiting (by rw [hdropped.2]; exact hp) 2
  refine giveUp_cases (P := fun t : State => t.NandServing p) s j hdropped.1 hwaiting ?_
  generalize (s.droppedJob j).answerWaiting 2 = t at hwaiting
  exact hwaiting.of_rd (t.rd_put_other 0 (by cases p <;> decide)) (t.rd_put_other 0 (by cases p <;> decide))

/-! ## FS168 and the block reset that it may select (R252, R368) -/

theorem raise_timeout_split (s : State) : ∃ u, s.Announces u ∧ (u.resetOf 168).Marks (s.raise 168) := raise_split s (by decide) rfl none

theorem Announces.br {s u : State} (h : s.Announces u) {n : Nat} (hn : n < 192) : u.on (Reg.FLT_REACT_BR n) = s.on (Reg.FLT_REACT_BR n) :=
  on_congr (h.leaves.rd _ (quietKey_br hn))

/-- Where it resets nothing, or the block is in reset already, FS168 leaves NAND as it is. -/
theorem nand_timeout_held {s : State} (h : s.on (Reg.FLT_REACT_BR 168) = false ∨ Block.nand ∈ s.flt.inReset) : (s.raise 168).nand = s.nand := by
  obtain ⟨u, hu, hraise⟩ := raise_timeout_split s
  have hsame : u.resetOf 168 = u := by
    rcases h with h | h
    · exact if_neg (by simp [hu.br (n := 168) (by decide), h])
    · have hreset : u.blockReset .nand = u := if_pos (by simp [hu.inReset, h])
      unfold resetOf
      split
      · exact hreset
      · rfl
  rw [hsame] at hraise
  exact hraise.nand.trans hu.reacts.nand

/-- The NAND controller enters reset. -/
def nandReset (s : State) : State :=
  State.put { s with flt := { s.flt with inReset := s.flt.inReset ++ [.nand] }, nand := s.nand.powerLoss } Reg.NFC_STATUS_CKPT_BUSY 0

theorem resetOf_timeout {s : State} (hbr : s.on (Reg.FLT_REACT_BR 168) = true) (hnot : Block.nand ∉ s.flt.inReset) :
    s.resetOf 168 = s.nandReset.resetCommands nandServed := by
  have hreset : s.blockReset .nand = s.nandReset.resetCommands nandServed := if_neg (by simp [hnot])
  exact (if_pos hbr).trans hreset

theorem flt_resetCommands (s : State) (served : Nat → Bool) : (s.resetCommands served).flt = s.flt := by
  have hstep (s : State) (q : Pair) : (if s.pairBusy q && served (s.rd (Reg.WHF_STATUS_OPCODE q.num)) then s.status q 4 else s).flt = s.flt := by
    split
    · exact flt_status s q 4
    · rfl
  exact (hstep _ .session).trans (hstep s .openPair)

/-- The reset of the controller ends a command that it serves with RESET. -/
theorem ended_resetCommands {s : State} {p : Pair} (h : s.NandServing p) : (s.resetCommands nandServed).Ended p 4 := by
  have hends {t : State} (ht : t.NandServing p) :
      (if t.pairBusy p && nandServed (t.rd (Reg.WHF_STATUS_OPCODE p.num)) then t.status p 4 else t).Ended p 4 := by
    rw [if_pos (by simp [ht.1, ht.2])]
    exact ended_complete t p (by decide) 0 0 []
  cases p with
  | openPair =>
    generalize hfirst : (if s.pairBusy .openPair && nandServed (s.rd (Reg.WHF_STATUS_OPCODE (Pair.num .openPair))) then s.status .openPair 4 else s) = t
    have ht : t.Ended .openPair 4 := hfirst ▸ hends h
    have hall : s.resetCommands nandServed =
        if t.pairBusy .session && nandServed (t.rd (Reg.WHF_STATUS_OPCODE (Pair.num .session))) then t.status .session 4 else t := by
      rw [← hfirst]
      rfl
    rw [hall]
    split
    · exact ended_status (by decide) ht .session
    · exact ht
  | session =>
    generalize hfirst : (if s.pairBusy .openPair && nandServed (s.rd (Reg.WHF_STATUS_OPCODE (Pair.num .openPair))) then s.status .openPair 4 else s) = t
    have ht : t.NandServing .session := by
      rw [← hfirst]
      split
      · exact h.status (by decide) 4
      · exact h
    have hall : s.resetCommands nandServed =
        if t.pairBusy .session && nandServed (t.rd (Reg.WHF_STATUS_OPCODE (Pair.num .session))) then t.status .session 4 else t := by
      rw [← hfirst]
      rfl
    rw [hall]
    exact hends ht

/-- FS168 that resets the controller: the write in progress is lost as with power, and the commands that it serves end with RESET. -/
theorem raise_timeout_resets {s : State} (hbr : s.on (Reg.FLT_REACT_BR 168) = true) (hnot : Block.nand ∉ s.flt.inReset) :
    (s.raise 168).nand = s.nand.powerLoss ∧ Block.nand ∈ (s.raise 168).flt.inReset ∧ ∀ p, s.NandServing p → (s.raise 168).Ended p 4 := by
  obtain ⟨u, hu, hraise⟩ := raise_timeout_split s
  rw [resetOf_timeout ((hu.br (by decide)).trans hbr) (by rw [hu.inReset]; exact hnot)] at hraise
  have hreset : u.nandReset.nand = s.nand.powerLoss := congrArg Nand.powerLoss hu.reacts.nand
  refine ⟨hraise.nand.trans ((nand_resetCommands ..).trans hreset), ?_, fun p hp => ?_⟩
  · rw [hraise.inReset, flt_resetCommands]
    exact List.mem_append_right _ (List.mem_singleton.2 rfl)
  · have hserving : u.NandServing p := hp.of_rd (hu.leaves.rd _ (by cases p <;> decide)) (hu.leaves.rd _ (by cases p <;> decide))
    have hstart : u.nandReset.NandServing p := by
      have hput (t : State) : (t.put Reg.NFC_STATUS_CKPT_BUSY 0).rd (Reg.WHF_STATUS_BUSY p.num) = t.rd (Reg.WHF_STATUS_BUSY p.num) ∧
          (t.put Reg.NFC_STATUS_CKPT_BUSY 0).rd (Reg.WHF_STATUS_OPCODE p.num) = t.rd (Reg.WHF_STATUS_OPCODE p.num) :=
        ⟨t.rd_put_other 0 (by cases p <;> decide), t.rd_put_other 0 (by cases p <;> decide)⟩
      exact hserving.of_rd (hput _).1 (hput _).2
    obtain ⟨hbusy, hstatus⟩ := ended_resetCommands hstart
    exact ⟨(on_congr (hraise.rd _)).trans hbusy, (hraise.rd _).trans hstatus⟩

theorem files_timeout (s : State) : (s.raise 168).nand.files = s.nand.files := by
  by_cases h : s.on (Reg.FLT_REACT_BR 168) = false ∨ Block.nand ∈ s.flt.inReset
  · rw [nand_timeout_held h]
  · obtain ⟨hbr, hnot⟩ := not_or.1 h
    rw [(raise_timeout_resets (by simpa using hbr) hnot).1]
    rfl

end State

end Sys2Proof.Machine
end

section

/-! # What the steps of NAND operations leave, block erases, and time-outs (O51) -/

namespace Sys2Proof.Machine

theorem Nand.block_setBlock_self (n : Nand) (b : Nat) (x : NBlock) : (n.setBlock b x).block b = x := Sparse.get_set_self ..

/-! ## Steps that leave NAND (R242, R309, R375) -/

/-- The register fields that the ends of NAND operations are told by, and the block-reset reactions of the NAND controller's sources. -/
def nandFields : List Fld :=
  [Reg.NFC_LAST_VALID, Reg.NFC_LAST_KIND, Reg.NFC_RETIRED_COUNT_COUNT, Reg.NFC_STATUS_CKPT_BUSY, Reg.NFC_EVENT_CHECKPOINT, Reg.NFC_CKPT_AGE_SECONDS] ++
    (List.range 10).map (fun i => Reg.FLT_REACT_BR (160 + i))

def nandKey (k : Nat) : Bool := nandFields.any (fun f => f.key == k)

theorem quiet_of_nandKey (k : Nat) (h : nandKey k = true) : quietKey k = true := by
  have hfields : ∀ f ∈ nandFields, quietKey f.key = true := by decide
  obtain ⟨f, hf, hk⟩ := List.any_eq_true.1 h
  rw [← beq_iff_eq.1 hk]
  exact hfields f hf

theorem nandKey_br {n : Nat} (hlo : 160 ≤ n) (hhi : n < 170) : nandKey (Reg.FLT_REACT_BR n).key = true := by
  refine List.any_eq_true.2 ⟨Reg.FLT_REACT_BR n, List.mem_append_right _ (List.mem_map.2 ⟨n - 160, List.mem_range.2 (by omega), ?_⟩), beq_self_eq_true _⟩
  rw [Nat.add_sub_cancel' hlo]

namespace State

/-- NAND and the time have stayed, the fields that NAND operations are told by, and what a raise spares. -/
structure Calm (s t : State) : Prop where
  nand : t.nand = s.nand
  now : t.now = s.now
  leaves : s.Leaves nandKey t
  spares : ∀ p, s.Spares p t

namespace Calm

variable {s t u : State}

theorem refl (s : State) : s.Calm s := ⟨rfl, rfl, .refl _ s, fun p => .refl p s⟩

theorem trans (h : s.Calm t) (k : t.Calm u) : s.Calm u :=
  ⟨k.nand.trans h.nand, k.now.trans h.now, h.leaves.trans k.leaves, fun p => (h.spares p).trans (k.spares p)⟩

theorem ite {c : Prop} [Decidable c] (ht : s.Calm t) (hu : s.Calm u) : s.Calm (if c then t else u) := by
  split
  · exact ht
  · exact hu

theorem put (h : s.Calm t) {f : Fld} (v : Nat) (hn : nandKey f.key = false) (hf : ∀ p, (sparedKey f.key || statusKey p f.key) = false) :
    s.Calm (t.put f v) :=
  ⟨h.nand, h.now, h.leaves.put hn, fun p => (h.spares p).put v (hf p)⟩

theorem br (h : s.Calm t) {n : Nat} (hlo : 160 ≤ n) (hhi : n < 170) : t.on (Reg.FLT_REACT_BR n) = s.on (Reg.FLT_REACT_BR n) :=
  on_congr (h.leaves.rd _ (nandKey_br hlo hhi))

theorem holds (h : s.Calm t) (hs : s.NandHolds) : t.NandHolds := fun n hlo hhi => (h.br hlo hhi).trans (hs n hlo hhi)

theorem sticky (h : s.Calm t) {n : Nat} (hn : n < 192) (hs : s.sticky n = true) : t.sticky n = true := (h.spares .openPair).sticky n hn hs

theorem recovery (h : s.Calm t) : t.recovery = s.recovery := on_congr ((h.spares .openPair).boot _ rfl (by decide))

theorem ended (h : s.Calm t) {p : Pair} {st : Nat} (hs : s.Ended p st) : t.Ended p st := (h.spares p).ended st hs

end Calm

theorem calm_raise {s : State} {n : Nat} (hn : n < 192) (hc : Src.light n = false) (hbr : s.on (Reg.FLT_REACT_BR n) = false) : s.Calm (s.raise n) := by
  have hreacts := reacts_raise_noReset hn hc hbr none
  exact ⟨hreacts.nand, hreacts.now, (leaves_raise_noReset hn hc hbr none).mono quiet_of_nandKey, fun p => spares_raise p s hn hc none⟩

theorem calm_note {s t : State} (h : s.Calm t) {f : Fld} (v : Nat) (hn : nandKey f.key = false)
    (hf : (sparedKey f.key || statusKey .openPair f.key || statusKey .session f.key) = false) : s.Calm (t.put f v) := by
  simp only [Bool.or_eq_false_iff] at hf
  obtain ⟨⟨hspared, hopen⟩, hsession⟩ := hf
  refine h.put v hn (fun p => ?_)
  cases p with
  | openPair => simp [hspared, hopen]
  | session => simp [hspared, hsession]

/-- The registers of the pool follow it; FS163 ends nothing where it resets no block. -/
theorem calm_noteBlocks {s : State} (h : s.NandHolds) : s.Calm s.noteBlocks := by
  unfold State.noteBlocks
  extract_lets n free s1 counts s2 low s3
  have h1 : s.Calm s1 := calm_note (calm_note (.refl s) _ (by decide) (by decide)) _ (by decide) (by decide)
  have h2 : s.Calm s2 := calm_note (calm_note h1 _ (by decide) (by decide)) _ (by decide) (by decide)
  have h3 : s.Calm s3 := .ite (calm_note h2 _ (by decide) (by decide)) h2
  clear_value s3
  have hraise : s3.Calm (s3.raise 163) := calm_raise (by decide) rfl ((h3.holds h) 163 (by decide) (by decide))
  have hend : s3.Calm (s3.setLive 163 false) := calm_note (.refl s3) _ (by decide) (by decide)
  exact h3.trans (.ite (.ite (.refl s3) hraise) hend)

theorem NandHolds.of_rd {s t : State} (h : s.NandHolds) (hrd : ∀ n, 160 ≤ n → n < 170 → t.rd (Reg.FLT_REACT_BR n) = s.rd (Reg.FLT_REACT_BR n)) :
    t.NandHolds := fun n hlo hhi => (on_congr (hrd n hlo hhi)).trans (h n hlo hhi)

theorem NandHolds.setNand {s : State} (h : s.NandHolds) (n : Nand) : (s.setNand n).NandHolds := h

/-- A register field other than the reactions. -/
theorem NandHolds.put {s : State} (h : s.NandHolds) {f : Fld} (v : Nat) (hf : f.key < 0xD400 * 32) : (s.put f v).NandHolds := by
  refine h.of_rd (fun n _ _ => s.rd_put_other v ?_)
  simp only [Fld.key] at hf ⊢
  omega

theorem NandHolds.nandError {s : State} (h : s.NandHolds) (kind block page : Nat) : (s.nandError kind block page).NandHolds :=
  ((((h.put 1 (by decide)).put kind (by decide)).put _ (by decide)).put page (by decide)).put _ (by decide)

/-- NFC_LAST as an error leaves it. -/
theorem rd_nandError (s : State) {kind : Nat} (hk : kind < 8) (block page : Nat) :
    (s.nandError kind block page).on Reg.NFC_LAST_VALID = true ∧ (s.nandError kind block page).rd Reg.NFC_LAST_KIND = kind := by
  unfold State.nandError
  extract_lets t
  have hvalid : t.on Reg.NFC_LAST_VALID = true :=
    (on_congr ((rd_put_other _ _ (by decide)).trans (rd_put_other _ _ (by decide)))).trans (on_flag_self s (by decide))
  have hkind : t.rd Reg.NFC_LAST_KIND = kind := (rd_put_other _ _ (by decide)).trans (rd_put_fits _ hk)
  exact ⟨(on_congr ((rd_put_other _ _ (by decide)).trans (rd_put_other _ _ (by decide)))).trans hvalid,
    ((rd_put_other _ _ (by decide)).trans (rd_put_other _ _ (by decide))).trans hkind⟩

theorem nandError_frame (s : State) (kind block page : Nat) : (s.nandError kind block page).nand = s.nand ∧ (s.nandError kind block page).flt = s.flt :=
  ⟨rfl, rfl⟩

/-- The fields of NFC_LAST. -/
def lastFields : List Fld := [Reg.NFC_LAST_VALID, Reg.NFC_LAST_KIND, Reg.NFC_LAST_CE, Reg.NFC_LAST_PAGE, Reg.NFC_LAST_BLOCK]

theorem sameRegs_nandError (s : State) (kind block page : Nat) : s.SameRegs (s.nandError kind block page) lastFields :=
  .put (.put (.put (.put (.put (.refl s _) (by simp [lastFields]) _) (by simp [lastFields]) _) (by simp [lastFields]) _) (by simp [lastFields]) _)
    (by simp [lastFields]) _

/-! ## A block that is retired (R374, R375) -/

/-- A block is noted as retired, before FS162. -/
def retired (s : State) (b : Nat) : State := (State.inc (s.setNand (s.nand.retire b)) Reg.NFC_RETIRED_COUNT_COUNT).flag Reg.NFC_EVENT_RETIRED

theorem rd_retired (s : State) (b : Nat) {g : Fld} (hcount : Reg.NFC_RETIRED_COUNT_COUNT.key ≠ g.key) (hevent : Reg.NFC_EVENT_RETIRED.key ≠ g.key) :
    (s.retired b).rd g = s.rd g := (rd_put_other _ _ hevent).trans (rd_put_other _ _ hcount)

theorem count_retired (s : State) (b : Nat) :
    (s.retired b).rd Reg.NFC_RETIRED_COUNT_COUNT = min (2 ^ 32 - 1) (s.rd Reg.NFC_RETIRED_COUNT_COUNT + 1) := by
  refine (rd_put_other _ _ (by decide)).trans ?_
  rw [State.inc, rd_put_self]
  exact Nat.mod_eq_of_lt (Nat.lt_of_le_of_lt (Nat.min_le_left ..) (by decide))

theorem calm_retireBlock {s : State} (h : s.NandHolds) (b : Nat) : (s.retired b).Calm (s.retireBlock b) ∧ (s.retireBlock b).sticky 162 = true := by
  have hset : (s.retired b).NandHolds := (NandHolds.put (NandHolds.put (h.setNand _) _ (by decide)) _ (by decide))
  exact ⟨calm_raise (by decide) rfl (hset 162 (by decide) (by decide)), sticky_raise_control (s.retired b) (by decide) rfl none⟩

/-- An operation on a block has failed: NAND as it then stands retires the block, with NFC_LAST, the operation's fault and FS162. -/
structure RetiresBlock (s : State) (n : Nand) (kind source b : Nat) (t : State) : Prop where
  nand : t.nand = n.retire b
  told : t.sticky source = true
  retired : t.sticky 162 = true
  valid : t.on Reg.NFC_LAST_VALID = true
  kind : t.rd Reg.NFC_LAST_KIND = kind
  count : t.rd Reg.NFC_RETIRED_COUNT_COUNT = min (2 ^ 32 - 1) (s.rd Reg.NFC_RETIRED_COUNT_COUNT + 1)

theorem RetiresBlock.of_rd {s u t : State} {n n' : Nand} {kind source b : Nat} (h : s.RetiresBlock n kind source b t)
    (hcount : s.rd Reg.NFC_RETIRED_COUNT_COUNT = u.rd Reg.NFC_RETIRED_COUNT_COUNT) (hn : n = n') : u.RetiresBlock n' kind source b t :=
  ⟨by rw [h.nand, hn], h.told, h.retired, h.valid, h.kind, by rw [h.count, hcount]⟩

theorem retiresBlock_error {s : State} (hs : s.NandHolds) {kind source : Nat} (hk : kind < 8) (hsource : source = 164 ∨ source = 165) (b page : Nat) :
    s.RetiresBlock s.nand kind source b ((((s.nandError kind b page).raise source).retireBlock b).noteBlocks) := by
  have herror := hs.nandError kind b page
  obtain ⟨hvalid, hkind⟩ := s.rd_nandError hk b page
  have hnand : (s.nandError kind b page).nand = s.nand := rfl
  have hcounted : (s.nandError kind b page).rd Reg.NFC_RETIRED_COUNT_COUNT = s.rd Reg.NFC_RETIRED_COUNT_COUNT :=
    s.sameRegs_nandError kind b page _ (by decide)
  generalize s.nandError kind b page = e at *
  obtain ⟨hn, hc, hlo, hhi⟩ : source < 192 ∧ Src.light source = false ∧ 160 ≤ source ∧ source < 170 := by
    rcases hsource with rfl | rfl <;> decide
  have hraise : e.Calm (e.raise source) := calm_raise hn hc (herror source hlo hhi)
  have htold := sticky_raise_control e hn hc none
  generalize e.raise source = r at *
  have hholds := hraise.holds herror
  obtain ⟨hretire, hfault⟩ := calm_retireBlock hholds b
  have hpool := calm_noteBlocks (hretire.holds (((hholds.setNand (r.nand.retire b)).put _ (by decide)).put _ (by decide)))
  have hend := hretire.trans hpool
  have hkept {f : Fld} (hf : nandKey f.key = true) (hcount : Reg.NFC_RETIRED_COUNT_COUNT.key ≠ f.key) (hevent : Reg.NFC_EVENT_RETIRED.key ≠ f.key) :
      ((r.retireBlock b).noteBlocks).rd f = e.rd f := by
    rw [hend.leaves.rd f hf, rd_retired r b hcount hevent, hraise.leaves.rd f hf]
  exact {
    nand := by
      rw [hend.nand, ← hnand, ← hraise.nand]
      rfl
    told := by
      refine hend.sticky hn ((bitOf_congr (rd_retired r b ?_ ?_) _).trans htold)
      · rcases hsource with rfl | rfl <;> decide
      · rcases hsource with rfl | rfl <;> decide
    retired := hpool.sticky (by decide) hfault
    valid := (on_congr (hkept (by decide) (by decide) (by decide))).trans hvalid
    kind := (hkept (by decide) (by decide) (by decide)).trans hkind
    count := by rw [hend.leaves.rd _ (by decide), count_retired, hraise.leaves.rd _ (by decide), hcounted] }

/-! ## Erases (R375) -/

theorem exec_nandEraseDone {s : State} (h : s.Ready) (ok : Bool) :
    exec (.nandEraseDone ok) s = .next (if !s.mayEnd || s.nand.erasing.isEmpty then s else s.opEnded.eraseDone ok) :=
  State.command_ready h (fun s => s.blockErase ok)

/-- The block in front has been erased, before the pool is told. -/
def erased (s : State) (b : Nat) (rest : List Nat) : State :=
  s.setNand { Nand.setBlock { s.nand with erasing := rest } b { s.nand.block b with
    erases := (s.nand.block b).erases + 1, reads := 0, kept := 0, owner := none, pages := [] } with records := s.nand.records ++ [.erased b] }

theorem block_erased_self (s : State) (b : Nat) (rest : List Nat) : (s.erased b rest).nand.block b =
    { s.nand.block b with erases := (s.nand.block b).erases + 1, reads := 0, kept := 0, owner := none, pages := [] } := by
  refine Eq.trans ?_ (Sparse.get_set_self s.nand.blocks NBlock.fresh b _)
  rfl

theorem block_erased_other (s : State) {b c : Nat} (rest : List Nat) (h : c ≠ b) : (s.erased b rest).nand.block c = s.nand.block c := by
  unfold erased State.setNand Nand.setBlock Nand.block
  dsimp only
  rw [Sparse.get_set_other _ _ _ _ (Ne.symm h)]

theorem eraseDone_ok {s : State} {b : Nat} {rest : List Nat} (h : s.nand.erasing = b :: rest) : s.eraseDone true = (s.erased b rest).noteBlocks := by
  unfold State.eraseDone
  rw [h]
  rfl

/-- The erase of the block in front has failed, before the block is retired. -/
def eraseFailed (s : State) (b : Nat) (rest : List Nat) : State := ((s.setNand { s.nand with erasing := rest }).nandError 4 b 0).raise 165

theorem eraseDone_failed {s : State} {b : Nat} {rest : List Nat} (h : s.nand.erasing = b :: rest) :
    s.eraseDone false = ((s.eraseFailed b rest).retireBlock b).noteBlocks := by
  simp only [State.eraseDone, eraseFailed, h, Bool.false_eq_true, if_false]

theorem calm_erased {s : State} (h : s.NandHolds) (b : Nat) (rest : List Nat) : (s.erased b rest).Calm (s.erased b rest).noteBlocks :=
  calm_noteBlocks (h.setNand _)

/-- What a failed erase leaves: the block retired and noted, and the two faults. -/
theorem eraseDone_failed_leaves {s : State} {b : Nat} {rest : List Nat} (hs : s.NandHolds) (h : s.nand.erasing = b :: rest) :
    s.RetiresBlock { s.nand with erasing := rest } 4 165 b (s.eraseDone false) := by
  rw [eraseDone_failed h]
  exact (retiresBlock_error (hs.setNand { s.nand with erasing := rest }) (by decide) (.inr rfl) b 0).of_rd rfl rfl

/-! ## Time-outs (R368) -/

/-- NFC_LAST as a time-out leaves it. -/
def timeoutNoted (s : State) : State :=
  s.nandError 5 ((s.nand.jobs.head?.bind (fun j => j.blocks.getLast?)).getD 0) (((s.nand.jobs.head?.map NJob.page).getD 0) % s.nand.ppb)

/-- The write in front begins again. -/
def beginAgain (s : State) (j : NJob) : State :=
  s.setNand { s.nand.release j.blocks with jobs := { j with blocks := [], page := 0, retried := true } :: (s.nand.release j.blocks).jobs.drop 1 }

/-- The state after a time-out, before FS168. -/
def timedOut (s : State) : State :=
  match s.nand.jobs.head? with
  | none => s.timeoutNoted
  | some j => if j.retried then s.timeoutNoted.giveUp j else s.timeoutNoted.beginAgain j

/-- A write that is tried again stays where FS168 has reset the controller, without its command. -/
def requeue (s : State) (kept : Option NJob) : State :=
  match kept with
  | some j => if s.nand.jobs.isEmpty then State.noteCheckpoint (s.setNand { s.nand with jobs := [{ j with pair := none }] }) else s
  | none => s

theorem nandTimeout_eq (s : State) : s.nandTimeout = (s.timedOut.raise 168).requeue (s.timedOut.nand.jobs.head?.filter NJob.retried) := by
  cases h : s.nand.jobs.head? with
  | none =>
    simp only [State.nandTimeout, timedOut, timeoutNoted, requeue, h] <;> rfl
  | some j =>
    simp only [State.nandTimeout, timedOut, timeoutNoted, beginAgain, requeue, h] <;> rfl

theorem exec_nandTimeout {s : State} (h : s.Ready) : exec .nandTimeout s = .next (if s.nand.part.isNone then s else s.nandTimeout) :=
  State.command_ready h State.timeoutRow

theorem timedOut_idle {s : State} (h : s.nand.jobs = []) : s.timedOut = s.timeoutNoted := by
  unfold timedOut
  rw [h]
  rfl

theorem timedOut_again {s : State} {j : NJob} {rest : List NJob} (h : s.nand.jobs = j :: rest) (hr : j.retried = false) :
    s.timedOut = s.timeoutNoted.beginAgain j := by
  unfold timedOut
  rw [h]
  exact if_neg (by simp [hr])

theorem timedOut_givesUp {s : State} {j : NJob} {rest : List NJob} (h : s.nand.jobs = j :: rest) (hr : j.retried = true) :
    s.timedOut = s.timeoutNoted.giveUp j := by
  unfold timedOut
  rw [h]
  exact if_pos hr

theorem timeoutNoted_frame (s : State) : s.timeoutNoted.nand = s.nand ∧ s.timeoutNoted.flt = s.flt := s.nandError_frame ..

theorem sameRegs_timeoutNoted (s : State) : s.SameRegs s.timeoutNoted lastFields := s.sameRegs_nandError _ _ _

theorem jobs_beginAgain {s : State} {j : NJob} {rest : List NJob} (h : s.nand.jobs = j :: rest) :
    (s.beginAgain j).nand.jobs = { j with blocks := [], page := 0, retried := true } :: rest := by
  have hrest : (s.nand.release j.blocks).jobs.drop 1 = rest := congrArg (List.drop 1) h
  exact congrArg _ hrest

theorem jobs_giveUp {s : State} {j : NJob} {rest : List NJob} (h : s.nand.jobs = j :: rest) : (s.giveUp j).nand.jobs = rest :=
  (s.answers_giveUp j).jobs.trans (congrArg (List.drop 1) h)

theorem files_giveUp (s : State) (j : NJob) : (s.giveUp j).nand.files = s.nand.files := (s.answers_giveUp j).files

/-- What a time-out leaves up to FS168. -/
theorem timedOut_leaves (s : State) :
    s.timeoutNoted.Outlasts beyondReset s.timedOut ∧ s.timedOut.flt = s.flt ∧ s.timedOut.nand.files = s.nand.files := by
  obtain ⟨hnand, hflt⟩ := s.timeoutNoted_frame
  cases h : s.nand.jobs with
  | nil =>
    rw [timedOut_idle h]
    exact ⟨.refl _, hflt, congrArg Nand.files hnand⟩
  | cons j rest =>
    cases hr : j.retried with
    | false =>
      rw [timedOut_again h hr]
      generalize s.timeoutNoted = n at *
      exact ⟨⟨.of_same, rfl⟩, hflt, (congrArg Nand.files hnand :)⟩
    | true =>
      rw [timedOut_givesUp h hr]
      generalize s.timeoutNoted = n at *
      have hset : n.Outlasts beyondReset (n.setNand ({ n.nand with jobs := n.nand.jobs.drop 1 }.release j.blocks)) := ⟨.of_same, rfl⟩
      obtain ⟨hout, hflt', hfiles, -⟩ := n.answers_giveUp j
      exact ⟨hset.trans hout, hflt'.trans hflt, hfiles.trans (congrArg Nand.files hnand :)⟩

theorem br_timedOut (s : State) : s.timedOut.on (Reg.FLT_REACT_BR 168) = s.on (Reg.FLT_REACT_BR 168) :=
  on_congr ((s.timedOut_leaves.1.rd (by decide)).trans (s.sameRegs_timeoutNoted _ (by decide)))

/-- A write that stays leaves CKPT_BUSY to follow it, and nothing else of the registers. -/
theorem requeue_leaves (s : State) (kept : Option NJob) : s.SameRegs (s.requeue kept) [Reg.NFC_STATUS_CKPT_BUSY] ∧ (s.requeue kept).flt = s.flt ∧
    (s.requeue kept).nand.files = s.nand.files := by
  unfold requeue
  split
  · split
    · exact ⟨.put (.of_regs rfl) (by simp) _, rfl, rfl⟩
    · exact ⟨.refl s _, rfl, rfl⟩
  · exact ⟨.refl s _, rfl, rfl⟩

theorem jobs_requeue (s : State) (kept : Option NJob) :
    (s.requeue kept).nand.jobs = if s.nand.jobs = [] then (kept.map (fun j => { j with pair := none })).toList else s.nand.jobs := by
  unfold requeue
  cases kept with
  | none =>
    by_cases h : s.nand.jobs = []
    · simp [h]
    · simp [h]
  | some j =>
    by_cases h : s.nand.jobs = []
    · simp only [h, List.isEmpty_nil, if_true]
      rfl
    · simp [h]

/-- What every time-out leaves: FS168, NFC_LAST, and the files. -/
theorem nandTimeout_leaves (s : State) : s.nandTimeout.sticky 168 = true ∧ s.nandTimeout.on Reg.NFC_LAST_VALID = true ∧
    s.nandTimeout.rd Reg.NFC_LAST_KIND = 5 ∧ s.nandTimeout.nand.files = s.nand.files := by
  obtain ⟨hout, -, hfiles⟩ := s.timedOut_leaves
  obtain ⟨hvalid, hkind⟩ := s.rd_nandError (kind := 5) (by decide) ((s.nand.jobs.head?.bind (fun j => j.blocks.getLast?)).getD 0)
    (((s.nand.jobs.head?.map NJob.page).getD 0) % s.nand.ppb)
  have hraise := outlasts_raise s.timedOut (n := 168) (by decide) rfl none
  obtain ⟨hregs, -, hkept⟩ := (s.timedOut.raise 168).requeue_leaves (s.timedOut.nand.jobs.head?.filter NJob.retried)
  have hsticky := sticky_raise_control s.timedOut (n := 168) (by decide) rfl none
  rw [nandTimeout_eq]
  refine ⟨(bitOf_congr (hregs _ (by decide)) _).trans hsticky, ?_, ?_, hkept.trans ((files_timeout _).trans hfiles)⟩
  · exact (on_congr ((hregs _ (by decide)).trans ((hraise.rd (by decide)).trans (hout.rd (by decide))))).trans hvalid
  · exact ((hregs _ (by decide)).trans ((hraise.rd (by decide)).trans (hout.rd (by decide)))).trans hkind

section

variable {s : State} {j : NJob} {rest : List NJob} (h : s.nand.jobs = j :: rest)
include h

/-- The write in front of a time-out that leaves NAND out of reset: it begins again, or is given up. -/
theorem nandTimeout_held (hheld : s.on (Reg.FLT_REACT_BR 168) = false ∨ Block.nand ∈ s.flt.inReset) :
    (j.retried = false → s.nandTimeout.nand.jobs = { j with blocks := [], page := 0, retried := true } :: rest) ∧
      (j.retried = true → s.nandTimeout.nand.jobs = rest ∧ ∀ p, j.pair = some p → s.nandTimeout.Ended p 2) := by
  obtain ⟨hnand, -⟩ := s.timeoutNoted_frame
  have hnoted : s.timeoutNoted.nand.jobs = j :: rest := (congrArg Nand.jobs hnand).trans h
  have hstays : (s.timedOut.raise 168).nand = s.timedOut.nand :=
    nand_timeout_held (hheld.imp (s.br_timedOut.trans ·) (fun hin => by rw [s.timedOut_leaves.2.1]; exact hin))
  have hjobs : s.nandTimeout.nand.jobs = if s.timedOut.nand.jobs = [] then
      ((s.timedOut.nand.jobs.head?.filter NJob.retried).map (fun j => { j with pair := none })).toList else s.timedOut.nand.jobs := by
    rw [nandTimeout_eq, jobs_requeue, hstays]
  have hsame : s.nandTimeout.nand.jobs = s.timedOut.nand.jobs := by
    rw [hjobs]
    split
    · next hnil => rw [hnil]; rfl
    · rfl
  refine ⟨fun hr => ?_, fun hr => ⟨?_, fun p hp => ?_⟩⟩
  · rw [hsame, timedOut_again h hr, jobs_beginAgain hnoted]
  · rw [hsame, timedOut_givesUp h hr, jobs_giveUp hnoted]
  · have hended : s.timedOut.Ended p 2 := by
      rw [timedOut_givesUp h hr]
      exact ended_giveUp _ hp
    have hraised : (s.timedOut.raise 168).Ended p 2 := (spares_raise p s.timedOut (by decide) rfl none).ended 2 hended
    obtain ⟨hregs, -, -⟩ := (s.timedOut.raise 168).requeue_leaves (s.timedOut.nand.jobs.head?.filter NJob.retried)
    rw [nandTimeout_eq]
    exact ⟨(on_congr (hregs _ (by cases p <;> decide))).trans hraised.1, (hregs _ (by cases p <;> decide)).trans hraised.2⟩

/-- The write in front of a time-out that resets the controller. -/
theorem nandTimeout_resets (hbr : s.on (Reg.FLT_REACT_BR 168) = true) (hnot : Block.nand ∉ s.flt.inReset) :
    Block.nand ∈ s.nandTimeout.flt.inReset ∧
      (j.retried = false → s.nandTimeout.nand.jobs = [{ j with blocks := [], page := 0, retried := true, pair := none }]) ∧
      ∀ p, s.NandServing p → j.pair ≠ some p → j.retried = false ∨ p ∉ s.nand.ckptPairs → s.nandTimeout.Ended p 4 := by
  obtain ⟨hnand, -⟩ := s.timeoutNoted_frame
  have hnoted : s.timeoutNoted.nand.jobs = j :: rest := (congrArg Nand.jobs hnand).trans h
  obtain ⟨hlost, hin, hended⟩ := raise_timeout_resets (s.br_timedOut.trans hbr) (by rw [s.timedOut_leaves.2.1]; exact hnot)
  obtain ⟨hregs, hflt, -⟩ := (s.timedOut.raise 168).requeue_leaves (s.timedOut.nand.jobs.head?.filter NJob.retried)
  have hempty : (s.timedOut.raise 168).nand.jobs = [] := by rw [hlost]; rfl
  refine ⟨?_, fun hr => ?_, fun p hserving hpair hwaits => ?_⟩
  · rw [nandTimeout_eq, hflt]
    exact hin
  · rw [nandTimeout_eq, jobs_requeue, if_pos hempty, timedOut_again h hr, jobs_beginAgain hnoted]
    rfl
  · have hstart : s.timeoutNoted.NandServing p :=
      hserving.of_rd (s.sameRegs_timeoutNoted _ (by cases p <;> decide)) (s.sameRegs_timeoutNoted _ (by cases p <;> decide))
    have hout : s.timedOut.NandServing p := by
      cases hr : j.retried with
      | false =>
        rw [timedOut_again h hr]
        exact hstart.of_rd rfl rfl
      | true =>
        rw [timedOut_givesUp h hr]
        exact hstart.giveUp hpair (by rw [hnand]; exact hwaits.resolve_left (by simp [hr]))
    obtain ⟨hbusy, hstatus⟩ := hended p hout
    rw [nandTimeout_eq]
    exact ⟨(on_congr (hregs _ (by cases p <;> decide))).trans hbusy, (hregs _ (by cases p <;> decide)).trans hstatus⟩

end

end State

/-- Settles O51: an erase by its end and the pool's registers; a time-out by whether FS168 resets the controller. -/
theorem erasesAndTimeouts : Obligations.ErasesAndTimeouts := by
  unfold Obligations.ErasesAndTimeouts
  intro s h
  refine ⟨fun ok hno => ?_, fun b rest hmay herasing hs => ?_, fun hpart => ?_, fun hpart => ?_⟩
  · rw [State.exec_nandEraseDone h, if_pos]
    rcases hno with hempty | hmay
    · simp [hempty]
    · simp [hmay]
  · have hrun (ok : Bool) : exec (.nandEraseDone ok) s = .next (s.opEnded.eraseDone ok) := by
      rw [State.exec_nandEraseDone h, if_neg (by simp [hmay, herasing])]
    have hops : s.opEnded.nand.erasing = b :: rest := herasing
    have hholds : s.opEnded.NandHolds := hs.setNand _
    constructor
    · have hend := (s.opEnded.calm_erased hholds b rest).nand
      rw [hrun, State.eraseDone_ok hops]
      refine ⟨_, rfl, ?_⟩
      rw [hend]
      exact ⟨rfl, rfl, s.opEnded.block_erased_self b rest, rfl, fun c hc => s.opEnded.block_erased_other rest hc⟩
    · have hfailed := State.eraseDone_failed_leaves hholds hops
      refine ⟨_, hrun false, ?_⟩
      rw [hfailed.nand]
      refine ⟨rfl, ?_, rfl, rfl, hfailed.told, hfailed.retired, hfailed.kind, hfailed.count⟩
      exact congrArg NBlock.bad (Nand.block_setBlock_self { s.nand with erasing := rest, underway := false } b _)
  · rw [State.exec_nandTimeout h, if_pos (by simp [hpart])]
  · obtain ⟨hsticky, hvalid, hkind, hfiles⟩ := s.nandTimeout_leaves
    rw [State.exec_nandTimeout h, if_neg (by simpa using hpart)]
    refine ⟨_, rfl, hsticky, hvalid, hkind, hfiles, fun j rest hjobs => ⟨State.nandTimeout_held hjobs, fun hbr hnot => ?_⟩⟩
    obtain ⟨hin, hretry, hended⟩ := State.nandTimeout_resets hjobs hbr hnot
    exact ⟨hin, hretry, fun p hbusy hop hpairs hwaits => hended p ⟨hbusy, hop⟩ (hpairs j (by rw [hjobs]; exact List.mem_cons_self)) hwaits⟩

end Sys2Proof.Machine
end

section

/-! # Page programs (O50): sectors, blocks and metadata -/

namespace Sys2Proof.Machine

namespace State

/-! ## The sectors of a page pass the check units (R309, R375) -/

/-- A register field below the trust block's. -/
theorem calm_low {s t : State} (h : s.Calm t) {f : Fld} (v : Nat) (hf : f.key < 0xB000 * 32) : s.Calm (t.put f v) := by
  have hnand : nandKey f.key = false := by
    have hfields : ∀ g ∈ nandFields, 0xB000 * 32 ≤ g.key := by decide
    refine List.any_eq_false.2 (fun g hg he => ?_)
    have hg := hfields g hg
    rw [beq_iff_eq.1 he] at hg
    omega
  have hspared : sparedKey f.key = false := by
    simp only [sparedKey, Bool.or_eq_false_iff, Bool.and_eq_false_iff, decide_eq_false_iff_not]
    omega
  have hstatus (p : Pair) : statusKey p f.key = false := by
    simp only [statusKey, Bool.or_eq_false_iff, beq_eq_false_iff_ne]
    simp only [Fld.key] at hf ⊢
    omega
  exact h.put v hnand (fun p => by simp [hspared, hstatus p])

theorem calm_chkFail (s : State) {n : Nat} (hlo : 64 ≤ n) (hhi : n ≤ 95) : s.Calm (s.chkFail n) := by
  have hcontrol : Src.light n = false := by
    simp only [Src.light, Bool.or_eq_false_iff, Bool.and_eq_false_iff, decide_eq_false_iff_not]
    omega
  have hflag : s.Calm (s.flag Reg.SAF_EVENT_CHK) := calm_low (.refl s) _ (by decide)
  have hnone : ServesNone n := .inr (.inl (blockOf_safety hlo hhi))
  have hreacts := (s.flag Reg.SAF_EVENT_CHK).reacts_raise_control hcontrol hnone none
  have hn : n < 192 := by omega
  exact hflag.trans ⟨hreacts.nand, hreacts.now, (leaves_raise_servesNone _ hn hcontrol hnone none).mono quiet_of_nandKey,
    fun p => spares_raise p _ hn hcontrol none⟩

theorem calm_chkAlive (s : State) {u : Nat} (hu : u < 8) (rec : List Byte) : s.Calm (s.chkAlive u rec) := by
  unfold State.chkAlive
  extract_lets n off point v s1
  have h1 : s.Calm s1 := .ite (calm_chkFail s (by omega) (by omega)) (.refl s)
  exact .ite (.refl s) (calm_low (calm_low h1 _ (by simp only [Fld.key]; omega)) _ (by simp only [Fld.key]; omega))

theorem calm_chkRecord (s : State) {u : Nat} (hu : u < 8) (rec : List Byte) (given : Option Nat) : s.Calm (s.chkRecord u rec given) := by
  have hrecords (v : Nat) : s.Calm ((s.inc (Reg.CHK_RECORDS_COUNT u)).put (Reg.CHK_VALUE_VALUE u) v) :=
    calm_low (calm_low (.refl s) _ (by simp only [Fld.key]; omega)) _ (by simp only [Fld.key]; omega)
  have hmiss (t : State) : t.Calm ((t.inc (Reg.CHK_MISMATCHES_COUNT u)).chkFail (80 + u)) :=
    (calm_low (.refl t) _ (by simp only [Fld.key]; omega)).trans (calm_chkFail _ (by omega) (by omega))
  exact (hrecords (s.chkCompare u rec given).1).trans (.trans (.ite (.refl _) (hmiss _)) (calm_chkAlive _ hu rec))

theorem calm_draw (s : State) : s.Calm s.draw := ⟨rfl, rfl, .of_same, fun _ => .of_regs⟩

theorem calm_chkSnoop (s : State) (point index : Nat) (rec : List Byte) : s.Calm (s.chkSnoop point index rec) := by
  unfold State.chkSnoop
  refine List.foldlRecOn (motive := s.Calm) (List.range 8) _ (.refl s) (fun t ht u hu => ht.trans ?_)
  split
  · exact calm_chkRecord t (List.mem_range.1 hu) rec none
  · exact .refl t

theorem calm_chkSectorFree (s : State) (dir : Nat) : s.Calm (s.chkSectorFree dir) := by
  unfold State.chkSectorFree
  refine List.foldlRecOn (motive := s.Calm) (List.range 8) _ (.refl s) (fun t ht u hu => ht.trans ?_)
  split
  · exact (calm_draw t).trans (calm_chkRecord _ (List.mem_range.1 hu) [] _)
  · exact .refl t

theorem calm_chkSector (s : State) (dir : Nat) (bytes : Option (List Byte)) : s.Calm (s.chkSector dir bytes) := by
  cases bytes with
  | some bs => exact calm_chkSnoop s 5 dir bs
  | none => exact calm_chkSectorFree s dir

/-- The sectors of the next page of a write have passed, within an operation that ends. -/
def sectorsPassed (s : State) (j : NJob) : State := (List.range 4).foldl (fun s k => s.chkSector 0 (s.jobSector j k)) s.opEnded

theorem calm_sectorsPassed (s : State) (j : NJob) : s.opEnded.Calm (s.sectorsPassed j) :=
  List.foldlRecOn (motive := s.opEnded.Calm) (List.range 4) _ (.refl _) (fun t ht _ _ => ht.trans (calm_chkSector t 0 _))

theorem exec_nandProgramDone_idle {s : State} (h : s.Ready) (ok : Bool) (hno : s.nand.jobs = [] ∨ s.mayEnd = false) :
    exec (.nandProgramDone ok) s = .next s := by
  refine (State.command_ready h (fun s => s.pageProgram ok)).trans (congrArg _ ?_)
  unfold State.pageProgram
  split
  · rfl
  · next hmay =>
    rw [hno.resolve_right (by simpa using hmay)]

theorem exec_nandProgramDone {s : State} (h : s.Ready) (ok : Bool) (hmay : s.mayEnd = true) {j : NJob} {rest : List NJob}
    (hjobs : s.nand.jobs = j :: rest) : exec (.nandProgramDone ok) s = .next ((s.sectorsPassed j).programDone ok) := by
  refine (State.command_ready h (fun s => s.pageProgram ok)).trans (congrArg _ ?_)
  unfold State.pageProgram
  rw [if_neg (by simp [hmay]), hjobs]
  rfl

/-! ## Where a page goes (R375, R376) -/

section

variable {s : State} {j : NJob} {rest : List NJob} (h : s.nand.jobs = j :: rest) (ok : Bool)
include h

/-- A page whose write has its block. -/
theorem programDone_inPlace (hneeds : s.needsBlock j = false) :
    s.programDone ok = (if ok then s.pageDone j rest else s.pageFailed j rest).noteBlocks := by
  unfold State.programDone
  rw [h]
  exact if_neg (by simp [hneeds])

/-- A page that no block is left for. -/
theorem programDone_refused (hneeds : s.needsBlock j = true) (hnone : s.nextBlock j = none) : s.programDone ok = (s.giveUp j).noteBlocks := by
  simp only [State.programDone, h, hneeds, if_true, hnone]

/-- A page that takes a block. -/
theorem programDone_takes {b : Nat} (hneeds : s.needsBlock j = true) (hnext : s.nextBlock j = some b) :
    s.programDone true = ((s.takeBlock j b).1.pageDone (s.takeBlock j b).2 rest).noteBlocks := by
  simp only [State.programDone, h, hneeds, if_true, hnext]

end

theorem nextBlock_refused {s : State} {j : NJob} (hfree : s.nand.free.length < 8) (hkind : j.kind = .file ∨ j.kind = .backup) : s.nextBlock j = none :=
  if_pos ⟨hfree, hkind⟩

theorem nextBlock_pick {s : State} {j : NJob} (hmove : ∀ old dest counted, j.kind ≠ .move old dest counted)
    (hroom : 8 ≤ s.nand.free.length ∨ j.kind = .checkpoint) : s.nextBlock j = s.nand.pick := by
  have hno : ¬ (s.nand.free.length < 8 ∧ (j.kind = .file ∨ j.kind = .backup)) := by
    rintro ⟨hfree, hkind⟩
    rcases hroom with hroom | hroom
    · omega
    · rw [hroom] at hkind
      simp at hkind
  unfold State.nextBlock
  rw [if_neg hno]
  split
  · next hk => exact absurd hk (hmove _ _ _)
  · rfl

end State

theorem Nand.mem_of_extreme (n : Nand) (low : Bool) {l : List Nat} {b : Nat} (h : n.extreme low l = some b) : b ∈ l := by
  induction l generalizing b with
  | nil => exact absurd h (by simp [Nand.extreme])
  | cons x xs ih =>
    unfold Nand.extreme at h
    split at h
    · exact List.mem_cons.2 (.inl (Option.some.inj h).symm)
    · next c hc =>
      have hc := ih hc
      rw [← Option.some.inj h]
      generalize (if low then decide ((n.block x).erases ≤ (n.block c).erases) else decide ((n.block c).erases ≤ (n.block x).erases)) = first
      cases first with
      | true => exact List.mem_cons_self
      | false => exact List.mem_cons_of_mem _ hc

/-- The block that a write takes is of the free pool (R376). -/
theorem Nand.mem_free_of_pick {n : Nand} {b : Nat} (h : n.pick = some b) : b ∈ n.free := by
  unfold Nand.pick at h
  extract_lets other at h
  have hother : ∀ c ∈ other, c ∈ n.free := by
    intro c hc
    unfold other at hc
    split at hc
    · split at hc
      · exact List.mem_of_mem_filter hc
      · exact hc
    · exact hc
  split at h
  · next c hc =>
    rw [← Option.some.inj h]
    exact hother c (n.mem_of_extreme true hc)
  · exact n.mem_of_extreme true h

theorem Nand.extreme_of_blocks {n n' : Nand} (h : n'.blocks = n.blocks) (low : Bool) (l : List Nat) : n'.extreme low l = n.extreme low l := by
  induction l with
  | nil => rfl
  | cons b bs ih =>
    simp only [Nand.extreme, ih, Nand.block, h]
    rfl

/-- The choice of a block does not ask whether an operation is under way. -/
theorem Nand.pick_underway (n : Nand) (u : Bool) : Nand.pick { n with underway := u } = n.pick := by
  have hext (low : Bool) (l : List Nat) : Nand.extreme { n with underway := u } low l = n.extreme low l :=
    Nand.extreme_of_blocks (n := n) (n' := { n with underway := u }) rfl low l
  simp only [Nand.pick, hext]
  rfl

/-- A page is programmed in a block, with its metadata. -/
def Nand.programmed (n : Nand) (b : Nat) (m : PageMeta) : Nand := n.setBlock b { n.block b with pages := (n.block b).pages ++ [m] }

theorem Nand.owner_programmed (n : Nand) (b : Nat) (m : PageMeta) : ((n.programmed b m).block b).owner = (n.block b).owner := by
  rw [Nand.programmed, Nand.block_setBlock_self]

namespace State

/-! ## The next page of a write (R369, R372, R380) -/

/-- The write in front with what a checkpoint's page reads of the ledger. -/
def pageRead (s : State) (j : NJob) : NJob :=
  match j.kind with
  | .checkpoint => if j.page < 2048 then
      { j with blob := { j.blob with cells := j.blob.cells.splice (j.page * 4096) 4096 (s.trim.ledger.slice (j.page * 4096) 4096) } } else j
  | _ => j

theorem pageRead_eq (s : State) (j : NJob) : ∃ blob, s.pageRead j = { j with blob := blob } := by
  unfold pageRead
  split
  · split
    · exact ⟨_, rfl⟩
    · exact ⟨j.blob, rfl⟩
  · exact ⟨j.blob, rfl⟩

theorem pageRead_of_kind (s : State) {j : NJob} (h : j.kind ≠ .checkpoint) : s.pageRead j = j := by
  unfold pageRead
  split
  · next hk => exact absurd hk h
  · rfl

theorem pageDone_eq (s : State) (j : NJob) (rest : List NJob) : s.pageDone j rest =
    if (s.pageRead j).page + 1 = (s.pageRead j).pages then s.commitJob (s.pageRead j)
    else (s.programPage (s.pageRead j)).setNand
      { (s.programPage (s.pageRead j)).nand with jobs := { s.pageRead j with page := (s.pageRead j).page + 1 } :: rest } := rfl

/-- A page that is not the last moves its write on. -/
theorem pageDone_next (s : State) {j : NJob} {rest : List NJob} (h : j.page + 1 < j.pages) : ∃ blob, s.pageDone j rest =
    (s.programPage { j with blob := blob }).setNand
      { (s.programPage { j with blob := blob }).nand with jobs := { j with blob := blob, page := j.page + 1 } :: rest } := by
  obtain ⟨blob, hread⟩ := s.pageRead_eq j
  refine ⟨blob, ?_⟩
  rw [pageDone_eq, hread]
  exact if_neg (by simp only; omega)

theorem pageDone_next_of_kind (s : State) {j : NJob} {rest : List NJob} (h : j.page + 1 < j.pages) (hkind : j.kind ≠ .checkpoint) :
    s.pageDone j rest = (s.programPage j).setNand { (s.programPage j).nand with jobs := { j with page := j.page + 1 } :: rest } := by
  rw [pageDone_eq, s.pageRead_of_kind hkind]
  exact if_neg (by omega)

/-- The last page of a write is its commit. -/
theorem pageDone_last (s : State) {j : NJob} (rest : List NJob) (h : j.page + 1 = j.pages) :
    ∃ blob, s.pageDone j rest = s.commitJob { j with blob := blob } := by
  obtain ⟨blob, hread⟩ := s.pageRead_eq j
  refine ⟨blob, ?_⟩
  rw [pageDone_eq, hread]
  exact if_pos h

theorem pageDone_last_of_kind (s : State) {j : NJob} (rest : List NJob) (h : j.page + 1 = j.pages) (hkind : j.kind ≠ .checkpoint) :
    s.pageDone j rest = s.commitJob j := by
  rw [pageDone_eq, s.pageRead_of_kind hkind]
  exact if_pos h

theorem programPage_eq (s : State) {j : NJob} {b : Nat} (h : j.blocks.getLast? = some b) :
    s.programPage j = s.setNand (s.nand.programmed b (s.nextMeta j b)) := by
  rw [State.programPage, h]
  rfl

theorem nextMeta_ptime (s : State) (j : NJob) (b : Nat) : (s.nextMeta j b).ptime = s.powered := by
  unfold State.nextMeta
  extract_lets n erases
  split <;> rfl

theorem nextMeta_erases (s : State) (j : NJob) (b : Nat) :
    (s.nextMeta j b).erases = if j.page % s.nand.ppb = 0 then (s.nand.block b).erases else 0 := by
  unfold State.nextMeta
  extract_lets n erases
  split <;> rfl

/-- The metadata of a page that no move writes. -/
theorem nextMeta_write (s : State) {j : NJob} (b : Nat) (h : ∀ old dest counted, j.kind ≠ .move old dest counted) : s.nextMeta j b =
    { part := j.part, copy := j.done.length, file := j.idx, page := j.page,
      version := if j.done.isEmpty then s.nand.nextVersion j.part j.idx else s.nand.nextVersion j.part j.idx - 1,
      erases := if j.page % s.nand.ppb = 0 then (s.nand.block b).erases else 0, ptime := s.powered } := by
  unfold State.nextMeta
  extract_lets n erases
  split
  · next hk => exact absurd hk (h _ _ _)
  · rfl

end State

theorem Nand.nextVersion_eq (n : Nand) (part idx : Nat) : n.nextVersion part idx = ((n.file part idx).map NFile.version).getD 0 + 1 := by
  unfold Nand.nextVersion
  cases n.file part idx <;> rfl

end Sys2Proof.Machine
end

section

/-! # Page programs (O50): commits -/

namespace Sys2Proof.Machine

namespace Nand

/-- A journal page has been programmed (R374): the records made since the one before are in it, and none is left. -/
structure Journaled (n : Nand) (rs : List JRecord) (n' : Nand) : Prop where
  files : n'.files = n.files
  jobs : n'.jobs = n.jobs
  bootSeq : n'.bootSeq = n.bootSeq
  nextSlot : n'.nextSlot = n.nextSlot
  erasing : n'.erasing = n.erasing
  records : n'.records = []
  page : n.journal.length + 1 < 1024 → n'.blocks = n.blocks ∧
    ∃ date, n'.journal = n.journal ++ [{ seq := n.journalSeq, date := date, records := n.records ++ rs }]

/-! ## The boot map (R373) -/

/-- A firmware slot's commit, or another file's, releases the old blocks; the slot's writes the boot map anew. -/
def fileReleased (n : Nand) (j : NJob) : Nand :=
  if j.part = 1 ∨ j.part = 2 then Nand.bootMap { n.release j.old with prefer := j.part - 1 } else n.release j.old

/-- Rewriting the boot map leaves the files, the writes and the journal. -/
structure SameStore (n n' : Nand) : Prop where
  files : n'.files = n.files
  jobs : n'.jobs = n.jobs
  journal : n'.journal = n.journal
  records : n'.records = n.records
  erasing : n'.erasing = n.erasing

theorem sameStore_bootMap (n : Nand) : n.SameStore n.bootMap := by
  unfold Nand.bootMap
  extract_lets c place other x
  split
  · exact ⟨rfl, rfl, rfl, rfl, rfl⟩
  · exact ⟨rfl, rfl, rfl, rfl, rfl⟩

/-- The newest copy of the boot map is that of the files as they stand. -/
theorem bootMap_newest (n : Nand) : n.bootMap.prefer = n.prefer ∧ n.bootMap.bootSeq = n.bootSeq + 1 ∧
    ∃ a, n.bootMap.boot.getLast? = some (a, n.bootCopy) := by
  unfold Nand.bootMap
  extract_lets c place other x
  split
  · exact ⟨rfl, rfl, place, List.getLast?_concat⟩
  · exact ⟨rfl, rfl, other, List.getLast?_concat⟩

theorem sameStore_fileReleased (n : Nand) (j : NJob) : (n.release j.old).SameStore (n.fileReleased j) := by
  unfold fileReleased
  split
  · obtain ⟨hfiles, hjobs, hjournal, hrecords, herasing⟩ := sameStore_bootMap { n.release j.old with prefer := j.part - 1 }
    exact ⟨hfiles, hjobs, hjournal, hrecords, herasing⟩
  · exact ⟨rfl, rfl, rfl, rfl, rfl⟩

theorem fileReleased_slot (n : Nand) {j : NJob} (h : j.part = 1 ∨ j.part = 2) : (n.fileReleased j).prefer = j.part - 1 ∧
    (n.fileReleased j).bootSeq = n.bootSeq + 1 ∧
    ∃ a c, (n.fileReleased j).boot.getLast? = some (a, c) ∧ c.seq = n.bootSeq + 1 ∧ c.prefer = j.part - 1 := by
  obtain ⟨hprefer, hseq, a, hlast⟩ := bootMap_newest { n.release j.old with prefer := j.part - 1 }
  rw [fileReleased, if_pos h]
  exact ⟨hprefer, hseq, a, _, hlast, rfl, rfl⟩

/-! ## The file of a commit (R372) -/

theorem find?_replace {α : Type} {q : α → Bool} {x y : α} {l : List α} (h : l.find? q = some x) (hy : q y = true) :
    (l.map (fun z => if q z then y else z)).find? q = some y := by
  induction l with
  | nil => exact absurd h (by simp)
  | cons z zs ih =>
    cases hz : q z with
    | true => simp [hz, hy]
    | false =>
      rw [List.find?_cons, hz] at h
      simp [hz, ih h]

theorem file_of_files {n n' : Nand} (h : n'.files = n.files) (part idx : Nat) : n'.file part idx = n.file part idx := by
  rw [Nand.file, h, Nand.file]

/-- The first copy of a new version of a file commits. -/
theorem file_commitCopy_next {n : Nand} {j : NJob} {f : NFile} (h : n.file j.part j.idx = some f) (hdone : j.done = []) :
    (n.commitCopy j).file j.part j.idx = some { f with version := f.version + 1, blob := j.blob, copies := [j.blocks], lost := [] } := by
  have hf : f.part = j.part ∧ f.idx = j.idx := by simpa using List.find?_some h
  have hfiles : (n.commitCopy j).files = n.files.map (fun g => if decide (g.part = j.part ∧ g.idx = j.idx) then
      { f with version := f.version + 1, blob := j.blob, copies := [j.blocks], lost := [] } else g) := by
    simp only [Nand.commitCopy, h, hdone, List.isEmpty_nil, if_true, decide_eq_true_eq]
  rw [Nand.file, hfiles]
  exact find?_replace h (by simp [hf])

/-- The first version of a file commits. -/
theorem file_commitCopy_first {n : Nand} {j : NJob} (h : n.file j.part j.idx = none) : (n.commitCopy j).file j.part j.idx =
    some { part := j.part, idx := j.idx, version := 1, blob := j.blob, copies := [j.blocks], lost := [] } := by
  have hfiles : (n.commitCopy j).files =
      n.files ++ [{ part := j.part, idx := j.idx, version := 1, blob := j.blob, copies := [j.blocks], lost := [] }] := by
    simp only [Nand.commitCopy, h]
  rw [Nand.file, hfiles, List.find?_append]
  rw [Nand.file] at h
  rw [h]
  simp

/-- A commit changes the files alone. -/
theorem commitCopy_frame (n : Nand) (j : NJob) : { n.commitCopy j with files := n.files } = n := by
  unfold Nand.commitCopy
  split
  · split <;> rfl
  · rfl

/-- A commit with its write done. -/
def committed (n : Nand) (j : NJob) : Nand := { n.commitCopy j with jobs := n.jobs.drop 1 }

end Nand

namespace State

theorem journalPage_eq (s : State) (rs : List JRecord) : ∃ n, s.journalPage rs = s.setNand n ∧ s.nand.Journaled rs n := by
  unfold State.journalPage
  extract_lets date page n
  split
  · exact ⟨_, rfl, rfl, rfl, rfl, rfl, rfl, rfl, fun _ => ⟨rfl, date, rfl⟩⟩
  · next hfull => exact ⟨_, rfl, rfl, rfl, rfl, rfl, rfl, rfl, fun h => absurd h hfull⟩

/-- A copy commits, and the next one begins (R372). -/
theorem commitJob_more (s : State) {j : NJob} (hmove : ∀ old dest counted, j.kind ≠ .move old dest counted) (hmore : j.done.length + 1 < j.copies) :
    ∃ n, s.nand.Journaled (s.nand.commitRecords j) n ∧ s.commitJob j =
      s.setNand { n.commitCopy j with jobs := { j with done := j.done ++ [j.blocks], blocks := [], page := 0 } :: n.jobs.drop 1 } := by
  obtain ⟨n, hpage, hjournaled⟩ := s.journalPage_eq (s.nand.commitRecords j)
  have hlen : (j.done ++ [j.blocks]).length < j.copies := by simpa using hmore
  refine ⟨n, hjournaled, ?_⟩
  unfold State.commitJob
  rw [hpage]
  cases hk : j.kind with
  | move old dest counted => exact absurd hk (hmove old dest counted)
  | _ => exact if_pos hlen

/-- The last copy commits, and the write ends. -/
theorem commitJob_last (s : State) {j : NJob} (hmove : ∀ old dest counted, j.kind ≠ .move old dest counted) (hlast : j.copies ≤ j.done.length + 1) :
    ∃ n, s.nand.Journaled (s.nand.commitRecords j) n ∧ s.commitJob j =
      (s.setNand (n.committed j)).finishJob j := by
  obtain ⟨n, hpage, hjournaled⟩ := s.journalPage_eq (s.nand.commitRecords j)
  have hlen : ¬ (j.done ++ [j.blocks]).length < j.copies := by simpa using hlast
  refine ⟨n, hjournaled, ?_⟩
  unfold State.commitJob
  rw [hpage]
  cases hk : j.kind with
  | move old dest counted => exact absurd hk (hmove old dest counted)
  | _ => exact if_neg hlen

theorem beyondReset_br {n : Nat} (hlo : 160 ≤ n) (hhi : n < 170) : beyondReset (Reg.FLT_REACT_BR n).key = true := by
  have hall : ∀ i ∈ List.range 10, beyondReset (Reg.FLT_REACT_BR (160 + i)).key = true := by decide
  have hn := hall (n - 160) (List.mem_range.2 (by omega))
  rwa [Nat.add_sub_cancel' hlo] at hn

theorem Answers.holds {s t : State} (h : s.Answers t) (hs : s.NandHolds) : t.NandHolds :=
  hs.of_rd (fun _ hlo hhi => h.outlasts.rd (beyondReset_br hlo hhi))

/-! ## The end of a file's write (R346, R372, R373) -/

theorem finishJob_file {s : State} {j : NJob} (hkind : j.kind = .file) (hrec : s.recovery = false) :
    s.finishJob j = (s.setNand (s.nand.fileReleased j)).statusOf j.pair 0 := by
  have hset : (if j.part = 1 ∨ j.part = 2 then (s.setNand (s.nand.release j.old)).setNand
      (Nand.bootMap { (s.setNand (s.nand.release j.old)).nand with prefer := j.part - 1 }) else s.setNand (s.nand.release j.old)) =
      s.setNand (s.nand.fileReleased j) := by
    unfold Nand.fileReleased
    split <;> rfl
  have hboot : ((s.setNand (s.nand.fileReleased j)).statusOf j.pair 0).recovery = false := by
    refine (on_congr ((answers_statusOf _ j.pair 0).outlasts.rd (by decide))).trans ?_
    exact hrec
  unfold State.finishJob
  simp only [hkind]
  rw [hset]
  exact if_neg (by simp [hboot])

theorem nand_statusOf (s : State) (p : Option Pair) (st : Nat) : (s.statusOf p st).nand = s.nand := by
  cases p with
  | none => rfl
  | some p => exact s.nand_complete p st 0 0 []

/-- A file's write that ends, up to the pool's registers: NAND with the old blocks released, and DONE for its command. -/
theorem fileEnds {s : State} {j : NJob} (hs : s.NandHolds) (hkind : j.kind = .file) (hrec : s.recovery = false)
    (hlast : j.copies ≤ j.done.length + 1) : ∃ n, s.nand.Journaled (s.nand.commitRecords j) n ∧
      (s.commitJob j).noteBlocks.nand = (n.committed j).fileReleased j ∧
      ∀ p, j.pair = some p → (s.commitJob j).noteBlocks.Ended p 0 := by
  obtain ⟨n, hjournaled, hcommit⟩ := s.commitJob_last (fun old dest counted => by rw [hkind]; simp) hlast
  refine ⟨n, hjournaled, ?_⟩
  have hset : (s.setNand (n.committed j)).recovery = false := hrec
  have hreleased : ((s.setNand (n.committed j)).setNand ((n.committed j).fileReleased j)).NandHolds := (hs.setNand _).setNand _
  have hfinish := finishJob_file hkind hset
  rw [nand_setNand_self] at hfinish
  rw [hcommit, hfinish]
  have hcalm := calm_noteBlocks ((answers_statusOf _ j.pair 0).holds hreleased)
  refine ⟨hcalm.nand.trans (nand_statusOf ..), fun p hp => hcalm.ended ?_⟩
  rw [hp]
  exact ended_complete _ p (by decide) 0 0 []

/-! ## The end of a checkpoint (R380, R381) -/

/-- The rotation and the registers of checkpoints have stayed. -/
structure KeepsCheckpoint (s t : State) : Prop where
  nextSlot : t.nand.nextSlot = s.nand.nextSlot
  ckptAt : t.nand.ckptAt = s.nand.ckptAt
  leaves : s.Leaves nandKey t

namespace KeepsCheckpoint

variable {s t u : State}

theorem refl (s : State) : s.KeepsCheckpoint s := ⟨rfl, rfl, .refl _ s⟩

theorem trans (h : s.KeepsCheckpoint t) (k : t.KeepsCheckpoint u) : s.KeepsCheckpoint u :=
  ⟨k.nextSlot.trans h.nextSlot, k.ckptAt.trans h.ckptAt, h.leaves.trans k.leaves⟩

theorem of_calm (h : s.Calm t) : s.KeepsCheckpoint t := ⟨by rw [h.nand], by rw [h.nand], h.leaves⟩

theorem holds (h : s.KeepsCheckpoint t) (hs : s.NandHolds) : t.NandHolds := hs.of_rd (fun _ hlo hhi => h.leaves.rd _ (nandKey_br hlo hhi))

end KeepsCheckpoint

theorem keepsCheckpoint_status (s : State) (p : Pair) (st : Nat) : s.KeepsCheckpoint (s.status p st) := by
  have hnand := s.nand_complete p st 0 0 []
  have hleaves := leaves_status s p st
  have hfields : ∀ f ∈ completionFields p, nandKey f.key = false := by cases p <;> decide
  refine ⟨congrArg Nand.nextSlot hnand, congrArg Nand.ckptAt hnand, hleaves.seq, hleaves.diag, hleaves.thm, hleaves.mode,
    fun g hg => s.sameRegs_complete p st 0 0 [] g (fun f hf he => ?_)⟩
  rw [← he, hfields f hf] at hg
  exact absurd hg (by decide)

theorem keepsCheckpoint_answerWaiting (s : State) (st : Nat) : s.KeepsCheckpoint (s.answerWaiting st) := by
  have hclear : s.KeepsCheckpoint (s.setNand { s.nand with ckptPairs := [] }) := ⟨rfl, rfl, .of_same⟩
  exact List.foldlRecOn (motive := s.KeepsCheckpoint) s.nand.ckptPairs _ hclear (fun t ht q _ => ht.trans (keepsCheckpoint_status t q st))

theorem calm_noteDeferral {s : State} (h : s.NandHolds) : s.Calm s.noteDeferral := by
  unfold State.noteDeferral
  extract_lets held t
  have ht : s.Calm t := calm_note (calm_note (.refl s) _ (by decide) (by decide)) _ (by decide) (by decide)
  clear_value t
  have hraise : t.Calm (t.raise 166) := calm_raise (by decide) rfl ((ht.holds h) 166 (by decide) (by decide))
  have hend : t.Calm (t.setLive 166 false) := calm_note (.refl t) _ (by decide) (by decide)
  exact ht.trans (.ite (.ite (.refl t) hraise) hend)

/-- A backup that no command waits for, taken, held or refused. -/
theorem keepsCheckpoint_backup {s : State} (h : s.NandHolds) : s.KeepsCheckpoint (s.issueWrite (NJob.backup none)) := by
  by_cases hno : s.nandReady = false ∨ s.nand.free.length < 8
  · have hsame : s.issueWrite (NJob.backup none) = s := by
      rcases hno with hno | hno
      · exact issueWrite_unready hno _
      · exact issueWrite_short hno rfl
    rw [hsame]
    exact .refl s
  · obtain ⟨hready, hfree⟩ := not_or.1 hno
    have hset (n : Nand) (hn : n.nextSlot = s.nand.nextSlot) (hc : n.ckptAt = s.nand.ckptAt) : s.KeepsCheckpoint (s.setNand n) := ⟨hn, hc, .of_same⟩
    rw [issueWrite_admitted (admits_backup (by simpa using hready) (by omega) none)]
    split
    · split
      · exact .refl s
      · split
        · exact .refl s
        · have hdeferred := hset { s.nand with deferred := s.nand.deferred ++ [{ NJob.backup none with pair := none }] } rfl rfl
          exact hdeferred.trans (.of_calm (calm_noteDeferral (hdeferred.holds h)))
    · exact hset _ rfl rfl

theorem keepsCheckpoint_attachBackup {s : State} (h : s.NandHolds) : s.KeepsCheckpoint s.attachBackup := by
  unfold State.attachBackup
  split
  · exact keepsCheckpoint_answerWaiting s 2
  · split
    · exact ⟨rfl, rfl, .of_same⟩
    · exact (keepsCheckpoint_backup h).trans (keepsCheckpoint_answerWaiting ..)

/-- A checkpoint has ended, before what waits for it is answered. -/
def checkpointNoted (s : State) : State :=
  State.noteCkptAge (((s.setNand { s.nand with nextSlot := (s.nand.nextSlot + 1) % 4, ckptAt := some s.powered }).put Reg.NFC_STATUS_CKPT_BUSY 0).flag
    Reg.NFC_EVENT_CHECKPOINT)

theorem finishJob_checkpoint (s : State) {j : NJob} (hkind : j.kind = .checkpoint) : s.finishJob j =
    if ((s.setNand (s.nand.release j.old)).checkpointNoted).backupDue then ((s.setNand (s.nand.release j.old)).checkpointNoted).attachBackup
    else ((s.setNand (s.nand.release j.old)).checkpointNoted).answerWaiting 0 := by
  unfold State.finishJob
  simp only [hkind]
  rfl

theorem checkpointNoted_leaves (s : State) : s.checkpointNoted.nand.nextSlot = (s.nand.nextSlot + 1) % 4 ∧
    s.checkpointNoted.nand.ckptAt = some s.powered ∧ s.checkpointNoted.on Reg.NFC_STATUS_CKPT_BUSY = false ∧
    s.checkpointNoted.on Reg.NFC_EVENT_CHECKPOINT = true ∧ s.checkpointNoted.rd Reg.NFC_CKPT_AGE_SECONDS = 0 := by
  have hage : s.checkpointNoted = State.put (((s.setNand { s.nand with nextSlot := (s.nand.nextSlot + 1) % 4, ckptAt := some s.powered }).put
      Reg.NFC_STATUS_CKPT_BUSY 0).flag Reg.NFC_EVENT_CHECKPOINT) Reg.NFC_CKPT_AGE_SECONDS (min (2 ^ 32 - 1) (s.powered - s.powered)) := rfl
  rw [hage, Nat.sub_self]
  refine ⟨rfl, rfl, ?_, ?_, ?_⟩
  · refine (on_congr ((rd_put_other _ _ (by decide)).trans (rd_flag_other _ (by decide)))).trans ?_
    rw [State.on, rd_put_self]
    rfl
  · exact (on_congr (rd_put_other _ _ (by decide))).trans (on_flag_self _ (by decide))
  · rw [rd_put_self]
    rfl

theorem NandHolds.checkpointNoted {s : State} (h : s.NandHolds) : s.checkpointNoted.NandHolds :=
  (NandHolds.put (NandHolds.put (h.setNand _) 0 (by decide)) 1 (by decide)).put _ (by decide)

/-- What a checkpoint that ends leaves. -/
theorem checkpointEnds {s : State} {j : NJob} (hs : s.NandHolds) (hkind : j.kind = .checkpoint) (hlast : j.copies ≤ j.done.length + 1) :
    (s.commitJob j).noteBlocks.nand.nextSlot = (s.nand.nextSlot + 1) % 4 ∧ (s.commitJob j).noteBlocks.nand.ckptAt = some s.powered ∧
      (s.commitJob j).noteBlocks.on Reg.NFC_STATUS_CKPT_BUSY = false ∧ (s.commitJob j).noteBlocks.on Reg.NFC_EVENT_CHECKPOINT = true ∧
      (s.commitJob j).noteBlocks.rd Reg.NFC_CKPT_AGE_SECONDS = 0 := by
  obtain ⟨n, hjournaled, hcommit⟩ := s.commitJob_last (fun old dest counted => by rw [hkind]; simp) hlast
  have hslot : (n.commitCopy j).nextSlot = s.nand.nextSlot := (congrArg Nand.nextSlot (n.commitCopy_frame j) :).trans hjournaled.nextSlot
  rw [hcommit, finishJob_checkpoint _ hkind]
  generalize hreleased : (s.setNand (n.committed j)).setNand
    ((s.setNand (n.committed j)).nand.release j.old) = r
  have hr : r.NandHolds := by
    rw [← hreleased]
    exact (hs.setNand _).setNand _
  have hrslot : r.nand.nextSlot = s.nand.nextSlot := by
    rw [← hreleased]
    exact hslot
  have hrnow : r.powered = s.powered := by
    rw [← hreleased]
    rfl
  obtain ⟨hnext, hat, hbusy, hevent, hage⟩ := r.checkpointNoted_leaves
  have hnoted := hr.checkpointNoted
  generalize r.checkpointNoted = c at *
  have hkeeps : c.KeepsCheckpoint (if c.backupDue then c.attachBackup else c.answerWaiting 0) := by
    split
    · exact keepsCheckpoint_attachBackup hnoted
    · exact keepsCheckpoint_answerWaiting c 0
  have hall := hkeeps.trans (.of_calm (calm_noteBlocks (hkeeps.holds hnoted)))
  exact ⟨hall.nextSlot.trans (hnext.trans (by rw [hrslot])), hall.ckptAt.trans (hat.trans (by rw [hrnow])),
    (on_congr (hall.leaves.rd _ (by decide))).trans hbusy, (on_congr (hall.leaves.rd _ (by decide))).trans hevent,
    (hall.leaves.rd _ (by decide)).trans hage⟩

end State

end Sys2Proof.Machine
end

section

/-! # Page programs (O50): the obligation -/

namespace Sys2Proof.Machine

/-- A block of the pool is taken for a write's next page. -/
def Nand.taken (n : Nand) (j : NJob) (b : Nat) : Nand :=
  { n.setBlock b { n.block b with owner := some (j.part, j.idx, j.done.length) } with lastTaken := some b }

theorem Nand.owner_taken (n : Nand) (j : NJob) (b : Nat) : ((n.taken j b).block b).owner = some (j.part, j.idx, j.done.length) := by
  have hblock : (n.taken j b).block b = (n.setBlock b { n.block b with owner := some (j.part, j.idx, j.done.length) }).block b := rfl
  rw [hblock, Nand.block_setBlock_self]

namespace State

/-- A page that no block is needed for: its write has one, or it is the journal's. -/
theorem needsBlock_false {s : State} {j : NJob} (h : j.page + 1 < j.pages → j.page / s.nand.ppb < j.blocks.length) : s.needsBlock j = false := by
  refine decide_eq_false (fun ⟨hpage, hblocks⟩ => ?_)
  have := h hpage
  omega

/-- The write in front has the block that its next page goes to. -/
theorem takeBlock_eq (s : State) (j : NJob) (b : Nat) :
    ∃ old, s.takeBlock j b = (s.setNand (s.nand.taken j b), { j with old := old, blocks := j.blocks ++ [b] }) := by
  cases hfirst : j.blocks.isEmpty && j.done.isEmpty with
  | true =>
    refine ⟨s.nand.oldBlocks j, ?_⟩
    simp only [State.takeBlock, hfirst, if_true]
    rfl
  | false =>
    refine ⟨j.old, ?_⟩
    simp only [State.takeBlock, hfirst, Bool.false_eq_true, if_false]
    rfl

/-- A page of a write that is not its last, in its last block. -/
theorem pageDone_inBlock {s : State} (hs : s.NandHolds) {j : NJob} {rest : List NJob} {b : Nat} (hpage : j.page + 1 < j.pages)
    (hlast : j.blocks.getLast? = some b) : (s.pageDone j rest).noteBlocks.nand.files = s.nand.files ∧
      ((s.pageDone j rest).noteBlocks.nand.block b).owner = (s.nand.block b).owner ∧
      (s.pageDone j rest).noteBlocks.nand.jobs.map NJob.blocks = j.blocks :: rest.map NJob.blocks ∧
      (s.pageDone j rest).noteBlocks.nand.jobs.map NJob.page = (j.page + 1) :: rest.map NJob.page := by
  obtain ⟨blob, hdone⟩ := s.pageDone_next (rest := rest) hpage
  rw [hdone, s.programPage_eq (j := { j with blob := blob }) hlast]
  generalize s.nextMeta { j with blob := blob } b = m
  have howner : ((s.nand.programmed b m).block b).owner = (s.nand.block b).owner := s.nand.owner_programmed b m
  have hcalm := calm_noteBlocks ((hs.setNand (s.nand.programmed b m)).setNand
    { s.nand.programmed b m with jobs := { j with blob := blob, page := j.page + 1 } :: rest })
  rw [nand_setNand_self, hcalm.nand]
  exact ⟨rfl, howner, rfl, rfl⟩

section

variable {s : State} {j : NJob} {rest : List NJob} (hs : s.NandHolds) (hjobs : s.nand.jobs = j :: rest)
include hs hjobs

/-- A page of a write is programmed in the write's last block. -/
theorem programDone_next {b : Nat} (hpage : j.page + 1 < j.pages) (hroom : j.page / s.nand.ppb < j.blocks.length) (hkind : j.kind ≠ .checkpoint)
    (hlast : j.blocks.getLast? = some b) : (s.programDone true).nand =
      { s.nand.setBlock b { s.nand.block b with pages := (s.nand.block b).pages ++ [s.nextMeta j b] } with
        jobs := { j with page := j.page + 1 } :: rest } := by
  rw [programDone_inPlace hjobs true (needsBlock_false (fun _ => hroom)), if_pos rfl, s.pageDone_next_of_kind hpage hkind, s.programPage_eq hlast]
  exact (calm_noteBlocks ((hs.setNand _).setNand _)).nand

/-- A page of a write fails: its block is retired, and its pages are programmed again. -/
theorem programDone_fails {b : Nat} (hpage : j.page + 1 < j.pages) (hroom : j.page / s.nand.ppb < j.blocks.length)
    (hlast : j.blocks.getLast? = some b) :
    s.RetiresBlock { s.nand with jobs := { j with blocks := j.blocks.dropLast, page := j.page / s.nand.ppb * s.nand.ppb } :: rest } 3 164 b
      (s.programDone false) := by
  have hfailed : s.pageFailed j rest = ((((s.setNand { s.nand with
      jobs := { j with blocks := j.blocks.dropLast, page := j.page / s.nand.ppb * s.nand.ppb } :: rest }).nandError 3 b
        (j.page % s.nand.ppb)).raise 164).retireBlock b) := by
    simp only [State.pageFailed, hlast]
    rw [if_neg (by omega)]
  rw [programDone_inPlace hjobs false (needsBlock_false (fun _ => hroom)), if_neg (by decide), hfailed]
  exact (retiresBlock_error (hs.setNand _) (by decide) (.inl rfl) b _).of_rd rfl rfl

/-- The journal page of a commit fails, and names no block. -/
theorem programDone_journalFails (hpage : j.page + 1 = j.pages) :
    (s.programDone false).nand = s.nand ∧ (s.programDone false).sticky 164 = true := by
  rw [programDone_inPlace hjobs false (needsBlock_false (fun hlt => by omega)), if_neg (by decide), State.pageFailed, if_pos hpage]
  have hraise : s.Calm (s.raise 164) := calm_raise (by decide) rfl (hs 164 (by decide) (by decide))
  have hpool := calm_noteBlocks (hraise.holds hs)
  exact ⟨(hraise.trans hpool).nand, hpool.sticky (by decide) (sticky_raise_control s (by decide) rfl none)⟩

/-- A write that may take no block is given up. -/
theorem programDone_givesUp (ok : Bool) (hpage : j.page + 1 < j.pages) (hroom : j.blocks.length ≤ j.page / s.nand.ppb)
    (hfree : s.nand.free.length < 8) (hkind : j.kind = .file ∨ j.kind = .backup) : (s.programDone ok).nand.jobs = rest ∧
      (s.programDone ok).nand.files = s.nand.files ∧ ∀ p, j.pair = some p → (s.programDone ok).Ended p 2 := by
  rw [programDone_refused hjobs ok (decide_eq_true ⟨hpage, hroom⟩) (nextBlock_refused hfree hkind)]
  have hanswers := s.answers_giveUp j
  have hcalm := calm_noteBlocks (hanswers.holds (hs.setNand _))
  exact ⟨(congrArg Nand.jobs hcalm.nand).trans (jobs_giveUp hjobs), (congrArg Nand.files hcalm.nand).trans (files_giveUp s j),
    fun p hp => hcalm.ended (ended_giveUp s hp)⟩

/-- A page that takes a block is programmed there. -/
theorem programDone_newBlock {b : Nat} (hpage : j.page + 1 < j.pages) (hroom : j.blocks.length ≤ j.page / s.nand.ppb)
    (hmove : ∀ old dest counted, j.kind ≠ .move old dest counted) (hpick : s.nand.pick = some b)
    (hfree : 8 ≤ s.nand.free.length ∨ j.kind = .checkpoint) :
    ((s.programDone true).nand.block b).owner = some (j.part, j.idx, j.done.length) ∧ (s.programDone true).nand.files = s.nand.files ∧
      (s.programDone true).nand.jobs.map NJob.blocks = (j.blocks ++ [b]) :: rest.map NJob.blocks ∧
      (s.programDone true).nand.jobs.map NJob.page = (j.page + 1) :: rest.map NJob.page := by
  have hnext : s.nextBlock j = some b := (nextBlock_pick hmove hfree).trans hpick
  obtain ⟨old, htaken⟩ := s.takeBlock_eq j b
  rw [programDone_takes hjobs (decide_eq_true ⟨hpage, hroom⟩) hnext, htaken]
  obtain ⟨hfiles, howner, hblocks, hpages⟩ := pageDone_inBlock (j := { j with old := old, blocks := j.blocks ++ [b] }) (rest := rest)
    (hs.setNand (s.nand.taken j b)) hpage List.getLast?_concat
  exact ⟨howner.trans (s.nand.owner_taken j b), hfiles, hblocks, hpages⟩

end

end State

/-- The record of a file's commit. -/
theorem Nand.commitRecords_file (n : Nand) {j : NJob} (h : j.kind = .file) :
    ∃ v, n.commitRecords j = [.commit j.part j.idx j.done.length v j.blocks] := by
  refine ⟨if j.done.isEmpty then n.nextVersion j.part j.idx else n.nextVersion j.part j.idx - 1, ?_⟩
  simp only [Nand.commitRecords, h]

namespace State

/-! ## The commit of a file (R346, R372-R374) -/

theorem programDone_commits {s : State} {j : NJob} {rest : List NJob} (hjobs : s.nand.jobs = j :: rest) (hpage : j.page + 1 = j.pages)
    (hkind : j.kind = .file) : s.programDone true = (s.commitJob j).noteBlocks := by
  rw [programDone_inPlace hjobs true (needsBlock_false (fun hlt => by omega)), if_pos rfl, s.pageDone_last_of_kind rest hpage (by rw [hkind]; simp)]

section

variable {s : State} {j : NJob} {rest : List NJob} (hs : s.NandHolds) (hjobs : s.nand.jobs = j :: rest) (hpage : j.page + 1 = j.pages)
  (hkind : j.kind = .file)
include hs hjobs hpage hkind

/-- A copy of a file that is not its last commits: the next one follows. -/
theorem programDone_copy (hmore : j.done.length + 1 < j.copies) : ∃ n, s.nand.Journaled (s.nand.commitRecords j) n ∧
    (s.programDone true).nand.files = (n.commitCopy j).files ∧
    (s.programDone true).nand.jobs = { j with done := j.done ++ [j.blocks], blocks := [], page := 0 } :: rest := by
  obtain ⟨n, hjournaled, hcommit⟩ := s.commitJob_more (fun old dest counted => by rw [hkind]; simp) hmore
  have hrest : n.jobs.drop 1 = rest := by rw [hjournaled.jobs, hjobs, List.drop_one, List.tail_cons]
  rw [programDone_commits hjobs hpage hkind, hcommit, hrest, (calm_noteBlocks (hs.setNand _)).nand]
  exact ⟨n, hjournaled, rfl, rfl⟩

/-- The files as the commit of a copy leaves them, whether or not it is the last. -/
theorem files_programDone (hrec : s.recovery = false) :
    ∃ n, s.nand.Journaled (s.nand.commitRecords j) n ∧ (s.programDone true).nand.files = (n.commitCopy j).files := by
  by_cases hmore : j.done.length + 1 < j.copies
  · obtain ⟨n, hjournaled, hfiles, -⟩ := programDone_copy hs hjobs hpage hkind hmore
    exact ⟨n, hjournaled, hfiles⟩
  · obtain ⟨n, hjournaled, hnand, -⟩ := fileEnds hs hkind hrec (Nat.le_of_not_lt hmore)
    rw [programDone_commits hjobs hpage hkind, hnand]
    exact ⟨n, hjournaled, ((n.committed j).sameStore_fileReleased j).files⟩

theorem programDone_nextVersion (hrec : s.recovery = false) {f : NFile} (hfile : s.nand.file j.part j.idx = some f) (hdone : j.done = []) :
    (s.programDone true).nand.file j.part j.idx = some { f with version := f.version + 1, blob := j.blob, copies := [j.blocks], lost := [] } := by
  obtain ⟨n, hjournaled, hfiles⟩ := files_programDone hs hjobs hpage hkind hrec
  rw [Nand.file_of_files hfiles, Nand.file_commitCopy_next ((Nand.file_of_files hjournaled.files ..).trans hfile) hdone]

theorem programDone_firstVersion (hrec : s.recovery = false) (hfile : s.nand.file j.part j.idx = none) :
    (s.programDone true).nand.file j.part j.idx =
      some { part := j.part, idx := j.idx, version := 1, blob := j.blob, copies := [j.blocks], lost := [] } := by
  obtain ⟨n, hjournaled, hfiles⟩ := files_programDone hs hjobs hpage hkind hrec
  rw [Nand.file_of_files hfiles, Nand.file_commitCopy_first ((Nand.file_of_files hjournaled.files ..).trans hfile)]

/-- The last copy of a file commits: the journal page, the old blocks, the boot map, and the command that waits. -/
theorem programDone_fileEnds (hrec : s.recovery = false) (hlast : j.copies ≤ j.done.length + 1) :
    (s.programDone true).nand.jobs = rest ∧
      (s.nand.journal.length + 1 < 1024 → ∃ v date, (s.programDone true).nand.journal = s.nand.journal ++
        [{ seq := s.nand.journalSeq, date := date, records := s.nand.records ++ [.commit j.part j.idx j.done.length v j.blocks] }] ∧
        (s.programDone true).nand.records = [] ∧
        (s.programDone true).nand.erasing = s.nand.erasing ++ j.old.filter (fun b => !(s.nand.block b).bad)) ∧
      (∀ p, j.pair = some p → (s.programDone true).Ended p 0) ∧
      (j.part = 1 ∨ j.part = 2 → (s.programDone true).nand.prefer = j.part - 1 ∧ (s.programDone true).nand.bootSeq = s.nand.bootSeq + 1 ∧
        ∃ a c, (s.programDone true).nand.boot.getLast? = some (a, c) ∧ c.seq = s.nand.bootSeq + 1 ∧ c.prefer = j.part - 1) := by
  obtain ⟨n, hjournaled, hnand, hended⟩ := fileEnds hs hkind hrec hlast
  have hstore := (n.committed j).sameStore_fileReleased j
  have hframe := n.commitCopy_frame j
  have hblock (b : Nat) : (n.committed j).block b = n.block b := by
    rw [Nand.block, Nand.block]
    exact congrArg (fun bs => Sparse.get bs NBlock.fresh b) (congrArg Nand.blocks hframe :)
  rw [programDone_commits hjobs hpage hkind, hnand]
  refine ⟨?_, fun hroom => ?_, hended, fun hpart => ?_⟩
  · rw [hstore.jobs]
    exact (congrArg (List.drop 1) hjournaled.jobs).trans (congrArg (List.drop 1) hjobs)
  · obtain ⟨hblocks, date, hpages⟩ := hjournaled.page hroom
    have hsame (b : Nat) : (n.committed j).block b = s.nand.block b := by rw [hblock, Nand.block, hblocks, Nand.block]
    obtain ⟨v, hrecords⟩ := s.nand.commitRecords_file hkind
    rw [hrecords] at hpages
    refine ⟨v, date, ?_, ?_, ?_⟩
    · exact hstore.journal.trans ((congrArg Nand.journal hframe :).trans hpages)
    · exact hstore.records.trans ((congrArg Nand.records hframe :).trans hjournaled.records)
    · have herasing : (n.committed j).erasing = s.nand.erasing := (congrArg Nand.erasing hframe :).trans hjournaled.erasing
      rw [hstore.erasing, Nand.release, herasing]
      simp only [hsame]
  · have hseq : (n.committed j).bootSeq = s.nand.bootSeq := (congrArg Nand.bootSeq hframe :).trans hjournaled.bootSeq
    rw [← hseq]
    exact (n.committed j).fileReleased_slot hpart

end

/-- The last page of a checkpoint. -/
theorem programDone_checkpoint {s : State} {j : NJob} {rest : List NJob} (hjobs : s.nand.jobs = j :: rest) (hpage : j.page + 1 = j.pages) :
    ∃ blob, s.programDone true = (s.commitJob { j with blob := blob }).noteBlocks := by
  obtain ⟨blob, hdone⟩ := s.pageDone_last rest hpage
  exact ⟨blob, by rw [programDone_inPlace hjobs true (needsBlock_false (fun hlt => by omega)), if_pos rfl, hdone]⟩

end State

/-- Settles O50: a page by where its write stands, its last page by the commit. -/
theorem pagePrograms : Obligations.PagePrograms := by
  unfold Obligations.PagePrograms
  intro s j rest h hs
  have hcalm := s.calm_sectorsPassed j
  have hvs : (s.sectorsPassed j).NandHolds := hcalm.holds (hs.setNand _)
  have hnand : (s.sectorsPassed j).nand = { s.nand with underway := false } := hcalm.nand
  have hpowered : (s.sectorsPassed j).powered = s.now / 1000000000 := congrArg (· / 1000000000) hcalm.now
  have hrecovery : (s.sectorsPassed j).recovery = s.recovery := hcalm.recovery
  have hexec (ok : Bool) (hmay : s.mayEnd = true) (hjobs : s.nand.jobs = j :: rest) := State.exec_nandProgramDone h ok hmay hjobs
  have hfront (hjobs : s.nand.jobs = j :: rest) : (s.sectorsPassed j).nand.jobs = j :: rest := by rw [hnand]; exact hjobs
  have hppb : (s.sectorsPassed j).nand.ppb = s.nand.ppb := by rw [hnand]; rfl
  have hfree : (s.sectorsPassed j).nand.free = s.nand.free := by rw [hnand]; rfl
  have hpick : (s.sectorsPassed j).nand.pick = s.nand.pick := by rw [hnand]; exact s.nand.pick_underway false
  have hfiles : (s.sectorsPassed j).nand.files = s.nand.files := by rw [hnand]
  generalize s.sectorsPassed j = v at *
  refine ⟨fun ok hno => State.exec_nandProgramDone_idle h ok hno, by rw [State.mayEnd, Bool.or_eq_true]; rfl,
    fun hmay hjobs hpage => ⟨fun hroom => ⟨?_, ?_⟩, ?_, ?_⟩,
    fun hmay hjobs hpage _ => ⟨?_, fun hkind hrec => ⟨?_, ?_, ?_, ?_⟩, fun hkind hcopies hdone => ?_⟩⟩
  · intro b hkind hlast
    have hroom' : j.page / v.nand.ppb < j.blocks.length := by rwa [hppb]
    refine ⟨_, v.nextMeta j b, hexec true hmay hjobs, ?_, (v.nextMeta_ptime j b).trans hpowered, fun hpos => ?_, fun hzero => ?_, fun hmove => ?_⟩
    · rw [State.programDone_next hvs (hfront hjobs) hpage hroom' hkind hlast, hnand]
      rfl
    · rw [v.nextMeta_erases, hppb, if_neg (by omega)]
    · rw [v.nextMeta_erases, hppb, if_pos hzero, hnand]
      rfl
    · rw [v.nextMeta_write b hmove]
      refine ⟨rfl, rfl, rfl, rfl, fun hdone => ?_⟩
      simp only [hdone, List.isEmpty_nil, if_true]
      rw [Nand.nextVersion_eq, Nand.file_of_files hfiles]
  · intro b hlast
    have hfailed := State.programDone_fails hvs (hfront hjobs) hpage (by rwa [hppb]) hlast
    rw [hppb] at hfailed
    refine ⟨_, hexec false hmay hjobs, ?_, hfailed.told, hfailed.retired, hfailed.valid, hfailed.kind, ?_, ?_⟩
    · rw [hfailed.nand]
      exact congrArg NBlock.bad (Nand.block_setBlock_self _ b _)
    · rw [hfailed.nand]
      exact hfiles
    · rw [hfailed.nand]
      rfl
  · intro hroom hfew hkind ok
    obtain ⟨hrest, hkept, hended⟩ :=
      State.programDone_givesUp hvs (hfront hjobs) ok hpage (by rwa [hppb]) (by rwa [hfree]) hkind
    exact ⟨_, hexec ok hmay hjobs, hrest, hkept.trans hfiles, hended⟩
  · intro b hroom hmove hpicked hmany
    obtain ⟨howner, hkept, hblocks, hpages⟩ :=
      State.programDone_newBlock hvs (hfront hjobs) hpage (by rwa [hppb]) hmove (hpick.trans hpicked) (by rwa [hfree])
    exact ⟨_, hexec true hmay hjobs, howner, Nand.mem_free_of_pick hpicked, hkept.trans hfiles, hblocks, hpages⟩
  · obtain ⟨hkept, hfault⟩ := State.programDone_journalFails hvs (hfront hjobs) hpage
    exact ⟨_, hexec false hmay hjobs, hfault, hkept.trans hnand⟩
  · intro hmore
    obtain ⟨n, -, -, hnext⟩ := State.programDone_copy hvs (hfront hjobs) hpage hkind hmore
    exact ⟨_, hexec true hmay hjobs, hnext⟩
  · intro f hfile hdone
    have hnext := State.programDone_nextVersion hvs (hfront hjobs) hpage hkind (hrecovery.trans hrec)
      ((Nand.file_of_files hfiles ..).trans hfile) hdone
    exact ⟨_, _, hexec true hmay hjobs, hnext, rfl, rfl, rfl, rfl⟩
  · intro hfile _
    have hnext := State.programDone_firstVersion hvs (hfront hjobs) hpage hkind (hrecovery.trans hrec)
      ((Nand.file_of_files hfiles ..).trans hfile)
    exact ⟨_, _, hexec true hmay hjobs, hnext, rfl, rfl⟩
  · intro hlast
    have hends := State.programDone_fileEnds hvs (hfront hjobs) hpage hkind (hrecovery.trans hrec) hlast
    rw [hnand] at hends
    exact ⟨_, hexec true hmay hjobs, hends⟩
  · obtain ⟨blob, hcommit⟩ := State.programDone_checkpoint (hfront hjobs) hpage
    have hends := State.checkpointEnds (j := { j with blob := blob }) hvs hkind (by simp [hcopies])
    rw [← hcommit, hpowered, hnand] at hends
    exact ⟨_, hexec true hmay hjobs, hends⟩

end Sys2Proof.Machine
end

section

/-! # Wharf commands and completions (O40) -/

namespace Sys2Proof.Machine

namespace State

/-! ## The frame of a wharf command (R252, R363, R424, R425) -/

/-- A block in reset serves the opcode. -/
theorem any_blockServes {s : State} {op : Nat} : s.flt.inReset.any (fun b => blockServes b op) = true ↔ s.servingReset op := by
  rw [List.any_eq_true]
  constructor
  · rintro ⟨b, hb, hserves⟩
    cases b with
    | security => exact .inl ⟨hb, hserves⟩
    | nand => exact .inr (.inl ⟨hb, hserves⟩)
    | pairing => exact .inr (.inr ⟨hb, of_decide_eq_true hserves⟩)
    | hostLink | peerLink | safety | crc => exact absurd hserves Bool.false_ne_true
  · rintro (⟨hb, hop⟩ | ⟨hb, hop⟩ | ⟨hb, hop⟩)
    · exact ⟨_, hb, hop⟩
    · exact ⟨_, hb, hop⟩
    · exact ⟨_, hb, decide_eq_true hop⟩

section

variable {s : State} {p : Pair} {op : Nat}

theorem serve_idle (h : s.executing p op = false) (used : Nat) (f : State → State) : s.serve p op used f = s := if_pos (by simp [h])

theorem serve_inReset (h : s.executing p op = true) (hreset : s.servingReset op) (used : Nat) (f : State → State) :
    s.serve p op used f = s.status p 4 :=
  (if_neg (by simp [h])).trans (if_pos (any_blockServes.2 hreset))

theorem serve_engineOff (h : s.executing p op = true) (hup : ¬ s.servingReset op) (hoff : s.sec.engineOff = true) (hop : securityServed op = true)
    (used : Nat) (f : State → State) : s.serve p op used f = s.status p 2 :=
  (if_neg (by simp [h])).trans ((if_neg (mt any_blockServes.1 hup)).trans (if_pos (by simp [hoff, hop])))

theorem refused_executing (h : s.executing p op = true) (code : Nat) :
    s.refused p code = s.fails p code 0 (if op = 0x16 then [15] else []) := by
  obtain ⟨-, hop⟩ := Bool.and_eq_true_iff.1 h
  rw [State.refused, of_decide_eq_true hop]

theorem serve_argument (h : s.executing p op = true) (hup : ¬ s.servingReset op) (hon : s.sec.engineOff = false ∨ securityServed op = false)
    {used : Nat} (hargs : allZero ((s.args p).drop used) = false) (f : State → State) :
    s.serve p op used f = s.fails p 11 0 (if op = 0x16 then [15] else []) := by
  have hengine : ¬ (s.sec.engineOff && securityServed op) = true := by rcases hon with hon | hon <;> simp [hon]
  rw [← refused_executing h]
  exact (if_neg (by simp [h])).trans ((if_neg (mt any_blockServes.1 hup)).trans ((if_neg hengine).trans (if_pos (by simp [hargs]))))

end

/-- Every wharf command runs in the frame, with the argument bytes that its row lists. -/
theorem exec_wharfCommand_frame {i : Instr} {p : Pair} {op : Nat} (h : wharfCommand i = some (p, op)) (s : State) :
    ∃ f : State → State → State, exec i s = s.command (fun s => s.serve p op (s.argsUsed op) (f s)) := by
  unfold wharfCommand at h
  unfold exec
  split at h
  all_goals cases h
  all_goals exact ⟨_, rfl⟩

theorem exec_wharfCommand {s : State} (hs : s.Ready) {i : Instr} {p : Pair} {op : Nat} (h : wharfCommand i = some (p, op)) :
    ∃ f : State → State, exec i s = .next (s.serve p op (s.argsUsed op) f) := by
  obtain ⟨f, hexec⟩ := exec_wharfCommand_frame h s
  exact ⟨f s, hexec.trans (command_ready hs _)⟩

/-! ## Completions (R423, R424) -/

/-- Nothing but register fields, messages and the basin has changed. -/
def Posts (s t : State) : Prop := ∃ (regs : RegFile) (bas : Basin) (rif : Rif), t = { s with regs := regs, bas := bas, rif := rif }

theorem Posts.refl (s : State) : s.Posts s := ⟨_, _, _, rfl⟩

theorem Posts.trans {s t u : State} (h : s.Posts t) (k : t.Posts u) : s.Posts u := by
  obtain ⟨regs, bas, rif, rfl⟩ := h
  obtain ⟨regs', bas', rif', rfl⟩ := k
  exact ⟨_, _, _, rfl⟩

theorem Posts.ite {s t u : State} {c : Prop} [Decidable c] (ht : s.Posts t) (hu : s.Posts u) : s.Posts (if c then t else u) := by
  split
  · exact ht
  · exact hu

theorem Posts.put {s t : State} (h : s.Posts t) (f : Fld) (v : Nat) : s.Posts (t.put f v) := h.trans ⟨_, _, _, rfl⟩

theorem posts_sendMsg (s : State) (code arg : Nat) (payload : List Byte) : s.Posts (s.sendMsg code arg payload) := .ite ⟨_, _, _, rfl⟩ (.refl s)

/-- The event of a pair's completion. -/
def completionEvent (p : Pair) : Fld := if p = .openPair then Reg.WHF_EVENT_CPL_OPEN else Reg.WHF_EVENT_CPL_SESSION

/-- The count of failures after a completion. -/
def countFailure (s : State) (p : Pair) (status : Nat) : State := if status = 0 ∨ status = 6 then s else s.inc (Reg.WHF_FAILED_COUNT p.num)

/-- SEQUENCE is noted with a command whose sequence was not the expected one. -/
def noteSequence (s : State) (status : Nat) : State := if status = 9 then s.flag Reg.WHF_EVENT_SEQUENCE else s

/-- The CPL message, where it is enabled. -/
def tellCompletion (s : State) (arg : Nat) (entry : List Byte) : State := if s.on Reg.RIF_INT_CTRL_MSG_CPL then s.sendMsg 3 arg entry else s

theorem tellStatus_eq (s : State) (p : Pair) (status arg : Nat) (entry : List Byte) :
    s.tellStatus p status arg entry = (((s.countFailure p status).noteSequence status).flag (completionEvent p)).tellCompletion arg entry := by
  cases p <;> rfl

theorem posts_tellStatus (s : State) (p : Pair) (status arg : Nat) (entry : List Byte) : s.Posts (s.tellStatus p status arg entry) := by
  have hcount : s.Posts (s.countFailure p status) := .ite (.refl s) (.put (.refl s) ..)
  have hsequence (t : State) : t.Posts (t.noteSequence status) := .ite (.put (.refl t) ..) (.refl t)
  have htell (t : State) : t.Posts (t.tellCompletion arg entry) := .ite (posts_sendMsg ..) (.refl t)
  rw [tellStatus_eq]
  exact (Posts.put (hcount.trans (hsequence _)) ..).trans (htell _)

/-- A completion changes registers, messages and the basin alone. -/
theorem posts_complete (s : State) (p : Pair) (status detail length : Nat) (result : List Byte) :
    s.Posts (s.complete p status detail length result) := by
  have hentry (a : Nat) (entry : List Byte) : s.Posts (s.basWrite a entry) := ⟨_, _, _, rfl⟩
  rw [State.complete_eq]
  exact (Posts.put (.put (.put (hentry _ _) ..) ..) ..).trans (posts_tellStatus ..)

theorem complete_frame (s : State) (p : Pair) (status detail length : Nat) (result : List Byte) :
    { s.complete p status detail length result with regs := s.regs, bas := s.bas, rif := s.rif } = s := by
  obtain ⟨regs, bas, rif, h⟩ := s.posts_complete p status detail length result
  rw [h]

theorem rd_tellCompletion (s : State) (arg : Nat) (entry : List Byte) {g : Fld} (h : Reg.RIF_MSG_COUNT_COUNT.key ≠ g.key) :
    (s.tellCompletion arg entry).rd g = s.rd g := by
  unfold tellCompletion State.sendMsg
  split
  · split
    · exact rd_inc_other _ 1 h
    · rfl
  · rfl

theorem rd_noteSequence (s : State) (status : Nat) {g : Fld} (h : Reg.WHF_EVENT_SEQUENCE.key ≠ g.key) : (s.noteSequence status).rd g = s.rd g := by
  unfold noteSequence
  split
  · exact rd_flag_other _ h
  · rfl

theorem rd_countFailure (s : State) (p : Pair) (status : Nat) : (s.countFailure p status).rd (Reg.WHF_FAILED_COUNT p.num) =
    if status = 0 ∨ status = 6 then s.rd (Reg.WHF_FAILED_COUNT p.num) else min (2 ^ 32 - 1) (s.rd (Reg.WHF_FAILED_COUNT p.num) + 1) := by
  unfold countFailure
  split
  · rfl
  · exact rd_put_fits s (f := Reg.WHF_FAILED_COUNT p.num) (Nat.lt_of_le_of_lt (Nat.min_le_left ..) (Nat.sub_one_lt (Nat.two_pow_pos 32).ne'))

theorem rd_tellStatus_failed (s : State) (p : Pair) (status arg : Nat) (entry : List Byte) :
    (s.tellStatus p status arg entry).rd (Reg.WHF_FAILED_COUNT p.num) = (s.countFailure p status).rd (Reg.WHF_FAILED_COUNT p.num) := by
  rw [tellStatus_eq, rd_tellCompletion _ _ _ (by cases p <;> decide), rd_flag_other _ (by cases p <;> decide),
    rd_noteSequence _ _ (by cases p <;> decide)]

theorem on_tellStatus_event (s : State) (p : Pair) (status arg : Nat) (entry : List Byte) :
    (s.tellStatus p status arg entry).on (completionEvent p) = true := by
  rw [tellStatus_eq]
  exact (on_congr (rd_tellCompletion _ _ _ (by cases p <;> decide))).trans (on_flag_self _ (by cases p <;> decide))

theorem on_tellStatus_sequence (s : State) (p : Pair) (arg : Nat) (entry : List Byte) :
    (s.tellStatus p 9 arg entry).on Reg.WHF_EVENT_SEQUENCE = true := by
  rw [tellStatus_eq]
  exact (on_congr ((rd_tellCompletion _ _ _ (by decide)).trans (rd_flag_other _ (by cases p <;> decide)))).trans (on_flag_self _ (by decide))

/-- The sequence of the next completion moves on. -/
theorem rd_complete_next (s : State) (p : Pair) (status detail length : Nat) (result : List Byte) :
    (s.complete p status detail length result).rd (Reg.WHF_CPL_NEXT_SEQ p.num) = (s.rd (Reg.WHF_CPL_NEXT_SEQ p.num) + 1) % 2 ^ 32 := by
  have hafter : ∀ f ∈ afterStatusFields p, f.key ≠ (Reg.WHF_CPL_NEXT_SEQ p.num).key := by cases p <;> decide
  rw [State.complete_eq, sameRegs_tellStatus _ _ _ _ _ _ hafter, State.postStatus, rd_put_other _ _ (by cases p <;> decide),
    rd_put_other _ _ (by cases p <;> decide)]
  exact rd_put_self ..

theorem rd_complete_failed (s : State) (p : Pair) (status detail length : Nat) (result : List Byte) :
    (s.complete p status detail length result).rd (Reg.WHF_FAILED_COUNT p.num) =
      if status = 0 ∨ status = 6 then s.rd (Reg.WHF_FAILED_COUNT p.num) else min (2 ^ 32 - 1) (s.rd (Reg.WHF_FAILED_COUNT p.num) + 1) := by
  have hpost (entry : List Byte) : (s.postStatus p status entry).rd (Reg.WHF_FAILED_COUNT p.num) = s.rd (Reg.WHF_FAILED_COUNT p.num) := by
    rw [State.postStatus, rd_put_other _ _ (by cases p <;> decide), rd_put_other _ _ (by cases p <;> decide),
      rd_incMod_other _ _ (by cases p <;> decide)]
    rfl
  rw [State.complete_eq, rd_tellStatus_failed, rd_countFailure, hpost]

end State

/-- Settles O40: every command runs in the frame that judges it, and a completion is its entry, its status and what tells of them. -/
theorem wharfCompletions : Obligations.WharfCompletions := by
  unfold Obligations.WharfCompletions
  refine ⟨fun s i p op hs hcommand => ?_, fun s t p code detail length q n result hcode ht hq hn => ?_⟩
  · obtain ⟨f, hexec⟩ := State.exec_wharfCommand hs hcommand
    rw [hexec]
    refine ⟨fun hidle => ?_, fun hrun => ⟨fun hreset => ?_, fun hup => ⟨fun hoff hop => ?_, fun hon hargs => ?_⟩⟩⟩
    · rw [State.serve_idle hidle]
    · rw [State.serve_inReset hrun hreset]
    · rw [State.serve_engineOff hrun hup hoff hop]
    · rw [State.serve_argument hrun hup hon hargs]
  · subst ht hq hn
    refine ⟨s.ended_complete p hcode detail length result, s.rd_complete_next .., s.rd_complete_failed .., fun hnine => ?_, ?_,
      s.bas_complete .., s.complete_frame .., s.sameRegs_complete p code detail length result⟩
    · subst hnine
      rw [State.complete_eq]
      exact State.on_tellStatus_sequence ..
    · rw [State.complete_eq]
      exact State.on_tellStatus_event ..

end Sys2Proof.Machine
end

section

/-! # The record of a raise, and the registers over its reaction (O29) -/

namespace Sys2Proof.Machine

/-! ## The registers of the fault collector over a reaction (R249, R252) -/

/-- A reaction and its block reset leave the fields of the sticky, live, force and clear bits, of FLT_SEV and of FLT_REACT. -/
theorem beyondReset_collector {k : Nat} (hlo : 0xD100 * 32 ≤ k) (hhi : k < 0xD700 * 32) : beyondReset k = true := by
  have hfields : ∀ f ∈ reactionFields ++ resetFields, f.key < 0xD100 * 32 ∨ 0xD700 * 32 ≤ f.key := by decide
  have hne {f : Fld} (hf : f ∈ reactionFields ++ resetFields) : (f.key != k) = true := bne_iff_ne.2 (fun he => by
    have hkey := hfields f hf
    omega)
  exact Bool.and_eq_true_iff.2 ⟨List.all_eq_true.2 (fun f hf => hne (List.mem_append_left _ hf)),
    List.all_eq_true.2 (fun f hf => hne (List.mem_append_right _ hf))⟩

namespace State

/-- What follows the record of a raise, whatever its source's class and reaction. -/
theorem leaves_raiseAt_recorded (s : State) (n : Nat) (locus : Option Nat) : (s.recordRaise n locus).Leaves beyondReset (s.raiseAt n locus) := by
  by_cases hl : Src.light n = true
  · exact (raiseAt_leaves s (.inl hl) locus).mono (fun k h => (Bool.and_eq_true_iff.1 h).1)
  · exact (outlasts_raiseAt s (by simpa using hl) locus).leaves

theorem rd_raiseAt (s : State) (n : Nat) (locus : Option Nat) {g : Fld} (hlo : 0xD100 * 32 ≤ g.key) (hhi : g.key < 0xD700 * 32) :
    (s.raiseAt n locus).rd g = (s.recordRaise n locus).rd g :=
  (leaves_raiseAt_recorded s n locus).rd g (beyondReset_collector hlo hhi)

/-- A raise leaves the fields of the collector other than its sticky word and its count. -/
theorem rd_raiseAt_other (s : State) (n : Nat) (locus : Option Nat) {g : Fld} (hlo : 0xD100 * 32 ≤ g.key) (hhi : g.key < 0xD700 * 32)
    (hsticky : (Reg.FLT_STICKY_STICKY (n / 32)).key ≠ g.key) (hcount : (Reg.FLT_REACT_COUNT n).key ≠ g.key) :
    (s.raiseAt n locus).rd g = s.rd g :=
  (rd_raiseAt s n locus hlo hhi).trans (rd_recordRaise_other s n locus hsticky hcount)

theorem sticky_raiseAt_recorded (s : State) (n : Nat) (locus : Option Nat) {m : Nat} (hm : m < 192) :
    (s.raiseAt n locus).sticky m = (s.recordRaise n locus).sticky m :=
  bitOf_congr (rd_raiseAt s n locus (by simp only [Fld.key]; omega) (by simp only [Fld.key]; omega)) _

theorem sticky_recordRaise_other (s : State) {n m : Nat} (hne : n ≠ m) (locus : Option Nat) : (s.recordRaise n locus).sticky m = s.sticky m := by
  have hcount : (Reg.FLT_REACT_COUNT n).key ≠ (Reg.FLT_STICKY_STICKY (m / 32)).key := by
    simp only [Fld.key]
    omega
  by_cases hword : n / 32 = m / 32
  · have hput : (s.recordRaise n locus).rd (Reg.FLT_STICKY_STICKY (m / 32)) =
        (s.putBit (Reg.FLT_STICKY_STICKY (n / 32)) (n % 32) true).rd (Reg.FLT_STICKY_STICKY (m / 32)) := rd_inc_other _ 1 hcount
    rw [State.sticky, bitOf_congr hput, hword]
    exact bitOf_putBit_other s (by omega) (show m % 32 < 32 from Nat.mod_lt m (by decide))
  · exact bitOf_congr (rd_recordRaise_other s n locus (by simp only [Fld.key]; omega) hcount) _

/-- A raise, forced or real, sets its own sticky bit alone. -/
theorem sticky_raiseAt_self (s : State) {n : Nat} (hn : n < 192) (locus : Option Nat) : (s.raiseAt n locus).sticky n = true :=
  (sticky_raiseAt_recorded s n locus hn).trans (sticky_recordRaise s n locus)

theorem sticky_raiseAt_other (s : State) {n m : Nat} (hm : m < 192) (hne : n ≠ m) (locus : Option Nat) :
    (s.raiseAt n locus).sticky m = s.sticky m :=
  (sticky_raiseAt_recorded s n locus hm).trans (sticky_recordRaise_other s hne locus)

/-- The live words stay where a source is raised without its live bit. -/
theorem rd_raiseAt_live (s : State) {n : Nat} (hn : n < 192) (locus : Option Nat) {i : Nat} (hi : i < 6) :
    (s.raiseAt n locus).rd (Reg.FLT_LIVE_LIVE i) = s.rd (Reg.FLT_LIVE_LIVE i) :=
  rd_raiseAt_other s n locus (by simp only [Fld.key]; omega) (by simp only [Fld.key]; omega) (by simp only [Fld.key]; omega)
    (by simp only [Fld.key]; omega)

theorem sticky_noteRaise (s : State) (n : Nat) {m : Nat} (hm : m < 192) : (s.noteRaise n).sticky m = s.sticky m :=
  bitOf_congr (rd_noteRaise_other s n (by simp only [Fld.key]; omega)) _

theorem bitOf_noteRaise_live_other (s : State) {n m : Nat} (hne : n ≠ m) :
    (s.noteRaise n).bitOf (Reg.FLT_LIVE_LIVE (m / 32)) (m % 32) = s.bitOf (Reg.FLT_LIVE_LIVE (m / 32)) (m % 32) := by
  by_cases hword : n / 32 = m / 32
  · have hput : (s.noteRaise n).bitOf (Reg.FLT_LIVE_LIVE (m / 32)) (m % 32) =
        (s.putBit (Reg.FLT_LIVE_LIVE (n / 32)) (n % 32) true).bitOf (Reg.FLT_LIVE_LIVE (m / 32)) (m % 32) := rfl
    rw [hput, hword]
    exact bitOf_putBit_other s (by omega) (show m % 32 < 32 from Nat.mod_lt m (by decide))
  · exact bitOf_congr (rd_noteRaise_other s n (by simp only [Fld.key]; omega)) _

section

variable (s : State) {n m : Nat} (hn : n < 192) (hm : m < 192)

include hn in
theorem sticky_raise_self (locus : Option Nat) : (s.raise n locus).sticky n = true := by
  rw [raise_eq_raiseAt]
  exact sticky_raiseAt_self _ hn locus

include hm in
theorem sticky_raise_others (hne : n ≠ m) (locus : Option Nat) : (s.raise n locus).sticky m = s.sticky m := by
  rw [raise_eq_raiseAt, sticky_raiseAt_other _ hm hne, sticky_noteRaise s n hm]

include hn hm in
/-- The live bit that a source's own word holds. -/
theorem bitOf_raise_live_other (hne : n ≠ m) (locus : Option Nat) :
    (s.raise n locus).bitOf (Reg.FLT_LIVE_LIVE (m / 32)) (m % 32) = s.bitOf (Reg.FLT_LIVE_LIVE (m / 32)) (m % 32) := by
  rw [raise_eq_raiseAt, bitOf_congr (rd_raiseAt_live _ hn locus (by omega)), bitOf_noteRaise_live_other s hne]

include hn in
/-- A raise counts, up to the limit of the count. -/
theorem rd_raise_count (locus : Option Nat) :
    (s.raise n locus).rd (Reg.FLT_REACT_COUNT n) = min 65535 (s.rd (Reg.FLT_REACT_COUNT n) + 1) := by
  have hsticky (t : State) : (t.putBit (Reg.FLT_STICKY_STICKY (n / 32)) (n % 32) true).rd (Reg.FLT_REACT_COUNT n) = t.rd (Reg.FLT_REACT_COUNT n) :=
    rd_putBit_other _ _ _ (by simp only [Fld.key]; omega)
  have hcount (t : State) : (t.recordRaise n locus).rd (Reg.FLT_REACT_COUNT n) = min 65535 (t.rd (Reg.FLT_REACT_COUNT n) + 1) := by
    rw [← hsticky t]
    exact rd_put_fits _ (f := Reg.FLT_REACT_COUNT n) (Nat.lt_of_le_of_lt (Nat.min_le_left ..) (Nat.sub_one_lt (Nat.two_pow_pos 16).ne'))
  rw [raise_eq_raiseAt, rd_raiseAt _ n locus (by simp only [Fld.key]; omega) (by simp only [Fld.key]; omega), hcount,
    rd_noteRaise_other s n (by simp only [Fld.key]; omega)]

end

/-! ## A raise up to its reaction (R249-R251, R257) -/

/-- The state of a real raise before the reaction of its source: recorded and signalled, with the escalation timer judged. -/
def announced (s : State) (n : Nat) (locus : Option Nat) : State := (((s.noteRaise n).recordRaise n locus).signalFault n).escalate n

theorem raise_light (s : State) {n : Nat} (hl : Src.light n = true) (locus : Option Nat) :
    s.raise n locus = (s.announced n locus).lightReaction n locus := by
  rw [raise_eq_raiseAt, State.raiseAt, if_pos hl]
  rfl

theorem raise_control (s : State) {n : Nat} (hc : Src.light n = false) (locus : Option Nat) :
    s.raise n locus = (s.announced n locus).controlReaction n := by
  rw [raise_eq_raiseAt, State.raiseAt, if_neg (by simp [hc])]
  rfl

theorem posts_signalFault (s : State) (n : Nat) : s.Posts (s.signalFault n) :=
  .ite (.ite ((Posts.put (.refl s) ..).trans (posts_sendMsg ..)) (.put (.refl s) ..)) (.refl s)

/-- The record of a real raise leaves the cores and the chambers, and notes in the collector its time and its place in the history. -/
theorem recorded_parts (s : State) (n : Nat) (locus : Option Nat) : ((s.noteRaise n).recordRaise n locus).mgmt = s.mgmt ∧
    ((s.noteRaise n).recordRaise n locus).ch = s.ch ∧ ((s.noteRaise n).recordRaise n locus).flt =
      { s.flt with lastRaise := Sparse.set s.flt.lastRaise 0 n s.now, raised := (n, locus) :: s.flt.raised } := by
  simp only [State.recordRaise, noteRaise, State.inc, State.putBit, State.setLive, State.put, and_self]

theorem mgmt_announced (s : State) (n : Nat) (locus : Option Nat) : (s.announced n locus).mgmt = s.mgmt := by
  have hescalate (t : State) : (t.escalate n).mgmt = t.mgmt := by
    unfold State.escalate
    split <;> rfl
  obtain ⟨regs, bas, rif, h⟩ := posts_signalFault ((s.noteRaise n).recordRaise n locus) n
  obtain ⟨hrecorded, -⟩ := s.recorded_parts n locus
  rw [announced, hescalate, h]
  exact hrecorded

theorem ch_announced (s : State) (n : Nat) (locus : Option Nat) : (s.announced n locus).ch = s.ch := by
  obtain ⟨-, hrecorded, -⟩ := s.recorded_parts n locus
  rw [announced, ch_escalate, ch_signalFault, hrecorded]

/-- Of the collector, a raise has changed before its reaction the time of the source's raise, the history, and the escalation timer. -/
theorem flt_announced (s : State) (n : Nat) (locus : Option Nat) : ∃ e : Option Nat, (s.announced n locus).flt =
    { s.flt with lastRaise := Sparse.set s.flt.lastRaise 0 n s.now, raised := (n, locus) :: s.flt.raised, escalateAt := e } := by
  have hescalate (t : State) : ∃ e, (t.escalate n).flt = { t.flt with escalateAt := e } := by
    unfold State.escalate
    split
    · exact ⟨_, rfl⟩
    · exact ⟨_, rfl⟩
  obtain ⟨e, he⟩ := hescalate (((s.noteRaise n).recordRaise n locus).signalFault n)
  refine ⟨e, ?_⟩
  obtain ⟨-, -, hrecorded⟩ := s.recorded_parts n locus
  rw [announced, he, flt_signalFault, hrecorded]

/-- The register fields that a raise changes before its reaction. -/
def announceFields (n : Nat) : List Fld :=
  [Reg.FLT_LIVE_LIVE (n / 32), Reg.FLT_STICKY_STICKY (n / 32), Reg.FLT_REACT_COUNT n, Reg.RIF_INT_STATUS_FAULT, Reg.RIF_MSG_COUNT_COUNT,
    Reg.FLT_NMI_TIMING, Reg.FLT_NMI_SOURCE]

theorem sameRegs_announced (s : State) (n : Nat) (locus : Option Nat) : s.SameRegs (s.announced n locus) (announceFields n) := by
  have hrecord : s.SameRegs ((s.noteRaise n).recordRaise n locus) (announceFields n) :=
    .put (.put (.put (.refl s _) (by simp [announceFields]) _) (by simp [announceFields]) _) (by simp [announceFields]) _
  have hmsg (t : State) (code arg : Nat) (payload : List Byte) : t.SameRegs (t.sendMsg code arg payload) (announceFields n) :=
    .ite (.put (.of_regs rfl) (by simp [announceFields]) _) (.refl _ _)
  have hflag (t : State) : t.SameRegs (t.flag Reg.RIF_INT_STATUS_FAULT) (announceFields n) := .put (.refl _ _) (by simp [announceFields]) _
  have hsignal (t : State) : t.SameRegs (t.signalFault n) (announceFields n) := .ite (.ite ((hflag t).trans (hmsg _ _ _ _)) (hflag t)) (.refl _ _)
  have hescalate (t : State) : t.SameRegs (t.escalate n) (announceFields n) :=
    .ite (.put (.put (.of_regs rfl) (by simp [announceFields]) _) (by simp [announceFields]) _) (.refl _ _)
  exact (hrecord.trans (hsignal _)).trans (hescalate _)

/-- The fields of the reaction of FLT_REACT, below its count. -/
theorem rd_announced_react (s : State) {n : Nat} (hn : n < 192) (locus : Option Nat) {g : Fld} (hoff : g.off = 0xD400 + 4 * n) (hlo : g.lo < 16) :
    (s.announced n locus).rd g = s.rd g := by
  refine s.sameRegs_announced n locus g ?_
  simp only [announceFields, List.forall_mem_cons, Fld.key, hoff]
  refine ⟨by omega, by omega, by omega, by omega, by omega, by omega, by omega, by simp⟩

theorem on_announced_react (s : State) {n : Nat} (hn : n < 192) (locus : Option Nat) {g : Fld} (hoff : g.off = 0xD400 + 4 * n) (hlo : g.lo < 16) :
    (s.announced n locus).on g = s.on g :=
  on_congr (s.rd_announced_react hn locus hoff hlo)

theorem rd_announced_fence (s : State) {n : Nat} (hn : n < 192) (locus : Option Nat) :
    (s.announced n locus).rd Reg.FLT_FENCE_REACH = s.rd Reg.FLT_FENCE_REACH := by
  refine s.sameRegs_announced n locus _ ?_
  simp only [announceFields, List.forall_mem_cons, Fld.key]
  refine ⟨by omega, by omega, by omega, by omega, by omega, by omega, by omega, by simp⟩

theorem rd_announced_linkState (s : State) {n : Nat} (hn : n < 192) (locus : Option Nat) (l : LinkId) :
    (s.announced n locus).rd (Reg.LNK_STATUS_STATE l.num) = s.rd (Reg.LNK_STATUS_STATE l.num) := by
  have hnum : l.num < 2 := by cases l <;> decide
  refine s.sameRegs_announced n locus _ ?_
  simp only [announceFields, List.forall_mem_cons, Fld.key]
  refine ⟨by omega, by omega, by omega, by omega, by omega, by omega, by omega, by simp⟩

end State

end Sys2Proof.Machine
end

section

/-! # The reaction of a control-class source (O29) -/

namespace Sys2Proof.Machine

namespace State

/-! ## Block resets (R252) -/

/-- What the clearing of a block may have changed: registers, the basin's rings, messages, sessions, links and NAND. -/
def Clears (s t : State) : Prop :=
  ∃ (regs : RegFile) (bas : Basin) (rif : Rif) (sec : Trust) (link : Vector Link 2) (nand : Nand),
    t = { s with regs := regs, bas := bas, rif := rif, sec := sec, link := link, nand := nand }

theorem Clears.refl (s : State) : s.Clears s := ⟨_, _, _, _, _, _, rfl⟩

theorem Clears.trans {s t u : State} (h : s.Clears t) (k : t.Clears u) : s.Clears u := by
  obtain ⟨regs, bas, rif, sec, link, nand, rfl⟩ := h
  obtain ⟨regs', bas', rif', sec', link', nand', rfl⟩ := k
  exact ⟨_, _, _, _, _, _, rfl⟩

theorem Clears.ite {s t u : State} {c : Prop} [Decidable c] (ht : s.Clears t) (hu : s.Clears u) : s.Clears (if c then t else u) := by
  split
  · exact ht
  · exact hu

theorem clears_complete (s : State) (p : Pair) (status detail length : Nat) (result : List Byte) :
    s.Clears (s.complete p status detail length result) := by
  obtain ⟨regs, bas, rif, h⟩ := s.posts_complete p status detail length result
  exact ⟨_, _, _, _, _, _, h⟩

theorem clears_resetCommands (s : State) (served : Nat → Bool) : s.Clears (s.resetCommands served) := by
  have hstep (s : State) (q : Pair) : s.Clears (if s.pairBusy q && served (s.rd (Reg.WHF_STATUS_OPCODE q.num)) then s.status q 4 else s) :=
    .ite (clears_complete ..) (.refl s)
  exact (hstep s .openPair).trans (hstep _ .session)

theorem clears_blockClear (s : State) (b : Block) : s.Clears (s.blockClear b) := by
  have hhost (t : State) : t.Clears t.endHost := .ite (.refl t) ⟨_, _, _, _, _, _, rfl⟩
  have hpeer (t : State) : t.Clears t.endPeer := .ite (.refl t) ⟨_, _, _, _, _, _, rfl⟩
  have hkeys (t : State) : t.Clears { t with sec := { t.sec with hostHs := none, peerHs := none, peerKeys := none } } := ⟨_, _, _, _, _, _, rfl⟩
  have hlost : s.Clears ({ s with nand := s.nand.powerLoss }.put Reg.NFC_STATUS_CKPT_BUSY 0) := ⟨_, _, _, _, _, _, rfl⟩
  cases b with
  | hostLink => exact ⟨_, _, _, _, _, _, rfl⟩
  | peerLink => exact ⟨_, _, _, _, _, _, rfl⟩
  | security => exact (((hhost s).trans (hpeer _)).trans (hkeys _)).trans (clears_resetCommands ..)
  | nand => exact hlost.trans (clears_resetCommands ..)
  | safety => exact clears_resetCommands ..
  | pairing => exact clears_resetCommands ..
  | crc => exact clears_resetCommands ..

/-- The blocks in reset once one more enters it. -/
def withReset (l : List Block) (b : Block) : List Block := if l.contains b then l else l ++ [b]

theorem mem_withReset (l : List Block) (b : Block) : b ∈ withReset l b := by
  unfold withReset
  split
  · next h => exact List.contains_iff_mem.1 h
  · exact List.mem_append_right _ (List.mem_singleton.2 rfl)

theorem mem_withReset_of_mem {l : List Block} {c : Block} (h : c ∈ l) (b : Block) : c ∈ withReset l b := by
  unfold withReset
  split
  · exact h
  · exact List.mem_append_left _ h

theorem blockReset_parts (s : State) (b : Block) : (s.blockReset b).mgmt = s.mgmt ∧
    (s.blockReset b).flt = { s.flt with inReset := withReset s.flt.inReset b } := by
  unfold State.blockReset withReset
  split
  · exact ⟨rfl, rfl⟩
  · obtain ⟨regs, bas, rif, sec, link, nand, h⟩ := clears_blockClear { s with flt := { s.flt with inReset := s.flt.inReset ++ [b] } } b
    rw [h]
    exact ⟨rfl, rfl⟩

/-- The blocks in reset after the reaction of a source. -/
def resetsAfter (s : State) (n : Nat) : List Block :=
  if s.on (Reg.FLT_REACT_BR n) then
    (match blockOf n with
     | some b => withReset s.flt.inReset b
     | none => s.flt.inReset)
  else s.flt.inReset

theorem resetsAfter_some {s : State} {n : Nat} {b : Block} (h : s.on (Reg.FLT_REACT_BR n) = true) (hb : blockOf n = some b) :
    s.resetsAfter n = withReset s.flt.inReset b := by
  rw [resetsAfter, if_pos h, hb]

theorem resetsAfter_none {s : State} {n : Nat} (h : s.on (Reg.FLT_REACT_BR n) = false ∨ blockOf n = none) : s.resetsAfter n = s.flt.inReset := by
  unfold resetsAfter
  rcases h with h | h
  · rw [h]
    rfl
  · rw [h]
    exact ite_self _

theorem mem_resetsAfter {s : State} {c : Block} (h : c ∈ s.flt.inReset) (n : Nat) : c ∈ s.resetsAfter n := by
  unfold resetsAfter
  split
  · split
    · exact mem_withReset_of_mem h _
    · exact h
  · exact h

theorem resetOf_parts (s : State) (n : Nat) : (s.resetOf n).mgmt = s.mgmt ∧ (s.resetOf n).flt = { s.flt with inReset := s.resetsAfter n } := by
  unfold resetOf resetsAfter
  split
  · cases blockOf n with
    | none => exact ⟨rfl, rfl⟩
    | some b => exact blockReset_parts s b
  · exact ⟨rfl, rfl⟩

/-- The register fields that the reset of a block may change. -/
def blockFields : Block → List Fld
  | .hostLink => [Reg.LNK_STATUS_STATE 0, Reg.LNK_EVENT_STATE 0]
  | .peerLink => [Reg.LNK_STATUS_STATE 1, Reg.LNK_EVENT_STATE 1]
  | .security => [Reg.SEC_STATUS_HOST_SESSION, Reg.LNK_STATUS_SESSION 0, Reg.LNK_EVENT_SESSION_END 0, Reg.SEC_STATUS_PEER_SESSION,
      Reg.LNK_STATUS_SESSION 1, Reg.LNK_EVENT_SESSION_END 1] ++ completionFields .openPair ++ completionFields .session
  | .nand => Reg.NFC_STATUS_CKPT_BUSY :: (completionFields .openPair ++ completionFields .session)
  | .safety | .pairing | .crc => completionFields .openPair ++ completionFields .session

theorem sameRegs_mono {s t : State} {fs gs : List Fld} (h : s.SameRegs t fs) (hsub : ∀ f ∈ fs, f ∈ gs) : s.SameRegs t gs :=
  fun g hg => h g (fun f hf => hg f (hsub f hf))

theorem sameRegs_resetCommands (s : State) (served : Nat → Bool) :
    s.SameRegs (s.resetCommands served) (completionFields .openPair ++ completionFields .session) := by
  have hstep (s : State) (q : Pair) (hq : ∀ f ∈ completionFields q, f ∈ completionFields .openPair ++ completionFields .session) :
      s.SameRegs (if s.pairBusy q && served (s.rd (Reg.WHF_STATUS_OPCODE q.num)) then s.status q 4 else s)
        (completionFields .openPair ++ completionFields .session) :=
    .ite (sameRegs_mono (s.sameRegs_complete q 4 0 0 []) hq) (.refl _ _)
  exact (hstep s .openPair (fun f hf => List.mem_append_left _ hf)).trans (hstep _ .session (fun f hf => List.mem_append_right _ hf))

theorem sameRegs_blockClear (s : State) (b : Block) : s.SameRegs (s.blockClear b) (blockFields b) := by
  cases b with
  | hostLink => exact .put (.put (.refl _ _) (by simp [blockFields]) _) (by simp [blockFields]) _
  | peerLink => exact .put (.put (.refl _ _) (by simp [blockFields]) _) (by simp [blockFields]) _
  | security =>
    have hhost (t : State) : t.SameRegs t.endHost (blockFields .security) :=
      .ite (.refl _ _) (.put (.put (.put (.of_regs rfl) (by simp [blockFields]) _) (by simp [blockFields]) _) (by simp [blockFields]) _)
    have hpeer (t : State) : t.SameRegs t.endPeer (blockFields .security) :=
      .ite (.refl _ _) (.put (.put (.put (.of_regs rfl) (by simp [blockFields]) _) (by simp [blockFields]) _) (by simp [blockFields]) _)
    have hkeys (t : State) : t.SameRegs { t with sec := { t.sec with hostHs := none, peerHs := none, peerKeys := none } } (blockFields .security) :=
      .of_regs rfl
    refine (((hhost s).trans (hpeer _)).trans (hkeys _)).trans (sameRegs_mono (sameRegs_resetCommands _ _) (fun f hf => ?_))
    rw [blockFields, List.append_assoc]
    exact List.mem_append_right _ hf
  | nand =>
    have hlost : s.SameRegs ({ s with nand := s.nand.powerLoss }.put Reg.NFC_STATUS_CKPT_BUSY 0) (blockFields .nand) :=
      .put (.of_regs rfl) (by simp [blockFields]) _
    exact hlost.trans (sameRegs_mono (sameRegs_resetCommands _ _) (fun f hf => List.mem_cons_of_mem _ hf))
  | safety => exact sameRegs_resetCommands s _
  | pairing => exact sameRegs_resetCommands s _
  | crc => exact sameRegs_resetCommands s _

theorem sameRegs_blockReset (s : State) (b : Block) : s.SameRegs (s.blockReset b) (blockFields b) := by
  have hreset : s.SameRegs { s with flt := { s.flt with inReset := s.flt.inReset ++ [b] } } (blockFields b) := .of_regs rfl
  exact .ite (.refl _ _) (hreset.trans (sameRegs_blockClear _ b))

/-- The block of a link. -/
def linkBlock : LinkId → Block
  | .host => .hostLink
  | .peer => .peerLink

/-- The reset of another block leaves a link's state. -/
theorem rd_blockReset_linkState (s : State) {b : Block} {l : LinkId} (h : b ≠ linkBlock l) :
    (s.blockReset b).rd (Reg.LNK_STATUS_STATE l.num) = s.rd (Reg.LNK_STATUS_STATE l.num) := by
  have hfields : ∀ f ∈ blockFields b, f.key ≠ (Reg.LNK_STATUS_STATE l.num).key := by
    revert h
    cases l <;> cases b <;> decide
  exact s.sameRegs_blockReset b _ hfields

theorem rd_resetOf_linkState (s : State) {n : Nat} {l : LinkId} (h : s.on (Reg.FLT_REACT_BR n) = false ∨ blockOf n ≠ some (linkBlock l)) :
    (s.resetOf n).rd (Reg.LNK_STATUS_STATE l.num) = s.rd (Reg.LNK_STATUS_STATE l.num) := by
  unfold resetOf
  split
  · next hbr =>
    split
    · next b hb => exact rd_blockReset_linkState s (fun he => h.elim (fun hoff => by simp [hbr] at hoff) (fun hne => hne (he ▸ hb)))
    · rfl
  · rfl

theorem rd_resetOf_fence (s : State) (n : Nat) : (s.resetOf n).rd Reg.FLT_FENCE_REACH = s.rd Reg.FLT_FENCE_REACH := by
  have hfields (b : Block) : ∀ f ∈ blockFields b, f.key ≠ Reg.FLT_FENCE_REACH.key := by cases b <;> decide
  unfold resetOf
  split
  · split
    · exact s.sameRegs_blockReset _ _ (hfields _)
    · rfl
  · rfl

/-- A block reset leaves the fields of FLT_REACT. -/
theorem on_resetOf_react (s : State) (n : Nat) {m : Nat} (hm : m < 192) {g : Fld} (hoff : g.off = 0xD400 + 4 * m) (hlo : g.lo < 32) :
    (s.resetOf n).on g = s.on g := by
  have hbeyond : beyondReset g.key = true := beyondReset_collector (by simp only [Fld.key, hoff]; omega) (by simp only [Fld.key, hoff]; omega)
  unfold resetOf
  split
  · split
    · exact on_congr ((outlasts_blockReset s _).rd hbeyond)
    · rfl
  · rfl

/-! ## The selected actions, one by one (R252-R254, R257) -/

/-- The interrupt of a reaction, over which the reset of the source's block stands. -/
def interruptOf (s : State) (n : Nat) : State :=
  if s.on (Reg.FLT_REACT_INT n) && !(s.on (Reg.FLT_REACT_BR n) && (blockOf n).isSome) then s.issueInt else s

def nmiOf (s : State) (n : Nat) : State := if s.on (Reg.FLT_REACT_NMI n) then s.issueNmi else s

def healthOf (s : State) (n : Nat) : State := if s.on (Reg.FLT_REACT_HD n) then s.dropHealth n else s

def chipOf (s : State) (n : Nat) : State := if s.on (Reg.FLT_REACT_CR n) then s.requestReset n else s

theorem controlReaction_eq (s : State) (n : Nat) :
    s.controlReaction n = ((((s.interruptOf n).nmiOf n).resetOf n).healthOf n).chipOf n := rfl

/-- The cores after an interrupt and an NMI, where they are issued. -/
def signalCores (m : Mgmt) (int nmi : Bool) : Mgmt := { m with intPending := m.intPending || int, nmiPending := m.nmiPending || nmi }

def withSignals (s : State) (int nmi : Bool) : State := { s with mgmt := signalCores s.mgmt int nmi }

/-- The interrupt of a control-class source is selected, and no block reset stands over it. -/
def interrupts (s : State) (n : Nat) : Bool := s.on (Reg.FLT_REACT_INT n) && !(s.on (Reg.FLT_REACT_BR n) && (blockOf n).isSome)

theorem ite_issueInt (s : State) (b : Bool) : (if b then s.issueInt else s) = s.withSignals b false := by
  cases b <;> simp [withSignals, signalCores, State.issueInt]

theorem ite_issueNmi (s : State) (b : Bool) : (if b then s.issueNmi else s) = s.withSignals false b := by
  cases b <;> simp [withSignals, signalCores, State.issueNmi]

theorem interruptOf_nmiOf (s : State) (n : Nat) :
    (s.interruptOf n).nmiOf n = s.withSignals (s.interrupts n) (s.on (Reg.FLT_REACT_NMI n)) := by
  have hint : s.interruptOf n = s.withSignals (s.interrupts n) false := ite_issueInt ..
  have hnmi (t : State) : t.nmiOf n = t.withSignals false (t.on (Reg.FLT_REACT_NMI n)) := ite_issueNmi ..
  have hon : (s.withSignals (s.interrupts n) false).on (Reg.FLT_REACT_NMI n) = s.on (Reg.FLT_REACT_NMI n) := rfl
  rw [hint, hnmi, hon]
  simp [withSignals, signalCores]

/-- The sources that hold HEALTH low, and the request of a chip reset, after the reaction of a source. -/
def healthAfter (s : State) (n : Nat) : List Nat := if s.on (Reg.FLT_REACT_HD n) then insertSet n s.flt.healthLow else s.flt.healthLow

def chipAfter (s : State) (n : Nat) : Option Nat :=
  if s.on (Reg.FLT_REACT_CR n) then some (match s.flt.crReq with | none => n | some m => min m n) else s.flt.crReq

theorem healthOf_chipOf (s : State) (n : Nat) :
    (s.healthOf n).chipOf n = { s with flt := { s.flt with healthLow := s.healthAfter n, crReq := s.chipAfter n } } := by
  have hhealth : s.healthOf n = { s with flt := { s.flt with healthLow := s.healthAfter n } } := by
    unfold healthOf healthAfter
    split <;> rfl
  have hchip (t : State) : t.chipOf n = { t with flt := { t.flt with crReq := t.chipAfter n } } := by
    unfold chipOf chipAfter
    split <;> rfl
  rw [hchip, hhealth]
  rfl

/-- The cores and the collector after a control-class reaction. -/
theorem controlReaction_parts (s : State) {n : Nat} (hn : n < 192) :
    (s.controlReaction n).mgmt = signalCores s.mgmt (s.interrupts n) (s.on (Reg.FLT_REACT_NMI n)) ∧
    (s.controlReaction n).flt =
      { s.flt with inReset := s.resetsAfter n, healthLow := s.healthAfter n, crReq := s.chipAfter n } := by
  rw [controlReaction_eq, interruptOf_nmiOf, healthOf_chipOf]
  obtain ⟨hmgmt, hreset⟩ := resetOf_parts (s.withSignals (s.interrupts n) (s.on (Reg.FLT_REACT_NMI n))) n
  have hon {g : Fld} (hoff : g.off = 0xD400 + 4 * n) (hlo : g.lo < 32) :=
    on_resetOf_react (s.withSignals (s.interrupts n) (s.on (Reg.FLT_REACT_NMI n))) n hn hoff hlo
  refine ⟨hmgmt, ?_⟩
  simp only [healthAfter, chipAfter, hreset, hon (g := Reg.FLT_REACT_HD n) rfl (by norm_num), hon (g := Reg.FLT_REACT_CR n) rfl (by norm_num)]
  rfl

/-- A control-class reaction leaves the state of a link whose block it does not reset. -/
theorem rd_controlReaction_linkState (s : State) {n : Nat} {l : LinkId} (h : s.on (Reg.FLT_REACT_BR n) = false ∨ blockOf n ≠ some (linkBlock l)) :
    (s.controlReaction n).rd (Reg.LNK_STATUS_STATE l.num) = s.rd (Reg.LNK_STATUS_STATE l.num) := by
  rw [controlReaction_eq, interruptOf_nmiOf, healthOf_chipOf]
  exact rd_resetOf_linkState (s.withSignals ..) h

theorem rd_controlReaction_fence (s : State) (n : Nat) : (s.controlReaction n).rd Reg.FLT_FENCE_REACH = s.rd Reg.FLT_FENCE_REACH := by
  rw [controlReaction_eq, interruptOf_nmiOf, healthOf_chipOf]
  exact rd_resetOf_fence (s.withSignals ..) n

/-- HEALTH is low while a source holds it so (R254). -/
theorem healthHigh_held {s : State} {n : Nat} (h : n ∈ s.flt.healthLow) : s.healthHigh = false := by
  have hheld : s.flt.healthLow.isEmpty = false := List.isEmpty_eq_false_iff_exists_mem.2 ⟨n, h⟩
  rw [State.healthHigh, hheld, Bool.and_false, Bool.false_and]

end State

end Sys2Proof.Machine
end

section

/-! # The reaction of a light-class source, and raises (O29) -/

namespace Sys2Proof.Machine

theorem blockOf_light {n : Nat} (h : Src.light n = true) : blockOf n = none := by
  have hrange : (48 ≤ n ∧ n ≤ 53) ∨ (96 ≤ n ∧ n ≤ 159) := by simpa [Src.light] using h
  unfold blockOf
  rw [if_neg (by omega), if_neg (by omega), if_neg (by omega), if_neg (by omega), if_neg (by omega), if_neg (by omega), if_neg (by omega)]

namespace State

/-! ## The light-class reaction (R255) -/

/-- The interrupt of a light-class reaction, and the request of Degraded that a lasting raise may make. -/
def lightSignals (s : State) (n : Nat) (lasting : Bool) : State :=
  { s.withSignals (s.on (Reg.FLT_REACT_INT n)) false with
    flt := { s.flt with degrade := s.flt.degrade || (lasting && s.on (Reg.FLT_REACT_DEGRADE n)) } }

theorem rd_lightSignals (s : State) (n : Nat) (lasting : Bool) (g : Fld) : (s.lightSignals n lasting).rd g = s.rd g := rfl

theorem ch_lightSignals (s : State) (n : Nat) (lasting : Bool) : (s.lightSignals n lasting).ch = s.ch := rfl

/-- The fence of a locus by the level of FLT_REACT. -/
def fenceOf (s : State) (n : Nat) (locus : Option Nat) : State :=
  match s.rd (Reg.FLT_REACT_LEVEL n), locus with
  | 0, _ => s
  | _, none => s
  | 1, some k => s.putBit Reg.FLT_FENCE_REACH k true
  | _, some k => if Src.chamberLocus n then s.fenceChamber k else s.putBit Reg.FLT_FENCE_REACH k true

theorem lightReaction_passing {s : State} {n : Nat} {locus : Option Nat} (h : s.lastingRaise n locus = false) :
    s.lightReaction n locus = s.lightSignals n false := by
  have hpassing : s.lightReaction n locus = if s.on (Reg.FLT_REACT_INT n) then s.issueInt else s := if_neg (by simp [h])
  rw [hpassing, ite_issueInt]
  simp [lightSignals, withSignals]

theorem ite_degrade (s : State) (b : Bool) :
    (if b then { s with flt := { s.flt with degrade := true } } else s) = { s with flt := { s.flt with degrade := s.flt.degrade || b } } := by
  cases b <;> simp

theorem lightReaction_lasting {s : State} {n : Nat} {locus : Option Nat} (h : s.lastingRaise n locus = true) :
    s.lightReaction n locus = (s.lightSignals n true).fenceOf n locus := by
  have hlasting : s.lightReaction n locus =
      State.fenceOf (if (s.withSignals (s.on (Reg.FLT_REACT_INT n)) false).on (Reg.FLT_REACT_DEGRADE n) then
        { s.withSignals (s.on (Reg.FLT_REACT_INT n)) false with
          flt := { (s.withSignals (s.on (Reg.FLT_REACT_INT n)) false).flt with degrade := true } }
        else s.withSignals (s.on (Reg.FLT_REACT_INT n)) false) n locus := by
    rw [← ite_issueInt]
    exact if_pos h
  rw [hlasting, ite_degrade]
  rfl

/-- A fence changes the fences and, where it is a chamber's, its chamber. -/
theorem fenceOf_parts (s : State) (n : Nat) (locus : Option Nat) : (s.fenceOf n locus).mgmt = s.mgmt ∧ (s.fenceOf n locus).flt = s.flt := by
  have hchamber (k : Nat) : (s.fenceChamber k).mgmt = s.mgmt ∧ (s.fenceChamber k).flt = s.flt := by
    unfold State.fenceChamber
    extract_lets t
    split
    · exact ⟨rfl, rfl⟩
    · exact ⟨rfl, rfl⟩
  unfold fenceOf
  split
  · exact ⟨rfl, rfl⟩
  · exact ⟨rfl, rfl⟩
  · exact ⟨rfl, rfl⟩
  · split
    · exact hchamber _
    · exact ⟨rfl, rfl⟩

theorem fenceOf_reach {s : State} {n k : Nat} (h : s.rd (Reg.FLT_REACT_LEVEL n) = 1) :
    s.fenceOf n (some k) = s.putBit Reg.FLT_FENCE_REACH k true := by
  unfold fenceOf
  rw [h]
  rfl

theorem fenceOf_chamber {s : State} {n k : Nat} (h : s.rd (Reg.FLT_REACT_LEVEL n) = 2) (hc : Src.chamberLocus n = true) :
    s.fenceOf n (some k) = s.fenceChamber k := by
  unfold fenceOf
  rw [h]
  exact if_pos hc

/-- A fenced chamber stops, its barges are cancelled, its store stays, and its bits of FLT_FENCE are set. -/
theorem fenceChamber_fences (s : State) (k : Fin 16) : (s.fenceChamber k).bitOf Reg.FLT_FENCE_REACH k = true ∧
    (s.fenceChamber k).bitOf Reg.FLT_FENCE_CHAMBER k = true ∧ ((s.fenceChamber k).chAt k).halted = true ∧
    ((s.fenceChamber k).chAt k).running = false ∧ ((s.fenceChamber k).chAt k).barges = [] ∧ ((s.fenceChamber k).chAt k).store = (s.chAt k).store := by
  have hfence : s.fenceChamber k = State.setCh ((s.putBit Reg.FLT_FENCE_CHAMBER k true).putBit Reg.FLT_FENCE_REACH k true) k
      { s.chAt k with running := false, halted := true, barges := [], tags := [] } := dif_pos k.isLt
  have hreach := bitOf_putBit_self (s.putBit Reg.FLT_FENCE_CHAMBER k true) (f := Reg.FLT_FENCE_REACH) k.isLt
  have hchamber := (bitOf_congr (rd_putBit_other (s.putBit Reg.FLT_FENCE_CHAMBER k true) (f := Reg.FLT_FENCE_REACH) k true (by decide)) k).trans
    (bitOf_putBit_self s (f := Reg.FLT_FENCE_CHAMBER) k.isLt)
  rw [hfence, chAt_setCh]
  exact ⟨hreach, hchamber, rfl, rfl, rfl, rfl⟩

theorem lightReaction_parts (s : State) (n : Nat) (locus : Option Nat) :
    (s.lightReaction n locus).mgmt = signalCores s.mgmt (s.on (Reg.FLT_REACT_INT n)) false ∧
    (s.lightReaction n locus).flt =
      { s.flt with degrade := s.flt.degrade || (s.lastingRaise n locus && s.on (Reg.FLT_REACT_DEGRADE n)) } := by
  cases h : s.lastingRaise n locus with
  | false =>
    rw [lightReaction_passing h]
    exact ⟨rfl, rfl⟩
  | true =>
    rw [lightReaction_lasting h]
    exact fenceOf_parts ..

/-! ## Raises -/

theorem lastingRaise_announced (s : State) (n : Nat) (locus : Option Nat) : (s.announced n locus).lastingRaise n locus = s.lastingRaise n locus := by
  obtain ⟨e, hflt⟩ := s.flt_announced n locus
  rw [State.lastingRaise, State.raisedBefore, hflt, State.lastingRaise, State.raisedBefore]

section

variable (s : State) {n : Nat} (hn : n < 192) (locus : Option Nat)

include hn

theorem rd_raise_linkState {l : LinkId} (h : s.on (Reg.FLT_REACT_BR n) = false ∨ blockOf n ≠ some (linkBlock l)) :
    (s.raise n locus).rd (Reg.LNK_STATUS_STATE l.num) = s.rd (Reg.LNK_STATUS_STATE l.num) := by
  have hannounced := s.rd_announced_linkState hn locus l
  by_cases hl : Src.light n = true
  · have hkey : beyondReaction (Reg.LNK_STATUS_STATE l.num).key = true := by cases l <;> decide
    rw [s.raise_light hl, (lightReaction_leaves _ n locus).rd _ hkey, hannounced]
  · have hbr := s.on_announced_react hn locus (g := Reg.FLT_REACT_BR n) rfl (by norm_num)
    rw [s.raise_control (by simpa using hl), rd_controlReaction_linkState _ (by rwa [hbr]), hannounced]

theorem linkRunning_raise {l : LinkId} (h : s.on (Reg.FLT_REACT_BR n) = false ∨ blockOf n ≠ some (linkBlock l)) :
    (s.raise n locus).linkRunning l.num = s.linkRunning l.num := by
  rw [State.linkRunning, rd_raise_linkState s hn locus h, State.linkRunning]

/-- Another source's live bit follows a raise only where it is a link's and the raise resets that link. -/
theorem live_raise_other {m : Nat} (hm : m < 192) (hne : n ≠ m)
    (hhost : m ≠ 32 ∨ s.on (Reg.FLT_REACT_BR n) = false ∨ blockOf n ≠ some .hostLink)
    (hpeer : m ≠ 42 ∨ s.on (Reg.FLT_REACT_BR n) = false ∨ blockOf n ≠ some .peerLink) : (s.raise n locus).live m = s.live m := by
  have hhostLive : (m == 32 && !(s.raise n locus).linkRunning 0) = (m == 32 && !s.linkRunning 0) := by
    rcases hhost with hm32 | hkeep
    · rw [beq_false_of_ne hm32, Bool.false_and, Bool.false_and]
    · rw [show (s.raise n locus).linkRunning 0 = s.linkRunning 0 from linkRunning_raise s hn locus (l := .host) hkeep]
  have hpeerLive : (m == 42 && !(s.raise n locus).linkRunning 1) = (m == 42 && !s.linkRunning 1) := by
    rcases hpeer with hm42 | hkeep
    · rw [beq_false_of_ne hm42, Bool.false_and, Bool.false_and]
    · rw [show (s.raise n locus).linkRunning 1 = s.linkRunning 1 from linkRunning_raise s hn locus (l := .peer) hkeep]
  simp only [State.live, bitOf_raise_live_other s hn hm hne locus, hhostLive, hpeerLive]

/-- The cores and the collector after the raise of a control-class source. -/
theorem raise_control_parts (hc : Src.light n = false) :
    (s.raise n locus).mgmt = signalCores s.mgmt (s.interrupts n) (s.on (Reg.FLT_REACT_NMI n)) ∧
    ∃ e, (s.raise n locus).flt =
      { s.flt with
        lastRaise := Sparse.set s.flt.lastRaise 0 n s.now, raised := (n, locus) :: s.flt.raised, escalateAt := e
        inReset := s.resetsAfter n, healthLow := s.healthAfter n, crReq := s.chipAfter n } := by
  have hbr := s.on_announced_react hn locus (g := Reg.FLT_REACT_BR n) rfl (by norm_num)
  obtain ⟨e, hflt⟩ := s.flt_announced n locus
  obtain ⟨hmgmt, hafter⟩ := controlReaction_parts (s.announced n locus) hn
  rw [s.raise_control hc, hmgmt, hafter]
  refine ⟨?_, e, ?_⟩
  · rw [mgmt_announced, interrupts, hbr, s.on_announced_react hn locus (g := Reg.FLT_REACT_INT n) rfl (by norm_num),
      s.on_announced_react hn locus (g := Reg.FLT_REACT_NMI n) rfl (by norm_num), interrupts]
  · simp only [resetsAfter, healthAfter, chipAfter, hflt, hbr, s.on_announced_react hn locus (g := Reg.FLT_REACT_HD n) rfl (by norm_num),
      s.on_announced_react hn locus (g := Reg.FLT_REACT_CR n) rfl (by norm_num)]

/-- The cores and the collector after the raise of a light-class source. -/
theorem raise_light_parts (hl : Src.light n = true) :
    (s.raise n locus).mgmt = signalCores s.mgmt (s.on (Reg.FLT_REACT_INT n)) false ∧
    ∃ e, (s.raise n locus).flt =
      { s.flt with
        lastRaise := Sparse.set s.flt.lastRaise 0 n s.now, raised := (n, locus) :: s.flt.raised, escalateAt := e
        degrade := s.flt.degrade || (s.lastingRaise n locus && s.on (Reg.FLT_REACT_DEGRADE n)) } := by
  obtain ⟨e, hflt⟩ := s.flt_announced n locus
  obtain ⟨hmgmt, hafter⟩ := lightReaction_parts (s.announced n locus) n locus
  rw [s.raise_light hl, hmgmt, hafter]
  refine ⟨?_, e, ?_⟩
  · rw [mgmt_announced, s.on_announced_react hn locus (g := Reg.FLT_REACT_INT n) rfl (by norm_num)]
  · rw [lastingRaise_announced, s.on_announced_react hn locus (g := Reg.FLT_REACT_DEGRADE n) rfl (by norm_num), hflt]

theorem lastRaise_raise : Sparse.get (s.raise n locus).flt.lastRaise 0 n = s.now := by
  cases hl : Src.light n with
  | true =>
    obtain ⟨-, e, hflt⟩ := raise_light_parts s hn locus hl
    rw [hflt]
    exact Sparse.get_set_self ..
  | false =>
    obtain ⟨-, e, hflt⟩ := raise_control_parts s hn locus hl
    rw [hflt]
    exact Sparse.get_set_self ..

/-- A raise whose reaction resets no block interrupts where its reaction selects INT. -/
theorem intPending_raise (hint : s.on (Reg.FLT_REACT_INT n) = true)
    (h : Src.light n = true ∨ s.on (Reg.FLT_REACT_BR n) = false ∨ blockOf n = none) : (s.raise n locus).mgmt.intPending = true := by
  cases hl : Src.light n with
  | true =>
    rw [(raise_light_parts s hn locus hl).1, hint]
    exact Bool.or_true _
  | false =>
    have hselected : s.interrupts n = true := by
      rcases h with h | h | h
      · simp [hl] at h
      · simp [interrupts, hint, h]
      · simp [interrupts, hint, h]
    rw [(raise_control_parts s hn locus hl).1, hselected]
    exact Bool.or_true _

/-- The reset of the source's block stands over its interrupt (R257). -/
theorem intPending_raise_resets (hc : Src.light n = false) (hbr : s.on (Reg.FLT_REACT_BR n) = true) (hb : blockOf n ≠ none) :
    (s.raise n locus).mgmt.intPending = s.mgmt.intPending := by
  have hover : s.interrupts n = false := by simp [interrupts, hbr, Option.isSome_iff_ne_none, hb]
  rw [(raise_control_parts s hn locus hc).1, hover]
  exact Bool.or_false _

theorem rd_raise_fence_control (hc : Src.light n = false) : (s.raise n locus).rd Reg.FLT_FENCE_REACH = s.rd Reg.FLT_FENCE_REACH := by
  rw [s.raise_control hc, rd_controlReaction_fence, s.rd_announced_fence hn]

/-- A light-class raise that is not lasting fences nothing. -/
theorem raise_light_passing (hl : Src.light n = true) (hlast : s.lastingRaise n locus = false) :
    (s.raise n locus).rd Reg.FLT_FENCE_REACH = s.rd Reg.FLT_FENCE_REACH ∧ (s.raise n locus).ch = s.ch := by
  rw [s.raise_light hl, lightReaction_passing ((lastingRaise_announced s n locus).trans hlast)]
  rw [rd_lightSignals, ch_lightSignals]
  exact ⟨s.rd_announced_fence hn locus, s.ch_announced n locus⟩

end

/-- A lasting raise of a light-class source fences what its level selects. -/
theorem raise_light_fences (s : State) {n : Nat} (hn : n < 192) (hl : Src.light n = true) {k : Fin 16}
    (hlast : s.lastingRaise n (some k.val) = true) :
    (s.rd (Reg.FLT_REACT_LEVEL n) = 1 → (s.raise n (some k.val)).bitOf Reg.FLT_FENCE_REACH k = true ∧ (s.raise n (some k.val)).ch = s.ch) ∧
    (s.rd (Reg.FLT_REACT_LEVEL n) = 2 → Src.chamberLocus n = true → ∃ u : State, u.ch = s.ch ∧ s.raise n (some k.val) = u.fenceChamber k) := by
  have hlevel : ((s.announced n (some k.val)).lightSignals n true).rd (Reg.FLT_REACT_LEVEL n) = s.rd (Reg.FLT_REACT_LEVEL n) :=
    (rd_lightSignals ..).trans (s.rd_announced_react hn (some k.val) (g := Reg.FLT_REACT_LEVEL n) rfl (by norm_num))
  have hch : ((s.announced n (some k.val)).lightSignals n true).ch = s.ch :=
    (ch_lightSignals ..).trans (s.ch_announced n (some k.val))
  rw [s.raise_light hl, lightReaction_lasting ((lastingRaise_announced s n _).trans hlast)]
  refine ⟨fun h1 => ?_, fun h2 hc => ⟨_, hch, fenceOf_chamber (hlevel.trans h2) hc⟩⟩
  rw [fenceOf_reach (hlevel.trans h1)]
  exact ⟨bitOf_putBit_self _ k.isLt, hch⟩

end State

/-- Settles O29: the record of a raise by what its steps before the reaction leave, the actions by the cores and the collector after the reaction
of each class. -/
theorem raisesReact : Obligations.RaisesReact := by
  unfold Obligations.RaisesReact
  rintro s n locus t hn rfl
  refine ⟨s.sticky_raise_self hn locus, s.live_raise hn locus, s.rd_raise_count hn locus, s.lastRaise_raise hn locus,
    fun m hm hne => s.sticky_raise_others hm hne.symm locus, fun m hm hne => s.live_raise_other hn locus hm hne.symm,
    s.intPending_raise hn locus, s.intPending_raise_resets hn locus, fun hc => ?_, fun hl => ?_⟩
  · obtain ⟨hmgmt, e, hflt⟩ := s.raise_control_parts hn locus hc
    refine ⟨fun hnmi => ?_, fun hhd => ?_, fun hcr => ?_, fun hcr => ?_, fun hbr b hb => ?_, fun hnone => ?_, s.rd_raise_fence_control hn locus hc⟩
    · rw [hmgmt, hnmi]
      exact Bool.or_true _
    · have hheld : n ∈ (s.raise n locus).flt.healthLow := by
        rw [hflt]
        simp only [State.healthAfter, hhd, if_true]
        exact mem_insertSet.2 (.inl rfl)
      exact ⟨State.healthHigh_held hheld, hheld⟩
    · rw [hflt]
      simp only [State.chipAfter, hcr, if_true]
      refine ⟨_, ?_, rfl⟩
      split
      · exact Nat.le_refl n
      · exact Nat.min_le_right ..
    · rw [hflt]
      simp only [State.chipAfter, hcr, Bool.false_eq_true, if_false]
    · rw [hflt]
      simp only [State.resetsAfter_some hbr hb]
      exact State.mem_withReset ..
    · rw [hflt]
      exact State.resetsAfter_none hnone
  · obtain ⟨-, e, hflt⟩ := s.raise_light_parts hn locus hl
    refine ⟨fun hlast => ?_, fun hlast hdeg => ?_, fun k hlast hk => ?_⟩
    · obtain ⟨hfence, hch⟩ := s.raise_light_passing hn locus hl hlast
      refine ⟨hfence, ?_, hch⟩
      rw [hflt, hlast, Bool.false_and, Bool.or_false]
    · rw [hflt, hlast, hdeg]
      exact Bool.or_true _
    · subst hk
      obtain ⟨hreach, hchamber⟩ := s.raise_light_fences hn hl hlast
      refine ⟨hreach, fun h2 hc => ?_⟩
      obtain ⟨u, hu, hfenced⟩ := hchamber h2 hc
      have hstore : (u.chAt k).store = (s.chAt k).store := by rw [State.chAt, hu, State.chAt]
      rw [hfenced, ← hstore]
      exact u.fenceChamber_fences k

end Sys2Proof.Machine
end

section

/-! # Clearing and forcing faults (O30) -/

namespace Sys2Proof.Machine

/-- A cleared bit reads 0 and leaves the others. -/
theorem testBit_clearBit_other (n : Nat) {i j : Nat} (hij : i ≠ j) : (setBit n i false).testBit j = n.testBit j := by
  cases h : n.testBit i with
  | false => rw [setBit, if_pos h]
  | true =>
    have hclear : (setBit n i false).testBit i = false := testBit_setBit_clear n i
    have hset : setBit (setBit n i false) i true = n := by
      rw [setBit, if_neg (by rw [hclear]; decide), if_pos rfl, setBit, if_neg (by rw [h]; decide), if_neg (by decide),
        Nat.sub_add_cancel (Nat.ge_two_pow_of_testBit h)]
    conv_rhs => rw [← hset, testBit_setBit_other _ hij]

namespace State

theorem bitOf_clearBit_self (s : State) (f : Fld) (i : Nat) : (s.putBit f i false).bitOf f i = false := by
  rw [State.bitOf, State.putBit, rd_put_self, Nat.testBit_mod_two_pow, testBit_setBit_clear, Bool.and_false]

theorem bitOf_clearBit_other (s : State) {f : Fld} {i j : Nat} (hij : i ≠ j) (hj : j < f.w) : (s.putBit f i false).bitOf f j = s.bitOf f j := by
  rw [State.bitOf, State.putBit, rd_put_self, Nat.testBit_mod_two_pow, testBit_clearBit_other _ hij, State.bitOf]
  simp [hj]

theorem sticky_word (s : State) (w : Nat) {i : Nat} (hi : i < 32) : s.sticky (32 * w + i) = s.bitOf (Reg.FLT_STICKY_STICKY w) i := by
  rw [State.sticky, show (32 * w + i) / 32 = w by omega, show (32 * w + i) % 32 = i by omega]

theorem onlyRegs_refl (s : State) (fs : List Fld) : s.OnlyRegs s fs := ⟨rfl, .refl s fs⟩

theorem onlyRegs_trans {s t u : State} {fs : List Fld} (h : s.OnlyRegs t fs) (k : t.OnlyRegs u fs) : s.OnlyRegs u fs := by
  obtain ⟨hs, hrd⟩ := h
  obtain ⟨ht, krd⟩ := k
  exact ⟨(congrArg (fun x : State => { x with regs := s.regs }) ht).trans hs, hrd.trans krd⟩

theorem onlyRegs_put (s : State) (f : Fld) (v : Nat) : s.OnlyRegs (s.put f v) [f] := ⟨rfl, .put (.refl s _) (List.mem_singleton.2 rfl) v⟩

/-! ## FLT_CLEAR (R250) -/

/-- The mask has bit i of a word, and its source is neither live nor forced. -/
def clears (s : State) (w mask i : Nat) : Bool := mask.testBit i && !s.live (32 * w + i) && !s.forced (32 * w + i)

/-- Bit i of a sticky word clears, where it may. -/
def clearSticky (s : State) (w mask i : Nat) : State := if s.clears w mask i then s.putBit (Reg.FLT_STICKY_STICKY w) i false else s

theorem onlyRegs_clearSticky (s : State) (w mask i : Nat) : s.OnlyRegs (s.clearSticky w mask i) [Reg.FLT_STICKY_STICKY w] := by
  unfold clearSticky
  split
  · exact onlyRegs_put ..
  · exact onlyRegs_refl ..

/-- A change of a sticky word is no change of live and force bits. -/
theorem clears_of_sticky {s t : State} {w : Nat} (h : s.OnlyRegs t [Reg.FLT_STICKY_STICKY w]) (hw : w < 6) (mask j : Nat) :
    t.clears w mask j = s.clears w mask j := by
  have hkeep {g : Fld} (hg : (Reg.FLT_STICKY_STICKY w).key ≠ g.key) : t.rd g = s.rd g := h.2 g (by simpa using hg)
  have hlink (l : Nat) (hl : l < 2) : t.linkRunning l = s.linkRunning l := by
    rw [State.linkRunning, hkeep (by simp only [Fld.key]; omega), State.linkRunning]
  have hlive : t.live (32 * w + j) = s.live (32 * w + j) := by
    rw [State.live, bitOf_congr (hkeep (by simp only [Fld.key]; omega)), hlink 0 (by decide), hlink 1 (by decide), State.live]
  have hforced : t.forced (32 * w + j) = s.forced (32 * w + j) := bitOf_congr (hkeep (by simp only [Fld.key]; omega)) _
  rw [clears, hlive, hforced, clears]

theorem sticky_clearSticky (s : State) (w mask : Nat) {i j : Nat} (hj : j < 32) :
    (s.clearSticky w mask i).sticky (32 * w + j) = (s.sticky (32 * w + j) && !(decide (i = j) && s.clears w mask j)) := by
  rw [sticky_word _ w hj, sticky_word _ w hj, clearSticky]
  by_cases hij : i = j
  · subst hij
    rw [decide_eq_true rfl, Bool.true_and]
    split
    · next h => rw [bitOf_clearBit_self, h, Bool.not_true, Bool.and_false]
    · next h => rw [Bool.eq_false_of_not_eq_true h, Bool.not_false, Bool.and_true]
  · rw [decide_eq_false hij, Bool.false_and, Bool.not_false, Bool.and_true]
    split
    · exact bitOf_clearBit_other s hij hj
    · rfl

/-- The bits of a list, cleared one after another. -/
theorem foldl_clearSticky (s : State) {w : Nat} (hw : w < 6) (mask : Nat) (l : List Nat) :
    s.OnlyRegs (l.foldl (fun s i => s.clearSticky w mask i) s) [Reg.FLT_STICKY_STICKY w] ∧
    ∀ j, j < 32 → (l.foldl (fun s i => s.clearSticky w mask i) s).sticky (32 * w + j) =
      (s.sticky (32 * w + j) && !(decide (j ∈ l) && s.clears w mask j)) := by
  induction l generalizing s with
  | nil => exact ⟨onlyRegs_refl .., fun j _ => by simp⟩
  | cons i l ih =>
    have hstep := s.onlyRegs_clearSticky w mask i
    obtain ⟨hregs, hbits⟩ := ih (s.clearSticky w mask i)
    refine ⟨onlyRegs_trans hstep hregs, fun j hj => ?_⟩
    rw [List.foldl_cons, hbits j hj, sticky_clearSticky s w mask hj, clears_of_sticky hstep hw mask j]
    cases s.clears w mask j with
    | false => simp
    | true => simp [List.mem_cons, eq_comm, Bool.and_assoc]

theorem writeWord_fltClear (s : State) (who : Sys2Proof.Requester) (addr : Nat) (word : Fin 6) (v : Nat) :
    s.writeWord who addr (0xD160 + 4 * word.val) v 0xFFFFFFFF = (List.range 32).foldl (fun s i => s.clearSticky word.val v i) s := by
  fin_cases word <;> rfl

theorem exec_fltClear {s : State} {who : Sys2Proof.Requester} {word : Fin 6} (h : s.Ready) (hw : s.MayWrite who (0xD160 + 4 * word.val)) (v : W32) :
    exec (.fltClear who word v) s = .next ((List.range 32).foldl (fun s i => s.clearSticky word.val v.toNat i) s) := by
  refine (exec_wordWrite h hw (by omega) (by omega) ?_ v.isLt).trans (congrArg _ (writeWord_fltClear ..))
  fin_cases word <;> rfl

/-- FLT_CLEAR: the sticky bits of a word that the mask has, but those of live and of forced sources. -/
theorem fltClear_clears {s : State} {who : Sys2Proof.Requester} {word : Fin 6} (h : s.Ready) (hw : s.MayWrite who (0xD160 + 4 * word.val)) (v : W32) :
    ∃ t, exec (.fltClear who word v) s = .next t ∧ s.OnlyRegs t [Reg.FLT_STICKY_STICKY word] ∧
      ∀ i, i < 32 → t.sticky (32 * word.val + i) =
        (s.sticky (32 * word.val + i) && !(v.getLsbD i && !s.live (32 * word.val + i) && !s.forced (32 * word.val + i))) := by
  obtain ⟨hregs, hbits⟩ := foldl_clearSticky s word.isLt v.toNat (List.range 32)
  refine ⟨_, exec_fltClear h hw v, hregs, fun i hi => ?_⟩
  rw [hbits i hi, decide_eq_true (List.mem_range.2 hi), Bool.true_and, clears, BitVec.testBit_toNat]

/-! ## FLT_FORCE (R258) -/

/-- Bit i of the force word w rises from `old` to v: its source is raised, without its live bit. -/
def forceBit (s : State) (w old v i : Nat) : State := if v.testBit i && !old.testBit i then s.raiseAt (32 * w + i) none else s

theorem sticky_forceBit (s : State) (w old v i : Nat) {m : Nat} (hm : m < 192) :
    (s.forceBit w old v i).sticky m = (s.sticky m || (v.testBit i && !old.testBit i && decide (32 * w + i = m))) := by
  unfold forceBit
  split
  · next h =>
    rw [h, Bool.true_and]
    by_cases he : 32 * w + i = m
    · rw [decide_eq_true he, Bool.or_true, he]
      exact sticky_raiseAt_self s hm none
    · rw [decide_eq_false he, Bool.or_false]
      exact sticky_raiseAt_other s hm he none
  · next h => rw [Bool.eq_false_of_not_eq_true h, Bool.false_and, Bool.or_false]

/-- A forced raise leaves force and live words. -/
theorem rd_forceBit (s : State) {w : Nat} (hw : w < 6) (old v : Nat) {i : Nat} (hi : i < 32) {g : Fld} (hlo : 0xD120 * 32 ≤ g.key)
    (hhi : g.key < 0xD160 * 32) : (s.forceBit w old v i).rd g = s.rd g := by
  unfold forceBit
  split
  · exact rd_raiseAt_other s _ none (by omega) (by omega) (by simp only [Fld.key] at *; omega) (by simp only [Fld.key] at *; omega)
  · rfl

theorem foldl_forceBit (s : State) {w : Nat} (hw : w < 6) (old v : Nat) {l : List Nat} (hl : ∀ i ∈ l, i < 32) :
    (∀ m, m < 192 → (l.foldl (fun s i => s.forceBit w old v i) s).sticky m =
      (s.sticky m || l.any (fun i => v.testBit i && !old.testBit i && decide (32 * w + i = m)))) ∧
    ∀ g : Fld, 0xD120 * 32 ≤ g.key → g.key < 0xD160 * 32 → (l.foldl (fun s i => s.forceBit w old v i) s).rd g = s.rd g := by
  induction l generalizing s with
  | nil => exact ⟨fun m _ => by simp, fun g _ _ => rfl⟩
  | cons i l ih =>
    have hi := hl i List.mem_cons_self
    obtain ⟨hbits, hrd⟩ := ih (s.forceBit w old v i) (fun j hj => hl j (List.mem_cons_of_mem i hj))
    refine ⟨fun m hm => ?_, fun g hlo hhi => ?_⟩
    · rw [List.foldl_cons, hbits m hm, sticky_forceBit s w old v i hm, List.any_cons, Bool.or_assoc]
    · rw [List.foldl_cons, hrd g hlo hhi, rd_forceBit s hw old v hi hlo hhi]

/-- A force word takes a value. -/
theorem faultForce_forces (s : State) {w v : Nat} (hw : w < 6) (hv : v < 2 ^ 32) :
    (s.faultForce w v).rd (Reg.FLT_FORCE_FORCE w) = v ∧
    (∀ i, i < 32 → (s.faultForce w v).sticky (32 * w + i) = (s.sticky (32 * w + i) || (v.testBit i && !s.forced (32 * w + i)))) ∧
    ∀ m, m < 192 → m ≠ 32 → m ≠ 42 → (s.faultForce w v).live m = s.live m := by
  have hfold : s.faultForce w v = (List.range 32).foldl (fun t i => t.forceBit w (s.rd (Reg.FLT_FORCE_FORCE w)) v i)
      (s.put (Reg.FLT_FORCE_FORCE w) v) := rfl
  obtain ⟨hbits, hrd⟩ := foldl_forceBit (s.put (Reg.FLT_FORCE_FORCE w) v) hw (s.rd (Reg.FLT_FORCE_FORCE w)) v
    (l := List.range 32) (fun i hi => List.mem_range.1 hi)
  rw [hfold]
  refine ⟨(hrd _ (by simp only [Fld.key]; omega) (by simp only [Fld.key]; omega)).trans (rd_put_fits s hv), fun i hi => ?_, fun m hm h32 h42 => ?_⟩
  · have hput : (s.put (Reg.FLT_FORCE_FORCE w) v).sticky (32 * w + i) = s.sticky (32 * w + i) :=
      bitOf_congr (rd_put_other s v (by simp only [Fld.key]; omega)) _
    have hforced : s.forced (32 * w + i) = (s.rd (Reg.FLT_FORCE_FORCE w)).testBit i := by
      rw [State.forced, show (32 * w + i) / 32 = w by omega, show (32 * w + i) % 32 = i by omega, State.bitOf]
    have hone : (List.range 32).any (fun j => v.testBit j && !(s.rd (Reg.FLT_FORCE_FORCE w)).testBit j && decide (32 * w + j = 32 * w + i)) =
        (v.testBit i && !(s.rd (Reg.FLT_FORCE_FORCE w)).testBit i) := by
      rw [Bool.eq_iff_iff, List.any_eq_true]
      constructor
      · rintro ⟨j, -, hj⟩
        obtain ⟨hrises, heq⟩ := Bool.and_eq_true_iff.1 hj
        obtain rfl : j = i := by
          have heq := of_decide_eq_true heq
          omega
        exact hrises
      · exact fun hrises => ⟨i, List.mem_range.2 hi, by rw [hrises, Bool.true_and]; exact decide_eq_true rfl⟩
    rw [hbits _ (by omega), hput, hone, hforced]
  · refine live_congr h32 h42 ((hrd _ (by simp only [Fld.key]; omega) (by simp only [Fld.key]; omega)).trans ?_)
    exact rd_put_other s v (by simp only [Fld.key]; omega)

theorem writeWord_fltForce (s : State) (who : Sys2Proof.Requester) (addr : Nat) (word : Fin 6) (v : Nat) :
    s.writeWord who addr (0xD140 + 4 * word.val) v 0xFFFFFFFF =
      if !s.forceOpen then s.discard who true addr [5] else s.faultForce word.val v := by
  fin_cases word <;> rfl

theorem exec_fltForce {s : State} {who : Sys2Proof.Requester} {word : Fin 6} (h : s.Ready) (hw : s.MayWrite who (0xD140 + 4 * word.val)) (v : W32) :
    exec (.fltForce who word v) s = .next (if !s.forceOpen then s.discard who true (regBase + (0xD140 + 4 * word.val)) [5]
      else s.faultForce word.val v.toNat) := by
  refine (exec_wordWrite h hw (by omega) (by omega) ?_ v.isLt).trans (congrArg _ (writeWord_fltForce ..))
  fin_cases word <;> rfl

theorem forceOpen_iff (s : State) : s.forceOpen = true ↔ s.bootLevel = true ∨ s.modeOf = .test ∨ s.modeOf = .maintenance := by
  rw [State.forceOpen, Bool.or_eq_true]
  cases s.modeOf <;> simp [forceMode, Mode.code]

/-- What RIF_DISCARD holds of a discard for cause 5, whose source is FS186. -/
def noteForceRefused (s : State) (who : Sys2Proof.Requester) (addr : Nat) : State :=
  ((((s.flag Reg.RIF_DISCARD_VALID).put Reg.RIF_DISCARD_CAUSE 5).put Reg.RIF_DISCARD_REQUESTER (requesterCode who)).put Reg.RIF_DISCARD_WRITE 1).put
    Reg.RIF_DISCARD_ADDR_ADDR addr

theorem discard_forceRefused (s : State) (who : Sys2Proof.Requester) (addr : Nat) :
    s.discard who true addr [5] = State.noteForceRefused ((s.inc (Reg.RIF_DISCARD_COUNT_COUNT 5)).raise 186) who addr := by
  simp only [State.discard, List.foldl_cons, List.foldl_nil, discardSource, b2n, if_true, noteForceRefused]

/-- A refused force: recorded with cause 5, FS186 raised, and the sticky and force bits of others as they were. -/
theorem discard_forceRefused_leaves (s : State) (who : Sys2Proof.Requester) (addr : Nat) :
    (s.discard who true addr [5]).sticky 186 = true ∧ (s.discard who true addr [5]).rd Reg.RIF_DISCARD_CAUSE = 5 ∧
    (∀ w, w < 6 → (s.discard who true addr [5]).rd (Reg.FLT_FORCE_FORCE w) = s.rd (Reg.FLT_FORCE_FORCE w)) ∧
    ∀ m, m < 192 → m ≠ 186 → (s.discard who true addr [5]).sticky m = s.sticky m := by
  rw [discard_forceRefused]
  have hinc {g : Fld} (hg : g.key < 0xD700 * 32) : (s.inc (Reg.RIF_DISCARD_COUNT_COUNT 5)).rd g = s.rd g :=
    rd_inc_other s 1 (by simp only [Fld.key] at hg ⊢; omega)
  have hnote (t : State) {g : Fld} (hg : g.key < 0xD700 * 32) : (t.noteForceRefused who addr).rd g = t.rd g := by
    unfold noteForceRefused
    rw [rd_put_other _ _ (by simp only [Fld.key] at hg ⊢; omega), rd_put_other _ _ (by simp only [Fld.key] at hg ⊢; omega),
      rd_put_other _ _ (by simp only [Fld.key] at hg ⊢; omega), rd_put_other _ _ (by simp only [Fld.key] at hg ⊢; omega),
      rd_flag_other _ (by simp only [Fld.key] at hg ⊢; omega)]
  have hsticky (t : State) {m : Nat} (hm : m < 192) : (t.noteForceRefused who addr).sticky m = t.sticky m :=
    bitOf_congr (hnote t (by simp only [Fld.key]; omega)) _
  refine ⟨(hsticky _ (by decide)).trans (sticky_raise_self _ (by decide) none), ?_, fun w hw => ?_, fun m hm hne => ?_⟩
  · unfold noteForceRefused
    rw [rd_put_other _ _ (by decide), rd_put_other _ _ (by decide), rd_put_other _ _ (by decide)]
    exact rd_put_self ..
  · have hraise (t : State) : (t.raise 186).rd (Reg.FLT_FORCE_FORCE w) = t.rd (Reg.FLT_FORCE_FORCE w) := by
      rw [raise_eq_raiseAt, rd_raiseAt_other _ 186 none (by simp only [Fld.key]; omega) (by simp only [Fld.key]; omega)
        (by simp only [Fld.key]; omega) (by simp only [Fld.key]; omega), rd_noteRaise_other _ 186 (by simp only [Fld.key]; omega)]
    rw [hnote _ (by simp only [Fld.key]; omega), hraise, hinc (by simp only [Fld.key]; omega)]
  · rw [hsticky _ hm, sticky_raise_others _ hm hne.symm none]
    exact bitOf_congr (hinc (by simp only [Fld.key]; omega)) _

theorem fltForce_lands {s : State} {who : Sys2Proof.Requester} {word : Fin 6} (h : s.Ready) (hw : s.MayWrite who (0xD140 + 4 * word.val)) (v : W32)
    (hopen : s.bootLevel = true ∨ s.modeOf = .test ∨ s.modeOf = .maintenance) :
    ∃ t, exec (.fltForce who word v) s = .next t ∧ t.rd (Reg.FLT_FORCE_FORCE word) = v.toNat ∧
      (∀ i, i < 32 → v.getLsbD i = true → s.forced (32 * word.val + i) = false → t.sticky (32 * word.val + i) = true) ∧
      (∀ i, i < 32 → v.getLsbD i = false ∨ s.forced (32 * word.val + i) = true → t.sticky (32 * word.val + i) = s.sticky (32 * word.val + i)) ∧
      (∀ m, m < 192 → m ≠ 32 → m ≠ 42 → t.live m = s.live m) := by
  obtain ⟨hword, hbits, hlive⟩ := faultForce_forces s (w := word.val) word.isLt v.isLt
  refine ⟨s.faultForce word.val v.toNat, ?_, hword, fun i hi hv hforced => ?_, fun i hi hkeep => ?_, hlive⟩
  · rw [exec_fltForce h hw, if_neg (by simp [(forceOpen_iff s).2 hopen])]
  · rw [hbits i hi, BitVec.testBit_toNat, hv, hforced]
    exact Bool.or_true _
  · have hstill : (v.getLsbD i && !s.forced (32 * word.val + i)) = false := by rcases hkeep with hk | hk <;> simp [hk]
    rw [hbits i hi, BitVec.testBit_toNat, hstill, Bool.or_false]

theorem fltForce_refused {s : State} {who : Sys2Proof.Requester} {word : Fin 6} (h : s.Ready) (hw : s.MayWrite who (0xD140 + 4 * word.val)) (v : W32)
    (hboot : s.bootLevel = false) (htest : s.modeOf ≠ .test) (hmaint : s.modeOf ≠ .maintenance) :
    ∃ t, exec (.fltForce who word v) s = .next t ∧ t.sticky 186 = true ∧ t.rd Reg.RIF_DISCARD_CAUSE = 5 ∧
      t.rd (Reg.FLT_FORCE_FORCE word) = s.rd (Reg.FLT_FORCE_FORCE word) ∧ (∀ m, m < 192 → m ≠ 186 → t.sticky m = s.sticky m) := by
  have hclosed : s.forceOpen = false := by
    refine Bool.eq_false_iff.2 (fun hopen => ?_)
    rcases (forceOpen_iff s).1 hopen with hb | ht | hm
    · simp [hboot] at hb
    · exact htest ht
    · exact hmaint hm
  obtain ⟨hsticky, hcause, hforce, hothers⟩ := discard_forceRefused_leaves s who (regBase + (0xD140 + 4 * word.val))
  refine ⟨_, ?_, hsticky, hcause, hforce word.val word.isLt, hothers⟩
  rw [exec_fltForce h hw, if_pos (by simp [hclosed])]

/-! ## Live bits that fall (R250) -/

theorem exec_liveBitExpire {s : State} (h : s.Ready) (n : Fin 192) : exec (.liveBitExpire n) s = .next (s.liveExpires n) :=
  command_ready h (fun s => s.liveExpires n)

theorem live_setLive_other (s : State) {n m : Nat} (hn : n < 192) (hne : n ≠ m) : (s.setLive n false).live m = s.live m := by
  have hlink (l : Nat) (hl : l < 2) : (s.setLive n false).linkRunning l = s.linkRunning l := by
    rw [State.linkRunning, State.setLive, rd_putBit_other _ _ _ (by simp only [Fld.key]; omega), State.linkRunning]
  have hbit : (s.setLive n false).bitOf (Reg.FLT_LIVE_LIVE (m / 32)) (m % 32) = s.bitOf (Reg.FLT_LIVE_LIVE (m / 32)) (m % 32) := by
    rw [State.setLive]
    by_cases hword : n / 32 = m / 32
    · rw [hword]
      exact bitOf_clearBit_other s (by omega) (show m % 32 < 32 from Nat.mod_lt m (by decide))
    · exact bitOf_congr (rd_putBit_other _ _ _ (by simp only [Fld.key]; omega)) _
  rw [State.live, hbit, hlink 0 (by decide), hlink 1 (by decide), State.live]

/-- The live bit of a control-class event source falls, and no other. -/
theorem liveExpires_event (s : State) {n : Nat} (hn : n < 192) (hkind : (Src.info n).kind = .event) (hc : Src.light n = false) :
    s.OnlyRegs (s.liveExpires n) [Reg.FLT_LIVE_LIVE (n / 32)] ∧ (s.liveExpires n).live n = false ∧
      ∀ m, m < 192 → m ≠ n → (s.liveExpires n).live m = s.live m := by
  have hstate : (Src.info 32).kind ≠ .event ∧ (Src.info 42).kind ≠ .event := by decide
  have hfalls : s.liveExpires n = s.setLive n false := if_pos (by simp [hkind, hc])
  rw [hfalls]
  exact ⟨onlyRegs_put .., live_setLive_false s (fun he => hstate.1 (he ▸ hkind)) (fun he => hstate.2 (he ▸ hkind)),
    fun m _ hne => s.live_setLive_other hn hne.symm⟩

theorem liveExpires_stays {s : State} {n : Nat} (h : (Src.info n).kind ≠ .event ∨ Src.light n = true) : s.liveExpires n = s :=
  if_neg (by rcases h with h | h <;> simp [h])

end State

end Sys2Proof.Machine
end

section

/-! # Chip resets that a fault requests, and the escalation timer (O30) -/

namespace Sys2Proof.Machine

/-- The registers that tell of a chip reset: SYS_RESET and FLT_RESET. -/
def resetRecordFields : List Fld := [Reg.SYS_RESET_CAUSE, Reg.FLT_RESET_VALID, Reg.FLT_RESET_SOURCE]

def resetRecordKey (k : Nat) : Bool := resetRecordFields.any (fun f => f.key == k)

theorem resetKey_of_record (k : Nat) (h : resetRecordKey k = true) : resetKey k = true := by
  have hfields : ∀ f ∈ resetRecordFields, resetKey f.key = true := by decide
  obtain ⟨f, hf, hk⟩ := List.any_eq_true.1 h
  rw [← beq_iff_eq.1 hk]
  exact hfields f hf

/-- The fields of other registers. -/
theorem resetRecordKey_other {f : Fld} (h28 : f.off ≠ 0x28) (hd014 : f.off ≠ 0xD014) (hlo : f.lo < 32) : resetRecordKey f.key = false := by
  simp only [resetRecordKey, resetRecordFields, List.any_cons, List.any_nil, Bool.or_false, Bool.or_eq_false_iff, beq_eq_false_iff_ne]
  simp only [Fld.key]
  omega

/-- The phase and what the registers tell of the last chip reset have stayed. -/
structure State.Recalls (s t : State) : Prop where
  phase : t.mode.phase = s.mode.phase
  rd : ∀ g : Fld, resetRecordKey g.key = true → t.rd g = s.rd g

namespace State.Recalls

variable {s t u : State}

theorem of_same (hphase : t.mode.phase = s.mode.phase := by rfl) (hregs : t.regs = s.regs := by rfl) : s.Recalls t :=
  ⟨hphase, fun _ _ => by rw [State.rd, hregs, State.rd]⟩

theorem refl (s : State) : s.Recalls s := of_same

theorem trans (h : s.Recalls t) (k : t.Recalls u) : s.Recalls u := ⟨k.phase.trans h.phase, fun g hg => (k.rd g hg).trans (h.rd g hg)⟩

theorem ite {c : Prop} [Decidable c] (ht : s.Recalls t) (hu : s.Recalls u) : s.Recalls (if c then t else u) := by
  split
  · exact ht
  · exact hu

theorem foldl {α : Type} {f : State → α → State} (hf : ∀ (s : State) a, s.Recalls (f s a)) (l : List α) (s : State) : s.Recalls (l.foldl f s) :=
  List.foldlRecOn l f (refl s) (fun t ht a _ => ht.trans (hf t a))

theorem put (h : s.Recalls t) {f : Fld} (v : Nat) (h28 : f.off ≠ 0x28) (hd014 : f.off ≠ 0xD014) (hlo : f.lo < 32) : s.Recalls (t.put f v) :=
  ⟨h.phase, fun g hg => (t.rd_put_other v (fun he => by simp [← he, resetRecordKey_other h28 hd014 hlo] at hg)).trans (h.rd g hg)⟩

theorem of_outlasts (h : s.Outlasts resetKey t) : s.Recalls t :=
  ⟨congrArg Modes.phase h.leaves.mode, fun _ hg => h.rd (resetKey_of_record _ hg)⟩

end State.Recalls

namespace State

/-! ## What the device does of itself leaves the record of a chip reset (R253) -/

theorem recalls_noteLinks (s : State) : s.Recalls s.noteLinks := by
  have hraise (t : State) {n : Nat} (hn : n < 192) (hc : Src.light n = false) : t.Recalls (t.raise n) := .of_outlasts (outlasts_raise t hn hc none)
  have hlose (t : State) : t.Recalls t.loseTwinLock := by
    have hputs : t.Recalls (((t.put Reg.PEER_STATUS_TWIN_LOCK 0).put Reg.PEER_STATUS_MATCH_RUN 0).flag Reg.PEER_EVENT_LOCK) :=
      .put (.put (.put (.refl t) _ (by decide) (by decide) (by decide)) _ (by decide) (by decide) (by decide)) _ (by decide) (by decide) (by decide)
    exact .ite (hputs.trans (.of_outlasts (outlasts_condition _ (by decide) rfl true))) (.refl t)
  unfold State.noteLinks
  extract_lets s1 s2
  have h1 : s.Recalls s1 := .ite (hraise s (by decide) rfl) (.refl s)
  have h2 : s1.Recalls s2 := .ite (hraise s1 (by decide) rfl) (.refl s1)
  exact (h1.trans h2).trans (.ite (.refl s2) (hlose s2))

theorem recalls_noteEyes (s : State) : s.Recalls s.noteEyes := by
  refine .foldl (fun t i => .ite (.refl t) ?_) _ s
  unfold State.eyeFinish
  extract_lets t1
  have h1 : t.Recalls t1 := .put (.put (.put (.refl t) _ (by simp only; omega) (by simp only; omega) (by simp only; omega)) _ (by simp only; omega)
    (by simp only; omega) (by simp only; omega)) _ (by simp only; omega) (by simp only; omega) (by simp only; omega)
  exact .ite (.refl t) (.put (.put h1 _ (by simp only; omega) (by simp only; omega) (by simp only; omega)) _ (by simp only; omega)
    (by simp only; omega) (by simp only; omega))

theorem recalls_holdSnap (s : State) : s.Recalls s.holdSnap := by
  unfold State.holdSnap
  split
  · exact .ite .of_same (.refl s)
  · exact .refl s

theorem recalls_noteLight (s : State) : s.Recalls s.noteLight := .ite (.refl s) .of_same

theorem recalls_noteVerified (s : State) : s.Recalls s.noteVerified := .of_outlasts (outlasts_condition s (by decide) rfl _)

theorem recalls_noteOutputs (s : State) : s.Recalls s.noteOutputs := by
  have hdrive (t : State) (o : Nat) (b : Bool) : t.Recalls (t.driveOut o b) := by
    have hout : (soutFld o).off = 0xA014 ∧ (soutFld o).lo < 32 := by
      unfold soutFld
      split <;> decide
    exact .put (.put (.put (.refl t) _ (by rw [hout.1]; decide) (by rw [hout.1]; decide) hout.2) _ (by decide) (by decide) (by decide)) _
      (by decide) (by decide) (by decide)
  have hsaf (t : State) (x : Safety) : t.Recalls (t.setSaf x) := .of_same
  refine .foldl (fun t o => .ite ?_ (.refl t)) _ s
  exact .put ((hdrive t o false).trans (hsaf _ _)) _ (by decide) (by decide) (by decide)

theorem recalls_noteMode (s : State) : s.Recalls s.noteMode := by
  have hforces : s.Recalls s.clearForces :=
    .foldl (fun t w => .put (.refl t) _ (by simp only; omega) (by simp only; omega) (by simp only; omega)) _ s
  unfold State.noteMode
  split
  · exact .refl s
  · extract_lets s1
    have h1 : s.Recalls s1 := .ite hforces (.refl s)
    have hseen : s1.Recalls { s1 with mode := { s1.mode with seen := s1.modeWord } } := .of_same
    exact .put (f := Reg.SYS_MODE_EVENT_MODE) (h1.trans hseen) 1 (by decide) (by decide) (by decide)

theorem recalls_noteHealth (s : State) : s.Recalls s.noteHealth := .of_same

theorem recalls_sendMsg (s : State) (code arg : Nat) (payload : List Byte) : s.Recalls (s.sendMsg code arg payload) :=
  .ite (.put .of_same _ (by decide) (by decide) (by decide)) (.refl s)

theorem recalls_noteSummary (s : State) : s.Recalls s.noteSummary := by
  have hseen : s.Recalls { s with rif := { s.rif with summary := s.summary } } := .of_same
  exact .ite (.refl s) (.ite (hseen.trans (.foldl (fun u i => .ite (recalls_sendMsg ..) (.refl u)) _ _)) hseen)

theorem recalls_setLink (s : State) (l : LinkId) (x : Link) : s.Recalls (s.setLink l x) := .of_same

theorem recalls_numberPacket (s : State) (l : LinkId) (p : OutPacket) : s.Recalls (s.numberPacket l p) := by
  unfold State.numberPacket
  extract_lets x q s1 staging
  have h1 : s.Recalls s1 := .put (.refl s) _ (by cases l <;> decide) (by cases l <;> decide) (by cases l <;> decide)
  split
  · exact h1.trans (recalls_setLink ..)
  · exact h1.trans (recalls_setLink ..)

theorem recalls_fillReplay (s : State) (l : LinkId) (ps : List OutPacket) : s.Recalls (s.fillReplay l ps) := by
  induction ps generalizing s with
  | nil => exact recalls_setLink ..
  | cons p ps ih => exact .ite ((recalls_numberPacket s l p).trans (ih _)) (recalls_setLink ..)

theorem recalls_pumpLink (s : State) (l : LinkId) : s.Recalls (s.pumpLink l) := by
  unfold State.pumpLink
  split
  · exact .refl s
  · extract_lets s1 x tx first
    have h1 : s.Recalls s1 := .ite (.refl s) (recalls_fillReplay ..)
    exact .ite h1 (h1.trans (recalls_setLink ..))

theorem recalls_pump (s : State) : s.Recalls s.pump := by
  have htake : s.Recalls s.takeMsgs := .ite (.refl s) .of_same
  exact (htake.trans (recalls_pumpLink ..)).trans (recalls_pumpLink ..)

theorem recalls_copyStep (s : State) (item : CopyItem) (rest : List CopyItem) : s.Recalls (s.copyStep item rest) := by
  have hxctl (t : State) (kind : Nat) (body : List Byte) : t.Recalls (t.sendXctl kind body) := .ite .of_same (.refl t)
  have hxfer (t : State) (a n : Nat) : t.Recalls (t.sendXfer a n) := .of_same
  have hleft (t : State) (items : List CopyItem) : t.Recalls (t.setPeer { t.peer with copyOut := items }) := .of_same
  cases item with
  | slots => exact (hxctl ..).trans (hleft ..)
  | bytes a n => exact (hxfer ..).trans (hleft ..)
  | berth b => exact Recalls.trans (.ite (hxctl ..) (.refl s)) (hleft ..)
  | layer b off => exact .ite (hleft ..) ((hxfer ..).trans (hleft ..))
  | wharf => exact (hxctl ..).trans (hleft ..)
  | done => exact (hxctl ..).trans (hleft ..)

theorem recalls_copyGoesOn (s : State) (n : Nat) : s.Recalls (s.copyGoesOn n) := by
  induction n generalizing s with
  | zero => exact .refl s
  | succ n ih =>
    unfold State.copyGoesOn
    split
    · exact .refl s
    · next item rest _ => exact .ite .of_same (.ite (.refl s) (((recalls_copyStep s item rest).trans (recalls_pumpLink ..)).trans (ih _)))

/-- What the device does of itself after a chip reset leaves the phase and the record of that reset. -/
theorem settle_chipReset {s : State} {n : Nat} (h : s.flt.crReq = some n) : (s.warmReset 2 (some n)).Recalls s.settle := by
  unfold State.settle
  rw [h]
  exact (((((((((((recalls_noteLinks _).trans (recalls_noteEyes _)).trans (recalls_holdSnap _)).trans (recalls_noteLight _)).trans
    (recalls_noteVerified _)).trans (recalls_noteOutputs _)).trans (recalls_noteMode _)).trans (recalls_noteHealth _)).trans
    (recalls_noteSummary _)).trans (recalls_pump _)).trans (recalls_copyGoesOn _ copyTurns))

/-- A requested chip reset is made: the device is in Reset, and the registers name the source (R253). -/
theorem chipReset_settles {s : State} {n : Nat} (hn : n < 256) (h : s.flt.crReq = some n) :
    s.settle.mode.phase = .reset ∧ s.settle.on Reg.FLT_RESET_VALID = true ∧ s.settle.rd Reg.FLT_RESET_SOURCE = n ∧
      s.settle.rd Reg.SYS_RESET_CAUSE = 2 := by
  obtain ⟨hphase, hrd⟩ := settle_chipReset h
  obtain ⟨hreset, hcause, -⟩ := warmReset_leaves s (cause := 2) (by decide)
  have hwarm : s.warmReset 2 (some n) = ((s.warmReset 2 none).put Reg.FLT_RESET_VALID 1).put Reg.FLT_RESET_SOURCE n := rfl
  rw [hwarm] at hphase hrd
  rw [mode_put, mode_put] at hphase
  generalize s.warmReset 2 none = u at *
  refine ⟨hphase.trans hreset, ?_, (hrd _ (by decide)).trans (rd_put_fits _ hn), ?_⟩
  · exact (on_congr ((hrd _ (by decide)).trans (rd_put_other _ _ (by decide)))).trans (on_flag_self _ (by decide))
  · exact (hrd _ (by decide)).trans ((rd_put_other _ _ (by decide)).trans ((rd_put_other _ _ (by decide)).trans hcause))

/-! ## The escalation timer (R257) -/

/-- The timer has expired: it is stopped, and OVERDUE is noted. -/
def overdue (s : State) : State :=
  (State.put { s with flt := { s.flt with escalateAt := none } } Reg.FLT_NMI_TIMING 0).flag Reg.FLT_NMI_OVERDUE

theorem exec_escalationTimeout {s : State} (h : s.Ready) : exec .escalationTimeout s = .next s.escalationExpires :=
  command_ready h (fun s => s.escalationExpires)

theorem escalationExpires_idle {s : State} (h : s.flt.escalateAt = none) : s.escalationExpires = s := if_pos (by simp [h])

theorem escalationExpires_running {s : State} (h : s.flt.escalateAt ≠ none) :
    s.escalationExpires = if (s.overdue.raise 5).on Reg.FLT_ESCALATE_EN then (s.overdue.raise 5).requestReset 5 else s.overdue.raise 5 :=
  if_neg (by simp [h])

theorem rd_overdue (s : State) {g : Fld} (ht : Reg.FLT_NMI_TIMING.key ≠ g.key) (ho : Reg.FLT_NMI_OVERDUE.key ≠ g.key) : s.overdue.rd g = s.rd g :=
  (rd_flag_other _ ho).trans (rd_put_other _ _ ht)

/-- An expiry raises FS005 and, where EN is set, requests a chip reset for it. -/
theorem escalationExpires_leaves {s : State} (h : s.flt.escalateAt ≠ none) :
    s.escalationExpires.sticky 5 = true ∧ s.escalationExpires.on Reg.FLT_NMI_OVERDUE = true ∧
    (s.on Reg.FLT_ESCALATE_EN = true → s.flt.crReq = none → s.escalationExpires.flt.crReq = some 5) ∧
    (s.on Reg.FLT_ESCALATE_EN = false → s.on (Reg.FLT_REACT_CR 5) = false → s.escalationExpires.flt.crReq = s.flt.crReq) := by
  have hraise := outlasts_raise s.overdue (n := 5) (by decide) rfl none
  obtain ⟨-, e, hflt⟩ := s.overdue.raise_control_parts (n := 5) (by decide) none rfl
  have hcr : (s.overdue.raise 5).flt.crReq = s.overdue.chipAfter 5 := congrArg Faults.crReq hflt
  have hsticky : (s.overdue.raise 5).sticky 5 = true := sticky_raise_self _ (by decide) none
  have hoverdue : (s.overdue.raise 5).on Reg.FLT_NMI_OVERDUE = true :=
    (on_congr (hraise.rd (by decide))).trans (on_flag_self _ (by decide))
  have hen : (s.overdue.raise 5).on Reg.FLT_ESCALATE_EN = s.on Reg.FLT_ESCALATE_EN :=
    on_congr ((hraise.rd (by decide)).trans (s.rd_overdue (by decide) (by decide)))
  have hselects : s.overdue.on (Reg.FLT_REACT_CR 5) = s.on (Reg.FLT_REACT_CR 5) := on_congr (s.rd_overdue (by decide) (by decide))
  have hreq : s.overdue.flt.crReq = s.flt.crReq := rfl
  rw [escalationExpires_running h, hen]
  generalize s.overdue.raise 5 = u at *
  cases hon : s.on Reg.FLT_ESCALATE_EN with
  | false =>
    rw [if_neg Bool.false_ne_true]
    refine ⟨hsticky, hoverdue, fun hoff => absurd hoff (by decide), fun _ hoff => ?_⟩
    rw [hcr, chipAfter, hselects, hoff, hreq]
    rfl
  | true =>
    rw [if_pos rfl]
    refine ⟨hsticky, hoverdue, fun _ hnone => ?_, fun hoff => absurd hoff (by decide)⟩
    have hrequest : (u.requestReset 5).flt.crReq = some (match u.flt.crReq with | none => 5 | some m => min m 5) := rfl
    rw [hrequest, hcr, chipAfter, hreq, hnone]
    cases s.overdue.on (Reg.FLT_REACT_CR 5) <;> rfl

theorem escalationTimeout_expires {s : State} (hs : s.Ready) (h : s.flt.escalateAt ≠ none) :
    ∃ t, exec .escalationTimeout s = .next t ∧ t.sticky 5 = true ∧ t.on Reg.FLT_NMI_OVERDUE = true ∧
      (s.on Reg.FLT_ESCALATE_EN = true → s.flt.crReq = none →
        t.settle.mode.phase = .reset ∧ t.settle.on Reg.FLT_RESET_VALID = true ∧ t.settle.rd Reg.FLT_RESET_SOURCE = 5 ∧
          t.settle.rd Reg.SYS_RESET_CAUSE = 2) ∧
      (s.on Reg.FLT_ESCALATE_EN = false → s.on (Reg.FLT_REACT_CR 5) = false → t.flt.crReq = s.flt.crReq) := by
  obtain ⟨hsticky, hoverdue, hresets, hkeeps⟩ := escalationExpires_leaves h
  exact ⟨_, exec_escalationTimeout hs, hsticky, hoverdue, fun hen hnone => chipReset_settles (by decide) (hresets hen hnone), hkeeps⟩

end State

end Sys2Proof.Machine
end

section

/-! # The end of block resets (O30) -/

namespace Sys2Proof.Machine

namespace State

/-- A block leaves reset. -/
def outOfReset (s : State) (b : Block) : State := { s with flt := { s.flt with inReset := s.flt.inReset.filter (· ≠ b) } }

theorem mem_outOfReset {s : State} {b c : Block} (hne : c ≠ b) (h : c ∈ s.flt.inReset) : c ∈ (s.outOfReset b).flt.inReset :=
  List.mem_filter.2 ⟨h, decide_eq_true hne⟩

theorem not_mem_outOfReset (s : State) (b : Block) : b ∉ (s.outOfReset b).flt.inReset := fun h => of_decide_eq_true (List.mem_filter.1 h).2 rfl

theorem exec_blockResetDone {s : State} (h : s.Ready) (b : Block) (ok : Bool) : exec (.blockResetDone b ok) s = .next (s.blockReady b ok) :=
  command_ready h (fun s => s.blockReady b ok)

theorem blockReady_up {s : State} {b : Block} (h : b ∉ s.flt.inReset) (ok : Bool) : s.blockReady b ok = s := if_pos (by simp [h])

/-- A block without more to do is ready at once. -/
theorem blockReady_plain {s : State} {b : Block} (h : b ∈ s.flt.inReset) (hb : b = .nand ∨ b = .safety ∨ b = .pairing ∨ b = .crc) (ok : Bool) :
    s.blockReady b ok = s.outOfReset b := by
  have hin : ¬ (!s.flt.inReset.contains b) = true := by simp [h]
  rcases hb with rfl | rfl | rfl | rfl
  all_goals exact if_neg hin

/-! ## Links (R270) -/

theorem blockReady_link {s : State} {l : LinkId} (h : linkBlock l ∈ s.flt.inReset) (ok : Bool) :
    s.blockReady (linkBlock l) ok =
      if s.on (Reg.LNK_CTRL_EN l.num) then (s.outOfReset (linkBlock l)).linkSwitch l true else s.outOfReset (linkBlock l) := by
  cases l
  · exact if_neg (by simpa using h)
  · exact if_neg (by simpa using h)

/-- A disabled link leaves DISABLED without a raise. -/
theorem flt_toDetect {s : State} {l : LinkId} (h : s.rd (Reg.LNK_STATUS_STATE l.num) = 0) : (s.toDetect l).flt = s.flt := by
  have hdown : (s.setLink l { s.linkAt l with recovering := false, since := s.now }).linkUp l = false := linkUp_false h (by decide) (by decide)
  unfold State.toDetect State.setLinkState
  rw [if_neg (by rw [rd_setLink, h]; decide), hdown]
  rfl

theorem flt_linkSwitch_on (s : State) (l : LinkId) : (s.linkSwitch l true).flt = s.flt := by
  by_cases h : s.rd (Reg.LNK_STATUS_STATE l.num) = 0
  · unfold State.linkSwitch
    rw [if_neg (by decide), apply_ite State.flt, flt_toDetect h, ite_self]
  · rw [linkSwitch_on h]

theorem linkSwitch_up {s : State} {l : LinkId} (h : s.rd (Reg.LNK_STATUS_STATE l.num) = 0) (hen : s.linksEnabled l = true)
    (hup : linkBlock l ∉ s.flt.inReset) : s.linkSwitch l true = s.toDetect l := by
  refine (if_neg (by decide)).trans (if_pos ⟨h, hen, ?_⟩)
  cases l
  · simpa [linkBlock] using hup
  · simpa [linkBlock] using hup

/-- The end of a link's reset: the link is out of it, and where it is enabled it goes to DETECT. -/
theorem blockReady_link_leaves {s : State} {l : LinkId} (h : linkBlock l ∈ s.flt.inReset) (ok : Bool) :
    (s.blockReady (linkBlock l) ok).flt = (s.outOfReset (linkBlock l)).flt ∧
    (s.on (Reg.LNK_CTRL_EN l.num) = true → s.rd (Reg.LNK_STATUS_STATE l.num) = 0 → s.linksEnabled l = true →
      (s.blockReady (linkBlock l) ok).rd (Reg.LNK_STATUS_STATE l.num) = 1) ∧
    (s.on (Reg.LNK_CTRL_EN l.num) = false →
      (s.blockReady (linkBlock l) ok).rd (Reg.LNK_STATUS_STATE l.num) = s.rd (Reg.LNK_STATUS_STATE l.num)) := by
  rw [blockReady_link h]
  cases hon : s.on (Reg.LNK_CTRL_EN l.num) with
  | false => exact ⟨rfl, fun hoff => absurd hoff (by decide), fun _ => rfl⟩
  | true =>
    refine ⟨flt_linkSwitch_on .., fun _ hstate hen => ?_, fun hoff => absurd hoff (by decide)⟩
    have hzero : (s.outOfReset (linkBlock l)).rd (Reg.LNK_STATUS_STATE l.num) = 0 := hstate
    rw [if_pos rfl, linkSwitch_up hzero hen (s.not_mem_outOfReset _)]
    exact state_toDetect hzero

/-! ## The security engine (R363) -/

theorem blockReady_security {s : State} (h : Block.security ∈ s.flt.inReset) (ok : Bool) :
    s.blockReady .security ok = (s.outOfReset .security).knownAnswers ok :=
  if_neg (by simp [h])

theorem Outlasts.katFails {P : Nat → Bool} {s t : State} (h : s.Outlasts P t) : t.sec.katFails = s.sec.katFails := (congrArg Trust.katFails h.sec :)

theorem Outlasts.engineOff {P : Nat → Bool} {s t : State} (h : s.Outlasts P t) : t.sec.engineOff = s.sec.engineOff := (congrArg Trust.engineOff h.sec :)

/-- The known-answer tests have failed once more. -/
def katFailed (s : State) : State :=
  { s with sec := { s.sec with katFails := s.sec.katFails + 1, engineOff := s.sec.engineOff || decide (2 ≤ s.sec.katFails + 1) } }

theorem knownAnswers_fails (s : State) : s.knownAnswers false = (s.katFailed.raise 20).flag Reg.SEC_EVENT_ENTROPY := rfl

theorem knownAnswers_fails_leaves (s : State) :
    (s.knownAnswers false).sec.katFails = s.sec.katFails + 1 ∧ (s.knownAnswers false).sticky 20 = true ∧
    (s.knownAnswers false).on Reg.SEC_EVENT_ENTROPY = true ∧ (1 ≤ s.sec.katFails → (s.knownAnswers false).sec.engineOff = true) ∧
    ∀ c ∈ s.flt.inReset, c ∈ (s.knownAnswers false).flt.inReset := by
  have hraise := outlasts_raise s.katFailed (n := 20) (by decide) rfl none
  obtain ⟨-, e, hflt⟩ := s.katFailed.raise_control_parts (n := 20) (by decide) none rfl
  have hsticky : (s.katFailed.raise 20).sticky 20 = true := sticky_raise_self _ (by decide) none
  have hfails := hraise.katFails
  have hoff := hraise.engineOff
  have hin : (s.katFailed.raise 20).flt.inReset = s.katFailed.resetsAfter 20 := congrArg Faults.inReset hflt
  rw [knownAnswers_fails]
  clear hraise hflt
  generalize s.katFailed.raise 20 = u at *
  refine ⟨hfails, (bitOf_congr (rd_flag_other _ (by decide)) _).trans hsticky, on_flag_self _ (by decide), fun hone => hoff.trans ?_, fun c hc => ?_⟩
  · simp [katFailed, hone]
  · have hmem : c ∈ s.katFailed.flt.inReset := hc
    have hstays : (u.flag Reg.SEC_EVENT_ENTROPY).flt.inReset = s.katFailed.resetsAfter 20 := hin
    exact hstays ▸ mem_resetsAfter hmem 20

/-- The end of the security engine's reset, with the outcome of its known-answer tests. -/
theorem blockReady_security_leaves {s : State} (h : Block.security ∈ s.flt.inReset) (ok : Bool) :
    (∀ c, c ≠ .security → c ∈ s.flt.inReset → c ∈ (s.blockReady .security ok).flt.inReset) ∧
    (ok = true → Block.security ∉ (s.blockReady .security ok).flt.inReset ∧ (s.blockReady .security ok).sec.katFails = 0 ∧
      (s.blockReady .security ok).sec.engineOff = s.sec.engineOff ∧ (s.blockReady .security ok).regs = s.regs) ∧
    (ok = false → (s.blockReady .security ok).sec.katFails = s.sec.katFails + 1 ∧ (s.blockReady .security ok).sticky 20 = true ∧
      (s.blockReady .security ok).on Reg.SEC_EVENT_ENTROPY = true ∧ (1 ≤ s.sec.katFails → (s.blockReady .security ok).sec.engineOff = true)) := by
  rw [blockReady_security h]
  cases ok with
  | true =>
    exact ⟨fun c hne hc => mem_outOfReset hne hc, fun _ => ⟨s.not_mem_outOfReset .security, rfl, rfl, rfl⟩, fun hfalse => absurd hfalse (by decide)⟩
  | false =>
    obtain ⟨hfails, hsticky, hevent, hoff, hin⟩ := (s.outOfReset .security).knownAnswers_fails_leaves
    exact ⟨fun c hne hc => hin c (mem_outOfReset hne hc), fun htrue => absurd htrue (by decide), fun _ => ⟨hfails, hsticky, hevent, hoff⟩⟩

/-- The other blocks in reset stay in it. -/
theorem blockReady_others {s : State} {b c : Block} (h : b ∈ s.flt.inReset) (ok : Bool) (hne : c ≠ b) (hc : c ∈ s.flt.inReset) :
    c ∈ (s.blockReady b ok).flt.inReset := by
  have hplain (hb : b = .nand ∨ b = .safety ∨ b = .pairing ∨ b = .crc) : c ∈ (s.blockReady b ok).flt.inReset := by
    rw [blockReady_plain h hb]
    exact mem_outOfReset hne hc
  have hlink (l : LinkId) (hb : b = linkBlock l) : c ∈ (s.blockReady b ok).flt.inReset := by
    subst hb
    rw [(blockReady_link_leaves h ok).1]
    exact mem_outOfReset hne hc
  cases b with
  | hostLink => exact hlink .host rfl
  | peerLink => exact hlink .peer rfl
  | security => exact (blockReady_security_leaves h ok).1 c hne hc
  | nand => exact hplain (.inl rfl)
  | safety => exact hplain (.inr (.inl rfl))
  | pairing => exact hplain (.inr (.inr (.inl rfl)))
  | crc => exact hplain (.inr (.inr (.inr rfl)))

end State

/-- Settles O30: FLT_CLEAR and FLT_FORCE bit by bit, the timer by the chip reset that it requests, the end of a block reset by the block. -/
theorem faultCommandsAndBlockResets : Obligations.FaultCommandsAndBlockResets := by
  unfold Obligations.FaultCommandsAndBlockResets
  refine ⟨fun s who word v hs => ⟨fun hw => State.fltClear_clears hs hw v, fun hw => ⟨State.fltForce_lands hs hw v, State.fltForce_refused hs hw v⟩,
    fun n => ⟨fun ⟨hkind, hc⟩ => ?_, fun hstays => ?_⟩, fun hidle => ?_, State.escalationTimeout_expires hs⟩, fun s b ok hs => ⟨fun hup => ?_, fun hin => ?_⟩⟩
  · exact ⟨_, State.exec_liveBitExpire hs n, s.liveExpires_event n.isLt hkind hc⟩
  · rw [State.exec_liveBitExpire hs, State.liveExpires_stays hstays]
  · rw [State.exec_escalationTimeout hs, State.escalationExpires_idle hidle]
  · rw [State.exec_blockResetDone hs, State.blockReady_up hup]
  · refine ⟨_, State.exec_blockResetDone hs b ok, fun c hne hc => State.blockReady_others hin ok hne hc, fun hb => ?_, fun hb => ?_, fun hb => ?_, fun l hb => ?_⟩
    · rw [State.blockReady_plain hin hb]
      exact ⟨s.not_mem_outOfReset b, rfl⟩
    · subst hb
      exact (State.blockReady_security_leaves hin ok).2.1
    · subst hb
      exact (State.blockReady_security_leaves hin ok).2.2
    · obtain rfl : b = State.linkBlock l := by rw [hb]; cases l <;> rfl
      obtain ⟨hflt, hdetect, hstays⟩ := State.blockReady_link_leaves hin ok
      exact ⟨by rw [hflt]; exact s.not_mem_outOfReset _, hdetect, hstays⟩

end Sys2Proof.Machine
end
